-- ==== Sys2Proof/Word.lean ====
section
/-!
DEFINITION. The word types of the register interface (00_scope.md, R4 to R8): 32-bit registers, 64-bit counts, bytes.
-/
namespace Sys2Proof

/-- A 32-bit register value. -/
abbrev Word := BitVec 32

/-- A 64-bit value: the tide count, a pair of registers (R806). -/
abbrev DWord := BitVec 64

/-- A byte of a basin, harbour, flash or host image. -/
abbrev Byte := BitVec 8

end Sys2Proof
end

