-- ==== Sys2Proof/Syntax.lean ====
section
/-!
DEFINITION. The commands the block takes (spec/opcode_table.json), one constructor per row.

A command carries what the spec leaves to the part's surroundings or to its analogue side at that moment: the instance it
concerns, a value written, the data or the verdict of an exchange with host memory, a regulator, a sensor or a
cryptographic engine, the instant of an arrival within a tick (log entry 2).  What the part itself decides is computed
from State.
-/
namespace Sys2Proof

/-- A grid island, y × 8 + x (R16). -/
abbrev Isl := Fin 64
/-- A global tile, island × 16 + tile (R16). -/
abbrev Tile := Fin 1024
/-- A context; also a PCIe function (R663). -/
abbrev Ctx := Fin 64
/-- A ticket-table index (R475). -/
abbrev TktIx := Fin 256
/-- A partition (R667). -/
abbrev Part := Fin 8
/-- A pilot. -/
abbrev Pilot := Fin 8
/-- A harbour stack. -/
abbrev Stack := Fin 6

/-- R780: who makes a register access. -/
inductive Requester
  /-- PCIe function `f`: 0 is the PF, 1 to 63 the VFs. -/
  | fn (f : Fin 64)
  /-- Pilot Pn. -/
  | pilot (n : Fin 8)
  /-- The causeway, through P1. -/
  | causeway
  /-- The debug transport. -/
  | debug
  deriving DecidableEq, Repr

/-- What a command written to a register needs from outside the block (log entry 2): the verdict of a check (KEY_CMD: the staged key is a
point of the curve; DBG_CMD: the token's signature verifies; FW_CMD: the image was read whole), and for FW_CMD the image read from host memory,
with the version and security version that its header states. -/
structure WriteEnv where
  ok : Bool := true
  image : List (BitVec 8) := []
  ver : BitVec 32 := 0
  svn : Fin 65536 := 0
  deriving DecidableEq, Repr

/-- The commands of the block: one constructor per row of the table of operations and events. -/
inductive Instr
  /-- TIDE_TICK (R468). A tide tick edge advances the 64-bit tide count by exactly one on every island. -/
  | tideTick
  /-- TIDE_PLL_LOCK (R466). The tide PLL achieves lock to REFCLK and the count starts or resumes. -/
  | tidePllLock
  /-- REFCLK_LOSS (R1105). REFCLK shows no transition for 100 ns or leaves ±1,000 ppm, so it is declared lost. -/
  | refclkLoss (torn : List Tile)
  /-- REFCLK_RETURN (R472). REFCLK returns; the tide PLL relocks and leaves holdover without a phase step. -/
  | refclkReturn
  /-- RESYNC_WORD (R474). Every 1,024 ticks the full count and its CRC-8 are sent to every island, which compares it with its own copy. -/
  | resyncWord (bad silent : List Isl)
  /-- TICKET_ISSUE (R347). The sequencer issues a ticket into the ticket table 32 ticks before its launch tick. -/
  | ticketIssue (isl : Isl)
  /-- FOUNTAIN_EXPAND (R259). One tick before a pulse launch edge, the fountain reads the token row, tail and side list and expands the codes to RDF8. -/
  | fountainExpand (isl : Isl) (idx : TktIx)
  /-- STANDARD_PULSE (R60). A standard pulse ticket launches, is granted 40 drops, and the tile runs reset, drive, share and convert. -/
  | standardPulse (isl : Isl) (idx : TktIx) (errs : List (Nat × Int))
  /-- EXTENDED_PULSE (R61). An extended pulse ticket launches with 52 drops and adds a ×16 residue conversion. -/
  | extendedPulse (isl : Isl) (idx : TktIx) (errs : List (Nat × Int))
  /-- TRANSPOSE_PHASE (R78). One transpose phase drives the data columns and converts one quarter of the rows plus the reference row. -/
  | transposePhase (isl : Isl) (idx : TktIx) (errs : List (Nat × Int))
  /-- SPILL_ROW_READ (R307). A spill slot with an applied entry launches a row read of the escaped row on the pulse's tile. -/
  | spillRowRead (gt : Tile) (devs : List (Fin 528 × Fin 64))
  /-- ROWIO_READ (R448). A ROWIO read copies one row's 512 data levels into the basin, or writes 0xFF if the read failed. -/
  | rowioRead (isl : Isl) (idx : TktIx) (devs : List (Fin 528 × Fin 64))
  /-- ROWIO_WRITE (R449). A ROWIO write writes 512 basin level bytes into a row, or writes nothing if any byte is above 63. -/
  | rowioWrite (isl : Isl) (idx : TktIx)
  /-- ACTION_ACK (R481). A unit's acknowledgement of a launched action is registered at a tick edge, freeing the ticket and its dependants. -/
  | actionAck (isl : Isl) (idx : TktIx) (early : Fin 8)
  /-- TIDE_MISS (R483). A ticket's acknowledgement is not registered at its deadline edge; the miss is handled under the plan's policy. -/
  | tideMiss (isl : Isl) (idx : TktIx)
  /-- TIDE_HANG (R485). A ticket stays unacknowledged 65,536 ticks past its deadline, or waits that long in STATE 2, and is handed to P4. -/
  | tideHang (isl : Isl) (idx : TktIx)
  /-- SLACK_WINDOW_END (R487). At a slack window boundary, the minimum slack of each class is latched. -/
  | slackWindowEnd
  /-- STEP_ORIGIN (R743). A RUN's step origin arrives once its inputs, EARLIEST and the previous step allow it. -/
  | stepOrigin (j : Nat)
  /-- PPS_EDGE (R500). A TIDE_PPS edge is captured, checked for acceptance and used to set the base or trim the frequency. -/
  | ppsEdge (falling : Bool) (ns : Fin 8) (trim : Int)
  /-- TIDE_PPS_LOST (R505). No edge is accepted for 1.5 s; MISSING is set, LOCKED clears and the trim holds. -/
  | tidePpsLost
  /-- PPS_CTL_WRITE (R523). A write to PPS_CTL changes the PPS mode, keeping the trim or slewing it to 0. -/
  | ppsCtlWrite (rq : Requester) (v : Word)
  /-- PPS_BASE_WRITE (R522). A write to PPS_BASE in DISCIPLINE takes effect at the next accepted edge and clears LOCKED. -/
  | ppsBaseWrite (rq : Requester) (v : DWord)
  /-- TIDE_OUT_MARKER (R507). A selected marker tick arrives and TIDE_OUT is driven for WIDTH ticks. -/
  | tideOutMarker
  /-- TKT_SEL_WRITE (R512). A write to TKT_SEL copies 64 ticket entries into TKT_WIN at one tick. -/
  | tktSelWrite (rq : Requester) (v : Word)
  /-- SLK_CTL_WRITE (R513). A change of SLK_CTL island or window resets SLK_MIN0–3 and restarts windowing. -/
  | slkCtlWrite (rq : Requester) (v : Word)
  /-- TUNIT_LOCK (R93). A tile's t_unit delay line acquires lock after the tide PLL locks. -/
  | tunitLock (gt : Tile)
  /-- TIL_TUNIT_UNLOCK (R95). A tile's delay line loses lock; actions in flight are acknowledged DL_UNLOCK with their stated effects on cells. -/
  | tilTunitUnlock (gt : Tile) (begun : Bool)
  /-- DESCALE (R265). The rill de-scales one acknowledgement's counts, adds spill terms and accumulates the cascade partial. -/
  | descale (isl : Isl) (idx : TktIx)
  /-- QUANT (R253). The rill quantises a value row to an INT8 or INT4 token row with a per-row scale. -/
  | quant (isl : Isl) (idx : TktIx)
  /-- OUTSEL (R299). The rill selects the largest outliers above TH into a side list. -/
  | outsel (isl : Isl) (idx : TktIx)
  /-- ACT (R357). The rill applies ReLU, a clamp or a piecewise-linear function to a value row. -/
  | actOp (isl : Isl) (idx : TktIx)
  /-- ADD (R357). The rill adds two value rows elementwise. -/
  | addOp (isl : Isl) (idx : TktIx)
  /-- MUL (R357). The rill multiplies two value rows elementwise. -/
  | mulOp (isl : Isl) (idx : TktIx)
  /-- NORM (R357). The rill normalises a value row. -/
  | normOp (isl : Isl) (idx : TktIx)
  /-- SOFTMAX (R357). The rill computes the softmax of a value row. -/
  | softmax (isl : Isl) (idx : TktIx)
  /-- COPY (R357). The rill copies a token or value row with its tail and side list. -/
  | copyOp (isl : Isl) (idx : TktIx)
  /-- GQUANT (R427). The rill quantises a gradient row using the forward input row's scale. -/
  | gquant (isl : Isl) (idx : TktIx)
  /-- OUTER (R432). The rill accumulates INT8 outer products of one band into its INT32 accumulator. -/
  | outer (isl : Isl) (idx : TktIx)
  /-- OPTSTEP (R441). The rill steps the optimiser for one band, updating momentum, residuals and levels. -/
  | optstep (isl : Isl) (idx : TktIx)
  /-- SEND (R352). A strait transfer moves EXTENT lines to a destination island by x-then-y routing. -/
  | send (isl : Isl) (idx : TktIx) (badSrc badDst : List (Fin 32))
  /-- REPEAT_PULSE (R847). The island's own repeat pulse and repeat DESCALE launch after a mismatch, once the launch conditions allow. -/
  | repeatPulse (isl : Isl)
  /-- COLMAP_APPLY (R52). A write of COLMAP_CTL.APPLY checks the map and starts a copy pass, or is refused. -/
  | colmapApply (rq : Requester) (gt : Tile)
  /-- COPY_PASS_ROW_OP (R53). A copy-pass row read or rewrite starts on a tile as a rank-4 claim. -/
  | copyPassRowOp (gt : Tile) (devs : List (Fin 528 × Fin 64))
  /-- TIL_COLMAP_DONE (R52). The copy pass's last row is written and the new column map takes effect at the next tick. -/
  | tilColmapDone (gt : Tile)
  /-- TRIM_WIN_WRITE (R113). A write through the trim window stores a trim, or is refused and TIL_TRIM_REFUSED is raised. -/
  | trimWinWrite (rq : Requester) (gt : Tile) (ix : Fin 512) (v : Word)
  /-- REFRESH_SLOT (R145). A tile's refresh slot tick arrives and the engine visits the pointer row: skip, refresh or lost slot. -/
  | refreshSlot (gt : Tile)
  /-- ROW_REFRESH_DONE (R134). A row refresh compares the sensed term and rewrites, holds or persists the row. -/
  | rowRefreshDone (gt : Tile) (codes : List (Fin 528 × Fin 128))
  /-- CATCHUP_REFRESH (R161). With slots owed and the tile free, the engine refreshes the pointer row as a catch-up claim. -/
  | catchupRefresh (gt : Tile)
  /-- TIL_RFSH_LATE (R163). A valid row's age passes two passes; LATE is set. -/
  | tilRfshLate (gt : Tile)
  /-- RELEASE (R164). A write of RFSH_CTL.RELEASE, or a fence with FENCE_KEEP 0, requests release of the tile. -/
  | release (rq : Requester) (gt : Tile)
  /-- RELEASE_APPLY (R164). At the end of the row operation in progress, the tile stops refreshing, clears its rows and applies release bias. -/
  | releaseApply (gt : Tile)
  /-- TIL_DECAYED (R166). 200 ms pass after release with no row write, and DECAYED is set. -/
  | tilDecayed (gt : Tile)
  /-- TIL_RFSH_REGIME (R148). A regime change takes effect at the first normal-grid slot tick after its decision. -/
  | tilRfshRegime (gt : Tile)
  /-- GRID_WRITE (R149). A write that changes RFSH_CTL.GRID acts as a regime decision. -/
  | gridWrite (rq : Requester) (gt : Tile) (v : Bool)
  /-- PHASE_WRITE (R178). A write to RFSH_CTL.PHASE is applied at the next pointer wrap, or at once on a released tile. -/
  | phaseWrite (rq : Requester) (gt : Tile) (v : Fin 64)
  /-- TERM_STORE_ECC (R144). An uncorrectable term-store error invalidates the row and starts a DIG_WRITE recomputation. -/
  | termStoreEcc (gt : Tile) (r : Fin 1024)
  /-- DIG_WRITE_RECOMPUTE (R144). The recomputed DIG_WRITE over the still-valid rows replaces the old value at one edge. -/
  | digWriteRecompute (gt : Tile)
  /-- RUN_CAL (R203). CAL_CMD OP RUN starts a calibration run of the given scope, or is refused. -/
  | runCal (rq : Requester) (scope : Fin 4) (target : Fin 1024)
  /-- COMMIT (R207). CAL_CMD OP COMMIT commits a READY run at T_c, or commits inactive banks when no run exists. -/
  | calCommit (rq : Requester) (scope : Fin 4) (target : Fin 1024)
  /-- REVERT (R208). CAL_CMD OP REVERT switches the tiles of the last commit back to their previous bank. -/
  | calRevert (rq : Requester) (scope : Fin 4) (target : Fin 1024)
  /-- ABORT (R210). CAL_CMD OP ABORT ends the run without changing any active bank. -/
  | calAbort (rq : Requester) (scope : Fin 4) (target : Fin 1024)
  /-- SNAPSHOT (R224). CAL_CMD OP SNAPSHOT writes the gain trims and bandgaps to a flash snapshot slot. -/
  | calSnapshot (rq : Requester) (scope : Fin 4) (target : Fin 1024)
  /-- SNAPSHOT_WRITE_DONE (R225). A snapshot flash write ends, updating SNAP_STS. -/
  | snapshotWriteDone (ok : Bool)
  /-- CAL_TILE_START (R204). A tile's measurement begins in tile order: its inactive bank is copied and the tile goes stale or into rounds. -/
  | calTileStart (gt : Tile)
  /-- CAL_ACTION (R200). A rank-4 calibration action starts on a free tile. -/
  | calAction (gt : Tile) (kind : Fin 5) (row : Fin 1024) (devs : List (Fin 528 × Fin 64))
  /-- CAL_TILE_END (R221). A tile's measurement ends and its verify record is stored. -/
  | calTileEnd (gt : Tile) (cols : List (Fin 528 × Fin 64 × Fin 64)) (rows : List (Fin 1024 × Fin 32)) (ofs gain row : Byte) (ofsCol gainCol rowWorst : Fin 1024) (side bg : Int)
  /-- CAL_COMMITTED (R206). At T_c every measured tile switches banks and the bandgap steps apply. -/
  | calCommitted
  /-- VREF_SAMPLE (R186). The reference is sampled every 1 ms and VREF_OK is updated. -/
  | vrefSample (uv : Fin 1048576) (dev : Int)
  /-- CAL_UNLOCK_TIMEOUT (R234). A tile's delay line stays unlocked for over 1 ms during its measurement, and that measurement aborts. -/
  | calUnlockTimeout (gt : Tile)
  /-- WEIR_WINDOW_END (R322). At a weir window boundary, the counters are latched and cleared and the thresholds evaluated. -/
  | weirWindowEnd (isl : Isl)
  /-- WEIR_CTL_WRITE (R330). A change of EN, the context filter or WIN clears the windowed counters and restarts windowing. -/
  | weirCtlWrite (rq : Requester) (isl : Isl) (v : Word)
  /-- LOAD (R361). A LOAD entry verifies, imports and checks a Larwi image and takes its leases. -/
  | loadPlan (j : Nat) (manifest : List Byte) (sigOk dmaOk : Bool)
  /-- IMPORT_SECTION (R602). The ferry controller reads and verifies one image section and places it in basin, command store or harbour. -/
  | importSection (j : Nat) (data : List Byte) (ok dmaOk : Bool)
  /-- UNLOAD (R378). An UNLOAD entry unloads a plan at the end of its step in progress. -/
  | unloadPlan (j : Nat)
  /-- RUN (R743). A RUN entry runs one step of a loaded plan on the inputs given. -/
  | runJob (j : Nat)
  /-- SWAP (R628). A SWAP entry closes the gate and starts a replacement under load. -/
  | swapPlan (j : Nat)
  /-- CIST_REG (R590). A CIST_REG entry registers the context's cistern region. -/
  | cistReg (j : Nat)
  /-- NOP (R733). A NOP entry completes at once. -/
  | nopJob (j : Nat)
  /-- TILE_ASSIGN_WRITE (R376). P3 or P4 rewrites a tile assignment entry, effective after the next layer barrier. -/
  | tileAssignWrite (n : Pilot) (h : Nat) (isl : Isl) (wti : Fin 4096) (tile : Fin 16)
  /-- DYN_DECISION (R404). P2 posts a decision record fixing T, the leased tiles and the placement of a DYN operation. -/
  | dynDecision (isl : Isl) (idx : TktIx)
  /-- DYN_DEFAULT (R406). No decision arrives by launch + 48, and the issuer runs the default tiling. -/
  | dynDefault (isl : Isl) (idx : TktIx)
  /-- DYN_WAIT (R407). A waiting DYN call leases the first pool tile to become free and is placed from that tick. -/
  | dynWait (isl : Isl) (idx : TktIx)
  /-- DYN_PREPARE (R393). The write port reads a block's source rows and stages levels or computes column scales. -/
  | dynPrepare (isl : Isl) (idx : TktIx) (q : Fin 4)
  /-- DYN_SUB_ROW_WRITE (R392). A DYN row-write run writes a block's levels and scales into a pool tile. -/
  | dynSubRowWrite (isl : Isl) (idx : TktIx) (q : Fin 4)
  /-- DYN_SUB_PULSE (R396). A DYN pulse sub-ticket pulses a pool tile against one drive row. -/
  | dynSubPulse (isl : Isl) (idx : TktIx) (q : Fin 4) (errs : List (Nat × Int))
  /-- DYN_REVOKED (R417). A DYN lease reaches its expiry; P4 revokes it, releases the tile and fails the operation. -/
  | dynRevoked (gt : Tile)
  /-- SLUICE_TICK (R545). At each tick edge the sluice refills the accounts and grants ready tickets in grant order. -/
  | sluiceTick
  /-- CAP_WINDOW_END (R542). An aligned cap window ends and the window counts of capped partitions reset. -/
  | capWindowEnd
  /-- AVS_WINDOW_END (R554). At the end of an AVS window, the sluice sets a new VDD_CORE target from the least slack. -/
  | avsWindowEnd
  /-- AVS_READBACK (R557). The regulator reports an output within 5 mV of the target, and the new voltage comes into force. -/
  | avsReadback (mv : Fin 4096)
  /-- SLUICE_AVS_FAULT (R558). A voltage write is not read back within 100 µs; it is repeated once, then the loop stops. -/
  | sluiceAvsFault
  /-- CAP_WRITE (R569). A write of a chip or partition cap takes effect at the next edge and rates are recomputed. -/
  | capWrite (rq : Requester) (which : Fin 9) (v : Word)
  /-- CAP_WIN_WRITE (R571). A write to CAP_WIN takes effect at the next boundary of the new window length. -/
  | capWinWrite (rq : Requester) (v : Word)
  /-- AVS_CTL_WRITE (R559). A write to AVS_CTL, including EN from 0 to 1, stops or restarts the voltage loop. -/
  | avsCtlWrite (rq : Requester) (v : Word)
  /-- HARBOUR_READ_DONE (R584). A harbour read completes, correcting single-bit errors or poisoning the line and checking the block word. -/
  | harbourReadDone (blk ce : Nat) (ue : List (Fin 64)) (chk : Bool) (src : Fin 7)
  /-- HBR_CE_STORM (R583). More than CE_STORM corrections occur in one second. -/
  | hbrCeStorm (h : Stack)
  /-- PATROL_PASS (R589). A patrol pass of every line of a stack falls due. -/
  | patrolPass (h : Stack)
  /-- SCRUB_PASS (R606). A scrub pass of every loaded shard slot starts every SCRUB_S seconds. -/
  | scrubPass (bad : List Nat) (ms : Nat)
  /-- FRY_CIST_ERR (R592). A cistern read ends in an error and fails its run. -/
  | fryCistErr (r : Nat)
  /-- HB_TO_BASIN (R613). A MOVE ferry command copies harbour blocks into basin lines. -/
  | hbToBasin (isl : Isl) (idx : TktIx) (bad : List Nat)
  /-- BASIN_TO_HB (R613). A MOVE ferry command copies basin lines into harbour blocks. -/
  | basinToHb (isl : Isl) (idx : TktIx) (bad : List Nat)
  /-- FERRY_FETCH (R615). LEAD × 16 ticks before a command's launch, the ferry controller starts fetching its source. -/
  | ferryFetch (j h cmd : Nat) (data : List Byte) (ok : Bool)
  /-- FERRY_DELIVERY (R618). Ciphertext reaches a member port and is buffered and passed on to the next member. -/
  | ferryDelivery (r : Nat) (isl : Isl) (n : Nat)
  /-- WRITE_TILES (R619). A WRITE_TILES run launches on a lane of a member's ferry port. -/
  | writeTiles (isl : Isl) (idx : TktIx)
  /-- FERRY_ROW_WRITE (R619). Once a row's plaintext is decrypted and the tile is free, the run writes that row. -/
  | ferryRowWrite (isl : Isl) (idx : TktIx) (plain : List Byte)
  /-- FERRY_VERIFY (R620). The last bytes of a shard arrive; its tag and digest are verified and the scale table loaded. -/
  | ferryVerify (isl : Isl) (idx : TktIx) (tagOk digestOk : Bool)
  /-- SWAP_LAYER_REWRITE (R628). Every old job has passed layer k, so the new plan's ONCE commands of layer k run. -/
  | swapLayerRewrite (c : Ctx)
  /-- FRY_SWAP_DONE (R628). After the last layer and the last old job, the old plan is unloaded. -/
  | frySwapDone (c : Ctx)
  /-- OVERFLOW_WRITE (R757). A completion with no free CQ entry is written into the context's overflow reserve. -/
  | overflowWrite (j : Nat)
  /-- CREATE (R665). CTX_CMD OP CREATE binds a context to a partition and owner and tags its basin pages. -/
  | ctxCreate (rq : Requester) (c : Ctx)
  /-- DESTROY (R694). CTX_CMD OP DESTROY starts teardown of the context. -/
  | ctxDestroy (rq : Requester) (c : Ctx)
  /-- TEARDOWN_DONE (R692). Teardown ends with the key zeroised, frames and pages freed and the context FREE. -/
  | teardownDone (c : Ctx) (zero : Bool)
  /-- INSTALL_KEY (R683). CTX_CMD OP INSTALL_KEY requests that a key blob be installed into the context's slot. -/
  | installKey (rq : Requester) (c : Ctx)
  /-- VAULT_LEASE_GRANT (R685). A waiting install obtains the vault lease and runs the install sequence. -/
  | vaultLeaseGrant
  /-- CTX_KEY_OK (R683). The install ends, keyed or failed, and CHALLENGE is redrawn. -/
  | ctxKeyOk (c : Ctx) (blob : List Byte) (dmaOk sigOk keyUnwraps : Bool)
  /-- BACK (R674). CTX_CMD OP BACK backs window positions with FREE DATA frames. -/
  | ctxBack (rq : Requester) (c : Ctx) (n : Fin 16777216)
  /-- VF_OFF (R694). NumVFs is lowered or VF Enable is cleared, tearing down the affected contexts. -/
  | vfOff (n : Ctx)
  /-- REG_KEY (R689). KEY_CMD OP REG_KEY registers a staged signing key in the flash. -/
  | regKey (rq : Requester) (k : Fin 128) (onCurve : Bool)
  /-- REVOKE_KEY (R690). KEY_CMD OP REVOKE_KEY marks a signing key revoked in the flash. -/
  | revokeKey (rq : Requester) (k : Fin 128)
  /-- ZEROISE (R704). KEY_CMD OP ZEROISE from the causeway zeroises a slot and tears its context down. -/
  | zeroise (rq : Requester) (c : Ctx)
  /-- GET_VERSION (R687). An SPDM GET_VERSION request is answered with version 1.2. -/
  | getVersion (f : Ctx)
  /-- GET_CAPABILITIES (R687). An SPDM GET_CAPABILITIES request is answered. -/
  | getCapabilities (f : Ctx)
  /-- NEGOTIATE_ALGORITHMS (R687). An SPDM NEGOTIATE_ALGORITHMS request selects P-384 and SHA-384. -/
  | negotiateAlgorithms (f : Ctx) (offered : Bool)
  /-- GET_DIGESTS (R687). An SPDM GET_DIGESTS request is answered for slot 0. -/
  | getDigests (f : Ctx)
  /-- GET_CERTIFICATE (R687). An SPDM GET_CERTIFICATE request returns the slot-0 chain. -/
  | getCertificate (f : Ctx) (slot : Fin 8) (off len : Fin 65536)
  /-- CHALLENGE (R687). An SPDM CHALLENGE request is answered with a signature. -/
  | challenge (f : Ctx) (slot : Fin 8)
  /-- GET_MEASUREMENTS (R688). An SPDM GET_MEASUREMENTS request returns the measurement blocks. -/
  | getMeasurements (f : Ctx) (index : Byte) (signed : Bool)
  /-- KEY_EXCHANGE (R687). An SPDM KEY_EXCHANGE request opens a secure session for IDE. -/
  | keyExchange (f : Ctx)
  /-- FINISH (R687). An SPDM FINISH request completes the secure session. -/
  | finish (f : Ctx) (ok : Bool)
  /-- END_SESSION (R687). An SPDM END_SESSION request ends the secure session. -/
  | endSession (f : Ctx)
  /-- SPDM_UNSUPPORTED (R687). Any other SPDM request is answered with ERROR UnsupportedRequest. -/
  | spdmUnsupported (f : Ctx)
  /-- IDE_KM (R725). An IDE_KM request programs Link IDE keys, or is refused while IDE_ALLOW is 0. -/
  | ideKm (f : Ctx)
  /-- LINK_UP (R714). The PCIe link trains at some rate and width; a degraded link is reported. -/
  | linkUp (speed : Fin 7) (width : Fin 17) (flit : Bool)
  /-- HIF_LINK_DOWN (R771). The data link goes down; every queue pair is disabled and results of steps in progress are discarded. -/
  | hifLinkDown
  /-- SQ_TAIL (R759). An SQ_TAIL doorbell write records a new tail, or is refused while the overflow reserve is full. -/
  | sqTail (f : Ctx) (q : Fin 16) (v : Fin 4096)
  /-- CQ_HEAD (R758). A CQ_HEAD doorbell frees CQ entries, into which spilled completions move. -/
  | cqHead (f : Ctx) (q : Fin 16) (v : Fin 4096)
  /-- ENTRY_FETCH (R731). The host interface fetches one submission entry in round-robin order and checks it. -/
  | entryFetch (bytes : List Byte) (ok : Bool)
  /-- Q_CREATE (R729). Q_CMD OP CREATE enables a queue pair or fast binding, or is refused. -/
  | qCreate (rq : Requester) (via : Bool)
  /-- Q_DELETE (R730). Q_CMD OP DELETE stops fetching; the pair is deleted once its jobs complete. -/
  | qDelete (rq : Requester) (via : Bool)
  /-- PUSH_PAYLOAD_WRITE (R752). A posted write places payload bytes in a fast queue's landing buffer. -/
  | pushPayloadWrite (f : Ctx) (q : Fin 16) (off : Fin 4096) (bytes : List Byte)
  /-- FAST_ENTRY (R753). A fast entry arrives in the push window and is checked, or is discarded with FAST_BUSY. -/
  | fastEntry (f : Ctx) (q : Fin 16) (bytes : List Byte)
  /-- FAST_COMMIT (R753). Once the prior readers acknowledge and the gate admits, the landing buffer is copied and the origin bound. -/
  | fastCommit (isl : Isl)
  /-- INPUT_BLOCK_ARRIVAL (R742). An input block arrives and is verified against its check word. -/
  | inputBlockArrival (j : Nat) (data : List Byte) (word : Word) (ok : Bool)
  /-- RESULT_BLOCK_WRITE (R746). At the step's end the head line, data, check array and tail line of a result block are written. -/
  | resultBlockWrite (j : Nat) (wordOk linkOk : Bool)
  /-- COMPLETION_WRITE (R736). A completion entry is written to its CQ and the queue's MSI-X vector is signalled. -/
  | completionWrite (j : Nat)
  /-- HIF_DMA_ERR (R767). A host-memory read or write fails and its job ends with DMA. -/
  | hifDmaErr (j : Nat)
  /-- FLR (R769). A function-level reset deletes the function's queues and bindings and starts a context recovery. -/
  | flr (f : Ctx)
  /-- OUTPUT_COMPARE (R867). Replica output digests are compared after the step and the majority's rows are egressed. -/
  | outputCompare (j : Nat)
  /-- EVT_PEND_WRITE (R787). Writing 1 to EVT_PEND bits clears the pending and raw bits. -/
  | evtPendWrite (rq : Requester) (ty : Fin 21) (inst : Fin 1024) (v : Word)
  /-- EVT_EN_WRITE (R788). Enabling an event whose raw bit is set makes it pending in the same tick. -/
  | evtEnWrite (rq : Requester) (ty : Fin 21) (inst : Fin 1024) (v : Word)
  /-- EVT_FORCE (R789). Writing 1 to EVT_FORCE bits raises those events with zero payloads and the FORCED flag. -/
  | evtForce (rq : Requester) (ty : Fin 21) (inst : Fin 1024) (v : Word)
  /-- FENCE_WRITE (R799). A requester sets or clears its own source bit of FENCE, effective at the next edge. -/
  | fenceWrite (rq : Requester) (ty : Fin 21) (inst : Fin 1024) (v : Word)
  /-- RW1C_WRITE (R8). Writing 1 to bits of another RW1C register clears them. -/
  | rw1cWrite (rq : Requester) (a : Fin 268435456) (v : Word)
  /-- RC_READ (R8). A normal read of an RC register returns its value, then clears it. -/
  | rcRead (rq : Requester) (a : Fin 268435456)
  /-- RP_READ (R8). A normal read of an RP register returns the head entry and pops it. -/
  | rpRead (rq : Requester) (a : Fin 268435456)
  /-- LOW_WORD_READ (R806). A read of the low word of a 64-bit pair latches its high word in the requester's shadow. -/
  | lowWordRead (rq : Requester) (via : Bool) (a : Fin 268435456)
  /-- LOW_WORD_WRITE (R808). A write of the low word of an RW pair is staged for the requester. -/
  | lowWordWrite (rq : Requester) (via : Bool) (a : Fin 268435456) (v : Word)
  /-- HIGH_WORD_WRITE (R808). A write of the high word commits it with the staged or current low word at one edge. -/
  | highWordWrite (rq : Requester) (via : Bool) (a : Fin 268435456) (v : Word)
  /-- REG_WRITE (R8). A write to a register without its own behaviour stores the written fields. -/
  | regWrite (rq : Requester) (via : Bool) (a : Fin 268435456) (v : Word) (env : WriteEnv)
  /-- TOP_BAD_ACCESS (R778). An access to an unimplemented offset, of a bad size or misaligned, is counted and latched. -/
  | topBadAccess (rq : Requester) (a : Fin 268435456) (bytes : Fin 65) (write : Bool)
  /-- PEND_SEL_WRITE (R835). A write to PEND_SEL changes PEND_MAP at the next edge. -/
  | pendSelWrite (rq : Requester) (v : Word)
  /-- IRQ_HOLDOFF_END (R793). The MSI-X hold-off expires and one message signals bits that became pending during it. -/
  | irqHoldoffEnd (f : Ctx)
  /-- LEASE_RENEW (R805). A holder renews its lease before the expiry edge, or the renewal is refused. -/
  | leaseRenew (res : Fin 7) (unit plan : Nat)
  /-- LEASE_EXPIRY (R803). A lease reaches its expiry tick; it is revoked and the resource is free for reclaim. -/
  | leaseExpiry (res : Fin 7) (unit plan : Nat) (needed : Bool)
  /-- LEASE_LOST (R949). A revoked holder's next access under the lease fails. -/
  | leaseLost (res : Fin 7) (unit plan : Nat)
  /-- THERMAL_SAMPLE (R819). The thermal monitor samples all island sensors; Tj-driven flags, regimes and alerts follow. -/
  | thermalSample (temps : List (Isl × Int))
  /-- THM_TRIP (R822). An island reads 115 °C or more; THERMTRIP_N asserts and the sluice stops granting. -/
  | thmTrip (isl : Isl)
  /-- THM_SENSOR (R823). A sensor reads out of range or returns no sample for 3 ms; a substitute value is used. -/
  | thmSensor (isl : Isl) (reading : Option Int)
  /-- REPROGRAM_START (R851). A tile is marked PENDING and a run of its reprogramming source is issued. -/
  | reprogramStart (gt : Tile)
  /-- REPROGRAM_VERIFY (R851). After the run acknowledges, a verify pass reads every row and compares its term. -/
  | reprogramVerify (gt : Tile) (devs : List (Fin 528 × Fin 64))
  /-- NEAR_MISS_WINDOW_END (R856). A 2^17-tick window ends; a tile with more than NEAR_THR near misses enters the lagoon. -/
  | nearMissWindowEnd (gt : Tile)
  /-- BASIN_LINE_UE (R839). An uncorrectable basin line error poisons the line. -/
  | basinLineUe (isl : Isl) (line : Fin 65536)
  /-- REPLICA_COMPARE (R866). P5–P7 compare the digests of corresponding islands and resolve any disagreement. -/
  | replicaCompare (h : Nat)
  /-- RPL_EXPEL (R870). At the step's end tick an expelled replica's islands are fenced. -/
  | rplExpel (isl : Isl)
  /-- TEST_DUE (R898). A tile or engine segment's test period expires and the unit falls due. -/
  | testDue (isl : Isl) (u : Fin 20)
  /-- TEST_START (R900). A due test starts once the unit is free and unscheduled for its length. -/
  | testStart (isl : Isl) (u : Fin 19)
  /-- TEST_DEFER_BOUND (R902). The deferral bound passes, and P3 chooses re-home, pause or TEST_OVERDUE. -/
  | testDeferBound (isl : Isl) (u : Fin 20)
  /-- REHOME_SWITCH (R903). After the spare's write acknowledges, assignment entries are rewritten to the spare. -/
  | rehomeSwitch (isl : Isl) (u : Fin 16)
  /-- TST_PREEMPT (R904). At the next layer barrier, the plan is paused by P ticks for the test. -/
  | tstPreempt (isl : Isl) (u : Fin 20) (h : Nat)
  /-- TEST_COMPLETE (R909). A test ends; pass, transient or fail is applied, with a repeat on failure. -/
  | testComplete (isl : Isl) (u : Fin 19) (pass : Bool) (data : List Byte) (ok : Bool)
  /-- TEST_TILE (R921). TST_CMD OP TEST_TILE requests a test of one tile. -/
  | testTile (rq : Requester) (target : Fin 1024)
  /-- TEST_ISLAND (R906). TST_CMD OP TEST_ISLAND requests an on-demand island test. -/
  | testIsland (rq : Requester) (target : Fin 1024)
  /-- TST_ISLAND (R907). An island test starts, holding the whole island. -/
  | tstIsland (isl : Isl)
  /-- TST_PAT_UPDATE (R913). A verified new pattern bank becomes active when no test holds a unit. -/
  | tstPatUpdate
  /-- PIL_WDOG (R930). A pilot's watchdog expires and the pilot is reset. -/
  | pilWdog (n : Pilot)
  /-- WD_KICK (R930). A pilot writes the kick value to WD_KICK, restarting its watchdog. -/
  | wdKick (n : Pilot) (v : Word)
  /-- PIL_RESTART (R931). A pilot reset completes with firmware reloaded and verified. -/
  | pilRestart (n : Pilot) (ok : Bool)
  /-- CONTEXT_RECOVERY (R934). A context recovery runs: gate closed, tickets retired, leases revoked, jobs aborted. -/
  | contextRecovery (c : Ctx)
  /-- ENGINE_RECOVERY (R936). An engine recovery of an island runs, ending with two answered probes or a fence. -/
  | engineRecovery (isl : Isl)
  /-- PARTITION_RECOVERY (R938). A partition recovery resets every island and context of a partition. -/
  | partitionRecovery (p : Part)
  /-- CHIP_WARM_RESET (R939). The reset controller resets the core domain, keeping the stated state. -/
  | chipWarmReset (plain : List (Nat × Nat × List Byte))
  /-- POWER_CYCLE (R942). The device stops, holds for the log, and asks the tray to cycle the rails. -/
  | powerCycle
  /-- PWRCYC_STUCK (R942). PWRGD_IN has not deasserted TMO_S seconds after the request. -/
  | pwrcycStuck
  /-- CTX (R934). RCV_CMD OP CTX starts a context recovery. -/
  | ctxCmd (rq : Requester) (target : Fin 256)
  /-- ENGINE (R936). RCV_CMD OP ENGINE starts an engine recovery. -/
  | engineCmd (rq : Requester) (target : Fin 256)
  /-- PARTITION (R938). RCV_CMD OP PARTITION starts a partition recovery. -/
  | partitionCmd (rq : Requester) (target : Fin 256)
  /-- WARM (R939). RCV_CMD OP WARM starts a chip warm reset. -/
  | warmCmd (rq : Requester)
  /-- PWRCYC (R942). RCV_CMD OP PWRCYC starts a power cycle. -/
  | pwrcycCmd (rq : Requester)
  /-- RESUME (R944). RCV_CMD OP RESUME takes a held rung. -/
  | resumeCmd (rq : Requester)
  /-- RECONCILIATION (R950). Every 10 ms P1 compares its view with the data path and resolves differences. -/
  | reconciliation
  /-- HELLO (R974). A HELLO opens a causeway session with signed ECDH key agreement, or is refused. -/
  | hello (i3c : Bool) (seq : Word) (key : Fin 4) (sigOk : Bool)
  /-- CLOSE (R977). A CLOSE message ends a session and removes its subscriptions. -/
  | closeSession (sid seq : Word)
  /-- SESSION_TIMEOUT (R977). A session with no accepted message for 30 s closes. -/
  | sessionTimeout (sid : Word)
  /-- CSW_AUTH_FAIL (R976). A message failing its tag, session or sequence check is silently dropped. -/
  | cswAuthFail (i3c : Bool)
  /-- MGMT_KEY_SET (R975). MGMT_KEY_SET installs a management key. -/
  | mgmtKeySet (origin : Fin 3) (sid seq : Word) (key : Fin 4) (pub : List Byte) (sigOk : Bool)
  /-- READ (R979). A causeway READ reads registers as the causeway requester, normally or by peek. -/
  | cswRead (sid seq : Word) (peek : Bool) (a : Fin 268435456) (n : Fin 1024)
  /-- WRITE (R979). A causeway WRITE writes registers as the causeway requester. -/
  | cswWrite (sid seq : Word) (a : Fin 268435456) (vals : List Word) (env : WriteEnv)
  /-- LOG_READ (R978). LOG_READ returns log records from a given sequence number. -/
  | logRead (sid seq first : Word) (n : Fin 256)
  /-- SUBSCRIBE (R992). SUBSCRIBE sets a session's event report subscription. -/
  | subscribe (sid seq : Word) (cls : Byte) (enable : Bool)
  /-- EVENT (R993). At each batch interval an EVENT report with qualifying records is sent to a subscribed session. -/
  | eventReport (sid : Word)
  /-- TELEMETRY (R996). TELEMETRY returns a 256-byte block latched at one edge. -/
  | telemetry (sid seq : Word)
  /-- TIME_PROBE (R997). TIME_PROBE returns the reception and transmission tide timestamps. -/
  | timeProbe (sid seq : Word) (turn : Nat) (rxErr txErr : Fin 5)
  /-- PAT_DATA (R978). PAT_DATA programs pattern bytes into the inactive bank. -/
  | patData (sid seq : Word) (off : Fin 33554432) (bytes : List Byte)
  /-- PAT_COMMIT (R912). PAT_COMMIT verifies the pushed bank and stages or rejects it. -/
  | patCommit (sid seq : Word) (len : Fin 33554432) (sigOk readOk : Bool)
  /-- FW_DATA (R1034). FW_DATA programs firmware image bytes into the unused slot. -/
  | fwData (sid seq : Word) (off : Fin 33554432) (bytes : List Byte) (ok : Bool)
  /-- FW_COMMIT (R1035). FW_COMMIT verifies the image and stages it or refuses it. -/
  | fwCommit (sid seq : Word) (len : Fin 33554432) (ver : Word) (svn : Fin 65536) (sigOk ok : Bool)
  /-- ARP_REQUEST (R971). An ARP request for the port's address is answered. -/
  | arpRequest (sender target : Word)
  /-- ICMP_ECHO (R971). An ICMP echo request is answered. -/
  | icmpEcho (dst : Word) (data : List Byte)
  /-- DYNAMIC_ADDRESS_ASSIGN (R973). The I3C controller assigns the target a dynamic address. -/
  | dynamicAddressAssign (addr : Fin 128)
  /-- SET_ENDPOINT_ID (R995). MCTP Set Endpoint ID is answered. -/
  | setEndpointId (eid : Byte)
  /-- GET_ENDPOINT_ID (R995). MCTP Get Endpoint ID is answered. -/
  | getEndpointId
  /-- GET_MCTP_VERSION_SUPPORT (R995). MCTP Get MCTP Version Support is answered. -/
  | getMctpVersionSupport (ty : Byte)
  /-- GET_MESSAGE_TYPE_SUPPORT (R995). MCTP Get Message Type Support is answered. -/
  | getMessageTypeSupport
  /-- GETTID (R995). PLDM GetTID is answered. -/
  | gettid
  /-- GETPLDMVERSION (R995). PLDM GetPLDMVersion is answered. -/
  | getpldmversion (ty : Byte)
  /-- GETPLDMTYPES (R995). PLDM GetPLDMTypes is answered. -/
  | getpldmtypes
  /-- GETPLDMCOMMANDS (R995). PLDM GetPLDMCommands is answered. -/
  | getpldmcommands (ty : Byte)
  /-- GETPDR (R995). PLDM GetPDR is answered. -/
  | getpdr (handle : Word)
  /-- GETSENSORREADING (R995). PLDM GetSensorReading returns a numeric sensor. -/
  | getsensorreading (id : Fin 65536)
  /-- GETSTATESENSORREADINGS (R995). PLDM GetStateSensorReadings returns state sensors. -/
  | getstatesensorreadings (id : Fin 65536)
  /-- PLDM_UNSUPPORTED (R995). Any other PLDM command is answered with ERROR_UNSUPPORTED_PLDM_CMD. -/
  | pldmUnsupported (ty cmd : Byte)
  /-- PTP_CAPTURE (R998). A received IEEE 1588 event message is timestamped into TS0–TS15. -/
  | ptpCapture (ty : Fin 16) (dom : Byte) (seqId : Fin 65536) (err : Fin 5)
  /-- LOG_COMMIT (R983). The log writer commits a record and starts the next, or a COALESCED record for the next source. -/
  | logCommit
  /-- UNPIN (R987). LOG_CMD OP UNPIN unpins one slot. -/
  | unpin (rq : Requester) (slot : Fin 16384)
  /-- UNPIN_ALL (R987). LOG_CMD OP UNPIN_ALL unpins every slot. -/
  | unpinAll (rq : Requester)
  /-- VDD_AON_GOOD (R1095). VDD_AON becomes good; the always-on domain starts and P1 boots. -/
  | vddAonGood (mode : Fin 3) (sigA sigB : Bool)
  /-- VDD_AON_LOSS (R1095). VDD_AON falls through 0.70 V and the whole device resets. -/
  | vddAonLoss
  /-- PWRGD_IN_ASSERT (R1019). PWRGD_IN is recognised asserted; the core reset is released and boot proceeds. -/
  | pwrgdInAssert (other pat0 pat1 : Bool)
  /-- BOOT_PWRGD_LOSS (R1015). PWRGD_IN deasserts after boot, and the core domain is held as if its rails were lost. -/
  | bootPwrgdLoss
  /-- PERST_N_DEASSERT (R1017). PERST_N deasserts, starting PROFSEL sampling the first time after PWRGD_IN. -/
  | perstNDeassert
  /-- PERST_N_ASSERT (R1018). PERST_N asserts after configuration-ready, resetting the PCIe port. -/
  | perstNAssert
  /-- PROFSEL_SAMPLE_END (R1037). 64 PROFSEL samples are complete and the profile is chosen. -/
  | profselSampleEnd (first : Fin 4) (disagree : Fin 64)
  /-- HARBOUR_TRAINED (R1021). Stack training ends, or stops boot on failure. -/
  | harbourTrained (failed : List Stack)
  /-- BOOT_READY (R1019). The power-up sequence ends and OPERATIONAL is set. -/
  | bootReady
  /-- BOOT_ATTEMPT_FAIL (R1033). A boot fails to reach OPERATIONAL and the next attempt may fall back to the other slot. -/
  | bootAttemptFail (other pat0 pat1 : Bool)
  /-- SELECT (R1045). PROF_CMD OP SELECT changes the profile in force. -/
  | profSelect (rq : Requester) (target : Fin 4)
  /-- PROFILE_APPLY (R1045). Once steps in changing partitions end, the new profile is applied at the next edge. -/
  | profileApply
  /-- WRITE_PROFILE (R1044). PROF_CMD OP WRITE_PROFILE writes a checked profile record to the flash. -/
  | writeProfile (rq : Requester) (target : Fin 4)
  /-- WRITE_INDEX (R1044). PROF_CMD OP WRITE_INDEX writes the profile index to the flash. -/
  | writeIndex (rq : Requester) (target : Fin 4)
  /-- FW_WRITE (R1034). FW_CMD OP WRITE reads a firmware image from host memory into the unused slot. -/
  | fwWrite (rq : Requester) (image : List Byte) (ver : Word) (svn : Fin 65536) (ok : Bool)
  /-- FLASH_WRITE_DONE (R1027). A flash record write completes with its header programmed last. -/
  | flashWriteDone (ok sig : Bool)
  /-- EXTEST (R1059). TAP instruction EXTEST drives the covered lands, or is refused. -/
  | extest (pins shift : Fin 72057594037927936)
  /-- IDCODE (R1058). TAP instruction IDCODE selects the identification register. -/
  | idcode
  /-- SAMPLE_PRELOAD (R1057). TAP instruction SAMPLE/PRELOAD selects the boundary-scan register. -/
  | samplePreload (pins shift : Fin 72057594037927936)
  /-- CLAMP (R1059). TAP instruction CLAMP holds the lands, or is refused. -/
  | tapClamp
  /-- HIGHZ (R1059). TAP instruction HIGHZ floats the lands, or is refused. -/
  | highz
  /-- BYPASS (R1057). TAP instruction BYPASS, or any unknown code, selects the bypass register. -/
  | bypass (code : Byte)
  /-- TAP_RESET (R1059). A TAP reset returns the lands to their functions. -/
  | tapReset
  /-- DTM_READ (R1060). A debug transport read of a register, with its side effects. -/
  | dtmRead (a : Fin 268435456)
  /-- DTM_WRITE (R1061). A debug transport write, accepted only where debug may write. -/
  | dtmWrite (a : Fin 268435456) (v : Word) (env : WriteEnv)
  /-- DTM_PEEK (R1060). A debug transport peek read, with no side effect. -/
  | dtmPeek (a : Fin 268435456)
  /-- DMI_ACCESS (R1063). A pilot debug module access through DMI on an unlocked part. -/
  | dmiAccess (n : Pilot) (kind : Fin 3)
  /-- UNLOCK (R1065). DBG_CMD OP UNLOCK checks the token, tears down contexts and unlocks debug. -/
  | dbgUnlock (rq : Requester) (sigOk : Bool)
  /-- LOCK (R1068). DBG_CMD OP LOCK resumes pilots, clears LEASE_FREEZE and locks debug. -/
  | dbgLock (rq : Requester)
  /-- HALT (R1076). DBG_CMD OP HALT halts a pilot on an unlocked part. -/
  | dbgHalt (rq : Requester) (n : Pilot)
  /-- DBG_RESUME (R1076). DBG_CMD OP RESUME resumes a halted pilot with a fresh watchdog period. -/
  | dbgResume (rq : Requester) (n : Pilot)
  /-- LEASE_FREEZE_WRITE (R1072). Setting or clearing LEASE_FREEZE freezes or resumes leases, watchdogs, probes and hang counts. -/
  | leaseFreezeWrite (rq : Requester) (v : Bool)
  /-- HBR_STACK_FAIL (R649). A harbour stack fails in service; its controller raises HBR_STACK_FAIL, every frame becomes unreadable and a power cycle starts. -/
  | hbrStackFail (h : Stack)
  /-- BAR2_WRITE (R582). A host write through a function's BAR2 aperture reaches its context's harbour window, with read-merge-encrypt for partial lines, check-word update, poison clearing and the unwritten mark. -/
  | bar2Write (f : Ctx) (a : Nat) (bytes : List Byte)
  /-- CSW_LINK (R1002). The SGMII link goes up or down after auto-negotiation; CSW_STS.ETH_LINK follows and CSW_LINK is raised. -/
  | cswLink (up : Bool)
  /-- STACK_TJ (R1110). A harbour controller's stack temperature crosses 85 °C, and the controller doubles or restores the stack's refresh rate and updates HBR.STACK_TJ. -/
  | stackTj (h : Stack) (t : BitVec 8)
  deriving DecidableEq, Repr

end Sys2Proof
end

