-- ==== Sys2Proof/Decode.lean ====
section
/-!
DEFINITION. The commands that words spell.  No row of spec/opcode_table.json gives bits (every row's field list is empty): a command reaches the block as
an event, never as a word, so no word spells one.
-/
namespace Sys2Proof

/-- The command that `w`, of `nbits` bits, spells by the bits of the table: none, for every row. -/
def decodeTableWord (_nbits _w : Nat) : Option Instr := none

end Sys2Proof
end

