-- ==== Sys2Proof/Machine/Bits.lean ====
section
/-!
DEFINITION. Bit fields, byte order, saturation and the check codes of the spec (R294 CRC-32C, R135 CRC-64/ECMA-182, R474 CRC-8).
-/
namespace Sys2Proof.Machine

/-- The mask of `w` bits from bit `lo`. -/
def maskOf (lo w : Nat) : Word := BitVec.ofNat 32 ((2 ^ w - 1) * 2 ^ lo)

/-- Field of `w` bits from bit `lo` of a register value. -/
def fld (v : Word) (lo w : Nat) : Nat := v.toNat / 2 ^ lo % 2 ^ w

/-- One bit of a register value. -/
def bit (v : Word) (n : Nat) : Bool := v.getLsbD n

/-- A register value with the field of `w` bits from bit `lo` replaced by `x` (truncated to the field, R14). -/
def setFld (v : Word) (lo w : Nat) (x : Nat) : Word :=
  (v &&& ~~~ maskOf lo w) ||| (BitVec.ofNat 32 (x * 2 ^ lo) &&& maskOf lo w)

/-- Field of a natural number. -/
def nfld (v lo w : Nat) : Nat := v / 2 ^ lo % 2 ^ w

/-- A Boolean as a bit. -/
def b2n (b : Bool) : Nat := if b then 1 else 0

/-- Add with saturation at `m`. -/
def satAdd (m a b : Nat) : Nat := min m (a + b)

/-- Two's complement reading of the low `w` bits. -/
def sgn (w v : Nat) : Int :=
  let x := v % 2 ^ w
  if x < 2 ^ (w - 1) then (x : Int) else (x : Int) - (2 ^ w : Nat)

/-- Two's complement pattern of `w` bits of an integer. -/
def twos (w : Nat) (x : Int) : Nat := (x % ((2 ^ w : Nat) : Int)).toNat

/-- Clamp an integer to a range. -/
def clampI (lo hi x : Int) : Int := max lo (min hi x)

/-- The bytes of `v`, least significant first, `n` of them. -/
def leBytes (v : Nat) : Nat → List Byte
  | 0 => []
  | n + 1 => BitVec.ofNat 8 v :: leBytes (v / 256) n

/-- The number spelled by bytes, least significant first. -/
def ofLe : List Byte → Nat
  | [] => 0
  | b :: bs => b.toNat + 256 * ofLe bs

/-- `n` bytes of a byte string from position `i` as a little-endian number; bytes past the end read 0. -/
def leAt (bs : List Byte) (i n : Nat) : Nat := ofLe ((bs.drop i).take n)

/-- A byte string cut or zero-padded to `n` bytes. -/
def padTo (n : Nat) (bs : List Byte) : List Byte := (bs ++ List.replicate n 0).take n

/-- Replace the bytes of `bs` from position `i` by those of `new`. -/
def patchAt (bs : List Byte) (i : Nat) (new : List Byte) : List Byte :=
  bs.take i ++ new ++ bs.drop (i + new.length)

/-- The list `f 0, …, f (n-1)`. -/
def tabulate {α : Type} (n : Nat) (f : Nat → α) : List α := (List.range n).map f

/-- Element `i` of a list, `d` past its end. -/
def at0 {α : Type} (d : α) (l : List α) (i : Nat) : α := l.getD i d

/-- Replace element `i` of a list. -/
def setAt {α : Type} (l : List α) (i : Nat) (x : α) : List α := l.set i x

/-- One reflected CRC step over a bit: polynomial `poly` of `w` bits. -/
def crcShift {w : Nat} (poly c : BitVec w) : BitVec w :=
  if c.getLsbD 0 then (c >>> 1) ^^^ poly else c >>> 1

/-- R294: CRC-32C (polynomial 0x1EDC6F41 reflected, initial and final inversion) over a byte string. -/
def crc32c (bs : List Byte) : Word :=
  let step (c : Word) (b : Byte) : Word :=
    let c := c ^^^ b.setWidth 32
    (List.range 8).foldl (fun c _ => crcShift 0x82F63B78#32 c) c
  ~~~ (bs.foldl step 0xFFFFFFFF#32)

/-- R135: CRC-64/ECMA-182 (polynomial 0x42F0E1EBA9EA3693, most significant bit first, initial value 0). -/
def crc64 (bs : List Byte) : DWord :=
  let step (c : DWord) (b : Byte) : DWord :=
    let c := c ^^^ ((b.setWidth 64) <<< 56)
    (List.range 8).foldl (fun c _ => if c.getLsbD 63 then (c <<< 1) ^^^ 0x42F0E1EBA9EA3693#64 else c <<< 1) c
  bs.foldl step 0#64

end Sys2Proof.Machine
end

