-- ==== Sys2Proof/Config.lean ====
section
/-!
DEFINITION. What an implementation fixes (fused and strapped values, the grade) and the free values of the spec.
None of these constants has a body: nothing in Lean can evaluate one, so a claim about one holds for every value of it.
-/
namespace Sys2Proof.Config

/-- R2, R817: the grade of the part, fused: `true` for -X, `false` for -S. -/
opaque gradeX : Bool

/-- The fused words shown by RO registers, by BAR0 offset: KEY.DEVICE_ID, IDPUB, KAPUB (R686, R703), CSW.MAC (R972),
CSW.VDM_ID (R999). -/
opaque fused : Nat → Word

/-- R1064: the DBG_EN strap, sampled at power-up. -/
opaque dbgEnStrap : Bool

/-- R1023, FLASH_STS: the JEDEC manufacturer and density bytes of the flash fitted on the tray. -/
opaque flashIdent : BitVec 16

/-- Random draws of the part (R684 CHALLENGE, R1065 NONCE, R974 ephemeral keys and nonces, session identifiers): the
n-th draw. State.draws counts them. -/
opaque draw : Nat → DWord

/-- Bytes that the spec states as the output of a cryptographic engine (signatures, certificates, digests of images held
outside the model's data): byte `i` of the `n`-th such output. -/
opaque cryptoByte : Nat → Nat → Byte

/-- SHA-384 (R594, R681, R688, R689): byte `i` of the digest of a byte string; the model uses no property of it. -/
opaque sha384 : List Byte → Nat → Byte

/-- R1123, R94: the level read from a node torn by a row write that a loss of lock cut short, by draw number and column. -/
opaque tornLevel : Nat → Nat → BitVec 6

/-- The result of an arithmetic step whose operands the spec gives no result for (division by zero in NORM and SOFTMAX,
R357 with R242 to R246), by the two operand patterns. -/
opaque unstatedQuotient : Word → Word → Word

end Sys2Proof.Config
end

