-- ==== Sys2Proof/Machine/Store.lean ====
section
/-!
DEFINITION. Sparse plain-data tables: a list of (key, value) pairs in ONE canonical form, keys strictly rising and no
entry equal to what an unlisted key reads as.  Equal tables are then equal lists.
-/
namespace Sys2Proof.Machine

/-- A sparse table from natural-number keys. -/
abbrev Store (β : Type) := List (Nat × β)

/-- The value at key `k`; an unlisted key reads as `d k`. -/
def Store.get {β : Type} (d : Nat → β) : Store β → Nat → β
  | [], k => d k
  | (k', v) :: m, k => if k = k' then v else Store.get d m k

/-- Insert or replace the entry of key `k`, keys rising. -/
def Store.ins {β : Type} : Store β → Nat → β → Store β
  | [], k, v => [(k, v)]
  | (k', v') :: m, k, v =>
    if k < k' then (k, v) :: (k', v') :: m else if k = k' then (k, v) :: m else (k', v') :: Store.ins m k v

/-- Write `v` at key `k`, keeping the canonical form: writing the default removes the entry. -/
def Store.put {β : Type} [DecidableEq β] (d : Nat → β) (m : Store β) (k : Nat) (v : β) : Store β :=
  if v = d k then m.filter (fun p => p.1 != k) else Store.ins m k v

/-- The canonical form above a lower bound: every key is at least `lo`, keys strictly rise, no entry is a default. -/
def Store.wfFrom {β : Type} [DecidableEq β] (d : Nat → β) : Nat → Store β → Bool
  | _, [] => true
  | lo, (k, v) :: m => decide (lo ≤ k) && !decide (v = d k) && Store.wfFrom d (k + 1) m

/-- The canonical form. -/
def Store.wf {β : Type} [DecidableEq β] (d : Nat → β) (m : Store β) : Bool := Store.wfFrom d 0 m

/-- Apply `f` to the value at `k`. -/
def Store.upd {β : Type} [DecidableEq β] (d : Nat → β) (m : Store β) (k : Nat) (f : β → β) : Store β :=
  Store.put d m k (f (Store.get d m k))

end Sys2Proof.Machine
end

