-- ==== Sys2Proof/Machine/RegMap.lean ====
section
/-!
DEFINITION. The register map: every register of every page table of spec/ (chapters 02 to 22), with its access type (R8),
its reset value, the bits a plain write stores (the RW fields of its field table; reserved bits read 0, R9) and whether the
spec marks it held.  Addresses are BAR0 offsets: block type << 22, instance << 12, offset (R17, R777).
-/
namespace Sys2Proof.Machine

/-- R8: the access types of a register. -/
inductive Acc
  | ro | rw | rw1c | wo | rc | rp
  deriving DecidableEq, Repr

/-- One row of a page table: `cnt` registers from `off`, `stride` bytes apart, of access `acc`, reset value `rst`,
writable mask `wm`; `held`: the spec marks the reset value "held". -/
structure RegRow where
  off : Nat
  cnt : Nat
  stride : Nat
  acc : Acc
  rst : Word
  wm : Word
  held : Bool
  deriving DecidableEq, Repr

/-- R17: the BAR0 offset of a page. -/
def pageAddr (ty inst : Nat) : Nat := ty * 0x400000 + inst * 0x1000

/-- The TOP page (spec/16; 16, R816). -/
def rowsTop : List RegRow :=
  [ ⟨0x040, 1, 4, .ro, 0x0, 0x0, false⟩ -- TOP_PART
  , ⟨0x044, 1, 4, .ro, 0x0, 0x0, false⟩ -- TOP_STS
  , ⟨0x048, 1, 4, .rw, 0xA03, 0xFF07, true⟩ -- IRQ_CTL
  , ⟨0x04C, 1, 4, .ro, 0x0, 0x0, false⟩ -- PEND_TYPE
  , ⟨0x050, 1, 4, .rw, 0x0, 0x1F, false⟩ -- PEND_SEL
  , ⟨0x054, 1, 4, .rc, 0x0, 0x0, false⟩ -- BAD_ACC_CNT
  , ⟨0x058, 1, 4, .ro, 0x0, 0x0, true⟩ -- BAD_ACC_ADDR
  , ⟨0x05C, 1, 4, .ro, 0x0, 0x0, true⟩ -- BAD_ACC_INFO
  , ⟨0x060, 4, 4, .rw, 0x0, 0xFFFFFFFF, true⟩ -- SCRATCH
  , ⟨0x080, 32, 4, .ro, 0x0, 0x0, false⟩ -- PEND_MAP
  ]

/-- The PIL page (spec/19; 19, R957). -/
def rowsPil : List RegRow :=
  [ ⟨0x040, 1, 4, .rw, 0xA01, 0xFF01, true⟩ -- PIL_CTL
  , ⟨0x044, 1, 4, .ro, 0x0, 0x0, false⟩ -- PIL_STS
  , ⟨0x048, 1, 4, .wo, 0x0, 0xFFFFFFFF, false⟩ -- WD_KICK
  , ⟨0x04C, 1, 4, .rc, 0x0, 0x0, false⟩ -- WD_CNT
  , ⟨0x050, 1, 4, .ro, 0x0, 0x0, true⟩ -- RST_CNT
  , ⟨0x054, 1, 4, .ro, 0x0, 0x0, true⟩ -- LAST_RST
  , ⟨0x058, 1, 4, .ro, 0x0, 0x0, false⟩ -- FW_VER
  ]

/-- The ISL page (spec/06-09; 06-09, 14, 17-19: R326, R369, R419, R461, R705, R876, R915, R954). -/
def rowsIsl0 : List RegRow :=
  [ ⟨0x040, 1, 4, .ro, 0x0, 0x0, false⟩ -- ENG_STS
  , ⟨0x044, 1, 4, .ro, 0x0, 0x0, false⟩ -- HB_CNT
  , ⟨0x048, 1, 4, .rc, 0x0, 0x0, false⟩ -- HB_MISS_CNT
  , ⟨0x04C, 1, 4, .rc, 0x0, 0x0, false⟩ -- ENG_RST_CNT
  , ⟨0x050, 1, 4, .ro, 0x0, 0x0, true⟩ -- ENG_LAST
  , ⟨0x054, 1, 4, .ro, 0x0, 0x0, true⟩ -- ENG_LAST_TICK_LO
  , ⟨0x058, 1, 4, .ro, 0x0, 0x0, true⟩ -- ENG_LAST_TICK_HI
  , ⟨0x05C, 1, 4, .rc, 0x0, 0x0, false⟩ -- HANG_FREED_CNT
  , ⟨0x100, 1, 4, .ro, 0x0, 0x0, false⟩ -- SEQ_STS
  , ⟨0x104, 1, 4, .ro, 0x0, 0x0, false⟩ -- TKT_LIVE
  , ⟨0x108, 1, 4, .rc, 0x0, 0x0, false⟩ -- TKT_HWM
  , ⟨0x10C, 1, 4, .ro, 0x0, 0x0, false⟩ -- TKT_LEASED
  , ⟨0x110, 1, 4, .ro, 0x0, 0x0, false⟩ -- ISSUE_CNT_LO
  , ⟨0x114, 1, 4, .ro, 0x0, 0x0, false⟩ -- ISSUE_CNT_HI
  , ⟨0x118, 1, 4, .ro, 0x0, 0x0, true⟩ -- DESC_ERR
  , ⟨0x140, 1, 4, .ro, 0x0, 0x0, false⟩ -- DYN_CFG
  , ⟨0x144, 1, 4, .ro, 0x0, 0x0, false⟩ -- DYN_OWNER
  , ⟨0x148, 1, 4, .ro, 0x0, 0x0, false⟩ -- DYN_LAST
  , ⟨0x14C, 1, 4, .ro, 0x0, 0x0, false⟩ -- DYN_LAST_D
  , ⟨0x150, 1, 4, .rc, 0x0, 0x0, false⟩ -- DYN_CALL_CNT
  , ⟨0x154, 1, 4, .rc, 0x0, 0x0, false⟩ -- DYN_NARROW_CNT
  , ⟨0x158, 1, 4, .rc, 0x0, 0x0, false⟩ -- DYN_DEFAULT_CNT
  , ⟨0x15C, 1, 4, .rc, 0x0, 0x0, false⟩ -- DYN_WAIT_CNT
  , ⟨0x180, 1, 4, .ro, 0x0, 0x0, true⟩ -- ADP_TILES
  , ⟨0x184, 1, 4, .ro, 0x0, 0x0, false⟩ -- ADP_STS
  , ⟨0x188, 1, 4, .rc, 0x0, 0x0, false⟩ -- GCLIP_CNT
  , ⟨0x18C, 1, 4, .rc, 0x0, 0x0, false⟩ -- ACC_SAT_CNT
  , ⟨0x190, 1, 4, .rc, 0x0, 0x0, false⟩ -- LVL_CLAMP_CNT
  , ⟨0x194, 1, 4, .rc, 0x0, 0x0, false⟩ -- BAND_SKIP_CNT
  , ⟨0x198, 1, 4, .rc, 0x0, 0x0, false⟩ -- XESC_CNT
  , ⟨0x1A0, 1, 4, .ro, 0x0, 0x0, true⟩ -- BAND_CNT_LO
  , ⟨0x1A4, 1, 4, .ro, 0x0, 0x0, true⟩ -- BAND_CNT_HI
  , ⟨0x1C0, 16, 4, .ro, 0x0, 0x0, true⟩ -- ADP_SRC
  , ⟨0x200, 1, 4, .ro, 0x400, 0x0, false⟩ -- PAGES_FREE
  , ⟨0x204, 1, 4, .rc, 0x0, 0x0, false⟩ -- FOREIGN_CNT
  , ⟨0xC00, 256, 4, .ro, 0x0, 0x0, true⟩ -- PAGE_TAG
  , ⟨0x220, 1, 4, .rw, 0x27102100, 0xFFFF3FFF, true⟩ -- INT_CTL
  , ⟨0x224, 1, 4, .ro, 0x0, 0x0, true⟩ -- INT_STS
  , ⟨0x228, 1, 4, .ro, 0x0, 0x0, true⟩ -- REPROG_STS
  , ⟨0x22C, 1, 4, .rc, 0x0, 0x0, false⟩ -- CK_TRANS_CNT
  , ⟨0x230, 1, 4, .rc, 0x0, 0x0, false⟩ -- CK_PERSIST_CNT
  , ⟨0x234, 1, 4, .rc, 0x0, 0x0, false⟩ -- REPROG_CNT
  , ⟨0x238, 1, 4, .rc, 0x0, 0x0, false⟩ -- CHK_FAIL_CNT
  , ⟨0x23C, 1, 4, .rc, 0x0, 0x0, false⟩ -- POISON_USE_CNT
  , ⟨0x240, 16, 4, .ro, 0x0, 0x0, true⟩ -- LAG
  ]

/-- The ISL page (spec/06-09; 06-09, 14, 17-19: R326, R369, R419, R461, R705, R876, R915, R954). -/
def rowsIsl1 : List RegRow :=
  [ ⟨0x280, 1, 4, .ro, 0x0, 0x0, true⟩ -- LAG_ENG
  , ⟨0x284, 1, 4, .rw, 0x0, 0x3FFF0F, true⟩ -- RPL_CFG
  , ⟨0x288, 1, 4, .ro, 0x0, 0x0, true⟩ -- RPL_STS
  , ⟨0x28C, 1, 4, .ro, 0x0, 0x0, true⟩ -- RPL_STEP
  , ⟨0x290, 1, 4, .ro, 0x0, 0x0, true⟩ -- RPL_DIGW_LO
  , ⟨0x294, 1, 4, .ro, 0x0, 0x0, true⟩ -- RPL_DIGW_HI
  , ⟨0x298, 1, 4, .ro, 0x0, 0x0, true⟩ -- RPL_DIGL_LO
  , ⟨0x29C, 1, 4, .ro, 0x0, 0x0, true⟩ -- RPL_DIGL_HI
  , ⟨0x2A0, 1, 4, .ro, 0x0, 0x0, true⟩ -- RPL_MASK
  , ⟨0x2A4, 1, 4, .ro, 0x0, 0x0, true⟩ -- RPL_PTH
  , ⟨0x2A8, 1, 4, .ro, 0x0, 0x0, true⟩ -- RPL_OUT_LO
  , ⟨0x2AC, 1, 4, .ro, 0x0, 0x0, true⟩ -- RPL_OUT_HI
  , ⟨0x2B0, 1, 4, .rc, 0x0, 0x0, false⟩ -- RPL_CMP_CNT
  , ⟨0x2B4, 1, 4, .rc, 0x0, 0x0, false⟩ -- RPL_MISS_CNT
  , ⟨0x400, 1, 4, .rw, 0xC070001, 0xF0F3F03, true⟩ -- WEIR_CTL
  , ⟨0x404, 1, 4, .rw, 0x1000100, 0xFFFFFFFF, true⟩ -- WEIR_THR
  , ⟨0x408, 1, 4, .ro, 0x0, 0x0, false⟩ -- WEIR_STS
  , ⟨0x410, 1, 4, .ro, 0x0, 0x0, false⟩ -- WIN_TICK_LO
  , ⟨0x414, 1, 4, .ro, 0x0, 0x0, false⟩ -- WIN_TICK_HI
  , ⟨0x418, 1, 4, .ro, 0x0, 0x0, false⟩ -- INP_CNT
  , ⟨0x41C, 1, 4, .ro, 0x0, 0x0, false⟩ -- SAT_CNT
  , ⟨0x420, 1, 4, .ro, 0x0, 0x0, false⟩ -- ESC_CNT
  , ⟨0x424, 1, 4, .ro, 0x0, 0x0, false⟩ -- ESC_LOST_CNT
  , ⟨0x428, 1, 4, .ro, 0x0, 0x0, false⟩ -- SEL_OVF_CNT
  , ⟨0x42C, 1, 4, .ro, 0x0, 0x0, false⟩ -- STRAY_CNT
  , ⟨0x430, 1, 4, .ro, 0x0, 0x0, false⟩ -- INP_LAST
  , ⟨0x434, 1, 4, .ro, 0x0, 0x0, false⟩ -- SAT_LAST
  , ⟨0x438, 1, 4, .ro, 0x0, 0x0, false⟩ -- ESC_LAST
  , ⟨0x43C, 1, 4, .ro, 0x0, 0x0, false⟩ -- LOST_LAST
  , ⟨0x440, 1, 4, .ro, 0x0, 0x0, false⟩ -- SELOVF_LAST
  , ⟨0x444, 1, 4, .ro, 0x0, 0x0, false⟩ -- STRAY_LAST
  , ⟨0x448, 1, 4, .rc, 0x0, 0x0, false⟩ -- LIST_BAD_CNT
  , ⟨0x480, 16, 4, .ro, 0x0, 0x0, false⟩ -- CONV_CNT
  , ⟨0x4C0, 16, 4, .ro, 0x0, 0x0, false⟩ -- CONV_LAST
  , ⟨0x500, 128, 4, .ro, 0x0, 0x0, false⟩ -- CLIP_CNT
  , ⟨0x700, 128, 4, .ro, 0x0, 0x0, false⟩ -- CLIP_LAST
  , ⟨0x900, 4, 4, .ro, 0x0, 0x0, false⟩ -- CLIP_MAP
  , ⟨0x910, 1, 4, .ro, 0x0, 0x0, false⟩ -- TST_ISTS
  , ⟨0x914, 1, 4, .ro, 0x0, 0x0, false⟩ -- TST_DEFER
  , ⟨0x918, 1, 4, .ro, 0x0, 0x0, true⟩ -- TST_OVERDUE
  , ⟨0x91C, 1, 4, .rc, 0x0, 0x0, false⟩ -- TST_ICNT
  , ⟨0x920, 16, 4, .ro, 0xFFFFFF, 0x0, false⟩ -- TAGE
  , ⟨0x960, 1, 4, .ro, 0xFFFFFF, 0x0, false⟩ -- TAGE_SEQ
  , ⟨0x964, 1, 4, .ro, 0xFFFFFF, 0x0, false⟩ -- TAGE_RILL
  , ⟨0x968, 1, 4, .ro, 0xFFFFFF, 0x0, false⟩ -- TAGE_SPW
  ]

/-- The ISL page, all regions. -/
def rowsIsl : List RegRow := rowsIsl0 ++ rowsIsl1

/-- The TIL page (spec/02 and 03; 02 and 03, R119, R170). -/
def rowsTil : List RegRow :=
  [ ⟨0x040, 1, 4, .rw, 0xF0C, 0xFF0C, false⟩ -- TIL_CTL
  , ⟨0x044, 1, 4, .ro, 0x0, 0x0, false⟩ -- TIL_STS
  , ⟨0x048, 1, 4, .rw, 0x2, 0x7, false⟩ -- CK_CFG
  , ⟨0x04C, 1, 4, .rw, 0x4, 0xF, false⟩ -- REF_CFG
  , ⟨0x050, 1, 4, .rc, 0x0, 0x0, false⟩ -- CK_MISS_CNT
  , ⟨0x054, 1, 4, .rc, 0x0, 0x0, false⟩ -- CK_NEAR_CNT
  , ⟨0x058, 1, 4, .rc, 0x0, 0x0, false⟩ -- CK_SKIP_CNT
  , ⟨0x05C, 1, 4, .ro, 0x0, 0x0, false⟩ -- CK_LAST
  , ⟨0x060, 1, 4, .ro, 0x0, 0x0, false⟩ -- PULSE_CNT_LO
  , ⟨0x064, 1, 4, .ro, 0x0, 0x0, false⟩ -- PULSE_CNT_HI
  , ⟨0x068, 1, 4, .ro, 0x0, 0x0, false⟩ -- ROWOP_CNT_LO
  , ⟨0x06C, 1, 4, .ro, 0x0, 0x0, false⟩ -- ROWOP_CNT_HI
  , ⟨0x070, 1, 4, .ro, 0x20202020, 0x0, false⟩ -- REF_LAST
  , ⟨0x074, 1, 4, .rw, 0x0, 0x3, true⟩ -- TRN_CFG
  , ⟨0x078, 1, 4, .ro, 0x0, 0x0, false⟩ -- CK_GAIN
  , ⟨0x07C, 1, 4, .rw, 0x0, 0x10F, true⟩ -- COLMAP_CTL
  , ⟨0x080, 4, 4, .rw, 0x0, 0x3FF, true⟩ -- COLMAP
  , ⟨0x090, 1, 4, .rw, 0x0, 0x7, false⟩ -- TRIM_WIN_CTL
  , ⟨0x094, 1, 4, .rw1c, 0x0, 0x3, false⟩ -- TRIM_WIN_STS
  , ⟨0x098, 1, 4, .ro, 0x0, 0x0, true⟩ -- CAL_TJ
  , ⟨0x100, 256, 4, .rw, 0x0, 0xFFFFFFFF, true⟩ -- COLSCALE
  , ⟨0x500, 32, 4, .rw, 0x0, 0xFFFFFFFF, true⟩ -- GAINSTEP
  , ⟨0x800, 512, 4, .rw, 0x0, 0xFFFFFFFF, true⟩ -- TRIM_WIN
  , ⟨0x0A0, 1, 4, .rw, 0x4, 0x3F0F, true⟩ -- RFSH_CTL
  , ⟨0x0A4, 1, 4, .ro, 0x6, 0x0, true⟩ -- RFSH_STS
  , ⟨0x0A8, 1, 4, .ro, 0x0, 0x0, true⟩ -- RFSH_PTR
  , ⟨0x0AC, 1, 4, .ro, 0x0, 0x0, true⟩ -- RFSH_OWED
  , ⟨0x0B0, 1, 4, .ro, 0x0, 0x0, false⟩ -- AGE_MAX
  , ⟨0x0B4, 1, 4, .ro, 0x0, 0x0, true⟩ -- PASS_CNT
  , ⟨0x0B8, 1, 4, .ro, 0x0, 0x0, true⟩ -- DIG_WRITE_LO
  , ⟨0x0BC, 1, 4, .ro, 0x0, 0x0, true⟩ -- DIG_WRITE_HI
  , ⟨0x0C0, 1, 4, .ro, 0x0, 0x0, true⟩ -- DIG_LAST_LO
  , ⟨0x0C4, 1, 4, .ro, 0x0, 0x0, true⟩ -- DIG_LAST_HI
  , ⟨0x0C8, 1, 4, .ro, 0x0, 0x0, true⟩ -- PASS_TICK_LO
  , ⟨0x0CC, 1, 4, .ro, 0x0, 0x0, true⟩ -- PASS_TICK_HI
  , ⟨0x0D0, 1, 4, .rc, 0x0, 0x0, false⟩ -- SKIP_CNT
  , ⟨0x0D4, 1, 4, .rc, 0x0, 0x0, false⟩ -- LOW_CNT
  , ⟨0x0D8, 1, 4, .rc, 0x0, 0x0, false⟩ -- DIG_MISS_CNT
  , ⟨0x0DC, 1, 4, .ro, 0x0, 0x0, true⟩ -- DIG_ROW
  , ⟨0x0E0, 1, 4, .rc, 0x0, 0x0, false⟩ -- SLIP_CNT
  , ⟨0x0E4, 1, 4, .rc, 0x0, 0x0, false⟩ -- CATCHUP_CNT
  ]

/-- The HBR page (spec/12; 12, R641). -/
def rowsHbr : List RegRow :=
  [ ⟨0x040, 1, 4, .rw, 0x1003C01, 0xFFFFFF01, true⟩ -- HBR_CTL
  , ⟨0x044, 1, 4, .ro, 0x0, 0x0, false⟩ -- HBR_STS
  , ⟨0x048, 1, 4, .rc, 0x0, 0x0, false⟩ -- CE_CNT
  , ⟨0x04C, 1, 4, .rc, 0x0, 0x0, false⟩ -- UE_CNT
  , ⟨0x050, 1, 4, .ro, 0x0, 0x0, true⟩ -- POISON_CNT
  , ⟨0x054, 1, 4, .rc, 0x0, 0x0, false⟩ -- CHK_FAIL_CNT
  , ⟨0x058, 1, 4, .ro, 0x0, 0x0, true⟩ -- ERR_ADDR_LO
  , ⟨0x05C, 1, 4, .ro, 0x0, 0x0, true⟩ -- ERR_ADDR_HI
  , ⟨0x060, 1, 4, .ro, 0x0, 0x0, true⟩ -- ERR_INFO
  , ⟨0x064, 1, 4, .ro, 0x0, 0x0, false⟩ -- PATROL_STS
  , ⟨0x068, 1, 4, .ro, 0x0, 0x0, false⟩ -- RD_BYTES_LO
  , ⟨0x06C, 1, 4, .ro, 0x0, 0x0, false⟩ -- RD_BYTES_HI
  , ⟨0x070, 1, 4, .ro, 0x0, 0x0, false⟩ -- WR_BYTES_LO
  , ⟨0x074, 1, 4, .ro, 0x0, 0x0, false⟩ -- WR_BYTES_HI
  , ⟨0x078, 1, 4, .ro, 0x1010, 0x0, false⟩ -- OVF_CREDITS
  , ⟨0x07C, 1, 4, .ro, 0x0, 0x0, false⟩ -- STACK_TJ
  ]

/-- The FRY page (spec/12; 12, R635). -/
def rowsFry : List RegRow :=
  [ ⟨0x040, 1, 4, .rw, 0x103C, 0xFFFF, true⟩ -- FRY_CTL
  , ⟨0x044, 1, 4, .ro, 0x0, 0x0, false⟩ -- FRY_STS
  , ⟨0x048, 1, 4, .ro, 0x0, 0x0, true⟩ -- SCRUB_STS
  , ⟨0x04C, 1, 4, .ro, 0x0, 0x0, true⟩ -- SCRUB_LAST
  , ⟨0x050, 1, 4, .rc, 0x0, 0x0, false⟩ -- AUTH_FAIL_CNT
  , ⟨0x054, 1, 4, .rc, 0x0, 0x0, false⟩ -- DIGEST_FAIL_CNT
  , ⟨0x058, 1, 4, .rc, 0x0, 0x0, false⟩ -- SCRUB_FAIL_CNT
  , ⟨0x05C, 1, 4, .rc, 0x0, 0x0, false⟩ -- CIST_ERR_CNT
  , ⟨0x060, 1, 4, .ro, 0x0, 0x0, false⟩ -- HB_BYTES_LO
  , ⟨0x064, 1, 4, .ro, 0x0, 0x0, false⟩ -- HB_BYTES_HI
  , ⟨0x068, 1, 4, .ro, 0x0, 0x0, false⟩ -- CIST_BYTES_LO
  , ⟨0x06C, 1, 4, .ro, 0x0, 0x0, false⟩ -- CIST_BYTES_HI
  , ⟨0x070, 1, 4, .ro, 0x0, 0x0, true⟩ -- LAST_FAIL
  , ⟨0x074, 1, 4, .ro, 0x0, 0x0, true⟩ -- LAST_FAIL_SRC
  , ⟨0x078, 1, 4, .ro, 0x0, 0x0, true⟩ -- SWAP_STS
  , ⟨0x07C, 1, 4, .ro, 0x0, 0x0, true⟩ -- SWAP_HOLD
  , ⟨0x080, 8, 4, .ro, 0x0, 0x0, false⟩ -- PORT_LANES
  , ⟨0x400, 64, 16, .ro, 0x0, 0x0, false⟩ -- CIST_BASE_LO
  , ⟨0x404, 64, 16, .ro, 0x0, 0x0, false⟩ -- CIST_BASE_HI
  , ⟨0x408, 64, 16, .ro, 0x0, 0x0, false⟩ -- CIST_SIZE
  , ⟨0x40C, 64, 16, .ro, 0x0, 0x0, false⟩ -- CIST_CTL
  ]

/-- The SLU page (spec/11; 11, R566). -/
def rowsSlu : List RegRow :=
  [ ⟨0x040, 1, 4, .rw, 0x11, 0x1F, true⟩ -- SLU_CTL
  , ⟨0x044, 1, 4, .ro, 0x0, 0x0, false⟩ -- SLU_STS
  , ⟨0x048, 1, 4, .rw, 0x0, 0xFFFFFFFF, true⟩ -- CHIP_CAP
  , ⟨0x04C, 1, 4, .ro, 0x7000A3F, 0x0, false⟩ -- CHIP_RATE
  , ⟨0x050, 1, 4, .rw, 0x6020509, 0xFFFFFFFF, true⟩ -- AVS_CTL
  , ⟨0x054, 1, 4, .ro, 0x0, 0x0, false⟩ -- AVS_LIM
  , ⟨0x058, 1, 4, .ro, 0x2EE02EE, 0x0, false⟩ -- AVS_STS
  , ⟨0x05C, 1, 4, .rc, 0x0, 0x0, false⟩ -- AVS_CNT
  , ⟨0x060, 1, 4, .ro, 0x0, 0x0, false⟩ -- GRANT_ARR_LO
  , ⟨0x064, 1, 4, .ro, 0x0, 0x0, false⟩ -- GRANT_ARR_HI
  , ⟨0x068, 1, 4, .ro, 0x0, 0x0, false⟩ -- GRANT_CORE_LO
  , ⟨0x06C, 1, 4, .ro, 0x0, 0x0, false⟩ -- GRANT_CORE_HI
  , ⟨0x070, 1, 4, .ro, 0x7FFF, 0x0, false⟩ -- SLK_AVS
  , ⟨0x100, 8, 32, .ro, 0x0, 0x0, false⟩ -- PSHARE
  , ⟨0x104, 8, 32, .rw, 0x0, 0xFFFFFFFF, true⟩ -- PCAP
  , ⟨0x108, 8, 32, .ro, 0x0, 0x0, false⟩ -- PRATE
  , ⟨0x10C, 8, 32, .ro, 0x0, 0x0, false⟩ -- PRES
  , ⟨0x110, 8, 32, .ro, 0x0, 0x0, false⟩ -- PAVAIL
  , ⟨0x114, 8, 32, .ro, 0x0, 0x0, false⟩ -- PRSV
  , ⟨0x118, 8, 32, .rc, 0x0, 0x0, false⟩ -- PWAIT
  , ⟨0x11C, 8, 32, .rc, 0x0, 0x0, false⟩ -- PSTRETCH
  ]

/-- The TID page (spec/10; 10, R510). -/
def rowsTid : List RegRow :=
  [ ⟨0x040, 1, 4, .rw, 0x3, 0x3, true⟩ -- TID_CTL
  , ⟨0x044, 1, 4, .ro, 0x0, 0x0, true⟩ -- TID_STS
  , ⟨0x048, 1, 4, .ro, 0x0, 0x0, true⟩ -- COUNT_LO
  , ⟨0x04C, 1, 4, .ro, 0x0, 0x0, true⟩ -- COUNT_HI
  , ⟨0x050, 1, 4, .rw, 0x80A00, 0xFFFF07, true⟩ -- PPS_CTL
  , ⟨0x054, 1, 4, .ro, 0x0, 0x0, true⟩ -- PPS_STS
  , ⟨0x058, 1, 4, .rw, 0x0, 0xFFFFFFFF, true⟩ -- PPS_BASE_LO
  , ⟨0x05C, 1, 4, .rw, 0x0, 0xFFFFFFFF, true⟩ -- PPS_BASE_HI
  , ⟨0x060, 1, 4, .ro, 0x0, 0x0, true⟩ -- PPS_CAPT_LO
  , ⟨0x064, 1, 4, .ro, 0x0, 0x0, true⟩ -- PPS_CAPT_HI
  , ⟨0x068, 1, 4, .ro, 0x0, 0x0, true⟩ -- PPS_ERR
  , ⟨0x06C, 1, 4, .ro, 0x0, 0x0, true⟩ -- FREQ_ADJ
  , ⟨0x070, 1, 4, .rw, 0x10000, 0xFF3F07, true⟩ -- OUT_CTL
  , ⟨0x074, 1, 4, .rw, 0x0, 0xFFFFFFFF, true⟩ -- OUT_AT_LO
  , ⟨0x078, 1, 4, .rw, 0x0, 0xFFFFFFFF, true⟩ -- OUT_AT_HI
  , ⟨0x07C, 1, 4, .rw, 0x0, 0xFFFFFFFF, true⟩ -- OUT_PERIOD
  , ⟨0x080, 1, 4, .rc, 0x0, 0x0, false⟩ -- MISS_CNT
  , ⟨0x084, 1, 4, .rc, 0x0, 0x0, false⟩ -- SLIP_CNT
  , ⟨0x088, 1, 4, .rc, 0x0, 0x0, false⟩ -- LATE_CNT
  , ⟨0x08C, 1, 4, .rc, 0x0, 0x0, false⟩ -- HANG_CNT
  , ⟨0x090, 1, 4, .ro, 0x0, 0x0, true⟩ -- LAST_MISS
  , ⟨0x094, 1, 4, .ro, 0x0, 0x0, true⟩ -- LAST_MISS_TICK_LO
  , ⟨0x098, 1, 4, .ro, 0x0, 0x0, true⟩ -- LAST_MISS_TICK_HI
  , ⟨0x09C, 1, 4, .rw, 0x700, 0xF3F, true⟩ -- SLK_CTL
  , ⟨0x0A0, 4, 4, .ro, 0x7FFF, 0x0, false⟩ -- SLK_MIN
  , ⟨0x0B0, 1, 4, .rw, 0x0, 0x33F, false⟩ -- TKT_SEL
  , ⟨0xC00, 256, 4, .ro, 0x0, 0x0, false⟩ -- TKT_WIN
  ]

/-- The KEY page (spec/14; 14, R703). -/
def rowsKey : List RegRow :=
  [ ⟨0x040, 1, 4, .wo, 0x0, 0xFFFFFFFF, false⟩ -- KEY_CMD
  , ⟨0x044, 1, 4, .ro, 0x0, 0x0, false⟩ -- KEY_STS
  , ⟨0x048, 1, 4, .ro, 0x0, 0x0, true⟩ -- SLOT_LO
  , ⟨0x04C, 1, 4, .ro, 0x0, 0x0, true⟩ -- SLOT_HI
  , ⟨0x050, 1, 4, .ro, 0x0, 0x0, false⟩ -- DEVICE_ID_LO
  , ⟨0x054, 1, 4, .ro, 0x0, 0x0, false⟩ -- DEVICE_ID_HI
  , ⟨0x058, 1, 4, .rc, 0x0, 0x0, false⟩ -- ZERO_CNT
  , ⟨0x060, 4, 4, .ro, 0x0, 0x0, false⟩ -- KEYREG
  , ⟨0x100, 24, 4, .ro, 0x0, 0x0, false⟩ -- IDPUB
  , ⟨0x160, 24, 4, .ro, 0x0, 0x0, false⟩ -- KAPUB
  , ⟨0x200, 24, 4, .rw, 0x0, 0xFFFFFFFF, false⟩ -- REG_PUB
  ]

/-- The HIF page (spec/15; 15, R762). -/
def rowsHif : List RegRow :=
  [ ⟨0x040, 1, 4, .rw, 0x1, 0x3F03, true⟩ -- HIF_CTL
  , ⟨0x044, 1, 4, .ro, 0x0, 0x0, false⟩ -- LINK_STS
  , ⟨0x048, 1, 4, .ro, 0x0, 0x0, false⟩ -- HIF_STS
  , ⟨0x050, 1, 4, .rc, 0x0, 0x0, false⟩ -- ENTRY_CHK_CNT
  , ⟨0x054, 1, 4, .rc, 0x0, 0x0, false⟩ -- DATA_CHK_CNT
  , ⟨0x058, 1, 4, .rc, 0x0, 0x0, false⟩ -- DMA_ERR_CNT
  , ⟨0x05C, 1, 4, .rc, 0x0, 0x0, false⟩ -- FL_WAIT_CNT
  , ⟨0x060, 1, 4, .ro, 0x0, 0x0, false⟩ -- REFUSE_LO
  , ⟨0x064, 1, 4, .ro, 0x0, 0x0, false⟩ -- REFUSE_HI
  , ⟨0x068, 1, 4, .ro, 0x0, 0x0, true⟩ -- JOBS_LO
  , ⟨0x06C, 1, 4, .ro, 0x0, 0x0, true⟩ -- JOBS_HI
  , ⟨0x100, 1, 4, .rw, 0x0, 0xF, true⟩ -- Q_SEL
  , ⟨0x104, 1, 4, .wo, 0x0, 0xFFFFFFFF, false⟩ -- Q_CMD
  , ⟨0x108, 1, 4, .rw, 0x0, 0xFFFFF000, true⟩ -- SQ_BASE_LO
  , ⟨0x10C, 1, 4, .rw, 0x0, 0xFFFFFFFF, true⟩ -- SQ_BASE_HI
  , ⟨0x110, 1, 4, .rw, 0x0, 0xFFFFF000, true⟩ -- CQ_BASE_LO
  , ⟨0x114, 1, 4, .rw, 0x0, 0xFFFFFFFF, true⟩ -- CQ_BASE_HI
  , ⟨0x118, 1, 4, .rw, 0x0, 0x1FFF1FFF, true⟩ -- Q_SIZE
  , ⟨0x11C, 1, 4, .rw, 0x0, 0x1F7, true⟩ -- Q_CTL
  , ⟨0x120, 1, 4, .rw, 0x0, 0xFFFFFFFF, true⟩ -- Q_PLAN
  , ⟨0x124, 1, 4, .ro, 0x0, 0x0, true⟩ -- Q_STS
  , ⟨0x128, 1, 4, .ro, 0x0, 0x0, true⟩ -- Q_PTRS
  , ⟨0x12C, 1, 4, .ro, 0x0, 0x0, true⟩ -- Q_SPILL
  , ⟨0x400, 64, 4, .ro, 0x0, 0x0, true⟩ -- FL_BIND
  , ⟨0x800, 64, 4, .ro, 0x0, 0x0, true⟩ -- OVF_USE
  ]

/-- The CSW page (spec/20; 20, R999). -/
def rowsCsw : List RegRow :=
  [ ⟨0x040, 1, 4, .rw, 0x3, 0xFFFF, true⟩ -- CSW_CTL
  , ⟨0x044, 1, 4, .ro, 0x0, 0x0, false⟩ -- CSW_STS
  , ⟨0x048, 1, 4, .ro, 0x0, 0x0, false⟩ -- MAC_LO
  , ⟨0x04C, 1, 4, .ro, 0x0, 0x0, false⟩ -- MAC_HI
  , ⟨0x050, 1, 4, .rw, 0x0, 0xFFFFFFFF, true⟩ -- IP_ADDR
  , ⟨0x054, 1, 4, .rw, 0x0, 0xFFFFFFFF, true⟩ -- IP_MASK
  , ⟨0x058, 1, 4, .rw, 0x0, 0xFFFFFFFF, true⟩ -- IP_GW
  , ⟨0x05C, 1, 4, .rw, 0x1CF2, 0xffff, true⟩ -- UDP_PORT
  , ⟨0x060, 1, 4, .rw, 0x280064, 0xFFFFFF, true⟩ -- EVT_BATCH
  , ⟨0x064, 1, 4, .rc, 0x0, 0x0, false⟩ -- RX_CNT
  , ⟨0x068, 1, 4, .rc, 0x0, 0x0, false⟩ -- TX_CNT
  , ⟨0x06C, 1, 4, .rc, 0x0, 0x0, false⟩ -- AUTH_FAIL_CNT
  , ⟨0x070, 1, 4, .rc, 0x0, 0x0, false⟩ -- GAP_CNT
  , ⟨0x074, 1, 4, .ro, 0x0, 0x0, false⟩ -- VDM_ID
  , ⟨0x078, 1, 4, .ro, 0x0, 0x0, false⟩ -- TS_WR
  , ⟨0x100, 16, 16, .ro, 0x0, 0x0, false⟩ -- TS_LO
  , ⟨0x104, 16, 16, .ro, 0x0, 0x0, false⟩ -- TS_HI
  , ⟨0x108, 16, 16, .ro, 0x0, 0x0, false⟩ -- TS_ID
  ]

/-- The LOG page (spec/20; 20, R1003). -/
def rowsLog : List RegRow :=
  [ ⟨0x040, 1, 4, .ro, 0x0, 0x0, true⟩ -- LOG_STS
  , ⟨0x044, 1, 4, .ro, 0x0, 0x0, true⟩ -- LOG_HEAD
  , ⟨0x048, 1, 4, .ro, 0x0, 0x0, true⟩ -- LOG_SEQ
  , ⟨0x04C, 1, 4, .rw, 0x0, 0x3FFF, true⟩ -- LOG_SEL
  , ⟨0x050, 1, 4, .wo, 0x0, 0xFFFFFFFF, false⟩ -- LOG_CMD
  , ⟨0x054, 1, 4, .rc, 0x0, 0x0, false⟩ -- COAL_CNT
  , ⟨0x058, 1, 4, .rc, 0x0, 0x0, false⟩ -- OVW_CNT
  , ⟨0x800, 512, 4, .ro, 0x0, 0x0, true⟩ -- LOG_WIN
  ]

/-- The CAL page (spec/04; 04, R238). -/
def rowsCal : List RegRow :=
  [ ⟨0x040, 1, 4, .wo, 0x0, 0xFFFFFFFF, false⟩ -- CAL_CMD
  , ⟨0x044, 1, 4, .rw, 0x1016, 0xFF17, true⟩ -- CAL_CTL
  , ⟨0x048, 1, 4, .ro, 0x0, 0x0, true⟩ -- CAL_STS
  , ⟨0x04C, 1, 4, .ro, 0x0, 0x0, false⟩ -- CAL_PROG
  , ⟨0x050, 1, 4, .ro, 0x0, 0x0, true⟩ -- COMMIT_TICK_LO
  , ⟨0x054, 1, 4, .ro, 0x0, 0x0, true⟩ -- COMMIT_TICK_HI
  , ⟨0x058, 1, 4, .ro, 0x0, 0x0, false⟩ -- VREF_MEAS
  , ⟨0x05C, 1, 4, .rw, 0x0, 0x3FF, false⟩ -- VFY_SEL
  , ⟨0x060, 8, 4, .ro, 0x0, 0x0, true⟩ -- VFY
  , ⟨0x080, 1, 4, .ro, 0x0, 0x0, true⟩ -- SNAP_STS
  ]

/-- The TST page (spec/18; 18, R914). -/
def rowsTst : List RegRow :=
  [ ⟨0x040, 1, 4, .rw, 0x0, 0xFFFFFF07, true⟩ -- TST_CTL
  , ⟨0x044, 1, 4, .rw, 0xA07, 0xFF07, true⟩ -- TST_TRIG
  , ⟨0x048, 1, 4, .wo, 0x0, 0xFFFFFFFF, false⟩ -- TST_CMD
  , ⟨0x04C, 1, 4, .ro, 0x0, 0x0, false⟩ -- TST_STS
  , ⟨0x050, 1, 4, .ro, 0x0, 0x0, false⟩ -- PAT_VER
  , ⟨0x054, 1, 4, .rc, 0x0, 0x0, false⟩ -- PASS_CNT
  , ⟨0x058, 1, 4, .rc, 0x0, 0x0, false⟩ -- FAIL_CNT
  , ⟨0x05C, 1, 4, .rc, 0x0, 0x0, false⟩ -- TRANS_CNT
  , ⟨0x060, 1, 4, .rc, 0x0, 0x0, false⟩ -- DEFER_CNT
  , ⟨0x064, 1, 4, .rc, 0x0, 0x0, false⟩ -- PREEMPT_CNT
  , ⟨0x068, 1, 4, .ro, 0x0, 0x0, true⟩ -- LAST_FAIL
  , ⟨0x070, 1, 4, .ro, 0x0, 0x0, true⟩ -- LAST_FAIL_TICK_LO
  , ⟨0x074, 1, 4, .ro, 0x0, 0x0, true⟩ -- LAST_FAIL_TICK_HI
  ]

/-- The RCV page (spec/19; 19, R960). -/
def rowsRcv : List RegRow :=
  [ ⟨0x040, 1, 4, .rw, 0xA0A47, 0xFFFFF7, true⟩ -- RCV_CTL
  , ⟨0x044, 1, 4, .wo, 0x0, 0xFFFFFFFF, false⟩ -- RCV_CMD
  , ⟨0x048, 1, 4, .ro, 0x0, 0x0, false⟩ -- RCV_STS
  , ⟨0x04C, 1, 4, .rw, 0xA0064, 0xFF03FF, true⟩ -- PWRCYC_CTL
  , ⟨0x050, 1, 4, .ro, 0x0, 0x0, true⟩ -- LAST_RCV
  , ⟨0x054, 1, 4, .ro, 0x0, 0x0, true⟩ -- LAST_START_LO
  , ⟨0x058, 1, 4, .ro, 0x0, 0x0, true⟩ -- LAST_START_HI
  , ⟨0x05C, 1, 4, .ro, 0x0, 0x0, true⟩ -- LAST_DUR
  , ⟨0x060, 1, 4, .rc, 0x0, 0x0, true⟩ -- CTX_CNT
  , ⟨0x064, 1, 4, .rc, 0x0, 0x0, true⟩ -- ENG_CNT
  , ⟨0x068, 1, 4, .rc, 0x0, 0x0, true⟩ -- PART_CNT
  , ⟨0x06C, 1, 4, .rc, 0x0, 0x0, true⟩ -- WARM_CNT
  , ⟨0x070, 1, 4, .rc, 0x0, 0x0, false⟩ -- REVOKE_CNT
  , ⟨0x074, 1, 4, .rc, 0x0, 0x0, false⟩ -- RECON_CNT
  , ⟨0x078, 1, 4, .ro, 0x0, 0x0, true⟩ -- RECON_LAST
  , ⟨0x100, 8, 8, .ro, 0x0, 0x0, true⟩ -- OUT_LO
  , ⟨0x104, 8, 8, .ro, 0x0, 0x0, true⟩ -- OUT_HI
  , ⟨0x140, 8, 8, .ro, 0x0, 0x0, true⟩ -- SVC_LO
  , ⟨0x144, 8, 8, .ro, 0x0, 0x0, true⟩ -- SVC_HI
  ]

/-- The BOOT page (spec/21; 21, R1054). -/
def rowsBoot : List RegRow :=
  [ ⟨0x040, 1, 4, .ro, 0x0, 0x0, true⟩ -- STS
  , ⟨0x044, 1, 4, .rw, 0x0, 0x1, true⟩ -- BOOT_CTL
  , ⟨0x048, 1, 4, .ro, 0x0, 0x0, true⟩ -- PROFSEL_SMP
  , ⟨0x04C, 1, 4, .wo, 0x0, 0xFFFFFFFF, false⟩ -- PROF_CMD
  , ⟨0x050, 1, 4, .ro, 0x0, 0x0, true⟩ -- PROF_STS
  , ⟨0x054, 1, 4, .wo, 0x0, 0xFFFFFFFF, false⟩ -- FW_CMD
  , ⟨0x058, 1, 4, .ro, 0x0, 0x0, true⟩ -- FW_STS
  , ⟨0x060, 1, 4, .ro, 0x0, 0x0, false⟩ -- FW_SEQ_A
  , ⟨0x064, 1, 4, .ro, 0x0, 0x0, false⟩ -- FW_SEQ_B
  , ⟨0x068, 1, 4, .ro, 0x0, 0x0, false⟩ -- FW_VER_A
  , ⟨0x06C, 1, 4, .ro, 0x0, 0x0, false⟩ -- FW_VER_B
  , ⟨0x070, 1, 4, .rw, 0x0, 0xFFFFFFFF, false⟩ -- FW_ADDR_LO
  , ⟨0x074, 1, 4, .rw, 0x0, 0xFFFFFFFF, false⟩ -- FW_ADDR_HI
  , ⟨0x078, 1, 4, .rw, 0x0, 0x3FFFFF, false⟩ -- FW_LEN
  , ⟨0x07C, 1, 4, .ro, 0x0, 0x0, false⟩ -- BOOT_MS
  , ⟨0x080, 1, 4, .ro, 0x0, 0x0, false⟩ -- FLASH_STS
  , ⟨0x084, 1, 4, .rc, 0x0, 0x0, false⟩ -- REC_REJ_CNT
  , ⟨0x088, 1, 4, .rc, 0x0, 0x0, false⟩ -- FLASH_ERR_CNT
  , ⟨0x800, 64, 4, .rw, 0x0, 0xFFFFFFFF, false⟩ -- PROF_BUF
  ]

/-- The DBG page (spec/22; 22, R1074). -/
def rowsDbg : List RegRow :=
  [ ⟨0x040, 1, 4, .rw, 0x0, 0x1, false⟩ -- DBG_CTL
  , ⟨0x044, 1, 4, .ro, 0x0, 0x0, false⟩ -- DBG_STS
  , ⟨0x048, 1, 4, .wo, 0x0, 0xFFFFFFFF, false⟩ -- DBG_CMD
  , ⟨0x04C, 1, 4, .ro, 0x0, 0x0, false⟩ -- FAIL_CNT
  , ⟨0x050, 1, 4, .ro, 0x0, 0x0, false⟩ -- NONCE_LO
  , ⟨0x054, 1, 4, .ro, 0x0, 0x0, false⟩ -- NONCE_HI
  , ⟨0x058, 1, 4, .ro, 0x0, 0x0, false⟩ -- FRZ_TICK_LO
  , ⟨0x05C, 1, 4, .ro, 0x0, 0x0, false⟩ -- FRZ_TICK_HI
  , ⟨0x800, 32, 4, .rw, 0x0, 0xFFFFFFFF, false⟩ -- TOKEN
  ]

/-- The PRT page (spec/14; 14, R701). -/
def rowsPrt : List RegRow :=
  [ ⟨0x040, 1, 4, .ro, 0x0, 0x0, false⟩ -- PRT_CFG
  , ⟨0x044, 1, 4, .ro, 0x0, 0x0, false⟩ -- PRT_STS
  , ⟨0x048, 1, 4, .ro, 0x0, 0x0, true⟩ -- CTX_MAP_LO
  , ⟨0x04C, 1, 4, .ro, 0x0, 0x0, true⟩ -- CTX_MAP_HI
  , ⟨0x050, 1, 4, .ro, 0x0, 0x0, true⟩ -- TILES_OWNED
  , ⟨0x400, 256, 4, .ro, 0x0, 0x0, true⟩ -- TILE_OWN
  ]

/-- The CTX page (spec/14; 14, R697). -/
def rowsCtx : List RegRow :=
  [ ⟨0x040, 1, 4, .wo, 0x0, 0xFFFFFFFF, false⟩ -- CTX_CMD
  , ⟨0x044, 1, 4, .rw, 0x0, 0x7FF1F07, true⟩ -- CTX_CFG
  , ⟨0x048, 1, 4, .rw, 0x0, 0x1FFFF, true⟩ -- CTX_WIN
  , ⟨0x04C, 1, 4, .ro, 0x0, 0x0, true⟩ -- CTX_STS
  , ⟨0x050, 1, 4, .ro, 0x0, 0x0, true⟩ -- CHALLENGE_LO
  , ⟨0x054, 1, 4, .ro, 0x0, 0x0, true⟩ -- CHALLENGE_HI
  , ⟨0x058, 1, 4, .rw, 0x0, 0xFFFFFFFF, false⟩ -- KEY_ADDR_LO
  , ⟨0x05C, 1, 4, .rw, 0x0, 0xFFFFFFFF, false⟩ -- KEY_ADDR_HI
  , ⟨0x060, 1, 4, .ro, 0x0, 0x0, true⟩ -- WIN_BACKED
  , ⟨0x064, 1, 4, .rw, 0x0, 0x1FFFF, false⟩ -- WIN_SEL
  , ⟨0x068, 1, 4, .ro, 0x0, 0x0, true⟩ -- WIN_ENT
  , ⟨0x06C, 1, 4, .rc, 0x0, 0x0, false⟩ -- FOREIGN_CNT
  , ⟨0x070, 1, 4, .rc, 0x0, 0x0, false⟩ -- INVALID_ROW_CNT
  , ⟨0x074, 1, 4, .ro, 0x0, 0x0, true⟩ -- BASIN_FAULT
  ]

/-- The THM page (spec/16; 16, R824). -/
def rowsThm : List RegRow :=
  [ ⟨0x040, 1, 4, .rw, 0x0, 0xFFF, true⟩ -- THM_CTL
  , ⟨0x044, 1, 4, .ro, 0x0, 0x0, false⟩ -- THM_STS
  , ⟨0x048, 1, 4, .ro, 0x0, 0x0, false⟩ -- TJ_MAX
  , ⟨0x04C, 1, 4, .rc, 0x0, 0x0, false⟩ -- TJ_PEAK
  , ⟨0x050, 1, 4, .ro, 0x0, 0x0, false⟩ -- SENS_FAIL_LO
  , ⟨0x054, 1, 4, .ro, 0x0, 0x0, false⟩ -- SENS_FAIL_HI
  , ⟨0x100, 16, 4, .ro, 0x0, 0x0, false⟩ -- TJ
  ]

/-- R777: the number of instances of each block type; 0 for a type that does not exist. -/
def instCount : Nat → Nat
  | 1 => 1
  | 2 => 8
  | 3 => 64
  | 4 => 1024
  | 5 => 6
  | 6 => 1
  | 7 => 1
  | 8 => 1
  | 9 => 1
  | 10 => 1
  | 11 => 1
  | 12 => 1
  | 13 => 1
  | 14 => 1
  | 15 => 1
  | 16 => 1
  | 17 => 1
  | 18 => 8
  | 19 => 64
  | 20 => 1
  | _ => 0

/-- The page table of a block type. -/
def pageRows : Nat → List RegRow
  | 1 => rowsTop
  | 2 => rowsPil
  | 3 => rowsIsl
  | 4 => rowsTil
  | 5 => rowsHbr
  | 6 => rowsFry
  | 7 => rowsSlu
  | 8 => rowsTid
  | 9 => rowsKey
  | 10 => rowsHif
  | 11 => rowsCsw
  | 12 => rowsLog
  | 13 => rowsCal
  | 14 => rowsTst
  | 15 => rowsRcv
  | 16 => rowsBoot
  | 17 => rowsDbg
  | 18 => rowsPrt
  | 19 => rowsCtx
  | 20 => rowsThm
  | _ => []

/-! The BAR0 offset of each register; a block with several instances takes the instance, a register array its index. -/
namespace Reg
def TOP_PART : Nat := 0x00400040
def TOP_STS : Nat := 0x00400044
def TOP_IRQ_CTL : Nat := 0x00400048
def TOP_PEND_TYPE : Nat := 0x0040004C
def TOP_PEND_SEL : Nat := 0x00400050
def TOP_BAD_ACC_CNT : Nat := 0x00400054
def TOP_BAD_ACC_ADDR : Nat := 0x00400058
def TOP_BAD_ACC_INFO : Nat := 0x0040005C
def TOP_SCRATCH (j : Nat) : Nat := 0x00400060 + 4 * j
def TOP_PEND_MAP (j : Nat) : Nat := 0x00400080 + 4 * j
def PIL_CTL (i : Nat) : Nat := 0x00800040 + 0x1000 * i
def PIL_STS (i : Nat) : Nat := 0x00800044 + 0x1000 * i
def PIL_WD_KICK (i : Nat) : Nat := 0x00800048 + 0x1000 * i
def PIL_WD_CNT (i : Nat) : Nat := 0x0080004C + 0x1000 * i
def PIL_RST_CNT (i : Nat) : Nat := 0x00800050 + 0x1000 * i
def PIL_LAST_RST (i : Nat) : Nat := 0x00800054 + 0x1000 * i
def PIL_FW_VER (i : Nat) : Nat := 0x00800058 + 0x1000 * i
def ISL_ENG_STS (i : Nat) : Nat := 0x00C00040 + 0x1000 * i
def ISL_HB_CNT (i : Nat) : Nat := 0x00C00044 + 0x1000 * i
def ISL_HB_MISS_CNT (i : Nat) : Nat := 0x00C00048 + 0x1000 * i
def ISL_ENG_RST_CNT (i : Nat) : Nat := 0x00C0004C + 0x1000 * i
def ISL_ENG_LAST (i : Nat) : Nat := 0x00C00050 + 0x1000 * i
def ISL_ENG_LAST_TICK_LO (i : Nat) : Nat := 0x00C00054 + 0x1000 * i
def ISL_ENG_LAST_TICK_HI (i : Nat) : Nat := 0x00C00058 + 0x1000 * i
def ISL_HANG_FREED_CNT (i : Nat) : Nat := 0x00C0005C + 0x1000 * i
def ISL_SEQ_STS (i : Nat) : Nat := 0x00C00100 + 0x1000 * i
def ISL_TKT_LIVE (i : Nat) : Nat := 0x00C00104 + 0x1000 * i
def ISL_TKT_HWM (i : Nat) : Nat := 0x00C00108 + 0x1000 * i
def ISL_TKT_LEASED (i : Nat) : Nat := 0x00C0010C + 0x1000 * i
def ISL_ISSUE_CNT_LO (i : Nat) : Nat := 0x00C00110 + 0x1000 * i
def ISL_ISSUE_CNT_HI (i : Nat) : Nat := 0x00C00114 + 0x1000 * i
def ISL_DESC_ERR (i : Nat) : Nat := 0x00C00118 + 0x1000 * i
def ISL_DYN_CFG (i : Nat) : Nat := 0x00C00140 + 0x1000 * i
def ISL_DYN_OWNER (i : Nat) : Nat := 0x00C00144 + 0x1000 * i
def ISL_DYN_LAST (i : Nat) : Nat := 0x00C00148 + 0x1000 * i
def ISL_DYN_LAST_D (i : Nat) : Nat := 0x00C0014C + 0x1000 * i
def ISL_DYN_CALL_CNT (i : Nat) : Nat := 0x00C00150 + 0x1000 * i
def ISL_DYN_NARROW_CNT (i : Nat) : Nat := 0x00C00154 + 0x1000 * i
def ISL_DYN_DEFAULT_CNT (i : Nat) : Nat := 0x00C00158 + 0x1000 * i
def ISL_DYN_WAIT_CNT (i : Nat) : Nat := 0x00C0015C + 0x1000 * i
def ISL_ADP_TILES (i : Nat) : Nat := 0x00C00180 + 0x1000 * i
def ISL_ADP_STS (i : Nat) : Nat := 0x00C00184 + 0x1000 * i
def ISL_GCLIP_CNT (i : Nat) : Nat := 0x00C00188 + 0x1000 * i
def ISL_ACC_SAT_CNT (i : Nat) : Nat := 0x00C0018C + 0x1000 * i
def ISL_LVL_CLAMP_CNT (i : Nat) : Nat := 0x00C00190 + 0x1000 * i
def ISL_BAND_SKIP_CNT (i : Nat) : Nat := 0x00C00194 + 0x1000 * i
def ISL_XESC_CNT (i : Nat) : Nat := 0x00C00198 + 0x1000 * i
def ISL_BAND_CNT_LO (i : Nat) : Nat := 0x00C001A0 + 0x1000 * i
def ISL_BAND_CNT_HI (i : Nat) : Nat := 0x00C001A4 + 0x1000 * i
def ISL_ADP_SRC (i : Nat) (j : Nat) : Nat := 0x00C001C0 + 0x1000 * i + 4 * j
def ISL_PAGES_FREE (i : Nat) : Nat := 0x00C00200 + 0x1000 * i
def ISL_FOREIGN_CNT (i : Nat) : Nat := 0x00C00204 + 0x1000 * i
def ISL_PAGE_TAG (i : Nat) (j : Nat) : Nat := 0x00C00C00 + 0x1000 * i + 4 * j
def ISL_INT_CTL (i : Nat) : Nat := 0x00C00220 + 0x1000 * i
def ISL_INT_STS (i : Nat) : Nat := 0x00C00224 + 0x1000 * i
def ISL_REPROG_STS (i : Nat) : Nat := 0x00C00228 + 0x1000 * i
def ISL_CK_TRANS_CNT (i : Nat) : Nat := 0x00C0022C + 0x1000 * i
def ISL_CK_PERSIST_CNT (i : Nat) : Nat := 0x00C00230 + 0x1000 * i
def ISL_REPROG_CNT (i : Nat) : Nat := 0x00C00234 + 0x1000 * i
def ISL_CHK_FAIL_CNT (i : Nat) : Nat := 0x00C00238 + 0x1000 * i
def ISL_POISON_USE_CNT (i : Nat) : Nat := 0x00C0023C + 0x1000 * i
def ISL_LAG (i : Nat) (j : Nat) : Nat := 0x00C00240 + 0x1000 * i + 4 * j
def ISL_LAG_ENG (i : Nat) : Nat := 0x00C00280 + 0x1000 * i
def ISL_RPL_CFG (i : Nat) : Nat := 0x00C00284 + 0x1000 * i
def ISL_RPL_STS (i : Nat) : Nat := 0x00C00288 + 0x1000 * i
def ISL_RPL_STEP (i : Nat) : Nat := 0x00C0028C + 0x1000 * i
def ISL_RPL_DIGW_LO (i : Nat) : Nat := 0x00C00290 + 0x1000 * i
def ISL_RPL_DIGW_HI (i : Nat) : Nat := 0x00C00294 + 0x1000 * i
def ISL_RPL_DIGL_LO (i : Nat) : Nat := 0x00C00298 + 0x1000 * i
def ISL_RPL_DIGL_HI (i : Nat) : Nat := 0x00C0029C + 0x1000 * i
def ISL_RPL_MASK (i : Nat) : Nat := 0x00C002A0 + 0x1000 * i
def ISL_RPL_PTH (i : Nat) : Nat := 0x00C002A4 + 0x1000 * i
def ISL_RPL_OUT_LO (i : Nat) : Nat := 0x00C002A8 + 0x1000 * i
def ISL_RPL_OUT_HI (i : Nat) : Nat := 0x00C002AC + 0x1000 * i
def ISL_RPL_CMP_CNT (i : Nat) : Nat := 0x00C002B0 + 0x1000 * i
def ISL_RPL_MISS_CNT (i : Nat) : Nat := 0x00C002B4 + 0x1000 * i
def ISL_WEIR_CTL (i : Nat) : Nat := 0x00C00400 + 0x1000 * i
def ISL_WEIR_THR (i : Nat) : Nat := 0x00C00404 + 0x1000 * i
def ISL_WEIR_STS (i : Nat) : Nat := 0x00C00408 + 0x1000 * i
def ISL_WIN_TICK_LO (i : Nat) : Nat := 0x00C00410 + 0x1000 * i
def ISL_WIN_TICK_HI (i : Nat) : Nat := 0x00C00414 + 0x1000 * i
def ISL_INP_CNT (i : Nat) : Nat := 0x00C00418 + 0x1000 * i
def ISL_SAT_CNT (i : Nat) : Nat := 0x00C0041C + 0x1000 * i
def ISL_ESC_CNT (i : Nat) : Nat := 0x00C00420 + 0x1000 * i
def ISL_ESC_LOST_CNT (i : Nat) : Nat := 0x00C00424 + 0x1000 * i
def ISL_SEL_OVF_CNT (i : Nat) : Nat := 0x00C00428 + 0x1000 * i
def ISL_STRAY_CNT (i : Nat) : Nat := 0x00C0042C + 0x1000 * i
def ISL_INP_LAST (i : Nat) : Nat := 0x00C00430 + 0x1000 * i
def ISL_SAT_LAST (i : Nat) : Nat := 0x00C00434 + 0x1000 * i
def ISL_ESC_LAST (i : Nat) : Nat := 0x00C00438 + 0x1000 * i
def ISL_LOST_LAST (i : Nat) : Nat := 0x00C0043C + 0x1000 * i
def ISL_SELOVF_LAST (i : Nat) : Nat := 0x00C00440 + 0x1000 * i
def ISL_STRAY_LAST (i : Nat) : Nat := 0x00C00444 + 0x1000 * i
def ISL_LIST_BAD_CNT (i : Nat) : Nat := 0x00C00448 + 0x1000 * i
def ISL_CONV_CNT (i : Nat) (j : Nat) : Nat := 0x00C00480 + 0x1000 * i + 4 * j
def ISL_CONV_LAST (i : Nat) (j : Nat) : Nat := 0x00C004C0 + 0x1000 * i + 4 * j
def ISL_CLIP_CNT (i : Nat) (j : Nat) : Nat := 0x00C00500 + 0x1000 * i + 4 * j
def ISL_CLIP_LAST (i : Nat) (j : Nat) : Nat := 0x00C00700 + 0x1000 * i + 4 * j
def ISL_CLIP_MAP (i : Nat) (j : Nat) : Nat := 0x00C00900 + 0x1000 * i + 4 * j
def ISL_TST_ISTS (i : Nat) : Nat := 0x00C00910 + 0x1000 * i
def ISL_TST_DEFER (i : Nat) : Nat := 0x00C00914 + 0x1000 * i
def ISL_TST_OVERDUE (i : Nat) : Nat := 0x00C00918 + 0x1000 * i
def ISL_TST_ICNT (i : Nat) : Nat := 0x00C0091C + 0x1000 * i
def ISL_TAGE (i : Nat) (j : Nat) : Nat := 0x00C00920 + 0x1000 * i + 4 * j
def ISL_TAGE_SEQ (i : Nat) : Nat := 0x00C00960 + 0x1000 * i
def ISL_TAGE_RILL (i : Nat) : Nat := 0x00C00964 + 0x1000 * i
def ISL_TAGE_SPW (i : Nat) : Nat := 0x00C00968 + 0x1000 * i
def TIL_CTL (i : Nat) : Nat := 0x01000040 + 0x1000 * i
def TIL_STS (i : Nat) : Nat := 0x01000044 + 0x1000 * i
def TIL_CK_CFG (i : Nat) : Nat := 0x01000048 + 0x1000 * i
def TIL_REF_CFG (i : Nat) : Nat := 0x0100004C + 0x1000 * i
def TIL_CK_MISS_CNT (i : Nat) : Nat := 0x01000050 + 0x1000 * i
def TIL_CK_NEAR_CNT (i : Nat) : Nat := 0x01000054 + 0x1000 * i
def TIL_CK_SKIP_CNT (i : Nat) : Nat := 0x01000058 + 0x1000 * i
def TIL_CK_LAST (i : Nat) : Nat := 0x0100005C + 0x1000 * i
def TIL_PULSE_CNT_LO (i : Nat) : Nat := 0x01000060 + 0x1000 * i
def TIL_PULSE_CNT_HI (i : Nat) : Nat := 0x01000064 + 0x1000 * i
def TIL_ROWOP_CNT_LO (i : Nat) : Nat := 0x01000068 + 0x1000 * i
def TIL_ROWOP_CNT_HI (i : Nat) : Nat := 0x0100006C + 0x1000 * i
def TIL_REF_LAST (i : Nat) : Nat := 0x01000070 + 0x1000 * i
def TIL_TRN_CFG (i : Nat) : Nat := 0x01000074 + 0x1000 * i
def TIL_CK_GAIN (i : Nat) : Nat := 0x01000078 + 0x1000 * i
def TIL_COLMAP_CTL (i : Nat) : Nat := 0x0100007C + 0x1000 * i
def TIL_COLMAP (i : Nat) (j : Nat) : Nat := 0x01000080 + 0x1000 * i + 4 * j
def TIL_TRIM_WIN_CTL (i : Nat) : Nat := 0x01000090 + 0x1000 * i
def TIL_TRIM_WIN_STS (i : Nat) : Nat := 0x01000094 + 0x1000 * i
def TIL_CAL_TJ (i : Nat) : Nat := 0x01000098 + 0x1000 * i
def TIL_COLSCALE (i : Nat) (j : Nat) : Nat := 0x01000100 + 0x1000 * i + 4 * j
def TIL_GAINSTEP (i : Nat) (j : Nat) : Nat := 0x01000500 + 0x1000 * i + 4 * j
def TIL_TRIM_WIN (i : Nat) (j : Nat) : Nat := 0x01000800 + 0x1000 * i + 4 * j
def TIL_RFSH_CTL (i : Nat) : Nat := 0x010000A0 + 0x1000 * i
def TIL_RFSH_STS (i : Nat) : Nat := 0x010000A4 + 0x1000 * i
def TIL_RFSH_PTR (i : Nat) : Nat := 0x010000A8 + 0x1000 * i
def TIL_RFSH_OWED (i : Nat) : Nat := 0x010000AC + 0x1000 * i
def TIL_AGE_MAX (i : Nat) : Nat := 0x010000B0 + 0x1000 * i
def TIL_PASS_CNT (i : Nat) : Nat := 0x010000B4 + 0x1000 * i
def TIL_DIG_WRITE_LO (i : Nat) : Nat := 0x010000B8 + 0x1000 * i
def TIL_DIG_WRITE_HI (i : Nat) : Nat := 0x010000BC + 0x1000 * i
def TIL_DIG_LAST_LO (i : Nat) : Nat := 0x010000C0 + 0x1000 * i
def TIL_DIG_LAST_HI (i : Nat) : Nat := 0x010000C4 + 0x1000 * i
def TIL_PASS_TICK_LO (i : Nat) : Nat := 0x010000C8 + 0x1000 * i
def TIL_PASS_TICK_HI (i : Nat) : Nat := 0x010000CC + 0x1000 * i
def TIL_SKIP_CNT (i : Nat) : Nat := 0x010000D0 + 0x1000 * i
def TIL_LOW_CNT (i : Nat) : Nat := 0x010000D4 + 0x1000 * i
def TIL_DIG_MISS_CNT (i : Nat) : Nat := 0x010000D8 + 0x1000 * i
def TIL_DIG_ROW (i : Nat) : Nat := 0x010000DC + 0x1000 * i
def TIL_SLIP_CNT (i : Nat) : Nat := 0x010000E0 + 0x1000 * i
def TIL_CATCHUP_CNT (i : Nat) : Nat := 0x010000E4 + 0x1000 * i
def HBR_CTL (i : Nat) : Nat := 0x01400040 + 0x1000 * i
def HBR_STS (i : Nat) : Nat := 0x01400044 + 0x1000 * i
def HBR_CE_CNT (i : Nat) : Nat := 0x01400048 + 0x1000 * i
def HBR_UE_CNT (i : Nat) : Nat := 0x0140004C + 0x1000 * i
def HBR_POISON_CNT (i : Nat) : Nat := 0x01400050 + 0x1000 * i
def HBR_CHK_FAIL_CNT (i : Nat) : Nat := 0x01400054 + 0x1000 * i
def HBR_ERR_ADDR_LO (i : Nat) : Nat := 0x01400058 + 0x1000 * i
def HBR_ERR_ADDR_HI (i : Nat) : Nat := 0x0140005C + 0x1000 * i
def HBR_ERR_INFO (i : Nat) : Nat := 0x01400060 + 0x1000 * i
def HBR_PATROL_STS (i : Nat) : Nat := 0x01400064 + 0x1000 * i
def HBR_RD_BYTES_LO (i : Nat) : Nat := 0x01400068 + 0x1000 * i
def HBR_RD_BYTES_HI (i : Nat) : Nat := 0x0140006C + 0x1000 * i
def HBR_WR_BYTES_LO (i : Nat) : Nat := 0x01400070 + 0x1000 * i
def HBR_WR_BYTES_HI (i : Nat) : Nat := 0x01400074 + 0x1000 * i
def HBR_OVF_CREDITS (i : Nat) : Nat := 0x01400078 + 0x1000 * i
def HBR_STACK_TJ (i : Nat) : Nat := 0x0140007C + 0x1000 * i
def FRY_CTL : Nat := 0x01800040
def FRY_STS : Nat := 0x01800044
def FRY_SCRUB_STS : Nat := 0x01800048
def FRY_SCRUB_LAST : Nat := 0x0180004C
def FRY_AUTH_FAIL_CNT : Nat := 0x01800050
def FRY_DIGEST_FAIL_CNT : Nat := 0x01800054
def FRY_SCRUB_FAIL_CNT : Nat := 0x01800058
def FRY_CIST_ERR_CNT : Nat := 0x0180005C
def FRY_HB_BYTES_LO : Nat := 0x01800060
def FRY_HB_BYTES_HI : Nat := 0x01800064
def FRY_CIST_BYTES_LO : Nat := 0x01800068
def FRY_CIST_BYTES_HI : Nat := 0x0180006C
def FRY_LAST_FAIL : Nat := 0x01800070
def FRY_LAST_FAIL_SRC : Nat := 0x01800074
def FRY_SWAP_STS : Nat := 0x01800078
def FRY_SWAP_HOLD : Nat := 0x0180007C
def FRY_PORT_LANES (j : Nat) : Nat := 0x01800080 + 4 * j
def FRY_CIST_BASE_LO (j : Nat) : Nat := 0x01800400 + 16 * j
def FRY_CIST_BASE_HI (j : Nat) : Nat := 0x01800404 + 16 * j
def FRY_CIST_SIZE (j : Nat) : Nat := 0x01800408 + 16 * j
def FRY_CIST_CTL (j : Nat) : Nat := 0x0180040C + 16 * j
def SLU_CTL : Nat := 0x01C00040
def SLU_STS : Nat := 0x01C00044
def SLU_CHIP_CAP : Nat := 0x01C00048
def SLU_CHIP_RATE : Nat := 0x01C0004C
def SLU_AVS_CTL : Nat := 0x01C00050
def SLU_AVS_LIM : Nat := 0x01C00054
def SLU_AVS_STS : Nat := 0x01C00058
def SLU_AVS_CNT : Nat := 0x01C0005C
def SLU_GRANT_ARR_LO : Nat := 0x01C00060
def SLU_GRANT_ARR_HI : Nat := 0x01C00064
def SLU_GRANT_CORE_LO : Nat := 0x01C00068
def SLU_GRANT_CORE_HI : Nat := 0x01C0006C
def SLU_SLK_AVS : Nat := 0x01C00070
def SLU_PSHARE (j : Nat) : Nat := 0x01C00100 + 32 * j
def SLU_PCAP (j : Nat) : Nat := 0x01C00104 + 32 * j
def SLU_PRATE (j : Nat) : Nat := 0x01C00108 + 32 * j
def SLU_PRES (j : Nat) : Nat := 0x01C0010C + 32 * j
def SLU_PAVAIL (j : Nat) : Nat := 0x01C00110 + 32 * j
def SLU_PRSV (j : Nat) : Nat := 0x01C00114 + 32 * j
def SLU_PWAIT (j : Nat) : Nat := 0x01C00118 + 32 * j
def SLU_PSTRETCH (j : Nat) : Nat := 0x01C0011C + 32 * j
def TID_CTL : Nat := 0x02000040
def TID_STS : Nat := 0x02000044
def TID_COUNT_LO : Nat := 0x02000048
def TID_COUNT_HI : Nat := 0x0200004C
def TID_PPS_CTL : Nat := 0x02000050
def TID_PPS_STS : Nat := 0x02000054
def TID_PPS_BASE_LO : Nat := 0x02000058
def TID_PPS_BASE_HI : Nat := 0x0200005C
def TID_PPS_CAPT_LO : Nat := 0x02000060
def TID_PPS_CAPT_HI : Nat := 0x02000064
def TID_PPS_ERR : Nat := 0x02000068
def TID_FREQ_ADJ : Nat := 0x0200006C
def TID_OUT_CTL : Nat := 0x02000070
def TID_OUT_AT_LO : Nat := 0x02000074
def TID_OUT_AT_HI : Nat := 0x02000078
def TID_OUT_PERIOD : Nat := 0x0200007C
def TID_MISS_CNT : Nat := 0x02000080
def TID_SLIP_CNT : Nat := 0x02000084
def TID_LATE_CNT : Nat := 0x02000088
def TID_HANG_CNT : Nat := 0x0200008C
def TID_LAST_MISS : Nat := 0x02000090
def TID_LAST_MISS_TICK_LO : Nat := 0x02000094
def TID_LAST_MISS_TICK_HI : Nat := 0x02000098
def TID_SLK_CTL : Nat := 0x0200009C
def TID_SLK_MIN (j : Nat) : Nat := 0x020000A0 + 4 * j
def TID_TKT_SEL : Nat := 0x020000B0
def TID_TKT_WIN (j : Nat) : Nat := 0x02000C00 + 4 * j
def KEY_CMD : Nat := 0x02400040
def KEY_STS : Nat := 0x02400044
def KEY_SLOT_LO : Nat := 0x02400048
def KEY_SLOT_HI : Nat := 0x0240004C
def KEY_DEVICE_ID_LO : Nat := 0x02400050
def KEY_DEVICE_ID_HI : Nat := 0x02400054
def KEY_ZERO_CNT : Nat := 0x02400058
def KEY_KEYREG (j : Nat) : Nat := 0x02400060 + 4 * j
def KEY_IDPUB (j : Nat) : Nat := 0x02400100 + 4 * j
def KEY_KAPUB (j : Nat) : Nat := 0x02400160 + 4 * j
def KEY_REG_PUB (j : Nat) : Nat := 0x02400200 + 4 * j
def HIF_CTL : Nat := 0x02800040
def HIF_LINK_STS : Nat := 0x02800044
def HIF_STS : Nat := 0x02800048
def HIF_ENTRY_CHK_CNT : Nat := 0x02800050
def HIF_DATA_CHK_CNT : Nat := 0x02800054
def HIF_DMA_ERR_CNT : Nat := 0x02800058
def HIF_FL_WAIT_CNT : Nat := 0x0280005C
def HIF_REFUSE_LO : Nat := 0x02800060
def HIF_REFUSE_HI : Nat := 0x02800064
def HIF_JOBS_LO : Nat := 0x02800068
def HIF_JOBS_HI : Nat := 0x0280006C
def HIF_Q_SEL : Nat := 0x02800100
def HIF_Q_CMD : Nat := 0x02800104
def HIF_SQ_BASE_LO : Nat := 0x02800108
def HIF_SQ_BASE_HI : Nat := 0x0280010C
def HIF_CQ_BASE_LO : Nat := 0x02800110
def HIF_CQ_BASE_HI : Nat := 0x02800114
def HIF_Q_SIZE : Nat := 0x02800118
def HIF_Q_CTL : Nat := 0x0280011C
def HIF_Q_PLAN : Nat := 0x02800120
def HIF_Q_STS : Nat := 0x02800124
def HIF_Q_PTRS : Nat := 0x02800128
def HIF_Q_SPILL : Nat := 0x0280012C
def HIF_FL_BIND (j : Nat) : Nat := 0x02800400 + 4 * j
def HIF_OVF_USE (j : Nat) : Nat := 0x02800800 + 4 * j
def CSW_CTL : Nat := 0x02C00040
def CSW_STS : Nat := 0x02C00044
def CSW_MAC_LO : Nat := 0x02C00048
def CSW_MAC_HI : Nat := 0x02C0004C
def CSW_IP_ADDR : Nat := 0x02C00050
def CSW_IP_MASK : Nat := 0x02C00054
def CSW_IP_GW : Nat := 0x02C00058
def CSW_UDP_PORT : Nat := 0x02C0005C
def CSW_EVT_BATCH : Nat := 0x02C00060
def CSW_RX_CNT : Nat := 0x02C00064
def CSW_TX_CNT : Nat := 0x02C00068
def CSW_AUTH_FAIL_CNT : Nat := 0x02C0006C
def CSW_GAP_CNT : Nat := 0x02C00070
def CSW_VDM_ID : Nat := 0x02C00074
def CSW_TS_WR : Nat := 0x02C00078
def CSW_TS_LO (j : Nat) : Nat := 0x02C00100 + 16 * j
def CSW_TS_HI (j : Nat) : Nat := 0x02C00104 + 16 * j
def CSW_TS_ID (j : Nat) : Nat := 0x02C00108 + 16 * j
def LOG_STS : Nat := 0x03000040
def LOG_HEAD : Nat := 0x03000044
def LOG_SEQ : Nat := 0x03000048
def LOG_SEL : Nat := 0x0300004C
def LOG_CMD : Nat := 0x03000050
def LOG_COAL_CNT : Nat := 0x03000054
def LOG_OVW_CNT : Nat := 0x03000058
def LOG_WIN (j : Nat) : Nat := 0x03000800 + 4 * j
def CAL_CMD : Nat := 0x03400040
def CAL_CTL : Nat := 0x03400044
def CAL_STS : Nat := 0x03400048
def CAL_PROG : Nat := 0x0340004C
def CAL_COMMIT_TICK_LO : Nat := 0x03400050
def CAL_COMMIT_TICK_HI : Nat := 0x03400054
def CAL_VREF_MEAS : Nat := 0x03400058
def CAL_VFY_SEL : Nat := 0x0340005C
def CAL_VFY (j : Nat) : Nat := 0x03400060 + 4 * j
def CAL_SNAP_STS : Nat := 0x03400080
def TST_CTL : Nat := 0x03800040
def TST_TRIG : Nat := 0x03800044
def TST_CMD : Nat := 0x03800048
def TST_STS : Nat := 0x0380004C
def TST_PAT_VER : Nat := 0x03800050
def TST_PASS_CNT : Nat := 0x03800054
def TST_FAIL_CNT : Nat := 0x03800058
def TST_TRANS_CNT : Nat := 0x0380005C
def TST_DEFER_CNT : Nat := 0x03800060
def TST_PREEMPT_CNT : Nat := 0x03800064
def TST_LAST_FAIL : Nat := 0x03800068
def TST_LAST_FAIL_TICK_LO : Nat := 0x03800070
def TST_LAST_FAIL_TICK_HI : Nat := 0x03800074
def RCV_CTL : Nat := 0x03C00040
def RCV_CMD : Nat := 0x03C00044
def RCV_STS : Nat := 0x03C00048
def RCV_PWRCYC_CTL : Nat := 0x03C0004C
def RCV_LAST_RCV : Nat := 0x03C00050
def RCV_LAST_START_LO : Nat := 0x03C00054
def RCV_LAST_START_HI : Nat := 0x03C00058
def RCV_LAST_DUR : Nat := 0x03C0005C
def RCV_CTX_CNT : Nat := 0x03C00060
def RCV_ENG_CNT : Nat := 0x03C00064
def RCV_PART_CNT : Nat := 0x03C00068
def RCV_WARM_CNT : Nat := 0x03C0006C
def RCV_REVOKE_CNT : Nat := 0x03C00070
def RCV_RECON_CNT : Nat := 0x03C00074
def RCV_RECON_LAST : Nat := 0x03C00078
def RCV_OUT_LO (j : Nat) : Nat := 0x03C00100 + 8 * j
def RCV_OUT_HI (j : Nat) : Nat := 0x03C00104 + 8 * j
def RCV_SVC_LO (j : Nat) : Nat := 0x03C00140 + 8 * j
def RCV_SVC_HI (j : Nat) : Nat := 0x03C00144 + 8 * j
def BOOT_STS : Nat := 0x04000040
def BOOT_CTL : Nat := 0x04000044
def BOOT_PROFSEL_SMP : Nat := 0x04000048
def BOOT_PROF_CMD : Nat := 0x0400004C
def BOOT_PROF_STS : Nat := 0x04000050
def BOOT_FW_CMD : Nat := 0x04000054
def BOOT_FW_STS : Nat := 0x04000058
def BOOT_FW_SEQ_A : Nat := 0x04000060
def BOOT_FW_SEQ_B : Nat := 0x04000064
def BOOT_FW_VER_A : Nat := 0x04000068
def BOOT_FW_VER_B : Nat := 0x0400006C
def BOOT_FW_ADDR_LO : Nat := 0x04000070
def BOOT_FW_ADDR_HI : Nat := 0x04000074
def BOOT_FW_LEN : Nat := 0x04000078
def BOOT_MS : Nat := 0x0400007C
def BOOT_FLASH_STS : Nat := 0x04000080
def BOOT_REC_REJ_CNT : Nat := 0x04000084
def BOOT_FLASH_ERR_CNT : Nat := 0x04000088
def BOOT_PROF_BUF (j : Nat) : Nat := 0x04000800 + 4 * j
def DBG_CTL : Nat := 0x04400040
def DBG_STS : Nat := 0x04400044
def DBG_CMD : Nat := 0x04400048
def DBG_FAIL_CNT : Nat := 0x0440004C
def DBG_NONCE_LO : Nat := 0x04400050
def DBG_NONCE_HI : Nat := 0x04400054
def DBG_FRZ_TICK_LO : Nat := 0x04400058
def DBG_FRZ_TICK_HI : Nat := 0x0440005C
def DBG_TOKEN (j : Nat) : Nat := 0x04400800 + 4 * j
def PRT_CFG (i : Nat) : Nat := 0x04800040 + 0x1000 * i
def PRT_STS (i : Nat) : Nat := 0x04800044 + 0x1000 * i
def PRT_CTX_MAP_LO (i : Nat) : Nat := 0x04800048 + 0x1000 * i
def PRT_CTX_MAP_HI (i : Nat) : Nat := 0x0480004C + 0x1000 * i
def PRT_TILES_OWNED (i : Nat) : Nat := 0x04800050 + 0x1000 * i
def PRT_TILE_OWN (i : Nat) (j : Nat) : Nat := 0x04800400 + 0x1000 * i + 4 * j
def CTX_CMD (i : Nat) : Nat := 0x04C00040 + 0x1000 * i
def CTX_CFG (i : Nat) : Nat := 0x04C00044 + 0x1000 * i
def CTX_WIN (i : Nat) : Nat := 0x04C00048 + 0x1000 * i
def CTX_STS (i : Nat) : Nat := 0x04C0004C + 0x1000 * i
def CTX_CHALLENGE_LO (i : Nat) : Nat := 0x04C00050 + 0x1000 * i
def CTX_CHALLENGE_HI (i : Nat) : Nat := 0x04C00054 + 0x1000 * i
def CTX_KEY_ADDR_LO (i : Nat) : Nat := 0x04C00058 + 0x1000 * i
def CTX_KEY_ADDR_HI (i : Nat) : Nat := 0x04C0005C + 0x1000 * i
def CTX_WIN_BACKED (i : Nat) : Nat := 0x04C00060 + 0x1000 * i
def CTX_WIN_SEL (i : Nat) : Nat := 0x04C00064 + 0x1000 * i
def CTX_WIN_ENT (i : Nat) : Nat := 0x04C00068 + 0x1000 * i
def CTX_FOREIGN_CNT (i : Nat) : Nat := 0x04C0006C + 0x1000 * i
def CTX_INVALID_ROW_CNT (i : Nat) : Nat := 0x04C00070 + 0x1000 * i
def CTX_BASIN_FAULT (i : Nat) : Nat := 0x04C00074 + 0x1000 * i
def THM_CTL : Nat := 0x05000040
def THM_STS : Nat := 0x05000044
def THM_TJ_MAX : Nat := 0x05000048
def THM_TJ_PEAK : Nat := 0x0500004C
def THM_SENS_FAIL_LO : Nat := 0x05000050
def THM_SENS_FAIL_HI : Nat := 0x05000054
def THM_TJ (j : Nat) : Nat := 0x05000100 + 4 * j
end Reg

end Sys2Proof.Machine
end

