-- ==== Sys2Proof/Machine/Events.lean ====
section
/-!
DEFINITION. The events of every block: event bit, 16-bit code; the class is code bits [14:12] (R784, R785; the event tables of
chapters 02 to 22, R702, R706, R818, R1005).
-/
namespace Sys2Proof.Machine

/-- The events of block type `ty`: (event bit, code). -/
def eventTable : Nat → List (Nat × Nat)
  | 1 => [(0, 0x1010)]
  | 2 => [(0, 0x0100), (1, 0x1101), (2, 0x2102), (3, 0x0103), (4, 0x4104)]
  | 3 => [(0, 0x20ED), (1, 0x00EE), (2, 0x20F2), (3, 0x00F3), (8, 0x20E4), (9, 0x00E5), (10, 0x10E6), (11, 0x20E7), (12, 0x20E8), (13, 0x10E9), (14, 0x20EA), (15, 0x20EB), (16, 0x10E0), (17, 0x10E1), (18, 0x10E2), (19, 0x20E3), (20, 0x20F0), (21, 0x10F1), (22, 0x10F4), (23, 0x10F5), (24, 0x00F6), (25, 0x20F7), (26, 0x10F9), (27, 0x20FA), (28, 0x00FB), (29, 0x10FC), (30, 0x20FD), (31, 0x10EC)]
  | 4 => [(0, 0x2040), (1, 0x2041), (2, 0x2042), (3, 0x2043), (4, 0x1044), (5, 0x1045), (6, 0x0046), (7, 0x1047), (8, 0x2048), (9, 0x2049), (10, 0x104A), (11, 0x004B), (12, 0x004C)]
  | 5 => [(0, 0x00C0), (1, 0x20C1), (2, 0x20C2), (3, 0x10C3), (4, 0x40C4)]
  | 6 => [(0, 0x20B0), (1, 0x20B1), (2, 0x20B2), (3, 0x20B3), (4, 0x00B4), (5, 0x20B5), (6, 0x10B6), (7, 0x00B7)]
  | 7 => [(0, 0x10A0), (1, 0x00A1), (2, 0x10A2), (3, 0x20A3), (4, 0x00A4), (5, 0x00A5)]
  | 8 => [(0, 0x2080), (1, 0x1081), (2, 0x2082), (3, 0x0083), (4, 0x2084), (5, 0x3085), (6, 0x3086), (7, 0x0087), (8, 0x1088)]
  | 9 => [(0, 0x0118), (1, 0x0119), (2, 0x211A), (3, 0x411B)]
  | 10 => [(0, 0x1120), (1, 0x2121), (2, 0x2122), (3, 0x2123), (4, 0x1124), (5, 0x1125), (6, 0x1126), (7, 0x0127)]
  | 11 => [(0, 0x1130), (1, 0x0131), (2, 0x1132), (3, 0x1133)]
  | 12 => [(0, 0x1141)]
  | 13 => [(0, 0x00D0), (1, 0x00D1), (2, 0x00D2), (3, 0x10D3), (4, 0x10D4), (5, 0x10D5), (6, 0x10D6)]
  | 14 => [(0, 0x2150), (1, 0x1151), (2, 0x1152), (3, 0x0153), (4, 0x0154), (5, 0x0155), (6, 0x0156), (7, 0x1157), (8, 0x2158)]
  | 15 => [(0, 0x0160), (1, 0x0161), (2, 0x1162), (3, 0x2163), (4, 0x1164), (5, 0x0165), (6, 0x1166), (7, 0x2167), (8, 0x0168), (9, 0x4169), (10, 0x016A)]
  | 16 => [(0, 0x0180), (1, 0x1181), (2, 0x1182), (3, 0x1183), (4, 0x0184), (5, 0x0185), (6, 0x1186), (7, 0x0187), (8, 0x2188), (9, 0x4189)]
  | 17 => [(0, 0x1190), (1, 0x1191), (2, 0x0192), (3, 0x0193), (4, 0x1194)]
  | 18 => [(0, 0x011C)]
  | 19 => [(0, 0x0110), (1, 0x0111), (2, 0x0112), (3, 0x1113), (4, 0x2114), (5, 0x1115)]
  | 20 => [(0, 0x1020), (1, 0x0021), (2, 0x4022), (3, 0x2023)]
  | _ => []

/-! The event bits, by name: `Ev.X` is the bit of event X in its block's page. -/
namespace Ev
def TOP_BAD_ACCESS : Nat := 0
def LDR_ACCEPT : Nat := 0
def LDR_REJECT : Nat := 1
def PIL_WDOG : Nat := 2
def PIL_RESTART : Nat := 3
def PIL_FW_FAIL : Nat := 4
def ISL_HB_MISS : Nat := 0
def ISL_ENG_RESET : Nat := 1
def ISL_ENG_FENCE : Nat := 2
def ISL_LANE_RESET : Nat := 3
def ISL_CK_PERSIST : Nat := 8
def ISL_REPROG : Nat := 9
def ISL_LAGOON : Nat := 10
def ISL_TILE_FENCE : Nat := 11
def ISL_CHK_FAIL : Nat := 12
def ISL_NEAR_RATE : Nat := 13
def RPL_MISMATCH : Nat := 14
def RPL_EXPEL : Nat := 15
def WEIR_CLIP : Nat := 16
def WEIR_SAT : Nat := 17
def SPL_LOST : Nat := 18
def SPL_LIST_BAD : Nat := 19
def SEQ_DESC_CRC : Nat := 20
def SEQ_TKT_FULL : Nat := 21
def DYN_NARROW : Nat := 22
def DYN_DEFAULT : Nat := 23
def DYN_WAIT : Nat := 24
def DYN_REVOKED : Nat := 25
def ADP_GCLIP : Nat := 26
def ADP_BAND_SKIP : Nat := 27
def ADP_LVL_CLAMP : Nat := 28
def ADP_ACC_SAT : Nat := 29
def BASIN_FOREIGN : Nat := 30
def RPL_GOAL_SHORT : Nat := 31
def TIL_CK_MISMATCH : Nat := 0
def TIL_REF_RANGE : Nat := 1
def TIL_ROW_CHECK : Nat := 2
def TIL_TUNIT_UNLOCK : Nat := 3
def TIL_CAL_TEMP : Nat := 4
def TIL_TRIM_REFUSED : Nat := 5
def TIL_COLMAP_DONE : Nat := 6
def TIL_RFSH_SLIP : Nat := 7
def TIL_RFSH_LATE : Nat := 8
def TIL_DIG_MISMATCH : Nat := 9
def TIL_DIG_TRANSIENT : Nat := 10
def TIL_RFSH_REGIME : Nat := 11
def TIL_DECAYED : Nat := 12
def HBR_CE : Nat := 0
def HBR_UE : Nat := 1
def HBR_CHK : Nat := 2
def HBR_CE_STORM : Nat := 3
def HBR_STACK_FAIL : Nat := 4
def FRY_SHARD_AUTH : Nat := 0
def FRY_SHARD_DIGEST : Nat := 1
def FRY_SCRUB_FAIL : Nat := 2
def FRY_CIST_ERR : Nat := 3
def FRY_SWAP_DONE : Nat := 4
def FRY_SWAP_FAIL : Nat := 5
def FRY_SCRUB_LATE : Nat := 6
def FRY_IMPORT_DONE : Nat := 7
def SLUICE_STRETCH : Nat := 0
def SLUICE_DRY : Nat := 1
def SLUICE_AVS_DENIED : Nat := 2
def SLUICE_AVS_FAULT : Nat := 3
def SLUICE_OVERCOMMIT : Nat := 4
def SLUICE_CAP_CHANGE : Nat := 5
def TIDE_MISS : Nat := 0
def TIDE_SLIP : Nat := 1
def TIDE_STEP_FAIL : Nat := 2
def TIDE_LATE : Nat := 3
def TIDE_HANG : Nat := 4
def TIDE_DESYNC : Nat := 5
def TIDE_UNLOCK : Nat := 6
def TIDE_PPS_LOCK : Nat := 7
def TIDE_PPS_LOST : Nat := 8
def KEY_REG : Nat := 0
def KEY_REVOKE : Nat := 1
def KEY_FORCE_ZERO : Nat := 2
def KEY_ZERO_FAIL : Nat := 3
def QUEUE_BACKPRESSURE : Nat := 0
def HIF_ENTRY_CHECK : Nat := 1
def HIF_DATA_CHECK : Nat := 2
def HIF_DMA_ERR : Nat := 3
def HIF_LINK_DOWN : Nat := 4
def HIF_LINK_DEGRADED : Nat := 5
def HIF_FAST_BUSY : Nat := 6
def HIF_OVF_SPILL : Nat := 7
def CSW_AUTH_FAIL : Nat := 0
def CSW_SESSION : Nat := 1
def CSW_LINK : Nat := 2
def CSW_REPORT_GAP : Nat := 3
def LOG_PIN_FULL : Nat := 0
def CAL_DONE : Nat := 0
def CAL_COMMITTED : Nat := 1
def CAL_REVERTED : Nat := 2
def CAL_ABORTED : Nat := 3
def CAL_REFUSED : Nat := 4
def CAL_TRIM_SAT : Nat := 5
def CAL_SNAP_FAIL : Nat := 6
def TST_FAIL : Nat := 0
def TST_TRANSIENT : Nat := 1
def TEST_OVERDUE : Nat := 2
def TST_DEFER : Nat := 3
def TST_PREEMPT : Nat := 4
def TST_ISLAND : Nat := 5
def TST_PAT_UPDATE : Nat := 6
def TST_PAT_REJECT : Nat := 7
def TST_PAT_NONE : Nat := 8
def RCV_START : Nat := 0
def RCV_DONE : Nat := 1
def RCV_ESCALATE : Nat := 2
def RCV_OVERRUN : Nat := 3
def LEASE_LOST : Nat := 4
def RCV_LEASE_REVOKED : Nat := 5
def RCV_DISAGREE : Nat := 6
def RCV_PLAN_LOST : Nat := 7
def RCV_WARM_DONE : Nat := 8
def RCV_PWRCYC : Nat := 9
def RCV_HUNG_FREED : Nat := 10
def BOOT_READY : Nat := 0
def BOOT_PROFILE_AMBIG : Nat := 1
def BOOT_PROFILE_FALLBACK : Nat := 2
def BOOT_FW_FALLBACK : Nat := 3
def BOOT_REC_TORN : Nat := 4
def BOOT_FW_STAGED : Nat := 5
def BOOT_FW_REJECT : Nat := 6
def BOOT_PROFILE_CHANGE : Nat := 7
def BOOT_FLASH_ERR : Nat := 8
def BOOT_PWRGD_LOSS : Nat := 9
def DBG_UNLOCK : Nat := 0
def DBG_UNLOCK_FAIL : Nat := 1
def DBG_LOCK : Nat := 2
def DBG_HALT : Nat := 3
def DBG_FREEZE : Nat := 4
def PRT_STATE : Nat := 0
def CTX_CREATED : Nat := 0
def CTX_FREED : Nat := 1
def CTX_KEY_OK : Nat := 2
def CTX_KEY_FAIL : Nat := 3
def CTX_POISON : Nat := 4
def CTX_INVALID_ROW : Nat := 5
def THM_ALERT : Nat := 0
def THM_ALERT_CLEAR : Nat := 1
def THM_TRIP : Nat := 2
def THM_SENSOR : Nat := 3
end Ev

/-- The code of event `n` of block type `ty`. -/
def eventCode (ty n : Nat) : Option Nat := ((eventTable ty).find? (fun p => p.1 == n)).map (·.2)

/-- The class of an event code: 0 info, 1 warning, 2 contained error, 3 partition error, 4 fatal. -/
def codeClass (c : Nat) : Nat := c / 0x1000

/-- The set of implemented event bits of a block type (R784). -/
def evtImpl (ty : Nat) : Word := (eventTable ty).foldl (fun m p => m ||| maskOf p.1 1) 0

/-- R784: the reset value of EVT_EN, the implemented bits of class 2, 3 or 4. -/
def evtEnReset (ty : Nat) : Word :=
  (eventTable ty).foldl (fun m p => if codeClass p.2 ≥ 2 then m ||| maskOf p.1 1 else m) 0

/-- The implemented bits of class at least `c`. -/
def evtClassAtLeast (ty c : Nat) : Word :=
  (eventTable ty).foldl (fun m p => if codeClass p.2 ≥ c then m ||| maskOf p.1 1 else m) 0

/-- BLK_CAP.EVT_TOP: the highest event bit in use, plus 1. -/
def evtTop (ty : Nat) : Nat := (eventTable ty).foldl (fun m p => max m (p.1 + 1)) 0

end Sys2Proof.Machine
end

