-- ==== Sys2Proof/Machine/RegInfo.lean ====
section
/-!
DEFINITION. Reading the register map: the row of an address, its reset value, and the values of the register map that the
spec gives as "block", "fused", "profile", "grade" or "strap" (R782 to R784, R817, R825, R1041).
-/
namespace Sys2Proof.Machine

/-- Block type of a BAR0 offset. -/
def adrType (a : Nat) : Nat := a / 0x400000
/-- Instance of a BAR0 offset. -/
def adrInst (a : Nat) : Nat := a % 0x400000 / 0x1000
/-- Offset within the page. -/
def adrOff (a : Nat) : Nat := a % 0x1000

/-- The page-table row that assigns the offset, when the page is implemented (R778). -/
def findRow (a : Nat) : Option RegRow :=
  if adrInst a < instCount (adrType a) then
    (pageRows (adrType a)).find? fun r =>
      r.off ≤ adrOff a && decide ((adrOff a - r.off) % r.stride = 0) && decide ((adrOff a - r.off) / r.stride < r.cnt)
  else none

/-- R778: the page of the offset is implemented. -/
def pageImplemented (a : Nat) : Bool := adrInst a < instCount (adrType a)

/-- Reset values that the page tables do not give as one number (log entry 3: profile values are those of the ROM default
profile of R1041; R146 for the phase of RFSH_CTL; R957 for pilot P1). -/
def specialReset (ty inst off : Nat) : Option Word :=
  if ty = 1 && off = 0x040 then some (0x0A101024#32 ||| BitVec.ofNat 32 (b2n Config.gradeX * 0x10000))
  else if ty = 2 && off = 0x040 && inst = 1 then some 0x6401#32
  else if ty = 3 && off = 0x140 then some 1#32
  else if ty = 3 && off = 0x284 then some 0x1000#32
  else if ty = 4 && off = 0x040 then some (BitVec.ofNat 32 (0x0F0C + (if inst % 16 = 15 then 2 else 0)))
  else if ty = 4 && off = 0x0A0 then some (BitVec.ofNat 32 (4 + 4 * (inst % 16) * 256))
  else if ty = 7 && off = 0x054 then some 0x035202BC#32
  else if ty = 14 && off = 0x040 then some 0x00FA3C07#32
  else if ty = 0x12 && off = 0x044 then some (BitVec.ofNat 32 (if inst = 0 then 1 else 0))
  else if ty = 0x14 && off = 0x040 then some (if Config.gradeX then 0x364#32 else 0x35A#32)
  else if ty = 0x11 && off = 0x044 then
    some (if Config.dbgEnStrap then 5#32 else 0#32)
  else if (ty = 9 && ((0x050 ≤ off && off < 0x058) || (0x100 ≤ off && off < 0x1C0)))
      || (ty = 0xB && (off = 0x048 || off = 0x04C || off = 0x074)) then some (Config.fused (pageAddr ty inst + off))
  else none

/-- The reset value of the register at an address: what an unlisted address of State.regs reads as. -/
def regReset (a : Nat) : Word :=
  match specialReset (adrType a) (adrInst a) (adrOff a) with
  | some v => v
  | none => match findRow a with
    | some r => r.rst
    | none => 0

/-- The bits of the register that a plain write stores. -/
def regMask (a : Nat) : Word :=
  match findRow a with
  | some r => r.wm
  | none => 0

/-- The access type of the register, if the offset is assigned. -/
def regAcc (a : Nat) : Option Acc := (findRow a).map (·.acc)

/-- The register is marked held (its value survives a chip warm reset, R939 step 3). -/
def regHeld (a : Nat) : Bool :=
  match findRow a with
  | some r => r.held
  | none => a ≥ 0x10000000

/-- R800: the block types whose pages implement FENCE. -/
def fenceable (ty : Nat) : Bool := ty = 3 || ty = 4 || ty = 5 || ty = 0x12

/-- Blocks that hold leases (R804, R945): ISL (ticket blocks, DYN tiles, straits), SLU (reservations), KEY (vault),
BOOT (flash access).  DEDUCED, log entry 5. -/
def hasLeases (ty : Nat) : Bool := ty = 3 || ty = 7 || ty = 9 || ty = 0x10

/-- Blocks whose chapters name a set that changes together (R809): ISL (R322) and TIL (R140, R174).  DEDUCED, log entry 5. -/
def seqUsed (ty : Nat) : Bool := ty = 3 || ty = 4

/-- BLK_CAP (R783). -/
def blkCap (ty : Nat) : Word :=
  BitVec.ofNat 32 (b2n (fenceable ty) + 2 * b2n (hasLeases ty) + 4 * b2n (seqUsed ty) + 256 * evtTop ty)

end Sys2Proof.Machine
end

