-- ==== Sys2Proof/Machine/Data.lean ====
section
/-!
DEFINITION. The plain-data parts of the state: page headers, log records, tickets, jobs, plans, accounts, contexts and queues.
Ticks are natural numbers (tide counts); sparse tables are Store values.
-/
namespace Sys2Proof.Machine

/-- R782: the registers of one page's common header that hold state.  BLK_ID, BLK_REV, BLK_CAP are constants of the block,
BLK_STS and LEASE are computed when read. -/
structure PageHdr where
  ctl : Word := 3
  raw : Word := 0
  en : Word := 0
  pend : Word := 0
  fenceDp : Bool := false
  fenceCsw : Bool := false
  fenceHost : Bool := false
  reason : Byte := 0
  errCnt : Word := 0
  snap : DWord := 0
  seq : Word := 0
  /-- R801: the tick edge at which the source bits as they stand take effect, and whether the page was fenced in itself before. -/
  fenceEff : Nat := 0
  fenceWas : Bool := false
  deriving DecidableEq, Repr

/-- What an unlisted page header reads as: every register at its reset value (R783, R784). Keys are type × 1024 + instance. -/
def hdrReset (k : Nat) : PageHdr := { en := evtEnReset (k / 1024) }

/-- R806, R808: a half of a 64-bit pair kept for one requester and page: the shadow of a high word, or a staged low word.
`low` is the BAR0 offset of the pair's low word; none is kept when `valid` is false. -/
structure Half where
  valid : Bool := false
  low : Nat := 0
  word : Word := 0
  deriving DecidableEq, Repr

/-- R834: a write held while its page is in reset: the requester, the PF's separate path (R728), offset, value, and what the write's command
needs from outside the block. -/
structure HeldWrite where
  rq : Requester
  via : Bool
  addr : Nat
  val : Word
  env : WriteEnv
  deriving DecidableEq, Repr

/-- R982: a trouble-log record.  `used` is false for a slot that holds none; `seq` 0 marks a slot being written (R983). -/
structure LogRec where
  used : Bool := false
  tick : Nat := 0
  seq : Nat := 0
  ty : Nat := 0
  inst : Nat := 0
  code : Nat := 0
  cls : Nat := 0
  forced : Bool := false
  pinned : Bool := false
  coalesced : Bool := false
  ctx : Nat := 255
  part : Nat := 255
  payload : List Byte := []
  deriving DecidableEq, Repr

/-- R988: the coalescing counter of one source page, with what its COALESCED record needs (R990). -/
structure Coal where
  count : Nat := 0
  firstTick : Nat := 0
  firstCode : Nat := 0
  lastTick : Nat := 0
  lastCode : Nat := 0
  cls : Nat := 0
  ctx : Nat := 255
  part : Nat := 255
  allForced : Bool := true
  /-- A coalesced raise came from a page whose CSW_EN was 1 (R992), with the highest class of such a raise plus 1. -/
  report : Nat := 0
  deriving DecidableEq, Repr

/-- R981: the trouble log: ring of 16,384 slots, the record being written (its slot and start tick), the counters. -/
structure LogState where
  slots : Store LogRec := []
  head : Nat := 0
  seq : Nat := 0
  writing : Option (Nat × Nat) := none
  coal : Store Coal := []
  last : Nat := 0
  wrapped : Bool := false
  pinOvf : Bool := false
  /-- Sequence numbers of records that some raise of a page with CSW_EN = 1 made reportable (R992), with the class. -/
  report : Store Nat := []
  deriving DecidableEq, Repr

/-- R793, R794: the MSI-X hold-off of one function: running, until which tick, and a bit became pending meanwhile. -/
structure IrqHold where
  active : Bool := false
  till : Nat := 0
  waiting : Bool := false
  deriving DecidableEq, Repr

/-- R802, R945: a live lease.  `res` names the resource: 1 strait reservation (unit = island × 4 + output), 2 ticket block
(island), 3 sluice reservation (partition), 4 DYN tile (global tile), 5 vault sequence, 6 flash access.  `kind` and `owner` are
LEASE.KIND and LEASE.OWNER; `plan` the plan handle of a plan lease; `expiry` the full expiry tick. -/
structure Lease where
  res : Nat
  unit : Nat
  kind : Nat
  owner : Nat
  plan : Nat := 0
  expiry : Nat
  deriving DecidableEq, Repr

/-- A spill entry of an acknowledged pulse. -/
structure Spill where
  row : Nat
  val : Nat
  st : Nat := 0
  lv : List Byte := []
  deriving DecidableEq, Repr

/-- What the fountain's expansion of a token row gives (R259 to R263, R297, R306): RDF8 drives, SCALE, FMT and RSTAT carried
with the pulse, applied spill entries in list order, lost rows with their causes (R1125), and what it counts; the lines that met
R671 and poison. `ok`: an expansion is latched. -/
structure Exp where
  ok : Bool := false
  drives : List Byte := []
  scale : Nat := 0
  fmt : Nat := 0
  rstat : Nat := 0
  applied : List (Nat × Nat) := []
  lost : List (Nat × Nat) := []
  inp : Nat := 0
  sat : Nat := 0
  stray : Nat := 0
  bad : Nat := 0
  cnt : Nat := 0
  faults : List (List (Nat × Nat × Nat)) := []
  poison : Bool := false
  deriving DecidableEq, Repr

/-- The registers a tile samples at launch (R117, R270): range factors, column scales, tolerance, reference window and check
enable, transpose range factor. -/
structure Samp where
  g : List Nat := []
  cs : List Nat := []
  tol : Nat := 0
  win : Nat := 0
  refEn : Bool := false
  trn : Nat := 1
  deriving DecidableEq, Repr

/-- The weir of an island beyond its page (R330): counting resumes at this boundary; the boundary evaluated last. -/
structure WeirX where
  resume : Option Nat := none
  last : Nat := 0
  deriving DecidableEq, Repr

/-- R475: a ticket entry, with the operand addresses and results the island keeps with it.  STATE 0 is a free entry. -/
structure Ticket where
  state : Nat := 0
  launch : Nat := 0
  dln : Nat := 0
  uindex : Nat := 0
  uclass : Nat := 0
  action : Nat := 0
  ctx : Nat := 0
  slipped : Bool := false
  wait : Nat := 0
  late : Nat := 0
  desc : Nat := 0
  step : Nat := 0
  /-- Job whose step this ticket belongs to; plan handle. -/
  job : Nat := 0
  plan : Nat := 0
  /-- Planned launch tick with slips, before any wait; deadline tick once launched; tick of the first wait for drops. -/
  planned : Nat := 0
  deadline : Nat := 0
  dropWait : Option Nat := none
  dropStretch : Bool := false
  /-- Operands formed by the walk (R345) and the fields of the descriptor and rill entry that the action uses. -/
  inA : Nat := 0
  outA : Nat := 0
  auxA : Nat := 0
  wti : Nat := 0
  kx : Nat := 0
  phase : Nat := 0
  extent : Nat := 0
  fmt : Nat := 0
  zp : Nat := 0
  spill : Nat := 0
  slot : Nat := 0
  mvmMode : Nat := 0
  /-- Iteration of the descriptor in walk order (R346); destination island of a SEND. -/
  iter : Nat := 0
  dest : Nat := 0
  rop : List Byte := []
  /-- Units to wait for: ticket keys (island × 256 + index) with the producer's job (R353). -/
  deps : List Nat := []
  /-- Edge at which the last of them acknowledged (R482, R353). -/
  depTick : Nat := 0
  /-- Launched while its unit was fenced: no action started (R494). -/
  noAct : Bool := false
  /-- The action has been performed; its result is to be discarded (R493). -/
  ran : Bool := false
  discard : Bool := false
  /-- The fountain's last expansion (R259), the registers sampled at launch (R117, R270), the counts of the conversion (the
levels of a row read), the acknowledgement status bits of R116, and the result status of a rill operation. -/
  ex : Exp := {}
  samp : Samp := {}
  counts : List Nat := []
  status : Nat := 0
  rstat : Nat := 0
  /-- The spill entries of a first attempt, for its repeat (R311). -/
  spills : List Spill := []
  /-- Repeat pulse or repeat DESCALE of R847; key of the pulse whose counts a DESCALE takes; rows done of a run. -/
  isRepeat : Bool := false
  source : Nat := 0
  rows : Nat := 0
  /-- R403: free pool tiles (bit i: tile 12 + i), A_RATE in 1/16 drop per tick and A_RES at the issue of a DYN ticket. -/
  call : List Nat := []
  /-- Sub-ticket of a DYN operation: key of the DYN ticket plus 1, columns of its block, values of its output row, status of the
  block's source rows (R394). -/
  dyn : Nat := 0
  ncol : Nat := 0
  rowN : Nat := 0
  srcStat : Nat := 0
  /-- Ticks for which LEASE_FREEZE has held the hang count (R1072). -/
  frozen : Nat := 0
  deriving DecidableEq, Repr

/-- The acknowledgement of a pulse or phase that its DESCALE takes (R265): the job, descriptor, iteration and phase it
belongs to, its tile, its expansion, sampled registers, delivered counts and status, the launch tick, the spill reads (row, value,
state: 0 to be read, 1 read, 2 failed, 3 DL_UNLOCK; its levels), and the placeholder that tickets wait for while its repeat
has no table entries (R847, R881), 0 when none. -/
structure AckRec where
  job : Nat
  desc : Nat
  iter : Nat
  phase : Nat
  tile : Nat
  ctx : Nat
  mode : Nat
  ex : Exp
  samp : Samp
  counts : List Nat
  status : Nat
  launch : Nat
  slot : Nat
  spills : List Spill := []
  isRepeat : Bool := false
  repKey : Nat := 0
  /-- The DESCALE ticket whose repeat waits. -/
  dtk : List Ticket := []
  deriving DecidableEq, Repr

/-- A job: a submission entry from its fetch to its completion (R732 to R739), with the step it runs (R743).
`st`: 0 none, 1 waits at ingress, 2 inputs complete, 3 origin fixed and running, 4 step ended, 5 result written, 6 completed. -/
structure Job where
  st : Nat := 0
  fn : Nat := 0
  queue : Nat := 0
  cid : Nat := 0
  opc : Nat := 0
  plan : Nat := 0
  inMode : Nat := 0
  outMode : Nat := 0
  early : Bool := false
  irq : Bool := false
  fast : Bool := false
  inAddr : Nat := 0
  outAddr : Nat := 0
  inLen : Nat := 0
  outLen : Nat := 0
  earliest : Nat := 0
  arg : Nat := 0
  arg2 : Nat := 0
  sqhd : Nat := 0
  slotOvf : Bool := false
  got : Nat := 0
  inTick : Nat := 0
  step : Nat := 0
  origin : Nat := 0
  slip : Nat := 0
  slips : Nat := 0
  slipEdge : Option Nat := none
  failed : Bool := false
  status : Nat := 0
  rstat : Nat := 0
  endTick : Nat := 0
  gen : Nat := 0
  payload : List Byte := []
  /-- The entry's opcode has been acted on. -/
  taken : Bool := false
  /-- No completion and no result are written (R769, R771). -/
  silent : Bool := false
  /-- Per island: the emission issued last, as (launch offset, descriptor, order within it) (R347). -/
  cursor : Store (Nat × Nat × Nat) := []
  /-- Result data poisoned on egress (R846). -/
  poisoned : Bool := false
  /-- Where the result rows of the step lie, fixed at its origin: island and first line. -/
  outIsl : Nat := 0
  outLine : Nat := 0
  /-- R867: the replicas' output digests have been compared; R869: the step runs again. -/
  compared : Bool := false
  rerun : Bool := false
  deriving DecidableEq, Repr

/-- A loaded plan (R337, R366).  `hdr` is the 128-byte plan header (R598); `regionLine` the context-relative basin line of each
plan island's region; `cmds` the 64-byte ferry commands; leases and reservations are those taken at acceptance. -/
structure Plan where
  live : Bool := false
  ctx : Nat := 0
  part : Nat := 0
  imageId : Nat := 0
  version : Nat := 0
  ownerKey : Nat := 0
  iova : Nat := 0
  manifest : List Byte := []
  hdr : List Byte := []
  regionLine : Store Nat := []
  cmds : List (List Byte) := []
  tickets : Store Nat := []
  armed : Store Nat := []
  rateArr : Nat := 0
  rateCore : Nat := 0
  burstArr : Nat := 0
  burstCore : Nat := 0
  /-- Some tile pulse is below its slow-corner slot (R553); bound to a fast queue (R750). -/
  fast : Bool := false
  bound : Bool := false
  unloading : Bool := false
  steps : Nat := 0
  lastOrigin : Option Nat := none
  lastSlip : Nat := 0
  /-- Pending tile-assignment rewrites: (island, entry, tick × 16 + tile), effective at the tick of the next layer barrier (R376). -/
  rehome : List (Nat × Nat × Nat) := []
  /-- Window positions that the import backed (R674), and the layer up to which ONCE commands have been written. -/
  backed : List Nat := []
  layersDone : Nat := 0
  /-- Ticks by which a pre-empting test pauses the plan at its next barrier (R904). -/
  paused : Nat := 0
  /-- R866: a capture waits for its comparison. -/
  captured : Bool := false
  deriving DecidableEq, Repr

/-- R534, R542: the accounts of one partition on the two rails, its effective rates, window counts and allowances. -/
structure Acct where
  lvlA : Nat := 0
  lvlC : Nat := 0
  rateA : Nat := 0
  rateC : Nat := 0
  depthA : Nat := 0
  depthC : Nat := 0
  capA : Bool := false
  capC : Bool := false
  wA : Nat := 0
  wC : Nat := 0
  allowA : Nat := 0
  allowC : Nat := 0
  rsvA : Nat := 0
  rsvC : Nat := 0
  burstA : Nat := 0
  burstC : Nat := 0
  stretchLogged : Bool := false
  dryLogged : Bool := false
  /-- Array drops granted at recent ticks, newest first: (tick, drops), over the last 1,024 ticks (R565). -/
  recent : List (Nat × Nat) := []
  pavail : Nat × Nat := (0, 0)
  deriving DecidableEq, Repr

/-- R1039: a partition entry of a profile. -/
structure PartDef where
  x0 : Nat := 0
  y0 : Nat := 0
  w : Nat := 0
  h : Nat := 0
  share : Nat := 0
  arrCap : Nat := 0
  coreCap : Nat := 0
  calMode : Nat := 0
  rpl : Nat := 0
  goal : Nat := 0
  deriving DecidableEq, Repr

/-- R1039: a profile in force. -/
structure Profile where
  num : Nat := 0
  dynCount : Nat := 1
  rfsh : Nat := 0
  vmin : Nat := 700
  vmax : Nat := 850
  chipArr : Nat := 0
  chipCore : Nat := 0
  periodS : Nat := 60
  deferMs : Nat := 250
  parts : List PartDef := []
  deriving DecidableEq, Repr

/-- R1041: the ROM default profile. -/
def romProfile : Profile := { parts := [{ w := 8, h := 8, share := 256, goal := 16 }] }

/-- R673: one window position of a context. -/
structure WinEnt where
  backed : Bool := false
  frame : Nat := 0
  ty : Nat := 0
  deriving DecidableEq, Repr

/-- A context beyond its CTX page (R664, R665): what CREATE bound, its window, its gate. -/
structure CtxRec where
  part : Nat := 0
  owner : Nat := 0
  pages : Nat := 0
  winFrames : Nat := 0
  win : Store WinEnt := []
  gateClosed : Bool := false
  /-- An INSTALL_KEY waits for the vault lease (R685). -/
  installWait : Bool := false
  closeCause : Nat := 0
  /-- The job that consumed poison (R845), 0 for none. -/
  poisonJob : Nat := 0
  deriving DecidableEq, Repr

/-- A queue pair in service (R727), with the configuration CREATE took. -/
structure QPair where
  enabled : Bool := false
  sqBase : Nat := 0
  cqBase : Nat := 0
  sqN : Nat := 0
  cqN : Nat := 0
  vec : Nat := 0
  irqEn : Bool := false
  irqAll : Bool := false
  fast : Bool := false
  planH : Nat := 0
  head : Nat := 0
  tail : Nat := 0
  cqTail : Nat := 0
  cqHead : Nat := 0
  cqUsed : Nat := 0
  cqRsv : Nat := 0
  phase : Bool := true
  gen : Nat := 0
  spilled : List (List Byte) := []
  draining : Bool := false
  err : Nat := 0
  flBound : Bool := false
  flIsl : Nat := 0
  deriving DecidableEq, Repr

/-- The overflow reserve of a context (R756, R759): slots holding spilled completions, slots reserved by jobs in flight. -/
structure Ovf where
  used : Nat := 0
  rsv : Nat := 0
  refusing : Bool := false
  spillLogged : Bool := false
  deriving DecidableEq, Repr

/-- A landing buffer (R749): its binding, the payload received and the fast entry that has not committed. -/
structure Landing where
  bound : Bool := false
  fn : Nat := 0
  queue : Nat := 0
  bytes : Store Nat := []
  job : Nat := 0
  /-- R753: the wait of the commit in hand has been counted. -/
  waited : Bool := false
  deriving DecidableEq, Repr

/-- Valid and poison bits of a basin line (R669, R839). -/
structure LineMeta where
  valid : Bool := false
  poison : Bool := false
  deriving DecidableEq, Repr

/-- R933: a rung in progress or held: 1 context, 2 engine, 3 partition, 4 chip warm reset, 5 power cycle. `phase`: how far its commands have
carried it, and since which tick; `esc`: an engine recovery that R943 turns into a fence. -/
structure Rung where
  kind : Nat
  target : Nat
  cause : Nat
  start : Nat
  held : Bool := false
  phase : Nat := 0
  since : Nat := 0
  esc : Bool := false
  /-- Islands whose probes have been answered (one entry a probe for an engine recovery). -/
  hb : List Nat := []
  deriving DecidableEq, Repr

/-- R136: one row of a tile: its 528 levels, its term store entry (term, valid, restore stamp as a full count, FRESH).
An invalid row drives nothing and reads as failed (R678), so its levels are not kept. -/
structure RowRec where
  levels : List Byte := []
  term : DWord := 0
  valid : Bool := false
  fresh : Bool := false
  stamp : Nat := 0
  deriving DecidableEq, Repr

/-- R850: the shard slot of the last ferry run that wrote a tile, as its island recorded it. -/
structure ShardSrc where
  ctx : Nat := 0
  block : Nat := 0
  cist : Bool := false
  idx : Nat := 0
  image : Nat := 0
  version : Nat := 0
  scales : Nat := 0
  deriving DecidableEq, Repr

/-- A tile beyond its page: the refresh engine (R129 to R183), the column map in effect and a copy pass (R50 to R54), the last
counts by kind (R214), what reprogramming and the lagoon need (R850 to R859). -/
structure TileX where
  /-- Refresh in progress: 0 none, 1 a slot waits for the tile (R157), 2 sensing; its start tick; a catch-up row; lock lost. -/
  rf : Nat := 0
  rfStart : Nat := 0
  rfCatch : Bool := false
  rfLost : Bool := false
  /-- The pointer row is held for a re-sense (R141). -/
  held : Bool := false
  passXor : DWord := 0
  passPersist : Bool := false
  /-- Tick of the last release; a release waits for the end of the row operation (R164). -/
  relTick : Nat := 0
  relReq : Bool := false
  /-- A regime decision: hot, by a write of GRID, its tick (R148, R149); hot by Tj (R147). -/
  regime : Option (Bool × Bool × Nat) := none
  tjHot : Bool := false
  phasePend : Option Nat := none
  /-- Column named by each spare: in effect, and of a pass in progress (R52, R120). -/
  map : List (Option Nat) := [none, none, none, none]
  mapNext : List (Option Nat) := [none, none, none, none]
  copyRow : Nat := 0
  copyLv : List Byte := []
  copyTry : Bool := false
  copyEnd : Nat := 0
  copyBad : Bool := false
  /-- A recomputation of DIG_WRITE started at this tick (R144). -/
  recomp : Option Nat := none
  /-- Counts of the last action of each kind since the tile was last written: 1 standard, 2 extended, 4 + p phase p (R214). -/
  lastCnt : Store (List Nat) := []
  /-- Where the last ferry run that wrote the tile had its shard (R850). -/
  src : Option ShardSrc := none
  /-- A cause waits for reprogramming: lagoon cause 1 or 2, 6 LATE, 7 copy pass, 8 before the owner's next ticket (a fence's release R861, a
  fence during it R1128, a reset R890, R923), 9 replica digests, 10 a persistence already counted in the lagoon; as a run's cause also 11, the write of a spare (R903). Step of R851 in progress
  (2 the run, 3 the verify pass) and its cause; tick of LATE, of the start or of the last verify read; a verify read mismatched; next row. -/
  needReprog : Nat := 0
  reStep : Nat := 0
  reCause : Nat := 0
  reTick : Nat := 0
  reBad : Bool := false
  reRow : Nat := 0
  /-- Near misses in the window of 2^17 ticks with this number (R856). -/
  near : Nat := 0
  nearWin : Nat := 0
  /-- Calibration (chapter 4): being measured, on the pattern, aborted or skipped, its start. -/
  cal : Nat := 0
  calPat : Bool := false
  calStart : Nat := 0
  calTemp : Nat := 0
  unlockTick : Option Nat := none
  deriving DecidableEq, Repr

/-- R689: a registered signing key: its public key, X then Y; revoked (R690). -/
structure KeyReg where
  used : Bool := false
  revoked : Bool := false
  pub : List Byte := []
  deriving DecidableEq, Repr

/-- R578: a harbour frame: type 0 FREE, 1 DATA, 2 SHARD, 3 OVERFLOW; owner context + 1, 0 for none. -/
structure Frame where
  ty : Nat := 0
  owner : Nat := 0
  deriving DecidableEq, Repr

/-- R594, R616, R619 to R622: a WRITE_TILES run of the ferry controller, from the start of its fetch: its job (0 for a ONCE command or a
reprogramming), plan and command; for a reprogramming (R851) the tile + 1 and whether it writes level copies (R451); the context, the
slot (window block, or cistern unit), the expected index, image and version, the scale table's window block + 1; the bytes fetched and
its poisoned lines; per member island the bytes that have arrived, the rows written, the last row's launch, the cause of its failure;
islands where the shard verified; tiles passed over because they were fenced (R642). -/
structure FerryRun where
  job : Nat := 0
  plan : Nat := 0
  cmd : Nat := 0
  gt : Nat := 0
  copies : Bool := false
  ctx : Nat := 0
  block : Nat := 0
  cist : Bool := false
  idx : Nat := 0
  image : Nat := 0
  version : Nat := 0
  scales : Nat := 0
  buf : List Byte := []
  poison : List Nat := []
  arrived : Store Nat := []
  rows : Store Nat := []
  lastRow : Store Nat := []
  failed : Store Nat := []
  verified : List Nat := []
  skipped : List Nat := []
  deriving DecidableEq, Repr

/-- A harbour controller beyond its page: ticks of the corrections of the last second (R583), tick of the end of the last patrol pass. -/
structure HbrX where
  ces : List Nat := []
  last : Nat := 0
  /-- R1110: the stack is refreshed at the doubled rate. -/
  fast : Bool := false
  deriving DecidableEq, Repr

/-- R628 to R633: a replacement under load of a context: plans, its SWAP job, layer in hand, runs of the layer not yet entered (command,
island), when they were activated, layers rewritten, how far a roll-back goes, tiles whose layer is not yet rewritten. -/
structure Swap where
  ctx : Nat
  old : Nat
  new : Nat
  job : Nat
  layer : Nat := 1
  /-- 1 gate closed, 2 rewriting with the gate open, 3 rolling back. -/
  st : Nat := 1
  closedAt : Nat := 0
  running : Bool := false
  retried : Bool := false
  todo : List (Nat × Nat) := []
  act : Nat := 0
  top : Nat := 0
  held : List Nat := []
  /-- R645: a recovery came between; the gate stays closed to the end. -/
  closed : Bool := false
  deriving DecidableEq, Repr

/-- A load in progress (R602): its job, context, IOVA, manifest, the next section, the commands, window positions backed so far. -/
structure Import where
  job : Nat
  ctx : Nat
  iova : Nat
  manifest : List Byte
  next : Nat := 0
  cmds : List (List Byte) := []
  backed : List Nat := []
  deriving DecidableEq, Repr

/-- A tile position of a DYN operation (R390 to R396, R415, R416): its tile, whether it was lost, blocks not yet prepared, the
block prepared with the end of its prepare pass, its column scales and source status, the block on the tile with its rows written,
the last row's launch, the pulses launched, the last pulse's launch, end of its row writes and of its pulses, the ticket entry of its
row run plus 1, and the persistent mismatches of the pulse in hand. -/
structure DynPos where
  tile : Nat
  lost : Bool := false
  todo : List Nat := []
  prep : Option (Nat × Nat) := none
  pScales : List Nat := []
  pStat : Nat := 0
  cur : Option Nat := none
  cScales : List Nat := []
  cStat : Nat := 0
  rows : Nat := 0
  lastRow : Nat := 0
  pulses : Nat := 0
  lastPulse : Nat := 0
  wend : Nat := 0
  tend : Nat := 0
  entry : Nat := 0
  strikes : Nat := 0
  /-- Pulse to be repeated after a rewrite, plus 1 (R416). -/
  redo : Nat := 0
  deriving DecidableEq, Repr

/-- A DYN operation, by the key of its ticket: decided, its reason, start tick t0, write port, positions, status of its output rows
plus 1, DESCALEs delivered, waiting for a tile (R407). -/
structure DynRun where
  reason : Nat := 0
  t0 : Nat := 0
  port : Nat := 0
  pos : List DynPos := []
  rst : Store Nat := []
  done : Nat := 0
  total : Nat := 0
  waiting : Bool := false
  deriving DecidableEq, Repr

/-- A unit's field test (chapter 18), by island × 32 + unit: 0 to 15 a tile, 16 SEQ, 17 RILL, 18 SPW, 19 the island test. `due`: a
due tick set by a completed test; deferred since; held by a test and since when; failed once; route taken at the bound (0 none,
1 re-home, 2 pause) with its spare plus 1 and how far it went; no restore phase; last completed test; last triggered island test;
request waiting (island tests, TST_CMD). -/
structure TestRec where
  due : Option Nat := none
  deferred : Bool := false
  dueTick : Nat := 0
  held : Bool := false
  start : Nat := 0
  failed : Bool := false
  route : Nat := 0
  spare : Nat := 0
  phase : Nat := 0
  noRestore : Bool := false
  last : Option Nat := none
  trig : Option Nat := none
  want : Bool := false
  deriving DecidableEq, Repr

/-- Calibration beyond its page (chapter 4). `kind`: 0 no run, 1 a RUN, 2 a restore run, 3 the power-up RUN (R226); status of each tile of the scope: 1 waiting,
2 being measured, 3 measured, 4 skipped, 5 aborted, 6 passed over (R231); a switch of banks at a tick: 1 the run's commit, 2 a commit of
inactive banks with its tiles, 3 a revert (R205 to R208); BG_DEV and bandgap trims by
island, ppm; what the last commit changed: tiles with their TJ_CAL before, bandgap trims before; verify records at
tile × 8 + word; tick since which the reference has been present (R186). -/
structure CalX where
  kind : Nat := 0
  tiles : Store Nat := []
  sw : Option (Nat × Nat) := none
  swTiles : List Nat := []
  bgDev : Store Int := []
  bg : Store Int := []
  lastTj : List (Nat × Nat) := []
  lastBg : List (Nat × Int) := []
  vfy : Store Word := []
  vrefSince : Option Nat := none
  deriving DecidableEq, Repr

/-- A flash write that waits or is in progress (R1025, R1027): its kind (KIND of R1026; 7 a pattern bank), the slot pair and slot size,
body and bytes 20 to 59 of the header, the holder (pilot number, or 8 for the causeway), the slot chosen and its SEQ once it started. -/
structure FlashWrite where
  kind : Nat
  base0 : Nat
  base1 : Nat
  size : Nat
  body : List Byte
  extra : List Byte := []
  holder : Nat := 0
  slot : Option (Nat × Nat) := none
  /-- What its end does beyond the record (a KEY_CMD: OP × 128 + KIDX; a profile or index: its number). -/
  arg : Nat := 0
  deriving DecidableEq, Repr

/-- R869: the tiles of a replica plan whose digests disagreed without a majority: those whose verify pass is not over, whether one failed,
whether they have been reprogrammed. -/
structure RplCheck where
  plan : Nat
  tiles : List Nat
  waiting : List Nat
  failed : Bool := false
  second : Bool := false
  deriving DecidableEq, Repr

/-- R687: the SPDM responder of one function: 0 nothing negotiated, 1 version, 2 capabilities, 3 algorithms; the secure session: 0 none, 1
handshake, 2 established. -/
structure SpdmX where
  stage : Nat := 0
  session : Nat := 0
  deriving DecidableEq, Repr

/-- The thermal monitor beyond its page (R819 to R825): per island the tick of its sensor's last good sample plus 1; TJ_PEAK has been read since
the last sample. -/
structure ThmX where
  last : Store Nat := []
  peakNew : Bool := true
  deriving DecidableEq, Repr

/-- R974: an open causeway session: identifier, management key that opened it, port (true: I3C), highest sequence number accepted, the sequence
number sent last, tick of its last accepted message; the minimum class + 1 of its subscription (0 none), the first record not yet
reported, the tick + 1 of its last EVENT (R992, R993). -/
structure Session where
  id : Nat
  key : Nat
  i3c : Bool := false
  rx : Nat := 0
  tx : Nat := 0
  last : Nat := 0
  sub : Nat := 0
  next : Nat := 1
  sent : Nat := 0
  deriving DecidableEq, Repr

/-- R950: P1's view of a unit or partition: fenced, fenced by the causeway, recovering, in the lagoon. -/
structure View where
  fenced : Bool := false
  csw : Bool := false
  recov : Bool := false
  lag : Bool := false
  deriving DecidableEq, Repr

/-- Power-up beyond the BOOT page (chapter 21): rails and reset inputs as recognised; PROFSEL sampling begun and done since PWRGD_IN; boot
step reached (4 waits for PWRGD_IN, 6 core firmware, 7 firmware runs, 8 profile chosen, 10 harbour trained, 14 operational); boots of the
slot in a row that failed; 1 while a profile waits to be applied, the profile, the partitions that change. -/
structure BootX where
  aon : Bool := false
  pwrgd : Bool := false
  perst : Bool := true
  sampling : Bool := false
  sampled : Bool := false
  step : Nat := 0
  fails : Nat := 0
  sel : Nat := 0
  want : Profile := romProfile
  changing : List Nat := []
  deriving DecidableEq, Repr

/-- A firmware or pattern push over the causeway (R912, R1034): 0 none, 1 firmware, 2 patterns. -/
structure PushX where
  kind : Nat := 0
  deriving DecidableEq, Repr

/-- The TAP (R1057 to R1063, R1087): an unlock is past its checks (R1065 step 5); instruction in the register; the instruction plus 1 that took the
lands from their functions, 0 for none; the update stage of the boundary-scan register; data and status that wait for the transport's next
Capture-DR. -/
structure TapX where
  unlocking : Bool := false
  ir : Nat := 1
  lands : Nat := 0
  bsr : Nat := 0
  data : Nat := 0
  status : Nat := 0
  deriving DecidableEq, Repr

/-- The MCTP endpoint (R973, R995): endpoint identifier, dynamic address, PLDM terminus. -/
structure MctpX where
  eid : Nat := 0
  da : Option Nat := none
  deriving DecidableEq, Repr

/-- What the block sends outside, in order. -/
inductive Output
  /-- An MSI-X message of a function's vector (R723). -/
  | msix (fn vec : Nat)
  /-- Bytes written to host memory with a function's requester ID; `poisoned`: the attribute of R846. -/
  | hostWrite (fn iova : Nat) (bytes : List Byte) (poisoned : Bool)
  /-- Data returned to a register, BAR or debug read. -/
  | data (bytes : List Byte)
  /-- A causeway message to a session: type, status, flags, body (R977, R978). -/
  | causeway (session ty status flags : Nat) (body : List Byte)
  /-- An SPDM response code and body (R687). -/
  | spdm (code : Nat) (body : List Byte)
  /-- An MCTP control or PLDM response: completion code and body (R995). -/
  | mctp (code : Nat) (body : List Byte)
  /-- An ARP (1) or ICMP (2) reply, with the 802.1Q identifier it is tagged with (R971, R1000). -/
  | eth (kind : Nat) (vlan : Option Nat) (body : List Byte)
  /-- An AVSBus voltage write, mV (R554, R558). -/
  | avsWrite (mv : Nat)
  /-- TIDE_OUT is driven active until a tick (R507). -/
  | tideOut (till : Nat)
  /-- A debug transport or TAP result (R1057 to R1063). -/
  | jtag (code : Nat) (bits : Nat)
  deriving DecidableEq, Repr

end Sys2Proof.Machine
end

