-- ==== Sys2Proof/Machine/State.lean ====
section
/-!
DEFINITION. The state of the block as plain data, its reasons to stop, and the state right after power-up.
-/
namespace Sys2Proof.Machine

/-- Reasons to stop with a fault.  No command of this block ends in one: every access the spec describes has an effect. -/
inductive Fault
  /-- Raised by nothing: kept so that the type has a named reason (safe). -/
  | none
  deriving DecidableEq, Repr

/-- Reasons to refuse. -/
inductive Refusal
  /-- The command has no meaning yet; raised by Dispatch.lean only (safe). -/
  | notModelled (mnemonic : String)
  deriving DecidableEq, Repr

/-- The tide beyond its page (chapter 10). -/
structure TideX where
  /-- REFCLK present within its limits (R470, R1105). -/
  refclk : Bool := false
  /-- Accepted PPS edges: the index k of the last (R500), consecutive edges within 8 ns (R504), the tick of the last. -/
  ppsK : Nat := 0
  ppsRun : Nat := 0
  ppsLast : Option Nat := none
  /-- A PPS_BASE written in DISCIPLINE that waits for the next accepted edge (R522). -/
  ppsBaseNext : Option DWord := none
  /-- Tick from which PPS_CTL.MODE 0 slews the trim to 0 (R523). -/
  slewFrom : Option Nat := none
  /-- Tick at which MODE last left 0. -/
  ppsFrom : Nat := 0
  /-- TIDE_OUT is active until this tick (R508). -/
  outTill : Nat := 0
  /-- Slack minima in ns of the current window, key island × 4 + class (R487); 32767 when none. -/
  slack : Store Int := []
  /-- A change of SLK_CTL waits for the next window boundary (R513). -/
  slackHold : Bool := false
  deriving DecidableEq, Repr

/-- The sluice's voltage loop beyond its page (R554 to R559), in the current AVS window: least class-0 slack, the run of ample
windows, a write being read back (the tick it was sent, repeated already). -/
structure SluX where
  avsMin : Int := 32767
  ample : Nat := 0
  busy : Option Nat := none
  retried : Bool := false
  /-- Voltage in force, mV (R540, R557). -/
  vForce : Nat := 750
  /-- Tick at which window counts were last reset, and a pending CAP_WIN change (R571). -/
  winTick : Nat := 0
  winPend : Bool := false
  /-- Tick of the last refill (R545). -/
  refill : Option Nat := none
  /-- THERMTRIP_N: no drop is granted (R822). -/
  tripped : Bool := false
  deriving DecidableEq, Repr

/-- The block. -/
structure State where
  /-- Commands waiting, first in, first out (the model's queue). -/
  pending : List Instr := []
  /-- Registers with stored state, by BAR0 offset; bank registers of function f at 0x1000_0000 + 0x1000 f + offset. -/
  regs : Store Word := []
  /-- Page headers, by type × 1024 + instance (R782). -/
  hdr : Store PageHdr := []
  /-- Shadows and staged low words, by requester × 2^15 + page (R807, R808). -/
  shadow : Store Half := []
  staged : Store Half := []
  /-- Writes held while a page is in reset (R834), in arrival order. -/
  heldWrites : List HeldWrite := []
  /-- Pages whose fence changes at the next edge, by type and instance (R801). -/
  fencing : List (Nat × Nat) := []
  /-- R835: the type that PEND_MAP showed before the last write of PEND_SEL, and the tick of that write. -/
  pendWas : Nat × Nat := (0, 0)
  log : LogState := {}
  /-- What the block has sent outside, newest first (the model's own record). -/
  out : List Output := []
  irq : Store IrqHold := []
  /-- Tick of the last TOP_BAD_ACCESS raise (R818). -/
  badAccTick : Option Nat := none
  /-- Draws taken from the entropy source and other free values (the model's counter). -/
  draws : Nat := 0
  leases : List Lease := []
  profile : Profile := romProfile
  /-- The tide count (R468). -/
  count : DWord := 0
  tide : TideX := {}
  tickets : Store Ticket := []
  /-- Acknowledgements waiting for their DESCALE. -/
  acks : List AckRec := []
  jobs : Store Job := []
  nextJob : Nat := 1
  plans : Store Plan := []
  nextPlan : Nat := 1
  acct : Store Acct := []
  slu : SluX := {}
  ctxs : Store CtxRec := []
  /-- Basin bytes at island × 2^22 + physical byte; line bits at island × 2^16 + line; page tags (owner + 1) at island × 1024 + page. -/
  basin : List Host.Cell := []
  lines : Store LineMeta := []
  tags : Store Nat := []
  qps : Store QPair := []
  ovf : Store Ovf := []
  landing : Store Landing := []
  rungs : List Rung := []
  /-- Rows by global tile × 1024 + row; tiles beyond their page; trims by (tile × 2 + bank) × 4096 + index: column c at c
  (offset in [5:0], gain in [13:8]), row r at 1024 + r. -/
  rows : Store RowRec := []
  tiles : Store TileX := []
  trims : Store Nat := []
  weir : Store WeirX := []
  /-- Placeholders given to repeats that wait for table entries (the model's counter). -/
  nextRep : Nat := 0
  /-- Harbour bytes at physical block × 4096 + byte (plaintext of DATA and OVERFLOW blocks, stored bytes of SHARD blocks); poison
  of lines at block × 64 + line; blocks written since their frame was assigned; frames; the bad-slot list. -/
  harbour : List Host.Cell := []
  hbPoison : Store Nat := []
  hbWritten : Store Nat := []
  frames : Store Frame := []
  badSlots : List Nat := []
  /-- Owner context + 1 of each global tile (R677). -/
  owners : Store Nat := []
  runs : Store FerryRun := []
  nextRun : Nat := 1
  /-- R622: second fetches due: plan, command, reprogrammed tile + 1, first physical block of the slot. -/
  refetch : List (Nat × Nat × Nat × Nat) := []
  hbr : Store HbrX := []
  /-- R606, R609: start of the ferry's scrub pass in hand. -/
  scrubFrom : Nat := 0
  swaps : List Swap := []
  imports : List Import := []
  dyns : Store DynRun := []
  tests : Store TestRec := []
  /-- Bytes of the flash that are not erased (0xFF) (R1023, R1024). -/
  flash : List Host.Cell := []
  cal : CalX := {}
  /-- Flash writes, in order of request: the first holds the flash-access lease (R1025). -/
  flashq : List FlashWrite := []
  /-- Registered signing keys by index 4o + k, held in the flash (R689). -/
  ownerKeys : Store KeyReg := []
  /-- SPDM responders by function. -/
  spdm : Store SpdmX := []
  /-- Jobs that have ended and whose completions are to be written, in the order of their ends (R739). -/
  ends : List Nat := []
  /-- R731: the context served last and, by context, the queue served last plus 1. -/
  rrCtx : Nat := 63
  rrQ : Store Nat := []
  rplChecks : List RplCheck := []
  /-- R949: leases revoked whose holder has not yet met LEASE_LOST. -/
  lost : List Lease := []
  thm : ThmX := {}
  /-- Tick + 1 of each pilot's last kick (R930). -/
  wd : Store Nat := []
  /-- Tick of the last start plus 1 of a rung of each kind and target, at kind × 1024 + target (R943); 6: a pilot's watchdog. -/
  rungAt : Store Nat := []
  /-- FLRs that wait for the end of a partition or chip rung (R966). -/
  flrs : List Nat := []
  sessions : List Session := []
  /-- Management keys by index: 96 bytes (R975); tick + 1 of the last CSW_AUTH_FAIL raise (R976). -/
  mgmtKeys : Store (List Byte) := []
  authTick : Nat := 0
  /-- P1's views, by type × 1024 + instance (R950). -/
  views : Store View := []
  boot : BootX := {}
  push : PushX := {}
  tap : TapX := {}
  mctp : MctpX := {}
  /-- Flash writes cut short by the loss of their lease, whose writer has not yet met LEASE_LOST (R949, R1051). -/
  torn : List FlashWrite := []
  /-- GRANT_ARR and GRANT_CORE at the last ms, and the power granted over the ms before, in W (sensors 73 and 74 of R995). -/
  grantWas : Nat × Nat := (0, 0)
  power : Nat × Nat := (0, 0)
  /-- Number of the 10 ms period of the last reconciliation (R950). -/
  reconAt : Nat := 0
  deriving DecidableEq, Repr

/-- The machine as a reset of the whole device leaves it, before VDD_AON is good (R1019 step 1, R1095): every field at its reset value; the
reset values of registers are what unlisted entries of `regs` and `hdr` read as (regReset, hdrReset). -/
def State.reset : State := {}

end Sys2Proof.Machine
end

