-- ==== Sys2Proof/Machine/Ops.lean ====
section
/-!
DEFINITION. Operations every chapter uses: registers, page headers, raising events, the log writer's start, MSI-X routing,
fences, leases, counters (chapters 16 and 20).
-/
namespace Sys2Proof.Machine

/-! ## Registers -/

/-- The stored value of a register. -/
def State.reg (s : State) (a : Nat) : Word := Store.get regReset s.regs a

/-- Store a register value. -/
def State.setReg (s : State) (a : Nat) (v : Word) : State := { s with regs := Store.put regReset s.regs a v }

/-- A field of a stored register. -/
def State.getF (s : State) (a lo w : Nat) : Nat := fld (s.reg a) lo w

/-- Set a field of a stored register. -/
def State.setF (s : State) (a lo w x : Nat) : State := s.setReg a (setFld (s.reg a) lo w x)

/-- A bit of a stored register. -/
def State.getB (s : State) (a n : Nat) : Bool := bit (s.reg a) n

/-- Set a bit of a stored register. -/
def State.setB (s : State) (a n : Nat) (b : Bool) : State := s.setF a n 1 (b2n b)

/-- Count `n` more in a 32-bit counter that saturates (R8). -/
def State.incSat (s : State) (a n : Nat) : State :=
  s.setReg a (BitVec.ofNat 32 (satAdd 0xFFFFFFFF (s.reg a).toNat n))

/-- Count `n` more in a field that saturates. -/
def State.incSatF (s : State) (a lo w n : Nat) : State := s.setF a lo w (satAdd (2 ^ w - 1) (s.getF a lo w) n)

/-- Count `n` more in a field that wraps. -/
def State.incWrapF (s : State) (a lo w n : Nat) : State := s.setF a lo w (s.getF a lo w + n)

/-- The 64-bit value of a pair (R806). -/
def State.get64 (s : State) (lo hi : Nat) : Nat := (s.reg lo).toNat + (s.reg hi).toNat * 2 ^ 32

/-- Store a 64-bit pair at one edge (R808, R809). -/
def State.set64 (s : State) (lo hi v : Nat) : State :=
  (s.setReg lo (BitVec.ofNat 32 v)).setReg hi (BitVec.ofNat 32 (v / 2 ^ 32))

/-- Add to a 64-bit count. -/
def State.add64 (s : State) (lo hi n : Nat) : State := s.set64 lo hi (s.get64 lo hi + n)

/-- The tide count as a number. -/
def State.now (s : State) : Nat := s.count.toNat

/-- Record an output. -/
def State.emit (s : State) (o : Output) : State := { s with out := o :: s.out }

/-- Take the next free draw. -/
def State.nextDraw (s : State) : DWord × State := (Config.draw s.draws, { s with draws := s.draws + 1 })

/-! ## Partitions and fences -/

/-- Partition p of the profile in force, if it defines it. -/
def State.partDef (s : State) (p : Nat) : Option PartDef := s.profile.parts[p]?

/-- The island lies in the rectangle. -/
def PartDef.has (d : PartDef) (isl : Nat) : Bool :=
  d.x0 ≤ isl % 8 && isl % 8 < d.x0 + d.w && d.y0 ≤ isl / 8 && isl / 8 < d.y0 + d.h

/-- The partition an island lies in (R667). -/
def State.partOf (s : State) (isl : Nat) : Option Nat :=
  (List.range s.profile.parts.length).find? fun p => ((s.partDef p).getD {}).has isl

/-- The islands of a partition in ascending order. -/
def State.islandsOf (s : State) (p : Nat) : List Nat :=
  (List.range 64).filter fun i => ((s.partDef p).getD {}).has i

/-- A page header. -/
def State.hd (s : State) (ty inst : Nat) : PageHdr := Store.get hdrReset s.hdr (ty * 1024 + inst)

/-- Update a page header. -/
def State.updHd (s : State) (ty inst : Nat) (f : PageHdr → PageHdr) : State :=
  { s with hdr := Store.upd hdrReset s.hdr (ty * 1024 + inst) f }

/-- R797: a page is fenced in itself. -/
def PageHdr.fenced (h : PageHdr) : Bool := h.fenceDp || h.fenceCsw || h.fenceHost

/-- R801: the page is fenced in itself at this edge. -/
def State.ownFenced (s : State) (ty inst : Nat) : Bool :=
  let h := s.hd ty inst
  if s.now < h.fenceEff then h.fenceWas else h.fenced

/-- R798: the effective fence of an island: its own page or its partition's. -/
def State.islFenced (s : State) (isl : Nat) : Bool :=
  s.ownFenced 3 isl || (match s.partOf isl with | some p => s.ownFenced 0x12 p | none => false)

/-- R798: the effective fence of a tile: its own page or its island's. -/
def State.tileFenced (s : State) (gt : Nat) : Bool := s.ownFenced 4 gt || s.islFenced (gt / 16)

/-- R798: the effective fence of a page. -/
def State.fenced (s : State) (ty inst : Nat) : Bool :=
  if ty = 4 then s.tileFenced inst else if ty = 3 then s.islFenced inst
  else if fenceable ty then s.ownFenced ty inst else false

/-- The partition a context is bound to, as a log record's PART: 0xFF when the context is FREE. -/
def State.ctxPart (s : State) (c : Nat) : Nat :=
  if s.getF (Reg.CTX_STS c) 0 2 = 0 then 255 else (Store.get (fun _ => {}) s.ctxs c).part

/-! ## The trouble log (R981 to R991) -/

/-- The default of an unlisted log slot. -/
def logEmpty (_ : Nat) : LogRec := {}
/-- The default of an unlisted coalescing counter. -/
def coalEmpty (_ : Nat) : Coal := {}

/-- R986: pinned slots now. -/
def LogState.pins (l : LogState) : Nat := (l.slots.filter fun p => p.2.pinned).length

/-- R985: the first slot that is not pinned, at or after `i` in ring order. -/
def LogState.freeSlot (l : LogState) : Nat → Nat → Nat
  | 0, i => i
  | n + 1, i => if (Store.get logEmpty l.slots i).pinned then LogState.freeSlot l n ((i + 1) % 16384) else i

/-- R988: the writer is busy. -/
def LogState.busy (l : LogState) : Bool := l.writing.isSome || !l.coal.isEmpty

/-- R983: the next sequence number; steps from 0xFFFF_FFFF to 1. -/
def LogState.nextSeq (l : LogState) : Nat := if l.seq = 0xFFFFFFFF then 1 else l.seq + 1

/-- R983, R985, R986: start writing a record at a tick.  The slot's SEQ reads 0 until the commit. A record of class 4 is
pinned, unless 64 slots are pinned already; the flags tell whether a committed record was overwritten and whether PIN_OVF was
set by this record. -/
def LogState.start (l : LogState) (now : Nat) (r : LogRec) : LogState × Bool × Bool :=
  let i := l.freeSlot 65 l.head
  let old := Store.get logEmpty l.slots i
  let pin := r.cls = 4 && l.pins < 64
  let ovf := r.cls = 4 && !(l.pins < 64)
  ({ l with
      slots := Store.put logEmpty l.slots i { r with used := true, seq := 0, pinned := pin }
      head := (i + 1) % 16384
      writing := some (i, now)
      wrapped := l.wrapped || old.used
      pinOvf := l.pinOvf || ovf }, old.used, ovf && !l.pinOvf)

/-- Start a record and count an overwrite (OVW_CNT). The flag: PIN_OVF changed from 0 to 1 (R1005). -/
def State.startRec (s : State) (r : LogRec) : State × Bool :=
  let (l, ow, newOvf) := s.log.start s.now r
  ((if ow then s.incSat Reg.LOG_OVW_CNT 1 else s) |> fun s => { s with log := l }, newOvf)

/-- R990: a field that every coalesced raise carried, or 0xFF. -/
def mergeId (first : Bool) (old new : Nat) : Nat := if first then new else if old = new then old else 255

/-- R988: coalesce a raise into the counter of its source page. -/
def Coal.add (c : Coal) (r : LogRec) (csw : Bool) : Coal :=
  let first := c.count = 0
  { count := c.count + 1
    firstTick := if first then r.tick else c.firstTick
    firstCode := if first then r.code else c.firstCode
    lastTick := r.tick
    lastCode := r.code
    cls := max c.cls r.cls
    ctx := mergeId first c.ctx r.ctx
    part := mergeId first c.part r.part
    allForced := c.allForced && r.forced
    report := if csw then max c.report (r.cls + 1) else c.report }

/-- R988 to R990: a raise reaches the log writer: it starts its own record when the writer is idle and is coalesced otherwise.
`csw`: its page has BLK_CTL.CSW_EN = 1 (R992). -/
def State.logRaise (s : State) (r : LogRec) (csw : Bool) : State × Bool :=
  if s.log.busy then
    ({ s with log := { s.log with coal := Store.upd coalEmpty s.log.coal (r.ty * 1024 + r.inst) (·.add r csw) } }, false)
  else
    let sq := s.log.nextSeq
    let (s, o) := s.startRec r
    (if csw then { s with log := { s.log with report := Store.put (fun _ => 0) s.log.report sq (r.cls + 1) } } else s, o)

/-! ## Raising events (R785 to R796) -/

/-- The default of an unlisted hold-off. -/
def irqIdle (_ : Nat) : IrqHold := {}

/-- R793: signal vector 16 of function `f`, or keep it for the end of the hold-off. -/
def State.signal (s : State) (f : Nat) : State :=
  let h := Store.get irqIdle s.irq f
  if h.active then { s with irq := Store.put irqIdle s.irq f { h with waiting := true } }
  else
    let us := s.getF Reg.TOP_IRQ_CTL 8 8
    { s with irq := Store.put irqIdle s.irq f (if us = 0 then {} else { active := true, till := s.now + us * 125 }) }.emit (.msix f 16)

/-- R793, R794: a bit became pending in a page, for an event whose record carries context `ctx`. -/
def State.routeHost (s : State) (ty inst ctx : Nat) : State :=
  if (s.hd ty inst).ctl.getLsbD 0 then
    let s := if s.getB Reg.TOP_IRQ_CTL 0 then s.signal 0 else s
    if s.getB Reg.TOP_IRQ_CTL 1 && 1 ≤ ctx && ctx < 64 then s.signal ctx else s
  else s

/-- Payload bytes of an event for which the spec gives no layout: free bytes (log entry 6). -/
def openPayload (code : Nat) (n : Nat) : List Byte := tabulate 10 fun i => Config.cryptoByte (0x1000000 + code * 0x10000 + n) i

/-- R785 to R792: raise event `n` of a page with a payload (`none`: the spec gives no layout), a context and a partition
(0xFF when none applies), without the default action of its class. -/
def State.raiseOnly (s : State) (ty inst n : Nat) (pl : Option (List Byte)) (ctx part : Nat) (forced : Bool) : State :=
  match eventCode ty n with
  | none => s
  | some code =>
    let cls := codeClass code
    let h := s.hd ty inst
    let newPend := h.en.getLsbD n && !h.pend.getLsbD n
    let s := s.updHd ty inst fun h =>
      { h with
        raw := h.raw ||| maskOf n 1
        pend := if h.en.getLsbD n then h.pend ||| maskOf n 1 else h.pend
        errCnt := if cls ≥ 2 then BitVec.ofNat 32 (satAdd 0xFFFFFFFF h.errCnt.toNat 1) else h.errCnt }
    let pay := match pl with | some b => padTo 10 b | none => openPayload code s.draws
    let s := if pl.isNone then { s with draws := s.draws + 1 } else s
    let (s, ovf) := s.logRaise
      { tick := s.now, ty := ty, inst := inst, code := code, cls := cls, forced := forced, ctx := ctx, part := part, payload := pay }
      (h.ctl.getLsbD 1)
    let s := if newPend then s.routeHost ty inst ctx else s
    if ovf then
      -- R1005: LOG_PIN_FULL (class 1); its own record cannot set PIN_OVF again.
      let hl := s.hd 12 0
      let s := s.updHd 12 0 fun h =>
        { h with raw := h.raw ||| 1, pend := if h.en.getLsbD 0 then h.pend ||| 1 else h.pend }
      let (s, _) := s.logRaise
        { tick := s.now, ty := 12, code := 0x1141, cls := 1, payload := openPayload 0x1141 s.draws } (hl.ctl.getLsbD 1)
      if hl.en.getLsbD 0 && !hl.pend.getLsbD 0 then s.routeHost 12 0 255 else s
    else s

/-! ## Rungs (R932, R943, R944, R964, R968, R969) -/

/-- Scope of a rung covers the scope of another (R964). -/
def State.covers (s : State) (a b : Rung) : Bool :=
  if a.kind < b.kind then false
  else match a.kind with
    | 5 => true
    | 4 => true
    | 3 => (b.kind = 3 && a.target = b.target)
        || (b.kind = 2 && s.partOf b.target = some a.target) || (b.kind = 1 && s.ctxPart b.target = a.target)
    | _ => a.kind = b.kind && a.target = b.target

/-- PRT_STS.STATE of a partition (R701): 0 undefined, 2 in a partition recovery (R938), 3 fenced, 1 in service. -/
def State.prtState (s : State) (p : Nat) : Nat :=
  if (s.partDef p).isNone then 0
  else if s.rungs.any fun r => !r.held && r.kind = 3 && r.target = p then 2
  else if s.ownFenced 0x12 p then 3
  else 1

/-- R702: PRT_STATE is raised wherever the state of a partition changes. -/
def State.prtSync (s : State) : State :=
  (List.range 8).foldl (fun s p =>
    if s.getF (Reg.PRT_STS p) 0 2 = s.prtState p then s
    else (s.setF (Reg.PRT_STS p) 0 2 (s.prtState p)).raiseOnly 0x12 p Ev.PRT_STATE none 255 p false) s

/-- A rung starts (R933): rungs it covers are absorbed (R964), RCV_START is raised. -/
def State.rungGo (s : State) (kind target cause : Nat) : State :=
  let r : Rung := { kind, target, cause, start := s.now, since := s.now }
  let s := { s with rungs := (s.rungs.filter fun x => !(s.covers r x)) ++ [r]
                    rungAt := Store.put (fun _ => 0) s.rungAt (kind * 1024 + target) (s.now + 1) }
  let s := s.setReg Reg.RCV_LAST_RCV (BitVec.ofNat 32 (kind + cause * 8 + target % 256 * 256))
  let s := s.set64 Reg.RCV_LAST_START_LO Reg.RCV_LAST_START_HI s.now
  let s := match kind with
    | 1 => s.incSat Reg.RCV_CTX_CNT 1
    | 2 => s.incSat Reg.RCV_ENG_CNT 1
    | 3 => s.incSat Reg.RCV_PART_CNT 1
    | 4 => s.incSat Reg.RCV_WARM_CNT 1
    | _ => s
  (s.raiseOnly 15 0 Ev.RCV_START none 255 (if kind = 3 then target else 255) false).prtSync

/-- Start a rung, or hold it where its AUTO bit is 0 and it was not commanded (R944). -/
def State.rungStart (s : State) (kind target cause : Nat) : State :=
  if cause = 1 || kind < 3 || s.getB Reg.RCV_CTL (kind - 3) then s.rungGo kind target cause
  else if s.rungs.any fun x => x.held && x.kind = kind && x.target = target then s
  else { s with rungs := s.rungs ++ [{ kind, target, cause, start := s.now, since := s.now, held := true }] }

/-- R969: step 1 of a power cycle has begun. -/
def State.pwrCycling (s : State) : Bool := s.rungs.any fun r => r.kind = 5 && !r.held

/-- R943: a rung escalates: LAST_RCV.ESCALATED and RCV_ESCALATE. -/
def State.noteEscalate (s : State) : State := (s.setB Reg.RCV_LAST_RCV 17 true).raiseOnly 15 0 Ev.RCV_ESCALATE none 255 255 false

/-- The last rung of a kind and target started within a window of ticks. -/
def State.rungWithin (s : State) (kind target win : Nat) : Bool :=
  let t := Store.get (fun _ => 0) s.rungAt (kind * 1024 + target)
  t != 0 && decide (s.now < t - 1 + win)

/-- ESC_WIN and WARM_WIN in ticks; 0 is taken as 1. -/
def State.escWin (s : State) : Nat := max 1 (s.getF Reg.RCV_CTL 8 8) * 12500000
/-- WARM_WIN in ticks. -/
def State.warmWin (s : State) : Nat := max 1 (s.getF Reg.RCV_CTL 16 8) * 125000000

/-- A chip warm reset is wanted: within WARM_WIN of the last it is a power cycle (R943). -/
def State.warmRung (s : State) (cause : Nat) : State :=
  if s.rungWithin 4 0 s.warmWin then s.noteEscalate.rungStart 5 0 9 else s.rungStart 4 0 cause

/-- A rung is wanted for a scope (R943, R964, R969): dropped where a rung in progress covers it; escalated where the same rung of the same
target started within its window. -/
def State.startRung (s : State) (kind target cause : Nat) : State :=
  let r : Rung := { kind, target, cause, start := s.now }
  if s.pwrCycling then s
  else if s.rungs.any fun x => !x.held && s.covers x r && (x.kind > kind || (x.kind = kind && x.target = target)) then s
  else if kind = 2 && s.rungWithin 2 target s.escWin then
    { s.noteEscalate with rungs := s.rungs ++ [{ r with esc := true }] }
  else if kind = 3 && s.rungWithin 3 target s.escWin then s.noteEscalate.warmRung 9
  else if kind = 4 then s.warmRung cause
  else s.rungStart kind target cause

/-- R834, R936, R938, R939: an engine, partition or chip rung covers the island (its IN_RESET). -/
def State.islReset (s : State) (isl : Nat) : Bool :=
  s.rungs.any fun r => !r.held && !r.esc
    && (r.kind = 4 || (r.kind = 3 && s.partOf isl = some r.target) || (r.kind = 2 && r.target = isl))

/-- The block types of the always-on domain: CSW, LOG, BOOT, DBG, and P1's page. -/
def alwaysOn (ty inst : Nat) : Bool := ty = 0xB || ty = 0xC || ty = 0x10 || ty = 0x11 || (ty = 2 && inst = 1)

/-- R834: a recovery is resetting the block of a page (BLK_STS.IN_RESET): an island's page under an engine, partition or chip rung; every page of
the core domain but RCV's while a chip warm reset holds the domain and brings it up again (R939 steps 3 to 6). -/
def State.pageReset (s : State) (ty inst : Nat) : Bool :=
  if alwaysOn ty inst || ty = 0xF then false
  else if ty = 3 then s.islReset inst
  else s.rungs.any fun r => r.kind = 4 && !r.held && decide (2 ≤ r.phase)

/-- R834: a write to a page in reset is held; any other has its effect. -/
def State.orHeld (s : State) (rq : Requester) (via : Bool) (a : Nat) (v : Word) (env : WriteEnv) (f : State → State) : State :=
  if s.pageReset (adrType a) (adrInst a) then { s with heldWrites := s.heldWrites ++ [⟨rq, via, a, v, env⟩] } else f s

/-- R944, R936 to R942: no ticket launches on the island (`run`: a ferry run). A held chip rung stops launches too. -/
def State.launchStop (s : State) (isl : Nat) (run : Bool) : Bool :=
  s.rungs.any fun r => !r.esc
    && (4 ≤ r.kind || (r.kind = 3 && !r.held && s.partOf isl = some r.target) || (r.kind = 2 && !r.held && !run && r.target = isl))

/-- The gate of a context is closed by a rung in progress or held (R934, R938, R939, R944). -/
def State.rungGate (s : State) (c : Nat) : Bool :=
  s.rungs.any fun r => 4 ≤ r.kind || (r.kind = 3 && s.ctxPart c = r.target) || (r.kind = 1 && r.target = c)

/-- R932: the default action of an event's class, for a real raise: class 3 takes a partition recovery of the partition the
source serves, class 4 a chip warm reset; TIDE_DESYNC and TIDE_UNLOCK (TID), HBR_STACK_FAIL, THM_TRIP and RCV_PWRCYC have their
own rules; PIL_FW_FAIL escalates under R943. -/
def State.classAction (s : State) (ty inst n : Nat) : State :=
  match eventCode ty n with
  | none => s
  | some code =>
    if codeClass code = 3 then
      if ty = 8 then s
      else match (if ty = 3 then s.partOf inst else if ty = 4 then s.partOf (inst / 16) else none) with
        | some p => s.startRung 3 p 6
        | none => s
    else if codeClass code = 4 then
      if ty = 5 && n = Ev.HBR_STACK_FAIL then s.startRung 5 0 11
      else if ty = 0x14 && n = Ev.THM_TRIP then s.startRung 5 0 12
      else if ty = 15 then s
      else if ty = 16 && n = Ev.BOOT_PWRGD_LOSS then s
      else if ty = 2 && n = Ev.PIL_FW_FAIL then
        if s.pwrCycling || s.rungs.any fun x => x.kind = 4 && !x.held then s else s.noteEscalate.startRung 4 0 9
      else if s.rungs.any fun x => x.kind = 4 && !x.held then s
      else s.startRung 4 0 7
    else s

/-- R980, R1011: a chip warm reset holds the core domain: from its step 3 until P0 runs again. -/
def State.warmHeld (s : State) : Bool := (s.rungs.any fun r => r.kind = 4 && !r.held && r.phase = 2) && s.getF (Reg.PIL_STS 0) 0 2 != 1

/-- R1011: raises cannot come from a core page while the core domain is held; the rungs' own page and the pilots' stay. -/
def State.mute (s : State) (ty inst : Nat) : Bool := s.warmHeld && !alwaysOn ty inst && ty != 0xF && ty != 2

/-- Raise a real event: its effects on pages, log and pins (R785 to R792), then the action of its class (R932). -/
def State.raise (s : State) (ty inst n : Nat) (pl : Option (List Byte)) (ctx part : Nat) : State :=
  if s.mute ty inst then s else (s.raiseOnly ty inst n pl ctx part false).classAction ty inst n

/-- Raise an event of a context's work: PART is the context's partition. -/
def State.raiseC (s : State) (ty inst n : Nat) (pl : Option (List Byte)) (ctx : Nat) : State :=
  s.raise ty inst n pl ctx (s.ctxPart ctx)

/-- Raise an event of an island or tile that concerns no context: PART is the island's partition. -/
def State.raiseI (s : State) (ty inst n : Nat) (pl : Option (List Byte)) : State :=
  s.raise ty inst n pl 255 ((s.partOf (if ty = 4 then inst / 16 else inst)).getD 255)

/-- R809, R810: the block changes a set that changes together: SEQ increments and SNAP takes the count. -/
def State.bumpSeq (s : State) (ty inst : Nat) : State :=
  s.updHd ty inst fun h => { h with seq := h.seq + 1, snap := s.count }

/-! ## Pins computed from state -/

/-- R791: a class-4 bit of some page's EVT_RAW is set. -/
def State.fatalRaw (s : State) : Bool :=
  s.hdr.any fun p => p.2.raw &&& evtClassAtLeast (p.1 / 1024) 4 != 0

/-- R796: a page with CSW_EN holds a pending bit of class 1, 2 or 3. -/
def State.alertPend (s : State) : Bool :=
  s.hdr.any fun p =>
    p.2.ctl.getLsbD 1 && p.2.pend &&& evtClassAtLeast (p.1 / 1024) 1 &&& ~~~ evtClassAtLeast (p.1 / 1024) 4 != 0

/-- R796: ALERT_N is asserted. -/
def State.alertN (s : State) : Bool :=
  s.getB Reg.THM_STS 0 || (s.getB Reg.TOP_IRQ_CTL 2 && s.alertPend)

/-! ## Fences (R797 to R801, R963) -/

/-- Set the data-path bit of a page's FENCE with a reason code (R963). -/
def State.fenceDp (s : State) (ty inst reason : Nat) : State :=
  s.updHd ty inst fun h => { h with fenceDp := true, reason := BitVec.ofNat 8 reason, fenceEff := 0 }

/-! ## Leases (R802 to R805, R945 to R949) -/

/-- Take a lease. -/
def State.lease (s : State) (l : Lease) : State := { s with leases := s.leases ++ [l] }

/-- R946: a lease is revoked: RCV_LEASE_REVOKED and REVOKE_CNT. -/
def State.noteRevoked (s : State) : State :=
  (s.incSat Reg.RCV_REVOKE_CNT 1).raise 15 0 Ev.RCV_LEASE_REVOKED none 255 255

/-- R949: a holder loses a lease; its next access under it fails. -/
def State.loseLease (s : State) (l : Lease) : State :=
  ({ s with leases := s.leases.erase l, lost := s.lost ++ [l] }).noteRevoked

/-- Revoke every lease that satisfies `p`, counting each. -/
def State.revoke (s : State) (p : Lease → Bool) : State := (s.leases.filter p).foldl (fun s l => s.loseLease l) s

/-- The leases a page's LEASE register concerns (R804). -/
def leaseOfPage (ty inst : Nat) (l : Lease) : Bool :=
  (ty = 3 && ((l.res = 1 && l.unit / 4 = inst) || (l.res = 2 && l.unit = inst) || (l.res = 4 && l.unit / 16 = inst)))
    || (ty = 7 && l.res = 3) || (ty = 9 && l.res = 5) || (ty = 0x10 && l.res = 6)

/-- LEASE (R802, R804): the live lease of the page's block with the earliest expiry. -/
def State.leaseWord (s : State) (ty inst : Nat) : Word :=
  match (s.leases.filter (leaseOfPage ty inst)).foldl
      (fun (b : Option Lease) l => match b with
        | none => some l
        | some x => if l.expiry < x.expiry then some l else some x) none with
  | none => 0
  | some l => BitVec.ofNat 32 (l.expiry % 2 ^ 24 + l.owner % 64 * 2 ^ 24 + l.kind % 4 * 2 ^ 30)

end Sys2Proof.Machine
end

