-- ==== Sys2Proof/Machine/Basin.lean ====
section
/-!
DEFINITION. Basins: context-relative lines, valid and poison bits, foreign accesses (R669 to R672, R839, R1129).
-/
namespace Sys2Proof.Machine

/-- What a basin byte that nothing has written reads as beneath its valid bit (log entry 4). -/
def basinZero (_ : Nat) : Byte := 0
/-- An unlisted line: invalid and clean. -/
def lineClear (_ : Nat) : LineMeta := {}
/-- An unlisted page tag: untagged. -/
def tagNone (_ : Nat) : Nat := 0

/-- R669: the physical pages tagged with a context on an island, in ascending order. -/
def State.ctxPages (s : State) (isl ctx : Nat) : List Nat :=
  (s.tags.filter fun p => p.1 / 1024 = isl && p.2 = ctx + 1).map fun p => p.1 % 1024

/-- R669: the physical line of a context-relative line number, if its page is tagged with the context. -/
def State.physLine (s : State) (isl ctx vline : Nat) : Option Nat :=
  ((s.ctxPages isl ctx)[vline / 64]?).map fun p => p * 64 + vline % 64

/-- The valid and poison bits of a physical line. -/
def State.lineAt (s : State) (isl line : Nat) : LineMeta := Store.get lineClear s.lines (isl * 65536 + line)

/-- Set the bits of a physical line. -/
def State.setLine (s : State) (isl line : Nat) (m : LineMeta) : State :=
  { s with lines := Store.put lineClear s.lines (isl * 65536 + line) m }

/-- One physical basin byte. -/
def State.basinByte (s : State) (isl adr : Nat) : Byte := Store.get basinZero s.basin (isl * 2 ^ 22 + adr)

/-- Store physical basin bytes from an address. -/
def putCells : List Host.Cell → Nat → List Byte → List Host.Cell
  | m, _, [] => m
  | m, a, b :: bs => putCells (Store.put basinZero m a b) (a + 1) bs

/-- Store bytes in the basin of an island, physically addressed. -/
def State.basinPut (s : State) (isl adr : Nat) (bs : List Byte) : State :=
  { s with basin := putCells s.basin (isl * 2 ^ 22 + adr) bs }

/-- A line that met R671: kind (0 invalid read, 1 foreign read, 2 foreign write), context-relative page, line of the page. -/
abbrev LineFault := Nat × Nat × Nat

/-- What a read of basin lines gives: the bytes, the lines that met R671 in ascending order, and poison (R843). -/
structure BasinRead where
  bytes : List Byte
  faults : List LineFault
  poison : Bool
  deriving DecidableEq, Repr

/-- Read one context-relative line (R671). -/
def State.readLine (s : State) (isl ctx vline : Nat) : BasinRead :=
  match s.physLine isl ctx vline with
  | none => ⟨List.replicate 64 0, [(1, vline / 64, vline % 64)], false⟩
  | some l =>
    let m := s.lineAt isl l
    if m.valid then ⟨tabulate 64 fun i => s.basinByte isl (l * 64 + i), [], m.poison⟩
    else ⟨List.replicate 64 0, [(0, vline / 64, vline % 64)], false⟩

/-- Read `n` lines. -/
def State.readLines (s : State) (isl ctx vline : Nat) : Nat → BasinRead
  | 0 => ⟨[], [], false⟩
  | n + 1 =>
    let a := s.readLine isl ctx vline
    let b := s.readLines isl ctx (vline + 1) n
    ⟨a.bytes ++ b.bytes, a.faults ++ b.faults, a.poison || b.poison⟩

/-- Read `n` bytes from a context-relative byte address. -/
def State.readBytes (s : State) (isl ctx adr n : Nat) : BasinRead :=
  let r := s.readLines isl ctx (adr / 64) ((adr % 64 + n + 63) / 64)
  { r with bytes := (r.bytes.drop (adr % 64)).take n }

/-- Write part or all of one context-relative line (R671, R672, R839): `off` and bytes within the line. -/
def State.writeLine (s : State) (isl ctx vline off : Nat) (bs : List Byte) (poison : Bool) : State × List LineFault :=
  match s.physLine isl ctx vline with
  | none => (s, [(2, vline / 64, vline % 64)])
  | some l =>
    let m := s.lineAt isl l
    let whole := off = 0 && bs.length = 64
    let s := if m.valid || whole then s else s.basinPut isl (l * 64) (List.replicate 64 0)
    let s := s.basinPut isl (l * 64 + off) bs
    (s.setLine isl l ⟨true, if whole then poison else (m.valid && m.poison) || poison⟩, [])

/-- Write bytes from a context-relative byte address, line by line. `fuel`: lines at most. -/
def State.writeFrom (s : State) (isl ctx adr : Nat) (bs : List Byte) (poison : Bool) : Nat → State × List LineFault
  | 0 => (s, [])
  | fuel + 1 =>
    if bs.isEmpty then (s, [])
    else
      let n := 64 - adr % 64
      let (s, f) := s.writeLine isl ctx (adr / 64) (adr % 64) (bs.take n) poison
      let (s, g) := s.writeFrom isl ctx (adr + n) (bs.drop n) poison fuel
      (s, f ++ g)

/-- Write bytes from a context-relative byte address. -/
def State.writeBytes (s : State) (isl ctx adr : Nat) (bs : List Byte) (poison : Bool) : State × List LineFault :=
  s.writeFrom isl ctx adr bs poison (bs.length / 64 + 2)

/-- BASIN_FAULT word of a line fault (R697). -/
def faultWord (isl : Nat) (f : LineFault) : Nat := isl % 64 + f.2.1 % 1024 * 64 + f.1 % 4 * 65536

/-- R671, R1129: an access that met one or more invalid or foreign lines is counted, latched and raised once. The failure
of the accessing context's step is the caller's (failStep). -/
def State.noteForeign (s : State) (isl ctx : Nat) (fs : List LineFault) : State :=
  match fs with
  | [] => s
  | f :: _ =>
    let s := s.incSat (Reg.ISL_FOREIGN_CNT isl) 1
    let s := s.incSat (Reg.CTX_FOREIGN_CNT ctx) 1
    let s := s.setReg (Reg.CTX_BASIN_FAULT ctx) (BitVec.ofNat 32 (faultWord isl f))
    s.raiseC 3 isl Ev.BASIN_FOREIGN
      (some (leBytes (faultWord isl f) 4 ++ [BitVec.ofNat 8 f.2.2, BitVec.ofNat 8 (min 255 fs.length)])) ctx

/-- R670: change a page's owner tag (owner + 1, 0 untagged): every line of the page becomes invalid and clean in the same tick. -/
def State.setTag (s : State) (isl page tag : Nat) : State :=
  { s with
    tags := Store.put tagNone s.tags (isl * 1024 + page) tag
    lines := s.lines.filter fun p => !(p.1 / 64 = isl * 1024 + page) }

/-- The untagged pages of an island, lowest first. -/
def State.freePages (s : State) (isl : Nat) : List Nat :=
  (List.range 1024).filter fun p => Store.get tagNone s.tags (isl * 1024 + p) = 0

end Sys2Proof.Machine
end

