-- ==== Sys2Proof/Machine/Flash.lean ====
section
/-!
DEFINITION. The flash and its records (R1023 to R1030, R1051).
-/
namespace Sys2Proof.Machine

/-- An erased byte. -/
def flashBlank (_ : Nat) : Byte := 0xFF

/-- A flash byte. -/
def State.flashByte (s : State) (a : Nat) : Byte := Store.get flashBlank s.flash a

/-- Flash bytes from an address. -/
def State.flashBytes (s : State) (a n : Nat) : List Byte := tabulate n fun i => s.flashByte (a + i)

/-- Erase a range. -/
def State.flashErase (s : State) (a n : Nat) : State := { s with flash := s.flash.filter fun c => c.1 < a || a + n ≤ c.1 }

/-- Program bytes: a program only clears bits (R1030). -/
def State.flashProgram (s : State) (a : Nat) : List Byte → State
  | [] => s
  | b :: bs => State.flashProgram { s with flash := Store.put flashBlank s.flash a (s.flashByte a &&& b) } (a + 1) bs

/-- MAGIC of a record header. -/
def recMagic : Nat := 0x52464351

/-- R1026: a record header. -/
def recHeader (kind seq : Nat) (body extra : List Byte) : List Byte :=
  let b := leBytes recMagic 4 ++ leBytes kind 2 ++ leBytes 1 2 ++ leBytes seq 4 ++ leBytes body.length 4 ++ leBytes (crc32c body).toNat 4
    ++ padTo 40 extra
  b ++ leBytes (crc32c b).toNat 4

/-- LENGTH is right for the kind (R1031, R1039, R1042, R224). -/
def lenOk (kind n : Nat) : Bool :=
  match kind with
  | 1 => 96 ≤ n && n ≤ 2097248
  | 2 => n = 256
  | 3 => n = 64
  | 4 => n = 409856
  | _ => true

/-- R1029: the record of a slot, when its header and its CRCs are right and `own` accepts header and body: (SEQ, header, body). -/
def State.slotRec (s : State) (kind base : Nat) (own : List Byte → List Byte → Bool) : Option (Nat × List Byte × List Byte) :=
  let h := s.flashBytes base 64
  let n := leAt h 12 4
  if leAt h 0 4 != recMagic || leAt h 4 2 != kind || leAt h 6 2 != 1 || !lenOk kind n || leAt h 8 4 = 0 || leAt h 8 4 = 0xFFFFFFFF
      || leAt h 60 4 != (crc32c (h.take 60)).toNat then none
  else
    let b := s.flashBytes (base + 64) n
    if leAt h 16 4 != (crc32c b).toNat || !own h b then none else some (leAt h 8 4, h, b)

/-- R1028: SEQ a is newer than SEQ b. -/
def seqNewer (a b : Nat) : Bool := let d := (a + 2 ^ 32 - b) % 2 ^ 32; 1 ≤ d && d ≤ 2 ^ 31 - 1

/-- A slot holds a programmed byte. -/
def State.slotUsed (s : State) (base size : Nat) : Bool := s.flash.any fun c => base ≤ c.1 && c.1 < base + size

/-- R1029: count and report a slot that holds a programmed byte and is not accepted. -/
def State.noteTorn (s : State) (kind base size : Nat) (own : List Byte → List Byte → Bool) : State :=
  if s.slotUsed base size && (s.slotRec kind base own).isNone then
    (s.incSat Reg.BOOT_REC_REJ_CNT 1).raise 16 0 Ev.BOOT_REC_TORN none 255 255
  else s

/-- The accepted record of a pair with the newer SEQ, and its slot (0 or 1). -/
def State.pairRec (s : State) (kind b0 b1 : Nat) (own : List Byte → List Byte → Bool) : Option (Nat × Nat × List Byte × List Byte) :=
  match s.slotRec kind b0 own, s.slotRec kind b1 own with
  | none, none => none
  | some x, none => some (0, x)
  | none, some y => some (1, y)
  | some x, some y => if seqNewer y.1 x.1 then some (1, y) else some (0, x)

/-- R1029: read a pair. -/
def State.readPair (s : State) (kind b0 b1 size : Nat) (own : List Byte → List Byte → Bool) :
    State × Option (Nat × Nat × List Byte × List Byte) :=
  (((s.noteTorn kind b0 size own).noteTorn kind b1 size own), s.pairRec kind b0 b1 own)

/-- R1027: the slot a writer erases (0 or 1) and the SEQ it sets. -/
def State.writeSlot (s : State) (kind b0 b1 : Nat) (own : List Byte → List Byte → Bool) : Nat × Nat :=
  let nxt (q : Nat) : Nat := if q + 1 = 0xFFFFFFFF then 1 else (q + 1) % 2 ^ 32
  match s.pairRec kind b0 b1 own with
  | none => (0, 1)
  | some (i, q, _) => (1 - i, nxt q)

/-- Any header and body. -/
def anyRec (_ _ : List Byte) : Bool := true

/-- R1025: the first waiting writer takes the flash-access lease, erases its slot and begins to program. -/
def State.flashStart (s : State) : State :=
  match s.flashq with
  | [] => s
  | w :: ws =>
    if w.slot.isSome then s
    else
      let (i, q) := s.writeSlot w.kind w.base0 w.base1 anyRec
      -- R1034: a firmware image goes to the slot that is not in use.
      let i := if w.kind = 1 then 1 - s.getF Reg.BOOT_STS 9 1 else i
      let s := { s with flashq := { w with slot := some (i, q) } :: ws }
      let s := s.lease { res := 6, unit := 0, kind := if w.holder = 8 then 3 else 2, owner := w.holder % 8, expiry := s.now + 2 ^ 23 }
      s.flashErase (if i = 0 then w.base0 else w.base1) w.size

/-- A flash write is requested (R1025). -/
def State.flashAsk (s : State) (w : FlashWrite) : State := ({ s with flashq := s.flashq ++ [w] }).flashStart

/-- The first write leaves: its lease ends and the next one starts. -/
def State.flashNext (s : State) : State :=
  ({ s with flashq := s.flashq.drop 1, leases := s.leases.filter fun l => l.res != 6 }).flashStart

/-- R1027: body, then header, are in the slot. -/
def State.flashFinish (s : State) (w : FlashWrite) : State :=
  match w.slot with
  | none => s
  | some (i, q) =>
    let b := if i = 0 then w.base0 else w.base1
    (s.flashProgram (b + 64) w.body).flashProgram b (recHeader w.kind q w.body w.extra)

/-- R1030, R1051: a write cut short leaves its slot torn: whole pages up to a free point, then a page whose bits read free where the
byte being programmed has 0; the header is not programmed. -/
def State.flashTear (s : State) (w : FlashWrite) : State :=
  match w.slot with
  | none => s
  | some (i, _) =>
    let b := if i = 0 then w.base0 else w.base1
    let (d, s) := s.nextDraw
    let n := d.toNat % (w.body.length / 256 + 1)
    let page := tabulate (w.body.drop (256 * n)).length fun k =>
      if k < 256 then (w.body.getD (256 * n + k) 0xFF) ||| Config.cryptoByte (0x2000000 + s.draws) k else 0xFF
    s.flashProgram (b + 64) (w.body.take (256 * n) ++ page)

end Sys2Proof.Machine
end

