-- ==== Sys2Proof/Machine/Tickets.lean ====
section
/-!
DEFINITION. Ticket tables, launch conditions, the sluice's grant, step failure and retirement (R475 to R495, R516 to R520,
R526 to R551).
-/
namespace Sys2Proof.Machine

/-- A clear flag. -/
def flagZero (_ : Nat) : Nat := 0
/-- A free ticket entry. -/
def tkFree (_ : Nat) : Ticket := {}
/-- No job. -/
def jobNone (_ : Nat) : Job := {}
/-- No plan. -/
def planNone (_ : Nat) : Plan := {}
/-- A context beyond its page, before any CREATE. -/
def ctxNone (_ : Nat) : CtxRec := {}

/-- The ticket at a key, island × 256 + index. -/
def State.tkAt (s : State) (k : Nat) : Ticket := Store.get tkFree s.tickets k
/-- The ticket of an island. -/
def State.tk (s : State) (isl idx : Nat) : Ticket := s.tkAt (isl * 256 + idx)
/-- Store a ticket. -/
def State.setTk (s : State) (k : Nat) (t : Ticket) : State := { s with tickets := Store.put tkFree s.tickets k t }
/-- The job with an identifier. -/
def State.job (s : State) (j : Nat) : Job := Store.get jobNone s.jobs j
/-- Store a job. -/
def State.setJob (s : State) (j : Nat) (x : Job) : State := { s with jobs := Store.put jobNone s.jobs j x }
/-- The plan with a handle. -/
def State.plan (s : State) (h : Nat) : Plan := Store.get planNone s.plans h
/-- Store a plan. -/
def State.setPlan (s : State) (h : Nat) (p : Plan) : State := { s with plans := Store.put planNone s.plans h p }
/-- A context's record. -/
def State.cx (s : State) (c : Nat) : CtxRec := Store.get ctxNone s.ctxs c
/-- Store a context's record. -/
def State.setCx (s : State) (c : Nat) (x : CtxRec) : State := { s with ctxs := Store.put ctxNone s.ctxs c x }

/-! ## Plan header fields (R598) -/

/-- Bytes of the plan header as a number. -/
def Plan.f (p : Plan) (i n : Nat) : Nat := leAt p.hdr i n
/-- W of the plan grid. -/
def Plan.w (p : Plan) : Nat := p.f 0 1
/-- H of the plan grid. -/
def Plan.h (p : Plan) : Nat := p.f 1 1
/-- POLICY: true for SLIP. -/
def Plan.isSlip (p : Plan) : Bool := p.f 2 1 % 2 = 1
/-- MAX_SLIPS. -/
def Plan.maxSlips (p : Plan) : Nat := p.f 3 1 % 16
/-- SLIP_N. -/
def Plan.slipN (p : Plan) : Nat := p.f 4 2
/-- LAYERS. -/
def Plan.layers (p : Plan) : Nat := p.f 6 2
/-- Lines of the input rows: IN_ROWS × IN_PITCH. -/
def Plan.inLines (p : Plan) : Nat := p.f 20 2 * p.f 22 2
/-- Lines of the output rows: OUT_ROWS × OUT_PITCH. -/
def Plan.outLines (p : Plan) : Nat := p.f 26 2 * p.f 28 2
/-- STEP_TICKS. -/
def Plan.stepTicks (p : Plan) : Nat := p.f 8 4

/-- R339: the grid island of a plan island of a plan, by its partition's lower corner. -/
def State.gridIsl (s : State) (p : Plan) (pi : Nat) : Nat :=
  let d := (s.partDef p.part).getD {}
  (d.y0 + pi / max 1 p.w) * 8 + d.x0 + pi % max 1 p.w

/-- The grid islands of a plan. -/
def State.planIslands (s : State) (p : Plan) : List Nat := (List.range (p.w * p.h)).map (s.gridIsl p)

/-! ## Ticket entries -/

/-- A ticket is live (R348): issued and not yet acknowledged or retired. -/
def Ticket.live (t : Ticket) : Bool := t.state != 0

/-- R475: the 16-byte layout of an entry. -/
def Ticket.bytes (t : Ticket) : List Byte :=
  leBytes t.launch 4 ++ leBytes t.dln 2
    ++ [BitVec.ofNat 8 (t.uindex % 16 + t.uclass % 8 * 16), BitVec.ofNat 8 t.action, BitVec.ofNat 8 (t.ctx % 64),
        BitVec.ofNat 8 (t.state % 8 + b2n t.slipped * 8 + t.wait % 16 * 16)]
    ++ leBytes (min 0xFFFF t.late) 2 ++ leBytes (t.desc % 1024) 2 ++ leBytes t.step 2

/-- Bytes 0 to 3 of the payloads of TIDE_MISS, TIDE_LATE and TIDE_HANG (R496, R1127). -/
def tkHead (isl idx : Nat) (t : Ticket) : List Byte :=
  [BitVec.ofNat 8 isl, BitVec.ofNat 8 idx, BitVec.ofNat 8 (t.uclass % 8 * 16 + t.uindex % 16), BitVec.ofNat 8 t.action]

/-- Live entries of an island. -/
def State.liveCount (s : State) (isl : Nat) : Nat := (s.tickets.filter fun p => p.1 / 256 = isl).length

/-- The lowest free index of an island's table. -/
def State.freeIdx (s : State) (isl : Nat) : Option Nat :=
  (List.range 256).find? fun i => (s.tk isl i).state = 0

/-- Note the number of live tickets (TKT_LIVE, TKT_HWM). -/
def State.noteLive (s : State) (isl : Nat) : State :=
  let n := s.liveCount isl
  (s.setF (Reg.ISL_TKT_LIVE isl) 0 9 n).setF (Reg.ISL_TKT_HWM isl) 0 9 (max (s.getF (Reg.ISL_TKT_HWM isl) 0 9) n)

/-- Apply `f` to every live ticket that satisfies `p`. -/
def State.mapTk (s : State) (p : Nat → Ticket → Bool) (f : Ticket → Ticket) : State :=
  { s with tickets := s.tickets.map fun (e : Nat × Ticket) => if p e.1 e.2 then (e.1, f e.2) else e }

/-- R484: free an entry; every ticket that waited for it sees the acknowledgement at this edge. -/
def State.freeTk (s : State) (k : Nat) : State :=
  let s := s.setTk k {}
  let s := s.mapTk (fun _ t => t.deps.contains k) fun t => { t with deps := t.deps.filter (· != k), depTick := s.now }
  s.noteLive (k / 256)

/-! ## Units and launch conditions (R476, R494) -/

/-- The global tile of a tile ticket. -/
def tkTile (k : Nat) (t : Ticket) : Nat := k / 256 * 16 + t.uindex

/-- A tile carries out an action (TIL_STS.BUSY). -/
def State.tileBusy (s : State) (gt : Nat) : Bool := s.getB (Reg.TIL_STS gt) 0

/-- No DYN operation. -/
def dynNone (_ : Nat) : DynRun := {}

/-- A unit no test has touched. -/
def testNone (_ : Nat) : TestRec := {}

/-- The test record of a unit of an island. -/
def State.test (s : State) (isl u : Nat) : TestRec := Store.get testNone s.tests (isl * 32 + u)
/-- Store it. -/
def State.setTest (s : State) (isl u : Nat) (t : TestRec) : State := { s with tests := Store.put testNone s.tests (isl * 32 + u) t }

/-- P3 requests an island test (unit 19). -/
def State.askIslTest (s : State) (isl : Nat) : State :=
  let t := s.test isl 19
  if t.want || t.held then s else s.setTest isl 19 { t with want := true, due := some s.now, dueTick := s.now, deferred := false }

/-- R906: an on-demand trigger occurs on an island (bit of TST_TRIG: 0 near misses, 1 weir jump, 2 replica disagreement): one island test
per COOLDOWN_S. -/
def State.trigTest (s : State) (isl b : Nat) : State :=
  let cool := match (s.test isl 19).trig with
    | some x => decide (s.now < x + s.getF Reg.TST_TRIG 8 8 * 125000000)
    | none => false
  if !s.getB Reg.TST_CTL 1 || !s.getB Reg.TST_TRIG b || cool then s
  else (s.setTest isl 19 { s.test isl 19 with trig := some s.now }).askIslTest isl

/-- R895, R907: a test holds the tile. -/
def State.tileTested (s : State) (gt : Nat) : Bool := (s.test (gt / 16) (gt % 16)).held || (s.test (gt / 16) 19).held

/-- R177: the row that a ROWIO write names is held for a re-sense, or R198: the tile holds the calibration pattern. -/
def State.rowHeld (s : State) (gt row : Nat) : Bool :=
  let x := Store.get (fun _ => ({} : TileX)) s.tiles gt
  x.calPat || (x.held && s.getF (Reg.TIL_RFSH_PTR gt) 0 10 = row)

/-- R861, R890, R923: the tile's owner waits for a reprogramming (or a test's restore) that has not begun. -/
def State.mustReprog (s : State) (gt : Nat) : Bool := (Store.get (fun _ => ({} : TileX)) s.tiles gt).needReprog = 8

/-- The unit of a ticket is held by another launched ticket, or, for a tile, by another action or by reprogramming (R851); a run needs one of
its island's four lanes (R611), a MOVE none. -/
def State.unitBusy (s : State) (k : Nat) (t : Ticket) : Bool :=
  (t.uclass != 3 && s.tickets.any fun e => e.1 / 256 = k / 256 && e.1 != k && e.2.uclass = t.uclass && e.2.uindex = t.uindex
      && (e.2.state = 3 || e.2.state = 4))
    || (t.uclass = 3 && t.uindex != 4 && 4 ≤ (s.tickets.filter fun e => e.1 / 256 = k / 256 && e.1 != k && e.2.uclass = 3
      && e.2.uindex != 4 && (e.2.state = 3 || e.2.state = 4)).length)
    || (t.uclass = 0 && (s.tileBusy (tkTile k t) || s.tileTested (tkTile k t) || s.mustReprog (tkTile k t)
      || (s.getB (Reg.ISL_REPROG_STS (k / 256)) t.uindex && !t.isRepeat && t.action != 7)
      || (t.action = 6 && s.rowHeld (tkTile k t) (t.auxA / 64 % 1024))))

/-- R628 step 5: the tile's layer has not been rewritten for the new plan of a replacement. -/
def State.swapHeld (s : State) (k : Nat) (t : Ticket) : Bool :=
  t.uclass = 0 && t.job != 0 && s.swaps.any fun w => w.new = t.plan && w.held.contains (tkTile k t)

/-- The unit of a ticket is fenced (R494, R798). -/
def State.unitFenced (s : State) (k : Nat) (t : Ticket) : Bool :=
  if t.uclass = 0 then s.tileFenced (tkTile k t) else s.islFenced (k / 256)

/-- A ticket whose input the fountain reads one tick before launch (R259, R353). -/
def Ticket.fountainFed (t : Ticket) : Bool :=
  t.action = 1 || t.action = 2 || t.action = 3 || t.action = 0x31

/-- R353, R482: every ticket it depends on has acknowledged, early enough. -/
def Ticket.depsDone (t : Ticket) (now : Nat) : Bool :=
  t.deps.isEmpty && (!t.fountainFed || t.isRepeat || t.depTick = 0 || t.depTick < now)

/-- R155: the claim class of a tile ticket (2 plan compute, 3 row writes); 0 for other units. -/
def Ticket.rank (t : Ticket) : Nat := if t.uclass != 0 then 0 else if t.action = 6 || t.action = 7 || t.action = 0x32 then 3 else 2

/-- R375, R155: another ready ticket of the same unit comes first: its claim class, then earlier launch tick, then lower index. -/
def State.outranked (s : State) (k : Nat) (t : Ticket) : Bool :=
  s.tickets.any fun e => e.1 / 256 = k / 256 && e.1 != k && e.2.uclass = t.uclass && e.2.uindex = t.uindex
    && !(t.uclass = 3 && t.uindex = 4) && (e.2.state = 1 || e.2.state = 2) && e.2.planned ≤ s.now && e.2.depsDone s.now
    && (e.2.rank < t.rank || (e.2.rank = t.rank && (e.2.planned < t.planned || (e.2.planned = t.planned && e.1 < k))))

/-- A DESCALE's acknowledgement to work on: its pulse has acknowledged and every spill read has ended (R265, R334). -/
def State.ackFor (s : State) (t : Ticket) : Option AckRec :=
  s.acks.find? fun a => a.job = t.job && a.desc = t.desc && a.iter = t.iter && a.phase = t.phase && a.repKey = 0
    && a.isRepeat = t.isRepeat && a.spills.all fun e => e.st != 0

/-- The gate of a context is closed (R628, R692, R934, R1045). -/
def State.gateShut (s : State) (c : Nat) : Bool := (s.cx c).gateClosed || s.rungGate c || s.boot.changing.contains (s.ctxPart c)

/-- The ticket is a DESCALE. -/
def Ticket.isDescale (t : Ticket) : Bool := t.action = 0x10 && leAt t.rop 0 1 = 1

/-- R545: a ticket is ready: its launch tick has arrived, its unit is free, it wins its unit, its producers have acknowledged. -/
def State.ready (s : State) (k : Nat) (t : Ticket) : Bool :=
  (t.state = 1 || t.state = 2) && decide (t.launch ≤ s.now) && !s.launchStop (k / 256) (t.action = 7 && t.uindex != 4) && t.depsDone s.now && !s.swapHeld k t && !s.unitBusy k t && !s.outranked k t
    && (!t.isDescale || (s.ackFor t).isSome)

/-- The cause of a launch wait (WAIT of R475): 3 dependency, 1 unit busy. -/
def State.waitCause (s : State) (k : Nat) (t : Ticket) : Nat := if t.depsDone s.now && !s.swapHeld k t then 1 else 3

/-! ## Drops (R526 to R551) -/

/-- Ticks of a rill operation at the slow corner (R357, R427). -/
def ropTicks (ropc : Nat) : Nat :=
  match ropc with
  | 0x07 => 2 | 0x08 => 2 | 0x09 => 4 | 0x0A => 4 | _ => 1

/-- R527: the array and core drops of a ticket at launch; runs are granted row by row (R528). A pulse or phase on a stale tile
costs nothing (R213). -/
def State.cost (s : State) (k : Nat) (t : Ticket) : Nat × Nat :=
  let stale := t.uclass = 0 && s.getB (Reg.TIL_STS (tkTile k t)) 7
  match t.action with
  | 0x01 => if stale then (0, 0) else (40, 8)
  | 0x02 => if stale then (0, 0) else (52, 12)
  | 0x03 => if stale then (0, 0) else (40, 8)
  | 0x04 => (1, 1)
  | 0x05 => (1, 1)
  | 0x06 => (1, 0)
  | 0x10 => (0, 6 * ropTicks (leAt t.rop 0 1))
  | 0x20 => (0, (t.extent + 7) / 8)
  | 0x31 => (40, 8)
  | _ => (0, 0)

/-- An unlisted account. The ROM default profile gives partition 0 the whole budget (R532 to R534, R1041). -/
def acctReset (p : Nat) : Acct :=
  if p = 0 then { lvlA := 45000000, lvlC := 114688, rateA := 2623, rateC := 1792, depthA := 45000000, depthC := 114688 } else {}

/-- The accounts of a partition. -/
def State.ac (s : State) (p : Nat) : Acct := Store.get acctReset s.acct p
/-- Store a partition's accounts. -/
def State.setAc (s : State) (p : Nat) (a : Acct) : State := { s with acct := Store.put acctReset s.acct p a }

/-- R536: the account an island draws from: its partition's, or the lowest-numbered partition's. -/
def State.acctOf (s : State) (isl : Nat) : Nat := (s.partOf isl).getD 0

/-- R545: the account covers the cost on both rails, within the window allowance where capped. -/
def Acct.covers (a : Acct) (c : Nat × Nat) : Bool :=
  c.1 ≤ a.lvlA && c.2 ≤ a.lvlC && (!a.capA || a.wA + c.1 ≤ a.allowA) && (!a.capC || a.wC + c.2 ≤ a.allowC)

/-- R545: take granted drops. -/
def Acct.take (a : Acct) (now : Nat) (c : Nat × Nat) : Acct :=
  { a with
    lvlA := a.lvlA - c.1, lvlC := a.lvlC - c.2
    wA := if a.capA then a.wA + c.1 else a.wA
    wC := if a.capC then a.wC + c.2 else a.wC
    recent := ((now, c.1) :: a.recent).filter fun r => now < r.1 + 1024 }

/-- Grant drops of an island's account outright and count them (GRANT_ARR, GRANT_CORE); `none`: the account does not cover
them, or THERMTRIP_N is asserted (R822). -/
def State.grant (s : State) (isl : Nat) (c : Nat × Nat) : Option State :=
  let p := s.acctOf isl
  let a := s.ac p
  if c = (0, 0) then some s
  else if s.slu.tripped || !a.covers c then none
  else
    let s := s.setAc p (a.take s.now c)
    let s := s.add64 Reg.SLU_GRANT_ARR_LO Reg.SLU_GRANT_ARR_HI c.1
    some (s.add64 Reg.SLU_GRANT_CORE_LO Reg.SLU_GRANT_CORE_HI c.2)

/-- Grant drops, but none for a fenced tile (whose action is a no-op). -/
def State.grantUnless (s : State) (fenced : Bool) (isl : Nat) (c : Nat × Nat) : Option State :=
  if fenced then some s else s.grant isl c

/-- R565: A_RATE in 1/16 drop per tick and A_RES in drops. -/
def State.avail (s : State) (p : Nat) : Nat × Nat :=
  let a := s.ac p
  let used := (a.recent.filter fun r => s.now < r.1 + 1024).foldl (fun n r => n + r.2) 0
  ((a.rateA * 1024 - used) / 64, if a.capA then min a.lvlA (a.allowA - a.wA) else a.lvlA)

/-- R550: which rail and which cause a wait for drops has: (rail, cause) of R551. -/
def Acct.shortOf (a : Acct) (c : Nat × Nat) : Nat × Nat :=
  if a.lvlA < c.1 then (0, 0) else if a.capA && a.allowA < a.wA + c.1 then (0, 1)
  else if a.lvlC < c.2 then (1, 0) else (1, 1)

/-- R550: the wait is a stretch: its rail is capped. -/
def Acct.isStretch (a : Acct) (c : Nat × Nat) : Bool := if (a.shortOf c).1 = 0 then a.capA else a.capC

/-- R477, R548, R550: a ticket waits for drops; stretch or dry wait, counted when its wait begins and logged once per cap window. -/
def State.waitDrops (s : State) (k : Nat) (t : Ticket) (stretch : Bool) (rail cause : Nat) : State :=
  let p := s.acctOf (k / 256)
  let a := s.ac p
  let first := t.dropWait.isNone
  let s := s.setTk k { t with state := 2, wait := 2, dropWait := some (t.dropWait.getD s.now), dropStretch := stretch }
  let s := if first then
      (if stretch then s.incSatF (Reg.SLU_PWAIT p) 0 16 1 else s.incSatF (Reg.SLU_PWAIT p) 16 16 1) else s
  let pl := [BitVec.ofNat 8 rail, BitVec.ofNat 8 cause] ++ leBytes s.now 4 ++ [BitVec.ofNat 8 (k / 256), BitVec.ofNat 8 (k % 256)]
    ++ leBytes (if rail = 0 then a.rateA else a.rateC) 2
  if stretch && !a.stretchLogged then
    (s.setAc p { s.ac p with stretchLogged := true }).raise 7 0 Ev.SLUICE_STRETCH (some pl) t.ctx p
  else if !stretch && !a.dryLogged then
    (s.setAc p { s.ac p with dryLogged := true }).raise 7 0 Ev.SLUICE_DRY (some pl) t.ctx p
  else s

/-- R477, R516, R478: launch a ticket at this edge: STATE 3, its deadline, its lateness; TIDE_LATE when it waited.
`noAct`: its unit is fenced and starts no action (R494). -/
def State.launchTk (s : State) (k : Nat) (t : Ticket) (noAct : Bool) : State :=
  let late := s.now - t.launch
  -- R611: a run takes the lowest free lane of its island.
  let lane := ((List.range 4).find? fun l => !(s.tickets.any fun e => e.1 / 256 = k / 256 && e.1 != k && e.2.uclass = 3
    && e.2.uindex = l && (e.2.state = 3 || e.2.state = 4))).getD 0
  let t := if t.uclass = 3 && t.uindex != 4 then { t with uindex := lane } else t
  let t' := { t with
    state := 3, late := min 0xFFFF late, deadline := s.now + t.dln, noAct := noAct, launch := s.now
    wait := if late = 0 then 0 else t.wait }
  let s := s.setTk k t'
  if late = 0 then s
  else
    let s := s.incSat Reg.TID_LATE_CNT 1
    s.raiseC 8 0 Ev.TIDE_LATE
      (some (tkHead (k / 256) (k % 256) t' ++ leBytes t'.late 2 ++ [BitVec.ofNat 8 t.wait, 0] ++ leBytes t.step 2)) t.ctx

/-- R546: the grant order: claim rank (rill and strait tickets count as rank 2), launch tick, island and index. -/
def grantKey (k : Nat) (t : Ticket) : Nat × Nat × Nat := (if t.rank = 0 then 2 else t.rank, t.launch, k)

/-- Insertion in grant order. -/
def insertGrant (x : (Nat × Nat × Nat) × Nat) : List ((Nat × Nat × Nat) × Nat) → List ((Nat × Nat × Nat) × Nat)
  | [] => [x]
  | y :: ys =>
    let lt := x.1.1 < y.1.1 || (x.1.1 = y.1.1 && (x.1.2.1 < y.1.2.1 || (x.1.2.1 = y.1.2.1 && x.1.2.2 < y.1.2.2)))
    if lt then x :: y :: ys else y :: insertGrant x ys

/-- The tickets of a partition's account whose launch tick has arrived, in grant order. -/
def State.candidates (s : State) (p : Nat) : List Nat :=
  ((s.tickets.filter fun e => (e.2.state = 1 || e.2.state = 2) && decide (e.2.launch ≤ s.now) && s.acctOf (e.1 / 256) = p).foldl
    (fun l e => insertGrant (grantKey e.1 e.2, e.1) l) []).map (·.2)

/-- R476, R494, R545 to R550: one ticket of the pass: it launches, or it waits with its cause; a wait for drops blocks the
partition's later tickets at this edge with its kind. -/
def State.visit (b : State × Option (Bool × Nat × Nat)) (k : Nat) : State × Option (Bool × Nat × Nat) :=
  let s := b.1
  let t := s.tkAt k
  if !s.ready k t then (s.setTk k { t with state := 2, wait := s.waitCause k t }, b.2)
  else if s.unitFenced k t then (s.launchTk k t true, b.2)
  else match b.2 with
    | some w => (s.waitDrops k t w.1 w.2.1 w.2.2, b.2)
    | none =>
      match s.grant (k / 256) (s.cost k t) with
      | some s' => (s'.launchTk k t false, none)
      | none =>
        let a := s.ac (s.acctOf (k / 256))
        let sh := a.shortOf (s.cost k t)
        let w := (a.isStretch (s.cost k t), sh.1, sh.2)
        (s.waitDrops k t w.1 w.2.1 w.2.2, some w)

/-- R545: grant to the ready tickets of a partition in grant order at this edge. -/
def State.grantPass (s : State) (p : Nat) : State := ((s.candidates p).foldl State.visit (s, none)).1

/-- A launch at this edge happens in its partition's grant order. -/
def State.tryLaunch (s : State) (k : Nat) : State :=
  let t := s.tkAt k
  if !(t.state = 1 || t.state = 2) || s.now < t.launch then s else s.grantPass (s.acctOf (k / 256))

/-! ## Steps that fail (R489 to R495) -/

/-- R1127: payload of TIDE_STEP_FAIL. -/
def stepFailPayload (step now cause isl idx : Nat) : List Byte :=
  leBytes step 2 ++ leBytes now 4 ++ [BitVec.ofNat 8 cause, BitVec.ofNat 8 isl, BitVec.ofNat 8 idx]

/-- R493, R494: the step of a job fails at this edge with a completion status: unlaunched tickets retire, launched ones run on
and their results are discarded, tickets of fenced units whose action never started retire. -/
def State.failStep (s : State) (j status cause isl idx : Nat) : State :=
  let jb := s.job j
  if jb.st != 3 || jb.failed then s
  else
    let s := s.setJob j { jb with failed := true, status := status }
    let s := s.mapTk (fun _ t => t.job = j && (t.state = 1 || t.state = 2 || ((t.state = 3 || t.state = 4) && t.noAct)))
      fun t => { t with state := 5 }
    let s := s.mapTk (fun _ t => t.job = j && (t.state = 3 || t.state = 4)) fun t => { t with discard := true }
    s.raiseC 8 0 Ev.TIDE_STEP_FAIL (some (stepFailPayload jb.step s.now cause isl idx)) jb.fn

/-- Fail the step of a ticket. -/
def State.failTk (s : State) (k status cause : Nat) : State :=
  s.failStep (s.tkAt k).job status cause (k / 256) (k % 256)

/-- R489, R495: a policy slip of a step at deadline edge D. -/
def State.slipStep (s : State) (j d isl : Nat) : State :=
  let jb := s.job j
  let n := (s.plan jb.plan).slipN
  let jb' := { jb with slip := jb.slip + n, slips := jb.slips + 1, slipEdge := some d, origin := jb.origin }
  let s := s.setJob j jb'
  let s := s.mapTk (fun _ t => t.job = j && (t.state = 1 || t.state = 2)) fun t =>
    { t with launch := t.launch + n, planned := t.planned + n, slipped := true }
  let s := s.mapTk (fun _ t => t.job = j && (t.state = 3 || t.state = 4)) fun t =>
    { t with deadline := t.deadline + n, slipped := true, state := 3 }
  let p := s.plan jb.plan
  let s := s.setPlan jb.plan { p with lastSlip := p.lastSlip + n }
  let s := s.incSat Reg.TID_SLIP_CNT 1
  s.raiseC 8 0 Ev.TIDE_SLIP
    (some (leBytes jb.step 2 ++ leBytes n 2 ++ leBytes d 4 ++ [BitVec.ofNat 8 jb'.slips, BitVec.ofNat 8 isl])) jb.fn

/-! ## The end of a job, poison and teardown requests (R694, R844, R845) -/

/-- A job ends: its completion may be written (R736). -/
def State.endJob (s : State) (j status : Nat) : State :=
  let jb := s.job j
  if jb.st = 0 || 5 ≤ jb.st then s
  else { s.setJob j { jb with st := 5, status := if jb.status = 0 then status else jb.status } with ends := s.ends ++ [j] }

/-- R684: P0 draws a new CHALLENGE for a context. -/
def State.newChallenge (s : State) (c : Nat) : State :=
  let (d, s) := s.nextDraw
  s.set64 (Reg.CTX_CHALLENGE_LO c) (Reg.CTX_CHALLENGE_HI c) d.toNat

/-- The vault lease is held for a context's install. -/
def State.installing (s : State) (c : Nat) : Bool := s.leases.any fun l => l.res = 5 && l.owner = c

/-- R683, R684: an install ends without a key: the slot stays empty, the error is recorded, CHALLENGE is drawn again, the lease ends. -/
def State.installFail (s : State) (c err : Nat) : State :=
  let s := { s with leases := s.leases.filter fun l => !(l.res = 5 && l.owner = c) }
  let s := (s.setCx c { s.cx c with installWait := false }).setF (Reg.CTX_STS c) 8 8 err
  (s.newChallenge c).raiseC 19 c Ev.CTX_KEY_FAIL none c

/-- R692 step 1, R694: teardown starts: the state becomes CLOSING, its gate closes and its cause is kept. A context already
CLOSING keeps its first cause (R708, R709). An install of the context fails with LEASE_LOST (R707). -/
def State.startTeardown (s : State) (c cause : Nat) : State :=
  let st := s.getF (Reg.CTX_STS c) 0 2
  if st = 0 || st = 3 then s
  else
    let s := if s.installing c || (s.cx c).installWait then s.installFail c 10 else s
    let s := s.setF (Reg.CTX_STS c) 0 2 3
    let s := s.setCx c { s.cx c with gateClosed := true, closeCause := cause }
    -- R692 step 2: steps in progress fail as under R493; the other jobs end (R770).
    let s := (s.jobs.filter fun e => e.2.fn = c && e.2.st = 3).foldl (fun s e => s.failStep e.1 11 4 0xFF 0xFF) s
    let s := { s with imports := s.imports.filter fun m => m.ctx != c }
    (s.jobs.filter fun e => e.2.fn = c && e.2.st ≤ 2).foldl (fun s e => s.endJob e.1 11) s

/-- R845: a unit consumed poisoned data on a ticket's behalf. -/
def State.consumePoison (s : State) (isl ctx j : Nat) : State :=
  let s := s.incSat (Reg.ISL_POISON_USE_CNT isl) 1
  if s.getF (Reg.CTX_STS ctx) 0 2 = 3 then s
  else
    let s := s.raiseC 19 ctx Ev.CTX_POISON none ctx
    let s := s.failStep j 6 4 isl 0xFF
    let s := s.setCx ctx { s.cx ctx with poisonJob := j }
    s.startTeardown ctx 3

end Sys2Proof.Machine
end

