-- ==== Sys2Proof/Machine/Tile.lean ====
section
/-!
DEFINITION. The crossbar tile (chapters 02 and 03): rows and their terms, the column map, ideal counts, the checksum
comparison, row reads and writes, release.
-/
namespace Sys2Proof.Machine

/-- A row that is not valid. -/
def rowNone (_ : Nat) : RowRec := {}
/-- A tile at power-up. -/
def tileNone (_ : Nat) : TileX := {}
/-- A trim at power-up (R226). -/
def trimZero (_ : Nat) : Nat := 0

/-- A row of a tile. -/
def State.row (s : State) (gt r : Nat) : RowRec := Store.get rowNone s.rows (gt * 1024 + r)
/-- Store a row. -/
def State.setRow (s : State) (gt r : Nat) (x : RowRec) : State := { s with rows := Store.put rowNone s.rows (gt * 1024 + r) x }
/-- A tile beyond its page. -/
def State.tx (s : State) (gt : Nat) : TileX := Store.get tileNone s.tiles gt
/-- Update a tile. -/
def State.updTx (s : State) (gt : Nat) (f : TileX → TileX) : State := { s with tiles := Store.upd tileNone s.tiles gt f }

/-- Numbers of the valid rows of a tile. -/
def State.validRows (s : State) (gt : Nat) : List Nat :=
  (s.rows.filter fun p => p.1 / 1024 = gt && p.2.valid).map fun p => p.1 % 1024

/-! ## Column roles (R45 to R54) -/

/-- s / 64 rounded to the nearest integer, a half toward zero (R47). -/
def div64Near (s : Int) : Int := if 0 ≤ s then (s + 31) / 64 else -((-s + 31) / 64)

/-- R47: the checksum level of one group of 64 levels. -/
def cksLevel (grp : List Byte) : Byte :=
  BitVec.ofNat 8 (32 + div64Near (grp.foldl (fun (a : Int) b => a + (b.toNat : Int) - 32) 0)).toNat

/-- The eight checksum levels of 512 data levels. -/
def cksLevels (d : List Byte) : List Byte := tabulate 8 fun k => cksLevel ((d.drop (64 * k)).take 64)

/-- R49, R52, R120: the 528 levels of a row from its data levels: checksums, references, spares by the pending map, else by the
map in effect. -/
def TileX.complete (x : TileX) (d : List Byte) : List Byte :=
  let base := d ++ cksLevels d
  base ++ List.replicate 4 32#8 ++ tabulate 4 fun n =>
    match (at0 none x.mapNext n).or (at0 none x.map n) with
    | some c => at0 32#8 base c
    | none => 32#8

/-- R51: deliver spare values in place of those of the columns they replace. -/
def substitute {α : Type} (d : α) (m : List (Option Nat)) (l : List α) : List α :=
  (List.range 4).foldl (fun l n => match at0 none m n with | some c => setAt l c (at0 d l (524 + n)) | none => l) l

/-- R135: the row term. -/
def rowTerm (r : Nat) (lv : List Byte) : DWord := crc64 (BitVec.ofNat 8 r :: BitVec.ofNat 8 (r / 256) :: lv)

/-- Replace elements named by (index, value) pairs. -/
def override {α : Type} (l : List α) (dv : List (Nat × α)) : List α := dv.foldl (fun l p => setAt l p.1 p.2) l

/-! ## Range factors and ideal counts (R55 to R67, R76 to R81) -/

/-- Drive of an RDF8 byte (R55, R56). -/
def rdf8 (b : Byte) : Int :=
  let m : Int := (b.toNat % 32 * 2 ^ (b.toNat / 32 % 4) : Nat)
  if b.toNat / 128 = 1 then -m else m

/-- Column c is replaced by a spare in effect. -/
def TileX.replaced (x : TileX) (c : Nat) : Bool := x.map.contains (some c)

/-- R63: the range factor of a data column from its gain step; a replaced column delivers its spare's count, whose factor is 1
(log entry 20). -/
def State.gData (s : State) (gt c : Nat) : Nat :=
  if (s.tx gt).replaced c then 1 else 2 ^ s.getF (Reg.TIL_GAINSTEP gt (c / 16)) (2 * (c % 16)) 2

/-- R63: the largest factor of a group, replaced columns excluded. -/
def State.gGroup (s : State) (gt k : Nat) : Nat :=
  (List.range 64).foldl (fun g i => let c := 64 * k + i; if (s.tx gt).replaced c then g else max g (s.gData gt c)) 1

/-- The range factors of all 528 columns. -/
def State.gAll (s : State) (gt : Nat) : List Nat :=
  tabulate 512 (s.gData gt) ++ tabulate 8 (fun k => if (s.tx gt).replaced (512 + k) then 1 else s.gGroup gt k) ++ List.replicate 8 1

/-- CK_GAIN (R105): derived gain steps of the checksum columns. -/
def State.ckGain (s : State) (gt : Nat) : Nat :=
  (List.range 8).foldl (fun a k =>
    let g := s.gGroup gt k
    a + (if g = 8 then 3 else if g = 4 then 2 else if g = 2 then 1 else 0) * 4 ^ k) 0

/-- Driven rows of a pulse: drive and levels of every valid row with a non-zero drive. -/
def State.driven (s : State) (gt : Nat) (drives : List Byte) : List (Int × List Byte) :=
  (s.rows.filter fun p => p.1 / 1024 = gt && p.2.valid).filterMap fun p =>
    let d := rdf8 (at0 0 drives (p.1 % 1024))
    if d = 0 then none else some (d, p.2.levels)

/-- R64, R65: the ideal count of a column sum. -/
def idealCount (ext : Bool) (g : Nat) (sum : Int) : Int :=
  if ext then clampI 0 1023 (512 + sum.tdiv (64 * g)) else clampI 0 63 (32 + sum.tdiv (1024 * g))

/-- Analogue count errors of an action, by column or converter (R98; log entry 2). -/
abbrev CountErrs := List (Nat × Int)

/-- The error at a position. -/
def CountErrs.at (e : CountErrs) (i : Nat) : Int := (e.find? fun p => p.1 = i).elim 0 (·.2)

/-- R64, R51: the 528 counts that a pulse delivers. -/
def State.pulseCounts (s : State) (gt : Nat) (drives : List Byte) (ext : Bool) (errs : CountErrs) : List Nat :=
  let rows := s.driven gt drives
  let g := s.gAll gt
  let top : Int := if ext then 1023 else 63
  substitute 0 (s.tx gt).map (tabulate 528 fun c =>
    let ref := 520 ≤ c && c < 524
    let sum := if ref then 0 else rows.foldl (fun (a : Int) r => a + ((at0 32#8 r.2 c).toNat - 32 : Int) * r.1) 0
    (clampI 0 top (idealCount ext (at0 1 g c) sum + errs.at c)).toNat)

/-- R77: the column drives of a transpose read, 528 of them. -/
def TileX.trnDrives (x : TileX) (codes : List Byte) : List Int :=
  let base : List Int := tabulate 512 (fun c => if x.replaced c then 0 else rdf8 (at0 0 codes c)) ++ List.replicate 12 0
  base ++ tabulate 4 fun n => match at0 none x.map n with
    | some c => if c < 512 then rdf8 (at0 0 codes c) else 0
    | none => 0

/-- R78, R80, R678: the 257 counts of transpose phase p: rows 4i + p, then the reference row. -/
def State.phaseCounts (s : State) (gt p : Nat) (codes : List Byte) (errs : CountErrs) : List Nat :=
  let d := (s.tx gt).trnDrives codes
  let gT := 2 ^ s.getF (Reg.TIL_TRN_CFG gt) 0 2
  let ref := (clampI 0 63 (32 + errs.at 256)).toNat
  tabulate 256 (fun i =>
    let r := s.row gt (4 * i + p)
    if r.valid then
      let sum := (r.levels.zip d).foldl (fun (a : Int) q => a + ((q.1.toNat : Int) - 32) * q.2) 0
      (clampI 0 63 (clampI 0 63 (32 + sum.tdiv (512 * gT)) + errs.at i)).toNat
    else ref) ++ [ref]

/-- R66: the column reference of a column with range factor `g` from its reference column's count. -/
def countRef (ext : Bool) (cr g : Nat) : Int :=
  let b : Int := if ext then 512 else 32
  b + ((cr : Int) - b).tdiv g

/-- R48: the reference column of a data or checksum column. -/
def refCol (c : Nat) : Nat := if c < 512 then c / 128 else (c - 512) / 2

/-! ## The comparison (R69 to R75, R122, R123) -/

/-- The outcome of comparing one pulse: groups failed, near misses, groups skipped, reference columns out of range. -/
structure CkResult where
  miss : Nat := 0
  near : Nat := 0
  skip : Nat := 0
  refBad : Nat := 0
  deriving DecidableEq, Repr

/-- R69: D of a group, with whole range factors. -/
def groupDiff (ext : Bool) (counts g : List Nat) (k : Nat) : Int :=
  let term (c : Nat) : Int := ((at0 0 counts c : Nat) : Int) - countRef ext (at0 0 counts (520 + refCol c)) (at0 1 g c)
  (List.range 64).foldl (fun a i => a + term (64 * k + i) * ((at0 1 g (64 * k + i) : Nat) : Int)) 0
    - 64 * term (512 + k) * ((at0 1 g (512 + k) : Nat) : Int)

/-- R72: the group holds a count at the end of its range. -/
def groupClipped (ext : Bool) (counts : List Nat) (k : Nat) : Bool :=
  let top := if ext then 1023 else 63
  let edge (c : Nat) : Bool := at0 1 counts c = 0 || at0 1 counts c = top
  ((List.range 64).any fun i => edge (64 * k + i)) || edge (512 + k)

/-- R70 to R73: the comparison of every group and the reference check. -/
def compareCounts (ext : Bool) (counts g : List Nat) (tol win : Nat) (refEn : Bool) : CkResult :=
  let scale : Int := if ext then 16 else 1
  let base : Int := if ext then 512 else 32
  (List.range 8).foldl (fun (r : CkResult) k =>
    if groupClipped ext counts k then { r with skip := r.skip + 2 ^ k }
    else
      let d := (groupDiff ext counts g k).natAbs
      let gk : Int := (at0 1 g (512 + k) : Nat)
      if (64 * tol * gk * scale : Int) < d then { r with miss := r.miss + 2 ^ k }
      else if (64 * (tol - 1) * gk * scale : Int) < d then { r with near := r.near + 1 } else r)
    { refBad := if refEn then (List.range 4).foldl (fun a r =>
        if (win : Int) * scale < ((((at0 0 counts (520 + r) : Nat) : Int) - base).natAbs : Int) then a + 2 ^ r else a) 0 else 0 }

/-- R73: the groups of the reference columns out of range. -/
def refGroups (refBad : Nat) : Nat := (List.range 4).foldl (fun a r => if refBad / 2 ^ r % 2 = 1 then a + 3 * 4 ^ r else a) 0

/-- REF_LAST word: the coarse counts of the four reference columns (R105). -/
def refLast (ext : Bool) (counts : List Nat) : Nat :=
  (List.range 4).foldl (fun a r => a + (let c := at0 0 counts (520 + r); (if ext then c / 16 else c)) % 64 * 256 ^ r) 0

/-! ## TIL page bookkeeping -/

/-- Set TIL_STS.BUSY and ACTION. -/
def State.tileAct (s : State) (gt code : Nat) : State := s.setF (Reg.TIL_STS gt) 0 4 (1 + 2 * code)

/-- TIL_STS.ACTION code of a ticket action (R104, R475). -/
def actCode (a : Nat) : Nat :=
  match a with
  | 1 => 1 | 2 => 2 | 3 => 3 | 4 => 5 | 5 => 5 | 6 => 4 | 0x31 => 1 | _ => 4

/-- A row operation is in progress on the tile (R164). -/
def State.inRowOp (s : State) (gt : Nat) : Bool :=
  s.tileBusy gt && 4 ≤ s.getF (Reg.TIL_STS gt) 1 3

/-- The delay line is locked. -/
def State.locked (s : State) (gt : Nat) : Bool := s.getB (Reg.TIL_STS gt) 5

/-- R94: raise TIL_TUNIT_UNLOCK with an action code. -/
def State.raiseUnlock (s : State) (gt code ctx : Nat) : State :=
  s.raiseC 4 gt Ev.TIL_TUNIT_UNLOCK (some [BitVec.ofNat 8 code]) ctx

/-- PERIOD of a tile (R145). -/
def State.period (s : State) (gt : Nat) : Nat := if s.getB (Reg.TIL_RFSH_STS gt) 0 then 61 else 122

/-- Age of a row (R136, R152). -/
def State.rowAge (s : State) (r : RowRec) : Nat := s.now - r.stamp

/-- The oldest valid row of a tile and its age: (age, row); ties give the lowest row. -/
def State.oldest (s : State) (gt : Nat) : Option (Nat × Nat) :=
  (s.rows.filter fun p => p.1 / 1024 = gt && p.2.valid).foldl (fun (b : Option (Nat × Nat)) p =>
    let a := s.rowAge p.2
    match b with
    | none => some (a, p.1 % 1024)
    | some x => if x.1 < a then some (a, p.1 % 1024) else some x) none

/-- AGE_MAX (R171). -/
def State.ageMax (s : State) (gt : Nat) : Nat := min 0xFFFFFF ((s.oldest gt).elim 0 (·.1))

/-- R163: LATE clears when every valid row is within two passes. -/
def State.clearLate (s : State) (gt : Nat) : State :=
  if s.ageMax gt ≤ 2 * 1024 * s.period gt then s.setB (Reg.TIL_RFSH_STS gt) 6 false else s

/-- Recount the valid rows (RFSH_PTR.VALID_ROWS, RFSH_STS.DIG_VALID). -/
def State.countValid (s : State) (gt : Nat) : State :=
  let n := (s.validRows gt).length
  (s.setF (Reg.TIL_RFSH_PTR gt) 16 11 n).setB (Reg.TIL_RFSH_STS gt) 7 (n = 1024)

/-- XOR a value into DIG_WRITE. -/
def State.digXor (s : State) (gt : Nat) (v : DWord) : State :=
  s.set64 (Reg.TIL_DIG_WRITE_LO gt) (Reg.TIL_DIG_WRITE_HI gt)
    (s.get64 (Reg.TIL_DIG_WRITE_LO gt) (Reg.TIL_DIG_WRITE_HI gt) ^^^ v.toNat)

/-- A row loses its valid bit: its term leaves DIG_WRITE when `fold` (R95, R54), else at the recomputation (R144). -/
def State.invalidate (s : State) (gt r : Nat) (fold : Bool) : State :=
  let x := s.row gt r
  if x.valid then
    let s := if fold then s.digXor gt x.term else s
    ((s.setRow gt r {}).countValid gt).clearLate gt
  else s

/-- R82, R84, R137, R138, R167, R177: a completed row write. -/
def State.rowWrite (s : State) (gt r : Nat) (d : List Byte) : State :=
  let x := s.tx gt
  let lv := x.complete d
  let t := rowTerm r lv
  let old := s.row gt r
  let s := s.digXor gt (t ^^^ (if old.valid then old.term else 0))
  let s := s.setRow gt r { levels := lv, term := t, valid := true, fresh := true, stamp := s.now }
  let s := s.setF (Reg.TIL_RFSH_STS gt) 1 2 0
  let s := s.updTx gt fun x =>
    { x with lastCnt := [], held := x.held && s.getF (Reg.TIL_RFSH_PTR gt) 0 10 != r }
  ((s.add64 (Reg.TIL_ROWOP_CNT_LO gt) (Reg.TIL_ROWOP_CNT_HI gt) 1).countValid gt).clearLate gt

/-- R86 to R88, R678: what a row read returns: 512 data levels, failed, reference and checksum disagreements. -/
structure RowRead where
  data : List Byte
  failed : Bool
  refBad : Bool
  ckBad : Bool
  deriving DecidableEq, Repr

/-- A row read with the levels that the nodes now resolve to (`devs`: those that differ from the stored ones, R1123). -/
def State.rowReadAt (s : State) (gt r : Nat) (devs : List (Nat × Byte)) : RowRead :=
  let x := s.row gt r
  if !x.valid then ⟨List.replicate 512 32#8, true, false, false⟩
  else
    let lv := substitute 32#8 (s.tx gt).map (override x.levels devs)
    let d := lv.take 512
    let refBad := (List.range 4).any fun k => at0 32#8 lv (520 + k) != 32#8
    let ckBad := (lv.drop 512).take 8 != cksLevels d
    let en := s.getB (Reg.TIL_CTL gt) 3
    ⟨d, en && (refBad || ckBad), refBad, ckBad⟩

/-- R88, R1124: count a row read and raise TIL_ROW_CHECK where it failed its check. `src`: the source byte. -/
def State.noteRead (s : State) (gt r : Nat) (rr : RowRead) (src ctx : Nat) : State :=
  let s := s.add64 (Reg.TIL_ROWOP_CNT_LO gt) (Reg.TIL_ROWOP_CNT_HI gt) 1
  if rr.failed && (rr.refBad || rr.ckBad) then
    s.raise 4 gt Ev.TIL_ROW_CHECK
      (some (leBytes r 2 ++ [BitVec.ofNat 8 (b2n rr.refBad + 2 * b2n rr.ckBad), BitVec.ofNat 8 src])) ctx
      ((s.partOf (gt / 16)).getD 255)
  else s

/-! ## Release (R164 to R167, R180) -/

/-- R164: the release takes effect. -/
def State.releaseNow (s : State) (gt : Nat) : State :=
  let s := { s with rows := s.rows.filter fun p => p.1 / 1024 != gt }
  let s := s.set64 (Reg.TIL_DIG_WRITE_LO gt) (Reg.TIL_DIG_WRITE_HI gt) 0
  let s := s.setF (Reg.TIL_RFSH_OWED gt) 0 11 0
  let s := s.setB (Reg.TIL_RFSH_STS gt) 4 false
  let s := if s.getB (Reg.TIL_RFSH_STS gt) 1 then s else
    (s.setF (Reg.TIL_RFSH_STS gt) 1 2 1).updTx gt fun x => { x with relTick := s.now }
  let s := s.updTx gt fun x => { x with held := false, rf := 0, relReq := false, recomp := none, lastCnt := []
                                        copyLv := [], copyTry := false }
  let s := match (s.tx gt).phasePend with
    | some p => (s.setF (Reg.TIL_RFSH_CTL gt) 8 6 p).updTx gt fun x => { x with phasePend := none }
    | none => s
  (s.countValid gt).setB (Reg.TIL_RFSH_STS gt) 6 false

/-- R164: firmware or a fence releases the tile: at once, or at the end of the row operation in progress. -/
def State.release (s : State) (gt : Nat) : State :=
  if s.inRowOp gt then s.updTx gt fun x => { x with relReq := true } else s.releaseNow gt

/-- R164, R168: a fence of a tile was set: with FENCE_KEEP 0 it releases the tile. -/
def State.fenceRelease (s : State) (gt : Nat) : State :=
  if s.getB (Reg.TIL_RFSH_CTL gt) 1 then s else s.release gt

/-- R157: the tile becomes free: a waiting refresh slot starts. -/
def State.tileIdle (s : State) (gt : Nat) : State :=
  let s := s.setF (Reg.TIL_STS gt) 0 4 0
  if (s.tx gt).rf = 1 then
    (s.updTx gt fun x => { x with rf := 2, rfStart := s.now, rfLost := !s.locked gt }).tileAct gt 6
  else s

end Sys2Proof.Machine
end

