-- ==== Sys2Proof/Machine/Refresh.lean ====
section
/-!
DEFINITION. The refresh engine, release, the delay line, column repair and the trim window (chapters 02 and 03): their commands.
A command whose enabling condition does not hold changes nothing (log entry 1).
-/
namespace Sys2Proof.Machine

/-- Writers of COLMAP and the trim window (R110): P3 and the causeway. -/
def Requester.trims (r : Requester) : Bool := r = .pilot 3 || r = .causeway

/-- Writers of RFSH_CTL (R173): the pilots and the causeway. -/
def Requester.inner (r : Requester) : Bool :=
  match r with | .pilot _ => true | .causeway => true | _ => false

/-! ## The slot grid -/

/-- R140, R174: the end of a pass; a PHASE that waits for the wrap takes effect (R178). -/
def State.endPass (s : State) (gt : Nat) : State :=
  let x := s.tx gt
  let s := s.set64 (Reg.TIL_DIG_LAST_LO gt) (Reg.TIL_DIG_LAST_HI gt) x.passXor.toNat
  let s := s.set64 (Reg.TIL_PASS_TICK_LO gt) (Reg.TIL_PASS_TICK_HI gt) s.now
  let s := s.setReg (Reg.TIL_PASS_CNT gt) (s.reg (Reg.TIL_PASS_CNT gt) + 1)
  let s := s.setB (Reg.TIL_RFSH_STS gt) 8 (!x.passPersist)
  let s := match x.phasePend with | some p => s.setF (Reg.TIL_RFSH_CTL gt) 8 6 p | none => s
  (s.updTx gt fun x => { x with passXor := 0, passPersist := false, phasePend := none }).bumpSeq 4 gt

/-- R150: the pointer advances by one row; from row 1,023 the pass ends. -/
def State.advance (s : State) (gt : Nat) : State :=
  let r := s.getF (Reg.TIL_RFSH_PTR gt) 0 10
  let s := s.setF (Reg.TIL_RFSH_PTR gt) 0 10 ((r + 1) % 1024)
  if r = 1023 then s.endPass gt else s

/-- Set RFSH_OWED and RFSH_STS.CATCHUP. -/
def State.setOwed (s : State) (gt n : Nat) : State :=
  (s.setF (Reg.TIL_RFSH_OWED gt) 0 11 (min 2047 n)).setB (Reg.TIL_RFSH_STS gt) 4 (n != 0)

/-- The rows owed. -/
def State.owed (s : State) (gt : Nat) : Nat := s.getF (Reg.TIL_RFSH_OWED gt) 0 11

/-- R151: the row is skipped at its visit. -/
def State.skipVisit (s : State) (gt r : Nat) : State :=
  let x := s.row gt r
  let s := if x.valid then
      ((s.setRow gt r { x with fresh := false }).incSat (Reg.TIL_SKIP_CNT gt) 1).updTx gt
        fun t => { t with passXor := t.passXor ^^^ x.term }
    else s
  s.advance gt

/-- R161: one row of catch-up is done. -/
def State.caughtUp (s : State) (gt : Nat) : State := (s.setOwed gt (s.owed gt - 1)).incSat (Reg.TIL_CATCHUP_CNT gt) 1

/-- The refresh engine of the tile is at work (R164, R169). -/
def State.refreshing (s : State) (gt : Nat) : Bool :=
  !s.getB (Reg.TIL_RFSH_STS gt) 1 && !s.getB (Reg.TIL_RFSH_STS gt) 3

/-- Start sensing the pointer row, at once or when the tile is free (R157). -/
def State.startSense (s : State) (gt : Nat) (catchUp : Bool) : State :=
  if s.tileBusy gt then s.updTx gt fun x => { x with rf := 1, rfCatch := catchUp }
  else
    let s := (s.updTx gt fun x => { x with rf := 2, rfStart := s.now, rfCatch := catchUp, rfLost := !s.locked gt }).tileAct gt 6
    if s.locked gt then s else s.raiseUnlock gt 6 255

/-- REFRESH_SLOT (R145, R150, R151, R157, R169): the tile's slot tick arrives. -/
def execRefreshSlot (gt : Tile) (s : State) : Host.Outcome State Fault Refusal :=
  .next <|
    let r := s.getF (Reg.TIL_RFSH_PTR gt) 0 10
    if !s.refreshing gt || s.now % s.period gt != s.getF (Reg.TIL_RFSH_CTL gt) 8 6 || (s.tx gt).rf != 0 then s
    else if !(s.row gt r).valid || (s.row gt r).fresh then s.skipVisit gt r
    else s.startSense gt false

/-- R160: the slot is lost: the pointer stays and, unless it was catch-up, one more row is owed. -/
def State.lostSlot (s : State) (gt : Nat) (catchUp : Bool) : State :=
  if catchUp then s else s.setOwed gt (s.owed gt + 1)

/-- R133, R139: the row is rewritten with its snapped levels; stamp and age checks (R162). -/
def State.restoreRow (s : State) (gt r : Nat) (lv : List Byte) (t : DWord) (catchUp : Bool) : State :=
  let x := s.row gt r
  let age := s.rowAge x
  let late := 1024 * s.period gt < age
  let s := s.setRow gt r { x with levels := (s.tx gt).complete (lv.take 512), stamp := s.now }
  let s := (s.updTx gt fun y => { y with passXor := y.passXor ^^^ t, held := false }).setB (Reg.TIL_RFSH_STS gt) 5 late
  let s := if late then
      (s.incSat (Reg.TIL_SLIP_CNT gt) 1).raiseI 4 gt Ev.TIL_RFSH_SLIP (some (leBytes r 2 ++ leBytes (min 0xFFFFFF age) 3))
    else s
  let s := (if catchUp then s.caughtUp gt else s).clearLate gt
  s.advance gt

/-- ROW_REFRESH_DONE (R129 to R143): six ticks after its start the refresh compares and rewrites, holds or persists the row.
`codes`: the sense codes that differ from 2 L + 1 (log entry 2). -/
def execRowRefreshDone (gt : Tile) (codes : List (Fin 528 × Fin 128)) (s : State) : Host.Outcome State Fault Refusal :=
  .next <|
    let x := s.tx gt
    if x.rf != 2 || s.now < x.rfStart + 6 then s
    else
      let r := s.getF (Reg.TIL_RFSH_PTR gt) 0 10
      let w := s.row gt r
      let s := (s.updTx gt fun y => { y with rf := 0 })
      let s := if !x.rfLost && !w.valid then s.advance gt
        else if x.rfLost then s.lostSlot gt x.rfCatch
        else
          let q := override (w.levels.map fun b => 2 * b.toNat + 1) (codes.map fun p => (p.1.val, p.2.val))
          let lv := q.map fun c => BitVec.ofNat 8 (c / 2)
          let s := s.incSat (Reg.TIL_LOW_CNT gt) (q.filter fun c => c % 2 = 0).length
          let s := s.add64 (Reg.TIL_ROWOP_CNT_LO gt) (Reg.TIL_ROWOP_CNT_HI gt) 1
          let t := rowTerm r lv
          if t = w.term || !s.getB (Reg.TIL_RFSH_CTL gt) 2 then
            let s := if x.held && t = w.term then
                (s.incSat (Reg.TIL_DIG_MISS_CNT gt) 1).raiseI 4 gt Ev.TIL_DIG_TRANSIENT (some (leBytes r 2)) else s
            s.restoreRow gt r lv t x.rfCatch
          else if x.held then
            let s := (s.incSat (Reg.TIL_DIG_MISS_CNT gt) 1).setReg (Reg.TIL_DIG_ROW gt) (BitVec.ofNat 32 (r + 1024))
            let s := s.updTx gt fun y => { y with passPersist := true, needReprog := if y.needReprog = 0 then 2 else y.needReprog }
            (s.raiseI 4 gt Ev.TIL_DIG_MISMATCH (some (leBytes r 2 ++ [1]))).restoreRow gt r lv t x.rfCatch
          else (s.updTx gt fun y => { y with held := true }).lostSlot gt x.rfCatch
      let s := s.tileIdle gt
      if (s.tx gt).relReq then s.releaseNow gt else s

/-- R161: no ticket of ranks 1 to 4 will launch on the tile within 6 ticks, and no refresh slot falls there. -/
def State.quiet (s : State) (gt n : Nat) : Bool :=
  (s.tickets.all fun e => !(e.2.uclass = 0 && tkTile e.1 e.2 = gt && (e.2.state = 1 || e.2.state = 2) && e.2.launch < s.now + n))
    && (List.range n).all fun k => (s.now + k) % s.period gt != s.getF (Reg.TIL_RFSH_CTL gt) 8 6

/-- CATCHUP_REFRESH (R159, R161). -/
def execCatchupRefresh (gt : Tile) (s : State) : Host.Outcome State Fault Refusal :=
  .next <|
    let r := s.getF (Reg.TIL_RFSH_PTR gt) 0 10
    let w := s.row gt r
    if !s.refreshing gt || s.owed gt = 0 || (s.tx gt).held || (s.tx gt).rf != 0 || s.tileBusy gt || !s.quiet gt 6 then s
    else if !w.valid || w.fresh then (s.caughtUp gt).skipVisit gt r
    else match s.grant (gt / 16) (1, 1) with
      | some s => s.startSense gt true
      | none => s

/-- TIL_RFSH_LATE (R163, R854): a valid row's age passes two passes. -/
def execTilRfshLate (gt : Tile) (s : State) : Host.Outcome State Fault Refusal :=
  .next <|
    match s.oldest gt with
    | none => s
    | some (a, r) =>
      if a ≤ 2 * 1024 * s.period gt || s.getB (Reg.TIL_RFSH_STS gt) 6 || s.getB (Reg.TIL_RFSH_STS gt) 3 then s
      else
        let s := s.setB (Reg.TIL_RFSH_STS gt) 6 true
        let s := s.updTx gt fun x => { x with needReprog := if x.needReprog = 0 then 6 else x.needReprog, reTick := if x.reStep = 0 then s.now else x.reTick }
        s.raiseI 4 gt Ev.TIL_RFSH_LATE (some (leBytes r 2 ++ leBytes (min 0xFFFFFF a) 3))

/-- RELEASE (R164, R173): a write of RFSH_CTL with RELEASE 1. -/
def execRelease (rq : Requester) (gt : Tile) (s : State) : Host.Outcome State Fault Refusal :=
  .next (s.orHeld rq false (Reg.TIL_RFSH_CTL gt) (s.reg (Reg.TIL_RFSH_CTL gt) ||| 8) {} fun s =>
    if Requester.inner rq then s.release gt else s)

/-- RELEASE_APPLY (R164, R180): the row operation in progress has ended. -/
def execReleaseApply (gt : Tile) (s : State) : Host.Outcome State Fault Refusal :=
  .next (if (s.tx gt).relReq && !s.inRowOp gt then s.releaseNow gt else s)

/-- TIL_DECAYED (R166): 25,000,000 ticks of 8 ns after the release. -/
def execTilDecayed (gt : Tile) (s : State) : Host.Outcome State Fault Refusal :=
  .next <|
    if s.getF (Reg.TIL_RFSH_STS gt) 1 2 = 1 && (s.tx gt).relTick + 25000000 ≤ s.now then
      (s.setB (Reg.TIL_RFSH_STS gt) 2 true).raiseI 4 gt Ev.TIL_DECAYED (some [])
    else s

/-! ## Regimes (R147 to R149, R179) -/

/-- The regime that GRID and Tj ask for. -/
def State.wantHot (s : State) (gt : Nat) : Bool :=
  s.getB (Reg.TIL_RFSH_CTL gt) 0 || (Config.gradeX && (s.tx gt).tjHot)

/-- R148: a decision on the regime at this tick. -/
def State.decideRegime (s : State) (gt : Nat) (byWrite : Bool) : State :=
  s.updTx gt fun x => { x with regime := some (s.wantHot gt, byWrite, s.now) }

/-- The write of RFSH_CTL.GRID. -/
def State.writeGrid (s : State) (gt : Nat) (v : Bool) : State :=
  if s.getB (Reg.TIL_RFSH_CTL gt) 0 = v then s else (s.setB (Reg.TIL_RFSH_CTL gt) 0 v).decideRegime gt true

/-- GRID_WRITE (R149, R173). -/
def execGridWrite (rq : Requester) (gt : Tile) (v : Bool) (s : State) : Host.Outcome State Fault Refusal :=
  .next (s.orHeld rq false (Reg.TIL_RFSH_CTL gt) (setFld (s.reg (Reg.TIL_RFSH_CTL gt)) 0 1 (b2n v)) {} fun s =>
    if Requester.inner rq then s.writeGrid gt v else s)

/-- The write of RFSH_CTL.PHASE (R172, R178). -/
def State.writePhase (s : State) (gt v : Nat) : State :=
  if 60 < v then s
  else if s.getB (Reg.TIL_RFSH_STS gt) 1 then s.setF (Reg.TIL_RFSH_CTL gt) 8 6 v
  else s.updTx gt fun x => { x with phasePend := some v }

/-- PHASE_WRITE (R178, R173). -/
def execPhaseWrite (rq : Requester) (gt : Tile) (v : Fin 64) (s : State) : Host.Outcome State Fault Refusal :=
  .next (s.orHeld rq false (Reg.TIL_RFSH_CTL gt) (setFld (s.reg (Reg.TIL_RFSH_CTL gt)) 8 6 v) {} fun s =>
    if Requester.inner rq then s.writePhase gt v else s)

/-! ## The term store (R144) -/

/-- TERM_STORE_ECC (R144): an uncorrectable error of a row's term. -/
def execTermStoreEcc (gt : Tile) (r : Fin 1024) (s : State) : Host.Outcome State Fault Refusal :=
  .next <|
    if !(s.row gt r).valid then s
    else
      let s := s.invalidate gt r false
      let s := s.setReg (Reg.TIL_DIG_ROW gt) (BitVec.ofNat 32 (r + 2048))
      let s := s.updTx gt fun x =>
        { x with recomp := some s.now, held := x.held && s.getF (Reg.TIL_RFSH_PTR gt) 0 10 != r }
      s.raiseI 4 gt Ev.TIL_DIG_MISMATCH (some (leBytes r 2 ++ [2]))

/-- XOR of the stored terms of the valid rows (R138). -/
def State.termsXor (s : State) (gt : Nat) : DWord :=
  (s.rows.filter fun p => p.1 / 1024 = gt && p.2.valid).foldl (fun a p => a ^^^ p.2.term) 0

/-- DIG_WRITE_RECOMPUTE (R144): DIG_WRITE changes to the recomputed value at one edge. -/
def execDigWriteRecompute (gt : Tile) (s : State) : Host.Outcome State Fault Refusal :=
  .next <|
    if (s.tx gt).recomp.isNone then s
    else (s.updTx gt fun x => { x with recomp := none }).set64 (Reg.TIL_DIG_WRITE_LO gt) (Reg.TIL_DIG_WRITE_HI gt)
      (s.termsXor gt).toNat

/-! ## The delay line (R93 to R95) -/

/-- TUNIT_LOCK (R93): the delay line acquires lock while the tide PLL is locked. -/
def execTunitLock (gt : Tile) (s : State) : Host.Outcome State Fault Refusal :=
  .next <|
    if s.getB Reg.TID_STS 0 then (s.setB (Reg.TIL_STS gt) 5 true).updTx gt fun x => { x with unlockTick := none } else s

/-- R94, R95: a tile's delay line loses lock; `begun`: the drive of a row write in flight had begun.  Actions in flight are acknowledged
DL_UNLOCK at their usual time. -/
def State.tunitLost (s : State) (gt : Nat) (begun : Bool) : State :=
    if !s.locked gt then s
    else
      let code := if s.tileBusy gt then s.getF (Reg.TIL_STS gt) 1 3 else 0
      let s := s.setB (Reg.TIL_STS gt) 5 false
      let s := s.updTx gt fun x => { x with rfLost := x.rfLost || x.rf = 2, unlockTick := some s.now }
      let inFlight := s.tickets.filter fun e => e.2.uclass = 0 && tkTile e.1 e.2 = gt && e.2.ran && !e.2.noAct
      let s := inFlight.foldl (fun s e =>
        let s := s.setTk e.1 { e.2 with status := e.2.status ||| 2, counts := [] }
        if e.2.action = 6 && begun then s.invalidate gt (e.2.rows % 1024) true else s) s
      s.raiseUnlock gt code 255

/-! ## Column repair (R50 to R54, R107 to R110, R120, R121) -/

/-- The enabled entries of COLMAP: spare and column. -/
def State.colEntries (s : State) (gt : Nat) : List (Nat × Nat) :=
  ((List.range 4).filter fun n => s.getB (Reg.TIL_COLMAP_CTL gt) n).map fun n => (n, s.getF (Reg.TIL_COLMAP gt n) 0 10)

/-- R108: an APPLY is refused. -/
def State.applyRefused (s : State) (gt : Nat) : Bool :=
  let e := s.colEntries gt
  (e.any fun p => 519 < p.2 || (e.any fun q => q.1 != p.1 && q.2 = p.2)) || s.tileFenced gt || (s.tx gt).cal = 1
    || s.getB (Reg.TIL_COLMAP_CTL gt) 9

/-- An APPLY (R52, R54, R107 to R109): newly disabled entries retire, newly enabled ones begin a copy pass. An entry that stays
enabled with another column counts as newly enabled (log entry 21). -/
def State.applyMap (s : State) (gt : Nat) : State :=
  if s.applyRefused gt then s.setB (Reg.TIL_COLMAP_CTL gt) 10 true
  else
    let e := s.colEntries gt
    let want := tabulate 4 fun n => (e.find? fun p => p.1 = n).map (·.2)
    let x := s.tx gt
    let kept := tabulate 4 fun n => if (at0 none want n).isNone then none else at0 none x.map n
    let s := s.setB (Reg.TIL_COLMAP_CTL gt) 10 false
    let s := s.setF (Reg.TIL_COLMAP_CTL gt) 4 4
      ((List.range 4).foldl (fun a n => if (at0 none kept n).isSome then a + 2 ^ n else a) 0)
    if kept = want then s.updTx gt fun x => { x with map := kept }
    else
      let s := s.updTx gt fun x =>
        { x with map := kept, mapNext := want, copyRow := 0, copyLv := [], copyTry := false, copyEnd := s.now, copyBad := false }
      (s.setB (Reg.TIL_COLMAP_CTL gt) 9 true).setB (Reg.TIL_STS gt) 8 true

/-- COLMAP_APPLY (R108, R110): a write of COLMAP_CTL with APPLY 1. -/
def execColmapApply (rq : Requester) (gt : Tile) (s : State) : Host.Outcome State Fault Refusal :=
  .next (s.orHeld rq false (Reg.TIL_COLMAP_CTL gt) (setFld (s.reg (Reg.TIL_COLMAP_CTL gt)) 8 1 1) {} fun s =>
    if Requester.trims rq then s.applyMap gt else s)

/-- The next valid row of a copy pass, from `r` on. -/
def State.copyNext (s : State) (gt r : Nat) : Option Nat := (s.validRows gt).find? fun i => r ≤ i

/-- COPY_PASS_ROW_OP (R53, R54, R155): the next row read or row write of the pass, when the tile is free and the drops are
granted. `devs`: levels read that differ from those stored. -/
def execCopyPassRowOp (gt : Tile) (devs : List (Fin 528 × Fin 64)) (s : State) : Host.Outcome State Fault Refusal :=
  .next <|
    let x := s.tx gt
    if !s.getB (Reg.TIL_COLMAP_CTL gt) 9 || s.tileBusy gt || s.tileFenced gt || !s.quiet gt 5 then s
    else match s.copyNext gt x.copyRow with
      | none => s
      | some r =>
        match s.grant (gt / 16) (if x.copyLv.isEmpty then (1, 1) else (1, 0)) with
        | none => s
        | some s =>
          if !s.locked gt then s.raiseUnlock gt (if x.copyLv.isEmpty then 5 else 4) 255
          else if x.copyLv.isEmpty then
            let rr := s.rowReadAt gt r (devs.map fun p => (p.1.val, BitVec.ofNat 8 p.2.val))
            let s := s.noteRead gt r rr 2 255
            if !rr.failed then s.updTx gt fun y => { y with copyRow := r, copyLv := rr.data, copyTry := false }
            else if !x.copyTry then s.updTx gt fun y => { y with copyRow := r, copyTry := true }
            else (s.invalidate gt r true).updTx gt fun y =>
              { y with copyRow := r + 1, copyTry := false, copyBad := true, copyEnd := s.now }
          else (s.rowWrite gt r x.copyLv).updTx gt fun y => { y with copyRow := r + 1, copyLv := [], copyEnd := s.now }

/-- TIL_COLMAP_DONE (R52, R54): at the tick after the last row is written the new map takes effect. -/
def execTilColmapDone (gt : Tile) (s : State) : Host.Outcome State Fault Refusal :=
  .next <|
    let x := s.tx gt
    if !s.getB (Reg.TIL_COLMAP_CTL gt) 9 || (s.copyNext gt x.copyRow).isSome || s.now ≤ x.copyEnd then s
    else
      let act := (List.range 4).foldl (fun a n => if (at0 none x.mapNext n).isSome then a + 2 ^ n else a) 0
      let s := s.updTx gt fun y =>
        { y with map := y.mapNext, mapNext := [none, none, none, none], copyBad := false
                 needReprog := if y.copyBad && y.needReprog = 0 then 7 else y.needReprog }
      let s := (s.setB (Reg.TIL_COLMAP_CTL gt) 9 false).setB (Reg.TIL_STS gt) 8 false
      (s.setF (Reg.TIL_COLMAP_CTL gt) 4 4 act).raiseI 4 gt Ev.TIL_COLMAP_DONE (some [BitVec.ofNat 8 act])

/-! ## The trim window (R111 to R114, R119, R237) -/

/-- Key of a trim. -/
def trimKey (gt bank i : Nat) : Nat := (gt * 2 + bank) * 4096 + i

/-- A trim of a bank. -/
def State.trim (s : State) (gt bank i : Nat) : Nat := Store.get trimZero s.trims (trimKey gt bank i)

/-- Store a trim. -/
def State.setTrim (s : State) (gt bank i v : Nat) : State := { s with trims := Store.put trimZero s.trims (trimKey gt bank i) v }

/-- The active bank of a tile. -/
def State.bankOf (s : State) (gt : Nat) : Nat := s.getF (Reg.TIL_STS gt) 4 1

/-- The word at index `i` of the open trim window (R112, R113). -/
def State.trimWord (s : State) (gt i : Nat) : Word :=
  let c := s.reg (Reg.TIL_TRIM_WIN_CTL gt)
  let b := fld c 1 1
  if !bit c 0 then 0
  else if !bit c 2 then
    BitVec.ofNat 32 (if i < 264 then s.trim gt b (2 * i) + s.trim gt b (2 * i + 1) * 65536 else 0)
  else BitVec.ofNat 32 (if i < 256 then
      (List.range 4).foldl (fun a k => a + s.trim gt b (1024 + 4 * i + k) * 256 ^ k) 0 else 0)

/-- A refused window write. `why`: byte 0 of TIL_TRIM_REFUSED. -/
def State.trimRefuse (s : State) (gt i why : Nat) : State :=
  (s.setB (Reg.TIL_TRIM_WIN_STS gt) 0 true).raiseI 4 gt Ev.TIL_TRIM_REFUSED (some ([BitVec.ofNat 8 why] ++ leBytes (4 * i) 2))

/-- A calibration run that includes the tile is RUNNING (R237). -/
def State.inRun (s : State) (gt : Nat) : Bool :=
  s.getF Reg.CAL_STS 0 3 = 1 && Store.get trimZero s.cal.tiles gt != 0

/-- A write of word `i` of the trim window (R112 to R114, R237). -/
def State.writeTrim (s : State) (gt i : Nat) (v : Word) : State :=
  let c := s.reg (Reg.TIL_TRIM_WIN_CTL gt)
  let b := fld c 1 1
  if !bit c 0 then s.trimRefuse gt i 2
  else if s.inRun gt then s.trimRefuse gt i 4
  else if b = s.bankOf gt then s.trimRefuse gt i 1
  else if !bit c 2 then
    if i < 264 then
      let put (s : State) (k : Nat) : State :=
        s.setTrim gt b (2 * i + k) (fld v (16 * k) 6 + fld v (16 * k + 8) 6 * 256)
      put (put s 0) 1
    else s
  else if i < 256 then (List.range 4).foldl (fun s k => s.setTrim gt b (1024 + 4 * i + k) (fld v (8 * k) 5)) s
  else s

/-- TRIM_WIN_WRITE (R110, R113, R114): a 32-bit write of word `i` of the window. -/
def execTrimWinWrite (rq : Requester) (gt : Tile) (i : Fin 512) (v : Word) (s : State) : Host.Outcome State Fault Refusal :=
  .next (s.orHeld rq false (Reg.TIL_TRIM_WIN gt i) v {} fun s =>
    if Requester.trims rq then s.writeTrim gt i v else s)

/-- R119, R206: a trim commit closes an open window. -/
def State.closeTrim (s : State) (gt : Nat) : State :=
  if s.getB (Reg.TIL_TRIM_WIN_CTL gt) 0 then
    (s.setB (Reg.TIL_TRIM_WIN_CTL gt) 0 false).setB (Reg.TIL_TRIM_WIN_STS gt) 1 true
  else s

end Sys2Proof.Machine
end

