-- ==== Sys2Proof/Machine/Hold.lean ====
section
/-!
DEFINITION. Calibration and tests as they hold a tile: the end of a tile's measurement (R204 to R206, R210, R230), the abort of a test
(R910), and what a fence does to both.
-/
namespace Sys2Proof.Machine

/-- Tj of an island: the latest sample (R820), as a byte. -/
def State.tj (s : State) (isl : Nat) : Nat := s.getF (Reg.THM_TJ (isl / 4)) (8 * (isl % 4)) 8

/-- R99: TIL_STS.CAL_TEMP follows |ΔTj|. -/
def State.checkCalTemp (s : State) (gt : Nat) : State :=
  let now := s.tj (gt / 16)
  let s := s.setF (Reg.TIL_CAL_TJ gt) 8 8 now
  let cal := s.getF (Reg.TIL_CAL_TJ gt) 0 8
  let win := s.getF (Reg.TIL_CTL gt) 8 8
  let ovr := win != 0 && win < (sgn 8 now - sgn 8 cal).natAbs
  let was := s.getB (Reg.TIL_STS gt) 6
  let s := s.setB (Reg.TIL_STS gt) 6 ovr
  if ovr && !was then
    s.raiseI 4 gt Ev.TIL_CAL_TEMP (some [BitVec.ofNat 8 now, BitVec.ofNat 8 cal, BitVec.ofNat 8 win])
  else s

/-- Status of a tile in the run. -/
def State.calSt (s : State) (gt : Nat) : Nat := Store.get trimZero s.cal.tiles gt

/-- Change the calibration record. -/
def State.updCal (s : State) (f : CalX → CalX) : State := { s with cal := f s.cal }

/-- A word of a tile's verify record. -/
def State.vfyWord (s : State) (gt w : Nat) : Word := Store.get (fun _ => 0) s.cal.vfy (gt * 8 + w)

/-- Store a word of a verify record. -/
def State.setVfy (s : State) (gt w : Nat) (v : Word) : State :=
  s.updCal fun c => { c with vfy := Store.put (fun _ => 0) c.vfy (gt * 8 + w) v }

/-- The commit lead in ticks (R205, R239). -/
def State.commitLead (s : State) : Nat := 16 * max 1 (s.getF Reg.CAL_CTL 8 8)

/-- R205: every tile of the scope is finished: READY, CAL_DONE, and with AUTO_COMMIT the commit at T_c. -/
def State.calCheckDone (s : State) : State :=
  if s.getF Reg.CAL_STS 0 3 != 1 || s.cal.tiles.any fun e => e.2 = 1 || e.2 = 2 || e.2 = 6 then s
  else
    let s := (s.setF Reg.CAL_STS 0 3 2).raise 13 0 Ev.CAL_DONE none 255 255
    if 2 ≤ s.cal.kind || s.getB Reg.CAL_CTL 2 then s.updCal fun c => { c with sw := some (1, s.now + s.commitLead) } else s

/-- A tile's part of the run ends with a status: 3 measured, 4 skipped, 5 aborted; RESULT of its record follows. -/
def State.calTileDone (s : State) (gt st : Nat) : State :=
  let held := s.calSt gt = 2
  let pat := (s.tx gt).calPat
  let s := s.updCal fun c => { c with tiles := Store.put trimZero c.tiles gt st }
  let s := s.updTx gt fun x => { x with cal := 0, calPat := false, unlockTick := none }
  let s := s.setVfy gt 0 (setFld (s.vfyWord gt 0) 0 2 (st - 2))
  let s := s.incWrapF Reg.CAL_PROG 0 11 1
  if held then
    let s := s.setB (Reg.TIL_STS gt) 7 false
    -- R197, R210: a tile that received the calibration pattern is released again.
    if pat then s.release gt else s
  else s

/-- R230: a fence of a tile under measurement aborts its measurement; the rest of the run continues. -/
def State.calFence (s : State) (gt : Nat) : State := if s.calSt gt = 2 then (s.calTileDone gt 5).calCheckDone else s

/-- R210: the run ends without a change of banks. -/
def State.calAbortRun (s : State) (err : Nat) : State :=
  if s.getF Reg.CAL_STS 0 3 != 1 && s.getF Reg.CAL_STS 0 3 != 2 then s
  else
    let s := (s.cal.tiles.filter fun e => e.2 = 2).foldl (fun s e => s.calTileDone e.1 5) s
    let s := (s.setF Reg.CAL_STS 0 3 4).setF Reg.CAL_STS 24 8 err
    let s := s.updCal fun c => { c with kind := 0, tiles := [], sw := none }
    s.raise 13 0 Ev.CAL_ABORTED none 255 255

/-! ## Tests -/

/-- Tests in progress (TST_STS.RUNNING). -/
def State.testsRunning (s : State) : Nat := (s.tests.filter fun e => e.2.held && e.1 % 32 < 19).length

/-- Mark a unit held by a test, or free it: TST_ISTS, ENG_STS.TESTING, TST_STS.RUNNING. -/
def State.testHold (s : State) (isl u : Nat) (on : Bool) : State :=
  let t := s.test isl u
  let s := s.setTest isl u { t with held := on, start := if on then s.now else t.start }
  let s := if u < 16 then (s.setF (Reg.ISL_TST_ISTS isl) u 1 (b2n on)).setB (Reg.TIL_RFSH_STS (isl * 16 + u)) 3 on
    else if u < 19 then (s.setF (Reg.ISL_TST_ISTS isl) 16 2 (if on then u - 15 else 0)).setB (Reg.ISL_ENG_STS isl) 2 on
    else s.setB (Reg.ISL_TST_ISTS isl) 19 on
  s.setF Reg.TST_STS 8 7 s.testsRunning

/-- R910: a test whose hold ends without a result; the unit falls due again at once. A tile with an owner is written again before its
owner's next ticket (R923), but for a fence (`fence`, R922). -/
def State.testAbort (s : State) (isl u : Nat) (fence : Bool) : State :=
  if (s.test isl u).held then
    let s := s.testHold isl u false
    let s := if u < 16 && !fence && Store.get flagZero s.owners (isl * 16 + u) != 0 then
        s.updTx (isl * 16 + u) fun x => { x with needReprog := 8 } else s
    s.setTest isl u { s.test isl u with failed := false, due := some s.now, dueTick := s.now, want := u = 19 }
  else s

/-- R94, R95, R910: a tile loses lock; a test that holds it is aborted. -/
def State.lockLost (s : State) (gt : Nat) (begun : Bool) : State :=
  if s.locked gt then (s.tunitLost gt begun).testAbort (gt / 16) (gt % 16) false else s

/-- TIL_TUNIT_UNLOCK (R94, R95, R910). -/
def execTilTunitUnlock (gt : Tile) (begun : Bool) (s : State) : Host.Outcome State Fault Refusal := .next (s.lockLost gt begun)

/-- R1128, R861: a fence takes effect on a tile: a reprogramming of it ends without a result, and it is due again once the fence has
cleared; so is a tile with an owner that the fence releases. A verify pass of R869 ends. -/
def State.fenceReprog (s : State) (gt : Nat) (rel : Bool) : State :=
  let x := s.tx gt
  let owned := Store.get flagZero s.owners gt != 0
  let s := if x.reStep = 0 then s
    else
      let s := s.updTx gt fun y => { y with reStep := 0, reCause := 0, needReprog := if x.reCause = 9 || x.reCause = 11 then y.needReprog else 8 }
      let s := s.setF (Reg.ISL_REPROG_STS (gt / 16)) (gt % 16) 1 0
      { s with rplChecks := s.rplChecks.map fun (c : RplCheck) => { c with waiting := c.waiting.filter (· != gt) } }
  if rel && owned && !s.getB (Reg.TIL_RFSH_CTL gt) 1 && !s.getB (Reg.TIL_RFSH_STS gt) 1 then
    s.updTx gt fun y => { y with needReprog := 8 }
  else s

/-- A tile has become fenced in some source: R164 and R168 release, R230, R910, R922. -/
def State.onTileFence (s : State) (gt : Nat) : State :=
  (((s.testAbort (gt / 16) (gt % 16) true).calFence gt).fenceReprog gt true).fenceRelease gt

/-- An island has become fenced: its engine segments' tests end, and every tile meets an effective fence. -/
def State.onIslFence (s : State) (isl : Nat) : State :=
  let s := [16, 17, 18, 19].foldl (fun s u => s.testAbort isl u true) s
  (List.range 16).foldl (fun s t => ((s.testAbort isl t true).calFence (isl * 16 + t)).fenceReprog (isl * 16 + t) false) s

end Sys2Proof.Machine
end

