-- ==== Sys2Proof/Machine/Lagoon.lean ====
section
/-!
DEFINITION. The lagoon and fencing of units (R855 to R859, R882, R884, R889).
-/
namespace Sys2Proof.Machine

/-- Address of the lagoon record of a unit of an island: 0 to 15 a tile, 16 the engine. -/
def lagReg (isl u : Nat) : Nat := if u < 16 then Reg.ISL_LAG isl u else Reg.ISL_LAG_ENG isl

/-- The unit is in the lagoon. -/
def State.inLagoon (s : State) (isl u : Nat) : Bool := s.getF (lagReg isl u) 20 3 != 0

/-- LAGOON_F; 0 is taken as 1. -/
def State.lagoonF (s : State) (isl : Nat) : Nat := max 1 (s.getF (Reg.ISL_INT_CTL isl) 12 2)

/-- LAGOON_N; 0 is taken as 1. -/
def State.lagoonN (s : State) (isl : Nat) : Nat := max 1 (s.getF (Reg.ISL_INT_CTL isl) 16 16)

/-- The data path fences a unit with a reason code of R963 (0x10 LAGOON, 0x11 REPROG_FAIL, 0x12 REPLICA, 0x13 TEST_FAIL). -/
def State.fenceUnit (s : State) (isl u reason : Nat) : State :=
  let s := if u < 16 then (s.fenceDp 4 (isl * 16 + u) reason).onTileFence (isl * 16 + u) else (s.fenceDp 3 isl reason).onIslFence isl
  s.raiseI 3 isl Ev.ISL_TILE_FENCE none

/-- R857: when FAILS reaches LAGOON_F the unit is fenced with reason LAGOON. -/
def State.lagCheck (s : State) (isl u : Nat) : State :=
  if s.lagoonF isl ≤ s.getF (lagReg isl u) 16 2 then s.fenceUnit isl u 0x10 else s

/-- Payload of ISL_LAGOON (R856, R858). -/
def lagPayload (entry : Bool) (u cause fails : Nat) : List Byte :=
  [BitVec.ofNat 8 (b2n entry), BitVec.ofNat 8 u, BitVec.ofNat 8 cause, BitVec.ofNat 8 fails]

/-- R856, R859: a cause puts a unit into the lagoon, or adds to its record there. `fails`: FAILS of the cause. -/
def State.lagEnter (s : State) (isl u cause fails : Nat) : State :=
  let a := lagReg isl u
  if s.inLagoon isl u then
    let s := s.setF a 0 16 0
    (s.incSatF a 16 2 fails).lagCheck isl u
  else
    let s := s.setReg a (BitVec.ofNat 32 (fails % 4 * 65536 + cause % 8 * 2 ^ 20))
    let s := s.setB (Reg.ISL_INT_STS isl) u true
    (s.raiseI 3 isl Ev.ISL_LAGOON (some (lagPayload true u cause fails))).lagCheck isl u

/-- R858: a clean test of a unit in the lagoon. -/
def State.lagClean (s : State) (isl u : Nat) : State :=
  let a := lagReg isl u
  if !s.inLagoon isl u then s
  else
    let n := s.getF a 0 16 + 1
    if n < s.lagoonN isl then s.setF a 0 16 n
    else
      let cause := s.getF a 20 3
      let fails := s.getF a 16 2
      let s := (s.setReg a 0).setB (Reg.ISL_INT_STS isl) u false
      s.raiseI 3 isl Ev.ISL_LAGOON (some (lagPayload false u cause fails))

/-- R889: a unit fenced by the lagoon has become unfenced in every source: FAILS = LAGOON_F − 1, CLEAN = 0. -/
def State.lagReturn (s : State) (isl u : Nat) : State :=
  let a := lagReg isl u
  if s.inLagoon isl u && s.lagoonF isl ≤ s.getF a 16 2 then (s.setF a 16 2 (s.lagoonF isl - 1)).setF a 0 16 0 else s

/-- R849, R855, R884: a persistence of a tile: in the lagoon it is one repeat failure more; else it waits for reprogramming with
its cause (1 checksum, 2 refresh row). -/
def State.persistence (s : State) (gt cause : Nat) : State :=
  let isl := gt / 16
  let seen := s.inLagoon isl (gt % 16)
  let s := if seen then s.lagEnter isl (gt % 16) cause 1 else s
  if s.ownFenced 4 gt then s
  else s.updTx gt fun x => { x with needReprog := if x.needReprog = 0 && x.reStep = 0 then (if seen then 10 else cause) else x.needReprog }

/-! ## The edge at which a written fence takes effect (R798, R801, R830) -/

/-- A page's fence has changed by writes: what follows from its being set or cleared in every source. -/
def State.fenceChange (s : State) (ty inst : Nat) : State :=
  let h := s.hd ty inst
  let s := s.updHd ty inst fun h => { h with fenceEff := 0, fenceWas := false }
  if h.fenced = h.fenceWas then s
  else if h.fenced then
    match ty with
    | 4 => s.onTileFence inst
    | 3 => s.onIslFence inst
    | 0x12 => ((s.islandsOf inst).foldl (fun s i => s.onIslFence i) s).prtSync
    | _ => s
  else
    match ty with
    | 4 => s.lagReturn (inst / 16) (inst % 16)
    | 3 => s.lagReturn inst 16
    | 0x12 => s.prtSync
    | _ => s

/-- Every page whose fence was written since the last edge meets this edge. -/
def State.fenceEdge (s : State) : State :=
  s.fencing.foldl (fun s p => s.fenceChange p.1 p.2) { s with fencing := [] }

end Sys2Proof.Machine
end

