-- ==== Sys2Proof/Machine/Float.lean ====
section
/-!
DEFINITION. Arithmetic in the rill: binary32 rounded toward zero with subnormals flushed, saturation and flags (R242 to R246).
A finite operand is an exact dyadic number; every operation is exact before its one truncation.
-/
namespace Sys2Proof.Machine

/-- Flags an operation raises in the result status: OFLOW and NONFINITE (R245, R246), as RSTAT bits. -/
def flOflow : Nat := 1024
/-- NONFINITE of RSTAT. -/
def flNonfinite : Nat := 2048

/-- A value with the flags its computation set so far. -/
structure FV where
  w : Word
  fl : Nat
  deriving DecidableEq, Repr

/-- An exact dyadic magnitude with a sign: ± m × 2^e. -/
structure Dy where
  neg : Bool
  m : Nat
  e : Int
  deriving DecidableEq, Repr

/-- Exponent field of a binary32 word. -/
def fExp (w : Word) : Nat := fld w 23 8

/-- Sign of a binary32 word. -/
def fNeg (w : Word) : Bool := w.getLsbD 31

/-- R244, R246: a word as an operand: a subnormal is zero of its sign, a NaN or infinity is zero with NONFINITE. -/
def FV.of (w : Word) : FV :=
  if fExp w = 255 then ⟨0, flNonfinite⟩
  else if fExp w = 0 then ⟨w &&& 0x80000000#32, 0⟩
  else ⟨w, 0⟩

/-- The exact value of a finite normal word or a zero. -/
def toDy (w : Word) : Dy :=
  if fExp w = 0 then ⟨fNeg w, 0, 0⟩ else ⟨fNeg w, 2 ^ 23 + fld w 0 23, (fExp w : Int) - 150⟩

/-- Sign bit of a word. -/
def signBit (neg : Bool) : Nat := if neg then 2 ^ 31 else 0

/-- Truncate an exact dyadic to binary32 (R242, R244, R245). -/
def pack (d : Dy) (fl : Nat) : FV :=
  if d.m = 0 then ⟨BitVec.ofNat 32 (signBit d.neg), fl⟩
  else
    let l := Nat.log2 d.m
    let frac := if 23 ≤ l then d.m / 2 ^ (l - 23) else d.m * 2 ^ (23 - l)
    let be : Int := d.e + l + 127
    if 255 ≤ be then ⟨BitVec.ofNat 32 (signBit d.neg + 0x7F7FFFFF), fl ||| flOflow⟩
    else if be ≤ 0 then ⟨BitVec.ofNat 32 (signBit d.neg), fl⟩
    else ⟨BitVec.ofNat 32 (signBit d.neg + be.toNat * 2 ^ 23 + (frac - 2 ^ 23)), fl⟩

/-- rtz of the exact sum of two dyadics; an exact zero sum is +0 unless both operands are -0. -/
def addDy (x y : Dy) (fl : Nat) : FV :=
  let e := min x.e y.e
  let v (d : Dy) : Int := (if d.neg then -1 else 1) * ((d.m * 2 ^ (d.e - e).toNat : Nat) : Int)
  let s := v x + v y
  let neg := if s = 0 then x.neg && y.neg && x.m = 0 && y.m = 0 else s < 0
  pack ⟨neg, s.natAbs, e⟩ fl

/-- rtz of a sum. -/
def fAdd (a b : FV) : FV := addDy (toDy a.w) (toDy b.w) (a.fl ||| b.fl)

/-- An exact value times a power of two, not rounded (R266, R272 with R281). -/
def Dy.scale (d : Dy) (k : Int) : Dy := { d with e := d.e + k }

/-- Change the sign. -/
def fNegate (a : FV) : FV := { a with w := a.w ^^^ 0x80000000#32 }

/-- rtz of a difference. -/
def fSub (a b : FV) : FV := fAdd a (fNegate b)

/-- rtz of a product. -/
def fMul (a b : FV) : FV :=
  let x := toDy a.w
  let y := toDy b.w
  pack ⟨x.neg != y.neg, x.m * y.m, x.e + y.e⟩ (a.fl ||| b.fl)

/-- rtz of a quotient; a zero divisor has no stated result (log entry 7). -/
def fDiv (a b : FV) : FV :=
  let x := toDy a.w
  let y := toDy b.w
  if y.m = 0 then ⟨Config.unstatedQuotient a.w b.w, a.fl ||| b.fl⟩
  else pack ⟨x.neg != y.neg, x.m * 2 ^ 64 / y.m, x.e - y.e - 64⟩ (a.fl ||| b.fl)

/-- An exact integer times 2^e. -/
def fInt (n : Int) (e : Int) : FV := pack ⟨n < 0, n.natAbs, e⟩ 0

/-- The BF16 value of a 16-bit pattern as an operand (R242, R298). -/
def fBf (b : Nat) : FV := FV.of (BitVec.ofNat 32 (b * 65536))

/-- R243: the BF16 pattern of a value. -/
def bfOf (w : Word) : Nat := w.toNat / 65536

/-- The value is zero. -/
def FV.isZero (a : FV) : Bool := (toDy a.w).m = 0

/-- Order of two finite values. -/
def fLt (a b : FV) : Bool :=
  let x := toDy a.w
  let y := toDy b.w
  let e := min x.e y.e
  let v (d : Dy) : Int := (if d.neg then -1 else 1) * ((d.m * 2 ^ (d.e - e).toNat : Nat) : Int)
  v x < v y

/-- Magnitude. -/
def fAbs (a : FV) : FV := { a with w := a.w &&& 0x7FFFFFFF#32 }

/-- trunc of the exact value of a word. -/
def fTrunc (a : FV) : Int :=
  let x := toDy a.w
  let m : Nat := if 0 ≤ x.e then x.m * 2 ^ x.e.toNat else x.m / 2 ^ (-x.e).toNat
  if x.neg then -(m : Int) else m

/-- trunc of the exact quotient of two words (R255); the divisor is not zero where it is used. -/
def fTruncDiv (a b : FV) : Int :=
  let x := toDy a.w
  let y := toDy b.w
  let e := x.e - y.e
  let q := if 0 ≤ e then x.m * 2 ^ e.toNat / y.m else x.m / (y.m * 2 ^ (-e).toNat)
  if x.neg != y.neg then -(q : Int) else q

/-- Sum in ascending index with rtz after each addition, starting from +0 (R357). -/
def fSum (l : List FV) : FV := l.foldl fAdd ⟨0, 0⟩

/-- A positive zero. -/
def fZero : FV := ⟨0, 0⟩

/-- OR of the flags of a list of values. -/
def flagsOf (l : List FV) : Nat := l.foldl (fun a v => a ||| v.fl) 0

end Sys2Proof.Machine
end

