-- ==== Sys2Proof/Machine/Flags.lean ====
section
/-!
DEFINITION. The result status RSTAT (R277 to R279): its bits and how the rill forms it.
-/
namespace Sys2Proof.Machine

/-- R277: STALE. -/
def rsStale : Nat := 1
/-- R277: DL_UNLOCK. -/
def rsDlUnlock : Nat := 2
/-- R277: REF_RANGE. -/
def rsRefRange : Nat := 4
/-- R277: CK_MISS. -/
def rsCkMiss : Nat := 8
/-- R277: REPEAT. -/
def rsRepeat : Nat := 16
/-- R277: CLIP. -/
def rsClip : Nat := 32
/-- R277: SAT_IN. -/
def rsSatIn : Nat := 64
/-- R277: ESC. -/
def rsEsc : Nat := 128
/-- R277: ESC_OVF. -/
def rsEscOvf : Nat := 256
/-- R277: UFLOW. -/
def rsUflow : Nat := 512
/-- R277: SHAPE. -/
def rsShape : Nat := 4096

/-- A flag when a condition holds. -/
def flagIf (c : Bool) (f : Nat) : Nat := if c then f else 0

/-- R269: a data count at the end of its range. -/
def clipFlag (counts : List Nat) (top n : Nat) : Nat := flagIf ((counts.take n).any fun c => c = 0 || c = top) rsClip

end Sys2Proof.Machine
end

