-- ==== Sys2Proof/Machine/Operands.lean ====
section
/-!
DEFINITION. Rows as operands: token rows, value rows, tail lines and side lists (R247 to R251, R260, R289 to R298).
-/
namespace Sys2Proof.Machine

/-- Bytes that `n` positions of a format take: 0 INT8, 1 INT4, 2 UINT8, 3 FP32 values (R247 to R249). -/
def rowBytes (fmt n : Nat) : Nat := match fmt with | 1 => (n + 1) / 2 | 3 => 4 * n | _ => n

/-- Whole lines of the positions of a row, its tail not counted. -/
def rowLines (fmt n : Nat) : Nat := (rowBytes fmt n + 63) / 64

/-- Address of the tail line of a row (R260). -/
def tailAdr (adr fmt n : Nat) : Nat := adr + 64 * rowLines fmt n

/-- A tail line (R249). -/
structure Tail where
  scale : Nat := 0
  zp : Nat := 0
  fmt : Nat := 0
  rstat : Nat := 0
  len : Nat := 0
  cnt : Nat := 0
  ovf : Bool := false
  chk : Nat := 0
  deriving DecidableEq, Repr

/-- Read a tail line. -/
def parseTail (b : List Byte) : Tail :=
  { scale := leAt b 0 2, zp := leAt b 2 1, fmt := nfld (leAt b 3 1) 0 3, rstat := leAt b 4 2, len := nfld (leAt b 6 2) 0 11
    cnt := nfld (leAt b 8 2) 0 5, ovf := nfld (leAt b 8 2) 5 1 = 1, chk := leAt b 12 4 }

/-- The 64 bytes of a tail line (R249, R293). -/
def Tail.bytes (t : Tail) : List Byte :=
  padTo 64 (leBytes t.scale 2 ++ [BitVec.ofNat 8 t.zp, BitVec.ofNat 8 (t.fmt % 8)] ++ leBytes t.rstat 2 ++ leBytes (t.len % 2048) 2
    ++ leBytes (t.cnt % 32 + b2n t.ovf * 32) 2 ++ [0, 0] ++ leBytes t.chk 4)

/-- The entries of a side-list line: row and BF16 value (R292). -/
def sideEntries (line : List Byte) (n : Nat) : List (Nat × Nat) :=
  tabulate n fun i => (nfld (leAt line (4 * i) 4) 0 10, leAt line (4 * i + 2) 2)

/-- A side-list line from its entries, zero beyond them. -/
def sideLine (e : List (Nat × Nat)) : List Byte := padTo 64 (e.flatMap fun p => leBytes (p.1 % 1024 + p.2 * 65536) 4)

/-- A row as read: its position bytes, tail and side-list line, the lines that met R671, by access (R671: operand, tail, side list), and
poison. `sideFault`: the side-list
line itself met R671. -/
structure RowIn where
  data : List Byte
  tail : Tail
  tailBytes : List Byte
  side : List Byte
  sideFault : Bool
  faults : List (List LineFault)
  poison : Bool
  deriving DecidableEq, Repr

/-- Read `n` positions of a format from an address, with the tail and, when its CNT is not 0, the side-list line after it. -/
def State.readRow (s : State) (isl ctx adr fmt n : Nat) : RowIn :=
  let d := s.readBytes isl ctx adr (64 * rowLines fmt n)
  let t := s.readBytes isl ctx (tailAdr adr fmt n) 64
  let tl := parseTail t.bytes
  let e : BasinRead := if tl.cnt = 0 then ⟨List.replicate 64 0, [], false⟩ else s.readBytes isl ctx (tailAdr adr fmt n + 64) 64
  ⟨d.bytes, tl, t.bytes, e.bytes, !e.faults.isEmpty, [d.faults, t.faults, e.faults].filter (!·.isEmpty), d.poison || t.poison || e.poison⟩

/-- R260: the tail disagrees with the operation that reads the row. -/
def RowIn.shape (r : RowIn) (fmt n : Nat) : Nat := flagIf (r.tail.fmt != fmt || r.tail.len != n) rsShape

/-- R246, R260: value `i` of a value row read for `n` positions. -/
def RowIn.val (r : RowIn) (i : Nat) : FV := if i < r.tail.len then FV.of (BitVec.ofNat 32 (leAt r.data (4 * i) 4)) else fZero

/-- The values of a value row. -/
def RowIn.vals (r : RowIn) (n : Nat) : List FV := tabulate n r.val

/-- The code at position `i` as a two's complement or unsigned number; a position at or above the tail's LEN reads 0. -/
def RowIn.code (r : RowIn) (fmt i : Nat) : Int :=
  if r.tail.len ≤ i then 0
  else match fmt with
    | 0 => sgn 8 (leAt r.data i 1)
    | 1 => sgn 4 (nfld (leAt r.data (i / 2) 1) (4 * (i % 2)) 4)
    | _ => leAt r.data i 1

/-- The escape code of a format (R251). -/
def isEscape (fmt : Nat) (code : Int) : Bool := (fmt = 0 && code = -128) || (fmt = 1 && code = -8)

/-- R296: why a side list is bad: 1 CNT above 16, 3 an invalid or foreign line, 2 CHK mismatch; 0 good. -/
def RowIn.listBad (r : RowIn) : Nat :=
  if r.tail.cnt = 0 then 0 else if 16 < r.tail.cnt then 1 else if r.sideFault then 3
  else if r.tail.chk = (crc32c r.side).toNat then 0 else 2

/-- The entries of a good list; none of a bad one (R296). -/
def RowIn.entries (r : RowIn) : List (Nat × Nat) := if r.listBad = 0 then sideEntries r.side r.tail.cnt else []

/-- Pack codes of a format into position bytes. -/
def packCodes (fmt : Nat) (c : List Int) : List Byte :=
  match fmt with
  | 1 => tabulate ((c.length + 1) / 2) fun i => BitVec.ofNat 8 (twos 4 (at0 0 c (2 * i)) + 16 * twos 4 (at0 0 c (2 * i + 1)))
  | _ => c.map fun x => BitVec.ofNat 8 (twos 8 x)

/-- The bytes of values. -/
def packVals (v : List FV) : List Byte := v.flatMap fun x => leBytes x.w.toNat 4

/-- Position bytes padded to whole lines (R250). -/
def padLines (b : List Byte) : List Byte := padTo (64 * ((b.length + 63) / 64)) b

/-- Write a row: positions padded to whole lines, the tail line and, when given, the side-list line. -/
def State.writeRowAt (s : State) (isl ctx adr : Nat) (data : List Byte) (t : Tail) (side : Option (List Byte)) :
    State × List LineFault :=
  let b := padLines data ++ t.bytes ++ side.getD []
  s.writeBytes isl ctx adr b false

end Sys2Proof.Machine
end

