-- ==== Sys2Proof/Machine/Weir.lean ====
section
/-!
DEFINITION. The weir: windowed counters, thresholds (R316 to R336).
-/
namespace Sys2Proof.Machine

/-- A weir with no pending restart. -/
def weirIdle (_ : Nat) : WeirX := {}

/-- A weir beyond its page. -/
def State.wx (s : State) (isl : Nat) : WeirX := Store.get weirIdle s.weir isl

/-- R320, R327: an action of context `ctx` passes the filter. -/
def State.weirSees (s : State) (isl ctx : Nat) : Bool :=
  !s.getB (Reg.ISL_WEIR_CTL isl) 1 || s.getF (Reg.ISL_WEIR_CTL isl) 8 6 = ctx

/-- R321, R327, R330: an action of a context launched at a tick is counted. -/
def State.weirOn (s : State) (isl ctx launch : Nat) : Bool :=
  s.getB (Reg.ISL_WEIR_CTL isl) 0 && s.weirSees isl ctx
    && (match (s.wx isl).resume with | none => true | some t => t ≤ launch)

/-- Count `n` more in a windowed counter for an action. -/
def State.weirAdd (s : State) (isl ctx launch reg n : Nat) : State := if s.weirOn isl ctx launch then s.incSat reg n else s

/-- Raise an event of the island for a context's action. -/
def State.raiseIsl (s : State) (isl n : Nat) (pl : List Byte) (ctx : Nat) : State := s.raiseC 3 isl n (some pl) ctx

/-- R296, R1125: a bad side list: counted under the filter and raised. -/
def State.noteListBad (s : State) (isl ctx tile cause cnt : Nat) : State :=
  let s := if s.weirSees isl ctx then s.incSat (Reg.ISL_LIST_BAD_CNT isl) 1 else s
  s.raiseIsl isl Ev.SPL_LIST_BAD [BitVec.ofNat 8 tile, BitVec.ofNat 8 cause, BitVec.ofNat 8 cnt] ctx

/-- R315, R1125: rows lost in one DESCALE. -/
def State.noteLost (s : State) (isl ctx launch tile : Nat) (lost : List (Nat × Nat)) : State :=
  match lost with
  | [] => s
  | l :: _ =>
    let s := s.weirAdd isl ctx launch (Reg.ISL_ESC_LOST_CNT isl) lost.length
    s.raiseIsl isl Ev.SPL_LOST ([BitVec.ofNat 8 tile] ++ leBytes lost.length 2 ++ [BitVec.ofNat 8 l.2]) ctx

/-- R316: conversions and clips of a delivered pulse of tile `t`; `top` is the maximum code. -/
def State.weirPulse (s : State) (isl t ctx launch top : Nat) (counts : List Nat) : State :=
  let s := s.weirAdd isl ctx launch (Reg.ISL_CONV_CNT isl t) 512
  (List.range 8).foldl (fun s k =>
    s.weirAdd isl ctx launch (Reg.ISL_CLIP_CNT isl (8 * t + k))
      (((counts.drop (64 * k)).take 64).filter fun c => c = 0 || c = top).length) s

/-- R317: conversions and clips of transpose phase p of tile `t`. -/
def State.weirPhase (s : State) (isl t ctx launch p : Nat) (counts : List Nat) : State :=
  let s := s.weirAdd isl ctx launch (Reg.ISL_CONV_CNT isl t) 256
  (List.range 8).foldl (fun s k =>
    s.weirAdd isl ctx launch (Reg.ISL_CLIP_CNT isl (8 * t + k))
      ((List.range 256).filter fun i => (4 * i + p) / 128 = k && (at0 1 counts i = 0 || at0 1 counts i = 63)).length) s

/-- The windowed counters and the registers that latch them. -/
def weirPairs (isl : Nat) : List (Nat × Nat) :=
  [(Reg.ISL_INP_CNT isl, Reg.ISL_INP_LAST isl), (Reg.ISL_SAT_CNT isl, Reg.ISL_SAT_LAST isl), (Reg.ISL_ESC_CNT isl, Reg.ISL_ESC_LAST isl),
   (Reg.ISL_ESC_LOST_CNT isl, Reg.ISL_LOST_LAST isl), (Reg.ISL_SEL_OVF_CNT isl, Reg.ISL_SELOVF_LAST isl),
   (Reg.ISL_STRAY_CNT isl, Reg.ISL_STRAY_LAST isl)]
  ++ tabulate 16 (fun t => (Reg.ISL_CONV_CNT isl t, Reg.ISL_CONV_LAST isl t))
  ++ tabulate 128 fun j => (Reg.ISL_CLIP_CNT isl j, Reg.ISL_CLIP_LAST isl j)

/-- Clear every windowed counter (R330). -/
def State.weirClear (s : State) (isl : Nat) : State := (weirPairs isl).foldl (fun s p => s.setReg p.1 0) s

/-- The window length (R321). -/
def State.weirLen (s : State) (isl : Nat) : Nat := 2 ^ (10 + s.getF (Reg.ISL_WEIR_CTL isl) 16 4)

/-- R323: group j = 8 t + k is over threshold in the latched window. -/
def State.weirOver (s : State) (isl j : Nat) : Bool :=
  let c := (s.reg (Reg.ISL_CONV_LAST isl (j / 8))).toNat / 8
  2 ^ s.getF (Reg.ISL_WEIR_CTL isl) 24 4 ≤ c
    && s.getF (Reg.ISL_WEIR_THR isl) 0 16 * c < (s.reg (Reg.ISL_CLIP_LAST isl j)).toNat * 65536

/-- R322 to R325: the latch and the evaluation at the first tick of a window. -/
def State.weirLatch (s : State) (isl : Nat) : State :=
  let start := s.now - s.weirLen isl
  let s := (weirPairs isl).foldl (fun s p => (s.setReg p.2 (s.reg p.1)).setReg p.1 0) s
  let s := s.set64 (Reg.ISL_WIN_TICK_LO isl) (Reg.ISL_WIN_TICK_HI isl) start
  let ovr := (List.range 128).filter (s.weirOver isl)
  -- R906: a tile with 4 or more groups over threshold that had none in the window before.
  let jump := (List.range 16).any fun t =>
    4 ≤ (ovr.filter fun j => j / 8 = t).length && (List.range 8).all fun k => !s.getB (Reg.ISL_CLIP_MAP isl (t / 4)) (8 * (t % 4) + k)
  let s := (List.range 4).foldl (fun s n =>
    s.setReg (Reg.ISL_CLIP_MAP isl n) (BitVec.ofNat 32
      ((ovr.filter fun j => j / 32 = n).foldl (fun a j => a + 2 ^ (j % 32)) 0))) s
  let inp := (s.reg (Reg.ISL_INP_LAST isl)).toNat
  let sat := (s.reg (Reg.ISL_SAT_LAST isl)).toNat
  let satHit := 2 ^ s.getF (Reg.ISL_WEIR_CTL isl) 24 4 ≤ inp && s.getF (Reg.ISL_WEIR_THR isl) 16 16 * inp < sat * 65536
  let s := s.setF (Reg.ISL_WEIR_STS isl) 0 4
    (b2n (!ovr.isEmpty) + 2 * b2n satHit + 4 * b2n (s.reg (Reg.ISL_LOST_LAST isl) != 0) + 8 * b2n (s.reg (Reg.ISL_SELOVF_LAST isl) != 0))
  let s := (s.incWrapF (Reg.ISL_WEIR_STS isl) 16 16 1).bumpSeq 3 isl
  let s := match ovr with
    | [] => s
    | j :: _ => s.raiseI 3 isl Ev.WEIR_CLIP
        (some ([BitVec.ofNat 8 (j / 8), BitVec.ofNat 8 (j % 8), BitVec.ofNat 8 ovr.length] ++ leBytes start 4))
  let s := if satHit then s.raiseI 3 isl Ev.WEIR_SAT (some (leBytes sat 4 ++ leBytes inp 4)) else s
  if jump then s.trigTest isl 1 else s

/-- WEIR_WINDOW_END (R321, R322, R330): a boundary of the island's windows. The boundary at which counting resumes after a
change latches nothing. -/
def execWeirWindowEnd (isl : Isl) (s : State) : Host.Outcome State Fault Refusal :=
  .next <|
    let x := s.wx isl
    if !s.getB (Reg.ISL_WEIR_CTL isl) 0 || s.now % s.weirLen isl != 0 || s.now = 0 || x.last = s.now then s
    else
      let keep := x.resume.filter fun t => s.now < t
      let s := { s with weir := Store.put weirIdle s.weir isl ⟨keep, s.now⟩ }
      if x.resume.isSome then s else s.weirLatch isl

/-- R330: the effect of a change of EN, CTX_FILT_EN, CTX or WIN. -/
def State.weirRestart (s : State) (isl : Nat) : State :=
  let s := s.weirClear isl
  let n := s.weirLen isl
  { s with weir := Store.put weirIdle s.weir isl { s.wx isl with resume := some ((s.now / n + 1) * n) } }

/-- A write of WEIR_CTL (R330, R331). -/
def State.writeWeirCtl (s : State) (isl : Nat) (v : Word) : State :=
  let a := Reg.ISL_WEIR_CTL isl
  let old := s.reg a
  let new := (old &&& ~~~ regMask a) ||| (v &&& regMask a)
  let s := s.setReg a new
  if (old ^^^ new) &&& 0x000F3F03#32 != 0 then s.weirRestart isl else s

/-- WEIR_CTL_WRITE (R328, R330, R331): accepted from the PF, the pilots and the causeway. -/
def execWeirCtlWrite (rq : Requester) (isl : Isl) (v : Word) (s : State) : Host.Outcome State Fault Refusal :=
  .next <| s.orHeld rq false (Reg.ISL_WEIR_CTL isl) v {} fun s =>
    match rq with
    | .fn f => if f = 0 then s.writeWeirCtl isl v else s
    | .pilot _ => s.writeWeirCtl isl v
    | .causeway => s.writeWeirCtl isl v
    | .debug => s

end Sys2Proof.Machine
end

