-- ==== Sys2Proof/Machine/Pulse.lean ====
section
/-!
DEFINITION. The fountain, pulses, transpose phases, spill reads and ROWIO on a tile, from launch to acknowledgement
(R55 to R81, R86 to R95, R126, R212 to R216, R259 to R263, R289 to R312, R446 to R449, R678).
-/
namespace Sys2Proof.Machine

/-! ## The fountain (R259 to R263, R297, R306) -/

/-- Fountain value of a code (R251). -/
def fountainValue (fmt zp : Nat) (code : Int) : Int := match fmt with | 0 => code | 1 => 32 * code | _ => code - zp

/-- R262, R263: the RDF8 byte of a fountain value. -/
def toRdf8 (v : Int) : Byte :=
  let m := min v.natAbs 248
  let e := if m < 32 then 0 else if m < 64 then 1 else if m < 128 then 2 else 3
  BitVec.ofNat 8 (b2n (v < 0) * 128 + e * 32 + m / 2 ^ e)

/-- R297: the applicable entries of a good list, in list order. -/
def applicable (r : RowIn) (fmt n : Nat) : List (Nat × Nat) → List Nat → List (Nat × Nat)
  | [], _ => []
  | (row, v) :: es, seen =>
    if row < n && isEscape fmt (r.code fmt row) && !seen.contains row then (row, v) :: applicable r fmt n es (row :: seen)
    else applicable r fmt n es seen

/-- The expansion of a row of `n` positions with S spill slots. -/
def expandRow (r : RowIn) (fmt zp n spill : Nat) : Exp :=
  let live := (List.range n).filter fun i => i < r.tail.len
  let esc := live.filter fun i => isEscape fmt (r.code fmt i)
  let vals (i : Nat) : Int := fountainValue fmt zp (r.code fmt i)
  let es := r.entries
  let app := applicable r fmt n es []
  let cut := (app.drop spill).map (·.1)
  let lost := esc.filterMap fun i =>
    if r.listBad != 0 then some (i, 5) else if cut.contains i then some (i, 2)
    else if app.any fun a => a.1 = i then none else some (i, 1)
  let on := live.filter fun i => !isEscape fmt (r.code fmt i)
  let sat := (on.filter fun i => 248 < (vals i).natAbs).length
  { ok := true
    drives := tabulate n fun i => if i < r.tail.len && !isEscape fmt (r.code fmt i) then toRdf8 (vals i) else 0
    scale := r.tail.scale, fmt := fmt
    rstat := r.tail.rstat ||| r.shape fmt n ||| flagIf (sat != 0) rsSatIn
    applied := app.take spill, lost := lost, inp := on.length, sat := sat, stray := es.length - app.length
    bad := r.listBad, cnt := r.tail.cnt, faults := r.faults, poison := r.poison }

/-- The expansion of a ticket's input row as the basin holds it now. -/
def State.expand (s : State) (isl : Nat) (t : Ticket) : Exp :=
  expandRow (s.readRow isl t.ctx t.inA t.fmt t.extent) t.fmt t.zp t.extent t.spill

/-- FOUNTAIN_EXPAND (R259, R76): one tick before the launch edge the fountain reads and latches; a later read replaces it. -/
def execFountainExpand (isl : Isl) (idx : TktIx) (s : State) : Host.Outcome State Fault Refusal :=
  .next <|
    let k := isl.val * 256 + idx.val
    let t := s.tkAt k
    if !(t.state = 1 || t.state = 2) || !t.fountainFed || t.isRepeat || s.now + 1 < t.launch then s
    else s.setTk k { t with ex := s.expand isl t }

/-! ## Launch (R117, R126) -/

/-- The registers a tile samples at launch (R117). -/
def State.sample (s : State) (gt : Nat) : Samp :=
  { g := s.gAll gt
    cs := tabulate 512 fun c => s.getF (Reg.TIL_COLSCALE gt (c / 2)) (16 * (c % 2)) 16
    tol := s.getF (Reg.TIL_CK_CFG gt) 0 3, win := s.getF (Reg.TIL_REF_CFG gt) 0 4, refEn := s.getB (Reg.TIL_CTL gt) 2
    trn := 2 ^ s.getF (Reg.TIL_TRN_CFG gt) 0 2 }

/-- Kind of an action for the held counts of R214: 1 standard, 2 extended, 4 + p transpose phase p. -/
def Ticket.kind (t : Ticket) : Nat := if t.action = 3 then 4 + t.phase else t.mvmMode + 1

/-- R214: the held counts of a kind. -/
def State.heldCounts (s : State) (gt kind : Nat) : List Nat :=
  let h := Store.get (fun _ => []) (s.tx gt).lastCnt kind
  if h.isEmpty then (if 4 ≤ kind then List.replicate 257 32 else List.replicate 528 (if kind = 2 then 512 else 32)) else h

/-- R671, R845: what a unit's read met: invalid or foreign lines fail the step with STEP_FAIL, poison is consumed. -/
def State.noteUse (s : State) (isl ctx j : Nat) (faults : List (List LineFault)) (poison : Bool) : State :=
  let s := faults.foldl (fun s f => if f.isEmpty then s else (s.noteForeign isl ctx f).failStep j 13 4 isl 0xFF) s
  if poison then s.consumePoison isl ctx j else s

/-- What the fountain's read that counts is charged with: faults, poison, a bad list, stray entries (R296, R297, R844). -/
def State.noteExpand (s : State) (isl : Nat) (t : Ticket) (e : Exp) : State :=
  let s := s.noteUse isl t.ctx t.job e.faults e.poison
  let s := if e.bad = 0 then s else s.noteListBad isl t.ctx t.uindex e.bad e.cnt
  if e.stray = 0 then s else s.weirAdd isl t.ctx s.now (Reg.ISL_STRAY_CNT isl) e.stray

/-- A pulse or phase runs on its tile: the counts it will deliver and its status (R64, R80, R94, R213, R678). -/
def State.runPulse (s : State) (k : Nat) (t : Ticket) (errs : CountErrs) : State :=
  let gt := tkTile k t
  let isl := k / 256
  let e := if t.ex.ok then t.ex else s.expand isl t
  let t := { t with ex := e, samp := s.sample gt, ran := true }
  let s := if t.isRepeat || (t.action = 3 && t.phase != 0) then s else s.noteExpand isl t e
  let t := { t with discard := (s.tkAt k).discard }
  if s.getB (Reg.TIL_STS gt) 7 then
    s.setTk k { t with counts := s.heldCounts gt t.kind, status := 1 }
  else
    let s := s.tileAct gt (actCode t.action)
    if !s.locked gt then (s.setTk k { t with counts := [], status := 2 }).raiseUnlock gt (actCode t.action) t.ctx
    else if t.action = 3 then s.setTk k { t with counts := s.phaseCounts gt t.phase e.drives errs }
    else
      let bad := ((List.range t.extent).filter fun r => !(s.row gt r).valid).length
      let s := s.incSat (Reg.CTX_INVALID_ROW_CNT t.ctx) bad
      let s := if bad = 0 then s else s.raiseC 19 t.ctx Ev.CTX_INVALID_ROW none t.ctx
      s.setTk k { t with counts := s.pulseCounts gt e.drives (t.mvmMode = 1) errs }

/-- Launch a ticket if it still waits, then run its action where it was launched, its unit is not fenced and it has not run. -/
def State.launchAndRun (s : State) (isl idx : Nat) (pred : Ticket → Bool) (run : State → Nat → Ticket → State) : State :=
  let k := isl * 256 + idx
  let t0 := s.tkAt k
  if !pred t0 then s
  else
    let s := s.tryLaunch k
    let t := s.tkAt k
    if t.state != 3 || t.ran || t.noAct then s else run s k t

/-- The count errors of an action as the model's operations take them. -/
def errsOf (e : List (Nat × Int)) : CountErrs := e

/-- STANDARD_PULSE (R58, R60, R63 to R68). -/
def execStandardPulse (isl : Isl) (idx : TktIx) (errs : List (Nat × Int)) (s : State) : Host.Outcome State Fault Refusal :=
  .next (s.launchAndRun isl idx (fun t => t.action = 1) fun s k t => s.runPulse k { t with mvmMode := 0 } (errsOf errs))

/-- EXTENDED_PULSE (R61, R64, R68). -/
def execExtendedPulse (isl : Isl) (idx : TktIx) (errs : List (Nat × Int)) (s : State) : Host.Outcome State Fault Refusal :=
  .next (s.launchAndRun isl idx (fun t => t.action = 2) fun s k t => s.runPulse k { t with mvmMode := 1 } (errsOf errs))

/-- TRANSPOSE_PHASE (R76 to R81). A later phase uses the expansion that the fountain latched for the read's first phase. -/
def execTransposePhase (isl : Isl) (idx : TktIx) (errs : List (Nat × Int)) (s : State) : Host.Outcome State Fault Refusal :=
  .next (s.launchAndRun isl idx (fun t => t.action = 3) fun s k t =>
    let s := s.runPulse k { t with mvmMode := 2 } (errsOf errs)
    let t' := s.tkAt k
    s.mapTk (fun _ u => u.action = 3 && u.job = t.job && u.desc = t.desc && u.iter = t.iter && t.phase < u.phase
        && (u.state = 1 || u.state = 2)) fun u => { u with ex := t'.ex })

/-! ## Spill reads (R305 to R312) -/

/-- The first acknowledged pulse of a tile with a spill entry to be read, and that entry's slot number. -/
def State.nextSpill (s : State) (gt : Nat) : Option (AckRec × Nat) :=
  s.acks.findSome? fun a =>
    if a.tile = gt then ((List.range a.spills.length).find? fun i => (at0 ⟨0, 0, 1, []⟩ a.spills i).st = 0).map fun i => (a, i)
    else none

/-- SPILL_ROW_READ (R305 to R307): the next applied entry's row read launches on the pulse's tile in its slot. -/
def execSpillRowRead (gt : Tile) (devs : List (Fin 528 × Fin 64)) (s : State) : Host.Outcome State Fault Refusal :=
  .next <|
    match s.nextSpill gt with
    | none => s
    | some (a, i) =>
      let isl := gt.val / 16
      let e := at0 ⟨0, 0, 1, []⟩ a.spills i
      let out := s.tickets.any fun x => x.2.action = 4 && tkTile x.1 x.2 = gt
      if out || s.tileBusy gt || s.now < a.launch + a.slot + 5 * i then s
      else match s.freeIdx isl with
        | none => s
        | some idx =>
          let fenced := s.tileFenced gt
          match s.grantUnless fenced isl (1, 1) with
          | none => s
          | some s =>
            let rr := s.rowReadAt gt e.row (devs.map fun p => (p.1.val, BitVec.ofNat 8 p.2.val))
            let t : Ticket :=
              { state := 3, launch := s.now, dln := 5, deadline := s.now + 5, planned := s.now, uindex := gt % 16, uclass := 0
                action := 4, ctx := a.ctx, desc := a.desc, step := (s.job a.job).step, job := a.job, plan := (s.job a.job).plan
                iter := a.iter, phase := a.phase, rows := e.row, noAct := fenced, ran := !fenced
                status := if s.locked gt then 0 else 2
                counts := if rr.failed then [] else rr.data.map (·.toNat) }
            let s := (s.setTk (isl * 256 + idx) t).noteLive isl
            if fenced then s
            else if !s.locked gt then (s.tileAct gt 5).raiseUnlock gt 5 a.ctx
            else (s.tileAct gt 5).noteRead gt e.row rr 0 a.ctx

/-- The acknowledgement of a spill read: the levels for its entry, or its loss (R309, R310). -/
def State.ackSpill (s : State) (k : Nat) (t : Ticket) : State :=
  let upd (a : AckRec) : AckRec :=
    if a.job = t.job && a.desc = t.desc && a.iter = t.iter && a.tile = tkTile k t then
      { a with spills := a.spills.map fun e =>
          if e.row = t.rows && e.st = 0 then
            (if t.status % 4 / 2 = 1 then { e with st := 3 } else if t.counts.isEmpty then { e with st := 2 }
             else { e with st := 1, lv := t.counts.map (BitVec.ofNat 8) }) else e }
    else a
  { s with acks := s.acks.map upd }

/-! ## ROWIO (R446 to R449) -/

/-- The row a ROWIO ticket names. -/
def Ticket.rowNo (t : Ticket) : Nat := t.auxA / 64 % 1024

/-- ROWIO_READ (R447, R448): the row read runs; its levels are written at its acknowledgement. -/
def execRowioRead (isl : Isl) (idx : TktIx) (devs : List (Fin 528 × Fin 64)) (s : State) : Host.Outcome State Fault Refusal :=
  .next (s.launchAndRun isl idx (fun t => t.action = 5) fun s k t =>
    let gt := tkTile k t
    let s := s.tileAct gt 5
    let s := (s.setF (Reg.ISL_ADP_STS isl) t.uindex 1 1).setF (Reg.ISL_ADP_STS isl) 16 6 t.ctx
    if !s.locked gt then (s.setTk k { t with ran := true, status := 2 }).raiseUnlock gt 5 t.ctx
    else
      let rr := s.rowReadAt gt t.rowNo (devs.map fun p => (p.1.val, BitVec.ofNat 8 p.2.val))
      (s.setTk k { t with ran := true, counts := if rr.failed then [] else rr.data.map (·.toNat) }).noteRead gt t.rowNo rr 1 t.ctx)

/-- The acknowledgement of a ROWIO read: 512 level bytes at out, or 0xFF in all of them (R448). -/
def State.ackRowRead (s : State) (k : Nat) (t : Ticket) : State :=
  let b := if t.counts.isEmpty then List.replicate 512 0xFF#8 else t.counts.map (BitVec.ofNat 8)
  let (s, f) := s.writeBytes (k / 256) t.ctx t.outA b false
  s.noteUse (k / 256) t.ctx t.job [f] false

/-- ROWIO_WRITE (R447, R449): the 512 source bytes are read at launch; the row is written at the acknowledgement. -/
def execRowioWrite (isl : Isl) (idx : TktIx) (s : State) : Host.Outcome State Fault Refusal :=
  .next (s.launchAndRun isl idx (fun t => t.action = 6) fun s k t =>
    let gt := tkTile k t
    let s := s.tileAct gt 4
    let r := s.readBytes isl t.ctx t.inA 512
    let s := s.noteUse isl t.ctx t.job [r.faults] r.poison
    if !s.locked gt then (s.setTk k { s.tkAt k with ran := true, status := 2, rows := t.rowNo }).raiseUnlock gt 4 t.ctx
    else if r.bytes.any fun b => 63 < b.toNat then
      (s.setTk k { s.tkAt k with ran := true, rows := t.rowNo }).incSat (Reg.ISL_BAND_SKIP_CNT isl) 1
    else s.setTk k { s.tkAt k with ran := true, rows := t.rowNo, counts := r.bytes.map (·.toNat) })

/-! ## Acknowledgement at the tile -/

/-- The record of a pulse's acknowledgement for its DESCALE. -/
def ackRecOf (k : Nat) (t : Ticket) : AckRec :=
  { job := t.job, desc := t.desc, iter := t.iter, phase := t.phase, tile := tkTile k t, ctx := t.ctx, mode := t.mvmMode, ex := t.ex
    samp := t.samp, counts := t.counts, status := t.status, launch := t.launch, slot := t.slot, isRepeat := t.isRepeat
    spills := if t.status % 4 / 2 = 1 then [] else if t.isRepeat then t.spills else t.ex.applied.map fun p => { row := p.1, val := p.2 } }

/-- What a tile ticket's acknowledgement does at its tile and for its rill (R60, R104, R214, R309, R448). -/
def State.ackTile (s : State) (k : Nat) (t : Ticket) : State :=
  let gt := tkTile k t
  let s := if t.noAct then s else s.tileIdle gt
  let s := match t.action with
    | 4 => s.ackSpill k t
    | 5 => if t.discard then s else s.ackRowRead k t
    | 6 => if t.counts.isEmpty || t.status % 4 / 2 = 1 then s else s.rowWrite gt t.rows (t.counts.map (BitVec.ofNat 8))
    | 7 => s
    | 0x32 => s
    | _ =>
      let good := t.status % 4 = 0
      let s := if good then s.add64 (Reg.TIL_PULSE_CNT_LO gt) (Reg.TIL_PULSE_CNT_HI gt) 1 else s
      let s := if good && t.action != 3 then s.setReg (Reg.TIL_REF_LAST gt) (BitVec.ofNat 32 (refLast (t.mvmMode = 1) t.counts)) else s
      let s := if good then s.updTx gt fun x => { x with lastCnt := Store.put (fun _ => []) x.lastCnt t.kind t.counts } else s
      if t.discard then s else { s with acks := s.acks ++ [ackRecOf k t] }
  if (s.tx gt).relReq && !s.inRowOp gt then s.releaseNow gt else s

end Sys2Proof.Machine
end

