-- ==== Sys2Proof/Machine/Rill.lean ====
section
/-!
DEFINITION. The rill: DESCALE with the checksum comparison and repeats, and the rill operations (R253 to R258, R265 to R288,
R299 to R304, R351, R356 to R358, R847 to R849).
-/
namespace Sys2Proof.Machine

/-! ## Entry fields (R356) -/

/-- ROPC of a ticket's rill entry. -/
def Ticket.ropc (t : Ticket) : Nat := leAt t.rop 0 1
/-- A flag of the entry: 0 RAW, 1 ACC, 2 Q4, 3 RMS. -/
def Ticket.rflag (t : Ticket) (n : Nat) : Bool := leAt t.rop 1 1 / 2 ^ n % 2 = 1
/-- P0, BF16. -/
def Ticket.p0 (t : Ticket) : Nat := leAt t.rop 2 2
/-- P1, BF16. -/
def Ticket.p1 (t : Ticket) : Nat := leAt t.rop 4 2
/-- P2, a byte. -/
def Ticket.p2 (t : Ticket) : Nat := leAt t.rop 6 1
/-- LUT_LINE. -/
def Ticket.lut (t : Ticket) : Nat := leAt t.rop 8 2
/-- LEN. -/
def Ticket.rlen (t : Ticket) : Nat := leAt t.rop 10 2 % 2048

/-! ## Piecewise-linear functions (R358) -/

/-- PWL(x) of a table's 576 bytes. -/
def pwl (tab : List Byte) (x : FV) : FV :=
  let w (i : Nat) : FV := FV.of (BitVec.ofNat 32 (leAt tab i 4))
  let q := fMul (fSub x (w 0)) (w 4)
  let j := (clampI 0 63 (fTrunc q)).toNat
  let y := fAdd (fMul (w (64 + 8 * j)) x) (w (64 + 8 * j + 4))
  { y with fl := y.fl ||| q.fl }

/-! ## Running an operation -/

/-- Write a result row at `out` and end the operation's work: its faults fail the step; the ticket has run. -/
def State.finishRow (s : State) (k : Nat) (out : Nat) (data : List Byte) (tl : Tail) (side : Option (List Byte)) : State :=
  let isl := k / 256
  let t := s.tkAt k
  let (s, f) := s.writeRowAt isl t.ctx out data tl side
  let s := s.noteUse isl t.ctx t.job [f] false
  s.setTk k { s.tkAt k with ran := true, rstat := tl.rstat }

/-- Run a rill ticket with a given ROPC. -/
def State.runRop (s : State) (isl idx ropc : Nat) (f : State → Nat → Ticket → State) : State :=
  s.launchAndRun isl idx (fun t => t.action = 0x10 && t.ropc = ropc) f

/-- An elementwise or reducing operation on the value row at `in` giving values: RSTAT is the OR of the inputs' and its own. -/
def State.valueOp (s : State) (k : Nat) (t : Ticket) (inputs : List RowIn) (out : List FV) : State :=
  let isl := k / 256
  let s := inputs.foldl (fun s r => s.noteUse isl t.ctx t.job r.faults r.poison) s
  let rs := inputs.foldl (fun a r => a ||| r.tail.rstat ||| r.shape 3 t.rlen) (flagsOf out)
  s.finishRow k t.outA (packVals out) { fmt := 3, len := t.rlen, rstat := rs } none

/-- The value row a ticket reads at an address. -/
def State.valueRow (s : State) (k : Nat) (t : Ticket) (adr : Nat) : RowIn := s.readRow (k / 256) t.ctx adr 3 t.rlen

/-- The table of a ticket's LUT_LINE. -/
def State.lutOf (s : State) (k : Nat) (t : Ticket) : BasinRead := s.readLines (k / 256) t.ctx t.lut 9

/-- Charge the read of a table. -/
def State.noteLut (s : State) (k : Nat) (t : Ticket) (b : BasinRead) : State :=
  s.noteUse (k / 256) t.ctx t.job [b.faults] b.poison

/-- R357: one value of ACT. -/
def actVal (p2 p0 p1 : Nat) (tab : List Byte) (x : FV) : FV :=
  if p2 = 0 then (if fLt fZero x then x else { fZero with fl := x.fl })
  else if p2 = 1 then
    let y := if fLt x (fBf p0) then fBf p0 else x
    { (if fLt (fBf p1) y then fBf p1 else y) with fl := x.fl ||| (fBf p0).fl ||| (fBf p1).fl }
  else pwl tab x

/-- ACT (R357). -/
def execActOp (isl : Isl) (idx : TktIx) (s : State) : Host.Outcome State Fault Refusal :=
  .next (s.runRop isl idx 0x04 fun s k t =>
    let r := s.valueRow k t t.inA
    let b : BasinRead := if t.p2 = 2 then s.lutOf k t else ⟨[], [], false⟩
    (s.noteLut k t b).valueOp k t [r] ((r.vals t.rlen).map (actVal t.p2 t.p0 t.p1 b.bytes)))

/-- ADD (R357). -/
def execAddOp (isl : Isl) (idx : TktIx) (s : State) : Host.Outcome State Fault Refusal :=
  .next (s.runRop isl idx 0x05 fun s k t =>
    let x := s.valueRow k t t.inA
    let a := s.valueRow k t t.auxA
    s.valueOp k t [x, a] (((x.vals t.rlen).zip (a.vals t.rlen)).map fun p => fAdd p.1 p.2))

/-- MUL (R357). -/
def execMulOp (isl : Isl) (idx : TktIx) (s : State) : Host.Outcome State Fault Refusal :=
  .next (s.runRop isl idx 0x06 fun s k t =>
    let x := s.valueRow k t t.inA
    let a := s.valueRow k t t.auxA
    s.valueOp k t [x, a] (((x.vals t.rlen).zip (a.vals t.rlen)).map fun p => fMul p.1 p.2))

/-- R357: NORM of a list of values. -/
def normVals (rms : Bool) (tab : List Byte) (x : List FV) : List FV :=
  let n := fInt x.length 0
  let mu := if rms then fZero else fDiv (fSum x) n
  let d := x.map fun v => fSub v mu
  let v := fDiv (fSum (d.map fun y => fMul y y)) n
  let g := pwl tab v
  d.map fun y => fMul y g

/-- NORM (R357). -/
def execNormOp (isl : Isl) (idx : TktIx) (s : State) : Host.Outcome State Fault Refusal :=
  .next (s.runRop isl idx 0x07 fun s k t =>
    let r := s.valueRow k t t.inA
    let b := s.lutOf k t
    (s.noteLut k t b).valueOp k t [r] (normVals (t.rflag 3) b.bytes (r.vals t.rlen)))

/-- R357: SOFTMAX of a list of values. -/
def softmaxVals (tab : List Byte) (x : List FV) : List FV :=
  let m := x.foldl (fun a v => if fLt a v then v else a) (x.headD fZero)
  let e := x.map fun v => pwl tab (fSub v m)
  let z := fSum e
  if z.isZero then x.map fun _ => { fZero with fl := z.fl } else e.map fun v => fDiv v z

/-- SOFTMAX (R357). -/
def execSoftmax (isl : Isl) (idx : TktIx) (s : State) : Host.Outcome State Fault Refusal :=
  .next (s.runRop isl idx 0x08 fun s k t =>
    let r := s.valueRow k t t.inA
    let b := s.lutOf k t
    (s.noteLut k t b).valueOp k t [r] (softmaxVals b.bytes (r.vals t.rlen)))

/-! ## QUANT (R253 to R257, R303, R304) -/

/-- The codes and the scale of a quantisation: q = 127 or 7; `esc`: listed rows; the flag UFLOW. -/
def quantVals (fmt : Nat) (esc : List Nat) (x : List FV) : List Int × Nat × Nat :=
  let q : Int := if fmt = 1 then 7 else 127
  let e : Int := if fmt = 1 then -8 else -128
  let free := (List.range x.length).filter fun i => !esc.contains i
  let am := free.foldl (fun a i => let v := fAbs (at0 fZero x i); if fLt a v then v else a) fZero
  let sc := bfOf (fDiv am (fInt q 0)).w
  let s := fBf sc
  if s.isZero then
    (tabulate x.length fun i => if esc.contains i then e else 0, 0, flagIf (!am.isZero) rsUflow)
  else
    (tabulate x.length fun i => if esc.contains i then e else clampI (-q) q (fTruncDiv (at0 fZero x i) s), sc, 0)

/-- QUANT (R253 to R258, R303, R304). -/
def execQuant (isl : Isl) (idx : TktIx) (s : State) : Host.Outcome State Fault Refusal :=
  .next (s.runRop isl idx 0x02 fun s k t =>
    let n := t.rlen
    let r := s.valueRow k t t.inA
    let fmt := if t.rflag 2 then 1 else 0
    let es := r.entries
    let x := r.vals n
    let (codes, sc, fl) := quantVals fmt ((es.map (·.1)).filter (· < n)) x
    let s := s.noteUse isl t.ctx t.job r.faults r.poison
    let s := if r.listBad = 0 then s else s.noteListBad isl t.ctx 0xFF r.listBad r.tail.cnt
    let rs := r.tail.rstat ||| r.shape 3 n ||| flagsOf x ||| fl ||| flagIf (r.listBad != 0) rsEscOvf
    let good := r.listBad = 0 && r.tail.cnt != 0
    s.finishRow k t.outA (packCodes fmt codes)
      { scale := sc, fmt := fmt, len := n, rstat := rs, cnt := if good then r.tail.cnt else 0, ovf := good && r.tail.ovf
        chk := if good then r.tail.chk else 0 }
      (if good then some r.side else none))

/-! ## OUTSEL (R299 to R301) -/

/-- R299: insert a candidate into a list kept in descending |x|, ties in ascending index. -/
def insertCand (x : List FV) (i : Nat) : List Nat → List Nat
  | [] => [i]
  | j :: js => if fLt (fAbs (at0 fZero x j)) (fAbs (at0 fZero x i)) then i :: j :: js else j :: insertCand x i js

/-- A raw word is finite (R299). -/
def finiteWord (w : Word) : Bool := fExp w != 255

/-- OUTSEL (R299 to R302). -/
def execOutsel (isl : Isl) (idx : TktIx) (s : State) : Host.Outcome State Fault Refusal :=
  .next (s.runRop isl idx 0x03 fun s k t =>
    let n := t.rlen
    let r := s.valueRow k t t.inA
    let x := r.vals n
    let th := fBf t.p0
    let cand := (List.range n).filter fun i =>
      i < r.tail.len && finiteWord (BitVec.ofNat 32 (leAt r.data (4 * i) 4)) && fLt th (fAbs (at0 fZero x i))
    let best := (cand.foldl (fun l i => insertCand x i l) []).take (min 16 t.p2)
    let sel := cand.filter best.contains
    let ovr := cand.length - sel.length
    let line := sideLine (sel.map fun i => (i, bfOf (at0 fZero x i).w))
    let s := s.noteUse isl t.ctx t.job r.faults r.poison
    let s := if ovr = 0 then s else s.weirAdd isl t.ctx s.now (Reg.ISL_SEL_OVF_CNT isl) ovr
    let rs := r.tail.rstat ||| r.shape 3 n ||| th.fl ||| flagsOf x ||| flagIf (ovr != 0) rsEscOvf
    s.finishRow k t.outA (packVals x)
      { fmt := 3, len := r.tail.len, rstat := rs, cnt := sel.length, ovf := ovr != 0, chk := (crc32c line).toNat } (some line))

/-! ## COPY (R357) -/

/-- The format of the row that COPY finds at an address: the one whose tail, at the place that format gives it, names that
format and the operation's length; a value row where none does (log entry 22). -/
def State.copyFmt (s : State) (isl ctx adr n : Nat) : Nat :=
  ([3, 0, 1, 2].find? fun f =>
    let t := s.readBytes isl ctx (tailAdr adr f n) 64
    t.faults.isEmpty && (parseTail t.bytes).fmt = f && (parseTail t.bytes).len = n).getD 3

/-- COPY (R357). -/
def execCopyOp (isl : Isl) (idx : TktIx) (s : State) : Host.Outcome State Fault Refusal :=
  .next (s.runRop isl idx 0x0B fun s k t =>
    let n := t.rlen
    let f := s.copyFmt isl t.ctx t.inA n
    let r := s.readRow isl t.ctx t.inA f n
    let x := r.vals n
    let data := if f = 3 then packVals x else
      tabulate (rowBytes f n) fun i =>
        let b := at0 0 r.data i
        if f = 1 && n % 2 = 1 && i + 1 = rowBytes f n then b &&& 0xF#8 else b
    let rs := if f = 3 then r.tail.rstat ||| r.shape 3 n ||| flagsOf x else r.tail.rstat
    let s := s.noteUse isl t.ctx t.job r.faults r.poison
    let tb := if f = 3 then patchAt r.tailBytes 4 (leBytes rs 2) else r.tailBytes
    let b := padLines data ++ tb ++ (if r.tail.cnt = 0 then [] else r.side)
    let (s, w) := s.writeBytes isl t.ctx t.outA b false
    let s := s.noteUse isl t.ctx t.job [w] false
    s.setTk k { s.tkAt k with ran := true, rstat := rs })

/-! ## DESCALE (R265 to R288) -/

/-- R265: the de-scaling operand n of output j. -/
def descaleN (a : AckRec) (j : Nat) : FV :=
  if a.mode = 2 then fInt ((((at0 32 a.counts j : Nat) : Int) - ((at0 32 a.counts 256 : Nat) : Int)) * (a.samp.trn : Int)) (-1)
  else
    let ext := a.mode = 1
    let g := at0 1 a.samp.g j
    let d : Int := ((at0 0 a.counts j : Nat) : Int) - countRef ext (at0 0 a.counts (520 + j / 128)) g
    fInt (d * (g : Int)) (if ext then -4 else 0)

/-- R266: p_j with its flags; the factor 2^-5 of an INT4 row is exact (R281). -/
def descaleP (a : AckRec) (opscale j : Nat) : Dy × Nat :=
  let cs := if a.mode = 2 then fBf opscale else fBf (at0 0 a.samp.cs j)
  let p := fMul (fMul (descaleN a j) cs) (fBf a.ex.scale)
  ((toDy p.w).scale (if a.ex.fmt = 1 then -5 else 0), p.fl)

/-- R272, R273, R281: the spill terms of output j, summed in list order from +0; the factor 2^-10 is exact. -/
def spillSum (a : AckRec) (j : Nat) : FV :=
  (a.spills.filter fun e => e.st = 1).foldl (fun acc e =>
    let p := fMul (fMul (fInt ((at0 32#8 e.lv j).toNat - 32 : Int) 0) (fBf e.val)) (fBf (at0 0 a.samp.cs j))
    addDy (toDy acc.w) ((toDy p.w).scale (-10)) (acc.fl ||| p.fl)) fZero

/-- R268, R273: the slice value y_j. -/
def sliceValue (a : AckRec) (opscale j : Nat) : FV :=
  if a.status % 4 / 2 = 1 then fZero
  else
    let p := descaleP a opscale j
    let t := spillSum a j
    addDy p.1 (toDy t.w) (p.2 ||| t.fl)

/-- R306, R310, R313: the rows a DESCALE lost, in ascending order of row, with their causes. -/
def AckRec.lostRows (a : AckRec) : List (Nat × Nat) :=
  let failed := (a.spills.filter fun e => e.st = 2 || e.st = 3).map fun e => (e.row, if e.st = 2 then 3 else 4)
  (List.range 1024).filterMap fun r => (a.ex.lost ++ failed).find? fun p => p.1 = r

/-- The count record of R280. -/
def countRecord (a : AckRec) (status : Nat) : List Byte :=
  padTo 1056 (a.counts.flatMap fun c => leBytes (c % 1024) 2) ++ leBytes (status % 16 + (a.mode + 1) * 16) 2 ++ leBytes a.ex.scale 2
    ++ leBytes a.tile 2 ++ [0, 0] ++ leBytes a.launch 8 ++ List.replicate 16 0

/-- R316 to R319: what the weir counts of a delivered acknowledgement. -/
def State.weirDeliver (s : State) (isl : Nat) (a : AckRec) : State :=
  let t := a.tile % 16
  let s := if a.mode = 2 && a.phase != 0 then s else
    (s.weirAdd isl a.ctx a.launch (Reg.ISL_INP_CNT isl) a.ex.inp).weirAdd isl a.ctx a.launch (Reg.ISL_SAT_CNT isl) a.ex.sat
  let s := s.weirAdd isl a.ctx a.launch (Reg.ISL_ESC_CNT isl) (a.spills.filter fun e => e.st = 1).length
  if a.mode = 2 then s.weirPhase isl t a.ctx a.launch a.phase a.counts
  else s.weirPulse isl t a.ctx a.launch (if a.mode = 1 then 1023 else 63) a.counts

/-- R69 to R75: the registers and events of a compared pulse. -/
def State.noteCompare (s : State) (a : AckRec) (c : CkResult) : State :=
  let gt := a.tile
  let groups := c.miss ||| refGroups c.refBad
  let pop (v n : Nat) : Nat := ((List.range n).filter fun i => v / 2 ^ i % 2 = 1).length
  let s := s.incSat (Reg.TIL_CK_NEAR_CNT gt) c.near
  let s := if c.near = 0 then s else s.updTx gt fun x => { x with near := x.near + c.near }
  let s := s.incSat (Reg.TIL_CK_SKIP_CNT gt) (pop c.skip 8)
  if c.miss = 0 && c.refBad = 0 then s
  else
    let rep := b2n a.isRepeat
    let s := s.setReg (Reg.TIL_CK_LAST gt) (BitVec.ofNat 32 (groups + c.skip * 256 + rep * 65536))
    let s := if c.miss = 0 then s else
      (s.incSat (Reg.TIL_CK_MISS_CNT gt) 1).raiseC 4 gt Ev.TIL_CK_MISMATCH
        (some [BitVec.ofNat 8 groups, BitVec.ofNat 8 c.skip, BitVec.ofNat 8 rep]) a.ctx
    if c.refBad = 0 then s else
      s.raiseC 4 gt Ev.TIL_REF_RANGE
        (some ([BitVec.ofNat 8 c.refBad, BitVec.ofNat 8 groups, BitVec.ofNat 8 rep] ++ leBytes (refLast (a.mode = 1) a.counts) 4)) a.ctx

/-! ## DESCALEs of a DYN operation (R394, R416) -/

/-- Update the position of a tile in a DYN operation. -/
def DynRun.updPos (d : DynRun) (tile : Nat) (f : DynPos → DynPos) : DynRun :=
  { d with pos := d.pos.map fun p => if p.tile = tile then f p else p }

/-- Persistent mismatches of the pulse in hand on the tile of an acknowledgement. -/
def State.dynStrikes (s : State) (t : Ticket) (a : AckRec) : Nat :=
  (((Store.get dynNone s.dyns (t.dyn - 1)).pos.find? fun p => p.tile = a.tile % 16).elim 0 (·.strikes))

/-- R394: the block's columns of one output row, its tail with LEN = N and the OR of every status that went into it. -/
def State.deliverDyn (s : State) (k : Nat) (t : Ticket) (a : AckRec) (own : Nat) : State :=
  let isl := k / 256
  let d := Store.get dynNone s.dyns (t.dyn - 1)
  let vals := tabulate t.ncol fun i => sliceValue a t.p0 i
  let rs := own ||| flagsOf vals ||| t.srcStat ||| (Store.get flagZero d.rst t.wti - 1)
  let (s, f) := s.writeBytes isl t.ctx (t.outA + t.auxA) (padLines (packVals vals)) false
  let (s, f') := s.writeBytes isl t.ctx (tailAdr t.outA 3 t.rowN) ({ fmt := 3, len := t.rowN, rstat := rs : Tail }).bytes false
  let s := s.noteUse isl t.ctx t.job ([f, f'].filter (!·.isEmpty)) false
  let d := { d with rst := Store.put flagZero d.rst t.wti (rs + 1), done := d.done + 1 }.updPos (a.tile % 16) fun p => { p with strikes := 0 }
  let s := { s with dyns := Store.put dynNone s.dyns (t.dyn - 1) d }
  let s := if d.done = d.total then s.setTk (t.dyn - 1) { s.tkAt (t.dyn - 1) with ran := true } else s
  s.setTk k { s.tkAt k with ran := true, rstat := rs }

/-- R416: the mismatch persists: the block is written again and the pulse repeated once more; the second time the tile is fenced. -/
def State.dynPersist (s : State) (k : Nat) (t : Ticket) (a : AckRec) : State :=
  let isl := k / 256
  let s := (s.incSat (Reg.ISL_CK_PERSIST_CNT isl) 1).raiseC 3 isl Ev.ISL_CK_PERSIST none a.ctx
  let first := s.dynStrikes t a = 0
  let d := (Store.get dynNone s.dyns (t.dyn - 1)).updPos (a.tile % 16) fun p =>
    { p with rows := 0, strikes := p.strikes + 1, redo := t.kx + 1 }
  let s := { s with dyns := Store.put dynNone s.dyns (t.dyn - 1) d }
  let s := if first then s.lagEnter isl (a.tile % 16) 1 1 else s.fenceUnit isl (a.tile % 16) 0x11
  s.setTk k { s.tkAt k with ran := true, status := 32 }

/-- R265, R275, R351: write the values of an acknowledgement, or its count record. -/
def State.deliver (s : State) (k : Nat) (t : Ticket) (a : AckRec) (status : Nat) : State :=
  let isl := k / 256
  let n := if a.mode = 2 then 1024 else 512
  let lost := a.lostRows
  let own := status % 16 ||| flagIf a.isRepeat rsRepeat ||| (if status % 4 / 2 = 1 then 0 else
      clipFlag a.counts (if a.mode = 1 then 1023 else 63) (if a.mode = 2 then 256 else 512))
    ||| a.ex.rstat ||| flagIf (a.spills.any fun e => e.st = 1) rsEsc ||| flagIf (!lost.isEmpty) rsEscOvf
  let s := s.noteLost isl a.ctx a.launch (a.tile % 16) lost
  let s := if status % 4 != 0 then s else s.weirDeliver isl a
  if t.dyn != 0 then s.deliverDyn k t a own
  else if t.rflag 0 then
    let (s, f) := s.writeBytes isl t.ctx t.outA (countRecord a status) false
    let s := s.noteUse isl t.ctx t.job [f] false
    s.setTk k { s.tkAt k with ran := true, rstat := own }
  else
    let acc := t.kx != 0 || t.rflag 1
    let pr := s.readRow isl t.ctx (if t.kx = 0 then t.auxA else t.outA) 3 n
    let old := s.readRow isl t.ctx t.outA 3 n
    let idx := if a.mode = 2 then tabulate 256 fun i => 4 * i + a.phase else List.range 512
    let vals := tabulate idx.length fun i =>
      let y := sliceValue a t.p0 i
      if acc then fAdd (pr.val (at0 0 idx i)) y else y
    let s := if acc then s.noteUse isl t.ctx t.job pr.faults pr.poison else s
    let rs := own ||| flagsOf vals ||| (if acc then pr.tail.rstat ||| pr.shape 3 n else 0)
      ||| (if a.mode = 2 && a.phase != 0 then old.tail.rstat else 0)
    if a.mode = 2 then
      let base := if a.phase = 0 then List.replicate 4096 0#8 else old.data
      let data := (idx.zip vals).foldl (fun d p => patchAt d (4 * p.1) (leBytes p.2.w.toNat 4)) (if acc then pr.data else base)
      let data := if acc && a.phase != 0 && t.kx = 0 then
          (idx.zip vals).foldl (fun d p => patchAt d (4 * p.1) (leBytes p.2.w.toNat 4)) old.data else data
      s.finishRow k t.outA data { fmt := 3, len := n, rstat := rs } none
    else s.finishRow k t.outA (packVals vals) { fmt := 3, len := n, rstat := rs } none

/-- R847: the first attempt found a fault: no output; the acknowledgement is kept for its repeat, and what waits for this DESCALE
waits for the repeat's. -/
def State.askRepeat (s : State) (k : Nat) (t : Ticket) (a : AckRec) : State :=
  let key := 2 ^ 20 + s.nextRep
  let s := { s with nextRep := s.nextRep + 1, acks := s.acks ++ [{ a with repKey := key, dtk := [t] }] }
  let s := s.mapTk (fun _ u => u.deps.contains k) fun u => { u with deps := u.deps.map fun d => if d = k then key else d }
  s.setTk k { s.tkAt k with ran := true, status := 32 }

/-- DESCALE (R265 to R288, R847 to R849). -/
def State.runDescale (s : State) (k : Nat) (t : Ticket) : State :=
  match s.ackFor t with
  | none => s
  | some a =>
    let isl := k / 256
    let s := { s with acks := s.acks.erase a }
    if a.mode = 2 || a.status % 4 != 0 then s.deliver k t a a.status
    else
      let c := compareCounts (a.mode = 1) a.counts a.samp.g a.samp.tol a.samp.win a.samp.refEn
      let s := s.noteCompare a c
      let bad := c.miss != 0 || c.refBad != 0
      if t.dyn != 0 && bad && (a.isRepeat || s.dynStrikes t a != 0) then s.dynPersist k t a
      else if !a.isRepeat && bad then s.askRepeat k t a
      else
        let s := if !a.isRepeat then s
          else if !bad then s.incSat (Reg.ISL_CK_TRANS_CNT isl) 1
          else ((s.incSat (Reg.ISL_CK_PERSIST_CNT isl) 1).raiseC 3 isl Ev.ISL_CK_PERSIST none a.ctx).persistence a.tile 1
        s.deliver k t a (flagIf (c.refBad != 0) rsRefRange ||| flagIf (a.isRepeat && bad) rsCkMiss)

/-- DESCALE. -/
def execDescale (isl : Isl) (idx : TktIx) (s : State) : Host.Outcome State Fault Refusal :=
  .next (s.runRop isl idx 0x01 fun s k t => s.runDescale k t)

/-- REPEAT_PULSE (R847, R848, R881): the island issues the repeat pulse, with the drives latched for the first attempt, and
the repeat DESCALE, as soon as two entries are free; the pulse launches when R476 allows it. -/
def execRepeatPulse (isl : Isl) (s : State) : Host.Outcome State Fault Refusal :=
  .next <|
    match s.acks.find? fun a => a.repKey != 0 && a.tile / 16 = isl.val with
    | none => s
    | some a =>
      let free := (List.range 256).filter fun i => (s.tk isl i).state = 0
      match free, a.dtk with
      | i :: j :: _, d :: _ =>
        let jb := s.job a.job
        if jb.st != 3 || jb.failed then { s with acks := s.acks.erase a }
        else
          let ext := a.mode = 1
          let dl := if ext then 13 else 9
          let p : Ticket :=
            { state := 1, launch := s.now + 1, planned := s.now + 1, dln := dl, uindex := a.tile % 16, uclass := 0
              action := if ext then 2 else 1, ctx := a.ctx, desc := a.desc, step := jb.step, job := a.job, plan := jb.plan
              iter := a.iter, phase := a.phase, mvmMode := a.mode, extent := d.extent, ex := a.ex, spills := a.spills
              slot := dl, isRepeat := true }
          let q : Ticket := { d with state := 1, launch := s.now + 1, planned := s.now + 1, dln := 1, deps := [isl.val * 256 + i]
                                     isRepeat := true, ran := false, status := 0, late := 0, wait := 0 }
          let s := { s with acks := s.acks.erase a }
          let s := (s.setTk (isl.val * 256 + i) p).setTk (isl.val * 256 + j) q
          let s := s.mapTk (fun _ u => u.deps.contains a.repKey) fun u =>
            { u with deps := u.deps.map fun x => if x = a.repKey then isl.val * 256 + j else x }
          s.noteLive isl
      | _, _ => s

end Sys2Proof.Machine
end

