-- ==== Sys2Proof/Machine/Adapt.lean ====
section
/-!
DEFINITION. Adaptation: GQUANT, OUTER and OPTSTEP (R427 to R445).
-/
namespace Sys2Proof.Machine

/-! ## GQUANT (R427 to R429) -/

/-- trunc of the exact value of a × b / c, c not zero (R427). -/
def fTruncMulDiv (a b c : FV) : Int :=
  let x := toDy a.w
  let y := toDy b.w
  let z := toDy c.w
  let e := x.e + y.e - z.e
  let q := if 0 ≤ e then x.m * y.m * 2 ^ e.toNat / z.m else x.m * y.m / (z.m * 2 ^ (-e).toNat)
  if (x.neg != y.neg) != z.neg then -(q : Int) else q

/-- R428: a BF16 pattern is zero (a subnormal included, R244) or not finite. -/
def bfDead (b : Nat) : Bool := b / 128 % 256 = 0 || b / 128 % 256 = 255

/-- GQUANT. -/
def execGquant (isl : Isl) (idx : TktIx) (s : State) : Host.Outcome State Fault Refusal :=
  .next (s.runRop isl idx 0x0D fun s k t =>
    let n := t.rlen
    let r := s.valueRow k t t.inA
    let a := s.readBytes isl t.ctx (tailAdr t.auxA 0 n) 64
    let at' := parseTail a.bytes
    let dead := bfDead at'.scale || bfDead t.p0
    let q := (r.vals n).map fun v => if dead then 0 else fTruncMulDiv v (fBf at'.scale) (fBf t.p0)
    let clipped := (q.filter fun x => 127 < x || x < -127).length
    let s := s.noteUse isl t.ctx t.job (r.faults ++ (if a.faults.isEmpty then [] else [a.faults])) (r.poison || a.poison)
    let s := if clipped = 0 then s else
      (s.incSat (Reg.ISL_GCLIP_CNT isl) clipped).raiseC 3 isl Ev.ADP_GCLIP none t.ctx
    let rs := r.tail.rstat ||| at'.rstat ||| r.shape 3 n ||| flagsOf (r.vals n)
    s.finishRow k t.outA (packCodes 0 (q.map (clampI (-127) 127)))
      { scale := if dead then 0 else bfOf (fDiv (fBf t.p0) (fBf at'.scale)).w, fmt := 0, len := n, rstat := rs } none)

/-! ## OUTER (R430 to R435) -/

/-- A signed byte. -/
def sbyte (b : Byte) : Int := sgn 8 b.toNat

/-- R251, R434: an input code's value, 0 for the escape code of its format. -/
def outerVal (xfmt zp : Nat) (b : Byte) : Int :=
  if xfmt = 2 then (b.toNat : Int) - zp else if b = 0x80#8 then 0 else sbyte b

/-- R432: the exact accumulators: base plus the sum over the tokens of column code times row code. -/
def outerExact (cs vs : List (List Int)) (base : Nat → Int) : List Int :=
  tabulate 8192 fun w => (cs.zip vs).foldl (fun (a : Int) p => a + at0 0 p.1 (w % 64) * at0 0 p.2 (w / 64)) (base w)

/-- R433: the accumulator saturates at ±(2^31 - 1). -/
def outerSat (x : List Int) : Nat := (x.filter fun x => 2147483647 < x || x < -2147483647).length

/-- R433: the stored accumulators. -/
def outerBytes (x : List Int) : List Byte := x.flatMap fun x => leBytes (twos 32 (clampI (-2147483647) 2147483647 x)) 4

/-- The counters and the event of an OUTER. -/
def State.outerCount (s : State) (isl ctx esc sat : Nat) : State :=
  let s := if esc = 0 then s else s.incSat (Reg.ISL_XESC_CNT isl) esc
  if sat = 0 then s else (s.incSat (Reg.ISL_ACC_SAT_CNT isl) sat).raiseC 3 isl Ev.ADP_ACC_SAT none ctx

/-- The rows an OUTER reads: columns, values, and the accumulator where it adds to it. -/
def State.outerReads (s : State) (isl : Nat) (t : Ticket) : List BasinRead × List BasinRead × BasinRead :=
  ((List.range t.p2).map fun i => s.readBytes isl t.ctx (t.inA + 64 * (t.p1 / 256) * i) 64,
   (List.range t.p2).map fun i => s.readBytes isl t.ctx (t.auxA + 64 * (t.p1 % 256) * i) 128,
   if t.rflag 1 then s.readBytes isl t.ctx t.outA 32768 else ⟨[], [], false⟩)

/-- Write the result of an action at OUT_A, and note the lines that failed. -/
def State.putNoted (s : State) (isl : Nat) (t : Ticket) (bs : List Byte) : State :=
  let (s, f) := s.writeBytes isl t.ctx t.outA bs false
  s.noteUse isl t.ctx t.job [f] false

/-- The action of a ticket has run. -/
def State.ranTk (s : State) (k : Nat) : State := s.setTk k { s.tkAt k with ran := true }

/-- OUTER (R432 to R434): the accumulator of 128 × 64 words. -/
def execOuter (isl : Isl) (idx : TktIx) (s : State) : Host.Outcome State Fault Refusal :=
  .next (s.runRop isl idx 0x09 fun s k t =>
    let r := s.outerReads isl t
    let xf := t.p0 % 4
    let cs := r.1.map fun b => b.bytes.map fun x => if x = 0x80#8 then (0 : Int) else sbyte x
    let vs := r.2.1.map fun b => b.bytes.map (outerVal xf (t.p0 / 256))
    let esc := r.2.1.foldl (fun a b => a + (b.bytes.filter fun x => xf = 0 && x = 0x80#8).length) 0
    let exact := outerExact cs vs fun w => if t.rflag 1 then sgn 32 (leAt r.2.2.bytes (4 * w) 4) else 0
    let all := r.1 ++ r.2.1 ++ [r.2.2]
    let s := s.noteUse isl t.ctx t.job ((all.map (·.faults)).filter (!·.isEmpty)) (all.any (·.poison))
    let s := s.outerCount isl t.ctx esc (outerSat exact)
    (s.putNoted isl t (outerBytes exact)).ranTk k)

/-! ## OPTSTEP (R436 to R445) -/

/-- R441: one weight: momentum, new level, residual, and whether the level was clamped. -/
def optWeight (acc mq : Int) (ms : FV) (rq level : Int) (cs eta beta : FV) : FV × Int × Int × Bool :=
  let f := if cs.isZero then fZero else fDiv eta cs
  let u := fMul (fInt acc 0) f
  let m := fAdd (fMul beta (fMul (fInt mq 0) ms)) u
  let t := clampI (-16777216) 16777216 (fTrunc (fMul (fInt (-256) 0) m) + rq)
  let k := t.tdiv 256
  let rem := t - 256 * k
  let (k, rem) := if 127 < rem then (k + 1, rem - 256) else if rem < -128 then (k - 1, rem + 256) else (k, rem)
  let l := clampI 0 63 (level + k)
  (m, l, rem, l != level + k)

/-- R442: the block scale and the momentum codes of one row of a band. -/
def requant (m : List FV) : Nat × List Int :=
  let a := m.foldl (fun a v => let x := fAbs v; if fLt a x then x else a) fZero
  let ms := bfOf (fDiv a (fInt 127 0)).w
  let sc := fBf ms
  (ms, m.map fun v => if sc.isZero then 0 else clampI (-127) 127 (fTruncDiv v sc))

/-- A byte of a signed number. -/
def byteI (x : Int) : Byte := BitVec.ofNat 8 (twos 8 x)

/-- R441: the weights of a band, row by row, from its frame, its accumulator and its levels. -/
def optRows (fr ac : List Byte) (slab : List (List Byte)) (eta beta : FV) : List (List (FV × Int × Int × Bool)) :=
  (List.range 128).map fun i =>
    (List.range 64).map fun j =>
      optWeight (sgn 32 (leAt ac (4 * (64 * i + j)) 4)) (sbyte (at0 0 fr (64 * i + j))) (fBf (leAt fr (16384 + 2 * i) 2))
        (sbyte (at0 0 fr (8192 + (64 * i + j)))) ((at0 0 (at0 [] slab i) j).toNat : Int) (FV.of (BitVec.ofNat 32 (leAt fr (16704 + 4 * j) 4))) eta beta

/-- R441: the new levels, row by row. -/
def optLevels (rows : List (List (FV × Int × Int × Bool))) : List (List Byte) := rows.map fun r => r.map fun w => BitVec.ofNat 8 w.2.1.toNat

/-- R443: how many levels were clamped. -/
def optClamps (rows : List (List (FV × Int × Int × Bool))) : Nat := rows.foldl (fun a r => a + (r.filter fun w => w.2.2.2).length) 0

/-- R442, R443: the frame an OPTSTEP writes back. -/
def optFrame (fr : List Byte) (rows : List (List (FV × Int × Int × Bool))) : List Byte :=
  let q := rows.map fun r => requant (r.map (·.1))
  (q.flatMap fun r => r.2.map byteI) ++ (rows.flatMap fun r => r.map fun w => byteI w.2.2.1)
    ++ (q.flatMap fun r => leBytes r.1 2) ++ leBytes (leAt fr 16640 8 + 1) 8 ++ leBytes (optClamps rows) 2
    ++ (fr.drop 16650).take (20480 - 16650) ++ (optLevels rows).flatten

/-- Write the levels of a band, 512 bytes from row to row. -/
def State.writeSlab (s : State) (isl ctx adr : Nat) (rows : List (List Byte)) : State × List LineFault :=
  (rows.zip (List.range 128)).foldl (fun (p : State × List LineFault) r =>
    ((p.1.writeBytes isl ctx (adr + 512 * r.2) r.1 false).1, p.2 ++ (p.1.writeBytes isl ctx (adr + 512 * r.2) r.1 false).2)) (s, [])

/-- Write a band's frame and its levels, and note the lines that failed. -/
def State.putBand (s : State) (isl : Nat) (t : Ticket) (frame : List Byte) (levels : List (List Byte)) : State :=
  let (s, f1) := s.writeBytes isl t.ctx t.inA frame false
  let (s, f2) := s.writeSlab isl t.ctx t.outA levels
  s.noteUse isl t.ctx t.job ([f1, f2].filter (!·.isEmpty)) false

/-- The counters and the event of an applied OPTSTEP. -/
def State.optCount (s : State) (isl ctx clamps : Nat) : State :=
  let s := s.add64 (Reg.ISL_BAND_CNT_LO isl) (Reg.ISL_BAND_CNT_HI isl) 1
  if clamps = 0 then s else (s.incSat (Reg.ISL_LVL_CLAMP_CNT isl) clamps).raiseC 3 isl Ev.ADP_LVL_CLAMP none ctx

/-- OPTSTEP (R440 to R445). -/
def execOptstep (isl : Isl) (idx : TktIx) (s : State) : Host.Outcome State Fault Refusal :=
  .next (s.runRop isl idx 0x0A fun s k t =>
    let fr := s.readBytes isl t.ctx t.inA 28672
    let ac := s.readBytes isl t.ctx t.auxA 32768
    let slab := (List.range 128).map fun i => s.readBytes isl t.ctx (t.outA + 512 * i) 64
    let all := [fr, ac] ++ slab
    let s := s.noteUse isl t.ctx t.job ((all.map (·.faults)).filter (!·.isEmpty)) (all.any (·.poison))
    if slab.any fun (b : BasinRead) => b.bytes.any fun x => 63 < x.toNat then
      -- R444: the band is skipped.
      ((s.incSat (Reg.ISL_BAND_SKIP_CNT isl) 1).raiseC 3 isl Ev.ADP_BAND_SKIP none t.ctx).ranTk k
    else
      let rows := optRows fr.bytes ac.bytes (slab.map fun (b : BasinRead) => b.bytes) (fBf t.p0) (fInt t.p2 (-8))
      ((s.putBand isl t (optFrame fr.bytes rows) (optLevels rows)).optCount isl t.ctx (optClamps rows)).ranTk k)

end Sys2Proof.Machine
end

