-- ==== Sys2Proof/Machine/Walk.lean ====
section
/-!
DEFINITION. Plan tables and the walk of the loop descriptors (R342 to R352, R356, R1126, R612, R613).
-/
namespace Sys2Proof.Machine

/-- A level entry (R343). -/
structure Level where
  bound : Nat
  inS : Int
  outS : Int
  auxS : Int
  tileS : Int
  outpos : Bool
  ksplit : Bool
  barrier : Bool
  tick : Nat
  raw15 : Bool
  deriving DecidableEq, Repr

/-- A loop descriptor (R343). -/
structure Desc where
  op : Nat
  mode : Nat
  fmt : Nat
  spill : Nat
  zp : Nat
  extent : Nat
  rop : Nat
  inL : Nat
  outL : Nat
  auxL : Nat
  wtiBase : Nat
  levels : List Level
  order : List Nat
  slot : Nat
  t0 : Nat
  dln : Nat
  deriving DecidableEq, Repr

/-- Read a level entry from its 16 bytes. -/
def parseLevel (b : List Byte) : Level :=
  let w := leAt b 11 2
  { bound := leAt b 0 2, inS := sgn 24 (leAt b 2 3), outS := sgn 24 (leAt b 5 3), auxS := sgn 24 (leAt b 8 3)
    tileS := sgn 12 w, outpos := nfld w 12 1 = 1, ksplit := nfld w 13 1 = 1, barrier := nfld w 14 1 = 1
    tick := leAt b 13 3, raw15 := nfld w 15 1 = 1 }

/-- Read a descriptor from its 128 bytes. -/
def parseDesc (b : List Byte) : Desc :=
  { op := leAt b 0 1, mode := nfld (leAt b 1 1) 0 2, fmt := nfld (leAt b 1 1) 2 2, spill := nfld (leAt b 2 1) 0 5
    zp := leAt b 3 1, extent := nfld (leAt b 4 2) 0 11, rop := nfld (leAt b 6 2) 0 10
    inL := leAt b 8 2, outL := leAt b 10 2, auxL := leAt b 12 2, wtiBase := nfld (leAt b 14 2) 0 12
    levels := tabulate 6 fun s => parseLevel ((b.drop (16 + 16 * s)).take 16)
    order := tabulate 6 fun d => nfld (leAt b 112 3) (3 * d) 3
    slot := leAt b 115 1, t0 := leAt b 116 4, dln := leAt b 120 2 }

/-- R294 parameters: the last four bytes of an item hold the CRC-32C of those before. -/
def crcOk (b : List Byte) : Bool :=
  leAt b (b.length - 4) 4 = (crc32c (b.take (b.length - 4))).toNat

/-- A level of a descriptor by slot. -/
def Desc.lvl (d : Desc) (slot : Nat) : Level := d.levels.getD slot (parseLevel [])

/-- The number of iterations. -/
def Desc.iters (d : Desc) : Nat := (d.levels.map (·.bound)).foldl (· * ·) 1

/-- R346: the odometer: index of each nesting depth, deepest turning fastest; result by level slot. -/
def Desc.idxFrom (d : Desc) : List Nat → Nat → List (Nat × Nat)
  | [], _ => []
  | s :: deeperFirst, n =>
    let b := max 1 (d.lvl s).bound
    (s, n % b) :: d.idxFrom deeperFirst (n / b)

/-- The index of level slot `s` in iteration `n` of the walk. -/
def Desc.idx (d : Desc) (n s : Nat) : Nat :=
  ((d.idxFrom d.order.reverse n).find? fun p => p.1 = s).elim 0 (·.2)

/-- Σ i_s × f(level s) over the six slots (R345). -/
def Desc.sum (d : Desc) (n : Nat) (f : Level → Int) : Int :=
  (List.range 6).foldl (fun a s => a + (d.idx n s : Int) * f (d.lvl s)) 0

/-- One ticket that a walk emits: its launch offset from the step origin and its operands (R345 to R352). -/
structure Em where
  t : Nat
  desc : Nat
  ord : Nat
  iter : Nat
  action : Nat
  uclass : Nat
  inA : Nat
  outA : Nat
  auxA : Nat
  wti : Nat
  kx : Nat
  phase : Nat
  dln : Nat
  deriving DecidableEq, Repr

/-- Key of the issue order: launch offset, descriptor index, order within the descriptor (R347). -/
def Em.key (e : Em) : Nat × Nat × Nat := (e.t, e.desc, e.ord)

/-- Lexicographic order of issue keys. -/
def keyLt (a b : Nat × Nat × Nat) : Bool :=
  a.1 < b.1 || (a.1 = b.1 && (a.2.1 < b.2.1 || (a.2.1 = b.2.1 && a.2.2 < b.2.2)))

/-- The tickets of iteration `n` of descriptor `di` (R344, R349, R350, R352). -/
def Desc.emit (d : Desc) (di n : Nat) : List Em :=
  let t := d.t0 + (d.sum n fun l => l.tick).toNat
  let kx := ((List.range 6).find? fun s => (d.lvl s).ksplit).elim 0 fun s => d.idx n s
  let base : Em :=
    { t := t, desc := di, ord := 8 * n, iter := n, action := 0, uclass := 0
      inA := (64 * (d.inL : Int) + d.sum n (·.inS)).toNat, outA := (64 * (d.outL : Int) + d.sum n (·.outS)).toNat
      auxA := (64 * (d.auxL : Int) + d.sum n (·.auxS)).toNat
      wti := ((d.wtiBase : Int) + d.sum n (·.tileS)).toNat, kx := kx, phase := 0, dln := d.dln }
  if d.op = 0x10 then
    if d.mode = 2 then
      (List.range 4).flatMap fun p =>
        [{ base with t := t + p * d.slot, ord := 8 * n + p, action := 3, phase := p },
         { base with t := t + (p + 1) * d.slot + kx, ord := 8 * n + 4 + p, action := 0x10, uclass := 1, phase := p, dln := 1 }]
    else
      [{ base with action := if d.mode = 1 then 2 else 1 },
       { base with t := t + d.slot + 5 * d.spill + kx, ord := 8 * n + 1, action := 0x10, uclass := 1, dln := 1 }]
  else if d.op = 0x20 then [{ base with action := 0x10, uclass := 1 }]
  else if d.op = 0x30 then [{ base with action := 0x20, uclass := 2 }]
  else if d.op = 0x40 then [{ base with action := 0x30, uclass := 4 }]
  else if d.op = 0x50 then [{ base with action := if d.mode = 0 then 5 else 6 }]
  else []

/-! ## The tables of a plan in a basin -/

/-- R342: the island root line of a plan on an island. -/
def State.rootLine (s : State) (p : Plan) (isl : Nat) : List Byte :=
  (s.readLines isl p.ctx (Store.get (fun _ => 0) p.regionLine isl) 1).bytes

/-- Bytes of descriptor `i`. -/
def State.descBytes (s : State) (p : Plan) (isl i : Nat) : List Byte :=
  (s.readLines isl p.ctx (leAt (s.rootLine p isl) 0 2 + 2 * i) 2).bytes

/-- Bytes of rill entry `i` (R356). -/
def State.ropBytes (s : State) (p : Plan) (isl i : Nat) : List Byte :=
  (s.readBytes isl p.ctx (64 * leAt (s.rootLine p isl) 4 2 + 16 * i) 16).bytes

/-- R1126: tile assignment entry `i`. -/
def State.wtiWord (s : State) (p : Plan) (isl i : Nat) : Nat :=
  leAt (s.readBytes isl p.ctx (64 * leAt (s.rootLine p isl) 8 2 + 4 * i) 4).bytes 0 4

/-- The descriptors of a plan on an island. -/
def State.descs (s : State) (p : Plan) (isl : Nat) : List Desc :=
  tabulate (leAt (s.rootLine p isl) 2 2) fun i => parseDesc (s.descBytes p isl i)

/-! ## Ferry commands (R613) -/

/-- A member of a ferry command: plan island, and weight-tile index or basin line. -/
def cmdMember (c : List Byte) (i : Nat) : Nat × Nat :=
  let w := leAt c (24 + 4 * i) 4
  (nfld w 0 6, nfld w 6 16)

/-- The members of a ferry command. -/
def cmdMembers (c : List Byte) : List (Nat × Nat) := (List.range (leAt c 2 1 % 16)).map (cmdMember c)

/-- ONCE of a ferry command. -/
def cmdOnce (c : List Byte) : Bool := leAt c 1 1 % 2 = 1

/-- The tickets that per-step ferry commands place on a grid island (R347, R612): one per command and member island. -/
def State.cmdEms (s : State) (p : Plan) (isl : Nat) : List Em :=
  (List.range p.cmds.length).filterMap fun i =>
    let c := p.cmds.getD i []
    if !cmdOnce c && (cmdMembers c).any (fun m => s.gridIsl p m.1 = isl) then
      some { t := leAt c 4 4, desc := 1024 + i, ord := 0, iter := 0, action := 7, uclass := 3, inA := 0, outA := 0, auxA := 0
             wti := 0, kx := 0, phase := 0, dln := leAt c 8 4 }
    else none

/-- Every ticket of one step of a plan on an island. -/
def State.emissions (s : State) (p : Plan) (isl : Nat) : List Em :=
  let ds := s.descs p isl
  ((List.range ds.length).flatMap fun i =>
    let d := ds.getD i (parseDesc [])
    (List.range d.iters).flatMap fun n => d.emit i n) ++ s.cmdEms p isl

/-- The least element of a list of emissions in issue order that comes after a key. -/
def nextEm (c : Option (Nat × Nat × Nat)) (l : List Em) : Option Em :=
  l.foldl (fun b e =>
    let after := match c with | none => true | some k => keyLt k e.key
    if !after then b
    else match b with
      | none => some e
      | some x => if keyLt e.key x.key then some e else some x) none

/-- The cursor of a job on an island: the key issued last (stored with 1 added to its first part). -/
def Job.cur (j : Job) (isl : Nat) : Option (Nat × Nat × Nat) :=
  let c := Store.get (fun _ => (0, 0, 0)) j.cursor isl
  if c.1 = 0 then none else some (c.1 - 1, c.2.1, c.2.2)

/-- Advance the cursor. -/
def Job.setCur (j : Job) (isl : Nat) (k : Nat × Nat × Nat) : Job :=
  { j with cursor := Store.put (fun _ => (0, 0, 0)) j.cursor isl (k.1 + 1, k.2.1, k.2.2) }

/-- The next ticket a job issues on an island. -/
def State.nextOf (s : State) (j : Job) (isl : Nat) : Option Em :=
  nextEm (j.cur isl) (s.emissions (s.plan j.plan) isl)

/-- Every ticket of a job's step has been issued. -/
def State.allIssued (s : State) (j : Job) : Bool :=
  (s.planIslands (s.plan j.plan)).all fun i => (s.nextOf j i).isNone

end Sys2Proof.Machine
end

