-- ==== Sys2Proof/Machine/Plans.lean ====
section
/-!
DEFINITION. Harbour windows and lines, tile owners, the end of a plan and of a job (R577 to R586, R673 to R677, R378, R366).
-/
namespace Sys2Proof.Machine

/-! ## The harbour (R577 to R586, R673 to R676) -/

/-- R579: frames 0 to 31 are OVERFLOW, the others FREE. -/
def frameReset (f : Nat) : Frame := if f < 32 then { ty := 3 } else {}
/-- A frame. -/
def State.frame (s : State) (f : Nat) : Frame := Store.get frameReset s.frames f

/-- R580: the physical block of a window-relative block of a context; `none` for an unbacked position. -/
def State.winBlock (s : State) (c w : Nat) : Option Nat :=
  let e := Store.get (fun _ => {}) (s.cx c).win (w / 512)
  if e.backed then some (e.frame * 512 + w % 512) else none

/-- A harbour byte. -/
def State.hbByte (s : State) (a : Nat) : Byte := Store.get basinZero s.harbour a

/-- R673: bytes of a physical block from an offset: zeros of an unwritten block. -/
def State.hbBytes (s : State) (blk off n : Nat) : List Byte :=
  if Store.get flagZero s.hbWritten blk = 0 then List.replicate n 0 else tabulate n fun i => s.hbByte (blk * 4096 + off + i)

/-- R584: a line of a block is poisoned. -/
def State.hbPois (s : State) (blk line : Nat) : Bool := Store.get flagZero s.hbPoison (blk * 64 + line) = 1

/-- R649: a failed stack leaves every frame unreadable: a read of any line is met as a poisoned one (log entry 31). -/
def State.hbBad (s : State) (blk line : Nat) : Bool := s.hbPois blk line || (List.range 6).any fun h => s.getB (Reg.HBR_STS h) 1

/-- Poison or clear a line; HBR.POISON_CNT counts lines poisoned. -/
def State.setHbPois (s : State) (blk line : Nat) (p : Bool) : State :=
  let s := if p && !s.hbPois blk line then s.incSat (Reg.HBR_POISON_CNT (blk % 6)) 1 else s
  { s with hbPoison := Store.put flagZero s.hbPoison (blk * 64 + line) (b2n p) }

/-- The bytes of a block whose lines nothing has written. -/
def zeroBlock : List Byte := List.replicate 4096 0

/-- The first write to a block of a new frame: every other byte of the block is 0, and the block counts as written. -/
def State.hbFresh (s : State) (blk : Nat) : State :=
  if Store.get flagZero s.hbWritten blk = 0 then
    { s with harbour := putCells s.harbour (blk * 4096) zeroBlock, hbWritten := Store.put flagZero s.hbWritten blk 1 }
  else s

/-- R582, R585, R586, R673: write bytes within one line of a physical block. `poison`: the data is poisoned (R843). -/
def State.hbWriteLine (s : State) (blk line off : Nat) (bs : List Byte) (poison : Bool) : State :=
  let s := s.hbFresh blk
  let s := { s with harbour := putCells s.harbour (blk * 4096 + line * 64 + off) bs }
  let whole := off = 0 && bs.length = 64
  let s := s.add64 (Reg.HBR_WR_BYTES_LO (blk % 6)) (Reg.HBR_WR_BYTES_HI (blk % 6)) bs.length
  s.setHbPois blk line (if whole then poison else s.hbPois blk line || poison)

/-- Write bytes of a physical block from an offset, line by line. -/
def State.hbWrite (s : State) (blk off : Nat) (bs : List Byte) (poison : Bool) : Nat → State
  | 0 => s
  | n + 1 =>
    if bs.isEmpty then s
    else
      let k := 64 - off % 64
      (s.hbWriteLine blk (off / 64) (off % 64) (bs.take k) poison).hbWrite blk (off + k) (bs.drop k) poison n

/-- Count bytes read from a block's stack. -/
def State.hbCountRead (s : State) (blk n : Nat) : State :=
  s.add64 (Reg.HBR_RD_BYTES_LO (blk % 6)) (Reg.HBR_RD_BYTES_HI (blk % 6)) n

/-- R604, R644, R608: a frame returns to FREE: its blocks are unwritten and clean, slots that begin in it leave the bad list. -/
def State.freeFrame (s : State) (f : Nat) : State :=
  { s with
    frames := Store.put frameReset s.frames f {}
    harbour := s.harbour.filter fun p => p.1 / 4096 / 512 != f
    hbPoison := s.hbPoison.filter fun p => p.1 / 64 / 512 != f
    hbWritten := s.hbWritten.filter fun p => p.1 / 512 != f
    badSlots := s.badSlots.filter fun b => b / 512 != f }

/-! ## Tile owners (R677) -/

/-- Owner context of a tile. -/
def State.owner (s : State) (gt : Nat) : Option Nat :=
  let o := Store.get flagZero s.owners gt
  if o = 0 then none else some (o - 1)

/-- Set or clear the owner of a tile. -/
def State.setOwner (s : State) (gt : Nat) (o : Option Nat) : State :=
  -- A tile without an owner has no reprogramming source and none in progress.
  let s := if o.isSome then s else
    let s := s.updTx gt fun x => { x with src := none, needReprog := 0, reStep := 0, reCause := 0 }
    s.setF (Reg.ISL_REPROG_STS (gt / 16)) (gt % 16) 1 0
  { s with owners := Store.put flagZero s.owners gt (o.elim 0 (· + 1)) }

/-- The tiles that a plan's assignment tables name (R1126): every valid entry. -/
def State.planTiles (s : State) (p : Plan) : List Nat :=
  (s.planIslands p).flatMap fun isl =>
    (List.range (leAt (s.rootLine p isl) 10 2)).filterMap fun i =>
      let w := s.wtiWord p isl i
      if nfld w 15 1 = 1 then some (isl * 16 + nfld w 0 4) else none

/-- R164, R456: firmware releases a tile; its ADP_TILES bit clears. -/
def State.releaseTile (s : State) (gt : Nat) : State :=
  (s.setF (Reg.ISL_ADP_TILES (gt / 16)) (gt % 16) 1 0).release gt

/-! ## Unloading (R366, R378, R644, R677) -/

/-- The other loaded plans of a plan's context. -/
def State.otherPlans (s : State) (h : Nat) : List Nat :=
  (s.plans.filter fun e => e.1 != h && e.2.live && e.2.ctx = (s.plan h).ctx).map (·.1)

/-- R366: return the sluice reservation of a plan. -/
def State.freeRsv (s : State) (p : Plan) : State :=
  let a := s.ac p.part
  s.setAc p.part { a with rsvA := a.rsvA - p.rateArr, rsvC := a.rsvC - p.rateCore, burstA := a.burstA - p.burstArr
                          burstC := a.burstC - p.burstCore }

/-- A window position of a context beyond its page. -/
def winNone (_ : Nat) : WinEnt := {}

/-- R673, R674: a free frame backs a window position with a type (1 DATA, 2 SHARD). -/
def State.backPos (s : State) (c pos f ty : Nat) : State :=
  let x := s.cx c
  let s := { s with frames := Store.put frameReset s.frames f { ty := ty, owner := c + 1 } }
  let s := s.setCx c { x with win := Store.put winNone x.win pos { backed := true, frame := f, ty := ty } }
  s.incWrapF (Reg.CTX_WIN_BACKED c) 0 17 1

/-- The frame of a window position returns to FREE. -/
def State.unbackPos (s : State) (c pos : Nat) : State :=
  let x := s.cx c
  let e := Store.get winNone x.win pos
  if !e.backed then s
  else
    let s := (s.freeFrame e.frame).setCx c { x with win := Store.put winNone x.win pos {} }
    s.setF (Reg.CTX_WIN_BACKED c) 0 17 (s.getF (Reg.CTX_WIN_BACKED c) 0 17 - 1)

/-- The job number that armed tickets of a plan carry until a commit binds them (R751). -/
def armedJob (h : Nat) : Nat := 2 ^ 64 + h

/-- CTX_STS.PLANS follows the loaded plans of a context. -/
def State.countPlans (s : State) (c : Nat) : State :=
  s.setF (Reg.CTX_STS c) 2 2 (s.plans.filter fun e => e.2.live && e.2.ctx = c).length

/-- R773, R769, R771: a fast queue loses its binding and its landing buffer becomes free. -/
def State.unbind (s : State) (p : Nat → Landing → Bool) : State :=
  let gone := s.landing.filter fun e => p e.1 e.2
  let s := { s with landing := s.landing.filter fun e => !p e.1 e.2 }
  gone.foldl (fun s e =>
    let k := e.2.fn * 16 + e.2.queue
    { s with qps := Store.upd (fun _ => {}) s.qps k fun q => { q with flBound := false } }) s

/-- R677, R366, R644, R674, R773: the plan leaves: owners, tiles, leases, reservation, the frames its import backed, its fast
binding, its armed tickets and ONCE runs; jobs that still wait for it end BAD_PLAN; the UNLOAD jobs that asked for it end. -/
def State.unloadNow (s : State) (h : Nat) : State :=
  let p := s.plan h
  if !p.live then s
  else
    let keep := (s.otherPlans h).flatMap fun o => s.planTiles (s.plan o)
    let s := ((s.planTiles p).filter fun t => !keep.contains t && s.owner t = some p.ctx).foldl
      (fun s t => (s.setOwner t none).releaseTile t) s
    let s := (s.tickets.filter fun e => e.2.plan = h && (e.2.job = 0 || e.2.job = armedJob h)).foldl (fun s e => s.freeTk e.1) s
    let s := { s with leases := s.leases.filter fun l => !(l.plan = h && l.kind = 1)
                      runs := s.runs.filter fun r => !(r.2.plan = h && r.2.job = 0) }
    let s := s.freeRsv p
    let s := p.backed.foldl (fun s pos => s.unbackPos p.ctx pos) s
    let s := s.unbind fun _ l => (Store.get (fun _ => ({} : QPair)) s.qps (l.fn * 16 + l.queue)).planH = h
    let s := (s.planIslands p).foldl (fun s isl => s.setB (Reg.ISL_RPL_STS isl) 2 false) s
    let s := (s.setPlan h {}).countPlans p.ctx
    s.jobs.foldl (fun s e =>
      if e.2.plan = h && e.2.opc = 3 && e.2.taken then s.endJob e.1 0
      else if e.2.plan = h && e.2.opc = 1 && e.2.taken && e.2.st ≤ 2 then s.endJob e.1 8 else s) s

/-- A step of a plan is in progress. -/
def State.stepping (s : State) (h : Nat) : Bool := s.jobs.any fun e => e.2.plan = h && (e.2.st = 3 || e.2.st = 2)

/-- R378: unload at once, or at the end of the step in progress. -/
def State.unload (s : State) (h : Nat) : State :=
  if s.jobs.any fun e => e.2.plan = h && e.2.st = 3 then s.setPlan h { s.plan h with unloading := true } else s.unloadNow h

/-! ## Replicas of a plan (R862 to R865) -/

/-- RPL_CFG of a plan's lower-corner island, where it names the plan's context; 0 otherwise. -/
def State.rplCfg (s : State) (p : Plan) : Word :=
  let v := s.reg (Reg.ISL_RPL_CFG (s.gridIsl p 0))
  if fld v 16 6 = p.ctx then v else 0

/-- RCNT of a plan in replica mode; 1 otherwise. -/
def State.rcnt (s : State) (p : Plan) : Nat := if bit (s.rplCfg p) 0 then max 1 (fld (s.rplCfg p) 1 2) else 1

/-- The grid island of replica `k` that corresponds to plan island `pi` of replica 0. -/
def State.repIsl (s : State) (p : Plan) (k pi : Nat) : Nat := s.gridIsl p (pi + k * (p.h / s.rcnt p) * p.w)

/-- The grid islands of a replica. -/
def State.repIslands (s : State) (p : Plan) (k : Nat) : List Nat :=
  (List.range (p.w * (p.h / s.rcnt p))).map (s.repIsl p k)

/-- The active replicas of a plan: none of their islands is expelled; replica 0 alone outside replica mode. -/
def State.activeReps (s : State) (p : Plan) : List Nat :=
  if s.rcnt p = 1 then [0]
  else (List.range (s.rcnt p)).filter fun k => !((s.repIslands p k).any fun i => s.getB (Reg.ISL_RPL_STS i) 3)

/-! ## Layer barriers (R354) -/

/-- The launch offsets and deadlines of one iteration: its latest deadline. -/
def Desc.endOf (d : Desc) (di n : Nat) : Nat := (d.emit di n).foldl (fun a e => max a (e.t + e.dln)) 0

/-- Product of the bounds of the levels nested inside a level slot. -/
def Desc.inner (d : Desc) (slot : Nat) : Nat :=
  ((d.order.dropWhile (· != slot)).drop 1).foldl (fun a x => a * (d.lvl x).bound) 1

/-- The barrier offsets of a descriptor: the latest deadline of each iteration of each BARRIER level. -/
def Desc.barriers (d : Desc) (di : Nat) : List Nat :=
  (List.range 6).flatMap fun slot =>
    if (d.lvl slot).barrier then
      let b := max 1 (d.inner slot)
      tabulate (d.iters / b) fun j => (List.range b).foldl (fun a i => max a (d.endOf di (j * b + i))) 0
    else []

/-- Sorted insertion without repeats. -/
def insertNat (x : Nat) : List Nat → List Nat
  | [] => [x]
  | y :: ys => if x < y then x :: y :: ys else if x = y then y :: ys else y :: insertNat x ys

/-- The layer barriers of a plan, as offsets from the step origin in ascending order. -/
def State.barrierOffs (s : State) (p : Plan) : List Nat :=
  (s.planIslands p).foldl (fun l isl =>
    let ds := s.descs p isl
    (List.range ds.length).foldl (fun l i => ((ds.getD i (parseDesc [])).barriers i).foldl (fun l x => insertNat x l) l) l) []

/-- The layers a job has passed (R628): barriers whose tick has come. -/
def State.passed (s : State) (j : Nat) : Nat :=
  let jb := s.job j
  if 4 ≤ jb.st then 65535
  else if jb.st != 3 then 0
  else ((s.barrierOffs (s.plan jb.plan)).filter fun o => jb.origin + jb.slip + o ≤ s.now).length

/-- The tick of the next layer barrier of a plan's step in progress; now where none is in progress (R376). -/
def State.nextBarrier (s : State) (h : Nat) : Nat :=
  match s.jobs.find? fun e => e.2.plan = h && e.2.st = 3 with
  | none => s.now
  | some (_, jb) =>
    match (s.barrierOffs (s.plan h)).find? fun o => s.now < jb.origin + jb.slip + o with
    | some o => jb.origin + jb.slip + o
    | none => jb.origin + jb.slip + (s.plan h).stepTicks

end Sys2Proof.Machine
end

