-- ==== Sys2Proof/Machine/Deps.lean ====
section
/-!
DEFINITION. What a ticket reads and writes, its dependencies, and its entry at issue (R347 to R353, R372 to R377, R388, R389).
-/
namespace Sys2Proof.Machine

/-! ## The parameter block of a DYN operation (R388 to R390) -/

/-- The fields of a parameter block. -/
structure DynP where
  col : Bool
  tref : Nat
  gstep : Nat
  kin : Nat
  n : Nat
  m : Nat
  g : Nat
  stage : Nat
  stageCnt : Nat
  br : Nat
  ar : Nat
  ors : Nat
  bg : Int
  ag : Int
  og : Int
  deriving DecidableEq, Repr

/-- Read a parameter block. -/
def parseDyn (b : List Byte) : DynP :=
  { col := leAt b 0 1 % 2 = 1, tref := leAt b 1 1 % 8, gstep := leAt b 2 1 % 4, kin := leAt b 4 2 % 2048, n := leAt b 6 2 % 2048
    m := leAt b 8 2 % 8192, g := leAt b 10 2 % 128, stage := leAt b 12 2, stageCnt := leAt b 14 2, br := leAt b 16 2
    ar := leAt b 18 2, ors := leAt b 20 2, bg := sgn 32 (leAt b 24 4), ag := sgn 32 (leAt b 28 4), og := sgn 32 (leAt b 32 4) }

/-- Blocks per group (R390). -/
def DynP.nb (d : DynP) : Nat := (d.n + 511) / 512
/-- NB. -/
def DynP.blocks (d : DynP) : Nat := d.g * d.nb
/-- Source rows of a group and values of one (R389). -/
def DynP.srcRows (d : DynP) : Nat := if d.col then d.n else d.kin
/-- Values of a source row. -/
def DynP.srcLen (d : DynP) : Nat := if d.col then d.kin else d.n
/-- Address of source row `i` of group `g`. -/
def DynP.src (d : DynP) (t : Ticket) (g i : Nat) : Nat := ((t.inA : Int) + g * d.bg).toNat + 64 * i * d.br
/-- Address of drive row `m` of group `g`. -/
def DynP.drive (d : DynP) (t : Ticket) (g m : Nat) : Nat := ((t.auxA : Int) + g * d.ag).toNat + 64 * m * d.ar
/-- Address of output row `m` of group `g`. -/
def DynP.outRow (d : DynP) (t : Ticket) (g m : Nat) : Nat := ((t.outA : Int) + g * d.og).toNat + 64 * m * d.ors

/-- The parameter block of a DYN ticket. -/
def State.dynP (s : State) (isl : Nat) (t : Ticket) : DynP := parseDyn (s.readLines isl t.ctx (leAt t.rop 8 2) 1).bytes

/-! ## Footprints -/

/-- Lines a ticket touches: (island, first context-relative line, lines). -/
abbrev Span := Nat × Nat × Nat

/-- A row of a format: its lines and its tail. -/
def rowSpan (isl adr fmt n : Nat) : Span := (isl, adr / 64, rowLines fmt n + 1)

/-- The spans of all rows of a DYN operand. -/
def dynSpans (isl : Nat) (f : Nat → Nat → Nat) (g rows fmt n : Nat) : List Span :=
  (List.range g).flatMap fun i => (List.range rows).map fun r => rowSpan isl (f i r) fmt n

/-- The lines a ticket reads (R351 to R353, R389, R430, R437, R440, R446). -/
def State.reads (s : State) (k : Nat) (t : Ticket) : List Span :=
  let isl := k / 256
  let row := fun (adr fmt n : Nat) => rowSpan isl adr fmt n
  let n := leAt t.rop 10 2 % 2048
  match t.action with
  | 0x01 => [row t.inA t.fmt t.extent]
  | 0x02 => [row t.inA t.fmt t.extent]
  | 0x03 => [row t.inA t.fmt t.extent]
  | 0x06 => [(isl, t.inA / 64, 8)]
  | 0x20 => [(isl, t.inA / 64, t.extent)]
  | 0x30 =>
    let d := s.dynP isl t
    dynSpans isl (d.src t) d.g d.srcRows 3 d.srcLen ++ dynSpans isl (d.drive t) d.g d.m t.fmt d.kin
  | 0x10 =>
    match leAt t.rop 0 1 with
    | 0x01 =>
      let len := if t.mvmMode = 2 then 1024 else 512
      if t.kx != 0 then [row t.outA 3 len]
      else if leAt t.rop 1 1 / 2 % 2 = 1 then [row t.auxA 3 len] else []
    | 0x05 => [row t.inA 3 n, row t.auxA 3 n]
    | 0x06 => [row t.inA 3 n, row t.auxA 3 n]
    | 0x09 =>
      (List.range (leAt t.rop 6 1)).flatMap (fun i =>
        [(isl, t.inA / 64 + leAt t.rop 5 1 * i, 1), (isl, t.auxA / 64 + leAt t.rop 4 1 * i, 2)]) ++ [(isl, t.outA / 64, 512)]
    | 0x0A => [(isl, t.inA / 64, 448), (isl, t.auxA / 64, 512)] ++ (List.range 128).map fun i => (isl, t.outA / 64 + 8 * i, 1)
    | 0x0D => [row t.inA 3 n, (isl, tailAdr t.auxA 0 n / 64, 1)]
    | _ => [row t.inA 3 n]
  | _ => []

/-- The lines a ticket writes. -/
def State.writes (s : State) (k : Nat) (t : Ticket) : List Span :=
  let isl := k / 256
  let n := leAt t.rop 10 2 % 2048
  match t.action with
  | 0x05 => [(isl, t.outA / 64, 8)]
  | 0x20 => [(t.dest, t.outA / 64, t.extent)]
  | 0x30 =>
    let d := s.dynP isl t
    dynSpans isl (d.outRow t) d.g d.m 3 d.n
  | 0x07 =>
    let c := t.rop
    if leAt c 0 1 = 2 then [(isl, (cmdMember c 0).2, leAt c 16 4 / 64)] else []
  | 0x10 =>
    match leAt t.rop 0 1 with
    | 0x01 => [rowSpan isl t.outA 3 (if t.mvmMode = 2 then 1024 else 512)]
    | 0x02 => [rowSpan isl t.outA (if leAt t.rop 1 1 / 4 % 2 = 1 then 1 else 0) n]
    | 0x09 => [(isl, t.outA / 64, 512)]
    | 0x0A => (isl, t.inA / 64, 448) :: (List.range 128).map fun i => (isl, t.outA / 64 + 8 * i, 1)
    | 0x0D => [rowSpan isl t.outA 0 n]
    | _ => [rowSpan isl t.outA 3 n]
  | _ => []

/-- The lines a BASIN_TO_HB move reads. -/
def moveReads (k : Nat) (t : Ticket) : List Span :=
  if t.action = 7 && leAt t.rop 0 1 = 3 then [(k / 256, (cmdMember t.rop 0).2, leAt t.rop 16 4 / 64)] else []

/-- Two spans share a line. -/
def overlap (a b : Span) : Bool := a.1 = b.1 && a.2.1 < b.2.1 + b.2.2 && b.2.1 < a.2.1 + a.2.2

/-- Some span of one list shares a line with one of the other. -/
def overlaps (a b : List Span) : Bool := a.any fun x => b.any (overlap x)

/-- The tiles of a member island that a ticket uses: its own, or those a run writes. -/
def State.usesTiles (s : State) (k : Nat) (t : Ticket) : List Nat :=
  if t.uclass = 0 then [tkTile k t]
  else if t.action = 7 && leAt t.rop 0 1 = 1 then
    let p := s.plan t.plan
    ((cmdMembers t.rop).filter fun m => s.gridIsl p m.1 = k / 256).map fun m => k / 256 * 16 + nfld (s.wtiWord p (k / 256) (m.2 % 4096)) 0 4
  else []

/-- R353: a ticket waits for an earlier ticket of its step that writes a line it reads, and, where one of them is a ferry run, for
one that uses the same tile; a DESCALE waits for its pulse through the acknowledgement it takes (R265). -/
def State.dependsOn (s : State) (k : Nat) (t : Ticket) (pk : Nat) (p : Ticket) : Bool :=
  overlaps (s.reads k t ++ moveReads k t) (s.writes pk p)
    || ((t.action = 7 || p.action = 7) && (s.usesTiles k t).any fun x => (s.usesTiles pk p).contains x)

/-! ## The entry of an emitted ticket -/

/-- R23: strait output of the first hop, x before y. -/
def hopOut (src dst : Nat) : Nat :=
  if src % 8 < dst % 8 then 0 else if dst % 8 < src % 8 then 1 else if src / 8 < dst / 8 then 2 else 3

/-- R376: the tile of an assignment entry, with the rewrites that took effect already stored in the basin. -/
def State.entryTile (s : State) (p : Plan) (isl wti : Nat) : Nat := nfld (s.wtiWord p isl wti) 0 4

/-- The ticket of an emission, as it enters the table (STATE 1). `launch`: its launch tick. -/
def State.mkTicket (s : State) (h j isl : Nat) (e : Em) (launch : Nat) : Ticket :=
  let p := s.plan h
  let base : Ticket :=
    { state := 1, launch := launch, planned := launch, dln := e.dln, uclass := e.uclass, action := e.action, ctx := p.ctx
      desc := e.desc, step := (s.job j).step, job := j, plan := h, inA := e.inA, outA := e.outA, auxA := e.auxA, wti := e.wti, kx := e.kx
      phase := e.phase, iter := e.iter }
  if 1024 ≤ e.desc then
    let c := p.cmds.getD (e.desc - 1024) []
    { base with desc := e.desc - 1024, rop := c, uindex := if leAt c 0 1 = 1 then 0 else 4 }
  else
    let d := parseDesc (s.descBytes p isl e.desc)
    let t := { base with extent := d.extent, fmt := d.fmt, zp := d.zp, spill := d.spill, slot := d.slot, mvmMode := d.mode }
    if e.uclass = 0 then { t with uindex := s.entryTile p isl e.wti }
    else if e.uclass = 2 then
      let dst := s.gridIsl p (e.wti % 64)
      { t with dest := dst, uindex := hopOut isl dst }
    else { t with rop := s.ropBytes p isl d.rop }

/-! ## Issue -/

/-- The placeholder that stands for a ticket not yet issued (job, island, descriptor, order). -/
def unissuedKey (j isl desc ord : Nat) : Nat := 2 ^ 80 + ((j * 64 + isl) * 2 ^ 20 + desc) * 2 ^ 40 + ord

/-- Emissions of a job's step not issued on an island, placed before `t`. -/
def State.earlier (s : State) (j isl t : Nat) : List Em :=
  let jb := s.job j
  (s.emissions (s.plan jb.plan) isl).filter fun e =>
    e.t < t && (match jb.cur isl with | none => true | some c => keyLt c e.key)

/-- R353: the producers of a ticket: live earlier tickets of its step, and those its plan places earlier and that wait for an entry. -/
def State.depsOf (s : State) (k : Nat) (t : Ticket) (off : Nat) : List Nat :=
  let live := (s.tickets.filter fun e => e.1 != k && (e.2.job = t.job || (e.2.job = 0 && e.2.action = 7)) && e.2.plan = t.plan && e.2.state != 5
    && e.2.planned ≤ t.planned && s.dependsOn k t e.1 e.2).map (·.1)
  let late := (s.planIslands (s.plan t.plan)).flatMap fun i =>
    (s.earlier t.job i off).filterMap fun e =>
      let p := s.mkTicket t.plan t.job i e 0
      if s.dependsOn k t (i * 256) p then some (unissuedKey t.job i e.desc e.ord) else none
  live ++ late

/-- R347, R348: enter a ticket into the table at an index. -/
def State.enter (s : State) (isl idx : Nat) (t : Ticket) (e : Em) : State :=
  let k := isl * 256 + idx
  let t := { t with deps := s.depsOf k t e.t }
  let s := s.setTk k t
  let ph := unissuedKey t.job isl e.desc e.ord
  let s := s.mapTk (fun _ u => u.deps.contains ph) fun u => { u with deps := u.deps.map fun d => if d = ph then k else d }
  let s := (s.noteLive isl).add64 (Reg.ISL_ISSUE_CNT_LO isl) (Reg.ISL_ISSUE_CNT_HI isl) 1
  s.setF (Reg.ISL_SEQ_STS isl) 8 6 t.ctx

/-- R372: the line of the first item of an emission whose CRC fails, if one does: root line, descriptor, rill entry. -/
def State.badItem (s : State) (p : Plan) (isl : Nat) (e : Em) : Option Nat :=
  if 1024 ≤ e.desc then none
  else
    let root := s.rootLine p isl
    if !crcOk root then some (Store.get (fun _ => 0) p.regionLine isl)
    else
      let db := s.descBytes p isl e.desc
      if !crcOk db then some (leAt root 0 2 + 2 * e.desc)
      else if (e.uclass = 1 || e.uclass = 4) && !crcOk (s.ropBytes p isl (parseDesc db).rop) then
        some (leAt root 4 2 + (parseDesc db).rop / 4)
      else none

/-- R376: rewrites of assignment entries whose layer barrier has passed are stored. -/
def State.applyRehome (s : State) (h : Nat) : State :=
  let p := s.plan h
  let due := p.rehome.filter fun r => r.2.2 / 16 ≤ s.now
  let s := due.foldl (fun s r =>
    let root := s.rootLine p r.1
    let adr := 64 * leAt root 8 2 + 4 * r.2.1
    let w := s.wtiWord p r.1 r.2.1
    (s.writeBytes r.1 p.ctx adr (leBytes (w / 16 * 16 + r.2.2 % 16) 4) false).1) s
  if due.isEmpty then s else s.setPlan h { p with rehome := p.rehome.filter fun r => !(r.2.2 / 16 ≤ s.now) }

end Sys2Proof.Machine
end

