-- ==== Sys2Proof/Machine/Strait.lean ====
section
/-!
DEFINITION. Strait transfers (R20 to R26, R32, R352, R841 to R843, R945).
-/
namespace Sys2Proof.Machine

/-- R23: the islands a ticketed route enters after its source: along x, then along y. `fuel`: hops left. -/
def routeFrom (dst : Nat) : Nat → Nat → List Nat
  | 0, _ => []
  | n + 1, i =>
    if i = dst then []
    else
      let j := if i % 8 < dst % 8 then i + 1 else if dst % 8 < i % 8 then i - 1 else if i / 8 < dst / 8 then i + 8 else i - 8
      j :: routeFrom dst n j

/-- R842: an island finds a block whose check word fails. -/
def State.chkFail (s : State) (isl ctx j : Nat) : State :=
  ((s.incSat (Reg.ISL_CHK_FAIL_CNT isl) 1).raiseC 3 isl Ev.ISL_CHK_FAIL none ctx).failStep j 13 4 isl 0xFF

/-- Move one line (R671, R672, R843): its faults at the source and at the destination. -/
def State.moveLine (s : State) (src dst ctx a b : Nat) : State × List LineFault × List LineFault :=
  let r := s.readLine src ctx a
  let (s, f) := s.writeLine dst ctx b 0 r.bytes r.poison
  (s, r.faults, f)

/-- R842: clear the valid bit of a line. -/
def State.invalidLine (s : State) (isl ctx line : Nat) : State :=
  match s.physLine isl ctx line with
  | none => s
  | some l => s.setLine isl l {}

/-- Move `n` lines; `badSrc` and `badDst` name the 4 KiB blocks whose word fails where the block is read and where it arrives: neither
is written, and a block that fails on arrival leaves its lines invalid (R841, R842). -/
def State.moveLines (s : State) (src dst ctx a b n : Nat) (badSrc badDst : List (Fin 32)) : State × List LineFault × List LineFault :=
  (List.range n).foldl (fun (x : State × List LineFault × List LineFault) i =>
    if badSrc.any fun k => k.val = i / 64 then x
    else if badDst.any fun k => k.val = i / 64 then (x.1.invalidLine dst ctx (b + i), x.2)
    else
      let (s, f, g) := x.1.moveLine src dst ctx (a + i) (b + i)
      (s, x.2.1 ++ f, x.2.2 ++ g)) (s, [], [])

/-- SEND: the transfer holds its output under a strait reservation until it acknowledges (R945). A route through a fenced switch
carries nothing, and the ticket is never acknowledged (R32). -/
def execSend (isl : Isl) (idx : TktIx) (badSrc badDst : List (Fin 32)) (s : State) : Host.Outcome State Fault Refusal :=
  .next (s.launchAndRun isl idx (fun t => t.action = 0x20 && t.rows = 0) fun s k t =>
    let s := s.lease { res := 1, unit := isl * 4 + t.uindex, kind := 1, owner := t.ctx, expiry := s.now + 4096 }
    if (routeFrom t.dest 16 isl).any s.islFenced then s.setTk k { t with rows := 1 }
    else
      let n := t.extent
      let blocks := (n + 63) / 64
      let bs := badSrc.filter fun b => b.val < blocks
      let bd := badDst.filter fun b => b.val < blocks && !bs.contains b
      let (s, f, g) := s.moveLines isl t.dest t.ctx (t.inA / 64) (t.outA / 64) n bs bd
      let s := s.noteUse isl t.ctx t.job [f] false
      let s := s.noteUse t.dest t.ctx t.job [g] false
      let s := bs.foldl (fun s _ => s.chkFail isl t.ctx t.job) s
      let s := bd.foldl (fun s _ => s.chkFail t.dest t.ctx t.job) s
      s.setTk k { s.tkAt k with ran := true })

/-- The strait reservation of an acknowledged transfer ends. -/
def State.endStrait (s : State) (k : Nat) (t : Ticket) : State :=
  if t.uclass = 2 then { s with leases := s.leases.filter fun l => !(l.res = 1 && l.unit = k / 256 * 4 + t.uindex) } else s

end Sys2Proof.Machine
end

