-- ==== Sys2Proof/Machine/Ferry.lean ====
section
/-!
DEFINITION. The ferry: runs, MOVEs, the scrub, and harbour reads (R583 to R589, R592, R605 to R622, R642 to R649, R850 to R853).
-/
namespace Sys2Proof.Machine

/-- No run. -/
def runNone (_ : Nat) : FerryRun := {}
/-- A run. -/
def State.run (s : State) (r : Nat) : FerryRun := Store.get runNone s.runs r
/-- Store a run. -/
def State.setRun (s : State) (r : Nat) (x : FerryRun) : State := { s with runs := Store.put runNone s.runs r x }

/-- Bytes of a shard (R594). -/
def shardLen : Nat := 393344

/-- R27: ring position of an island. -/
def ringPos (isl : Nat) : Nat := if isl / 8 % 2 = 0 then isl else isl / 8 * 8 + 7 - isl % 8

/-- The command of a run. -/
def State.runCmd (s : State) (x : FerryRun) : List Byte := (s.plan x.plan).cmds.getD x.cmd []

/-- The member tiles of a run on an island. -/
def State.runTiles (s : State) (x : FerryRun) (isl : Nat) : List Nat :=
  if x.gt != 0 then (if (x.gt - 1) / 16 = isl then [x.gt - 1] else [])
  else
    let p := s.plan x.plan
    ((cmdMembers (s.runCmd x)).filter fun m => s.gridIsl p m.1 = isl).map fun m => isl * 16 + nfld (s.wtiWord p isl (m.2 % 4096)) 0 4

/-- The member islands of a command in ascending ring position (R616). -/
def State.cmdIslands (s : State) (p : Plan) (c : List Byte) : List Nat :=
  ((cmdMembers c).foldl (fun l m => let i := s.gridIsl p m.1; insertNat (ringPos i * 64 + i) l) []).map (· % 64)

/-- The member islands of a run. -/
def State.runIslands (s : State) (x : FerryRun) : List Nat :=
  if x.gt != 0 then [(x.gt - 1) / 16] else s.cmdIslands (s.plan x.plan) (s.runCmd x)

/-- Ticket `t` is the ticket of a run. -/
def FerryRun.isOf (x : FerryRun) (t : Ticket) : Bool :=
  t.action = 7 && t.uindex != 4 && t.plan = x.plan && (if x.gt != 0 then t.plan = 0 && t.iter = x.gt else t.job = x.job && t.desc = x.cmd)

/-- The run of a ticket. -/
def State.runOf (s : State) (t : Ticket) : Option (Nat × FerryRun) := s.runs.find? fun e => e.2.isOf t

/-- The ticket of a run on an island, with its key. -/
def State.runTk (s : State) (x : FerryRun) (isl : Nat) : Option (Nat × Ticket) := s.tickets.find? fun e => e.1 / 256 = isl && x.isOf e.2

/-- Counts of one island in a run. -/
def cnt (m : Store Nat) (isl : Nat) : Nat := Store.get flagZero m isl

/-- The run has failed on an island. -/
def FerryRun.bad (x : FerryRun) (isl : Nat) : Bool := cnt x.failed isl != 0

/-- First physical block of a run's slot, or its cistern unit. -/
def State.runSlot (s : State) (x : FerryRun) : Nat := if x.cist then x.block else (s.winBlock x.ctx x.block).getD 0

/-! ## Failures (R592, R608, R621, R622, R642, R643) -/

/-- Latch LAST_FAIL and LAST_FAIL_SRC. `ctrl`: at the ferry controller. -/
def State.latchFail (s : State) (x : FerryRun) (isl cause : Nat) (ctrl : Bool) : State :=
  let s := s.setReg Reg.FRY_LAST_FAIL
    (BitVec.ofNat 32 (x.ctx % 64 + (if ctrl then 0 else isl % 64) * 64 + cause * 4096 + b2n ctrl * 65536))
  s.setReg Reg.FRY_LAST_FAIL_SRC (BitVec.ofNat 32 (s.runSlot x % 2 ^ 26 + b2n x.cist * 2 ^ 31))

/-- The run stops on one island: its ticket may acknowledge; unless the island is fenced (cause 3) its member tiles are released. -/
def State.stopRun (s : State) (r isl cause : Nat) : State :=
  let x := s.run r
  let s := s.setRun r { x with failed := Store.put flagZero x.failed isl cause }
  let s := if cause = 3 then s else (s.runTiles x isl).foldl (fun s gt => if s.tileFenced gt then s else s.releaseTile gt) s
  match s.runTk x isl with
  | some (k, t) => if t.state = 3 || t.state = 4 then s.setTk k { t with ran := true } else s
  | none => s

/-- The step of a run's job fails for its context, whatever its policy; poison is consumed by the context (R621, R853). -/
def State.failRunStep (s : State) (x : FerryRun) (isl cause : Nat) : State :=
  if cause = 4 then s.consumePoison isl x.ctx x.job else if cause = 3 then s else s.failStep x.job 13 4 isl 0xFF

/-- R621, R643: a run fails at an island's port. A failed fetch from the harbour is repeated once (R622). -/
def State.failPort (s : State) (r isl cause : Nat) : State :=
  let x := s.run r
  if x.bad isl then s
  else
    let again := !x.cist && !x.copies && (cause = 1 || cause = 2 || cause = 4) && x.failed.isEmpty
    let s := if again then { s with refetch := s.refetch ++ [(x.plan, x.cmd, x.gt, s.runSlot x)] } else s
    let s := (s.stopRun r isl cause).latchFail x isl cause false
    let s := if cause = 1 then (s.incSat Reg.FRY_AUTH_FAIL_CNT 1).raiseC 6 0 Ev.FRY_SHARD_AUTH none x.ctx
      else if cause = 2 then (s.incSat Reg.FRY_DIGEST_FAIL_CNT 1).raiseC 6 0 Ev.FRY_SHARD_DIGEST none x.ctx else s
    s.failRunStep x isl cause

/-- A run fails at the controller (R592, R608): on every member island. -/
def State.failCtrl (s : State) (r cause : Nat) : State :=
  let x := s.run r
  let s := (s.runIslands x).foldl (fun s isl => if (s.run r).bad isl then s else s.stopRun r isl cause) s
  (s.latchFail x 0 cause true).failRunStep x 0 cause

/-! ## Fetch (R608, R615, R622, R673) -/

/-- A run's shard as the harbour holds it: its bytes, and its poisoned lines. -/
def State.slotBytes (s : State) (x : FerryRun) : List Byte × List Nat :=
  let blk (i : Nat) := s.winBlock x.ctx (x.block + i)
  (((List.range 97).flatMap fun i => (blk i).elim (List.replicate 4096 0) fun b => s.hbBytes b 0 4096).take shardLen,
   (List.range 6146).filter fun l => (blk (l / 64)).elim false fun b => s.hbBad b (l % 64))

/-- R615: harbour reads of a slot are counted by stack and by the ferry. -/
def State.countSlot (s : State) (x : FerryRun) : State :=
  let s := (List.range 97).foldl (fun s i =>
    (s.winBlock x.ctx (x.block + i)).elim s fun b => s.hbCountRead b (if i = 96 then 128 else 4096)) s
  s.add64 Reg.FRY_HB_BYTES_LO Reg.FRY_HB_BYTES_HI shardLen

/-- The run that a command begins, with its launch tick: a per-step command of a running job, a ONCE command of the layer in hand of a
replacement (job 0), or a reprogramming (job and plan 0, `cmd` the tile + 1). -/
def State.runSpec (s : State) (j h cmd : Nat) : Option (FerryRun × Nat) :=
  if j = 0 && h = 0 then
    match (s.tx (cmd - 1)).src, s.tickets.find? fun e => e.2.action = 7 && e.2.plan = 0 && e.2.iter = cmd with
    | some c, some (_, t) =>
      if cmd = 0 || (s.tx (cmd - 1)).reStep != 2 then none
      else some ({ gt := cmd, ctx := c.ctx, block := c.block, cist := c.cist, idx := c.idx, image := c.image, version := c.version
                   scales := c.scales }, t.planned)
    | _, _ => none
  else
    let p := s.plan h
    let c := p.cmds.getD cmd []
    let x : FerryRun :=
      { job := j, plan := h, cmd := cmd, ctx := p.ctx, block := leAt c 12 4, cist := leAt c 1 1 / 4 % 2 = 1, idx := leAt c 20 4
        image := p.imageId, version := p.version, scales := if leAt c 1 1 / 2 % 2 = 1 then leAt c 16 4 + 1 else 0 }
    if !p.live || leAt c 0 1 != 1 then none
    else if j = 0 then
      match s.swaps.find? fun w => w.running && (w.new = h || w.old = h) && w.ctx = p.ctx with
      | some w => if cmdOnce c && leAt c 3 1 = w.layer && (if w.st = 3 then w.old else w.new) = h then some (x, w.act + leAt c 4 4) else none
      | none => none
    else
      let jb := s.job j
      if jb.st = 3 && !jb.failed && jb.plan = h && !cmdOnce c then some (x, jb.origin + jb.slip + leAt c 4 4) else none

/-- FERRY_FETCH: `data` is what a cistern read returns. Where a second fetch of the command's slot is due (R622), it is that fetch, and
`ok` tells whether it succeeds. -/
def execFerryFetch (j h cmd : Nat) (data : List Byte) (ok : Bool) (s : State) : Host.Outcome State Fault Refusal :=
  .next <|
    let gt := if j = 0 && h = 0 then cmd else 0
    match s.refetch.find? fun f => f.1 = h && (if h = 0 then f.2.2.1 = gt else f.2.1 = cmd) with
    | some f =>
      let s := { s with refetch := s.refetch.erase f }
      let s := (List.range 97).foldl (fun s i => s.hbCountRead (f.2.2.2 + i) (if i = 96 then 128 else 4096)) s
      let s := s.add64 Reg.FRY_HB_BYTES_LO Reg.FRY_HB_BYTES_HI shardLen
      if ok || s.badSlots.contains f.2.2.2 || 1024 ≤ s.badSlots.length then s else { s with badSlots := s.badSlots ++ [f.2.2.2] }
    | none =>
      match s.runSpec j h cmd with
      | none => s
      | some (x, l) =>
        if s.now + 16 * max 1 (s.getF Reg.FRY_CTL 8 8) < l
            || s.runs.any fun e => e.2.job = j && e.2.plan = h && (if h = 0 then e.2.gt = cmd else e.2.cmd = cmd) then s
        else
          let r := s.nextRun
          let s := { s with nextRun := r + 1 }
          if x.cist then
            (s.add64 Reg.FRY_CIST_BYTES_LO Reg.FRY_CIST_BYTES_HI shardLen).setRun r { x with buf := padTo shardLen data }
          else if s.badSlots.contains (s.runSlot x) then (s.setRun r x).failCtrl r 6
          else
            let b := s.slotBytes x
            (s.countSlot x).setRun r { x with buf := b.1, poison := b.2 }

/-- FRY_CIST_ERR (R592): a cistern read of run `r` ends in an error. -/
def execFryCistErr (r : Nat) (s : State) : Host.Outcome State Fault Refusal :=
  .next <|
    let x := s.run r
    if !x.cist || !x.failed.isEmpty then s
    else ((s.incSat Reg.FRY_CIST_ERR_CNT 1).raiseC 6 0 Ev.FRY_CIST_ERR none x.ctx).failCtrl r 5

/-! ## Delivery (R614 to R618, R643) -/

/-- R594, R614: the header of the shard passes for the run. -/
def FerryRun.hdrOk (x : FerryRun) : Bool :=
  let h := x.buf.take 64
  crcOk h && leAt h 0 4 = 0x51445348 && leAt h 4 2 = 1 && leAt h 36 4 = 393216 && leAt h 8 8 = x.image && leAt h 20 2 = x.version
    && leAt h 16 4 = x.idx

/-- Bytes that may have reached an island: those its predecessor in the ring holds, and a lane buffer beyond the rows written (R611,
R618); a member that has failed takes everything and passes it on. -/
def State.reach (s : State) (x : FerryRun) (isl : Nat) : Nat :=
  let before := (s.runIslands x).filter fun i => ringPos i < ringPos isl && !s.islFenced i
  min (before.getLast?.elim x.buf.length (cnt x.arrived)) (if x.bad isl then shardLen else 16384 + 384 * cnt x.rows isl)

/-- FERRY_DELIVERY: the first `n` bytes of run `r` have reached member island `isl`. -/
def execFerryDelivery (r : Nat) (isl : Isl) (n : Nat) (s : State) : Host.Outcome State Fault Refusal :=
  .next <|
    let x := s.run r
    if !(s.runIslands x).contains isl.val || x.copies then s
    else if s.islFenced isl then s.failPort r isl 3
    else
      let old := cnt x.arrived isl
      let n := min n (s.reach x isl)
      if n ≤ old then s
      else
        let s := s.setRun r { x with arrived := Store.put flagZero x.arrived isl n }
        if x.bad isl then s
        else if old < 64 && 64 ≤ n && !x.hdrOk then s.failPort r isl 1
        else if x.poison.any fun l => 64 * l < n then s.failPort r isl 4
        else s

/-! ## Runs (R611, R612, R619 to R621) -/

/-- WRITE_TILES: the run's ticket launches on a free lane (R611). -/
def execWriteTiles (isl : Isl) (idx : TktIx) (s : State) : Host.Outcome State Fault Refusal :=
  .next (s.launchAndRun isl idx (fun t => t.action = 7 && t.uindex != 4) fun s k t =>
    match s.runOf t with
    | some (_, x) => if x.bad isl then s.setTk k { t with ran := true } else s
    | none => s)

/-- R596: the 512 levels of a row's 384 plaintext bytes. -/
def rowLevels (b : List Byte) : List Byte :=
  let v := ofLe (padTo 384 b)
  tabulate 512 fun c => BitVec.ofNat 8 (v / 64 ^ c % 64)

/-- R436: block `i` of a state region whose base is a physical block: the region is contiguous in its owner's window. -/
def State.regionBlk (s : State) (ctx base i : Nat) : Nat :=
  match (s.cx ctx).win.find? fun e => e.2.backed && e.2.frame = base / 512 with
  | some e => (s.winBlock ctx (e.1 * 512 + base % 512 + i)).getD (base + i)
  | none => base + i

/-- R436, R437, R451: the level copies of row `i` of a state region, and whether a line of them is poisoned. -/
def State.copyRow (s : State) (ctx base i : Nat) : List Byte × Bool :=
  let seg (g : Nat) : List Byte × Bool :=
    let a := 28672 * (8 * (i / 128) + g) + 20480 + 64 * (i % 128)
    let b := s.regionBlk ctx base (a / 4096)
    (s.hbBytes b (a % 4096) 64, s.hbBad b (a % 4096 / 64))
  let l := (List.range 8).map seg
  (l.flatMap (·.1), l.any (·.2))

/-- R49, R120: load a scale table into a tile: COLSCALE, then GAINSTEP. -/
def State.loadScales (s : State) (gt : Nat) (tab : List Byte) : State :=
  let s := (List.range 256).foldl (fun s i => s.setReg (Reg.TIL_COLSCALE gt i) (BitVec.ofNat 32 (leAt tab (4 * i) 4))) s
  (List.range 32).foldl (fun s i => s.setReg (Reg.TIL_GAINSTEP gt i) (BitVec.ofNat 32 (leAt tab (1024 + 4 * i) 4))) s

/-- R620: the last row is complete and the shard has verified: the scale table loads and the run may acknowledge. -/
def State.finishRun (s : State) (r isl : Nat) : State :=
  let x := s.run r
  if cnt x.rows isl != 1024 || !(x.copies || x.verified.contains isl) || x.bad isl then s
  else
    let blk := if x.scales = 0 then none else s.winBlock x.ctx (x.scales - 1)
    if blk.elim false fun b => (List.range 18).any (s.hbBad b) then s.failPort r isl 4
    else
      let s := match blk with
        | some b =>
          let tab := s.hbBytes b 0 1152
          ((s.runTiles x isl).filter fun gt => !x.skipped.contains gt).foldl (fun (s : State) (gt : Nat) => s.loadScales gt tab) s
        | none => s
      match s.runTk x isl with
      | some (k, t) => s.setTk k { t with ran := true }
      | none => s

/-- R619, R177, R198: the member tile is free for a row write. -/
def State.tileFree (s : State) (gt row : Nat) : Bool := !s.tileBusy gt && !s.tileTested gt && !s.rowHeld gt row

/-- FERRY_ROW_WRITE: the next row of a run on an island; `plain`: its 384 plaintext bytes (R595, R596). -/
def execFerryRowWrite (isl : Isl) (idx : TktIx) (plain : List Byte) (s : State) : Host.Outcome State Fault Refusal :=
  .next <|
    let k := isl.val * 256 + idx.val
    let t := s.tkAt k
    match s.runOf t with
    | none => s
    | some (r, x) =>
      let i := cnt x.rows isl
      let tiles := s.runTiles x isl
      let new := tiles.filter fun gt => s.tileFenced gt && !x.skipped.contains gt
      let x := { x with skipped := x.skipped ++ new }
      let live := tiles.filter fun gt => !x.skipped.contains gt
      if !(t.state = 3 || t.state = 4) || t.noAct || t.ran || x.bad isl || 1024 ≤ i
          || (i = 0 && s.now < t.launch) || (i != 0 && s.now < cnt x.lastRow isl + 5)
          || (!x.copies && cnt x.arrived isl < 64 + 384 * (i + 1)) || !live.all (s.tileFree · i) then s
      else match live.find? fun gt => !s.locked gt with
        | some gt => ((s.setRun r x).raiseUnlock gt 4 t.ctx).failPort r isl 8
        | none =>
          match s.grant isl (live.length, 4) with
          | none => s
          | some s =>
            let c := s.copyRow x.ctx x.block i
            if x.copies && c.2 then (s.setRun r x).failPort r isl 4
            else
              let s := if x.copies then s.add64 Reg.FRY_HB_BYTES_LO Reg.FRY_HB_BYTES_HI 512 else s
              let s := live.foldl (fun s gt =>
                let s := if x.copies then s else s.setF (Reg.ISL_ADP_TILES isl) (gt % 16) 1 0
                s.rowWrite gt i (if x.copies then c.1 else rowLevels plain)) s
              let s := s.setRun r { x with rows := Store.put flagZero x.rows isl (i + 1), lastRow := Store.put flagZero x.lastRow isl s.now }
              s.finishRun r isl

/-- FERRY_VERIFY (R595, R620): every byte has arrived; the tag and the digest are verified. -/
def execFerryVerify (isl : Isl) (idx : TktIx) (tagOk digestOk : Bool) (s : State) : Host.Outcome State Fault Refusal :=
  .next <|
    let t := s.tk isl idx
    match s.runOf t with
    | none => s
    | some (r, x) =>
      if !(t.state = 3 || t.state = 4) || t.noAct || x.copies || x.bad isl || cnt x.arrived isl < shardLen || x.verified.contains isl.val then s
      else if !tagOk then s.failPort r isl 1
      else if !digestOk then s.failPort r isl 2
      else (s.setRun r { x with verified := isl.val :: x.verified }).finishRun r isl

/-! ## Reprogramming ends (R851 to R853, R857, R1128) -/

/-- A reprogramming of a tile ends with a result (LAST_RESULT) and a source (LAST_SRC). -/
def State.reprogResult (s : State) (gt result src : Nat) : State :=
  let isl := gt / 16
  let a := Reg.ISL_REPROG_STS isl
  let s := s.updTx gt fun x => { x with reStep := 0, reCause := 0 }
  let s := (s.setF a (gt % 16) 1 0).setF a 16 4 (gt % 16)
  ((s.setF a 20 2 result).setF a 22 2 src).incSat (Reg.ISL_REPROG_CNT isl) 1

/-- It ends and is reported. -/
def State.reprogEnd (s : State) (gt result src : Nat) : State := (s.reprogResult gt result src).raiseI 3 (gt / 16) Ev.ISL_REPROG none

/-! ## Acknowledgement of a run (R642, R850) -/

/-- What an acknowledged run leaves at its island: its tiles' source, cause 3 for the tiles passed over, the next step of a
reprogramming. -/
def State.ackFerry (s : State) (k : Nat) (t : Ticket) : State :=
  match s.runOf t with
  | none => s
  | some (r, x) =>
    let isl := k / 256
    let good := !x.bad isl
    let src : ShardSrc := ⟨x.ctx, x.block, x.cist, x.idx, x.image, x.version, x.scales⟩
    let s := if good && !x.copies then
        ((s.runTiles x isl).filter fun gt => !x.skipped.contains gt).foldl (fun s gt => s.updTx gt fun y => { y with src := some src }) s
      else s
    let s := if good && (s.runTiles x isl).any x.skipped.contains then s.latchFail x isl 3 false else s
    if x.gt = 0 then s
    else
      let s := { s with runs := Store.put runNone s.runs r {} }
      let gt := x.gt - 1
      if (s.tx gt).reStep != 2 then s
      else if (s.tx gt).reCause = 11 then
        -- R903 step 1: the write of a spare has ended.
        let s := s.updTx gt fun y => { y with reStep := 0, reCause := if good then 11 else 0 }
        if good then s else s.setOwner gt none
      else if good then s.updTx gt fun y => { y with reStep := 3, reRow := 0, reBad := false }
      else s.reprogEnd gt 3 (b2n x.copies)

/-! ## MOVEs (R612, R624, R841, R843, R458) -/

/-- R587: the controller of a block finds its check word false on a read. -/
def State.noteChk (s : State) (blk ctx : Nat) : State :=
  (s.incSat (Reg.HBR_CHK_FAIL_CNT (blk % 6)) 1).raiseC 5 (blk % 6) Ev.HBR_CHK none ctx

/-- Copy `n` harbour blocks of a MOVE into basin lines from `line`. `bad`: blocks whose check word fails. -/
def State.blocksIn (s : State) (isl : Nat) (t : Ticket) (line n : Nat) (bad : List Nat) : State × List LineFault :=
  (List.range n).foldl (fun (x : State × List LineFault) i =>
    match x.1.winBlock t.ctx (leAt t.rop 12 4 + i) with
    | none => x
    | some b =>
      let s := x.1.hbCountRead b 4096
      let s := if bad.contains i then s.noteChk b t.ctx else s
      (List.range 64).foldl (fun (x : State × List LineFault) l =>
        let (s, g) := x.1.writeLine isl t.ctx (line + 64 * i + l) 0 (s.hbBytes b (64 * l) 64) (s.hbBad b l || bad.contains i)
        (s, x.2 ++ g)) (s, x.2)) (s, [])

/-- Copy basin lines from `line` into `n` harbour blocks of a MOVE. `bad`: blocks whose word fails where they are read. -/
def State.blocksOut (s : State) (isl : Nat) (t : Ticket) (line n : Nat) (bad : List Nat) : State × List LineFault :=
  (List.range n).foldl (fun (x : State × List LineFault) i =>
    match x.1.winBlock t.ctx (leAt t.rop 12 4 + i) with
    | none => x
    | some b =>
      if bad.contains i then (x.1.chkFail isl t.ctx t.job, x.2)
      else (List.range 64).foldl (fun (x : State × List LineFault) l =>
        let r := x.1.readLine isl t.ctx (line + 64 * i + l)
        (x.1.hbWriteLine b l 0 r.bytes r.poison, x.2 ++ r.faults)) x) (s, [])

/-- HB_TO_BASIN: harbour blocks are copied into basin lines. `bad`: blocks of the transfer whose check word fails (R587): their data
is poisoned. -/
def execHbToBasin (isl : Isl) (idx : TktIx) (bad : List Nat) (s : State) : Host.Outcome State Fault Refusal :=
  .next (s.launchAndRun isl idx (fun t => t.action = 7 && leAt t.rop 0 1 = 2) fun s k t =>
    let n := leAt t.rop 16 4 / 4096
    let (s, f) := s.blocksIn isl t (cmdMember t.rop 0).2 n bad
    let s := s.add64 Reg.FRY_HB_BYTES_LO Reg.FRY_HB_BYTES_HI (4096 * n)
    let s := s.noteUse isl t.ctx t.job [f] false
    s.setTk k { s.tkAt k with ran := true })

/-- BASIN_TO_HB: basin lines are copied into harbour blocks. `bad`: blocks whose word fails where they are read (R841, R842): they are
not written. -/
def execBasinToHb (isl : Isl) (idx : TktIx) (bad : List Nat) (s : State) : Host.Outcome State Fault Refusal :=
  .next (s.launchAndRun isl idx (fun t => t.action = 7 && leAt t.rop 0 1 = 3) fun s k t =>
    let (s, f) := s.blocksOut isl t (cmdMember t.rop 0).2 (leAt t.rop 16 4 / 4096) bad
    let s := s.noteUse isl t.ctx t.job [f] false
    s.setTk k { s.tkAt k with ran := true })

/-- A harbour block belongs to the state region of a tile (R436). -/
def State.inRegion (s : State) (isl tile ctx blk : Nat) : Bool :=
  let base := (s.reg (Reg.ISL_ADP_SRC isl tile)).toNat % 2 ^ 26
  s.getB (Reg.ISL_ADP_TILES isl) tile && (List.range 448).any fun i => s.regionBlk ctx base i = blk

/-- R455: UPDATING of a tile clears when the last write-back of its update acknowledges: no other BASIN_TO_HB of the job into its state
region is live or to come on the island. -/
def State.ackMove (s : State) (k : Nat) (t : Ticket) : State :=
  if leAt t.rop 0 1 != 3 then s
  else
    let isl := k / 256
    let p := s.plan t.plan
    let hits (c : List Byte) (tile : Nat) : Bool :=
      leAt c 0 1 = 3 && (s.winBlock t.ctx (leAt c 12 4)).elim false (s.inRegion isl tile t.ctx)
    let mine := (List.range 16).filter (hits t.rop)
    let rest (tile : Nat) : Bool :=
      (s.tickets.any fun e => e.1 / 256 = isl && e.1 != k && e.2.job = t.job && e.2.action = 7 && e.2.state != 5 && hits e.2.rop tile)
        || (s.earlier t.job isl (2 ^ 40)).any fun e => 1024 ≤ e.desc && hits (p.cmds.getD (e.desc - 1024) []) tile
    mine.foldl (fun s tile => if rest tile then s else s.setF (Reg.ISL_ADP_STS isl) tile 1 0) s

/-! ## Harbour reads, patrol and scrub (R583 to R589, R606 to R609) -/

/-- No history of a controller. -/
def hbrNone (_ : Nat) : HbrX := {}
/-- A controller beyond its page. -/
def State.hbx (s : State) (h : Nat) : HbrX := Store.get hbrNone s.hbr h
/-- One second in ticks. -/
def second : Nat := 125000000

/-- The owner context of a harbour block's frame. -/
def State.blkOwner (s : State) (blk : Nat) : Option Nat :=
  if blk < 16384 then some (blk / 256)
  else let f := s.frame (blk / 512); if f.owner = 0 then none else some (f.owner - 1)

/-- R584: an uncorrectable error of a line is found by a reader. -/
def State.lineUe (s : State) (blk line src : Nat) : State :=
  let h := blk % 6
  let s := (s.setHbPois blk line true).incSat (Reg.HBR_UE_CNT h) 1
  let o := s.blkOwner blk
  let s := s.set64 (Reg.HBR_ERR_ADDR_LO h) (Reg.HBR_ERR_ADDR_HI h) (blk * 4096 + line * 64)
  let s := s.setReg (Reg.HBR_ERR_INFO h) (BitVec.ofNat 32 (o.getD 0 + b2n o.isSome * 64 + src * 256))
  s.raiseC 5 h Ev.HBR_UE none (o.getD 255)

/-- Poison of a block's lines reaches the runs that are reading it. -/
def State.poisonRuns (s : State) (blk : Nat) (lines : List Nat) : State :=
  { s with runs := s.runs.map fun e =>
      let x := e.2
      if x.cist || x.buf.isEmpty then e
      else match (List.range 97).find? fun i => s.winBlock x.ctx (x.block + i) = some blk with
        | some i => (e.1, { x with poison := x.poison ++ (lines.map (64 * i + ·)).filter fun l => !x.poison.contains l })
        | none => e }

/-- HARBOUR_READ_DONE: a read of block `blk` completes for a reader (SOURCE of ERR_INFO): `ce` lines corrected, lines `ue`
uncorrectable, `chk`: the check word of a whole-block read fails. -/
def execHarbourReadDone (blk ce : Nat) (ue : List (Fin 64)) (chk : Bool) (src : Fin 7) (s : State) : Host.Outcome State Fault Refusal :=
  .next <|
    if 37748736 ≤ blk then s
    else
      let h := blk % 6
      let s := if ce = 0 then s else
        let x := s.hbx h
        let s := { s with hbr := Store.put hbrNone s.hbr h { x with ces := List.replicate ce s.now ++ x.ces.filter fun t => s.now < t + second } }
        (s.incSat (Reg.HBR_CE_CNT h) ce).raiseC 5 h Ev.HBR_CE none ((s.blkOwner blk).getD 255)
      let s := ue.foldl (fun s l => s.lineUe blk l src) s
      let s := if chk then s.noteChk blk ((s.blkOwner blk).getD 255) else s
      if src.val = 0 then s.poisonRuns blk (if chk then List.range 64 else ue.map (·.val)) else s

/-- HBR_CE_STORM (R583): STORM follows the corrections of the last second; the event is raised when the threshold is passed. -/
def execHbrCeStorm (h : Stack) (s : State) : Host.Outcome State Fault Refusal :=
  .next <|
    let n := ((s.hbx h).ces.filter fun t => s.now < t + second).length
    let ovr := decide (s.getF (Reg.HBR_CTL h) 16 16 < n)
    let was := s.getB (Reg.HBR_STS h) 2
    let s := s.setB (Reg.HBR_STS h) 2 ovr
    if ovr && !was then s.raise 5 h Ev.HBR_CE_STORM none 255 255 else s

/-- Ticks of a patrol pass. -/
def State.patrolTicks (s : State) (h : Nat) : Nat := max 1 (s.getF (Reg.HBR_CTL h) 8 8) * second

/-- PATROL_PASS (R589): the pass that began a period ago has read every line; the next begins. -/
def execPatrolPass (h : Stack) (s : State) : Host.Outcome State Fault Refusal :=
  .next <|
    let x := s.hbx h
    if !s.getB (Reg.HBR_CTL h) 0 || s.getB (Reg.HBR_STS h) 1 || s.now < x.last + s.patrolTicks h then s
    else { s with hbr := Store.put hbrNone s.hbr h { x with last := s.now } }.incWrapF (Reg.HBR_PATROL_STS h) 16 16 1

/-- PATROL_STS.PROGRESS as read: thousandths of the pass. -/
def State.patrolProgress (s : State) (h : Nat) : Nat :=
  if s.getB (Reg.HBR_CTL h) 0 then min 999 ((s.now - (s.hbx h).last) * 1000 / s.patrolTicks h) else 0

/-- The slots of every loaded image in the harbour: first physical blocks. -/
def State.allSlots (s : State) : List Nat :=
  (s.plans.filter fun e => e.2.live).flatMap fun e =>
    let p := e.2
    (List.range (leAt p.manifest 6 2)).flatMap fun i =>
      let x := (p.manifest.drop (192 + 128 * i)).take 128
      if leAt x 0 1 = 4 then
        (List.range (leAt x 16 4 / 393344)).filterMap fun k => s.winBlock p.ctx (leAt x 4 4 + 97 * k)
      else []

/-- SCRUB_PASS (R606 to R609): a pass due has re-read every slot; `bad`: the slots that failed, as positions in the pass; `ms`: its
duration. A pass that outlasts the interval is late. -/
def execScrubPass (bad : List Nat) (ms : Nat) (s : State) : Host.Outcome State Fault Refusal :=
  .next <|
    let per := s.getF Reg.FRY_CTL 0 8
    if per = 0 || s.now < s.scrubFrom + per * second then s
    else
      let l := s.allSlots
      let s := l.foldl (fun s b => (List.range 97).foldl (fun s i => s.hbCountRead (b + i) (if i = 96 then 128 else 4096)) s) s
      let s := (bad.filterMap fun i => l[i]?).foldl (fun s b =>
        let s := (s.incSat Reg.FRY_SCRUB_FAIL_CNT 1).raiseC 6 0 Ev.FRY_SCRUB_FAIL none ((s.blkOwner b).getD 255)
        if s.badSlots.contains b || 1024 ≤ s.badSlots.length then s else { s with badSlots := s.badSlots ++ [b] }) s
      let s := { s with scrubFrom := s.now }
      let s := (s.setF Reg.FRY_SCRUB_STS 0 24 l.length).setReg Reg.FRY_SCRUB_LAST (BitVec.ofNat 32 ms)
      let late := per * 1000 < ms
      let s := s.setB Reg.FRY_SCRUB_STS 24 late
      if late then s.raise 6 0 Ev.FRY_SCRUB_LATE none 255 255 else s

/-- FRY_STS.CMD_PEND as read: ferry tickets issued and not yet acknowledged. -/
def State.cmdPend (s : State) : Nat := (s.tickets.filter fun e => e.2.action = 7 && e.2.state != 5).length

/-- A PORT_LANES register as read: the lanes that launched runs hold on eight islands. -/
def State.portLanes (s : State) (n : Nat) : Nat :=
  (s.tickets.filter fun e => e.2.action = 7 && e.2.uindex < 4 && (e.2.state = 3 || e.2.state = 4) && e.1 / 256 / 8 = n).foldl
    (fun a e => a + 2 ^ (4 * (e.1 / 256 % 8) + e.2.uindex)) 0

/-! ## What a recovery does to the ferry (R644, R646) -/

/-- Drop runs: their unfinished tiles are released; what is in flight is discarded. -/
def State.dropRuns (s : State) (p : FerryRun → Bool) : State :=
  let gone := s.runs.filter fun e => p e.2
  let s := gone.foldl (fun s e => (s.runIslands e.2).foldl (fun s isl =>
    match s.runTk e.2 isl with
    | none => s
    | some (_, t) =>
      if (t.state = 3 || t.state = 4) && !t.ran then
        (s.runTiles e.2 isl).foldl (fun s gt => if s.tileFenced gt then s else s.releaseTile gt) s
      else s) s) s
  { s with runs := s.runs.filter fun e => !p e.2 }

end Sys2Proof.Machine
end

