-- ==== Sys2Proof/Machine/Swap.lean ====
section
/-!
DEFINITION. Replacing weights under load (R627 to R634, R645).
-/
namespace Sys2Proof.Machine

/-- The replacement of a context. -/
def State.swapOf (s : State) (c : Nat) : Option Swap := s.swaps.find? fun w => w.ctx = c

/-- SWAP_STS follows a replacement (STATE, CTX, LAYER). -/
def State.noteSwap (s : State) (w : Swap) : State :=
  s.setReg Reg.FRY_SWAP_STS (setFld (setFld (setFld (s.reg Reg.FRY_SWAP_STS) 0 3 w.st) 4 6 w.ctx) 16 12 w.layer)

/-- Store a changed replacement. -/
def State.setSwap (s : State) (w : Swap) : State :=
  ({ s with swaps := s.swaps.map fun (x : Swap) => if x.ctx = w.ctx then w else x } : State).noteSwap w

/-- Remove a replacement: SWAP_STS.STATE 0; FAILED tells its outcome. -/
def State.endSwap (s : State) (w : Swap) (failed : Bool) : State :=
  (({ s with swaps := s.swaps.filter fun x => x.ctx != w.ctx } : State).setF Reg.FRY_SWAP_STS 0 3 0).setB Reg.FRY_SWAP_STS 3 failed

/-- The ONCE commands of a plan with a LAYER: indices. -/
def Plan.onceOf (p : Plan) (layer : Nat) : List Nat :=
  (List.range p.cmds.length).filter fun i =>
    let c := p.cmds.getD i []
    cmdOnce c && leAt c 0 1 = 1 && leAt c 3 1 = layer

/-- The tiles that a plan's ONCE commands of some layers name. -/
def State.onceTiles (s : State) (p : Plan) (sel : Nat → Bool) : List Nat :=
  (p.cmds.filter fun c => cmdOnce c && leAt c 0 1 = 1 && sel (leAt c 3 1)).flatMap fun c =>
    (cmdMembers c).map fun m => let i := s.gridIsl p m.1; i * 16 + nfld (s.wtiWord p i (m.2 % 4096)) 0 4

/-- R628 step 1: a replacement starts: its context's gate closes. -/
def State.startSwap (s : State) (c old new j : Nat) : State :=
  let w : Swap := { ctx := c, old := old, new := new, job := j, closedAt := s.now, held := s.onceTiles (s.plan new) fun _ => true }
  let s := { s with swaps := s.swaps ++ [w] }
  (s.setCx c { s.cx c with gateClosed := true }).noteSwap w

/-- The jobs of a plan whose step is in progress (R628, R629). -/
def State.inFlight (s : State) (h : Nat) : List Nat := (s.jobs.filter fun e => e.2.plan = h && e.2.st = 3).map (·.1)

/-- Every old job has passed layer `k` (R628). -/
def State.allPassed (s : State) (h k : Nat) : Bool := h = 0 || (s.inFlight h).all fun j => k ≤ s.passed j

/-- Jobs of a plan that have not started go on under another plan (R629, R632). -/
def State.movePlan (s : State) (h h' : Nat) : State :=
  if h = 0 then s
  else { s with jobs := s.jobs.map fun e => if e.2.plan = h && e.2.opc = 1 && e.2.st ≤ 2 then (e.1, { e.2 with plan := h' }) else e }

/-- The gate of a context opens, unless the context is being torn down. -/
def State.openGate (s : State) (c : Nat) : State :=
  if s.getF (Reg.CTX_STS c) 0 2 = 3 then s else s.setCx c { s.cx c with gateClosed := false }

/-- R628 step 3, R630, R631: the gate opens and held jobs start on the new plan; without layers its first origin follows the old grid. -/
def State.swapOpen (s : State) (w : Swap) : State :=
  let s := s.setReg Reg.FRY_SWAP_HOLD (BitVec.ofNat 32 (min 0xFFFFFFFF (s.now - w.closedAt)))
  let s := s.movePlan w.old w.new
  let n := s.plan w.new
  let o := s.plan w.old
  let s := if n.layers = 0 && o.live then
      match o.lastOrigin with
      | some t => s.setPlan w.new { n with lastOrigin := some (t + o.stepTicks - n.stepTicks), lastSlip := o.lastSlip }
      | none => s
    else s
  (s.openGate w.ctx).setSwap { w with st := 2 }

/-! ## Layer runs -/

/-- The plan whose ONCE commands a replacement runs now. -/
def Swap.plan (w : Swap) : Nat := if w.st = 3 then w.old else w.new

/-- The emission of a ONCE command. -/
def onceEm (c : List Byte) (i : Nat) : Em :=
  { t := leAt c 4 4, desc := 1024 + i, ord := 0, iter := 0, action := 7, uclass := 3, inA := 0, outA := 0, auxA := 0
    wti := 0, kx := 0, phase := 0, dln := leAt c 8 4 }

/-- Enter the layer's tickets for which the islands have entries. -/
def State.enterOnce (s : State) (c : Nat) : State :=
  match s.swapOf c with
  | none => s
  | some w =>
    let p := s.plan w.plan
    let (s, left) := w.todo.foldl (fun (x : State × List (Nat × Nat)) e =>
      match x.1.freeIdx e.2 with
      | none => (x.1, x.2 ++ [e])
      | some idx =>
        let em := onceEm (p.cmds.getD e.1 []) e.1
        (x.1.enter e.2 idx (x.1.mkTicket w.plan 0 e.2 em (w.act + em.t)) em, x.2)) (s, [])
    s.setSwap { w with todo := left }

/-- Begin the runs of the layer in hand. -/
def State.beginLayer (s : State) (w : Swap) : State :=
  let p := s.plan w.plan
  let todo := (p.onceOf w.layer).flatMap fun i => (s.cmdIslands p (p.cmds.getD i [])).map fun isl => (i, isl)
  (s.setSwap { w with running := true, retried := false, todo := todo, act := s.now }).enterOnce w.ctx

/-- The ONCE runs of a plan that failed: (command, island). -/
def State.failedOnce (s : State) (h : Nat) : List (Nat × Nat) :=
  (s.runs.filter fun e => e.2.job = 0 && e.2.plan = h).flatMap fun e => e.2.failed.map fun f => (e.2.cmd, f.1)

/-- Forget the ONCE runs of a plan. -/
def State.dropOnce (s : State) (h : Nat) : State := { s with runs := s.runs.filter fun e => !(e.2.job = 0 && e.2.plan = h) }

/-- The SWAP job of a replacement ends. -/
def State.swapJob (s : State) (w : Swap) (status : Nat) : State := if w.job = 0 then s else s.endJob w.job status

/-- R632: the replacement has failed and the old plan is back (or there was none): the gate opens, the new plan goes. -/
def State.swapFailed (s : State) (w : Swap) : State :=
  let s := s.movePlan w.new w.old
  let s := (s.endSwap w true).unloadNow w.new
  let s := (s.openGate w.ctx).swapJob w 2
  s.raiseC 6 0 Ev.FRY_SWAP_FAIL none w.ctx

/-- R632: a layer has failed twice: the gate closes, new jobs in flight fail, the old plan's layers are rewritten. -/
def State.rollBack (s : State) (w : Swap) : State :=
  let s := s.setCx w.ctx { s.cx w.ctx with gateClosed := true }
  let s := (s.inFlight w.new).foldl (fun s j => s.failStep j 2 4 0xFF 0xFF) s
  let w' : Swap := { w with st := 3, layer := 1, top := w.layer, running := false, retried := false, todo := [] }
  let s := s.setSwap w'
  if w.old = 0 then s.swapFailed w' else s

/-- R633: a rewrite back to the old plan fails: every plan of the context is unloaded, its held jobs fail with SWAP_FAIL. -/
def State.swapLost (s : State) (w : Swap) : State :=
  let s := (s.setReg Reg.FRY_LAST_FAIL (BitVec.ofNat 32 (w.ctx % 64 + 7 * 4096 + 65536)))
  let s := (s.jobs.filter fun e => e.2.fn = w.ctx && e.2.opc = 1 && e.2.st ≤ 2 && e.2.st != 0).foldl (fun s e => s.endJob e.1 2) s
  let s := ((s.endSwap w true).unloadNow w.new).unloadNow w.old
  let s := (s.openGate w.ctx).swapJob w 2
  s.raiseC 6 0 Ev.FRY_SWAP_FAIL none w.ctx

/-- R628, R632: every run of the layer in hand has ended. -/
def State.layerEnd (s : State) (w : Swap) : State :=
  let bad := s.failedOnce w.plan
  let s := s.dropOnce w.plan
  if !bad.isEmpty then
    if !w.retried then (s.setSwap { w with retried := true, todo := bad, act := s.now }).enterOnce w.ctx
    else if w.st = 3 then s.swapLost w
    else s.rollBack w
  else if w.st = 3 then
    if w.layer < w.top then s.setSwap { w with layer := w.layer + 1, running := false } else s.swapFailed w
  else
    let done := s.onceTiles (s.plan w.new) (· = w.layer)
    let w := { w with running := false, held := w.held.filter fun t => !done.contains t }
    let s := if w.st = 1 && !w.closed then s.swapOpen w else s
    let w := { w with st := if w.closed then w.st else 2, layer := w.layer + 1 }
    s.setSwap w

/-- A ONCE run has acknowledged: enter those that waited, and end the layer when none is left. -/
def State.swapAck (s : State) (c : Nat) : State :=
  let s := s.enterOnce c
  match s.swapOf c with
  | none => s
  | some w =>
    if w.running && w.todo.isEmpty && !(s.tickets.any fun e => e.2.action = 7 && e.2.job = 0 && e.2.plan = w.plan) then s.layerEnd w else s

/-- SWAP_LAYER_REWRITE (R628 steps 2 and 4, R631, R632): when every old job has passed the layer in hand its runs begin; runs that wait for
a ticket entry are entered; a layer without runs ends at once. -/
def execSwapLayerRewrite (c : Ctx) (s : State) : Host.Outcome State Fault Refusal :=
  .next <|
    match s.swapOf c with
    | none => s
    | some w =>
      let layers := (s.plan w.new).layers
      if w.running then s.swapAck c
      else if w.st = 3 then
        if (s.inFlight w.new).isEmpty then (s.beginLayer w).swapAck c else s
      else if layers = 0 then (if w.st = 1 && !w.closed && s.allPassed w.old 1 then s.swapOpen w else s)
      else if w.layer ≤ layers && s.allPassed w.old w.layer then (s.beginLayer w).swapAck c
      else s

/-- FRY_SWAP_DONE (R628 step 6): the last layer is rewritten and no old job is left: the old plan is unloaded. -/
def execFrySwapDone (c : Ctx) (s : State) : Host.Outcome State Fault Refusal :=
  .next <|
    match s.swapOf c with
    | none => s
    | some w =>
      let layers := (s.plan w.new).layers
      if w.running || w.st = 3 || !(w.st = 2 || w.closed) || (layers != 0 && w.layer ≤ layers) || !(w.old = 0 || (s.inFlight w.old).isEmpty) then s
      else
        let s := if w.closed then s.swapOpen w else s
        let s := s.endSwap w false
        let s := if w.old = 0 then s else s.unloadNow w.old
        (s.swapJob w 0).raiseC 6 0 Ev.FRY_SWAP_DONE none w.ctx

end Sys2Proof.Machine
end

