-- ==== Sys2Proof/Machine/Steps.lean ====
section
/-!
DEFINITION. A step from its origin to its end: issue, acknowledgement, misses, hangs (R347, R365 to R378, R474 to R494, R743,
R748, R751, R865 to R871, R927, R945).
-/
namespace Sys2Proof.Machine

/-! ## Engine recovery requests (R474, R927, R928, R936) -/

/-- P4 starts an engine recovery of an island: `cause` of LAST_RCV, `eng` of ENG_LAST. -/
def State.engineRecover (s : State) (isl cause eng : Nat) : State :=
  if s.islReset isl then s else (s.setF (Reg.ISL_ENG_LAST isl) 0 5 eng).startRung 2 isl cause

/-- Fail with STEP_FAIL every running step that satisfies `p` for one of its live tickets. -/
def State.failLive (s : State) (isl : Nat) (p : Nat → Ticket → Bool) : State :=
  (s.tickets.filter fun e => p e.1 e.2 && e.2.state != 5).foldl (fun s e => s.failStep e.2.job 13 4 isl 0xFF) s

/-! ## Replicas (R862 to R871) -/

/-- RPL_CFG.EN of an island (R863). -/
def State.rplOn (s : State) (isl : Nat) : Bool := s.getB (Reg.ISL_RPL_CFG isl) 0

/-- An island is expelled (R870). -/
def State.expelled (s : State) (isl : Nat) : Bool := s.getB (Reg.ISL_RPL_STS isl) 3

/-- Tiles of an island that a context owns, pool tiles excepted (R865). -/
def State.ownedTiles (s : State) (isl ctx : Nat) : List Nat :=
  (List.range 16).filter fun t => s.owner (isl * 16 + t) = some ctx && t < 16 - s.profile.dynCount

/-- The 64-bit value as eight bytes. -/
def le64 (v : Nat) : List Byte := leBytes v 8

/-- R865: an island latches its replica digests at the end of step `step` of a context. -/
def State.capture (s : State) (isl ctx step : Nat) : State :=
  let own := s.ownedTiles isl ctx
  let gt (t : Nat) := isl * 16 + t
  let mask := own.filter fun t => s.getB (Reg.TIL_RFSH_STS (gt t)) 8
  let dig (sel : List Nat) (lo hi : Nat → Nat) := (crc64 ((List.range 16).flatMap fun t =>
    le64 (if sel.contains t then s.get64 (lo (gt t)) (hi (gt t)) else 0))).toNat
  let s' := s.set64 (Reg.ISL_RPL_DIGW_LO isl) (Reg.ISL_RPL_DIGW_HI isl) (dig own Reg.TIL_DIG_WRITE_LO Reg.TIL_DIG_WRITE_HI)
  let s' := s'.set64 (Reg.ISL_RPL_DIGL_LO isl) (Reg.ISL_RPL_DIGL_HI isl) (dig mask Reg.TIL_DIG_LAST_LO Reg.TIL_DIG_LAST_HI)
  let s' := s'.setReg (Reg.ISL_RPL_MASK isl)
    (BitVec.ofNat 32 (mask.foldl (fun a t => a + 2 ^ t) 0 + b2n (s.getB (Reg.TIL_RFSH_STS (gt 0)) 0) * 65536))
  let s' := s'.setReg (Reg.ISL_RPL_PTH isl)
    (crc32c (mask.flatMap fun t => le64 (s.get64 (Reg.TIL_PASS_TICK_LO (gt t)) (Reg.TIL_PASS_TICK_HI (gt t)))))
  (s'.setF (Reg.ISL_RPL_STEP isl) 0 16 step).bumpSeq 3 isl

/-- R865: N_d of an island; 0 in the field means 128. -/
def State.rplNd (s : State) (isl : Nat) : Nat :=
  let n := s.getF (Reg.ISL_RPL_STS isl) 8 8
  if n = 0 then 128 else n

/-- R867: the digest of a plan's output rows on an output island. -/
def State.outDigest (s : State) (p : Plan) (isl : Nat) : Nat :=
  (crc64 (s.readLines isl p.ctx (p.f 24 2) (p.outLines)).bytes).toNat

/-! ## The end of a step (R739, R748, R865, R870, R378) -/

/-- A tail line of a result block (R744). -/
def tailLineOf (gen : Nat) : List Byte :=
  let b := padTo 60 (leBytes gen 8)
  b ++ leBytes (crc32c b).toNat 4

/-- A head line of a result block (R744). -/
def headLineOf (jb : Job) (bytes rstat origin : Nat) : List Byte :=
  let b := padTo 60 (leBytes jb.gen 8 ++ leBytes jb.cid 2 ++ [BitVec.ofNat 8 (jb.queue % 16), 0] ++ leBytes jb.plan 4
    ++ leBytes bytes 4 ++ leBytes rstat 2 ++ [0, 0] ++ leBytes origin 8)
  b ++ leBytes (crc32c b).toNat 4

/-- Write a line of the frame block of a job with OUT_MODE 1 (R748). -/
def State.frameLine (s : State) (jb : Job) (line : Nat) (b : List Byte) : State :=
  if jb.outMode = 1 && jb.arg2 != 0 then
    match s.winBlock jb.fn jb.arg2 with
    | some blk => s.hbWriteLine blk line 0 b false
    | none => s
  else s

/-- The step of a job ends at this edge. -/
def State.endStep (s : State) (j : Nat) : State :=
  let jb := s.job j
  let p := s.plan jb.plan
  let s := s.setJob j { jb with st := 4, endTick := s.now }
  let s := { s with acks := s.acks.filter fun a => a.job != j, runs := s.runs.filter fun e => e.2.job != j }
  let s := if jb.failed then s else s.frameLine jb 63 (tailLineOf jb.gen)
  let rep := 1 < s.rcnt p
  let cap := rep && !jb.failed && jb.step % s.rplNd (s.gridIsl p 0) = 0
  let s := if cap then s.setPlan jb.plan { s.plan jb.plan with captured := true } else s
  let s := if rep && !jb.failed && bit (s.rplCfg p) 3 then
      (s.activeReps p).foldl (fun s k =>
        let isl := s.repIsl p k (p.f 17 1)
        s.set64 (Reg.ISL_RPL_OUT_LO isl) (Reg.ISL_RPL_OUT_HI isl) (s.outDigest p isl)) s
    else s
  let s := (s.planIslands p).foldl (fun s isl =>
    let s := if cap then s.capture isl p.ctx jb.step else s
    if rep && s.expelled isl && !(s.hd 3 isl).fenceDp then s.fenceUnit isl 16 0x12 else s) s
  -- R739: a step that failed, or that sends no rows, writes no result block: the job ends here.
  let s := if jb.failed || jb.outMode = 1 then s.endJob j 0 else s
  if (s.plan jb.plan).unloading then s.unloadNow jb.plan else s

/-- The step ends when every ticket has been issued or the step failed, and none is live (R739). -/
def State.checkEnd (s : State) (j : Nat) : State :=
  let jb := s.job j
  if jb.st != 3 || (s.tickets.any fun e => e.2.job = j) || !(jb.failed || (s.allIssued jb && !(s.acks.any fun a => a.job = j))) then s
  else s.endStep j

/-! ## DYN calls and leases (R382 to R384, R402, R403) -/

/-- Pool tiles of an island (R380): DYN_CFG.COUNT of them at the top. -/
def State.poolTiles (s : State) (isl : Nat) : List Nat :=
  (List.range 16).filter fun t => 16 - s.getF (Reg.ISL_DYN_CFG isl) 0 3 ≤ t

/-- R383: a pool tile is free. -/
def State.poolFree (s : State) (isl t : Nat) : Bool :=
  let gt := isl * 16 + t
  !(s.leases.any fun l => l.res = 4 && l.unit = gt) && !s.tileFenced gt && (s.tx gt).cal = 0 && !s.tileTested gt
    && !s.getB (Reg.TIL_STS gt) 8 && s.profile.dynCount = s.getF (Reg.ISL_DYN_CFG isl) 0 3

/-- The free pool tiles of an island. -/
def State.freePool (s : State) (isl : Nat) : List Nat := (s.poolTiles isl).filter (s.poolFree isl)

/-- R402, R403: the issue of a DYN ticket posts its call record: the inputs P2 reads at this tick are latched. -/
def State.dynCall (s : State) (isl idx : Nat) : State :=
  let k := isl * 256 + idx
  let p := s.acctOf isl
  let av := s.avail p
  let f := (s.freePool isl).foldl (fun a t => a + 2 ^ (t - 12)) 0
  let s := s.incSat (Reg.ISL_DYN_CALL_CNT isl) 1
  let s := s.setAc p { s.ac p with pavail := av }
  s.setTk k { s.tkAt k with call := [f, av.1, av.2] }

/-- R380, R421: COUNT of the profile takes effect on an island once none of its pool tiles is leased. -/
def State.dynCount (s : State) (isl : Nat) : State :=
  let n := s.profile.dynCount
  if s.getF (Reg.ISL_DYN_CFG isl) 0 3 = n || (s.leases.any fun l => l.res = 4 && l.unit / 16 = isl) then s
  else (List.range 16).foldl (fun s t => s.setB (Reg.TIL_CTL (isl * 16 + t)) 1 (decide (16 - n ≤ t))) (s.setF (Reg.ISL_DYN_CFG isl) 0 3 n)

/-- R382, R384: a lease ends: the tile is released and the owner field cleared. -/
def State.dynReturn (s : State) (gt : Nat) : State :=
  let s := { s with leases := s.leases.filter fun l => !(l.res = 4 && l.unit = gt) }
  let s := s.setF (Reg.ISL_DYN_OWNER (gt / 16)) (8 * (gt % 16 - 12)) 8 0
  (s.dynCount (gt / 16)).release gt

/-- The operation of a DYN ticket ends: its leases are returned. -/
def State.dynEnd (s : State) (k : Nat) : State :=
  let d := Store.get dynNone s.dyns k
  let s := (d.pos.filter fun p => s.leases.any fun l => l.res = 4 && l.unit = k / 256 * 16 + p.tile).foldl
    (fun s p => s.dynReturn (k / 256 * 16 + p.tile)) s
  let s := { s with dyns := Store.put dynNone s.dyns k {} }
  s.setB (Reg.ISL_DYN_CFG (k / 256)) 8 (s.dyns.any fun e => e.1 / 256 = k / 256)

/-! ## Issue (R347, R372, R374, R376) -/

/-- The next emission due on an island, over every running step: (job, emission, planned launch tick). -/
def State.dueEm (s : State) (isl : Nat) : Option (Nat × Em × Nat) :=
  -- R897, R936: an engine in reset or held by a test segment issues no plan ticket.
  if s.islReset isl || s.getB (Reg.ISL_ENG_STS isl) 2 then none else
  (s.jobs.filter fun e => e.2.st = 3 && !e.2.failed && (s.planIslands (s.plan e.2.plan)).contains isl
      && !(s.rplOn isl && s.expelled isl)).foldl (fun (b : Option (Nat × Em × Nat)) e =>
    match s.nextOf e.2 isl with
    | none => b
    | some m =>
      let l := e.2.origin + e.2.slip + m.t
      if s.now + 32 < l then b
      else match b with
        | none => some (e.1, m, l)
        | some (_, m', l') =>
          if l < l' || (l = l' && keyLt (0, m.desc, m.ord) (0, m'.desc, m'.ord)) then some (e.1, m, l) else b) none

/-- TICKET_ISSUE: the sequencer of an island issues the next ticket that is due. -/
def execTicketIssue (isl : Isl) (s : State) : Host.Outcome State Fault Refusal :=
  .next <|
    match s.dueEm isl with
    | none => s
    | some (j, m, l) =>
      let h := (s.job j).plan
      let s := s.applyRehome h
      match s.badItem (s.plan h) isl m with
      | some line =>
        let s := s.setReg (Reg.ISL_DESC_ERR isl) (BitVec.ofNat 32 (line % 65536 + (s.plan h).ctx * 65536))
        ((s.raiseC 3 isl Ev.SEQ_DESC_CRC none (s.plan h).ctx).failStep j 13 4 isl 0xFF).checkEnd j
      | none =>
        match s.freeIdx isl with
        | none => s.setB (Reg.ISL_SEQ_STS isl) 1 true
        | some idx =>
          let late := l < s.now
          let t := { s.mkTicket h j isl m l with slipped := (s.job j).slips != 0, wait := if late then 4 else 0 }
          let s := s.setJob j ((s.job j).setCur isl m.key)
          let s := (s.enter isl idx t m).setB (Reg.ISL_SEQ_STS isl) 1 false
          let s := if m.action = 0x30 then s.dynCall isl idx else s
          if late then s.raiseC 3 isl Ev.SEQ_TKT_FULL none t.ctx else s

/-! ## Fast arming (R751) -/

/-- Launch tick of an armed ticket, left open. -/
def openLaunch : Nat := 2 ^ 100

/-- Emissions of a plan's step on an island whose launch offset is below 32 ticks, in issue order. -/
def State.armEms (s : State) (p : Plan) (isl : Nat) : List Em :=
  let l := (s.emissions p isl).filter fun e => e.t < 32
  (List.range l.length).foldl (fun (acc : List Em) _ =>
    match nextEm (acc.getLast?.map (·.key)) l with
    | some e => acc ++ [e]
    | none => acc) []

/-- R751: the sequencers arm the next step of a bound plan. -/
def State.arm (s : State) (h : Nat) : State :=
  let p := s.plan h
  (s.planIslands p).foldl (fun s isl =>
    (s.armEms p isl).foldl (fun s e =>
      match s.freeIdx isl with
      | none => s
      | some idx => s.enter isl idx { s.mkTicket h (armedJob h) isl e (openLaunch + e.t) with step := p.steps + 1 } e) s) s

/-- R753: a commit binds the armed tickets of a plan to job `j` whose step begins at `origin`. -/
def State.bindArmed (s : State) (h j origin : Nat) : State :=
  let p := s.plan h
  let s := (s.planIslands p).foldl (fun s isl =>
    if s.tickets.any fun e => e.1 / 256 = isl && e.2.job = armedJob h then
      match (s.armEms p isl).getLast? with
      | some e => s.setJob j ((s.job j).setCur isl e.key)
      | none => s
    else s) s
  s.mapTk (fun _ t => t.job = armedJob h) fun t =>
    { t with job := j, launch := origin + (t.launch - openLaunch), planned := origin + (t.planned - openLaunch), step := (s.job j).step }

/-! ## STEP_ORIGIN (R743) -/

/-- L of R743. -/
def Job.lead (jb : Job) : Nat := if jb.fast then 0 else if jb.inMode = 2 then 512 else 32

/-- The earliest origin R743 allows a job. -/
def State.originOf (s : State) (jb : Job) : Nat :=
  let p := s.plan jb.plan
  max (max (jb.inTick + 1 + jb.lead) (if jb.early then jb.earliest else 0))
    (p.lastOrigin.elim 0 fun o => o + p.lastSlip + p.stepTicks)

/-- The job may have its origin now: its inputs are complete, its plan is loaded and runs no other step, it is the plan's next
job, its context's gate is open (R628, R692), its plan is not paused (R904). -/
def State.canStart (s : State) (j : Nat) : Bool :=
  let jb := s.job j
  let p := s.plan jb.plan
  jb.st = 2 && p.live && !(s.jobs.any fun e => e.2.plan = jb.plan && e.2.st = 3)
    && !(s.jobs.any fun e => e.2.plan = jb.plan && (e.2.st = 2 || e.2.rerun) && e.2.st ≤ 2 && e.1 < j)
    && !s.gateShut jb.fn && !p.unloading && decide (p.paused ≤ s.now) && decide (s.originOf jb ≤ s.now)

/-- R945: the plan leases of a plan are renewed at a step origin. -/
def State.renewPlan (s : State) (h : Nat) : State :=
  { s with leases := s.leases.map fun l =>
      if l.plan = h && l.kind = 1 && (l.res = 2 || l.res = 3) && s.now < l.expiry then { l with expiry := s.now + 2 ^ 23 } else l }

/-- Start or extend a TIDE_OUT marker (R507, R508). -/
def State.marker (s : State) : State :=
  let till := s.now + max 1 (s.getF Reg.TID_OUT_CTL 16 8)
  if s.tide.outTill < till then ({ s with tide := { s.tide with outTill := till } }).emit (.tideOut till) else s

/-- STEP_ORIGIN of a job. -/
def execStepOrigin (j : Nat) (s : State) : Host.Outcome State Fault Refusal :=
  .next <|
    if !s.canStart j then s
    else
      let jb := s.job j
      let p := s.plan jb.plan
      let q := Store.get (fun _ => ({} : QPair)) s.qps (jb.fn * 16 + jb.queue)
      let frame := jb.outMode = 1 && jb.arg2 != 0
      let gen := if frame then q.gen + 1 else 0
      let s := if frame then { s with qps := Store.put (fun _ => {}) s.qps (jb.fn * 16 + jb.queue) { q with gen := gen } } else s
      let jb := { jb with st := 3, origin := s.now, slip := 0, slips := 0, step := p.steps + 1, failed := false, gen := gen, cursor := [],
                            outIsl := s.repIsl p ((s.activeReps p).headD 0) (p.f 17 1), outLine := p.f 24 2 }
      let s := s.setJob j jb
      let s := s.setPlan jb.plan { p with steps := p.steps + 1, lastOrigin := some s.now, lastSlip := 0 }
      let s := s.renewPlan jb.plan
      let s := s.frameLine jb 0 (headLineOf jb (p.outLines * 64) 0 s.now)
      let s := if s.getF Reg.TID_OUT_CTL 0 2 = 3 && s.getF Reg.TID_OUT_CTL 8 6 = jb.fn then s.marker else s
      if p.bound then (s.bindArmed jb.plan j s.now).arm jb.plan else s

/-! ## ACTION_ACK (R481 to R488, R494) -/

/-- Slack class of a ticket (R487); sub-tickets of a DYN operation are not measured (R488). -/
def Ticket.slackClass (t : Ticket) : Option Nat :=
  if t.dyn != 0 then none else
  match t.action with
  | 0x01 => some 0 | 0x02 => some 0 | 0x03 => some 0
  | 0x04 => some 1 | 0x05 => some 1 | 0x06 => some 1
  | 0x10 => some 2 | 0x20 => some 3
  | _ => none

/-- Measure the slack of an acknowledgement that arrived `early` ns before this edge (R486 to R488). -/
def State.measure (s : State) (isl : Nat) (t : Ticket) (early : Nat) : State :=
  match t.slackClass with
  | none => s
  | some c =>
    if t.status % 4 != 0 then s
    else
      let sl : Int := ((t.deadline : Int) - s.now) * 8 + early
      let cur := Store.get (fun _ => (32767 : Int)) s.tide.slack (isl * 4 + c)
      let s := { s with tide := { s.tide with slack := Store.put (fun _ => 32767) s.tide.slack (isl * 4 + c) (min cur sl) } }
      if c = 0 then { s with slu := { s.slu with avsMin := min s.slu.avsMin sl } } else s

/-- ACTION_ACK: the acknowledgement of a launched ticket is registered; `early`: ns before this edge at which it arrived. -/
def execActionAck (isl : Isl) (idx : TktIx) (early : Fin 8) (s : State) : Host.Outcome State Fault Refusal :=
  .next <|
    let k := isl.val * 256 + idx.val
    let t := s.tkAt k
    if !((t.state = 3 || t.state = 4) && t.ran && !t.noAct && decide (t.launch < s.now)) then s
    else
      let s := s.measure isl t early
      let s := if s.unitFenced k t && !t.discard then s.failStep t.job 1 3 isl idx else s
      let t := s.tkAt k
      let s := if t.uclass = 0 then s.ackTile k t else if t.action = 0x30 then s.dynEnd k
        else if t.action = 7 then (if t.uindex = 4 then s.ackMove k t else s.ackFerry k t) else s
      let s := (((s.endStrait k t).freeTk k).checkEnd t.job)
      if t.action = 7 && t.job = 0 && t.plan != 0 then s.swapAck t.ctx else s

/-! ## Misses (R483, R489 to R496) -/

/-- Payload of TIDE_MISS (R496). -/
def missPayload (isl idx : Nat) (t : Ticket) : List Byte := tkHead isl idx t ++ leBytes t.deadline 4 ++ leBytes t.step 2

/-- One ticket misses: STATE 4, counter, record, LAST_MISS. -/
def State.missOne (s : State) (k : Nat) : State :=
  let t := s.tkAt k
  let s := s.setTk k { t with state := 4 }
  let s := s.incSat Reg.TID_MISS_CNT 1
  let s := s.setReg Reg.TID_LAST_MISS (BitVec.ofNat 32
    (k / 256 + k % 256 * 64 + t.ctx % 64 * 16384 + t.uclass % 8 * 2 ^ 20 + t.action % 256 * 2 ^ 24))
  let s := s.set64 Reg.TID_LAST_MISS_TICK_LO Reg.TID_LAST_MISS_TICK_HI t.deadline
  s.raiseC 8 0 Ev.TIDE_MISS (some (missPayload (k / 256) (k % 256) t)) t.ctx

/-- The ticket has missed its deadline at this edge: sub-tickets of a DYN operation carry none (R479). -/
def Ticket.missed (t : Ticket) (now : Nat) : Bool :=
  t.state = 3 && decide (t.deadline ≤ now) && t.action != 0x31 && t.action != 0x32 && t.dyn = 0

/-- TIDE_MISS: every ticket of the step with the same deadline misses; the plan's policy acts once (R491). -/
def execTideMiss (isl : Isl) (idx : TktIx) (s : State) : Host.Outcome State Fault Refusal :=
  .next <|
    let k := isl.val * 256 + idx.val
    let t := s.tkAt k
    if !t.missed s.now then s
    else
      let all := s.tickets.filter fun e => e.2.job = t.job && e.2.plan = t.plan && e.2.deadline = t.deadline && e.2.missed s.now
      let s := all.foldl (fun s e => s.missOne e.1) s
      let jb := s.job t.job
      let low := (all.head?.elim isl.val fun e => e.1 / 256)
      if jb.st != 3 || jb.failed then
        s.mapTk (fun _ u => u.job = t.job && u.plan = t.plan && u.state = 4 && u.noAct) fun u => { u with state := 5 }
      else if all.any fun e => e.2.noAct then s.failStep t.job 1 3 isl idx
      else if (s.plan jb.plan).isSlip then
        if jb.slips < (s.plan jb.plan).maxSlips then s.slipStep t.job t.deadline low else s.failStep t.job 1 2 isl idx
      else s.failStep t.job 1 1 isl idx

/-! ## Hangs (R485, R520, R927) -/

/-- The ticket is hung at this edge. -/
def Ticket.hung (t : Ticket) (now : Nat) : Bool :=
  ((t.state = 3 || t.state = 4) && !t.noAct && decide (t.deadline + 65536 + t.frozen ≤ now))
    || (t.state = 2 && decide (t.launch + 65536 + t.frozen ≤ now))

/-- Steps with a live ticket on the hung ticket's unit fail (R927). -/
def State.failUnit (s : State) (k : Nat) (t : Ticket) : State :=
  s.failLive (k / 256) fun e u => e / 256 = k / 256 && u.uclass = t.uclass && (u.uindex = t.uindex || t.uclass = 1 || t.uclass = 4)

/-- R927, R935: P4 frees a hung ticket's entry and acts on its unit class. -/
def State.hungFree (s : State) (k : Nat) (t : Ticket) : State :=
  let isl := k / 256
  let s := s.failUnit k t
  let s := ((s.dynEnd k).endStrait k t).freeTk k
  let s := s.incSat (Reg.ISL_HANG_FREED_CNT isl) 1
  let s := s.raiseC 15 0 Ev.RCV_HUNG_FREED none t.ctx
  let s := match t.uclass with
    | 0 => (s.setF (Reg.TIL_STS (tkTile k t)) 0 4 0).fenceUnit isl t.uindex 0x14
    | 1 => s.engineRecover isl 3 2
    | 2 => s.engineRecover isl 3 3
    | 3 =>
      let s := s.raiseI 3 isl Ev.ISL_LANE_RESET none
      match s.runOf t with
      | some (r, x) =>
        let s := s.stopRun r isl 15
        if x.gt = 0 then s
        else
          let s := { s with runs := Store.put runNone s.runs r {} }
          if (s.tx (x.gt - 1)).reStep = 2 then s.reprogEnd (x.gt - 1) 3 (b2n x.copies) else s
      | none => s
    | _ => s.engineRecover isl 3 4
  s.checkEnd t.job

/-- TIDE_HANG: the ticket is handed to P4, which frees it and acts on its unit class. -/
def execTideHang (isl : Isl) (idx : TktIx) (s : State) : Host.Outcome State Fault Refusal :=
  .next <|
    let k := isl.val * 256 + idx.val
    let t := s.tkAt k
    if !t.hung s.now || s.getB Reg.DBG_CTL 0 then s
    else
      let d := if t.state = 2 then t.planned + t.dln else t.deadline
      let s := s.incSat Reg.TID_HANG_CNT 1
      let s := s.raiseC 8 0 Ev.TIDE_HANG (some (tkHead isl idx t ++ leBytes d 4 ++ leBytes t.step 2)) t.ctx
      s.hungFree k t

end Sys2Proof.Machine
end

