-- ==== Sys2Proof/Machine/Tide.lean ====
section
/-!
DEFINITION. The tide: count, lock and holdover, resync words with heartbeats, slack windows, PPS and TIDE_OUT, the ticket window
(R465 to R474, R486 to R488, R500 to R525, R928, R929, R953).
-/
namespace Sys2Proof.Machine

/-! ## The count (R468 to R472, R484, R953) -/

/-- The count advances: it has started and the tide is locked or on holdover. -/
def State.tideRuns (s : State) : Bool := s.getB Reg.TID_STS 2 && (s.getB Reg.TID_STS 0 || s.getB Reg.TID_STS 1)

/-- R953: partition p is covered by a rung, or held under R944. -/
def State.outOf (s : State) (p : Nat) : Bool :=
  s.rungs.any fun r =>
    (r.kind = 3 && r.target = p) || (!r.held && 4 ≤ r.kind) || (!r.held && r.kind = 2 && s.partOf r.target = some p)

/-- R953: the outage and service ticks of every partition. -/
def State.countService (s : State) : State :=
  (List.range 8).foldl (fun s p =>
    let s := if s.outOf p && (s.partDef p).isSome then s.add64 (Reg.RCV_OUT_LO p) (Reg.RCV_OUT_HI p) 1 else s
    if s.getF (Reg.PRT_STS p) 0 2 = 1 then s.add64 (Reg.RCV_SVC_LO p) (Reg.RCV_SVC_HI p) 1 else s) s

/-- Free the entries retired without launching (R484) and end the steps that waited for them. -/
def State.freeRetired (s : State) : State :=
  (s.tickets.filter fun e => e.2.state = 5).foldl (fun s e => ((s.dynEnd e.1).freeTk e.1).checkEnd e.2.job) s

/-- R1072: while LEASE_FREEZE is set, every lease of the core domain keeps its remaining time and the pilot watchdogs and the hang counts stand. -/
def State.freezeTick (s : State) : State :=
  if s.getB Reg.DBG_CTL 0 then
    { s with leases := s.leases.map fun (l : Lease) => if l.res = 6 then l else { l with expiry := l.expiry + 1 }
             wd := s.wd.map fun (e : Nat × Nat) => (e.1, e.2 + 1)
             tickets := s.tickets.map fun (e : Nat × Ticket) =>
               (e.1, if ((e.2.state = 3 || e.2.state = 4) && decide (e.2.deadline < s.now)) || (e.2.state = 2 && decide (e.2.launch < s.now)) then
                 { e.2 with frozen := e.2.frozen + 1 } else e.2) }
  else s

/-- What the two sluices have granted. -/
def State.granted (s : State) : Nat × Nat :=
  (s.get64 Reg.SLU_GRANT_ARR_LO Reg.SLU_GRANT_ARR_HI, s.get64 Reg.SLU_GRANT_CORE_LO Reg.SLU_GRANT_CORE_HI)

/-- The two powers of the millisecond that ends. -/
def State.powerSince (s : State) : Nat × Nat :=
  ((s.granted.1 - s.grantWas.1) / 1250000, (s.granted.2 - s.grantWas.2) * 32 * s.slu.vForce / 32000000000)

/-- R995: at each ms the power granted over the ms is taken, in W, rounded down (R539: one array drop a tick is 0.1 W; a core drop by its voltage). -/
def State.powerEdge (s : State) : State :=
  if s.now % 125000 != 0 then s else { s with grantWas := s.granted, power := s.powerSince }

/-- TIDE_TICK: one tick edge. -/
def execTideTick (s : State) : Host.Outcome State Fault Refusal :=
  .next <|
    if s.tideRuns then ({ s with count := s.count + 1 } : State).freezeTick.countService.freeRetired.fenceEdge.powerEdge else s

/-- TIDE_PLL_LOCK (R466, R468): the first lock after VDD_CORE starts the count at 0. -/
def execTidePllLock (s : State) : Host.Outcome State Fault Refusal :=
  .next <|
    if s.getB Reg.TID_STS 0 || s.getF Reg.BOOT_STS 0 4 = 0 then s
    else
      let s := { s with tide := { s.tide with refclk := true } }
      let s := if s.getB Reg.TID_STS 2 then s else { s with count := 0 }
      ((s.setB Reg.TID_STS 0 true).setB Reg.TID_STS 2 true).setB Reg.TID_STS 1 false

/-- REFCLK_RETURN (R472): the PLL relocks without a phase step. -/
def execRefclkReturn (s : State) : Host.Outcome State Fault Refusal :=
  .next <|
    if s.tide.refclk || !s.getB Reg.TID_STS 2 then s
    else (({ s with tide := { s.tide with refclk := true } }).setB Reg.TID_STS 0 true).setB Reg.TID_STS 1 false

/-! ## The resync word (R474) and heartbeats (R928, R929) -/

/-- R474: an island's copy differs from the resync word. -/
def State.desync (s : State) (isl : Nat) : State :=
  let s := s.setF Reg.TID_STS 8 6 isl
  let s := s.raise 8 0 Ev.TIDE_DESYNC none 255 ((s.partOf isl).getD 255)
  let s := s.failLive isl fun k _ => k / 256 = isl
  s.engineRecover isl 5 5

/-- R929: only the rung in progress uses the answer of an island in IN_RESET: an engine recovery counts consecutive answers (R936 step 4), a
partition or chip rung notes the island (R938, R939 step 6). -/
def State.rungProbe (s : State) (isl : Nat) (answered : Bool) : State :=
  { s with rungs := s.rungs.map fun (r : Rung) =>
      if r.held || r.esc then r
      else if r.kind = 2 && r.target = isl && r.phase = 2 then { r with hb := if answered then isl :: r.hb else [] }
      else if answered && ((r.kind = 3 && r.phase = 2 && s.partOf isl = some r.target) || (r.kind = 4 && r.phase = 3)) then { r with hb := isl :: r.hb }
      else r }

/-- R928, R929: the probe of one engine: answered or not. -/
def State.probe (s : State) (isl : Nat) (answered : Bool) : State :=
  if s.ownFenced 3 isl || s.getB (Reg.ISL_ENG_STS isl) 2 || s.getB Reg.DBG_CTL 0 then s
  else if s.islReset isl then s.rungProbe isl answered
  else if answered then (s.incWrapF (Reg.ISL_HB_CNT isl) 0 16 1).setF (Reg.ISL_HB_CNT isl) 16 8 0
  else
    let s := (s.incSatF (Reg.ISL_HB_CNT isl) 16 8 1).incSat (Reg.ISL_HB_MISS_CNT isl) 1
    if s.getF (Reg.ISL_HB_CNT isl) 16 8 = max 1 (s.getF Reg.RCV_CTL 4 4) then
      (s.raiseI 3 isl Ev.ISL_HB_MISS none).engineRecover isl 4 1
    else s

/-- RESYNC_WORD: the word at a multiple of 1,024 ticks; `bad`: islands whose copy differs; `silent`: engines that leave the
probe unanswered (log entry 2). -/
def execResyncWord (bad silent : List Isl) (s : State) : Host.Outcome State Fault Refusal :=
  .next <|
    if !s.tideRuns || s.now % 1024 != 0 then s
    else
      let s := if s.getB Reg.TID_CTL 1 then
          ((List.range 64).filter fun i => bad.any fun b => b.val = i).foldl (fun s i => s.desync i) s else s
      (List.range 64).foldl (fun s i => s.probe i !(silent.any fun b => b.val = i)) s

/-! ## Slack windows (R487, R513) -/

/-- Length of a slack window. -/
def State.slackLen (s : State) : Nat := 2 ^ (10 + s.getF Reg.TID_SLK_CTL 8 4)

/-- SLACK_WINDOW_END: the minima of the completed window are latched for the selected island; a new window starts empty. -/
def execSlackWindowEnd (s : State) : Host.Outcome State Fault Refusal :=
  .next <|
    if s.now % s.slackLen != 0 then s
    else
      let isl := s.getF Reg.TID_SLK_CTL 0 6
      let s := if s.tide.slackHold then s else
        (List.range 4).foldl (fun s c =>
          let v := Store.get (fun _ => (32767 : Int)) s.tide.slack (isl * 4 + c)
          s.setReg (Reg.TID_SLK_MIN c) (BitVec.ofNat 32 (twos 16 (clampI (-32768) 32767 v)))) s
      { s with tide := { s.tide with slack := [], slackHold := false } }

/-- R1061: a debug write is taken only when access is unlocked. -/
def State.dbgOpen (s : State) : Bool := s.getF Reg.DBG_STS 0 2 = 2

/-- R510: writers of the TID page; `ext`: a register that the causeway may write too. -/
def State.tidWriter (s : State) (rq : Requester) (ext : Bool) : Bool :=
  match rq with
  | .fn f => f = 0
  | .pilot _ => true
  | .causeway => ext
  | .debug => s.dbgOpen

/-- Store a plain write to a register: the writable bits change, the others keep their value (R8, R9). -/
def State.plainWrite (s : State) (a : Nat) (v : Word) : State :=
  s.setReg a ((s.reg a &&& ~~~ regMask a) ||| (v &&& regMask a))

/-- A write of SLK_CTL. -/
def State.writeSlkCtl (s : State) (v : Word) : State :=
  let old := s.reg Reg.TID_SLK_CTL
  let s := s.plainWrite Reg.TID_SLK_CTL v
  if s.reg Reg.TID_SLK_CTL = old then s
  else
    let s := (List.range 4).foldl (fun s c => s.setReg (Reg.TID_SLK_MIN c) 0x7FFF) s
    { s with tide := { s.tide with slack := [], slackHold := true } }

/-- SLK_CTL_WRITE (R513). -/
def execSlkCtlWrite (rq : Requester) (v : Word) (s : State) : Host.Outcome State Fault Refusal :=
  .next (s.orHeld rq false Reg.TID_SLK_CTL v {} fun s =>
    if s.tidWriter rq false then s.writeSlkCtl v else s)

/-! ## The ticket window (R512) -/

/-- A write of TKT_SEL copies 64 entries into TKT_WIN. -/
def State.writeTktSel (s : State) (v : Word) : State :=
  let s := s.plainWrite Reg.TID_TKT_SEL v
  let isl := s.getF Reg.TID_TKT_SEL 0 6
  let q := s.getF Reg.TID_TKT_SEL 8 2
  (List.range 64).foldl (fun s i =>
    let b := (s.tk isl (64 * q + i)).bytes
    (List.range 4).foldl (fun s w => s.setReg (Reg.TID_TKT_WIN (4 * i + w)) (BitVec.ofNat 32 (leAt b (4 * w) 4))) s) s

/-- TKT_SEL_WRITE (R512). -/
def execTktSelWrite (rq : Requester) (v : Word) (s : State) : Host.Outcome State Fault Refusal :=
  .next (s.orHeld rq false Reg.TID_TKT_SEL v {} fun s =>
    if s.tidWriter rq false then s.writeTktSel v else s)

/-! ## TIDE_PPS (R500 to R506, R521 to R523) -/

/-- Ticks of one second. -/
def ppsPeriod : Nat := 125000000

/-- PPS_BASE. -/
def State.ppsBase (s : State) : Nat := s.get64 Reg.TID_PPS_BASE_LO Reg.TID_PPS_BASE_HI

/-- The frequency trim in force, 0.1 ppm (R503, R523). -/
def State.freqAdj (s : State) : Int :=
  let v := sgn 16 (s.getF Reg.TID_FREQ_ADJ 0 16)
  match s.tide.slewFrom with
  | none => v
  | some t =>
    let d : Int := ((s.now - t) * 10 * max 1 (s.getF Reg.TID_PPS_CTL 8 8) / ppsPeriod : Nat)
    if 0 ≤ v then max 0 (v - d) else min 0 (v + d)

/-- The index of the second nearest to an instant given in ns (R500, R501). -/
def State.ppsIndex (s : State) (ns : Int) : Int := (ns - s.ppsBase * 8 + ppsPeriod * 4) / (ppsPeriod * 8)

/-- Error of an instant against a target (R500). -/
def State.ppsError (s : State) (ns : Int) : Int := ns - ((s.ppsBase : Int) + s.ppsIndex ns * ppsPeriod) * 8

/-- Trim after an accepted edge in DISCIPLINE: the value the PLL's loop takes, within the slew rate and ±400 ppm (R503). -/
def State.newTrim (s : State) (want : Int) : Int :=
  let sec : Nat := (s.tide.ppsLast.elim 1 fun t => max 1 ((s.now - t + ppsPeriod / 2) / ppsPeriod))
  let lim : Int := (10 * max 1 (s.getF Reg.TID_PPS_CTL 8 8) * sec : Nat)
  clampI (-4000) 4000 (clampI (s.freqAdj - lim) (s.freqAdj + lim) want)

/-- Set LOCKED from the run of good edges (R504). -/
def State.ppsLock (s : State) (err : Int) : State :=
  if err.natAbs ≤ 8 then
    let run := s.tide.ppsRun + 1
    let s := { s with tide := { s.tide with ppsRun := run } }
    if max 1 (s.getF Reg.TID_PPS_CTL 16 8) ≤ run && !s.getB Reg.TID_PPS_STS 1 then
      (s.setB Reg.TID_PPS_STS 1 true).raise 8 0 Ev.TIDE_PPS_LOCK none 255 255
    else s
  else ({ s with tide := { s.tide with ppsRun := 0 } }).setB Reg.TID_PPS_STS 1 false

/-- PPS_EDGE: an edge arrives `ns` ns after the last tick edge; `trim`: the trim the discipline loop then takes (log entry 2). -/
def execPpsEdge (falling : Bool) (ns : Fin 8) (trim : Int) (s : State) : Host.Outcome State Fault Refusal :=
  .next <|
    let mode := s.getF Reg.TID_PPS_CTL 0 2
    let t : Int := s.now * 8 + ns.val
    let early := s.tide.ppsLast.elim false fun l => s.now - l < 112500000
    let acq := mode = 1
    if mode = 0 || falling != s.getB Reg.TID_PPS_CTL 2 || early || (!acq && 1000000 < (s.ppsError t).natAbs) then s
    else
      let s := if acq then
          (s.set64 Reg.TID_PPS_BASE_LO Reg.TID_PPS_BASE_HI s.now).setF Reg.TID_PPS_CTL 0 2 2
        else match s.tide.ppsBaseNext with
          | some b => ({ s with tide := { s.tide with ppsBaseNext := none } }).set64 Reg.TID_PPS_BASE_LO Reg.TID_PPS_BASE_HI b.toNat
          | none => s
      let err := s.ppsError t
      let s := s.set64 Reg.TID_PPS_CAPT_LO Reg.TID_PPS_CAPT_HI s.now
      let s := s.setF Reg.TID_PPS_ERR 0 16 (twos 16 (clampI (-32768) 32767 err))
      let s := ((s.incWrapF Reg.TID_PPS_STS 16 16 1).setB Reg.TID_PPS_STS 0 true).setB Reg.TID_PPS_STS 3 false
      let s := if mode = 2 && !s.getB Reg.TID_STS 1 then
          let n := s.newTrim trim
          (s.setF Reg.TID_FREQ_ADJ 0 16 (twos 16 n)).setB Reg.TID_PPS_STS 2 (n.natAbs = 4000) else s
      let s := { s with tide := { s.tide with ppsLast := some s.now, ppsK := (s.ppsIndex t).toNat, slewFrom := none } }
      s.ppsLock err

/-- TIDE_PPS_LOST (R505): no edge accepted for 1.5 s. -/
def execTidePpsLost (s : State) : Host.Outcome State Fault Refusal :=
  .next <|
    let from' := max s.tide.ppsFrom (s.tide.ppsLast.getD 0)
    if s.getF Reg.TID_PPS_CTL 0 2 = 0 || s.getB Reg.TID_PPS_STS 3 || s.now < from' + 187500000 then s
    else
      let s := ((s.setB Reg.TID_PPS_STS 3 true).setB Reg.TID_PPS_STS 1 false).setB Reg.TID_PPS_STS 0 false
      ({ s with tide := { s.tide with ppsRun := 0 } }).raise 8 0 Ev.TIDE_PPS_LOST none 255 255

/-- A write of PPS_CTL (R502, R523). -/
def State.writePpsCtl (s : State) (v : Word) : State :=
  let old := s.getF Reg.TID_PPS_CTL 0 2
  let adj := s.freqAdj
  let s := s.plainWrite Reg.TID_PPS_CTL v
  let new := s.getF Reg.TID_PPS_CTL 0 2
  -- The trim in force at this edge is kept; MODE 0 slews it to 0 from here.
  let s := s.setF Reg.TID_FREQ_ADJ 0 16 (twos 16 adj)
  let s := { s with tide := { s.tide with slewFrom := if new = 0 then some s.now else none } }
  if old = 0 && new != 0 then { s with tide := { s.tide with ppsFrom := s.now } } else s

/-- PPS_CTL_WRITE (R510, R523). -/
def execPpsCtlWrite (rq : Requester) (v : Word) (s : State) : Host.Outcome State Fault Refusal :=
  .next (s.orHeld rq false Reg.TID_PPS_CTL v {} fun s =>
    if s.tidWriter rq true then s.writePpsCtl v else s)

/-- A write of the pair PPS_BASE (R522). -/
def State.writePpsBase (s : State) (v : DWord) : State :=
  if s.getF Reg.TID_PPS_CTL 0 2 = 2 then
    ({ s with tide := { s.tide with ppsBaseNext := some v, ppsRun := 0 } }).setB Reg.TID_PPS_STS 1 false
  else s.set64 Reg.TID_PPS_BASE_LO Reg.TID_PPS_BASE_HI v.toNat

/-- PPS_BASE_WRITE (R522). -/
def execPpsBaseWrite (rq : Requester) (v : DWord) (s : State) : Host.Outcome State Fault Refusal :=
  .next (if s.pageReset 8 0 then
      (s.orHeld rq false Reg.TID_PPS_BASE_LO (v.setWidth 32) {} id).orHeld rq false Reg.TID_PPS_BASE_HI ((v >>> 32).setWidth 32) {} id
    else if s.tidWriter rq true then s.writePpsBase v
    else s)

/-! ## TIDE_OUT (R507, R508) -/

/-- The present tick is a marker of the selected source. -/
def State.markerNow (s : State) : Bool :=
  let at' := s.get64 Reg.TID_OUT_AT_LO Reg.TID_OUT_AT_HI
  let per := (s.reg Reg.TID_OUT_PERIOD).toNat
  match s.getF Reg.TID_OUT_CTL 0 2 with
  | 1 => s.now = at' || (per != 0 && decide (at' ≤ s.now) && (s.now - at') % per = 0)
  | 2 => decide (s.ppsBase ≤ s.now) && (s.now - s.ppsBase) % ppsPeriod = 0
  | 3 => s.jobs.any fun e => e.2.fn = s.getF Reg.TID_OUT_CTL 8 6 && e.2.st = 3 && e.2.origin = s.now
  | _ => false

/-- TIDE_OUT_MARKER: the marker of this tick drives the pin for WIDTH ticks; a marker within an active one extends it. -/
def execTideOutMarker (s : State) : Host.Outcome State Fault Refusal := .next (if s.markerNow then s.marker else s)

end Sys2Proof.Machine
end

