-- ==== Sys2Proof/Machine/Calib.lean ====
section
/-!
DEFINITION. Calibration against the external reference (chapter 4, R184 to R241).
-/
namespace Sys2Proof.Machine

/-- A command that is refused: CAL_STS.ERR and CAL_REFUSED. -/
def State.calRefuse (s : State) (err : Nat) : State := (s.setF Reg.CAL_STS 24 8 err).raise 13 0 Ev.CAL_REFUSED none 255 255

/-- R238: the CAL page takes writes from every requester but the VFs; debug only when unlocked (R1061). -/
def State.calWriter (s : State) (rq : Requester) : Bool :=
  match rq with
  | .fn f => f = 0
  | .debug => s.dbgOpen
  | _ => true

/-- The tiles of a scope; none for a target that does not exist. -/
def State.scopeTiles (s : State) (scope target : Nat) : List Nat :=
  match scope with
  | 0 => [target % 1024]
  | 1 => if target < 64 then tabulate 16 fun i => target * 16 + i else []
  | 2 => (s.islandsOf target).flatMap fun i => tabulate 16 fun t => i * 16 + t
  | _ => List.range 1024

/-- SCOPE and TARGET of the last command. -/
def State.calNote (s : State) (scope target : Nat) : State := (s.setF Reg.CAL_STS 6 2 scope).setF Reg.CAL_STS 8 10 target

/-- A CAL_CMD from a writer of the page: R203 refuses SCOPE 3 from any requester but P3. -/
def State.calCmd (s : State) (rq : Requester) (scope target : Nat) (f : State → State) : State :=
  if !s.calWriter rq then s
  else if scope = 3 && rq != .pilot 3 then (s.calNote scope target).calRefuse 7
  else f (s.calNote scope target)

/-- R203, R209, R221: a run of a kind starts over a scope. -/
def State.startRun (s : State) (kind : Nat) (tiles : List Nat) : State :=
  let s := s.setReg Reg.CAL_STS (setFld (setFld (setFld (s.reg Reg.CAL_STS) 0 3 1) 3 1 0) 24 8 0)
  let s := s.setReg Reg.CAL_PROG (BitVec.ofNat 32 (tiles.length * 65536))
  s.updCal fun c => { c with
    kind := kind, sw := none, tiles := tiles.foldl (fun m t => Store.put trimZero m t 1) [], lastTj := [], lastBg := []
    vfy := c.vfy.map fun e => if e.1 % 8 = 0 then (e.1, setFld e.2 0 2 0) else e }

/-- A run is RUNNING or READY. -/
def State.calActive (s : State) : Bool := s.getF Reg.CAL_STS 0 3 = 1 || s.getF Reg.CAL_STS 0 3 = 2

/-- RUN_CAL (R187, R203, R229, R1048). -/
def execRunCal (rq : Requester) (scope : Fin 4) (target : Fin 1024) (s : State) : Host.Outcome State Fault Refusal :=
  .next (s.orHeld rq false Reg.CAL_CMD (BitVec.ofNat 32 (1 + scope * 16 + target * 64)) {} fun s =>
    s.calCmd rq scope target fun s =>
    let tiles := s.scopeTiles scope target
    if tiles.isEmpty then s.calRefuse 7
    else if s.calActive || s.getF Reg.BOOT_PROF_STS 0 2 = 2 then s.calRefuse 3
    else if !s.getB Reg.CAL_STS 4 then s.calRefuse 1
    else s.startRun 1 tiles)

/-- COMMIT (R205, R207): of a READY run, or of inactive banks as they stand. -/
def execCalCommit (rq : Requester) (scope : Fin 4) (target : Fin 1024) (s : State) : Host.Outcome State Fault Refusal :=
  .next (s.orHeld rq false Reg.CAL_CMD (BitVec.ofNat 32 (2 + scope * 16 + target * 64)) {} fun s =>
    s.calCmd rq scope target fun s =>
    let st := s.getF Reg.CAL_STS 0 3
    if st = 1 then s.calRefuse 3
    else
      let t := s.now + s.commitLead
      if st = 2 then s.updCal fun c => { c with sw := some ((c.sw.getD (1, t)).1, (c.sw.getD (1, t)).2) }
      else
        let tiles := s.scopeTiles scope target
        if tiles.isEmpty then s.calRefuse 7 else s.updCal fun c => { c with sw := some (2, t), swTiles := tiles })

/-- REVERT (R208, R209). -/
def execCalRevert (rq : Requester) (scope : Fin 4) (target : Fin 1024) (s : State) : Host.Outcome State Fault Refusal :=
  .next (s.orHeld rq false Reg.CAL_CMD (BitVec.ofNat 32 (3 + scope * 16 + target * 64)) {} fun s =>
    s.calCmd rq scope target fun s =>
    if !s.getB Reg.CAL_STS 3 then s.calRefuse 5
    else (s.setB Reg.CAL_STS 3 false).updCal fun c => { c with sw := some (3, s.now + s.commitLead) })

/-- ABORT (R210). -/
def execCalAbort (rq : Requester) (scope : Fin 4) (target : Fin 1024) (s : State) : Host.Outcome State Fault Refusal :=
  .next (s.orHeld rq false Reg.CAL_CMD (BitVec.ofNat 32 (4 + scope * 16 + target * 64)) {} fun s =>
    s.calCmd rq scope target fun s => s.calAbortRun 0)

/-! ## Snapshots (R224, R225) -/

/-- The trim-snapshot slots. -/
def snapBase0 : Nat := 0x1100000
/-- The second slot. -/
def snapBase1 : Nat := 0x1180000

/-- The body of a snapshot. -/
def State.snapBody (s : State) : List Byte :=
  (List.range 64).flatMap (fun i => leBytes (twos 32 (Store.get (fun _ => (0 : Int)) s.cal.bg i)) 4)
    ++ (List.range 1024).flatMap fun gt =>
      leBytes ((List.range 528).foldl (fun a c => a + s.trim gt (s.bankOf gt) c / 256 % 64 * 64 ^ c) 0) 396
        ++ [BitVec.ofNat 8 (s.getF (Reg.TIL_CAL_TJ gt) 0 8), 0, 0, 0]

/-- SNAPSHOT. -/
def execCalSnapshot (rq : Requester) (scope : Fin 4) (target : Fin 1024) (s : State) : Host.Outcome State Fault Refusal :=
  .next (s.orHeld rq false Reg.CAL_CMD (BitVec.ofNat 32 (5 + scope * 16 + target * 64)) {} fun s =>
    s.calCmd rq scope target fun s =>
    if s.calActive || s.getB Reg.CAL_SNAP_STS 17 then s.calRefuse 3
    else (s.setB Reg.CAL_SNAP_STS 17 true).flashAsk
      { kind := 4, base0 := snapBase0, base1 := snapBase1, size := 0x80000, body := s.snapBody, extra := leBytes 1024 2, holder := 3 })

/-- A failed erase or program (FLASH_ERR_CNT). -/
def State.flashErr (s : State) : State := (s.incSat Reg.BOOT_FLASH_ERR_CNT 1).raise 16 0 Ev.BOOT_FLASH_ERR none 255 255

/-- SNAPSHOT_WRITE_DONE: the snapshot's record is written, or the flash failed (`ok` false). -/
def execSnapshotWriteDone (ok : Bool) (s : State) : Host.Outcome State Fault Refusal :=
  .next <|
    match s.flashq with
    | [] => s
    | w :: _ =>
      if w.kind != 4 then s
      else
        let s := s.setB Reg.CAL_SNAP_STS 17 false
        if ok then
          let s := s.flashFinish w
          let s := s.setF Reg.CAL_SNAP_STS 0 16 (w.slot.elim 0 (·.2))
          ((s.setB Reg.CAL_SNAP_STS 16 true).setB Reg.CAL_SNAP_STS 18 false).flashNext
        else
          let s := s.flashErr
          ((s.flashTear w).setB Reg.CAL_SNAP_STS 18 true).flashNext.raise 13 0 Ev.CAL_SNAP_FAIL none 255 255

/-- R226: a snapshot's gain trims, TJ_CAL values and bandgap trims are loaded into the active banks. -/
def State.loadSnapshot (s : State) (b : List Byte) : State :=
  let s := s.updCal fun c => { c with
    bg := (List.range 64).foldl (fun m i => Store.put (fun _ => (0 : Int)) m i (sgn 32 (leAt b (4 * i) 4))) c.bg }
  (List.range 1024).foldl (fun s gt =>
    let base := 256 + 400 * gt
    let g := leAt b base 396
    let s := (List.range 528).foldl (fun s c => s.setTrim gt (s.bankOf gt) c (g / 64 ^ c % 64 * 256)) s
    s.setF (Reg.TIL_CAL_TJ gt) 0 8 (leAt b (base + 396) 1)) s

/-! ## Measurement (R193 to R202, R212 to R237) -/

/-- Tiles measured at a time on an island. -/
def State.calPar (s : State) : Nat :=
  if 2 ≤ s.cal.kind then 4 else match s.getF Reg.CAL_CTL 0 2 with | 0 => 1 | 1 => 2 | 2 => 4 | _ => 16

/-- R204, R231: the tile whose turn it is on an island: ascending index, those passed over after the others. -/
def State.calTurn (s : State) (isl : Nat) : Option Nat :=
  let st (v : Nat) := (List.range 16).find? fun t => s.calSt (isl * 16 + t) = v
  (st 1).or (st 6)

/-- Native mode. -/
def State.nativeCal (s : State) (gt : Nat) : Bool := !s.getB (Reg.TIL_CTL gt) 0

/-- R195: the inactive bank becomes a copy of the active one. -/
def State.copyBank (s : State) (gt : Nat) : State :=
  let b := s.bankOf gt
  (tabulate 528 id ++ tabulate 1024 (1024 + ·)).foldl (fun s i => s.setTrim gt (1 - b) i (s.trim gt b i)) s

/-- CAL_TILE_START (R195, R204, R212, R219, R230 to R232). -/
def execCalTileStart (gt : Tile) (s : State) : Host.Outcome State Fault Refusal :=
  .next <|
    let isl := gt.val / 16
    let busy := ((List.range 16).filter fun t => s.calSt (isl * 16 + t) = 2).length
    if s.getF Reg.CAL_STS 0 3 != 1 || s.calTurn isl != some (gt.val % 16) || s.calPar ≤ busy || s.getB (Reg.TIL_STS gt) 8 then s
    else if s.tileFenced gt then (s.calTileDone gt 4).calCheckDone
    else if s.tileTested gt then
      if s.calSt gt = 1 then s.updCal fun c => { c with tiles := Store.put trimZero c.tiles gt 6 } else (s.calTileDone gt 4).calCheckDone
    else if !s.nativeCal gt && s.getF (Reg.TIL_COLMAP_CTL gt) 4 4 = 15 then
      ((s.setF Reg.CAL_STS 24 8 4).calTileDone gt 4).calCheckDone
    else
      let s := s.copyBank gt
      let pat := s.getB (Reg.TIL_RFSH_STS gt) 1
      let s := s.updCal fun c => { c with tiles := Store.put trimZero c.tiles gt 2 }
      let s := s.updTx gt fun x => { x with cal := 1, calPat := pat, calStart := s.now, unlockTick := none }
      if s.nativeCal gt then s.setB (Reg.TIL_STS gt) 7 true else s

/-- Cost and slow-corner slot of a calibration action: 0 standard conversion, 1 extended conversion, 2 row read, 3 row write of the
pattern, 4 extended drive pulse (R96, R199, R527). -/
def calCost (kind : Nat) : (Nat × Nat) × Nat :=
  match kind with
  | 0 => ((40, 8), 9)
  | 2 => ((1, 1), 5)
  | 3 => ((1, 0), 5)
  | _ => ((52, 12), 13)

/-- CAL_ACTION (R155, R196, R200, R201, R234): one action of a measurement, from its start to its end. -/
def execCalAction (gt : Tile) (kind : Fin 5) (row : Fin 1024) (devs : List (Fin 528 × Fin 64)) (s : State) :
    Host.Outcome State Fault Refusal :=
  .next <|
    let c := calCost kind
    if s.calSt gt != 2 || s.tileBusy gt || s.tileFenced gt || !s.quiet gt c.2 || (kind = 3 && !(s.tx gt).calPat) then s
    else match s.grant (gt / 16) c.1 with
      | none => s
      | some s =>
        if !s.locked gt then
          let s := s.updTx gt fun x => { x with unlockTick := x.unlockTick.or (some s.now) }
          s.raiseUnlock gt (match kind.val with | 0 => 1 | 2 => 5 | 3 => 4 | _ => 2) 255
        else
          let s := s.updTx gt fun x => { x with unlockTick := none }
          match kind.val with
          | 2 => s.noteRead gt row (s.rowReadAt gt row (devs.map fun p => (p.1.val, BitVec.ofNat 8 p.2.val))) 3 255
          | 3 => s.rowWrite gt row (List.replicate 512 63#8)
          | 4 => s.add64 (Reg.TIL_PULSE_CNT_LO gt) (Reg.TIL_PULSE_CNT_HI gt) 1
          | _ => s

/-- R196: the row's drive is measured: on the pattern, or on its own levels. -/
def State.rowMeasured (s : State) (gt r : Nat) : Bool :=
  (s.tx gt).calPat || ((s.row gt r).valid && 2048 ≤ ((s.row gt r).levels.take 512).foldl (fun a l => a + ((l.toNat : Int) - 32).natAbs) 0)

/-- The greatest |new − previous| of a trim field over indexes, saturating at 255 (R240). -/
def State.trimShift (s : State) (gt lo w base n : Nat) : Nat :=
  let b := s.bankOf gt
  min 255 ((List.range n).foldl (fun a i =>
    max a (sgn w (s.trim gt (1 - b) (base + i) / 2 ^ lo) - sgn w (s.trim gt b (base + i) / 2 ^ lo)).natAbs) 0)

/-- A trim at the end of its range. -/
def trimEnd (w v : Nat) : Bool := v % 2 ^ w = 2 ^ (w - 1) || v % 2 ^ w = 2 ^ (w - 1) - 1

/-- Trims of the inactive bank at the ends of their ranges, saturating at 255. -/
def State.trimSat (s : State) (gt : Nat) : Nat :=
  let b := 1 - s.bankOf gt
  min 255 ((List.range 528).foldl (fun a c => a + b2n (trimEnd 6 (s.trim gt b c)) + b2n (trimEnd 6 (s.trim gt b c / 256))) 0
    + (List.range 1024).foldl (fun a r => a + b2n (trimEnd 5 (s.trim gt b (1024 + r)))) 0)

/-- What a measurement finds (log entry 2): residual maxima and their places, the largest row-side deviation, and the island's bandgap
deviation in ppm (R193, R240). -/
def State.storeVfy (s : State) (gt carried : Nat) (ofs gain row : Byte) (ofsCol gainCol rowWorst : Nat) (side bg : Int) : State :=
  let x := s.tx gt
  let sat := s.trimSat gt
  let step := if 1 ≤ s.getF Reg.CAL_STS 6 2 && s.getB Reg.CAL_CTL 4 then clampI (-250) 250 bg else 0
  let s := s.setVfy gt 0 (BitVec.ofNat 32 (1 + b2n (!s.nativeCal gt) * 4 + b2n x.calPat * 8 + carried * 16 + s.tj (gt / 16) * 2 ^ 24))
  let s := s.setVfy gt 1 (BitVec.ofNat 32 (ofs.toNat + gain.toNat * 256 + row.toNat * 65536 + sat * 2 ^ 24))
  let s := s.setVfy gt 2 (BitVec.ofNat 32
    (s.trimShift gt 0 6 0 528 + s.trimShift gt 8 6 0 528 * 256 + s.trimShift gt 0 5 1024 1024 * 65536))
  let s := s.setVfy gt 3 (BitVec.ofNat 32 (ofsCol % 1024 + gainCol % 1024 * 65536))
  let s := s.setVfy gt 4 (BitVec.ofNat 32 (rowWorst % 1024))
  let s := s.setVfy gt 5 (BitVec.ofNat 32 (twos 16 (clampI (-32768) 32767 bg) + twos 16 step * 65536))
  let s := s.setVfy gt 6 (BitVec.ofNat 32 (twos 16 (clampI (-32768) 32767 side)))
  let s := s.setVfy gt 7 (BitVec.ofNat 32 s.now)
  let s := s.updCal fun c => { c with bgDev := Store.put (fun _ => 0) c.bgDev (gt / 16) step }
  if 0 < sat then s.raise 13 0 Ev.CAL_TRIM_SAT none 255 255 else s

/-- CAL_TILE_END (R193, R196, R197, R221, R222): the measurement's trims, by column (offset, gain) and by row, go into the inactive bank;
a row that could not be measured keeps its trim. -/
def execCalTileEnd (gt : Tile) (cols : List (Fin 528 × Fin 64 × Fin 64)) (rows : List (Fin 1024 × Fin 32)) (ofs gain row : Byte)
    (ofsCol gainCol rowWorst : Fin 1024) (side bg : Int) (s : State) : Host.Outcome State Fault Refusal :=
  .next <|
    if s.calSt gt != 2 then s
    else
      let b := 1 - s.bankOf gt
      let gains := s.cal.kind != 2
      let s := cols.foldl (fun s c =>
        s.setTrim gt b c.1 (c.2.1.val + (if gains then c.2.2.val else s.trim gt b c.1 / 256 % 64) * 256)) s
      let s := (rows.filter fun r => s.rowMeasured gt r.1).foldl (fun s r => s.setTrim gt b (1024 + r.1.val) r.2) s
      let carried := ((List.range 1024).filter fun r => !s.rowMeasured gt r).length
      let s := s.storeVfy gt carried ofs gain row ofsCol gainCol rowWorst side bg
      (s.calTileDone gt 3).calCheckDone

/-- CAL_UNLOCK_TIMEOUT (R234): 1 ms without lock. -/
def execCalUnlockTimeout (gt : Tile) (s : State) : Host.Outcome State Fault Refusal :=
  .next <|
    match (s.tx gt).unlockTick with
    | none => s
    | some t => if s.calSt gt = 2 && !s.locked gt && t + 125000 < s.now then (s.calTileDone gt 5).calCheckDone else s

/-! ## The switch (R206 to R209) -/

/-- R206, R118, R119: a tile's inactive bank becomes active. -/
def State.switchBank (s : State) (gt : Nat) : State :=
  let s := s.setB (Reg.TIL_STS gt) 4 (!s.getB (Reg.TIL_STS gt) 4)
  let s := (s.setF (Reg.TIL_CAL_TJ gt) 0 8 (s.tj (gt / 16))).setB (Reg.TIL_STS gt) 6 false
  s.closeTrim gt

/-- Bandgap trims after a commit of the run: BG_STEP of each island of the scope. -/
def State.stepBandgaps (s : State) : State :=
  s.updCal fun c =>
    { c with
      lastBg := (List.range 64).filterMap fun i =>
        if Store.get (fun _ => (0 : Int)) c.bgDev i = 0 then none else some (i, Store.get (fun _ => (0 : Int)) c.bg i)
      bg := c.bgDev.foldl (fun m e => Store.put (fun _ => 0) m e.1 (Store.get (fun _ => (0 : Int)) m e.1 + e.2)) c.bg
      bgDev := [] }

/-- COMMIT_TICK takes the tick of the last commit or revert. -/
def State.stampCommit (s : State) : State := s.set64 Reg.CAL_COMMIT_TICK_LO Reg.CAL_COMMIT_TICK_HI s.now

/-- The commit of tiles. -/
def State.commitTiles (s : State) (tiles : List Nat) : State :=
  let s := s.updCal fun c => { c with lastTj := tiles.map fun gt => (gt, s.getF (Reg.TIL_CAL_TJ gt) 0 8), lastBg := [] }
  tiles.foldl (fun s gt => s.switchBank gt) s

/-- CAL_COMMITTED: a switch of banks whose tick has come, once no snapshot is being written (R225). -/
def execCalCommitted (s : State) : Host.Outcome State Fault Refusal :=
  .next <|
    match s.cal.sw with
    | none => s
    | some (k, t) =>
      if s.now < t || s.getB Reg.CAL_SNAP_STS 17 then s
      else
        let c := s.cal
        let s := s.updCal fun c => { c with sw := none }
        if k = 3 then
          let s := c.lastTj.foldl (fun s e =>
            (s.setB (Reg.TIL_STS e.1) 4 (!s.getB (Reg.TIL_STS e.1) 4)).setF (Reg.TIL_CAL_TJ e.1) 0 8 e.2) s
          let s := s.updCal fun c => { c with
            bg := c.lastBg.foldl (fun m e => Store.put (fun _ => 0) m e.1 e.2) c.bg, lastTj := [], lastBg := [] }
          (s.setF Reg.CAL_STS 0 3 5).stampCommit.raise 13 0 Ev.CAL_REVERTED none 255 255
        else
          let s := if k = 1 then s.commitTiles ((c.tiles.filter fun e => e.2 = 3).map (·.1)) else s.commitTiles c.swTiles
          let s := if k = 1 then s.stepBandgaps else s
          let s := if k = 1 && c.kind != 2 then s.setB Reg.CAL_STS 5 false else s
          let s := s.updCal fun c => { c with kind := 0, tiles := [], swTiles := [] }
          ((s.setF Reg.CAL_STS 0 3 3).setB Reg.CAL_STS 3 true).stampCommit.raise 13 0 Ev.CAL_COMMITTED none 255 255

/-- VREF_SAMPLE (R186, R188): the voltage on the sense pins in µV, and its deviation against island 0's bandgap in ppm. -/
def execVrefSample (uv : Fin 1048576) (dev : Int) (s : State) : Host.Outcome State Fault Refusal :=
  .next <|
    let good := 594000 ≤ uv.val && uv.val ≤ 606000
    let since := if good then s.cal.vrefSince.or (some s.now) else none
    let s := s.updCal fun c => { c with vrefSince := since }
    let s := s.setF Reg.CAL_VREF_MEAS 0 16 (twos 16 (clampI (-32768) 32767 dev))
    let ok := since.elim false fun t => t + 1250000 ≤ s.now
    let was := s.getB Reg.CAL_STS 4
    let s := s.setB Reg.CAL_STS 4 ok
    -- VREF_LOST.
    if was && !ok then s.calAbortRun 2 else s

end Sys2Proof.Machine
end

