-- ==== Sys2Proof/Machine/Dyn.lean ====
section
/-!
DEFINITION. Dynamic operands: P2's decision, the placement, prepare passes, row writes and pulses of a DYN operation
(R380 to R421).
-/
namespace Sys2Proof.Machine

/-! ## Placement and choice (R396, R404) -/

/-- Columns of block `b` (R390). -/
def DynP.cols (d : DynP) (b : Nat) : Nat := min 512 (d.n - 512 * (b % max 1 d.nb))

/-- R396: ticks of the prepare pass of block `b`. -/
def DynP.prepTicks (d : DynP) (b : Nat) : Nat := if d.col then d.cols b else d.kin

/-- First tick at or after `w` with (tick − t0) mod slot = k. -/
def residueTick (t0 slot k w : Nat) : Nat :=
  let slot := max 1 slot
  w + (k + slot - (w - t0) % slot) % slot

/-- D(T) of dyn_place. -/
def DynP.place (d : DynP) (slot tt : Nat) : Nat :=
  let t0 := 0
  let tt := max 1 tt
  let init := List.replicate tt (t0 + 48)
  let r := (List.range d.blocks).foldl (fun (st : Nat × List Nat × List Nat) b =>
    let k := b % tt
    let ps := max st.1 (at0 0 st.2.1 k)
    let port := ps + d.prepTicks b
    let ws := max port (at0 0 st.2.2 k)
    let we := ws + 5 * d.kin
    let p0 := residueTick t0 slot k we
    (port, setAt st.2.1 k we, setAt st.2.2 k (p0 + d.m * slot))) (48, init, init)
  r.2.2.foldl max 0 + 1

/-- Launches of dyn_place for `tt` tiles, as (offset, is a pulse): row writes and pulses (R396, R410). -/
def DynP.placeEvents (d : DynP) (slot tt : Nat) : List (Nat × Bool) :=
  let tt := max 1 tt
  let init := List.replicate tt 48
  ((List.range d.blocks).foldl (fun (st : (Nat × List Nat × List Nat) × List (Nat × Bool)) b =>
    let k := b % tt
    let ps := max st.1.1 (at0 0 st.1.2.1 k)
    let port := ps + d.prepTicks b
    let ws := max port (at0 0 st.1.2.2 k)
    let we := ws + 5 * d.kin
    let p0 := residueTick 0 slot k we
    ((port, setAt st.1.2.1 k we, setAt st.1.2.2 k (p0 + d.m * slot)),
      st.2 ++ tabulate d.kin (fun r => (ws + 5 * r, false)) ++ tabulate d.m fun m => (p0 + m * slot, true))) ((48, init, init), [])).2

/-- R404: (T, REASON): 0 REF, 1 TILES, 2 SLUICE, 3 UNFUNDED, 4 WAIT. `rate` in 1/16 drop per tick. -/
def DynP.choose (d : DynP) (slot cost f rate res : Nat) : Nat × Nat :=
  if f = 0 then (1, 4)
  else
    let want := min d.tref d.blocks
    let tmax := min want f
    let funded (tt : Nat) : Bool :=
      let need := tt * cost * 16
      need ≤ rate * slot || (need - rate * slot) * d.place slot tt ≤ res * 16 * slot
    match ((List.range tmax).map fun i => tmax - i).find? funded with
    | some tt => (tt, if tt = want then 0 else if tt = tmax then 1 else 2)
    | none => (1, 3)

/-- Bits of a mask, as pool tiles. -/
def maskTiles (m : Nat) : List Nat := ((List.range 4).filter fun i => m / 2 ^ i % 2 = 1).map (· + 12)

/-- R382, R384: lease pool tiles to a DYN ticket and start its operation at t0. -/
def State.dynLease (s : State) (k : Nat) (t : Ticket) (tiles : List Nat) (t0 reason : Nat) : State :=
  let isl := k / 256
  let d := s.dynP isl t
  let s := tiles.foldl (fun s x =>
    let gt := isl * 16 + x
    let s := s.lease { res := 4, unit := gt, kind := 1, owner := t.ctx, plan := t.plan, expiry := t.launch + 124928 }
    (s.setF (Reg.ISL_DYN_OWNER isl) (8 * (x - 12)) 8 (t.ctx + 128)).release gt) s
  let n := max 1 tiles.length
  let pos := (tiles.zip (List.range n)).map fun p =>
    { tile := p.1, todo := (List.range d.blocks).filter fun b => b % n = p.2, wend := t0 + 48, tend := t0 + 48 : DynPos }
  let s := { s with dyns := Store.put dynNone s.dyns k { reason := reason, t0 := t0, port := t0 + 48, pos := pos, total := d.blocks * d.m } }
  s.setB (Reg.ISL_DYN_CFG isl) 8 true

/-- R408, R409: record a decision: DYN_LAST, DYN_LAST_D, the DYN_DECIDE record, DYN_NARROW. -/
def State.dynRecord (s : State) (k : Nat) (t : Ticket) (tt reason tiles dd : Nat) : State :=
  let isl := k / 256
  let d := s.dynP isl t
  let f := at0 0 t.call 0
  let s := s.setReg (Reg.ISL_DYN_LAST isl)
    (BitVec.ofNat 32 (tt % 8 + d.tref % 8 * 8 + reason % 8 * 256 + tiles % 16 * 4096 + t.ctx % 64 * 65536))
  let s := s.setReg (Reg.ISL_DYN_LAST_D isl) (BitVec.ofNat 32 (min 0xFFFFFF dd))
  let pl := [BitVec.ofNat 8 tt, BitVec.ofNat 8 reason, BitVec.ofNat 8 tiles, BitVec.ofNat 8 d.tref] ++ leBytes (min 0xFFFFFF dd) 3
    ++ leBytes (at0 0 t.call 1) 2 ++ [BitVec.ofNat 8 (maskTiles f).length]
  let s := (s.logRaise { tick := s.now, ty := 3, inst := isl, code := 0x00F8, cls := 0, ctx := t.ctx, part := s.ctxPart t.ctx
                         payload := pl } ((s.hd 3 isl).ctl.getLsbD 1)).1
  if 1 ≤ reason && reason ≤ 3 then (s.incSat (Reg.ISL_DYN_NARROW_CNT isl) 1).raiseC 3 isl Ev.DYN_NARROW none t.ctx else s

/-- The ticket of a call that P2 or the issuer may still decide. -/
def State.dynOpen (s : State) (k : Nat) (t : Ticket) : Bool :=
  t.action = 0x30 && 1 ≤ t.state && t.state ≤ 4 && t.dyn = 0 && Store.get dynNone s.dyns k = {}

/-- R414: an earlier call of the island is decided first. -/
def State.dynFirst (s : State) (k : Nat) (t : Ticket) : Bool :=
  !(s.tickets.any fun e => e.1 / 256 = k / 256 && e.1 != k && s.dynOpen e.1 e.2
    && (e.2.launch < t.launch || (e.2.launch = t.launch && e.1 < k)))

/-- DYN_DECISION (R403 to R405, R408, R409, R414): P2 posts its decision by launch + 48. -/
def execDynDecision (isl : Isl) (idx : TktIx) (s : State) : Host.Outcome State Fault Refusal :=
  .next <|
    let k := isl.val * 256 + idx.val
    let t := s.tkAt k
    if !s.dynOpen k t || !s.dynFirst k t || t.launch + 48 < s.now then s
    else
      let d := s.dynP isl t
      let fr := (maskTiles (at0 0 t.call 0)).filter (s.poolFree isl)
      let c := d.choose t.slot (if t.mvmMode = 1 then 52 else 40) fr.length (at0 0 t.call 1) (at0 0 t.call 2)
      if c.2 = 4 then
        let s := { s with dyns := Store.put dynNone s.dyns k { reason := 4, waiting := true, total := d.blocks * d.m } }
        s.dynRecord k t 1 4 0 (d.place t.slot 1)
      else
        let tiles := fr.take c.1
        let s := s.dynLease k t tiles t.launch c.2
        s.dynRecord k t c.1 c.2 (tiles.foldl (fun a x => a + 2 ^ (x - 12)) 0) (d.place t.slot c.1)

/-- DYN_DEFAULT (R406): no valid decision by launch + 48. With no free tile the call waits as under R407. -/
def execDynDefault (isl : Isl) (idx : TktIx) (s : State) : Host.Outcome State Fault Refusal :=
  .next <|
    let k := isl.val * 256 + idx.val
    let t := s.tkAt k
    if !s.dynOpen k t || !s.dynFirst k t || s.now < t.launch + 48 || !(t.state = 3 || t.state = 4) then s
    else
      let d := s.dynP isl t
      let fr := s.freePool isl
      let n := min (min d.tref d.blocks) fr.length
      let s := (s.incSat (Reg.ISL_DYN_DEFAULT_CNT isl) 1).raiseC 3 isl Ev.DYN_DEFAULT none t.ctx
      if n = 0 then
        let s := { s with dyns := Store.put dynNone s.dyns k { reason := 5, waiting := true, total := d.blocks * d.m } }
        s.dynRecord k t 1 5 0 (d.place t.slot 1)
      else
        let tiles := fr.take n
        let s := s.dynLease k t tiles t.launch 5
        s.dynRecord k t n 5 (tiles.foldl (fun a x => a + 2 ^ (x - 12)) 0) (d.place t.slot n)

/-- DYN_WAIT (R407): the waiting call first in order leases the first pool tile that becomes free, with t0 at this tick. -/
def execDynWait (isl : Isl) (idx : TktIx) (s : State) : Host.Outcome State Fault Refusal :=
  .next <|
    let k := isl.val * 256 + idx.val
    let t := s.tkAt k
    let w (e : Nat) : Bool := (Store.get dynNone s.dyns e).waiting
    let before := s.dyns.any fun e => e.1 / 256 = isl.val && e.2.waiting && e.1 != k
      && ((s.tkAt e.1).launch < t.launch || ((s.tkAt e.1).launch = t.launch && e.1 < k))
    match s.freePool isl with
    | [] => s
    | x :: _ =>
      if !w k || before then s
      else
        let r := (Store.get dynNone s.dyns k).reason
        let s := s.dynLease k t [x] (max s.now t.launch) r
        (s.incSat (Reg.ISL_DYN_WAIT_CNT isl) 1).raiseC 3 isl Ev.DYN_WAIT none t.ctx

/-! ## Positions (R393, R415) -/

/-- R415: blocks of a fenced position move to the others in ascending order; with none left the operation can only miss. -/
def State.dynFix (s : State) (k : Nat) : State :=
  let d := Store.get dynNone s.dyns k
  let isl := k / 256
  match d.pos.find? fun p => !p.lost && s.tileFenced (isl * 16 + p.tile) with
  | none => s
  | some p =>
    let blocks := (match p.cur with | some b => [b] | none => []) ++ (match p.prep with | some b => [b.1] | none => []) ++ p.todo
    let pos := d.pos.map fun q => if q.tile = p.tile then { tile := p.tile, lost := true : DynPos } else q
    let alive := (pos.filter fun q => !q.lost).map (·.tile)
    let n := alive.length
    let pos := pos.map fun q =>
      if q.lost then q else
        { q with todo := q.todo ++ (List.range blocks.length).filterMap fun i => if at0 0 alive (i % max 1 n) = q.tile then blocks[i]? else none }
    -- A block written again delivers its rows again: the DESCALEs already delivered for it count once.
    let back := if p.cur.isSome then p.pulses else 0
    let s := { s with dyns := Store.put dynNone s.dyns k { d with pos := pos, done := d.done - back } }
    if n = 0 then s.setTk k { s.tkAt k with noAct := true } else s

/-- Quantise one value to a level (R391). -/
def dynLevel (u : FV) (x : FV) : Byte :=
  BitVec.ofNat 8 (32 + (if u.isZero then 0 else clampI (-31) 31 (fTruncDiv x u))).toNat

/-- The source rows of a block: all of its group when row-major, its columns when column-major. -/
def State.dynSource (s : State) (isl : Nat) (t : Ticket) (d : DynP) (b : Nat) : List RowIn :=
  let g := b / max 1 d.nb
  let c := b % max 1 d.nb
  if d.col then tabulate (d.cols b) fun j => s.readRow isl t.ctx (d.src t g (512 * c + j)) 3 d.kin
  else tabulate d.kin fun i => s.readRow isl t.ctx (d.src t g i) 3 d.n

/-- The largest magnitude of a list. -/
def maxAbs (l : List FV) : FV := l.foldl (fun a v => let x := fAbs v; if fLt a x then x else a) fZero

/-- R391: the BF16 column units u_j of a block. -/
def dynUnits (d : DynP) (b : Nat) (rows : List RowIn) : List Nat :=
  let c := b % max 1 d.nb
  tabulate (d.cols b) fun j =>
    let xs := if d.col then ((rows.drop j).take 1).flatMap fun r => r.vals d.kin else rows.map fun r => r.val (512 * c + j)
    bfOf (fDiv (maxAbs xs) (fInt 31 0)).w

/-- Update the run of a DYN ticket. -/
def State.updDyn (s : State) (k : Nat) (f : DynRun → DynRun) : State :=
  { s with dyns := Store.put dynNone s.dyns k (f (Store.get dynNone s.dyns k)) }

/-- The DYN ticket runs: launched, decided, its tiles leased. -/
def State.dynLive (s : State) (k : Nat) : Bool :=
  let t := s.tkAt k
  t.action = 0x30 && (t.state = 3 || t.state = 4) && !t.noAct && !(Store.get dynNone s.dyns k).waiting

/-- Address of a byte of the staging region of a position (R393): row i, column j at i × 512 + j (log entry 23). -/
def stageAdr (d : DynP) (k i j : Nat) : Nat := 64 * d.stage + k * d.kin * 512 + i * 512 + j

/-- DYN_PREPARE (R393): the write port reads the source rows of position `q`'s next block; blocks are prepared in ascending order. -/
def execDynPrepare (isl : Isl) (idx : TktIx) (q : Fin 4) (s : State) : Host.Outcome State Fault Refusal :=
  .next <|
    let k := isl.val * 256 + idx.val
    if !s.dynLive k then s
    else
      let s := s.dynFix k
      let t := s.tkAt k
      let d := s.dynP isl t
      let r := Store.get dynNone s.dyns k
      match r.pos[q.val]? with
      | none => s
      | some p =>
        match p.todo with
        | [] => s
        | b :: rest =>
          let earlier := r.pos.any fun x => !x.lost && x.todo.any fun y => y < b
          -- The staging of the position is free once the rows of its block before have been written.
          let writing := p.cur.isSome && p.rows < d.kin
          if p.lost || p.prep.isSome || earlier || writing || s.now < max r.port p.wend then s
          else
            let rows := s.dynSource isl t d b
            let u := dynUnits d b rows
            let st := rows.foldl (fun a x => a ||| x.tail.rstat ||| x.shape 3 d.srcLen ||| flagsOf (x.vals d.srcLen)) 0
            let s := rows.foldl (fun s x => s.noteUse isl t.ctx t.job x.faults x.poison) s
            let s := if d.col then
                (List.range d.kin).foldl (fun s i =>
                  let lv := tabulate 512 fun j =>
                    if j < rows.length then dynLevel (fBf (at0 0 u j)) (((rows.drop j).head?.map fun x => x.val i).getD fZero) else 32
                  (s.writeBytes isl t.ctx (stageAdr d q i 0) lv false).1) s
              else s
            let ready := s.now + d.prepTicks b
            s.updDyn k fun r => { r with port := ready }.updPos p.tile fun p =>
              { p with todo := rest, prep := some (b, ready), pScales := u, pStat := st }

/-- The 512 levels of row `i` of a block (R391, R392). -/
def State.dynRow (s : State) (isl : Nat) (t : Ticket) (d : DynP) (q b i : Nat) (u : List Nat) : List Byte × BasinRead :=
  if d.col then
    let r := s.readBytes isl t.ctx (stageAdr d q i 0) 512
    (r.bytes, r)
  else
    let x := s.readRow isl t.ctx (d.src t (b / max 1 d.nb) i) 3 d.n
    let c := b % max 1 d.nb
    (tabulate 512 fun j => if j < u.length then dynLevel (fBf (at0 0 u j)) (x.val (512 * c + j)) else 32, ⟨[], x.faults.flatten, x.poison⟩)

/-- R392: the column scales and gain steps of a block are written before its first pulse. -/
def State.dynScales (s : State) (gt gstep : Nat) (u : List Nat) : State :=
  let cs (j : Nat) : Nat := if j < u.length then bfOf (fMul (fBf (at0 0 u j)) (fInt 1024 0)).w else 0
  let s := (List.range 256).foldl (fun s i => s.setReg (Reg.TIL_COLSCALE gt i) (BitVec.ofNat 32 (cs (2 * i) + cs (2 * i + 1) * 65536))) s
  (List.range 32).foldl (fun s i => s.setReg (Reg.TIL_GAINSTEP gt i) (BitVec.ofNat 32 (gstep * 0x55555555))) s

/-- DYN_SUB_ROW_WRITE (R392, R398, R399): the next row write of position `q`'s run. The run holds one ticket entry. -/
def execDynSubRowWrite (isl : Isl) (idx : TktIx) (q : Fin 4) (s : State) : Host.Outcome State Fault Refusal :=
  .next <|
    let k := isl.val * 256 + idx.val
    if !s.dynLive k then s
    else
      let s := s.dynFix k
      let t := s.tkAt k
      let d := s.dynP isl t
      match (Store.get dynNone s.dyns k).pos[q.val]? with
      | none => s
      | some p0 =>
        -- The block prepared comes onto the tile once the tile's last block has had its pulses.
        let take := p0.cur.isNone && (p0.prep.elim false fun b => b.2 ≤ s.now) && decide (p0.tend ≤ s.now)
        let p : DynPos := if take then
            { p0 with cur := p0.prep.map (·.1), prep := none, cScales := p0.pScales, cStat := p0.pStat, rows := 0, pulses := 0, entry := 0 }
          else p0
        let gt := isl.val * 16 + p.tile
        match p.cur, (if p.entry = 0 then s.freeIdx isl else some (p.entry - 1)) with
        | some b, some e =>
          if p.lost || d.kin ≤ p.rows || s.tileBusy gt || s.tileFenced gt || (p.rows != 0 && decide (s.now < p.lastRow + 5)) then s
          else if !s.locked gt then s.raiseUnlock gt 4 t.ctx
          else match s.grant isl (1, 1) with
            | none => s
            | some s =>
              let key := isl.val * 256 + e
              let s := if p.entry = 0 then
                  (s.setTk key { state := 3, launch := s.now, planned := s.now, deadline := s.now, uindex := p.tile, action := 0x32
                                 ctx := t.ctx, desc := idx, step := t.step, job := t.job, plan := t.plan, dyn := k + 1 }).noteLive isl
                else s
              let lr := s.dynRow isl t d q b p.rows p.cScales
              let s := s.noteUse isl t.ctx t.job [lr.2.faults] lr.2.poison
              let s := s.rowWrite gt p.rows lr.1
              let last := p.rows + 1 = d.kin
              let s := if last then (s.dynScales gt d.gstep p.cScales).freeTk key else s
              s.updDyn k fun r => r.updPos p.tile fun _ =>
                { p with rows := p.rows + 1, lastRow := s.now, entry := if last then 0 else e + 1
                         wend := if last then s.now + 5 else p.wend }
        | _, _ => s

/-- The rill entry of a DYN operation's DESCALE: ROPC 0x01, OPSCALE 1.0. -/
def dynRop : List Byte := padTo 16 [1, 0, 0x80, 0x3F]

/-- DYN_SUB_PULSE (R386, R394, R396, R399, R400): the next pulse of position `q` launches, with the DESCALE of its slot's end. -/
def execDynSubPulse (isl : Isl) (idx : TktIx) (q : Fin 4) (errs : List (Nat × Int)) (s : State) :
    Host.Outcome State Fault Refusal :=
  .next <|
    let k := isl.val * 256 + idx.val
    if !s.dynLive k then s
    else
      let s := s.dynFix k
      let t := s.tkAt k
      let d := s.dynP isl t
      let r := Store.get dynNone s.dyns k
      match r.pos[q.val]? with
      | none => s
      | some p =>
        let gt := isl.val * 16 + p.tile
        let m := if p.redo != 0 then p.redo - 1 else p.pulses
        let at' := if p.pulses = 0 || p.redo != 0 then residueTick r.t0 t.slot q p.wend else p.lastPulse + t.slot
        let free := (List.range 256).filter fun i => (s.tk isl i).state = 0
        match p.cur, free with
        | some b, i :: j :: _ =>
          if p.lost || p.rows < d.kin || d.m ≤ m || s.now < at' || s.tileBusy gt || s.tileFenced gt then s
          else match s.grant isl (if t.mvmMode = 1 then (52, 12) else (40, 8)) with
            | none => s
            | some s =>
              let g := b / max 1 d.nb
              let c := b % max 1 d.nb
              let pk := isl.val * 256 + i
              let row := g * d.m + m
              let pulse : Ticket :=
                { state := 3, launch := s.now, planned := s.now, deadline := s.now, dln := t.slot, uindex := p.tile, action := 0x31
                  ctx := t.ctx, desc := idx, step := t.step, job := t.job, plan := t.plan, inA := d.drive t g m, extent := d.kin
                  fmt := t.fmt, zp := t.zp, slot := t.slot, mvmMode := t.mvmMode, iter := b * d.m + m, phase := 8 + q, dyn := k + 1 }
              let desc : Ticket :=
                { state := 1, launch := s.now + t.slot, planned := s.now + t.slot, dln := 1, uclass := 1, action := 0x10, ctx := t.ctx
                  desc := idx, step := t.step, job := t.job, plan := t.plan, outA := d.outRow t g m, auxA := 2048 * c, rop := dynRop
                  iter := b * d.m + m, phase := 8 + q, dyn := k + 1, ncol := d.cols b, rowN := d.n, wti := row, kx := m, slot := t.slot
                  mvmMode := t.mvmMode, extent := d.kin, srcStat := p.cStat, deps := [pk] }
              let s := (s.setTk pk pulse).setTk (isl.val * 256 + j) desc
              let s := (s.noteLive isl).runPulse pk pulse (errsOf errs)
              let done := p.redo = 0 && p.pulses + 1 = d.m
              let idle := p.pulses = d.m && p.redo != 0
              s.updDyn k fun r => r.updPos p.tile fun p =>
                { p with pulses := if p.redo = 0 then p.pulses + 1 else p.pulses, redo := 0, lastPulse := s.now
                         tend := if done || idle then s.now + t.slot else p.tend }
        | _, _ => s

/-- R417: the lease of a pool tile reaches its expiry: P4 revokes it, the operation fails. -/
def State.dynRevoke (s : State) (gt : Nat) : State :=
  let isl := gt / 16
  match s.dyns.find? fun e => e.1 / 256 = isl && e.2.pos.any fun p => p.tile = gt % 16 with
  | none => s
  | some (k, _) =>
    let t := s.tkAt k
    let s := s.revoke fun l => l.res = 4 && l.unit = gt
    let s := s.raiseC 3 isl Ev.DYN_REVOKED none t.ctx
    let s := s.failStep t.job 13 4 isl (k % 256)
    let subs := s.tickets.filter fun e => e.2.dyn = k + 1 && !(e.2.state = 3 && e.2.action = 0x31)
    let s := subs.foldl (fun s e => s.freeTk e.1) s
    (((s.dynEnd k).freeTk k)).checkEnd t.job

/-- DYN_REVOKED (R417). -/
def execDynRevoked (gt : Tile) (s : State) : Host.Outcome State Fault Refusal :=
  .next (if s.leases.any fun l => l.res = 4 && l.unit = gt && decide (l.expiry ≤ s.now) && !s.getB Reg.DBG_CTL 0 then s.dynRevoke gt else s)

end Sys2Proof.Machine
end

