-- ==== Sys2Proof/Machine/Sluice.lean ====
section
/-!
DEFINITION. The sluice: rates and caps, granting at each tick, the voltage loop (R526 to R576).
-/
namespace Sys2Proof.Machine

/-! ## Caps and rates (R530 to R544) -/

/-- The lower of two caps; 0 is no cap. -/
def minCap (a b : Nat) : Nat := if a = 0 then b else if b = 0 then a else min a b

/-- R538, R544: the cap in force of a profile cap and a software cap in 1/8 W, in units of 1/10240 W; the software cap is taken as
at least `floor`. -/
def capOf (prof sw floor : Nat) : Nat := minCap (prof * 1280) (if sw = 0 then 0 else max floor (sw * 1280))

/-- R539: drops per tick of an array cap. -/
def capArr (c : Nat) : Nat := c / 1024
/-- R539: drops per tick of a core cap at a voltage in mV. -/
def capCore (c mv : Nat) : Nat := c * 25 / (32 * max 1 mv)

/-- The chip cap of a rail in force: 0 array, 1 core. -/
def State.chipCap (s : State) (rail : Nat) : Nat :=
  if rail = 0 then capOf s.profile.chipArr (s.getF Reg.SLU_CHIP_CAP 0 16) 270336
  else capOf s.profile.chipCore (s.getF Reg.SLU_CHIP_CAP 16 16) 1126400

/-- R541: the chip pool of a rail after its reservation, at a voltage. -/
def State.chipPool (s : State) (rail mv : Nat) : Nat :=
  let c := s.chipCap rail
  if rail = 0 then (if c = 0 then 2640 else min 2640 (capArr c)) - 17
  else (if c = 0 then 2560 else min 2560 (capCore c mv)) - 768

/-- h_p. -/
def State.share (s : State) (p : Nat) : Nat := ((s.partDef p).getD {}).share

/-- R533: the uncapped rate. -/
def State.fullRate (s : State) (p rail : Nat) : Nat := (if rail = 0 then 2623 else 1792) * s.share p / 256

/-- R541: the effective rate of a partition on a rail at a voltage. -/
def State.effRate (s : State) (p rail mv : Nat) : Nat :=
  let d := (s.partDef p).getD {}
  let pool := s.chipPool rail mv * d.share / 256
  let c := if rail = 0 then capOf d.arrCap (s.getF (Reg.SLU_PCAP p) 0 16) (1056 * d.share)
    else capOf d.coreCap (s.getF (Reg.SLU_PCAP p) 16 16) (4400 * d.share)
  if c = 0 then pool else min pool (if rail = 0 then capArr c else capCore c mv)

/-- R567: the cap window in ticks. -/
def State.capWin (s : State) : Nat :=
  let w := s.getF Reg.SLU_CTL 0 5
  2 ^ (if 10 ≤ w && w ≤ 24 then w else 17)

/-- R542, R543, R571: count and allowance of a rail after its rate changed: (count, allowance). -/
def newAllow (was now : Bool) (oldRate rate count allow remaining : Nat) : Nat × Nat :=
  if !now then (0, 0)
  else if !was then (0, rate * remaining)
  else if oldRate = rate then (count, allow) else (count, count + rate * remaining)

/-- The accounts of a partition at the rates of a voltage. -/
def State.recalcPart (s : State) (mv p : Nat) : State :=
  let a := s.ac p
  let rA := s.effRate p 0 mv
  let rC := s.effRate p 1 mv
  let cA : Bool := rA < s.fullRate p 0
  let cC : Bool := rC < s.fullRate p 1
  let rem := s.capWin - s.now % s.capWin
  let pend := s.slu.winPend
  let (wA, alA) := if pend then (0, 2 ^ 64) else newAllow a.capA cA a.rateA rA a.wA a.allowA rem
  let (wC, alC) := if pend then (0, 2 ^ 64) else newAllow a.capC cC a.rateC rC a.wC a.allowC rem
  let dA := 45000000 * s.share p / 256
  let ovr := rA < a.rsvA || rC < a.rsvC
  let was := s.getB Reg.SLU_STS (16 + p)
  let s := s.setAc p { a with
    rateA := rA, rateC := rC, capA := cA, capC := cC, wA := wA, wC := wC, allowA := alA, allowC := alC
    depthA := dA, depthC := 64 * rC, lvlA := min a.lvlA dA, lvlC := min a.lvlC (64 * rC) }
  let s := ((s.setB Reg.SLU_STS p cA).setB Reg.SLU_STS (8 + p) cC).setB Reg.SLU_STS (16 + p) ovr
  if ovr && !was then s.raise 7 0 Ev.SLUICE_OVERCOMMIT none 255 p else s

/-- Every effective rate is recomputed at the voltage in force (R540, R555, R569). -/
def State.recalc (s : State) : State :=
  let mv := s.slu.vForce
  let s := s.setReg Reg.SLU_CHIP_RATE (BitVec.ofNat 32 (s.chipPool 0 mv + s.chipPool 1 mv * 65536))
  (List.range s.profile.parts.length).foldl (fun s p => s.recalcPart mv p) s

/-- R566: writers of SLU, FRY and HBR: the PF, the pilots, the causeway. -/
def State.dpWriter (s : State) (rq : Requester) : Bool :=
  match rq with
  | .fn f => f = 0
  | .debug => s.dbgOpen
  | _ => true

/-- A write of CHIP_CAP (`which` 0) or PCAP[which − 1] (R538, R569). -/
def State.writeCap (s : State) (a : Nat) (v : Word) : State :=
  ((s.plainWrite a v).recalc).raise 7 0 Ev.SLUICE_CAP_CHANGE none 255 255

/-- CAP_WRITE (R569). -/
def execCapWrite (rq : Requester) (which : Fin 9) (v : Word) (s : State) : Host.Outcome State Fault Refusal :=
  .next <| s.orHeld rq false (if which.val = 0 then Reg.SLU_CHIP_CAP else Reg.SLU_PCAP (which.val - 1)) v {} fun s =>
    if s.dpWriter rq then s.writeCap (if which.val = 0 then Reg.SLU_CHIP_CAP else Reg.SLU_PCAP (which.val - 1)) v else s

/-- A write of SLU_CTL (R571): no window count is kept until the next boundary of the new length. -/
def State.writeSluCtl (s : State) (v : Word) : State :=
  let old := s.capWin
  let s := s.plainWrite Reg.SLU_CTL v
  if s.capWin = old then s
  else
    let s := { s with slu := { s.slu with winPend := true } }
    (List.range s.profile.parts.length).foldl (fun s p =>
      let a := s.ac p
      s.setAc p { a with wA := 0, wC := 0, allowA := 2 ^ 64, allowC := 2 ^ 64 }) s

/-- CAP_WIN_WRITE (R571). -/
def execCapWinWrite (rq : Requester) (v : Word) (s : State) : Host.Outcome State Fault Refusal :=
  .next (s.orHeld rq false Reg.SLU_CTL v {} fun s =>
    if s.dpWriter rq then s.writeSluCtl v else s)

/-! ## The tick (R542, R545) -/

/-- A cap window begins at this edge: counts restart, and the log's first stretch and dry wait with them. -/
def State.windowStart (s : State) : State :=
  if s.now % s.capWin != 0 || s.slu.winTick = s.now then s
  else
    let s := { s with slu := { s.slu with winTick := s.now, winPend := false } }
    (List.range s.profile.parts.length).foldl (fun s p =>
      let a := s.ac p
      s.setAc p { a with wA := 0, wC := 0, allowA := a.rateA * s.capWin, allowC := a.rateC * s.capWin, stretchLogged := false
                         dryLogged := false }) s

/-- CAP_WINDOW_END (R542). -/
def execCapWindowEnd (s : State) : Host.Outcome State Fault Refusal := .next s.windowStart

/-- The accounts of a partition refill by one tick (R545, R535). -/
def Acct.refill (a : Acct) : Acct := { a with lvlA := min (a.lvlA + a.rateA) a.depthA, lvlC := min (a.lvlC + a.rateC) a.depthC }

/-- R550: ticks waited by stretched tickets. -/
def State.countStretch (s : State) : State :=
  (s.tickets.filter fun e => e.2.state = 2 && e.2.wait = 2 && e.2.dropStretch).foldl
    (fun s e => s.incSat (Reg.SLU_PSTRETCH (s.acctOf (e.1 / 256))) 1) s

/-- SLUICE_TICK: at a tick edge the sluice refills the accounts, once, and grants in grant order. -/
def execSluiceTick (s : State) : Host.Outcome State Fault Refusal :=
  .next <|
    let ps := List.range s.profile.parts.length
    let first : Bool := s.slu.refill != some s.now
    let s := if first then
        { ps.foldl (fun s p => s.setAc p (s.ac p).refill) s with slu := { s.slu with refill := some s.now } } else s
    let s := ps.foldl (fun s p => s.grantPass p) s.windowStart
    if first then s.countStretch else s

/-! ## The voltage loop (R552 to R559) -/

/-- R553: a fast plan is loaded. -/
def State.fastLoaded (s : State) : Bool := s.plans.any fun e => e.2.live && e.2.fast

/-- R553: the voltage floor. -/
def State.vFloor (s : State) : Nat := if s.fastLoaded then max s.profile.vmin 800 else s.profile.vmin

/-- The current target and the last reported output, mV. -/
def State.vTarget (s : State) : Nat := s.getF Reg.SLU_AVS_STS 16 12
/-- The last reported output. -/
def State.vOut (s : State) : Nat := s.getF Reg.SLU_AVS_STS 0 12

/-- Step in mV (R567). -/
def State.avsStep (s : State) : Nat := min 25 (max 1 (s.getF Reg.SLU_AVS_CTL 8 8))

/-- Send a voltage write for a new target (R555 to R558). -/
def State.sendVoltage (s : State) (mv : Nat) : State :=
  let s := s.setF Reg.SLU_AVS_STS 16 12 mv
  let s := (s.setB Reg.SLU_AVS_STS 31 true).setB Reg.SLU_AVS_STS 29 false
  { s with slu := { s.slu with busy := some s.now, retried := false, vForce := max s.slu.vForce mv } }.recalc.emit (.avsWrite mv)

/-- A raise to a target, or its denial (R555, R556). -/
def State.raiseVoltage (s : State) (mv : Nat) : State :=
  let c := s.chipCap 1
  if c != 0 && capCore c mv < 768 + 256 then
    ((s.setB Reg.SLU_AVS_STS 29 true).incSatF Reg.SLU_AVS_CNT 16 8 1).raise 7 0 Ev.SLUICE_AVS_DENIED none 255 255
  else (s.incSatF Reg.SLU_AVS_CNT 0 8 1).sendVoltage mv

/-- R554: the decision at a window's end on the least slack `sl` (32767: none measured). -/
def State.avsDecide (s : State) (sl : Int) : State :=
  let v := s.vTarget
  let fl := s.vFloor
  let lo : Int := s.getF Reg.SLU_AVS_CTL 16 8
  let hi : Int := max ((s.getF Reg.SLU_AVS_CTL 24 8 : Nat) : Int) (lo + 1)
  let on := s.getB Reg.SLU_AVS_CTL 0 && !s.getB Reg.SLU_AVS_STS 30
  let none' := sl = 32767
  let run := if !none' && hi ≤ sl then s.slu.ample + 1 else 0
  let s := { s with slu := { s.slu with ample := run } }
  if s.getB Reg.SLU_AVS_STS 30 then s
  else if v < fl then (if on || s.fastLoaded then s.raiseVoltage fl else s)
  else if !on || none' then s
  else if sl < lo then
    let n := min s.profile.vmax (max fl (v + s.avsStep))
    if v < n then s.raiseVoltage n else s
  else if 2 ^ s.getF Reg.SLU_AVS_CTL 1 3 ≤ run then
    let n := min s.profile.vmax (max fl (v - s.avsStep))
    if n < v then ({ s with slu := { s.slu with ample := 0 } }.incSatF Reg.SLU_AVS_CNT 8 8 1).sendVoltage n else s
  else s

/-- AVS_WINDOW_END (R554). -/
def execAvsWindowEnd (s : State) : Host.Outcome State Fault Refusal :=
  .next <|
    if s.now % 2 ^ (10 + s.getF Reg.SLU_AVS_CTL 4 4) != 0 then s
    else
      let sl := s.slu.avsMin
      let s := s.setF Reg.SLU_SLK_AVS 0 16 (twos 16 (clampI (-32768) 32767 sl))
      let s := { s with slu := { s.slu with avsMin := 32767 } }
      -- R552, R1019 step 11: the loop is enabled once the profile is applied.
      if s.slu.busy.isSome || s.getF Reg.BOOT_STS 0 4 < 6 then s else s.avsDecide sl

/-- The voltage settles: the higher of output and target is in force (R540, R557). -/
def State.settle (s : State) : State :=
  ({ s with slu := { s.slu with busy := none, retried := false, vForce := max s.vOut s.vTarget } }.setB Reg.SLU_AVS_STS 31 false).recalc

/-- AVS_READBACK (R557, R558): the regulator reports its output. -/
def execAvsReadback (mv : Fin 4096) (s : State) : Host.Outcome State Fault Refusal :=
  .next <|
    if s.slu.busy.isNone then s
    else
      let s := s.setF Reg.SLU_AVS_STS 0 12 mv
      let t := s.vTarget
      if mv.val ≤ t + 5 && t ≤ mv.val + 5 then s.settle
      else if s.slu.vForce < mv.val then { s with slu := { s.slu with vForce := mv.val } }.recalc else s

/-- SLUICE_AVS_FAULT (R558): the output has not reached the target within 100 µs: one repeat, then the loop stops. -/
def execSluiceAvsFault (s : State) : Host.Outcome State Fault Refusal :=
  .next <|
    match s.slu.busy with
    | none => s
    | some t =>
      if s.now < t + 12500 then s
      else if !s.slu.retried then { s with slu := { s.slu with busy := some s.now, retried := true } }.emit (.avsWrite s.vTarget)
      else
        let s := s.setF Reg.SLU_AVS_STS 16 12 s.vOut
        let s := { s with slu := { s.slu with ample := 0 } }.settle
        let s := (s.setB Reg.SLU_AVS_STS 30 true).incSatF Reg.SLU_AVS_CNT 24 8 1
        s.raise 7 0 Ev.SLUICE_AVS_FAULT none 255 255

/-- A write of AVS_CTL (R558, R559). -/
def State.writeAvsCtl (s : State) (v : Word) : State :=
  let on := s.getB Reg.SLU_AVS_CTL 0
  let s := s.plainWrite Reg.SLU_AVS_CTL v
  if !on && s.getB Reg.SLU_AVS_CTL 0 then
    { s with slu := { s.slu with ample := 0 } }.setB Reg.SLU_AVS_STS 30 false else s

/-- AVS_CTL_WRITE (R559). -/
def execAvsCtlWrite (rq : Requester) (v : Word) (s : State) : Host.Outcome State Fault Refusal :=
  .next (s.orHeld rq false Reg.SLU_AVS_CTL v {} fun s =>
    if s.dpWriter rq then s.writeAvsCtl v else s)

end Sys2Proof.Machine
end

