-- ==== Sys2Proof/Machine/Loader.lean ====
section
/-!
DEFINITION. The plan loader's checks 3 to 10 (R355, R361 to R364, R410, R453, R560 to R563, R626, R627, R679, R862). A check reports the
first failing item in order of plan island, then of descriptor (log entry 24).
-/
namespace Sys2Proof.Machine

/-- A failed check: the fields of the loader report (R365), and SUB. -/
structure LdrErr where
  err : Nat
  sub : Nat := 0
  isl : Nat := 0xFF
  lvl : Nat := 0xFF
  desc : Nat := 0xFFFF
  detail : Nat := 0
  deriving DecidableEq, Repr

/-- The 16 bytes of a report. -/
def ldrReport (e : Option LdrErr) (plan : Nat) : List Byte :=
  match e with
  | none => [0, 0, 0xFF, 0xFF, 0xFF, 0xFF, 0, 0, 0, 0, 0, 0] ++ leBytes plan 4
  | some e =>
    [BitVec.ofNat 8 e.err, BitVec.ofNat 8 e.sub, BitVec.ofNat 8 e.isl, BitVec.ofNat 8 e.lvl] ++ leBytes e.desc 2 ++ [0, 0]
      ++ leBytes e.detail 4 ++ leBytes 0 4

/-- The first value that a function finds in a list. -/
def firstOf {α : Type} (f : α → Option LdrErr) (l : List α) : Option LdrErr := l.foldl (fun b x => b.or (f x)) none

/-- An error when a condition holds. -/
def errIf (c : Bool) (e : LdrErr) : Option LdrErr := if c then some e else none

/-- The descriptors of a plan on an island with their indices. -/
def State.idescs (s : State) (p : Plan) (isl : Nat) : List (Nat × Desc) :=
  let ds := s.descs p isl
  (List.range ds.length).map fun i => (i, ds.getD i (parseDesc []))

/-- Number of descriptors, rill entries, assignment entries of an island. -/
def State.rootCnt (s : State) (p : Plan) (isl off : Nat) : Nat := leAt (s.rootLine p isl) off 2

/-- Every byte of a range is 0. -/
def zeros (b : List Byte) (i n : Nat) : Bool := ((b.drop i).take n).all (· = 0)

/-- Every emission of a plan's step with its grid island. -/
def State.allEms (s : State) (p : Plan) : List (Nat × Em) :=
  (s.planIslands p).flatMap fun isl => (s.emissions p isl).map fun e => (isl, e)

/-- The ticket of an emission of a plan that is not loaded yet. -/
def State.tkOf (s : State) (p : Plan) (isl : Nat) (e : Em) : Ticket :=
  let base : Ticket :=
    { dln := e.dln, uclass := e.uclass, action := e.action, ctx := p.ctx, desc := e.desc, inA := e.inA, outA := e.outA, auxA := e.auxA
      wti := e.wti, kx := e.kx, phase := e.phase, iter := e.iter }
  if 1024 ≤ e.desc then { base with rop := p.cmds.getD (e.desc - 1024) [] }
  else
    let d := parseDesc (s.descBytes p isl e.desc)
    let t := { base with extent := d.extent, fmt := d.fmt, spill := d.spill, slot := d.slot, mvmMode := d.mode }
    if e.uclass = 0 then { t with uindex := s.entryTile p isl e.wti }
    else if e.uclass = 2 then { t with dest := s.gridIsl p (e.wti % 64) }
    else { t with rop := s.ropBytes p isl d.rop }

/-! ## Check 3 (R362) -/

/-- SUB 2 of a descriptor: reserved bits (R343, R446, R387). -/
def descReserved (b : List Byte) (d : Desc) : Bool :=
  leAt b 1 1 / 16 != 0 || leAt b 2 1 / 32 != 0 || leAt b 4 2 / 2048 != 0 || leAt b 6 2 / 1024 != 0 || leAt b 14 2 / 4096 != 0
    || d.levels.any (·.raw15) || leAt b 112 3 / 2 ^ 18 != 0 || leAt b 122 2 != 0
    || (d.op = 0x40 && (d.wtiBase != 0 || d.levels.any fun l => l.tileS != 0))

/-- SUB 2 of a rill entry (R356, R387, R431, R440). -/
def ropReserved (b : List Byte) : Bool :=
  let c := leAt b 0 1
  leAt b 1 1 / 16 != 0 || leAt b 7 1 != 0 || leAt b 10 2 / 2048 != 0
    || (c = 0x09 && (leAt b 1 1 / 4 != 0 || leAt b 1 1 % 2 != 0 || leAt b 2 1 / 4 != 0 || !zeros b 7 5))
    || (c = 0x0A && (leAt b 1 1 != 0 || !zeros b 4 2 || !zeros b 8 4))
    || (c = 0x0C && (!zeros b 1 7 || !zeros b 10 2))

/-- SUB 2 of a parameter block (R388). -/
def dynReserved (b : List Byte) : Bool :=
  leAt b 0 1 / 2 != 0 || leAt b 1 1 / 8 != 0 || leAt b 2 1 / 4 != 0 || leAt b 3 1 != 0 || leAt b 4 2 / 2048 != 0 || leAt b 6 2 / 2048 != 0
    || leAt b 8 2 / 8192 != 0 || leAt b 10 2 / 128 != 0 || !zeros b 22 2 || !zeros b 36 24

/-- SUB 2 of a ferry command (R613). -/
def cmdReserved (c : List Byte) : Bool :=
  let w := leAt c 0 1 = 1
  leAt c 1 1 / 8 != 0 || leAt c 2 1 / 16 != 0 || !zeros c 56 4 || (!w && leAt c 20 4 != 0)
    || (List.range 8).any fun i =>
      let m := leAt c (24 + 4 * i) 4
      i < leAt c 2 1 % 16 && (m / 2 ^ 22 != 0 || (w && m / 2 ^ 18 != 0))

/-- A ROPC of the table of rill operations or of a later chapter. -/
def ropcKnown (c : Nat) : Bool := 1 ≤ c && c ≤ 0x0D

/-- SUB 6: times below an operation's (R362, R410, R453). -/
def State.timesShort (s : State) (p : Plan) (isl : Nat) (d : Desc) : Bool :=
  let least := if d.mode = 1 then 11 else 8
  if d.op = 0x10 then d.dln < least || d.slot < d.dln
  else if d.op = 0x20 then d.dln < ropTicks (leAt (s.ropBytes p isl d.rop) 0 1)
  else if d.op = 0x50 then d.slot < 5 || d.dln < 5
  else if d.op = 0x40 then
    let q := parseDyn (s.readLines isl p.ctx (leAt (s.ropBytes p isl d.rop) 8 2) 1).bytes
    d.slot < least || d.dln < q.place d.slot q.tref || 62464 < d.dln
  else false

/-- Time for which an action of a plan holds a tile: (tile, from, to, wti, kind): 1 MVM, 2 ROWIO read, 3 ROWIO write, 4 ferry run. -/
def State.tileUses (s : State) (p : Plan) (isl : Nat) : List (Nat × Nat × Nat × Nat × Nat) :=
  let ds := s.descs p isl
  (ds.flatMap fun d => (List.range d.iters).flatMap fun n => (d.emit 0 n).filterMap fun e =>
    if e.uclass != 0 then none
    else
      let tile := s.entryTile p isl e.wti
      if d.op = 0x10 then some (tile, e.t, e.t + d.slot + (if d.mode = 2 then 0 else 5 * d.spill), e.wti, 1)
      else some (tile, e.t, e.t + d.slot, e.wti, if e.action = 5 then 2 else 3))
  ++ p.cmds.flatMap fun c =>
    if leAt c 0 1 = 1 && !cmdOnce c then
      ((cmdMembers c).filter fun m => s.gridIsl p m.1 = isl).map fun m =>
        (s.entryTile p isl (m.2 % 4096), leAt c 4 4, leAt c 4 4 + leAt c 8 4, m.2 % 4096, 4)
    else []

/-- SUB 8: two actions overlap on a tile, two rill tickets share a launch tick, more than four runs are live on a port, or an MVM falls
within an update of its tile. -/
def State.overlapping (s : State) (p : Plan) (isl : Nat) : Bool :=
  let u := s.tileUses p isl
  let n := u.length
  let g (i : Nat) := u.getD i (0, 0, 0, 0, 0)
  let r := ((s.emissions p isl).filter fun e => e.uclass = 1).map (·.t)
  let runs := (p.cmds.filter fun c => leAt c 0 1 = 1 && !cmdOnce c && (cmdMembers c).any fun m => s.gridIsl p m.1 = isl).map
    fun c => (leAt c 4 4, leAt c 4 4 + leAt c 8 4)
  ((List.range n).any fun i => (List.range i).any fun j =>
    (g i).1 = (g j).1 && (g i).2.1 < (g j).2.2.1 && (g j).2.1 < (g i).2.2.1)
  || ((List.range r.length).any fun i => (List.range i).any fun j => r.getD i 0 = r.getD j 0)
  || (runs.any fun x => 4 < (runs.filter fun y => y.1 ≤ x.1 && x.1 < y.2).length)
  || (u.any fun m => m.2.2.2.2 = 1 && (u.any fun a => a.1 = m.1 && a.2.2.2.2 = 2 && a.2.1 < m.2.1)
        && (u.any fun b => b.1 = m.1 && b.2.2.2.2 = 3 && m.2.1 < b.2.1))

/-- The descriptors' part of check 3 on an island. -/
def State.check3Desc (s : State) (p : Plan) (isl : Nat) (x : Nat × Desc) : Option LdrErr :=
  let b := s.descBytes p isl x.1
  let d := x.2
  let e (sub : Nat) : LdrErr := { err := 3, sub := sub, isl := isl, desc := x.1, detail := sub }
  let usesRop := d.op = 0x10 || d.op = 0x20 || d.op = 0x40
  let blk := (s.readLines isl p.ctx (leAt (s.ropBytes p isl d.rop) 8 2) 1).bytes
  let last := (List.range d.iters).foldl (fun a n => max a (d.endOf x.1 n)) 0
  (errIf (!crcOk b || (d.op = 0x40 && !crcOk blk)) (e 1))
  |>.or (errIf (descReserved b d || (d.op = 0x40 && dynReserved blk)) (e 2))
  |>.or (errIf (!([0x10, 0x20, 0x30, 0x40, 0x50].contains d.op) || (usesRop && s.rootCnt p isl 6 ≤ d.rop)) (e 3))
  |>.or (errIf ((List.range 6).any fun i => !d.order.contains i) (e 4))
  |>.or (errIf ((d.levels.any fun l => l.bound = 0) || 2 ^ 24 < d.iters) (e 5))
  |>.or (errIf (s.timesShort p isl d) (e 6))
  |>.or (errIf ((d.op = 0x10 && (16 < d.spill || (d.mode = 2 && d.spill != 0))) || (d.op = 0x40 && (d.spill != 0 || d.mode = 2))) (e 7))
  |>.or (errIf (d.op = 0x30 && p.w * p.h ≤ d.wtiBase % 64) (e 9))
  |>.or (errIf (p.stepTicks ≤ last) (e 10))

/-- Check 3 on an island: root line, rill entries, descriptors, overlaps. -/
def State.check3Isl (s : State) (p : Plan) (isl : Nat) : Option LdrErr :=
  let root := s.rootLine p isl
  let e (sub : Nat) : LdrErr := { err := 3, sub := sub, isl := isl, detail := sub }
  if (Store.get (fun _ => 0) p.regionLine isl = 0) && zeros root 0 64 then none
  else
    (errIf (!crcOk root) (e 1))
    |>.or (errIf (!zeros root 16 44) (e 2))
    |>.or (errIf (1024 < s.rootCnt p isl 2 || 1024 < s.rootCnt p isl 6 || 4096 < s.rootCnt p isl 10) (e 11))
    |>.or (firstOf (fun i =>
        let b := s.ropBytes p isl i
        let c := leAt b 0 1
        (errIf (!crcOk b) (e 1)).or ((errIf (ropReserved b) (e 2)).or ((errIf (!ropcKnown c) (e 3)).or
          (errIf ((c = 0x03 && 16 < leAt b 6 1) || (c = 0x04 && 2 < leAt b 6 1)) (e 12))))) (List.range (s.rootCnt p isl 6)))
    |>.or (errIf ((List.range (s.rootCnt p isl 10)).any fun i => nfld (s.wtiWord p isl i) 4 11 != 0) (e 2))
    |>.or (firstOf (s.check3Desc p isl) (s.idescs p isl))
    |>.or (errIf (s.overlapping p isl) (e 8))

/-- Check 3 of one ferry command (R626). -/
def check3Cmd (p : Plan) (c : List Byte) : Option LdrErr :=
  let e (sub : Nat) : LdrErr := { err := 3, sub := sub, detail := sub }
  let o := leAt c 0 1
  let n := leAt c 2 1 % 16
  (errIf (!crcOk c) (e 1))
  |>.or (errIf (cmdReserved c) (e 2))
  |>.or (errIf (o = 0 || 3 < o || n = 0 || 8 < n || (o != 1 && 1 < n)) (e 3))
  |>.or (errIf (o = 1 && leAt c 8 4 < 5152) (e 6))
  |>.or (errIf (!cmdOnce c && p.stepTicks ≤ leAt c 4 4 + leAt c 8 4) (e 10))

/-- SUB 1 and 2 of the plan header (R598). -/
def check3Hdr (p : Plan) : Option LdrErr :=
  let h := p.hdr
  (errIf (!crcOk h) { err := 3, sub := 1, detail := 1 }).or
    (errIf (leAt h 2 1 / 2 != 0 || leAt h 3 1 / 16 != 0 || leAt h 30 1 / 8 != 0 || leAt h 31 1 / 2 != 0 || !zeros h 36 88)
      { err := 3, sub := 2, detail := 2 })

/-- Check 3. -/
def State.check3 (s : State) (p : Plan) : Option LdrErr :=
  (check3Hdr p).or ((firstOf (s.check3Isl p) (s.planIslands p)).or
    ((firstOf (check3Cmd p) p.cmds).or (errIf (65536 < p.cmds.length || p.cmds.length != p.f 32 4) { err := 3, sub := 11, detail := 11 })))

/-! ## Checks 4 to 8 -/

/-- Check 4 (R361, R410, R453). -/
def State.check4 (s : State) (p : Plan) : Option LdrErr :=
  (firstOf (fun isl => firstOf (fun x =>
      let bad := (List.range 6).find? fun i => let l := x.2.lvl i
        0 < l.bound && (l.inS % 64 != 0 || l.outS % 64 != 0 || (l.auxS % 64 != 0 && x.2.op != 0x50)) && x.2.op != 0x20
      let q := parseDyn (s.readLines isl p.ctx (leAt (s.ropBytes p isl x.2.rop) 8 2) 1).bytes
      (bad.bind fun i => some { err := 4, isl := isl, lvl := i, desc := x.1, detail := i }).or
        (errIf (x.2.op = 0x40 && (q.bg % 64 != 0 || q.ag % 64 != 0 || q.og % 64 != 0)) { err := 4, isl := isl, desc := x.1 }))
    (s.idescs p isl)) (s.planIslands p)).or
  (firstOf (fun i => errIf (leAt (p.cmds.getD i []) 0 1 != 1 && leAt (p.cmds.getD i []) 16 4 % 4096 != 0) { err := 4, detail := i })
    (List.range p.cmds.length))

/-- A row a ticket reads or writes: address, format, length. -/
abbrev RowUse := Nat × Nat × Nat

/-- Rows that a ticket reads with the format and length it expects (R260, R389, R429, R430). -/
def State.rowReads (s : State) (isl : Nat) (t : Ticket) : List RowUse :=
  let n := t.rlen
  match t.action with
  | 0x01 => [(t.inA, t.fmt, t.extent)]
  | 0x02 => [(t.inA, t.fmt, t.extent)]
  | 0x03 => if t.phase = 0 then [(t.inA, t.fmt, t.extent)] else []
  | 0x30 =>
    let d := s.dynP isl t
    ((List.range d.g).flatMap fun g => (List.range d.srcRows).map fun i => (d.src t g i, 3, d.srcLen))
      ++ (List.range d.g).flatMap fun g => (List.range d.m).map fun i => (d.drive t g i, t.fmt, d.kin)
  | 0x10 =>
    match t.ropc with
    | 0x01 => if t.kx != 0 then [(t.outA, 3, if t.mvmMode = 2 then 1024 else 512)]
      else if t.rflag 1 then [(t.auxA, 3, if t.mvmMode = 2 then 1024 else 512)] else []
    | 0x05 => [(t.inA, 3, n), (t.auxA, 3, n)]
    | 0x06 => [(t.inA, 3, n), (t.auxA, 3, n)]
    | 0x09 => []
    | 0x0A => []
    | 0x0B => []
    | _ => [(t.inA, 3, n)]
  | _ => []

/-- Rows that a ticket writes. -/
def State.rowWrites (s : State) (isl : Nat) (t : Ticket) : List RowUse :=
  let n := t.rlen
  match t.action with
  | 0x30 =>
    let d := s.dynP isl t
    (List.range d.g).flatMap fun g => (List.range d.m).map fun i => (d.outRow t g i, 3, d.n)
  | 0x10 =>
    match t.ropc with
    | 0x01 => if t.rflag 0 then [] else [(t.outA, 3, if t.mvmMode = 2 then 1024 else 512)]
    | 0x02 => [(t.outA, if t.rflag 2 then 1 else 0, n)]
    | 0x09 => []
    | 0x0A => []
    | 0x0B => []
    | 0x0D => [(t.outA, 0, n)]
    | _ => [(t.outA, 3, n)]
  | _ => []

/-- Insertion by launch offset. -/
def insertEm (x : Em) : List Em → List Em
  | [] => [x]
  | y :: ys => if keyLt x.key y.key then x :: y :: ys else y :: insertEm x ys

/-- The rows at fault on an island: a reader whose last producer wrote another format or length; a header row whose reader or writer
disagrees with the header (R598). -/
def State.badRow (s : State) (p : Plan) (isl : Nat) : Option Nat :=
  let ems := (s.emissions p isl).foldl (fun l e => insertEm e l) []
  let inRow (a : Nat) : Bool := s.gridIsl p (p.f 16 1) = isl
    && (List.range (p.f 20 2)).any fun i => a = 64 * (p.f 18 2 + i * p.f 22 2)
  let outRow (a : Nat) : Bool := s.gridIsl p (p.f 17 1) = isl
    && (List.range (p.f 26 2)).any fun i => a = 64 * (p.f 24 2 + i * p.f 28 2)
  (ems.foldl (fun (b : Option Nat × List RowUse) e =>
    let t := s.tkOf p isl e
    let bad := (s.rowReads isl t).find? fun r =>
      match b.2.find? fun w => w.1 = r.1 with
      | some w => w != r
      | none => inRow r.1 && (r.2.1 != p.f 30 1 % 8 || p.f 22 2 < rowLines r.2.1 r.2.2 + 1)
    let badW := (s.rowWrites isl t).find? fun w => outRow w.1 && p.f 28 2 < rowLines w.2.1 w.2.2 + 1
    (b.1.or ((bad.or badW).bind fun r => some r.1), s.rowWrites isl t ++ b.2)) (none, [])).1

/-- Section entry `i` of a manifest. -/
def sectOf (m : List Byte) (i : Nat) : List Byte := (m.drop (192 + 128 * i)).take 128
/-- SECT_CNT. -/
def sectCnt (m : List Byte) : Nat := leAt m 6 2

/-- A block or unit names a slot of a TYPE 4 or 5 section. -/
def namesSlot (m : List Byte) (cist : Bool) (src : Nat) : Bool :=
  (List.range (sectCnt m)).any fun i =>
    let e := sectOf m i
    leAt e 0 1 = (if cist then 5 else 4) && leAt e 4 4 ≤ src && (src - leAt e 4 4) % 97 = 0 && (src - leAt e 4 4) / 97 * 393344 < leAt e 16 4

/-- A block of a TYPE 3 section. -/
def namesData (m : List Byte) (blk : Nat) : Bool :=
  (List.range (sectCnt m)).any fun i =>
    let e := sectOf m i
    leAt e 0 1 = 3 && leAt e 4 4 ≤ blk && (blk - leAt e 4 4) * 4096 < leAt e 16 4

/-- The shape triggers of a ferry command (R626). -/
def State.cmdShape (s : State) (p : Plan) (c : List Byte) : Bool :=
  let o := leAt c 0 1
  let src := leAt c 12 4
  let layer := leAt c 3 1
  (o = 1 && (leAt p.manifest 20 4 ≤ leAt c 20 4 || !namesSlot p.manifest (leAt c 1 1 / 4 % 2 = 1) src
      || (leAt c 1 1 / 2 % 2 = 1 && !namesData p.manifest (leAt c 16 4))))
    || (o != 1 && (List.range (leAt c 16 4 / 4096)).any fun i => (s.winBlock p.ctx (src + i)).isNone)
    || (cmdOnce c && (layer = 0 || p.layers < layer)) || (!cmdOnce c && layer != 0)

/-- The tiles that the ONCE commands of a layer of a plan name. -/
def State.layerTiles (s : State) (p : Plan) (layer : Nat) : List Nat :=
  p.cmds.flatMap fun c =>
    if leAt c 0 1 = 1 && cmdOnce c && leAt c 3 1 = layer then
      (cmdMembers c).map fun m => let isl := s.gridIsl p m.1; isl * 16 + s.entryTile p isl (m.2 % 4096)
    else []

/-- R627: a replacement names the same tiles, layer by layer. -/
def State.sameLayers (s : State) (a b : Plan) : Bool :=
  a.layers = b.layers && (List.range 256).all fun k =>
    ((s.layerTiles a k).all fun t => (s.layerTiles b k).contains t) && (s.layerTiles b k).all fun t => (s.layerTiles a k).contains t

/-- R862: the bands of a replica plan are alike and keep to themselves. -/
def State.replicaOk (s : State) (p : Plan) (cnt : Nat) : Bool :=
  let band := p.h / cnt
  (List.range (p.w * p.h)).all fun i =>
    let j := i % (p.w * band)
    let a := s.gridIsl p i
    let b := s.gridIsl p j
    let n := s.rootCnt p a 2
    s.rootLine p a = s.rootLine p b
      && (List.range n).all (fun k => s.descBytes p a k = s.descBytes p b k
          || ((s.descs p a).getD k (parseDesc [])).op = 0x30)
      && (List.range (s.rootCnt p a 6)).all (fun k => s.ropBytes p a k = s.ropBytes p b k)
      && (List.range (s.rootCnt p a 10)).all (fun k => s.wtiWord p a k = s.wtiWord p b k)
      && (s.descs p a).all fun d => d.op != 0x30 || d.wtiBase % 64 / (p.w * band) = i / (p.w * band)

/-- Check 5. -/
def State.check5 (s : State) (p : Plan) : Option LdrErr :=
  let cfg := s.rplCfg p
  let cnt := fld cfg 1 2
  (firstOf (fun isl => (firstOf (fun x =>
      let d := x.2
      let q := parseDyn (s.readLines isl p.ctx (leAt (s.ropBytes p isl d.rop) 8 2) 1).bytes
      let rb := s.ropBytes p isl d.rop
      let c := leAt rb 0 1
      errIf ((d.op = 0x10 && (d.extent = 0 || 1024 < d.extent || (d.mode = 2 && 512 < d.extent) || (d.fmt != 2 && d.zp != 0)))
          || (d.op = 0x40 && (q.kin != d.extent || q.kin = 0 || 1024 < q.kin || q.n = 0 || 1024 < q.n || q.m = 0 || 4096 < q.m || q.g = 0
              || 64 < q.g))
          || (d.op = 0x20 && c = 0x09 && ((leAt rb 2 1 % 4 != 0 && leAt rb 2 1 % 4 != 2) || leAt rb 6 1 = 0 || 12 < leAt rb 6 1))
          || (d.op = 0x20 && c = 0x0D && leAt rb 10 2 % 2048 != 512))
        { err := 5, isl := isl, desc := x.1, detail := 64 * d.inL }) (s.idescs p isl)).or
      ((s.badRow p isl).bind fun a => some { err := 5, isl := isl, detail := a })) (s.planIslands p))
  |>.or (errIf (p.cmds.any (s.cmdShape p)) { err := 5 })
  |>.or (errIf (p.f 31 1 % 2 = 1 && (s.plans.any fun e => e.2.live && e.2.ctx = p.ctx && !s.sameLayers p e.2)) { err := 5 })
  |>.or (if bit cfg 0 then
      (errIf ((cnt != 2 && cnt != 3) || p.h % max 1 cnt != 0) { err := 5, detail := 0xFFFFFFFF }).or
        (errIf (!s.replicaOk p (max 1 cnt)) { err := 5 })
    else none)

/-- Check 6 (R355): the level slot at fault. -/
def Desc.badLevel (d : Desc) : Option Nat :=
  let depth (x : Nat) : Nat := (d.order.takeWhile (· != x)).length
  let outs := (List.range 6).filter fun i => (d.lvl i).outpos && 1 < (d.lvl i).bound
  let steps := (List.range 6).filter fun i => (d.lvl i).tileS != 0 && 1 < (d.lvl i).bound
  ((outs.find? fun i => steps.any fun j => depth i ≤ depth j).or
    ((List.range 6).find? fun i => (d.lvl i).outpos && (d.lvl i).tileS != 0)).or
    (if 1 < ((List.range 6).filter fun i => (d.lvl i).ksplit).length then
      ((List.range 6).filter fun i => (d.lvl i).ksplit).getLast? else none)

/-- Check 6. -/
def State.check6 (s : State) (p : Plan) : Option LdrErr :=
  firstOf (fun isl => firstOf (fun x =>
    if x.2.op = 0x10 then x.2.badLevel.bind fun i => some { err := 6, isl := isl, lvl := i, desc := x.1, detail := i } else none)
    (s.idescs p isl)) (s.planIslands p)

/-- A plan writes rows of a tile with ROWIO. -/
def State.adaptedTiles (s : State) (p : Plan) (isl : Nat) : List Nat :=
  ((s.tileUses p isl).filter fun u => u.2.2.2.2 = 3).map (·.1)

/-- A weight-tile index of an island that check 7 refuses (R361, R626, R423, R679). -/
def State.badTile (s : State) (p : Plan) (isl : Nat) : Option Nat :=
  let cnt := s.rootCnt p isl 10
  let u := s.tileUses p isl
  let runs (t w a b : Nat) : Bool := u.any fun x => x.1 = t && x.2.2.2.2 = 4 && x.2.2.2.1 = w && a ≤ x.2.1 && x.2.1 ≤ b
  let once (t : Nat) : Bool := p.cmds.any fun c => leAt c 0 1 = 1 && cmdOnce c
    && (cmdMembers c).any fun m => s.gridIsl p m.1 = isl && s.entryTile p isl (m.2 % 4096) = t
  let members := p.cmds.flatMap fun c =>
    if leAt c 0 1 = 1 then ((cmdMembers c).filter fun m => s.gridIsl p m.1 = isl).map fun m => m.2 % 4096 else []
  let used := u.map (·.2.2.2.1) ++ members
  let adapted := s.adaptedTiles p isl
  -- A wti beyond the table, an invalid entry, a tile that may not be named.
  (used.find? fun w => cnt ≤ w || nfld (s.wtiWord p isl w) 15 1 = 0).or
  ((((List.range cnt).filter fun w => nfld (s.wtiWord p isl w) 15 1 = 1).find? fun w =>
      let t := s.entryTile p isl w
      let gt := isl * 16 + t
      s.tileFenced gt || 16 - s.profile.dynCount ≤ t || (match s.owner gt with | some c => c != p.ctx | none => false)).or
  -- Two indices share a tile without a ferry write of the later one between their uses.
  ((u.find? fun x => x.2.2.2.2 != 4 && u.any fun y => y.2.2.2.2 != 4 && y.1 = x.1 && y.2.2.2.1 != x.2.2.2.1 && y.2.1 < x.2.1
      && !runs x.1 x.2.2.2.1 y.2.1 x.2.1).bind (fun x => some x.2.2.2.1) |>.or
  -- R679: a tile not owned at load that nothing of the plan writes first.
  ((u.find? fun x => (x.2.2.2.2 = 1 || x.2.2.2.2 = 2) && s.owner (isl * 16 + x.1) != some p.ctx && !once x.1
      && !(u.any fun y => y.1 = x.1 && (y.2.2.2.2 = 4 || y.2.2.2.2 = 3) && y.2.1 < x.2.1)).bind (fun x => some x.2.2.2.1) |>.or
  -- R423, R453: adapted tiles.
  ((u.find? fun x => adapted.contains x.1 && (x.2.2.2.2 = 4 || once x.1)).bind (fun x => some x.2.2.2.1) |>.or
  (if s.plans.any fun e => e.2.live && adapted.any fun t => (s.planTiles e.2).contains (isl * 16 + t) then some 0 else none)))))

/-- Two members of a command name one tile. -/
def State.sameMember (s : State) (p : Plan) (c : List Byte) : Bool :=
  let l := (cmdMembers c).map fun m => let isl := s.gridIsl p m.1; isl * 16 + s.entryTile p isl (m.2 % 4096)
  leAt c 0 1 = 1 && (List.range l.length).any fun i => (List.range i).any fun j => l.getD i 0 = l.getD j 0

/-- Check 7. -/
def State.check7 (s : State) (p : Plan) : Option LdrErr :=
  let d := (s.partDef p.part).getD {}
  (errIf (p.w = 0 || p.h = 0 || d.w < p.w || d.h < p.h) { err := 7 })
  |>.or (firstOf (fun isl =>
      ((s.badTile p isl).bind fun w => some { err := 7, isl := isl, detail := w }).or
        (firstOf (fun x =>
          let q := parseDyn (s.readLines isl p.ctx (leAt (s.ropBytes p isl x.2.rop) 8 2) 1).bytes
          errIf (x.2.op = 0x40 && s.profile.dynCount < q.tref) { err := 7, isl := isl, desc := x.1 }) (s.idescs p isl)))
      (s.planIslands p))
  |>.or (errIf (p.cmds.any (s.sameMember p)) { err := 7 })

/-- Pages that an island's part of a plan touches: every span of its tickets, its tables and FOOT (R361). -/
def State.pagesTouched (s : State) (p : Plan) (isl : Nat) : List Nat :=
  let spans := (s.allEms p).flatMap fun x =>
    let t := s.tkOf p x.1 x.2
    let k := x.1 * 256
    ((s.reads k t ++ s.writes k t ++ moveReads k t).filter fun sp => sp.1 = isl).map fun sp => (sp.2.1, sp.2.2)
  let root := Store.get (fun _ => 0) p.regionLine isl
  let dyn := (s.descs p isl).filterMap fun d =>
    if d.op = 0x40 then
      let q := parseDyn (s.readLines isl p.ctx (leAt (s.ropBytes p isl d.rop) 8 2) 1).bytes
      some (q.stage, q.stageCnt)
    else none
  let tabs := [(root, 1), (s.rootCnt p isl 0, 2 * s.rootCnt p isl 2), (s.rootCnt p isl 4, (s.rootCnt p isl 6 + 3) / 4),
    (s.rootCnt p isl 8, (s.rootCnt p isl 10 + 15) / 16)]
  let foot := leAt (s.rootLine p isl) 12 4
  ((spans ++ dyn ++ tabs).flatMap fun x => if x.2 = 0 then [] else tabulate ((x.1 + x.2 - 1) / 64 + 1 - x.1 / 64) fun i => x.1 / 64 + i)
    ++ (if foot = 0 then [] else [(foot - 1) / 4096])

/-- Check 8. -/
def State.check8 (s : State) (p : Plan) : Option LdrErr :=
  firstOf (fun isl =>
    if s.rootLine p isl = List.replicate 64 0 then none
    else
      let pages := s.pagesTouched p isl
      let have_ := (s.ctxPages isl p.ctx).length
      let taken := s.plans.flatMap fun e => if e.2.live && e.2.ctx = p.ctx then s.pagesTouched e.2 isl else []
      let short := (s.descs p isl).any fun d => d.op = 0x40 &&
        (let q := parseDyn (s.readLines isl p.ctx (leAt (s.ropBytes p isl d.rop) 8 2) 1).bytes
         q.col && 64 * q.stageCnt < q.tref * q.kin * 512)
      errIf (short || pages.any fun g => have_ ≤ g || taken.contains g)
        { err := 8, isl := isl, detail := pages.foldl (fun a g => max a (g + 1)) 0 }) (s.planIslands p)

/-! ## Checks 9 and 10 (R363, R364, R560 to R563) -/

/-- Live intervals of a step's tickets on an island as (first, last, entries). -/
def State.liveSpans (s : State) (p : Plan) (isl : Nat) : List (Nat × Nat × Nat) :=
  (s.emissions p isl).flatMap fun e =>
    let t := s.tkOf p isl e
    let n := if e.action = 0x30 then 17 else 1
    (e.t - 32, e.t + e.dln, n) :: if e.uclass = 0 && (e.action = 1 || e.action = 2) then
      tabulate t.spill fun i => (e.t + t.slot + 5 * i - 32, e.t + t.slot + 5 * (i + 1), 1) else []

/-- The worst count and the tick offset at which it first occurs. -/
def State.worstLive (s : State) (p : Plan) (isl : Nat) : Nat × Nat :=
  let l := s.liveSpans p isl
  l.foldl (fun b x =>
    let n := l.foldl (fun a y => if y.1 ≤ x.1 && x.1 ≤ y.2.1 then a + y.2.2 else a) 0
    if b.1 < n then (n, x.1) else b) (0, 0)

/-- Check 9: tickets leased on the island to loaded plans, with what fast bindings add (R751), plus the worst count. -/
def State.leasedOn (s : State) (isl : Nat) : Nat :=
  s.plans.foldl (fun a e => if e.2.live then a + Store.get (fun _ => 0) e.2.tickets isl + Store.get (fun _ => 0) e.2.armed isl else a) 0

/-- Check 9. -/
def State.check9 (s : State) (p : Plan) : Option LdrErr :=
  firstOf (fun isl =>
    let w := s.worstLive p isl
    errIf (256 < w.1 + s.leasedOn isl) { err := 9, isl := isl, detail := w.1 % 65536 + w.2 / 16 % 65536 * 65536 }) (s.planIslands p)

/-- Drops that an emission asks for: (offset, array, core) (R527, R364, R410). -/
def State.demand (s : State) (p : Plan) (isl : Nat) (e : Em) : List (Nat × Nat × Nat) :=
  let t := s.tkOf p isl e
  if e.action = 7 then
    if leAt t.rop 0 1 = 1 then
      let n := ((cmdMembers t.rop).filter fun m => s.gridIsl p m.1 = isl).length
      tabulate 1024 fun r => (e.t + 5 * r, n, 4)
    else []
  else if e.action = 0x30 then
    let d := s.dynP isl t
    let pc := if t.mvmMode = 1 then (52, 12) else (40, 8)
    (d.placeEvents t.slot d.tref).map fun x => if x.2 then (e.t + x.1, pc.1, pc.2) else (e.t + x.1, 1, 1)
  else
    let c : Nat × Nat := match e.action with
      | 0x01 => (40, 8) | 0x02 => (52, 12) | 0x03 => (40, 8) | 0x05 => (1, 1) | 0x06 => (1, 0)
      | 0x10 => (0, 6 * ropTicks t.ropc) | 0x20 => (0, (t.extent + 7) / 8) | _ => (0, 0)
    (e.t, c.1, c.2) :: if e.action = 1 || e.action = 2 then tabulate t.spill fun i => (e.t + t.slot + 5 * i, 1, 1) else []

/-- Insertion by offset, equal offsets merged. -/
def insertDemand (x : Nat × Nat) : List (Nat × Nat) → List (Nat × Nat)
  | [] => [x]
  | y :: ys => if x.1 < y.1 then x :: y :: ys else if x.1 = y.1 then (y.1, y.2 + x.2) :: ys else y :: insertDemand x ys

/-- The demand of a step on a rail in ascending offset. -/
def State.stepDemand (s : State) (p : Plan) (rail : Nat) : List (Nat × Nat) :=
  ((s.allEms p).flatMap fun x => s.demand p x.1 x.2).foldl (fun l d =>
    let v := if rail = 0 then d.2.1 else d.2.2
    if v = 0 then l else insertDemand (d.1, v) l) []

/-- Excess Σ d − C × length of the windows that begin at one entry of a cyclic list: the greatest. -/
def windowMax (c : Nat) (l : List (Nat × Nat)) (start : Nat) : Int :=
  (l.foldl (fun (b : Int × Int) x =>
    let sum := b.1 + (x.2 : Int)
    (sum, max b.2 (sum - (c : Int) * ((x.1 : Int) - start + 1)))) (0, 0)).2

/-- The windows of back-to-back steps: (offset at which a window begins, its greatest excess), in ascending offset. -/
def windows (c step : Nat) (l : List (Nat × Nat)) : List (Nat × Int) :=
  let twice := l ++ l.map fun x => (x.1 + step, x.2)
  (List.range l.length).map fun i =>
    let st := (l.getD i (0, 0)).1
    (st, windowMax c ((twice.drop i).take l.length) st)

/-- What a plan asks of a rail: total of a step, rate reservation, burst reservation (R561). -/
def State.reservation (s : State) (p : Plan) (rail c : Nat) : Nat × Nat × Nat :=
  let l := s.stepDemand p rail
  let tot := l.foldl (fun a x => a + x.2) 0
  (tot, (tot + p.stepTicks - 1) / max 1 p.stepTicks, ((windows c p.stepTicks l).foldl (fun (a : Int) (w : Nat × Int) => max a w.2) 0).toNat)

/-- C and B of a rail for a new plan of a partition (R560, R562). -/
def State.rateFor (s : State) (part rail : Nat) : Nat × Nat :=
  let a := s.ac part
  if rail = 0 then (a.rateA - a.rsvA, 45000000 * s.share part / 256 - a.burstA)
  else
    let r := s.effRate part 1 s.profile.vmax
    (r - a.rsvC, 64 * r - a.burstC)

/-- R553: a plan is fast. -/
def State.fastPlan (s : State) (p : Plan) : Bool :=
  (s.planIslands p).any fun isl => (s.descs p isl).any fun d => d.op = 0x10 && (if d.mode = 1 then d.dln < 13 else d.dln < 9)

/-- Check 10 on a rail. -/
def State.check10Rail (s : State) (p : Plan) (rail : Nat) : Option LdrErr :=
  let cb := s.rateFor p.part rail
  let l := s.stepDemand p rail
  let tot := l.foldl (fun a x => a + x.2) 0
  if cb.1 * p.stepTicks < tot then some { err := 10, detail := rail * 2 ^ 31 + 0x7FFFFFFE }
  else
    match (windows cb.1 p.stepTicks l).find? fun w => decide ((cb.2 : Int) < w.2) with
    | some w => some { err := 10, detail := rail * 2 ^ 31 + w.1 }
    | none => none

/-- Check 10. -/
def State.check10 (s : State) (p : Plan) : Option LdrErr :=
  (errIf (s.fastPlan p && s.profile.vmax < 800) { err := 10, detail := 0xFFFFFFFF }).or
    ((s.check10Rail p 0).or (s.check10Rail p 1))

/-- R361: checks 3 to 10 in order; the first that fails. -/
def State.loaderChecks (s : State) (p : Plan) : Option LdrErr :=
  (s.check3 p).or ((s.check4 p).or ((s.check5 p).or ((s.check6 p).or ((s.check7 p).or ((s.check8 p).or ((s.check9 p).or (s.check10 p)))))))

end Sys2Proof.Machine
end

