-- ==== Sys2Proof/Machine/Replica.lean ====
section
/-!
DEFINITION. Replica mode: its set-up, comparisons, disagreements and expulsion (R862 to R875).
-/
namespace Sys2Proof.Machine

/-- R875: the detection goal of a plan is too short for its step at the regime of its first tile. -/
def State.goalShort (s : State) (p : Plan) : Bool :=
  let cfg := s.rplCfg p
  let g := if fld cfg 8 8 = 0 then 256 else fld cfg 8 8
  bit cfg 0 && !bit cfg 3 && decide (g * p.stepTicks < 1025 * s.period (s.gridIsl p 0 * 16) + 24)

/-- R863, R865, R875: P2 copies RPL_CFG into the islands of a plan and sets their replica state. -/
def State.setReplicas (s : State) (p : Plan) : State :=
  let cfg := s.rplCfg p
  let g := if fld cfg 8 8 = 0 then 256 else fld cfg 8 8
  let nd := max 1 (g / 2)
  let short := s.goalShort p
  let band := p.w * (p.h / s.rcnt p)
  if !bit cfg 0 then s
  else (List.range (p.w * p.h)).foldl (fun s pi =>
    let isl := s.gridIsl p pi
    let s := s.setReg (Reg.ISL_RPL_CFG isl) cfg
    let s := s.setReg (Reg.ISL_RPL_STS isl) (BitVec.ofNat 32 (pi / max 1 band % 4 + 4 + b2n short * 16 + nd % 128 * 256))
    if short then s.raiseI 3 isl Ev.RPL_GOAL_SHORT none else s) s

/-- The replica plan that an island serves, with the replica. -/
def State.rplPlan (s : State) (isl : Nat) : Option (Nat × Nat) :=
  s.plans.findSome? fun e =>
    if e.2.live && 1 < s.rcnt e.2 then
      ((s.activeReps e.2).find? fun k => (s.repIslands e.2 k).contains isl).map fun k => (e.1, k)
    else none

/-- R875: at a change of regime the goals of the replica plans are evaluated again. -/
def State.goalsAgain (s : State) : State :=
  (s.plans.filter fun e => e.2.live && 1 < s.rcnt e.2).foldl (fun s e =>
    let short := s.goalShort e.2
    (s.planIslands e.2).foldl (fun s isl =>
      let was := s.getB (Reg.ISL_RPL_STS isl) 4
      let s := s.setB (Reg.ISL_RPL_STS isl) 4 short
      if short && !was then s.raiseI 3 isl Ev.RPL_GOAL_SHORT none else s) s) s

/-- TIL_RFSH_REGIME (R148, R149, R875): the first normal-grid slot tick strictly later than the decision. -/
def execTilRfshRegime (gt : Tile) (s : State) : Host.Outcome State Fault Refusal :=
  .next <|
    match (s.tx gt).regime with
    | none => s
    | some (h, w, t) =>
      if s.now ≤ t || s.now % 122 != s.getF (Reg.TIL_RFSH_CTL gt) 8 6 then s
      else
        let was := s.getB (Reg.TIL_RFSH_STS gt) 0
        let s := (s.updTx gt fun x => { x with regime := none }).setB (Reg.TIL_RFSH_STS gt) 0 h
        let s := s.clearLate gt
        if was = h then s
        else (s.raiseI 4 gt Ev.TIL_RFSH_REGIME (some [BitVec.ofNat 8 (b2n h), BitVec.ofNat 8 (b2n w)])).goalsAgain

/-! ## Expulsion (R870, R871) -/

/-- A step of the plan is in progress. -/
def State.inStep (s : State) (h : Nat) : Bool := s.jobs.any fun e => e.2.plan = h && e.2.st = 3

/-- RPL_STS.LAST of the islands of a replica. -/
def State.rplLast (s : State) (isls : List Nat) (v : Nat) : State := isls.foldl (fun s i => s.setF (Reg.ISL_RPL_STS i) 5 3 v) s

/-- R870: replica `k` of a plan is expelled: its islands are fenced at the end of the step in progress, or at once. -/
def State.expelRep (s : State) (h k : Nat) : State :=
  let isls := s.repIslands (s.plan h) k
  let s := isls.foldl (fun s i => (s.setB (Reg.ISL_RPL_STS i) 3 true).setB (Reg.ISL_RPL_STS i) 2 false) s
  let s := (s.rplLast isls 3).raiseC 3 (isls.headD 0) Ev.RPL_EXPEL none (s.plan h).ctx
  if s.inStep h then s else isls.foldl (fun s i => if (s.hd 3 i).fenceDp then s else s.fenceUnit i 16 0x12) s

/-- RPL_EXPEL (R871): an island of an active replica is fenced from some source. The step in progress fails under R494. -/
def execRplExpel (isl : Isl) (s : State) : Host.Outcome State Fault Refusal :=
  .next <|
    if !s.islFenced isl then s
    else match s.rplPlan isl with
      | none => s
      | some (h, k) => s.expelRep h k

/-! ## Comparisons (R866, R867, R869) -/

/-- One comparison of some values of active replicas: their class sizes tell what follows. `none`: all agree; `some (some k)`: replica `k`
of three is odd; `some none`: no majority. -/
def verdict {α : Type} [DecidableEq α] (v : List (Nat × α)) : Option (Option Nat) :=
  match v with
  | [] => none
  | x :: xs =>
    if xs.all fun y => y.2 = x.2 then none
    else if v.length = 3 then some ((v.find? fun y => (v.filter fun z => z.2 = y.2).length = 1 && (v.any fun a => (v.filter fun z => z.2 = a.2).length = 2)).map (·.1))
    else some none

/-- R869, R906: a disagreement is counted on the islands compared and attributed to `who`: the odd replica's, or all where none is odd. -/
def State.noteMismatch (s : State) (isls who : List Nat) (ctx : Nat) : State :=
  let s := isls.foldl (fun s i => s.incSat (Reg.ISL_RPL_MISS_CNT i) 1) s
  who.foldl (fun s i => s.trigTest i 2) (s.raiseC 3 (who.headD 0) Ev.RPL_MISMATCH none ctx)

/-- OUTPUT_COMPARE (R867, R869): the host interface compares the output digests of a job's step. -/
def execOutputCompare (j : Nat) (s : State) : Host.Outcome State Fault Refusal :=
  .next <|
    let jb := s.job j
    let p := s.plan jb.plan
    if jb.st != 4 || jb.failed || jb.compared || s.rcnt p = 1 || !bit (s.rplCfg p) 3 then s
    else
      let out (k : Nat) := s.repIsl p k (p.f 17 1)
      let reps := s.activeReps p
      let isls := reps.map out
      let v := reps.map fun k => (k, s.get64 (Reg.ISL_RPL_OUT_LO (out k)) (Reg.ISL_RPL_OUT_HI (out k)))
      let s := isls.foldl (fun s i => s.incSat (Reg.ISL_RPL_CMP_CNT i) 1) s
      let deliver (s : State) (k : Nat) : State := s.setJob j { s.job j with compared := true, outIsl := out k }
      match verdict v with
      | none => deliver (s.rplLast isls (if jb.rerun then 2 else 1)) (reps.headD 0)
      | some (some k) =>
        let s := (s.noteMismatch isls [out k] p.ctx).expelRep jb.plan k
        deliver (s.rplLast isls 3) ((reps.filter (· != k)).headD 0)
      | some none =>
        let s := (s.noteMismatch isls isls p.ctx).rplLast isls (if jb.rerun then 5 else 4)
        if jb.rerun then
          let s := reps.foldl (fun s k => (s.repIslands p k).foldl (fun s i => s.lagEnter i 16 4 0) s) s
          (s.setJob j { s.job j with compared := true }).endJob j 13
        else
          -- The step runs again with the same inputs, redelivered from their source.
          let again := jb.inMode = 1
          s.setJob j { jb with rerun := true, got := 0, st := if again then 2 else 1, inTick := s.now, rstat := 0 }

/-- The tiles of corresponding islands whose write or pass digests differ between active replicas. -/
def State.oddTiles (s : State) (isls : List Nat) : List Nat :=
  (List.range 16).flatMap fun t =>
    let d (i : Nat) :=
      (s.get64 (Reg.TIL_DIG_WRITE_LO (i * 16 + t)) (Reg.TIL_DIG_WRITE_HI (i * 16 + t)),
       s.get64 (Reg.TIL_DIG_LAST_LO (i * 16 + t)) (Reg.TIL_DIG_LAST_HI (i * 16 + t)))
    let l := isls.map d
    if l.all (· = l.headD (0, 0)) then [] else isls.map fun i => i * 16 + t

/-- R866: what is compared of an island: the write digest, and the pass digest where masks and pass ticks agree. -/
def State.captureOf (s : State) (isl : Nat) (pass : Bool) : Nat × Nat :=
  (s.get64 (Reg.ISL_RPL_DIGW_LO isl) (Reg.ISL_RPL_DIGW_HI isl),
   if pass then s.get64 (Reg.ISL_RPL_DIGL_LO isl) (Reg.ISL_RPL_DIGL_HI isl) else 0)

/-- One set of corresponding islands is compared: the state, and tiles that wait for a verify pass. -/
def State.compareSet (s : State) (h : Nat) (pi : Nat) : State × List Nat :=
  let p := s.plan h
  let reps := s.activeReps p
  let isls := reps.map fun k => s.repIsl p k pi
  let pth := isls.map fun i => (s.reg (Reg.ISL_RPL_MASK i), s.reg (Reg.ISL_RPL_PTH i))
  let v := reps.map fun k => (k, s.captureOf (s.repIsl p k pi) (pth.all (· = pth.headD (0, 0))))
  let s := isls.foldl (fun s i => s.incSat (Reg.ISL_RPL_CMP_CNT i) 1) s
  match verdict v with
  | none => (s.rplLast isls 1, [])
  | some (some k) => (((s.noteMismatch isls [s.repIsl p k pi] p.ctx).rplLast isls 3).expelRep h k, [])
  | some none => ((s.noteMismatch isls isls p.ctx).rplLast isls 4, s.oddTiles isls)

/-- R869: disagreeing tiles run their verify pass; tiles that still disagree after their reprogramming are fenced with reason REPLICA. -/
def State.checkTiles (s : State) (h : Nat) (odd : List Nat) : State :=
  let old := s.rplChecks.find? fun c => c.plan = h
  let s := { s with rplChecks := s.rplChecks.filter fun c => c.plan != h }
  let again := odd.filter fun gt => old.elim false fun c => c.second && c.tiles.contains gt
  let fresh := odd.filter fun gt => !again.contains gt
  let s := again.foldl (fun s gt => s.fenceUnit (gt / 16) (gt % 16) 0x12) s
  if fresh.isEmpty then s
  else
    let s := fresh.foldl (fun s gt => s.updTx gt fun x => { x with reStep := 3, reCause := 9, reRow := 0, reBad := false, reTick := s.now }) s
    { s with rplChecks := s.rplChecks ++ [{ plan := h, tiles := fresh, waiting := fresh }] }

/-- REPLICA_COMPARE (R866, R869): after a capture of plan `h`, P5 to P7 compare corresponding islands. -/
def execReplicaCompare (h : Nat) (s : State) : Host.Outcome State Fault Refusal :=
  .next <|
    let p := s.plan h
    if !p.live || !p.captured then s
    else
      let s := s.setPlan h { p with captured := false }
      let r := (List.range (p.w * (p.h / s.rcnt p))).foldl (fun (x : State × List Nat) pi =>
        let y := x.1.compareSet h pi
        (y.1, x.2 ++ y.2)) (s, [])
      r.1.checkTiles h r.2

/-- R869: the verify pass of a disagreeing tile has ended. A tile that fails is reprogrammed and enters the lagoon; if every one is clean,
every one is reprogrammed. -/
def State.rplVerified (s : State) (gt : Nat) (clean : Bool) : State :=
  let s := s.updTx gt fun x => { x with reStep := 0, reCause := 0 }
  let redo (s : State) (g : Nat) : State := s.updTx g fun x => { x with needReprog := if x.needReprog = 0 then 9 else x.needReprog }
  let s := if clean then s else (redo s gt).lagEnter (gt / 16) (gt % 16) 4 0
  match s.rplChecks.find? fun c => c.waiting.contains gt with
  | none => s
  | some c =>
    let c' : RplCheck := { c with waiting := c.waiting.filter (· != gt), failed := c.failed || !clean }
    let c' := if c'.waiting.isEmpty then { c' with second := true } else c'
    let s := { s with rplChecks := s.rplChecks.map fun (x : RplCheck) => if x.plan = c.plan then c' else x }
    if c'.waiting.isEmpty && !c'.failed then c'.tiles.foldl redo s else s

end Sys2Proof.Machine
end

