-- ==== Sys2Proof/Machine/Load.lean ====
section
/-!
DEFINITION. Submission entries that act on plans, and the import of a Larwi image (R361 to R378, R590, R594 to R604, R628, R634, R674 to
R677, R691, R733 to R741, R863, R865, R875).
-/
namespace Sys2Proof.Machine

/-! ## Entries -/

/-- Job `j` is an entry with an opcode that has not been acted on. -/
def State.entry (s : State) (j opc : Nat) : Bool := (s.job j).st = 1 && !(s.job j).taken && (s.job j).opc = opc

/-- The entry is acted on. -/
def State.takeEntry (s : State) (j : Nat) : State := s.setJob j { s.job j with taken := true }

/-- R735: PLAN is a loaded plan of the job's context. -/
def State.ownPlan (s : State) (j : Nat) : Bool := let p := s.plan (s.job j).plan; p.live && p.ctx = (s.job j).fn

/-- R767: a host-memory access fails: counted and raised for a context. -/
def State.dmaErr (s : State) (fn : Nat) : State := (s.incSat Reg.HIF_DMA_ERR_CNT 1).raiseC 10 0 Ev.HIF_DMA_ERR none fn

/-- NOP (R733). -/
def execNopJob (j : Nat) (s : State) : Host.Outcome State Fault Refusal :=
  .next (if s.entry j 6 then (s.takeEntry j).endJob j 0 else s)

/-! ## RUN (R735, R741, R743) -/

/-- The region of `n` bytes from a window block lies within a context's window (R741). -/
def State.inWindow (s : State) (c blk n : Nat) : Bool := n != 0 && n % 64 = 0 && blk * 4096 + n ≤ (s.cx c).winFrames * 512 * 4096

/-- R741: the lengths of an entry disagree with the plan. -/
def State.badShape (s : State) (jb : Job) (p : Plan) : Bool :=
  (jb.inMode = 0 && jb.inLen != p.inLines * 64) || (jb.outMode = 0 && jb.outLen != p.outLines * 64)
    || (jb.inMode = 2 && !s.inWindow jb.fn jb.arg jb.inLen) || (jb.outMode = 2 && !s.inWindow jb.fn jb.arg2 jb.outLen)
    || jb.inMode = 3 || jb.outMode = 3

/-- R629: while a replacement rewrites with its gate open, the context's jobs run on the new plan. -/
def State.currentPlan (s : State) (c h : Nat) : Nat :=
  match s.swaps.find? fun w => w.ctx = c && w.old = h && w.st = 2 with
  | some w => w.new
  | none => h

/-- RUN: the entry's plan and lengths are checked; without input its inputs are complete at once. -/
def execRunJob (j : Nat) (s : State) : Host.Outcome State Fault Refusal :=
  .next <|
    if !s.entry j 1 then s
    else
      let s := s.takeEntry j
      let jb := s.job j
      let s := s.setJob j { jb with plan := s.currentPlan jb.fn jb.plan }
      let jb := s.job j
      if !s.ownPlan j then s.endJob j 8
      else if s.badShape jb (s.plan jb.plan) then s.endJob j 7
      else if jb.inMode = 1 then s.setJob j { jb with st := 2, inTick := s.now }
      else s

/-! ## LOAD (R361, R602, R691) -/

/-- R368: the report of a load is logged. -/
def State.logLoad (s : State) (c : Nat) (rep : List Byte) : State :=
  s.raiseC 2 2 (if rep.headD 0 = 0 then Ev.LDR_ACCEPT else Ev.LDR_REJECT) (some (rep.take 6 ++ (rep.drop 8).take 4)) c

/-- The load of a job is refused with an error: report, log, completion LOADER. -/
def State.rejectLoad (s : State) (j : Nat) (e : LdrErr) : State :=
  let rep := ldrReport (some e) 0
  let s := s.setJob j { s.job j with payload := rep }
  (s.logLoad (s.job j).fn rep).endJob j 9

/-- The manifest is well formed (R598). -/
def manifestOk (m : List Byte) : Bool :=
  leAt m 0 4 = 0x4957524C && leAt m 4 2 = 1 && 1 ≤ sectCnt m && sectCnt m ≤ 512 && m.length = 192 + 128 * sectCnt m + 96

/-- R691: OWNER_KEY names a key of the context's owner that is registered and not revoked. -/
def State.keyOk (s : State) (c k : Nat) : Bool :=
  let r := Store.get (fun _ => ({} : KeyReg)) s.ownerKeys k
  k / 4 = (s.cx c).owner && r.used && !r.revoked

/-- LOAD: P2 reads the manifest (`dmaOk`: the reads succeed; `sigOk`: SIG verifies under the key that it names) and the ferry starts the
import. A manifest that is malformed does not verify. -/
def execLoadPlan (j : Nat) (manifest : List Byte) (sigOk dmaOk : Bool) (s : State) : Host.Outcome State Fault Refusal :=
  .next <|
    if !s.entry j 2 then s
    else
      let s := s.takeEntry j
      let c := (s.job j).fn
      if !dmaOk then (s.dmaErr c).endJob j 10
      else if !manifestOk manifest || !sigOk || !s.keyOk c (leAt manifest 18 2) then s.rejectLoad j { err := 1 }
      else if s.getF (Reg.CTX_STS c) 0 2 != 2 then s.rejectLoad j { err := 2, detail := c }
      else if 2 ≤ (s.plans.filter fun e => e.2.live && e.2.ctx = c).length then s.rejectLoad j { err := 5 }
      else
        let m : Import := { job := j, ctx := c, iova := (s.job j).inAddr, manifest := manifest }
        { s with imports := s.imports ++ [m] }

/-! ## Sections (R602 to R605, R674) -/

/-- R604: an import ends without a plan: its frames return to FREE. -/
def State.dropImport (s : State) (m : Import) : State :=
  let s := m.backed.foldl (fun s pos => s.unbackPos m.ctx pos) s
  { s with imports := s.imports.filter fun x => x.job != m.job }

/-- The import fails with a loader error. -/
def State.failImport (s : State) (m : Import) (e : LdrErr) : State := (s.dropImport m).rejectLoad m.job e

/-- The plan of an import, before it is accepted. -/
def State.planOf (s : State) (m : Import) : Plan :=
  let h := (m.manifest.drop 64).take 128
  let p : Plan :=
    { live := true, ctx := m.ctx, part := (s.cx m.ctx).part, imageId := leAt m.manifest 8 8, version := leAt m.manifest 16 2
      ownerKey := leAt m.manifest 18 2, iova := m.iova, manifest := m.manifest, hdr := h, cmds := m.cmds, backed := m.backed }
  -- R342: the root line of an island is the first line of its lowest TYPE 1 section.
  let tabs := (List.range (sectCnt m.manifest)).filterMap fun i =>
    let e := sectOf m.manifest i
    if leAt e 0 1 = 1 then some (s.gridIsl p (leAt e 3 1), leAt e 4 4 % 65536) else none
  { p with regionLine := (List.range 64).foldl (fun r isl =>
      match (tabs.filter fun t => t.1 = isl).map (·.2) with
      | [] => r
      | d :: ds => Store.put (fun _ => 0) r isl (ds.foldl min d)) [] }

/-- The window positions of a range of blocks. -/
def positions (blk bytes : Nat) : List Nat := (List.range ((blk * 4096 + bytes + 4096 * 512 - 1) / (4096 * 512) - blk / 512)).map (blk / 512 + ·)

/-- The lowest FREE frame. -/
def State.firstFreeFrame (s : State) : Option Nat := (List.range 73728).find? fun f => (s.frame f).ty = 0

/-- R674: back the positions of a section; `none` where one is backed with the other type, lies outside the window or finds no frame. -/
def State.backAll (s : State) (c ty : Nat) : List Nat → Option (State × List Nat)
  | [] => some (s, [])
  | pos :: rest =>
    let e := Store.get winNone (s.cx c).win pos
    if (s.cx c).winFrames ≤ pos then none
    else if e.backed then (if e.ty = ty then s.backAll c ty rest else none)
    else s.firstFreeFrame.bind fun f => ((s.backPos c pos f ty).backAll c ty rest).map fun r => (r.1, pos :: r.2)

/-- Write bytes from a window block on, block by block. -/
def State.putWindow (s : State) (c blk : Nat) (bs : List Byte) : State :=
  (List.range ((bs.length + 4095) / 4096)).foldl (fun s i =>
    match s.winBlock c (blk + i) with
    | none => s
    | some b => s.hbWrite b 0 ((bs.drop (4096 * i)).take 4096) false 65) s

/-- R594, R603: the checks of a shard's header against a manifest and an index. -/
def shardHdrOk (h m : List Byte) (idx : Nat) : Bool :=
  crcOk (h.take 64) && leAt h 0 4 = 0x51445348 && leAt h 4 2 = 1 && leAt h 36 4 = 393216 && leAt h 8 8 = leAt m 8 8
    && leAt h 20 2 = leAt m 16 2 && leAt h 16 4 = idx

/-- R601: SHARD_IDX of the first shard of section `i`: shards of sections before it, in order. -/
def firstShard (m : List Byte) (i : Nat) : Nat :=
  (List.range i).foldl (fun a k => let e := sectOf m k; if leAt e 0 1 = 4 || leAt e 0 1 = 5 then a + leAt e 16 4 / 393344 else a) 0

/-- R647: a slot of a section overlaps a slot of a loaded plan of the context. -/
def State.slotTaken (s : State) (c blk : Nat) : Bool :=
  s.plans.any fun e => e.2.live && e.2.ctx = c && (List.range (sectCnt e.2.manifest)).any fun i =>
    let x := sectOf e.2.manifest i
    let d := leAt x 4 4
    leAt x 0 1 = 4 && d < blk + 97 && blk < d + 97 * (leAt x 16 4 / 393344)

/-- Place one shard of a section, if its header is right and its slot is free. -/
def State.putShard (s : State) (m : Import) (e : List Byte) (i : Nat) (data : List Byte) (k : Nat) : Option State :=
  let sh := (data.drop (393344 * k)).take 393344
  let blk := leAt e 4 4 + 97 * k
  if !shardHdrOk sh m.manifest (firstShard m.manifest i + k) || s.slotTaken m.ctx blk then none
  else
    let s := s.putWindow m.ctx blk (padTo 397312 sh)
    some { s with badSlots := (s.winBlock m.ctx blk).elim s.badSlots fun b => s.badSlots.filter (· != b) }

/-- R602, R603, R608: a TYPE 4 section is written into its slots; `none` where a shard's header fails or a slot is taken. -/
def State.putShards (s : State) (m : Import) (e : List Byte) (i : Nat) (data : List Byte) : Option State :=
  (List.range (leAt e 16 4 / 393344)).foldl (fun (o : Option State) k => o.bind fun s => s.putShard m e i data k) (some s)

/-- The bytes of the window a section of TYPE 3 or 4 backs: a shard takes 97 blocks. -/
def sectBacked (e : List Byte) : Nat := if leAt e 0 1 = 3 then leAt e 16 4 else leAt e 16 4 / 393344 * 397312

/-- A section of TYPE 1: the lines of one position of the grid. -/
def State.placeLines (s : State) (m : Import) (e data : List Byte) : State :=
  if (s.planOf m).w * (s.planOf m).h ≤ leAt e 3 1 then s
  else
    let isl := s.gridIsl (s.planOf m) (leAt e 3 1)
    let (s, f) := s.writeBytes isl m.ctx (64 * leAt e 4 4) data false
    s.noteForeign isl m.ctx f

/-- A section of TYPE 3 or 4, its positions backed. -/
def State.fillWindow (s : State) (m : Import) (e : List Byte) (i : Nat) (data : List Byte) : Option State :=
  if leAt e 0 1 = 3 then some (s.putWindow m.ctx (leAt e 4 4) data) else s.putShards m e i data

/-- The bytes a section holds once it is in place, or the stage at which it fails. -/
def State.placeSection (s : State) (m : Import) (i : Nat) (data : List Byte) : Except LdrErr (State × Import) :=
  let e := sectOf m.manifest i
  let ty := leAt e 0 1
  let data := padTo (leAt e 16 4) data
  if ty = 1 then .ok (s.placeLines m e data, m)
  else if ty = 2 then .ok (s, { m with cmds := m.cmds ++ tabulate (leAt e 16 4 / 64) fun k => (data.drop (64 * k)).take 64 })
  else if ty = 3 || ty = 4 then
    match s.backAll m.ctx (ty - 2) (positions (leAt e 4 4) (sectBacked e)) with
    | none => .error { err := 5, detail := i }
    | some (s', l) =>
      let m := { m with backed := m.backed ++ l }
      match s'.fillWindow m e i data with
      | none => .error { err := 1, detail := i }
      | some s' => .ok (s', m)
  else if ty = 5 then .ok (s.add64 Reg.FRY_CIST_BYTES_LO Reg.FRY_CIST_BYTES_HI (leAt e 16 4), m)
  else .error { err := 1, detail := i }

/-! ## Acceptance (R366, R677, R456, R863, R865, R875) -/

/-- R456: the source region of an adapted tile: the block of the MOVE that brings in the frame of the OPTSTEP that updates it. -/
def State.adpSource (s : State) (p : Plan) (isl : Nat) : Nat :=
  let frames := (s.emissions p isl).filterMap fun e =>
    let t := s.tkOf p isl e
    if e.action = 0x10 && leAt t.rop 0 1 = 0x0A then some (t.inA / 64) else none
  let moves := p.cmds.filter fun c => leAt c 0 1 = 2 && s.gridIsl p (cmdMember c 0).1 = isl
    && frames.any fun l => (cmdMember c 0).2 ≤ l && l < (cmdMember c 0).2 + leAt c 16 4 / 64
  match moves.filterMap fun c => s.winBlock p.ctx (leAt c 12 4) with
  | [] => 0
  | b :: bs => bs.foldl min b

/-- R456: ADP_TILES and ADP_SRC at the acceptance of a plan that writes tiles with ROWIO. -/
def State.setAdapted (s : State) (p : Plan) : State :=
  (s.planIslands p).foldl (fun s isl =>
    (s.adaptedTiles p isl).foldl (fun s t =>
      (s.setF (Reg.ISL_ADP_TILES isl) t 1 1).setReg (Reg.ISL_ADP_SRC isl t) (BitVec.ofNat 32 (s.adpSource p isl))) s) s

/-- R366, R677: an accepted plan claims its leases, its reservation and its tiles; a plan that replaces none and has ONCE commands is
activated. -/
def State.acceptPlan (s : State) (m : Import) : State :=
  let h := s.nextPlan
  let p := s.planOf m
  let a := s.reservation p 0 (s.rateFor p.part 0).1
  let c := s.reservation p 1 (s.rateFor p.part 1).1
  let tk := (s.planIslands p).foldl (fun t isl => Store.put (fun _ => 0) t isl (s.worstLive p isl).1) []
  let p := { p with tickets := tk, rateArr := a.2.1, burstArr := a.2.2, rateCore := c.2.1, burstCore := c.2.2, fast := s.fastPlan p }
  let s := { s with nextPlan := h + 1 }.setReplicas p
  let s := s.setAdapted p
  let s := (s.setPlan h p).countPlans p.ctx
  let s := (s.planIslands p).foldl (fun s isl =>
    s.lease { res := 2, unit := isl, kind := 1, owner := p.ctx, plan := h, expiry := s.now + 2 ^ 23 }) s
  let s := s.lease { res := 3, unit := p.part, kind := 1, owner := p.ctx, plan := h, expiry := s.now + 2 ^ 23 }
  let x := s.ac p.part
  let s := s.setAc p.part { x with rsvA := x.rsvA + p.rateArr, rsvC := x.rsvC + p.rateCore, burstA := x.burstA + p.burstArr
                                   burstC := x.burstC + p.burstCore }
  let s := (s.planTiles p).foldl (fun s t => s.setOwner t (some p.ctx)) s
  let rep := ldrReport none h
  let s := s.setJob m.job { s.job m.job with payload := rep }
  let s := (s.logLoad p.ctx rep).endJob m.job 0
  if p.layers != 0 && p.f 31 1 % 2 = 0 then s.startSwap p.ctx 0 h 0 else s

/-- Every section is in place: FRY_IMPORT_DONE, checks 3 to 10, acceptance or refusal. -/
def State.endImport (s : State) (m : Import) : State :=
  let s := { s with imports := s.imports.filter fun x => x.job != m.job }
  let s := s.raiseC 6 0 Ev.FRY_IMPORT_DONE none m.ctx
  match s.loaderChecks (s.planOf m) with
  | some e => s.failImport m e
  | none => s.acceptPlan m

/-- IMPORT_SECTION (R602 to R605): the next section of a job's import arrives. `data`: its plaintext (TYPE 1 to 3) or its stored bytes
(TYPE 4); `ok`: digest, tag and every shard's tag and digest verify; `dmaOk`: the reads succeed. -/
def execImportSection (j : Nat) (data : List Byte) (ok dmaOk : Bool) (s : State) : Host.Outcome State Fault Refusal :=
  .next <|
    match s.imports.find? fun m => m.job = j with
    | none => s
    | some m =>
      if !dmaOk then ((s.dropImport m).dmaErr m.ctx).endJob j 10
      else if !ok then s.failImport m { err := 1, detail := m.next }
      else match s.placeSection m m.next data with
        | .error e => s.failImport m e
        | .ok (s, m) =>
          let m := { m with next := m.next + 1 }
          if m.next < sectCnt m.manifest then { s with imports := s.imports.map fun x => if x.job = j then m else x }
          else s.endImport m

/-! ## UNLOAD, SWAP, CIST_REG -/

/-- UNLOAD (R378, R735). -/
def execUnloadPlan (j : Nat) (s : State) : Host.Outcome State Fault Refusal :=
  .next <|
    if !s.entry j 3 then s
    else
      let s := s.takeEntry j
      if s.ownPlan j then s.unload (s.job j).plan else s.endJob j 8

/-- SWAP (R628, R634): refused while a replacement of the context is in progress; PLAN must be a plan loaded with SWAP_OF = 1. -/
def execSwapPlan (j : Nat) (s : State) : Host.Outcome State Fault Refusal :=
  .next <|
    if !s.entry j 4 then s
    else
      let s := s.takeEntry j
      let jb := s.job j
      if (s.swaps.any fun w => w.ctx = jb.fn) || s.getF Reg.BOOT_PROF_STS 0 2 = 2 then s.endJob j 3
      else if !s.ownPlan j || (s.plan jb.plan).f 31 1 % 2 = 0 then s.endJob j 8
      else s.startSwap jb.fn ((s.otherPlans jb.plan).headD 0) jb.plan j

/-- A plan reads the cistern. -/
def Plan.usesCist (p : Plan) : Bool := p.cmds.any fun c => leAt c 0 1 = 1 && leAt c 1 1 / 4 % 2 = 1

/-- CIST_REG (R590, R733). -/
def execCistReg (j : Nat) (s : State) : Host.Outcome State Fault Refusal :=
  .next <|
    if !s.entry j 5 then s
    else
      let s := s.takeEntry j
      let jb := s.job j
      if s.plans.any fun e => e.2.live && e.2.ctx = jb.fn && e.2.usesCist then s.endJob j 3
      else
        let s := s.set64 (Reg.FRY_CIST_BASE_LO jb.fn) (Reg.FRY_CIST_BASE_HI jb.fn) jb.inAddr
        let s := s.setReg (Reg.FRY_CIST_SIZE jb.fn) (BitVec.ofNat 32 jb.inLen)
        (s.setReg (Reg.FRY_CIST_CTL jb.fn) 1).endJob j 0

/-! ## Re-homing (R376) -/

/-- R376: an assignment entry of a plan names another tile after the next layer barrier; at once where no step is in progress. -/
def State.rehomeEntry (s : State) (h isl wti tile : Nat) : State :=
  let p := s.plan h
  (s.setPlan h { p with rehome := p.rehome ++ [(isl, wti, s.nextBarrier h * 16 + tile % 16)] }).applyRehome h

/-- TILE_ASSIGN_WRITE (R376): P3 or P4 rewrites an entry of a loaded plan. -/
def execTileAssignWrite (n : Pilot) (h : Nat) (isl : Isl) (wti : Fin 4096) (tile : Fin 16) (s : State) :
    Host.Outcome State Fault Refusal :=
  .next <|
    if !(n.val = 3 || n.val = 4) || !(s.plan h).live || !(s.planIslands (s.plan h)).contains isl.val then s
    else s.rehomeEntry h isl wti tile

end Sys2Proof.Machine
end

