-- ==== Sys2Proof/Machine/Reprog.lean ====
section
/-!
DEFINITION. Reprogramming, near-miss windows and basin line errors (R839, R850 to R854, R856, R861, R883).
-/
namespace Sys2Proof.Machine

/-- R854: a LATE tile waits for the first layer barrier, after LATE sets, of a loaded plan with tickets on it; where no such plan has a
barrier it waits for none. -/
def State.lateDue (s : State) (gt : Nat) : Bool :=
  let ps := s.plans.filter fun e => e.2.live && (s.planTiles e.2).contains gt && !(s.barrierOffs e.2).isEmpty
  ps.isEmpty || ps.any fun e => s.jobs.any fun j =>
    j.2.plan = e.1 && j.2.st = 3 && (s.barrierOffs e.2).any fun o =>
      (s.tx gt).reTick < j.2.origin + j.2.slip + o && j.2.origin + j.2.slip + o ≤ s.now

/-- A cause waits and the tile may be reprogrammed now (R854, R861, R416, R458, R883). -/
def State.reprogDue (s : State) (gt : Nat) : Bool :=
  let x := s.tx gt
  x.needReprog != 0 && x.reStep = 0 && !s.tileFenced gt && !s.tileTested gt && !s.getB (Reg.ISL_ADP_STS (gt / 16)) (gt % 16)
    && !(s.leases.any fun l => l.res = 4 && l.unit = gt) && (x.needReprog != 6 || s.lateDue gt)

/-- Step 1 of R851: PENDING; a measurement of the tile is aborted (R883). -/
def State.reprogBegin (s : State) (gt : Nat) : State :=
  let c := (s.tx gt).needReprog
  let s := s.calFence gt
  let s := s.updTx gt fun x => { x with needReprog := 0, reStep := 2, reCause := c, reTick := s.now, reRow := 0, reBad := false }
  s.setF (Reg.ISL_REPROG_STS (gt / 16)) (gt % 16) 1 1

/-- Step 2 of R851: the run's ticket is issued, to launch LEAD after this edge. -/
def State.reprogIssue (s : State) (gt idx ctx : Nat) : State :=
  let at_ := s.now + 16 * max 1 (s.getF Reg.FRY_CTL 8 8)
  (s.setTk (gt / 16 * 256 + idx) { state := 1, launch := at_, planned := at_, dln := 5152, uclass := 3, action := 7, ctx := ctx
                                   iter := gt + 1 }).noteLive (gt / 16)

/-- REPROGRAM_START (R850 to R852): the source is the tile's level copies, or the shard slot of the run that wrote it last, or there is
none. -/
def execReprogramStart (gt : Tile) (s : State) : Host.Outcome State Fault Refusal :=
  .next <|
    let isl := gt.val / 16
    if !s.reprogDue gt then s
    else if s.getB (Reg.ISL_ADP_TILES isl) (gt % 16) then
      match s.freeIdx isl with
      | none => s
      | some idx =>
        let ctx := (s.owner gt).getD 0
        let s := (s.reprogBegin gt).reprogIssue gt idx ctx
        let x : FerryRun := { gt := gt + 1, copies := true, ctx := ctx, block := (s.reg (Reg.ISL_ADP_SRC isl (gt % 16))).toNat % 2 ^ 26 }
        ({ s with nextRun := s.nextRun + 1 }).setRun s.nextRun x
    else match (s.tx gt).src with
      | some c =>
        match s.freeIdx isl with
        | none => s
        | some idx => (s.reprogBegin gt).reprogIssue gt idx c.ctx
      | none => ((s.reprogBegin gt).reprogResult gt 3 3).releaseTile gt

/-- R851 step 4, R855, R857: the verify pass has ended. -/
def State.reprogVerified (s : State) (gt : Nat) : State :=
  let x := s.tx gt
  if x.reCause = 9 && !s.getB (Reg.ISL_REPROG_STS (gt / 16)) (gt % 16) then s.rplVerified gt !x.reBad
  else
    let src := b2n (s.getB (Reg.ISL_ADP_TILES (gt / 16)) (gt % 16))
    if x.reBad then (s.reprogResult gt 2 src).fenceUnit (gt / 16) (gt % 16) 0x11
    else
      let s := s.reprogEnd gt 1 src
      if x.reCause = 1 || x.reCause = 2 then s.lagEnter (gt / 16) (gt % 16) x.reCause 1 else s

/-- REPROGRAM_VERIFY (R851 step 3, R155, R869): the next row read of the verify pass, a rank 3 claim. `devs`: levels read that differ from
those stored. A read that meets a lost lock is repeated once the line is locked again. -/
def execReprogramVerify (gt : Tile) (devs : List (Fin 528 × Fin 64)) (s : State) : Host.Outcome State Fault Refusal :=
  .next <|
    let x := s.tx gt
    if x.reStep != 3 || s.tileBusy gt || s.tileFenced gt || s.now < x.reTick + 5 || !s.quiet gt 5 || !s.locked gt then s
    else match s.grant (gt.val / 16) (1, 1) with
      | none => s
      | some s =>
        let r := x.reRow
        let w := s.row gt r
        let dv := devs.map fun p => (p.1.val, BitVec.ofNat 8 p.2.val)
        let s := s.noteRead gt r (s.rowReadAt gt r dv) 4 255
        let bad := !w.valid || rowTerm r (override w.levels dv) != w.term
        let s := s.updTx gt fun y => { y with reRow := r + 1, reTick := s.now, reBad := y.reBad || bad }
        if r < 1023 then s else s.reprogVerified gt

/-- NEAR_MISS_WINDOW_END (R856, R858, R906): a window of 2^17 ticks ends for a tile. -/
def execNearMissWindowEnd (gt : Tile) (s : State) : Host.Outcome State Fault Refusal :=
  .next <|
    let x := s.tx gt
    let isl := gt.val / 16
    let win := s.now / 2 ^ 17
    if win ≤ x.nearWin then s
    else
      let s := s.updTx gt fun y => { y with near := 0, nearWin := win }
      if x.near ≤ s.getF (Reg.ISL_INT_CTL isl) 0 12 then s
      else (((s.raiseI 3 isl Ev.ISL_NEAR_RATE none).trigTest isl 0).lagEnter isl (gt % 16) 3 0)

/-- BASIN_LINE_UE (R839): an uncorrectable error of a physical basin line sets its poison bit. -/
def execBasinLineUe (isl : Isl) (line : Fin 65536) (s : State) : Host.Outcome State Fault Refusal :=
  .next <|
    let m := s.lineAt isl line
    if !m.valid then s
    else
      let s := (s.setLine isl line { m with poison := true }).incSat (Reg.ISL_CHK_FAIL_CNT isl) 1
      s.raiseI 3 isl Ev.ISL_CHK_FAIL none

end Sys2Proof.Machine
end

