-- ==== Sys2Proof/Machine/FieldTest.lean ====
section
/-!
DEFINITION. In-field testing (chapter 18): due units, starts, deferral and its bound, re-homing and pauses, outcomes, island tests and the
switch of pattern banks (R891 to R923). Units of an island: 0 to 15 a tile, 16 SEQ, 17 RILL, 18 SPW, 19 the island test.
-/
namespace Sys2Proof.Machine

/-! ## Due times (R898, R910, R920) -/

/-- PERIOD_S in ticks; 0 is taken as 1. -/
def State.testPeriod (s : State) : Nat := max 1 (s.getF Reg.TST_CTL 8 8) * 125000000

/-- DEFER_MS in ticks; 0 is taken as 1. -/
def State.deferTicks (s : State) : Nat := max 1 (s.getF Reg.TST_CTL 16 16) * 125000

/-- The due tick of a unit. -/
def State.dueTick (s : State) (isl u : Nat) : Nat :=
  let t := s.test isl u
  let div := if s.inLagoon isl (if u < 16 then u else 16) then 8 else 1
  match (if u = 19 then some t.dueTick else t.due), t.last with
  | some d, _ => d
  | none, some x => x + s.testPeriod / div
  | none, none => s.testPeriod * (u + 1) / 19 / div

/-- The unit is due now: the island test when one is requested. -/
def State.isDue (s : State) (isl u : Nat) : Bool :=
  let t := s.test isl u
  if u = 19 then t.want else (t.due.isSome || s.getB Reg.TST_CTL 0) && decide (s.dueTick isl u ≤ s.now)

/-! ## What stands in the way (R899, R900, R908, R918, R919) -/

/-- A loaded plan schedules, within `n` ticks on an island, an emission that satisfies `p`. -/
def State.scheduled (s : State) (isl n : Nat) (p : Plan → Em → Bool) : Bool :=
  s.jobs.any fun e =>
    let jb := e.2
    let pl := s.plan jb.plan
    if !pl.live then false
    else if jb.st = 3 then !jb.failed && (s.earlier e.1 isl (s.now + n - jb.origin - jb.slip)).any (p pl)
    else if jb.st = 2 then (s.emissions pl isl).any fun m => decide (s.originOf jb + m.t < s.now + n) && p pl m
    else false

/-- An emission uses a tile of the island: a ticket on it, or a run that writes it. -/
def State.emTile (s : State) (isl u : Nat) (p : Plan) (e : Em) : Bool :=
  if 1024 ≤ e.desc then
    let c := p.cmds.getD (e.desc - 1024) []
    leAt c 0 1 = 1 && (cmdMembers c).any fun m => s.gridIsl p m.1 = isl && s.entryTile p isl (m.2 % 4096) = u
  else e.uclass = 0 && s.entryTile p isl e.wti = u

/-- A live ticket uses the tile. -/
def State.tileLive (s : State) (gt : Nat) : Bool :=
  s.tickets.any fun e => e.1 / 256 = gt / 16 && ((s.usesTiles e.1 e.2).contains gt || (e.2.action = 7 && e.2.plan = 0 && e.2.iter = gt + 1))

/-- An emission or ticket other than a ferry run. -/
def notRun (action uindex : Nat) : Bool := action != 7 || uindex = 4

/-- The island carries plan work other than ferry runs, now or within `n` ticks. -/
def State.islBusy (s : State) (isl n : Nat) : Bool :=
  (s.tickets.any fun e => e.1 / 256 = isl && notRun e.2.action e.2.uindex)
    || s.scheduled isl n fun p e => e.desc < 1024 || leAt (p.cmds.getD (e.desc - 1024) []) 0 1 != 1

/-- The tile itself may be tested now, plans apart. -/
def State.tileFree18 (s : State) (gt : Nat) : Bool :=
  let x := s.tx gt
  let isl := gt / 16
  !s.tileFenced gt && !(s.leases.any fun l => l.res = 4 && l.unit = gt) && s.calSt gt != 2 && x.cal = 0 && x.reStep = 0
    && !s.getB (Reg.TIL_COLMAP_CTL gt) 9 && !s.getB (Reg.ISL_ADP_STS isl) (gt % 16)

/-- The engine may be tested now, plans apart. -/
def State.engFree18 (s : State) (isl : Nat) : Bool := !s.islFenced isl && !s.islReset isl

/-- R900, R908: a due unit may start, its turn apart. -/
def State.testFree (s : State) (isl u : Nat) : Bool :=
  !s.getB Reg.TST_STS 3 && !(s.test isl u).held && !(s.test isl 19).held &&
    (if u < 16 then
      let gt := isl * 16 + u
      !s.tileLive gt && !s.scheduled isl 37850 (s.emTile isl u) && s.tileFree18 gt && s.locked gt
        && (List.range 16).all fun t => !(s.test isl t).held
    else if u < 19 then !s.islBusy isl 32000 && s.engFree18 isl && [16, 17, 18].all fun v => !(s.test isl v).held
    else !s.islBusy isl 151400 && s.engFree18 isl && (List.range 16).all (fun t => s.tileFree18 (isl * 16 + t) && !s.tileLive (isl * 16 + t))
      && (List.range 19).all fun v => !(s.test isl v).held)

/-- R899: the unit's turn: no due unit of its kind that could start has an earlier due time, or the same and a lower number. -/
def State.testTurn (s : State) (isl u : Nat) : Bool :=
  (if u < 16 then List.range 16 else if u < 19 then [16, 17, 18] else []).all fun v =>
    v = u || !s.isDue isl v || !s.testFree isl v || s.dueTick isl u < s.dueTick isl v || (s.dueTick isl u = s.dueTick isl v && u < v)

/-! ## Deferral (R901) -/

/-- The word that names a unit and an outcome (LAST_FAIL, R917). -/
def unitWord (isl u outcome : Nat) : Nat := isl % 64 + u % 32 * 64 + outcome * 2048

/-- Payload of a TST event: the LAST_FAIL word, then a count (log entry 26). -/
def tstPayload (isl u outcome n : Nat) : List Byte := leBytes (unitWord isl u outcome) 4 ++ leBytes n 6

/-- Raise a TST event that concerns an island's unit. -/
def State.raiseT (s : State) (n isl u outcome k : Nat) : State :=
  s.raise 14 0 n (some (tstPayload isl u outcome k)) 255 ((s.partOf isl).getD 255)

/-- The deferral bit of a unit follows. -/
def State.deferBit (s : State) (isl u : Nat) (b : Bool) : State :=
  if u < 19 then s.setB (Reg.ISL_TST_DEFER isl) u b else s

/-- The deferral of a unit begins. -/
def State.deferBegin (s : State) (isl u : Nat) : State :=
  let s := s.setTest isl u { s.test isl u with deferred := true }
  (((s.deferBit isl u true).incSat Reg.TST_DEFER_CNT 1)).raiseT Ev.TST_DEFER isl u 0 0

/-- The deferral of a unit ends at its start. -/
def State.deferEnd (s : State) (isl u : Nat) : State :=
  let t := s.test isl u
  let d := s.dueTick isl u
  if !t.deferred then s
  else
    let s := s.setTest isl u { t with deferred := false }
    (s.deferBit isl u false).raiseT Ev.TST_DEFER isl u 0 (s.now - d)

/-- TEST_DUE (R898, R901, R908, R920): a unit falls due; where it cannot start, it is deferred. -/
def execTestDue (isl : Isl) (u : Fin 20) (s : State) : Host.Outcome State Fault Refusal :=
  .next <|
    if !s.isDue isl u || (s.test isl u).held then s
    else
      let t := s.test isl u
      if t.deferred || (s.testFree isl u && s.testTurn isl u) then s else s.deferBegin isl u

/-! ## Starts (R895, R896, R900, R907) -/

/-- R169: the test's first row write clears every valid bit of a tile; a vacated tile has no owner any more (R896). -/
def State.wipeTile (s : State) (isl u : Nat) : State :=
  let gt := isl * 16 + u
  let s := if (s.test isl u).noRestore then s.setOwner gt none else s
  let s := { s with rows := s.rows.filter fun p => p.1 / 1024 != gt }
  let s := s.set64 (Reg.TIL_DIG_WRITE_LO gt) (Reg.TIL_DIG_WRITE_HI gt) 0
  let s := s.setF (Reg.TIL_RFSH_STS gt) 1 2 0
  let s := s.updTx gt fun x => { x with rf := 0, held := false, relReq := false, recomp := none, lastCnt := [] }
  (s.countValid gt).setB (Reg.TIL_RFSH_STS gt) 6 false

/-- A unit's test begins. -/
def State.testBegin (s : State) (isl u : Nat) : State :=
  let s := (s.deferEnd isl u).testHold isl u true
  let s := s.setTest isl u { s.test isl u with failed := false, route := 0, phase := 0 }
  if u < 16 then s.wipeTile isl u else s

/-- TEST_START (R899, R900). -/
def execTestStart (isl : Isl) (u : Fin 19) (s : State) : Host.Outcome State Fault Refusal :=
  .next (if s.isDue isl u && s.testFree isl u && s.testTurn isl u then s.testBegin isl u else s)

/-- TST_ISLAND (R907): an island test starts: the whole island is held. -/
def execTstIsland (isl : Isl) (s : State) : Host.Outcome State Fault Refusal :=
  .next <|
    if !s.isDue isl 19 || !s.testFree isl 19 then s
    else
      let s := (List.range 20).foldl (fun s u => s.testBegin isl u) s
      let s := s.setF (Reg.ISL_TST_ISTS isl) 16 2 1
      s.raiseT Ev.TST_ISLAND isl 0 0 0

/-! ## The bound (R902, R903, R905, R908) -/

/-- The live plans that use a unit. -/
def State.testPlans (s : State) (isl u : Nat) : List (Nat × Plan) :=
  s.plans.filter fun e => e.2.live && (if u < 16 then (s.planTiles e.2).contains (isl * 16 + u) else (s.planIslands e.2).contains isl)

/-- The tile has a reprogramming source (R850). -/
def State.hasSrc (s : State) (gt : Nat) : Bool :=
  (s.owner gt).isSome && (s.getB (Reg.ISL_ADP_TILES (gt / 16)) (gt % 16) || (s.tx gt).src.isSome)

/-- R902: a spare: an ordinary tile that is unowned, unfenced, outside the lagoon and held by no test, calibration or reprogramming. -/
def State.spareOf (s : State) (isl : Nat) : Option Nat :=
  (List.range (16 - s.profile.dynCount)).find? fun t =>
    let gt := isl * 16 + t
    (s.owner gt).isNone && !s.tileFenced gt && !s.inLagoon isl t && !s.tileTested gt && s.calSt gt != 2 && (s.tx gt).cal = 0
      && (s.tx gt).reStep = 0 && (s.tx gt).reCause = 0

/-- R903: every weight-tile index that names the tile is written by a per-step ferry run of its plan. -/
def State.writtenEach (s : State) (isl u : Nat) : Bool :=
  (s.testPlans isl u).all fun e =>
    let p := e.2
    (List.range (leAt (s.rootLine p isl) 10 2)).all fun i =>
      let w := s.wtiWord p isl i
      !(nfld w 15 1 = 1 && nfld w 0 4 = u)
        || p.cmds.any fun c => leAt c 0 1 = 1 && !cmdOnce c && (cmdMembers c).any fun m => s.gridIsl p m.1 = isl && m.2 % 4096 = i

/-- R903 step 1: the spare is written from the tile's source. -/
def State.rehomeWrite (s : State) (isl u spare idx : Nat) : State :=
  let gt := isl * 16 + u
  let sp := isl * 16 + spare
  let ctx := (s.owner gt).getD 0
  let adp := s.getB (Reg.ISL_ADP_TILES isl) u
  let src := (s.tx gt).src
  let s := s.setOwner sp (some ctx)
  let s := s.updTx sp fun x => { x with reStep := 2, reCause := 11, src := src }
  let s := s.reprogIssue sp idx ctx
  if adp then
    let x : FerryRun := { gt := sp + 1, copies := true, ctx := ctx, block := (s.reg (Reg.ISL_ADP_SRC isl u)).toNat % 2 ^ 26 }
    ({ s with nextRun := s.nextRun + 1 }).setRun s.nextRun x
  else s

/-- R905: a unit is marked TEST_OVERDUE. -/
def State.markOverdue (s : State) (isl u : Nat) : State :=
  if s.getB (Reg.ISL_TST_OVERDUE isl) u then s
  else
    let s := s.setB (Reg.ISL_TST_OVERDUE isl) u true
    (s.setF Reg.TST_STS 16 11 (s.getF Reg.TST_STS 16 11 + 1)).raiseT Ev.TEST_OVERDUE isl u 0 0

/-- The mark clears. -/
def State.clearOverdue (s : State) (isl u : Nat) : State :=
  if s.getB (Reg.ISL_TST_OVERDUE isl) u then
    (s.setB (Reg.ISL_TST_OVERDUE isl) u false).setF Reg.TST_STS 16 11 (s.getF Reg.TST_STS 16 11 - 1)
  else s

/-- R902 route 2, R908: the unit's plans can be paused. -/
def State.canPause (s : State) (isl u : Nat) : Bool :=
  s.getB Reg.TST_CTL 2 && (s.testPlans isl u).all (fun e => !(s.barrierOffs e.2).isEmpty) && (16 ≤ u || s.hasSrc (isl * 16 + u))

/-- The route of a unit whose bound has passed still stands: a re-home whose spare is being written or is written, or a pause. -/
def State.routed (s : State) (isl u : Nat) : Bool :=
  let t := s.test isl u
  t.route = 2 || (t.route = 1 && (t.noRestore || (t.spare != 0 && (t.phase = 1 || (s.tx (isl * 16 + (t.spare - 1))).reCause = 11))))

/-- TEST_DEFER_BOUND (R902, R905, R908): the bound has passed, and P3 chooses a route for the deferred unit. -/
def execTestDeferBound (isl : Isl) (u : Fin 20) (s : State) : Host.Outcome State Fault Refusal :=
  .next <|
    let t := s.test isl u
    let v := u.val
    if !t.deferred || t.held || s.now < s.dueTick isl v + s.deferTicks || s.routed isl v then s
    else
      let ovr (s : State) : State :=
        let s := s.setTest isl v { t with route := 0, spare := 0, phase := 0 }
        if v = 19 then (List.range 19).foldl (fun s w => s.markOverdue isl w) s else s.markOverdue isl v
      let pause (s : State) : State := if s.canPause isl v then s.setTest isl v { t with route := 2 } else ovr s
      if s.getB Reg.TST_STS 3 then ovr s
      else if 16 ≤ v then pause s
      else match s.spareOf isl with
        | none => pause s
        | some sp =>
          if !s.hasSrc (isl * 16 + v) then pause s
          else if s.writtenEach isl v then
            (s.setTest isl v { t with route := 1, spare := sp + 1, phase := 1 }).setOwner (isl * 16 + sp) (s.owner (isl * 16 + v))
          else match s.freeIdx isl with
            | none => s
            | some idx => (s.setTest isl v { t with route := 1, spare := sp + 1, phase := 0 }).rehomeWrite isl v sp idx

/-- REHOME_SWITCH (R903 step 2): the spare's write has acknowledged; the entries that name the tile name the spare from the next barrier. -/
def execRehomeSwitch (isl : Isl) (u : Fin 16) (s : State) : Host.Outcome State Fault Refusal :=
  .next <|
    let t := s.test isl u
    let sp := t.spare - 1
    let x := s.tx (isl * 16 + sp)
    if t.route != 1 || t.spare = 0 || t.noRestore || t.held || !(t.phase = 1 || (x.reCause = 11 && x.reStep = 0)) then s
    else
      let s := s.setTest isl u { t with noRestore := true }
      let s := s.updTx (isl * 16 + sp) fun y => { y with reCause := 0 }
      let s := if s.getB (Reg.ISL_ADP_TILES isl) u then
          let s := (s.setB (Reg.ISL_ADP_TILES isl) u false).setB (Reg.ISL_ADP_TILES isl) sp true
          s.setReg (Reg.ISL_ADP_SRC isl sp) (s.reg (Reg.ISL_ADP_SRC isl u))
        else s
      let s := (s.testPlans isl u).foldl (fun s e =>
        ((List.range (leAt (s.rootLine e.2 isl) 10 2)).filter fun i =>
          let w := s.wtiWord e.2 isl i
          nfld w 15 1 = 1 && nfld w 0 4 = u.val).foldl (fun s i => s.rehomeEntry e.1 isl i sp) s) s
      s.incSat Reg.TST_PREEMPT_CNT 1

/-- R904, R908: P. -/
def pauseTicks (u : Nat) : Nat := if u < 16 then 37942 else if u < 19 then 32086 else 151524

/-- R904: a plan is paused: what its step has not launched, and its later origins, move by P ticks. -/
def State.pausePlan (s : State) (h p : Nat) : State :=
  let s := (s.jobs.filter fun e => e.2.plan = h && e.2.st = 3 && !e.2.failed).foldl (fun s e =>
    let s := s.mapTk (fun _ t => t.job = e.1 && (t.state = 1 || t.state = 2)) fun t =>
      { t with launch := t.launch + p, planned := t.planned + p, slipped := true }
    s.setJob e.1 { s.job e.1 with slip := (s.job e.1).slip + p }) s
  let pl := s.plan h
  s.setPlan h { pl with paused := s.now + p, lastSlip := pl.lastSlip + p }

/-- A layer barrier of a plan falls at this tick, or the plan runs no step. -/
def State.atBarrier (s : State) (h : Nat) : Bool :=
  let run := s.jobs.filter fun e => e.2.plan = h && e.2.st = 3
  run.isEmpty || run.any fun e => (s.barrierOffs (s.plan h)).any fun o => e.2.origin + e.2.slip + o = s.now

/-- TST_PREEMPT (R904, R908): at its next layer barrier, plan `h` is paused for the test of a unit. -/
def execTstPreempt (isl : Isl) (u : Fin 20) (h : Nat) (s : State) : Host.Outcome State Fault Refusal :=
  .next <|
    let t := s.test isl u
    if t.route != 2 || t.held || !((s.testPlans isl u).any fun e => e.1 = h) || !s.atBarrier h || s.now < (s.plan h).paused then s
    else
      let s := (s.pausePlan h (pauseTicks u)).setB (Reg.ISL_TST_ISTS isl) 18 true
      (s.incSat Reg.TST_PREEMPT_CNT 1).raiseT Ev.TST_PREEMPT isl (min 18 u) 0 0

/-! ## Outcomes (R896, R909 to R911) -/

/-- R896: the restore phase: the level copies, else the shard slot, else nothing (the tile is released). `data`: what a cistern read returns;
`ok`: the shard's tag and digest verify. -/
def State.restoreTile (s : State) (isl u : Nat) (data : List Byte) (ok : Bool) : State :=
  let gt := isl * 16 + u
  let s := s.setOwed gt 0
  match (if (s.test isl u).noRestore then none else s.owner gt), (s.tx gt).src with
  | none, _ => s.releaseTile gt
  | some c, src =>
    if s.getB (Reg.ISL_ADP_TILES isl) u then
      let base := (s.reg (Reg.ISL_ADP_SRC isl u)).toNat % 2 ^ 26
      if (List.range 1024).any fun i => (s.copyRow c base i).2 then (s.consumePoison isl c 0).releaseTile gt
      else (List.range 1024).foldl (fun (s : State) (i : Nat) => s.rowWrite gt i (s.copyRow c base i).1) s
    else match src with
      | none => s.releaseTile gt
      | some z =>
        let x : FerryRun := { ctx := z.ctx, block := z.block, cist := z.cist, idx := z.idx, image := z.image, version := z.version }
        let b := if z.cist then (padTo shardLen data, []) else s.slotBytes x
        if !b.2.isEmpty then (s.consumePoison isl c 0).releaseTile gt
        else if !ok || !({ x with buf := b.1 } : FerryRun).hdrOk then s.releaseTile gt
        else
          let s := if z.cist then s.add64 Reg.FRY_CIST_BYTES_LO Reg.FRY_CIST_BYTES_HI shardLen else s.countSlot x
          (List.range 1024).foldl (fun (s : State) (i : Nat) => s.rowWrite gt i (rowLevels ((b.1.drop (64 + 384 * i)).take 384))) s

/-- A failure is latched (R911). -/
def State.latchTest (s : State) (isl u outcome : Nat) : State :=
  let s := s.setReg Reg.TST_LAST_FAIL (BitVec.ofNat 32 (unitWord isl u outcome))
  s.set64 Reg.TST_LAST_FAIL_TICK_LO Reg.TST_LAST_FAIL_TICK_HI s.now

/-- The hold of a unit's test ends; an island test ends with the last of its units. -/
def State.testEnd (s : State) (isl u : Nat) : State :=
  let s := s.testHold isl u false
  let s := s.setTest isl u { s.test isl u with due := none, deferred := false, failed := false, last := some s.now, route := 0, spare := 0
                                               phase := 0, noRestore := false }
  let s := (s.clearOverdue isl u).setB (Reg.ISL_TST_ISTS isl) 18 false
  let busy := (List.range 19).filter fun v => (s.test isl v).held
  if !(s.test isl 19).held then s
  else if busy.isEmpty then
    let s := s.testHold isl 19 false
    (s.setTest isl 19 { s.test isl 19 with want := false, due := none, route := 0 }).incSat (Reg.ISL_TST_ICNT isl) 1
  else match busy.find? fun v => 16 ≤ v with
    | some v => s.setF (Reg.ISL_TST_ISTS isl) 16 2 (v - 15)
    | none => s.setF (Reg.ISL_TST_ISTS isl) 16 2 0

/-- TEST_COMPLETE (R909): a run of a unit's test ends, passed or not. `data`, `ok`: the restore phase's source (restoreTile). -/
def execTestComplete (isl : Isl) (u : Fin 19) (pass : Bool) (data : List Byte) (ok : Bool) (s : State) : Host.Outcome State Fault Refusal :=
  .next <|
    let t := s.test isl u
    let lu := min 16 u.val
    if !t.held then s
    else if !pass && !t.failed then s.setTest isl u { t with failed := true, start := s.now }
    else
      let lag := s.inLagoon isl lu
      let s := if u.val < 16 && (pass || lag) then s.restoreTile isl u data ok else s
      let s := s.testEnd isl u
      if pass && !t.failed then (s.incSat Reg.TST_PASS_CNT 1).lagClean isl lu
      else if pass then
        let s := ((s.incSat Reg.TST_PASS_CNT 1).incSat Reg.TST_TRANS_CNT 1).latchTest isl u 1
        (s.lagEnter isl lu 5 0).raiseT Ev.TST_TRANSIENT isl u 1 0
      else
        let o := if lag then 3 else 2
        let s := ((s.incSat Reg.TST_FAIL_CNT 1).latchTest isl u o).raiseT Ev.TST_FAIL isl u o 0
        if lag then s.lagEnter isl lu 5 1 else s.fenceUnit isl lu 0x13

/-! ## Commands (R906, R921) -/

/-- Writers of the TST page (R781): every requester but the VFs; debug when unlocked. -/
def State.stdWriter (s : State) (rq : Requester) : Bool :=
  match rq with
  | .fn f => f = 0
  | .debug => s.dbgOpen
  | _ => true

/-- TST_STS.ERR. -/
def State.tstErr (s : State) (e : Nat) : State := s.setF Reg.TST_STS 28 4 e

/-- TEST_TILE. -/
def execTestTile (rq : Requester) (target : Fin 1024) (s : State) : Host.Outcome State Fault Refusal :=
  .next <| s.orHeld rq false Reg.TST_CMD (BitVec.ofNat 32 (1 + target * 16)) {} fun s =>
    if !s.stdWriter rq then s
    else if s.tileTested target then s.tstErr 2
    else
      let isl := target.val / 16
      let u := target.val % 16
      (s.setTest isl u { s.test isl u with due := some s.now, dueTick := s.now }).tstErr 0

/-- TEST_ISLAND. -/
def execTestIsland (rq : Requester) (target : Fin 1024) (s : State) : Host.Outcome State Fault Refusal :=
  .next <| s.orHeld rq false Reg.TST_CMD (BitVec.ofNat 32 (2 + target * 16)) {} fun s =>
    if !s.stdWriter rq then s
    else if 64 ≤ target.val then s.tstErr 1
    else if (List.range 20).any fun u => (s.test target u).held then s.tstErr 2
    else (s.askIslTest target).tstErr 0

/-! ## Pattern banks (R891 to R893, R912, R913) -/

/-- First byte of a pattern bank in the flash. -/
def bankBase (b : Nat) : Nat := 0x1400000 + b % 2 * 0x1000000

/-- PAT_VER of a bank. -/
def State.patVer (s : State) (b : Nat) : Word :=
  let h := s.flashBytes (bankBase b) 16
  BitVec.ofNat 32 (leAt h 12 2 + leAt h 8 2 * 65536)

/-- TST_PAT_UPDATE (R913): a verified bank becomes active at the first edge at which no test holds a unit. -/
def execTstPatUpdate (s : State) : Host.Outcome State Fault Refusal :=
  .next <|
    if s.getF Reg.TST_STS 4 2 != 3 || s.tests.any fun e => e.2.held then s
    else
      let b := 1 - s.getF Reg.TST_STS 0 1
      let s := ((s.setF Reg.TST_STS 0 1 b).setF Reg.TST_STS 4 2 0).setB Reg.TST_STS 3 false
      let s := (s.setB Reg.TST_STS (1 + b) true).setReg Reg.TST_PAT_VER (s.patVer b)
      s.raise 14 0 Ev.TST_PAT_UPDATE none 255 255

end Sys2Proof.Machine
end

