-- ==== Sys2Proof/Machine/Context.lean ====
section
/-!
DEFINITION. Contexts, the key vault, owners and their keys, teardown (R663 to R676, R680 to R694, R704 to R713).
-/
namespace Sys2Proof.Machine

/-- The PF or the causeway (R665, R698, R703, R763). -/
def isMgmt (r : Requester) : Bool := r = .fn 0 || r = .causeway

/-- State of a context (R664). -/
def State.ctxSt (s : State) (c : Nat) : Nat := s.getF (Reg.CTX_STS c) 0 2

/-- Record CTX_STS.ERR. -/
def State.ctxErr (s : State) (c e : Nat) : State := s.setF (Reg.CTX_STS c) 8 8 e

/-- The chip is OPERATIONAL (BOOT_STS). -/
def State.operational (s : State) : Bool := s.getB Reg.BOOT_STS 5

/-! ## CREATE (R665, R666, R669) -/

/-- R666, R1020: why CREATE of a context is refused (CTX_STS.ERR), in the order of the rule. -/
def State.createErr (s : State) (c : Nat) : Option Nat :=
  let cfg := s.reg (Reg.CTX_CFG c)
  let p := fld cfg 0 3
  let frames := s.getF (Reg.CTX_WIN c) 0 17
  if s.ctxSt c != 0 || !s.operational then some 1
  else if (s.partDef p).isNone then some 2
  else if !((List.range 4).any fun k => let r := Store.get (fun _ => ({} : KeyReg)) s.ownerKeys (4 * fld cfg 8 5 + k); r.used && !r.revoked) then some 9
  else if (s.islandsOf p).any fun i => (s.freePages i).length < fld cfg 16 11 then some 3
  else if frames = 0 || 73696 < frames then some 12
  else none

/-- Tag the `n` lowest free pages of an island with a context (R669). -/
def State.tagPages (s : State) (isl c n : Nat) : State := ((s.freePages isl).take n).foldl (fun s p => s.setTag isl p (c + 1)) s

/-- CREATE: CTX_CMD.OP 1. -/
def execCtxCreate (rq : Requester) (c : Ctx) (s : State) : Host.Outcome State Fault Refusal :=
  .next <| s.orHeld rq false (Reg.CTX_CMD c) 1 {} fun s =>
    if !isMgmt rq || s.ctxSt c = 3 then s
    else match s.createErr c with
      | some e => s.ctxErr c e
      | none =>
        let cfg := s.reg (Reg.CTX_CFG c)
        let p := fld cfg 0 3
        let s := (s.islandsOf p).foldl (fun s i => s.tagPages i c (fld cfg 16 11)) s
        let s := s.setCx c { part := p, owner := fld cfg 8 5, pages := fld cfg 16 11, winFrames := s.getF (Reg.CTX_WIN c) 0 17 }
        let s := s.setF (Reg.CTX_STS c) 0 16 1
        (s.newChallenge c).raiseC 19 c Ev.CTX_CREATED none c

/-! ## BACK (R674) -/

/-- The lowest-numbered FREE frames. -/
def State.freeFrames (s : State) (n : Nat) : List Nat := ((List.range 73728).filter fun f => (s.frame f).ty = 0).take n

/-- BACK: CTX_CMD.OP 4 with ARG: positions that are backed already stay as they are. -/
def execCtxBack (rq : Requester) (c : Ctx) (n : Fin 16777216) (s : State) : Host.Outcome State Fault Refusal :=
  .next <| s.orHeld rq false (Reg.CTX_CMD c) (BitVec.ofNat 32 (4 + n * 256)) {} fun s =>
    let st := s.ctxSt c
    let pos := s.getF (Reg.CTX_WIN_SEL c) 0 17
    if !isMgmt rq || st = 3 then s
    else if st = 0 then s.ctxErr c 1
    else if (s.cx c).winFrames < pos + n then s.ctxErr c 12
    else
      let want := ((List.range n).map (pos + ·)).filter fun p => !(Store.get winNone (s.cx c).win p).backed
      let free := s.freeFrames want.length
      if free.length < want.length then s.ctxErr c 4
      else ((want.zip free).foldl (fun s e => s.backPos c e.1 e.2 1) s).ctxErr c 0

/-! ## Teardown (R692 to R694, R707 to R709) -/

/-- DESTROY: CTX_CMD.OP 2. -/
def execCtxDestroy (rq : Requester) (c : Ctx) (s : State) : Host.Outcome State Fault Refusal :=
  .next <| s.orHeld rq false (Reg.CTX_CMD c) 2 {} fun s =>
    if !isMgmt rq || s.ctxSt c = 3 then s
    else if s.ctxSt c = 0 then s.ctxErr c 1
    else s.startTeardown c 1

/-- VF_OFF (R694): NumVFs is now `n`; 0 when VF Enable was cleared. -/
def execVfOff (n : Ctx) (s : State) : Host.Outcome State Fault Refusal :=
  .next ((List.range 64).foldl (fun s c => if n.val < c then s.startTeardown c 2 else s) s)

/-- KEY.SLOT: slot `c` holds a key. -/
def State.slotKeyed (s : State) (c : Nat) : Bool := if c < 32 then s.getB Reg.KEY_SLOT_LO c else s.getB Reg.KEY_SLOT_HI (c - 32)

/-- Fill or empty slot `c` (R680, R693). -/
def State.setSlot (s : State) (c : Nat) (b : Bool) : State := if c < 32 then s.setB Reg.KEY_SLOT_LO c b else s.setB Reg.KEY_SLOT_HI (c - 32) b

/-- R692 step 3: plans, replacements, ferry commands and DYN leases of a context go. -/
def State.dropWork (s : State) (c : Nat) : State :=
  let s := s.dropRuns fun x => x.ctx = c
  let s := { s with swaps := s.swaps.filter fun w => w.ctx != c, refetch := s.refetch.filter fun f => (s.plan f.1).ctx != c || !(s.plan f.1).live }
  let s := (s.leases.filter fun l => l.res = 4 && l.owner = c).foldl (fun s l => s.dynReturn l.unit) s
  (s.plans.filter fun e => e.2.live && e.2.ctx = c).foldl (fun s e => s.unloadNow e.1) s

/-- R692 step 5: window frames return to FREE; the overflow reserve's blocks are unwritten. -/
def State.dropHarbour (s : State) (c : Nat) : State :=
  let s := (s.cx c).win.foldl (fun s e => s.unbackPos c e.1) s
  { s with
    harbour := s.harbour.filter fun x => x.1 / 4096 / 256 != c
    hbPoison := s.hbPoison.filter fun x => x.1 / 64 / 256 != c
    hbWritten := s.hbWritten.filter fun x => x.1 / 256 != c
    ovf := Store.put (fun _ => {}) s.ovf c {} }

/-- R692 step 6: the page tags of a context are cleared. -/
def State.dropTags (s : State) (c : Nat) : State :=
  (s.tags.filter fun e => e.2 = c + 1).foldl (fun s e => s.setTag (e.1 / 1024) (e.1 % 1024) 0) s

/-- R770: every queue pair and binding of a function is deleted. -/
def State.dropQueues (s : State) (fn : Nat) : State :=
  let s := s.unbind fun _ l => l.fn = fn
  { s with qps := s.qps.filter fun e => e.1 / 16 != fn }

/-- The context has no launched ticket, no step and no completion that is still to be written (R692, R770). -/
def State.quiesced (s : State) (c : Nat) : Bool :=
  !(s.tickets.any fun e => e.2.ctx = c && (e.2.state = 3 || e.2.state = 4))
    && !(s.jobs.any fun e => e.2.fn = c && e.2.st != 0 && e.2.st < 6 && !e.2.silent)

/-- R1065 steps 5 and 6, R1081: once no context holds a key or is closing, the part is unlocked: a new NONCE, DBG_UNLOCK. -/
def State.unlockStep (s : State) : State :=
  if !s.tap.unlocking || (List.range 64).any fun c => 2 ≤ s.ctxSt c then s
  else
    let (d, s) := s.nextDraw
    let s := (s.setF Reg.DBG_STS 0 2 2).set64 Reg.DBG_NONCE_LO Reg.DBG_NONCE_HI d.toNat
    ({ s with tap := { s.tap with unlocking := false } } : State).raise 17 0 Ev.DBG_UNLOCK none 255 255

/-- TEARDOWN_DONE (R692 steps 3 to 7, R693): `zero`: the zeroised key material reads back as zeros. -/
def execTeardownDone (c : Ctx) (zero : Bool) (s : State) : Host.Outcome State Fault Refusal :=
  .next <|
    if s.ctxSt c != 3 || !s.quiesced c then s
    else
      let s := s.dropWork c
      if !zero then s.raiseC 9 0 Ev.KEY_ZERO_FAIL (some [BitVec.ofNat 8 c]) c
      else
        let s := (s.setSlot c false).dropHarbour c
        let s := (s.dropTags c).dropQueues c
        let s := { s with jobs := s.jobs.filter fun e => e.2.fn != c }
        let s := s.setReg (Reg.FRY_CIST_CTL c) 0
        let s := s.raiseC 19 c Ev.CTX_FREED none c
        let cause := (s.cx c).closeCause
        let s := s.setF (Reg.CTX_STS c) 0 5 0
        let s := (s.setF (Reg.CTX_STS c) 16 4 cause).setF (Reg.CTX_WIN_BACKED c) 0 17 0
        (s.setCx c {}).unlockStep

/-! ## Installing a key (R680 to R685) -/

/-- INSTALL_KEY: CTX_CMD.OP 3; the install waits for the vault lease. Refused while debug is unlocked (R1067). -/
def execInstallKey (rq : Requester) (c : Ctx) (s : State) : Host.Outcome State Fault Refusal :=
  .next <| s.orHeld rq false (Reg.CTX_CMD c) 3 {} fun s =>
    if !(isMgmt rq || rq = .fn c) || s.ctxSt c = 3 then s
    else if s.ctxSt c != 1 || s.dbgOpen then s.ctxErr c 1
    else if s.installing c then s
    else (s.setCx c { s.cx c with installWait := true }).ctxErr c 0

/-- VAULT_LEASE_GRANT (R685): the vault is free: the waiting install of the lowest context takes its lease of 20 ms. -/
def execVaultLeaseGrant (s : State) : Host.Outcome State Fault Refusal :=
  .next <|
    if s.leases.any fun l => l.res = 5 then s
    else match (List.range 64).find? fun c => (s.cx c).installWait with
      | none => s
      | some c =>
        (s.setCx c { s.cx c with installWait := false }).lease { res := 5, unit := 0, kind := 1, owner := c, expiry := s.now + 2500000 }

/-- R681, R683: the error of a blob's steps 2 to 4, in order: format, challenge, owner. -/
def State.blobErr (s : State) (c : Nat) (b : List Byte) : Option Nat :=
  let zero (i n : Nat) : Bool := leAt b i n = 0
  if b.length != 288 || leAt b 0 4 != 0x424B5851 || leAt b 4 2 != 1 || leAt b 6 1 != c || !zero 7 1 || !zero 18 14 || !zero 168 24 then some 5
  else if leAt b 8 8 != s.get64 (Reg.CTX_CHALLENGE_LO c) (Reg.CTX_CHALLENGE_HI c) then some 8
  else if !s.keyOk c (leAt b 16 2) then some 9
  else none

/-- CTX_KEY_OK (R683, R684): the install of context `c` ends: `blob` as read (`dmaOk`: the read succeeds), `sigOk`: SIG verifies, `keyUnwraps`:
EPUB lies on the curve and WRAPPED passes its integrity check. -/
def execCtxKeyOk (c : Ctx) (blob : List Byte) (dmaOk sigOk keyUnwraps : Bool) (s : State) : Host.Outcome State Fault Refusal :=
  .next <|
    if !s.installing c then s
    else if !dmaOk then (s.dmaErr c).installFail c 11
    else match s.blobErr c blob with
      | some e => s.installFail c e
      | none =>
        if !sigOk then s.installFail c 6
        else if !keyUnwraps then s.installFail c 7
        else
          let s := { s with leases := s.leases.filter fun l => l.res != 5 }
          let s := ((s.setSlot c true).setF (Reg.CTX_STS c) 0 2 2).ctxErr c 0
          (s.newChallenge c).raiseC 19 c Ev.CTX_KEY_OK none c

/-! ## Signing keys (R689, R690, R703, R704, R713) -/

/-- No key. -/
def keyNone (_ : Nat) : KeyReg := {}

/-- The body of an owner-registration record: for each of the 128 indices a flag byte (registered, revoked) and the public key. -/
def keyTableBytes (m : Store KeyReg) : List Byte :=
  (List.range 128).flatMap fun i =>
    let r := Store.get keyNone m i
    BitVec.ofNat 8 (b2n r.used + 2 * b2n r.revoked) :: padTo 96 r.pub

/-- The registrations that such a body holds. -/
def keyTableOf (b : List Byte) : Store KeyReg :=
  (List.range 128).foldl (fun m i =>
    let f := leAt b (97 * i) 1
    if f % 2 = 0 then m else Store.put keyNone m i { used := true, revoked := f / 2 % 2 = 1, pub := (b.drop (97 * i + 1)).take 96 }) []

/-- The registrations as they will be when every requested write has ended. -/
def State.keyTable (s : State) : Store KeyReg :=
  match (s.flashq.filter fun w => w.kind = 5).getLast? with
  | some w => keyTableOf w.body
  | none => s.ownerKeys

/-- Ask for a new owner-registration record (R689). -/
def State.writeKeys (s : State) (m : Store KeyReg) (arg : Nat) : State :=
  (s.setF Reg.KEY_STS 8 8 0).flashAsk
    { kind := 5, base0 := 0x1300000, base1 := 0x1310000, size := 0x10000, body := keyTableBytes m, holder := 0, arg := arg }

/-- The staged public key (REG_PUB). -/
def State.stagedPub (s : State) : List Byte := (List.range 24).flatMap fun j => leBytes (s.reg (Reg.KEY_REG_PUB j)).toNat 4

/-- REG_KEY: `onCurve`: the staged key is a point of P-384. -/
def execRegKey (rq : Requester) (k : Fin 128) (onCurve : Bool) (s : State) : Host.Outcome State Fault Refusal :=
  .next <| s.orHeld rq false Reg.KEY_CMD (BitVec.ofNat 32 (1 + k * 256)) { ok := onCurve } fun s =>
    let r := Store.get keyNone s.keyTable k
    if !isMgmt rq then s
    else if r.used && !r.revoked then s.setF Reg.KEY_STS 8 8 3
    else if !onCurve then s.setF Reg.KEY_STS 8 8 1
    else s.writeKeys (Store.put keyNone s.keyTable k { used := true, pub := s.stagedPub }) (128 + k)

/-- REVOKE_KEY. -/
def execRevokeKey (rq : Requester) (k : Fin 128) (s : State) : Host.Outcome State Fault Refusal :=
  .next <| s.orHeld rq false Reg.KEY_CMD (BitVec.ofNat 32 (2 + k * 256)) {} fun s =>
    let r := Store.get keyNone s.keyTable k
    if !isMgmt rq then s
    else if !r.used then s.setF Reg.KEY_STS 8 8 4
    else s.writeKeys (Store.put keyNone s.keyTable k { r with revoked := true }) (256 + k)

/-- R689, R690: a registration record has been written, or its write has failed. -/
def State.keysWritten (s : State) (w : FlashWrite) (ok : Bool) : State :=
  if !ok then s.setF Reg.KEY_STS 8 8 2
  else
    let s := { s with ownerKeys := keyTableOf w.body }
    s.raise 9 0 (if w.arg / 128 = 1 then Ev.KEY_REG else Ev.KEY_REVOKE) none 255 255

/-- R685, R694, R704: P0 force-zeroises a slot: it empties, and its context is torn down with CAUSE 5. -/
def State.forceZero (s : State) (c : Nat) : State :=
  let s := (s.incSat Reg.KEY_ZERO_CNT 1).raiseC 9 0 Ev.KEY_FORCE_ZERO none c
  (s.startTeardown c 5).setSlot c false

/-- ZEROISE: KEY_CMD.OP 3, from the causeway. -/
def execZeroise (rq : Requester) (c : Ctx) (s : State) : Host.Outcome State Fault Refusal :=
  .next (s.orHeld rq false Reg.KEY_CMD (BitVec.ofNat 32 (3 + c * 65536)) {} fun s =>
    if rq = .causeway then s.forceZero c else s)

/-! ## What reads compute (R703) -/

/-- KEY_STS as read: ERR is stored, the rest follows the vault lease and the flash writes. -/
def State.keySts (s : State) : Word :=
  let v := s.reg Reg.KEY_STS &&& 0xFF00#32
  let l := s.leases.find? fun l => l.res = 5
  let busy := l.isSome || s.flashq.any fun w => w.kind = 5
  BitVec.ofNat 32 (v.toNat + b2n busy + (match l with | some l => l.owner % 64 * 65536 + 4194304 | none => 0))

/-- KEYREGn as read. -/
def State.keyRegWord (s : State) (n : Nat) : Word :=
  BitVec.ofNat 32 ((List.range 32).foldl (fun a i =>
    let r := Store.get keyNone s.ownerKeys (32 * n + i); if r.used && !r.revoked then a + 2 ^ i else a) 0)

end Sys2Proof.Machine
end

