-- ==== Sys2Proof/Machine/Host.lean ====
section
/-!
DEFINITION. The host interface: link, doorbells, queues, entries, the fast lane, inputs, results, completions, the overflow reserve, BAR2 (R714 to
R776, R676).
-/
namespace Sys2Proof.Machine

/-! ## Queue pairs and completion slots (R727, R756 to R760) -/

/-- No queue pair. -/
def qNone (_ : Nat) : QPair := {}
/-- Queue `q` of function `f`. -/
def State.qp (s : State) (f q : Nat) : QPair := Store.get qNone s.qps (f * 16 + q)
/-- Store it. -/
def State.setQp (s : State) (f q : Nat) (x : QPair) : State := { s with qps := Store.put qNone s.qps (f * 16 + q) x }
/-- An empty reserve. -/
def ovfNone (_ : Nat) : Ovf := {}
/-- The overflow reserve of a context. -/
def State.ov (s : State) (c : Nat) : Ovf := Store.get ovfNone s.ovf c
/-- Store it. -/
def State.setOv (s : State) (c : Nat) (x : Ovf) : State := { s with ovf := Store.put ovfNone s.ovf c x }
/-- Slots of a reserve that are free (R756). -/
def Ovf.free (o : Ovf) : Nat := 32768 - o.used - o.rsv
/-- An entry of the CQ is free (R756). -/
def QPair.cqFree (q : QPair) : Bool := decide (q.cqUsed + q.cqRsv < q.cqN)

/-- R760: refusal ends when 1,024 slots are free; the spill episode ends when none is in use. -/
def State.easeOvf (s : State) (c : Nat) : State :=
  let o := s.ov c
  s.setOv c { o with refusing := o.refusing && o.free < 1024, spillLogged := o.spillLogged && o.used != 0 }

/-- R759: the reserve has no free slot: the context refuses doorbells; reported once per episode. -/
def State.refuse (s : State) (c : Nat) : State :=
  let o := s.ov c
  if o.refusing then s else (s.setOv c { o with refusing := true }).raiseC 10 0 Ev.QUEUE_BACKPRESSURE none c

/-- R756: reserve a completion slot: a free CQ entry, or a slot of the overflow reserve (`true`). -/
def State.slot (s : State) (f q : Nat) : Option (State × Bool) :=
  let x := s.qp f q
  if x.cqFree then some (s.setQp f q { x with cqRsv := x.cqRsv + 1 }, false)
  else if 0 < (s.ov f).free then
    let s := s.setOv f { s.ov f with rsv := (s.ov f).rsv + 1 }
    some (if (s.ov f).free = 0 then s.refuse f else s, true)
  else none

/-! ## The link (R714, R715, R771, R1118) -/

/-- LINK_UP: the link trains at a rate code and width. -/
def execLinkUp (speed : Fin 7) (width : Fin 17) (flit : Bool) (s : State) : Host.Outcome State Fault Refusal :=
  .next <|
    if !((3 ≤ speed.val) && (width.val = 4 || width.val = 8 || width.val = 16)) || s.getB Reg.HIF_LINK_STS 11 || s.boot.perst || !s.boot.sampled || !s.tide.refclk then s
    else
      -- R1019 step 9, R1020, R1022, R1101: configuration-ready; the count starts within 1 ms of PWRGD_IN.
      let s := if s.getB Reg.BOOT_STS 4 then s
        else
          let (d, s) := s.nextDraw
          (s.setB Reg.BOOT_STS 4 true).setF Reg.BOOT_MS 0 16 (min 0xFFFF (s.now / 125000 + d.toNat % 2))
      let s := s.setReg Reg.HIF_LINK_STS (BitVec.ofNat 32 (speed + width * 16 + b2n (flit || speed.val = 6) * 512 + 2048))
      if speed.val = 6 && width.val = 16 then s else s.raise 10 0 Ev.HIF_LINK_DEGRADED none 255 255

/-- A job leaves without a completion. -/
def State.silence (s : State) (j : Nat) : State :=
  let jb := s.job j
  if jb.st = 3 then s.setJob j { jb with silent := true } else { s.setJob j {} with ends := s.ends.filter (· != j) }

/-- R771: the data link goes down. -/
def State.linkDown (s : State) : State :=
  if !s.getB Reg.HIF_LINK_STS 11 then s
  else
    let s := s.setReg Reg.HIF_LINK_STS 0
    let s := (s.jobs.filter fun e => e.2.st != 0 && e.2.opc = 1).foldl (fun s e => s.silence e.1) s
    let s := { s with jobs := s.jobs.map fun (e : Nat × Job) => (e.1, { e.2 with silent := true }) }
    let s := { (s.unbind fun _ _ => true) with qps := [], ovf := [] }
    s.raise 10 0 Ev.HIF_LINK_DOWN none 255 255

/-- HIF_LINK_DOWN. -/
def execHifLinkDown (s : State) : Host.Outcome State Fault Refusal := .next s.linkDown

/-! ## Doorbells (R721, R722, R758, R759, R766) -/

/-- The doorbells of a context refuse (R664, R692). -/
def State.shut (s : State) (c : Nat) : Bool := s.ctxSt c = 0 || s.ctxSt c = 3

/-- SQ_TAIL. -/
def execSqTail (f : Ctx) (q : Fin 16) (v : Fin 4096) (s : State) : Host.Outcome State Fault Refusal :=
  .next <|
    let x := s.qp f q
    if !x.enabled || s.shut f then s
    else if (s.ov f).refusing || (s.ov f).free = 0 then s.refuse f
    else if x.sqN ≤ v || (v + x.sqN - x.head) % x.sqN < (x.tail + x.sqN - x.head) % x.sqN then s.setQp f q { x with err := 10 }
    else s.setQp f q { x with tail := v }

/-- R738, R757: write an entry of 28 bytes at the CQ's tail. -/
def State.writeCq (s : State) (f q : Nat) (e : List Byte) (spilled : Bool) : State :=
  let x := s.qp f q
  let b := patchAt (padTo 28 e) 5 [BitVec.ofNat 8 (b2n x.phase + 2 * b2n spilled)]
  let b := b ++ leBytes (crc32c b).toNat 4
  let last := x.cqTail + 1 = x.cqN
  let s := s.setQp f q { x with cqTail := if last then 0 else x.cqTail + 1, phase := if last then !x.phase else x.phase, cqUsed := x.cqUsed + 1 }
  s.emit (.hostWrite f (x.cqBase + 32 * x.cqTail) b false)

/-- R724: signal the queue's vector. -/
def State.irqOf (s : State) (f q : Nat) (wants : Bool) : State :=
  let x := s.qp f q
  if x.irqEn && (x.irqAll || wants) then s.emit (.msix f x.vec) else s

/-- R758: spilled completions move into free CQ entries, oldest first. -/
def State.drain (s : State) (f q : Nat) : Nat → State
  | 0 => s
  | n + 1 =>
    let x := s.qp f q
    match x.spilled with
    | [] => s
    | e :: es =>
      if !x.cqFree then s
      else
        let s := s.setQp f q { x with spilled := es }
        let s := (s.writeCq f q (e.take 28) true).irqOf f q (e.length = 29)
        ((s.setOv f { s.ov f with used := (s.ov f).used - 1 }).easeOvf f).drain f q n

/-- CQ_HEAD. -/
def execCqHead (f : Ctx) (q : Fin 16) (v : Fin 4096) (s : State) : Host.Outcome State Fault Refusal :=
  .next <|
    let x := s.qp f q
    if !x.enabled || s.shut f then s
    else
      let n := (v + x.cqN - x.cqHead) % x.cqN
      if x.cqN ≤ v || x.cqUsed < n then s.setQp f q { x with err := 10 }
      else (s.setQp f q { x with cqHead := v, cqUsed := x.cqUsed - n }).drain f q n

/-! ## Submission entries (R731 to R735, R756, R767) -/

/-- A queue has an entry to fetch, and a completion slot for it. -/
def State.canFetch (s : State) (f q : Nat) : Bool :=
  let x := s.qp f q
  x.enabled && !x.draining && x.head != x.tail && !s.shut f && (x.cqFree || 0 < (s.ov f).free)

/-- R731: the queue served next, in round-robin order of contexts and of queues within one. -/
def State.nextQueue (s : State) : Option (Nat × Nat) :=
  (List.range 64).findSome? fun i =>
    let f := (s.rrCtx + 1 + i) % 64
    ((List.range 16).find? fun k => s.canFetch f ((Store.get flagZero s.rrQ f + k) % 16)).map fun k => (f, (Store.get flagZero s.rrQ f + k) % 16)

/-- The fields of an entry (R732). -/
def parseEntry (f q sqhd : Nat) (ovf : Bool) (b : List Byte) : Job :=
  let m := leAt b 1 1
  { st := 1, fn := f, queue := q, cid := leAt b 2 2, opc := leAt b 0 1, plan := leAt b 4 4, inMode := nfld m 0 2, outMode := nfld m 2 2
    early := nfld m 4 1 = 1, irq := nfld m 5 1 = 1, fast := nfld m 6 1 = 1, inAddr := leAt b 8 8, outAddr := leAt b 16 8, inLen := leAt b 24 4
    outLen := leAt b 28 4, earliest := leAt b 32 8, arg := leAt b 40 4, arg2 := leAt b 44 4, sqhd := sqhd, slotOvf := ovf }

/-- CHK of an entry matches (R734). -/
def entryOk (b : List Byte) : Bool := leAt b 60 4 = (crc32c (b.take 60)).toNat

/-- R734: an entry whose CHK fails. -/
def State.entryCheck (s : State) (j : Nat) : State :=
  ((s.incSat Reg.HIF_ENTRY_CHK_CNT 1).raiseC 10 0 Ev.HIF_ENTRY_CHECK none (s.job j).fn).endJob j 4

/-- A new job. -/
def State.newJob (s : State) (jb : Job) : Nat × State := (s.nextJob, { s with nextJob := s.nextJob + 1 }.setJob s.nextJob jb)

/-- ENTRY_FETCH: `bytes` of the entry as read; `ok`: the read succeeds. -/
def execEntryFetch (bytes : List Byte) (ok : Bool) (s : State) : Host.Outcome State Fault Refusal :=
  .next <|
    match s.nextQueue with
    | none => s
    | some (f, q) =>
      match s.slot f q with
      | none => s
      | some (s, ovf) =>
        let x := s.qp f q
        let head := if x.head + 1 = x.sqN then 0 else x.head + 1
        let s := s.setQp f q { x with head := head }
        let s := { s with rrCtx := f, rrQ := Store.put flagZero s.rrQ f ((q + 1) % 16) }
        let b := if ok then padTo 64 bytes else []
        let (j, s) := s.newJob { parseEntry f q head ovf b with fast := false }
        if !ok then (s.dmaErr f).endJob j 10
        else if !entryOk b then s.entryCheck j
        else if leAt b 0 1 = 0 || 6 < leAt b 0 1 then s.endJob j 12
        else s

/-! ## Creating and deleting pairs (R728 to R730, R750, R751) -/

/-- The bank that a requester reaches (R728); `via`: the PF's separate path to the bank of HIF_CTL.BANK. -/
def State.qBank (s : State) (rq : Requester) (via : Bool) : Option Nat :=
  match rq with
  | .fn f => some (if f.val = 0 && via then s.getF Reg.HIF_CTL 8 6 else f)
  | .causeway => some (s.getF Reg.HIF_CTL 8 6)
  | _ => none

/-- A banked register of a function. -/
def bankReg (f a : Nat) : Nat := 0x10000000 + 0x1000 * f + a % 0x1000

/-- R750, R751: why a fast binding is refused. -/
def State.fastErr (s : State) (f q h : Nat) : Option Nat :=
  let p := s.plan h
  let isl := s.repIsl p ((s.activeReps p).headD 0) (p.f 16 1)
  if !p.live || p.ctx != f || 4096 < p.inLines * 64 then some 5
  else
    let l := Store.get (fun _ => ({} : Landing)) s.landing isl
    if l.bound && !(l.fn = f && l.queue = q) then some 6
    else if (s.planIslands p).any fun i => 256 < s.leasedOn i + (s.armEms p i).length then some 7
    else none

/-- R749 to R751: bind a queue to a plan: landing buffer, armed counts, armed tickets. -/
def State.bindFast (s : State) (f q h : Nat) : State :=
  let p := s.plan h
  let isl := s.repIsl p ((s.activeReps p).headD 0) (p.f 16 1)
  let armed := (s.planIslands p).foldl (fun m i => Store.put (fun _ => 0) m i (s.armEms p i).length) []
  let s := s.setPlan h { p with bound := true, armed := armed }
  let s := { s with landing := Store.put (fun _ => {}) s.landing isl { bound := true, fn := f, queue := q } }
  let s := s.setQp f q { s.qp f q with flBound := true, flIsl := isl }
  s.arm h

/-- R729: why CREATE of a pair is refused. -/
def State.pairErr (s : State) (f : Nat) : Option Nat :=
  let r (a : Nat) := s.reg (bankReg f a)
  let q := fld (r Reg.HIF_Q_SEL) 0 4
  let size := r Reg.HIF_Q_SIZE
  let ctl := r Reg.HIF_Q_CTL
  let bad (n : Nat) : Bool := n < 2 || 4096 < n
  if (s.qp f q).enabled then some 1
  else if fld (r Reg.HIF_SQ_BASE_LO) 0 12 != 0 || fld (r Reg.HIF_CQ_BASE_LO) 0 12 != 0 then some 2
  else if bad (fld size 0 13) || bad (fld size 16 13) then some 3
  else if 16 ≤ fld ctl 4 5 then some 4
  else if s.ctxSt f != 2 then some 9
  else if bit ctl 0 then s.fastErr f q (r Reg.HIF_Q_PLAN).toNat
  else none

/-- CREATE of the pair that a bank selects. -/
def State.createPair (s : State) (f : Nat) : State :=
  let r (a : Nat) := s.reg (bankReg f a)
  let q := fld (r Reg.HIF_Q_SEL) 0 4
  match s.pairErr f with
  | some e => s.setQp f q { s.qp f q with err := e }
  | none =>
    let ctl := r Reg.HIF_Q_CTL
    let s' := s.setQp f q
      { enabled := true, sqBase := (r Reg.HIF_SQ_BASE_LO).toNat + (r Reg.HIF_SQ_BASE_HI).toNat * 2 ^ 32
        cqBase := (r Reg.HIF_CQ_BASE_LO).toNat + (r Reg.HIF_CQ_BASE_HI).toNat * 2 ^ 32, sqN := fld (r Reg.HIF_Q_SIZE) 0 13
        cqN := fld (r Reg.HIF_Q_SIZE) 16 13, vec := fld ctl 4 5, irqEn := bit ctl 1, irqAll := bit ctl 2, fast := bit ctl 0
        planH := (r Reg.HIF_Q_PLAN).toNat }
    if bit ctl 0 then s'.bindFast f q (r Reg.HIF_Q_PLAN).toNat else s'

/-- Q_CREATE: Q_CMD.OP 1. -/
def execQCreate (rq : Requester) (via : Bool) (s : State) : Host.Outcome State Fault Refusal :=
  .next (s.orHeld rq via Reg.HIF_Q_CMD 1 {} fun s =>
    match s.qBank rq via with | some f => s.createPair f | none => s)

/-- Jobs of a pair that have not completed. -/
def State.pairJobs (s : State) (f q : Nat) : Bool := s.jobs.any fun e => e.2.fn = f && e.2.queue = q && e.2.st != 0

/-- A pair and its binding are gone (R730). -/
def State.deletePair (s : State) (f q : Nat) : State :=
  let x := s.qp f q
  let s := if x.flBound then
      let s := s.mapTk (fun _ t => t.job = armedJob x.planH) fun t => { t with state := 5 }
      (s.unbind fun _ l => l.fn = f && l.queue = q).setPlan x.planH { s.plan x.planH with bound := false, armed := [] }
    else s
  let s := s.setOv f { s.ov f with used := (s.ov f).used - x.spilled.length }
  (s.setQp f q {}).easeOvf f

/-- R730: a pair that drains is deleted once its jobs have completed. -/
def State.checkDrain (s : State) (f q : Nat) : State := if (s.qp f q).draining && !s.pairJobs f q then s.deletePair f q else s

/-- Q_DELETE: Q_CMD.OP 2. -/
def execQDelete (rq : Requester) (via : Bool) (s : State) : Host.Outcome State Fault Refusal :=
  .next <| s.orHeld rq via Reg.HIF_Q_CMD 2 {} fun s =>
    match s.qBank rq via with
    | none => s
    | some f =>
      let q := fld (s.reg (bankReg f Reg.HIF_Q_SEL)) 0 4
      let x := s.qp f q
      if !x.enabled then s.setQp f q { x with err := 1 } else (s.setQp f q { x with draining := true }).checkDrain f q

/-! ## Inputs (R740 to R743, R765, R864) -/

/-- The check word of a block (R740). -/
def blockWord (b : List Byte) : Word := crc32c (padTo 4096 b)

/-- Lines of the input rows on an input island. -/
def Plan.inSpan (p : Plan) (isl : Nat) : Span := (isl, p.f 18 2, p.inLines)

/-- R753, R755: no ticket of a step of the plan still reads the input rows of island `isl`: live, or still to be issued. -/
def State.inputsRead (s : State) (h isl : Nat) : Bool :=
  let p := s.plan h
  let sp := [p.inSpan isl]
  !(s.tickets.any fun e => e.2.plan = h && e.2.job != armedJob h && e.2.state != 5 && overlaps (s.reads e.1 e.2 ++ moveReads e.1 e.2) sp)
    && !((s.jobs.filter fun e => e.2.plan = h && e.2.st = 3 && !e.2.failed).any fun e =>
      (s.earlier e.1 isl (2 ^ 40)).any fun m =>
        let t := s.mkTicket h e.1 isl m 0
        overlaps (s.reads (isl * 256) t ++ moveReads (isl * 256) t) sp)

/-- The input islands of a plan, one for each active replica (R864). -/
def State.inIslands (s : State) (p : Plan) : List Nat := (s.activeReps p).map fun k => s.repIsl p k (p.f 16 1)

/-- Output comparison is on for a plan (R867). -/
def State.outCmp (s : State) (p : Plan) : Bool := 1 < s.rcnt p && bit (s.rplCfg p) 3

/-- The job's inputs may be placed: the gate of its context is open, no earlier job of its plan waits with inputs, and the plan's step in
progress has read its own (with output comparison, has been compared). -/
def State.mayPlace (s : State) (j : Nat) : Bool :=
  let jb := s.job j
  let p := s.plan jb.plan
  !s.gateShut jb.fn
    && !(s.jobs.any fun e => e.1 < j && e.2.plan = jb.plan && e.2.opc = 1 && (e.2.st = 2 || (e.2.st = 1 && e.2.taken)))
    && (if s.outCmp p then !(s.jobs.any fun e => e.2.plan = jb.plan && (e.2.st = 3 || (e.2.st = 4 && !e.2.compared)))
        else (s.inIslands p).all fun i => s.inputsRead jb.plan i)

/-- Write input bytes from an offset of the input rows, on every input island. R671: a foreign line ends the job. -/
def State.placeRows (s : State) (j off : Nat) (bs : List Byte) : State :=
  let jb := s.job j
  let p := s.plan jb.plan
  let (s, bad) := (s.inIslands p).foldl (fun (x : State × Bool) isl =>
    let (s, f) := x.1.writeBytes isl p.ctx (64 * p.f 18 2 + off) bs false
    (s.noteForeign isl p.ctx f, x.2 || !f.isEmpty)) (s, false)
  if bad then s.endJob j 13 else s

/-- R742: an input block that fails its check word. -/
def State.dataCheck (s : State) (j : Nat) : State :=
  ((s.incSat Reg.HIF_DATA_CHK_CNT 1).raiseC 10 0 Ev.HIF_DATA_CHECK none (s.job j).fn).endJob j 5

/-- INPUT_BLOCK_ARRIVAL: the next 4 KiB block of a job's input, with its check word; `ok`: the read succeeds, without a poisoned TLP. -/
def execInputBlockArrival (j : Nat) (data : List Byte) (word : Word) (ok : Bool) (s : State) : Host.Outcome State Fault Refusal :=
  .next <|
    let jb := s.job j
    if jb.st != 1 || !jb.taken || jb.opc != 1 || jb.fast || !(jb.inMode = 0 || jb.inMode = 2) || !(if jb.inMode = 0 then s.mayPlace j else !s.gateShut jb.fn) then s
    else
      let n := min 4096 (jb.inLen - jb.got)
      let b := padTo n data
      if !ok then (s.dmaErr jb.fn).endJob j 10
      else if blockWord b != word then s.dataCheck j
      else
        let s := if jb.inMode = 0 then s.placeRows j jb.got b else s.putWindow jb.fn (jb.arg + jb.got / 4096) b
        let jb := s.job j
        if jb.st != 1 then s
        else
          let got := jb.got + n
          s.setJob j { jb with got := got, st := if got = jb.inLen then 2 else 1, inTick := s.now }

/-! ## The fast lane (R749 to R754, R773, R774) -/

/-- The landing buffer of a queue. -/
def State.landOf (s : State) (f q : Nat) : Option (Nat × Landing) := s.landing.find? fun e => e.2.bound && e.2.fn = f && e.2.queue = q

/-- Store a landing buffer. -/
def State.setLand (s : State) (isl : Nat) (l : Landing) : State := { s with landing := Store.put (fun _ => {}) s.landing isl l }

/-- PUSH_PAYLOAD_WRITE: bytes at an offset of the payload area of a push window. -/
def execPushPayloadWrite (f : Ctx) (q : Fin 16) (off : Fin 4096) (bytes : List Byte) (s : State) : Host.Outcome State Fault Refusal :=
  .next <|
    match s.landOf f q with
    | none => s
    | some (isl, l) =>
      if !s.getB Reg.HIF_CTL 0 || s.shut f || l.job != 0 then s
      else
        let m := (List.range bytes.length).foldl (fun (m : Store Nat) (i : Nat) =>
          if off.val + i < 4096 then Store.put flagZero m (off.val + i) (bytes.getD i 0).toNat else m) l.bytes
        s.setLand isl { l with bytes := m }

/-- The first `n` bytes of a landing buffer. -/
def Landing.data (l : Landing) (n : Nat) : List Byte := tabulate n fun i => BitVec.ofNat 8 (Store.get flagZero l.bytes i)

/-- R754: a push is discarded because the buffer holds an uncommitted payload. -/
def State.fastBusy (s : State) (f : Nat) : State := s.raiseC 10 0 Ev.HIF_FAST_BUSY none f

/-- FAST_ENTRY: the 64-byte entry of a push window. -/
def execFastEntry (f : Ctx) (q : Fin 16) (bytes : List Byte) (s : State) : Host.Outcome State Fault Refusal :=
  .next <|
    let x := s.qp f q
    if !s.getB Reg.HIF_CTL 0 || !x.enabled || !x.fast || x.draining || s.shut f then s
    else match s.slot f q with
      | none => s.fastBusy f
      | some (s, ovf) =>
        let b := padTo 64 bytes
        let (j, s) := s.newJob { parseEntry f q (s.qp f q).head ovf b with fast := true, taken := true }
        let jb := s.job j
        if !entryOk b then s.entryCheck j
        else match s.landOf f q with
          | none => s.endJob j 8
          | some (isl, l) =>
            if l.job != 0 then (s.fastBusy f).endJob j 14
            else
              let drop := s.setLand isl { l with bytes := [] }
              let d := l.data jb.inLen
              if jb.opc != 1 then drop.endJob j 12
              else if jb.plan != x.planH || !s.ownPlan j then drop.endJob j 8
              else if jb.inMode != 0 || 4096 < jb.inLen || s.badShape jb (s.plan jb.plan) then drop.endJob j 7
              else if (blockWord d).toNat != jb.arg then drop.dataCheck j
              else s.setLand isl { l with job := j }

/-- FAST_COMMIT: once earlier readers have acknowledged and the gate admits, the buffer is copied and the origin is bound under R743. -/
def execFastCommit (isl : Isl) (s : State) : Host.Outcome State Fault Refusal :=
  .next <|
    let l := Store.get (fun _ => ({} : Landing)) s.landing isl
    let jb := s.job l.job
    if l.job = 0 || jb.st != 1 then s
    else if !s.mayPlace l.job then
      if l.waited then s else (s.setLand isl { l with waited := true }).incSat Reg.HIF_FL_WAIT_CNT 1
    else
      let d := l.data jb.inLen
      let s := (s.setLand isl { l with bytes := [], job := 0, waited := false }).placeRows l.job 0 d
      let jb := s.job l.job
      if jb.st != 1 then s else s.setJob l.job { jb with st := 2, inTick := s.now, payload := d, got := jb.inLen }

/-! ## Results (R744 to R748, R841, R846) -/

/-- RSTAT of a result row: that of its tail, whose place is that of the last ticket that writes the row; else the row's last line. -/
def State.rowStat (s : State) (p : Plan) (isl line pitch : Nat) : Nat :=
  let ems := (s.emissions p isl).filterMap fun e =>
    let t := s.mkTicket 0 0 isl e 0
    let t := if 1024 ≤ e.desc then t else
      let d := parseDesc (s.descBytes p isl e.desc)
      { t with rop := s.ropBytes p isl d.rop, fmt := d.fmt, extent := d.extent, mvmMode := d.mode }
    ((s.writes (isl * 256) { t with ctx := p.ctx }).find? fun w => w.1 = isl && w.2.1 = line).map fun w => (e.t, w.2.2)
  let n := (ems.foldl (fun (b : Nat × Nat) e => if b.1 ≤ e.1 then e else b) (0, pitch)).2
  leAt (s.readLine isl p.ctx (line + min n pitch - 1)).bytes 4 2

/-- R279: RSTAT of a result: the OR over its rows. -/
def State.resultStat (s : State) (p : Plan) (isl : Nat) : Nat :=
  (List.range (p.f 26 2)).foldl (fun a i => a ||| s.rowStat p isl (p.f 24 2 + i * p.f 28 2) (p.f 28 2)) 0

/-- The check array of a result (R740). -/
def checkArray (b : List Byte) : List Byte :=
  let w := (List.range ((b.length + 4095) / 4096)).flatMap fun i => leBytes (blockWord ((b.drop (4096 * i)).take 4096)).toNat 4
  w ++ List.replicate ((64 - w.length % 64) % 64) 0

/-- The data of a result: bytes, faults, poison. -/
def State.resultData (s : State) (jb : Job) (p : Plan) : BasinRead :=
  if jb.outMode = 0 then s.readLines jb.outIsl p.ctx (p.f 24 2) p.outLines
  else
    let blk (i : Nat) := s.winBlock jb.fn (jb.arg2 + i)
    let n := (jb.outLen + 4095) / 4096
    ⟨((List.range n).flatMap fun i => (blk i).elim (List.replicate 4096 0) fun b => s.hbBytes b 0 4096).take jb.outLen, [],
     (List.range n).any fun i => (blk i).elim false fun b => (List.range 64).any fun l => 4096 * i + 64 * l < jb.outLen && s.hbBad b l⟩

/-- RESULT_BLOCK_WRITE: after a step that did not fail, its result block is written. `wordOk`: the page words verify on egress (R841);
`linkOk`: the link takes the write (R767). -/
def execResultBlockWrite (j : Nat) (wordOk linkOk : Bool) (s : State) : Host.Outcome State Fault Refusal :=
  .next <|
    let jb := s.job j
    let p := s.plan jb.plan
    if jb.st != 4 || jb.failed || (s.outCmp p && !jb.compared) then s
    else
      let r := s.resultData jb p
      if !r.faults.isEmpty then (s.noteForeign jb.outIsl jb.fn r.faults).endJob j 13
      else if !wordOk then ((s.incSat (Reg.ISL_CHK_FAIL_CNT jb.outIsl) 1).raiseC 3 jb.outIsl Ev.ISL_CHK_FAIL none jb.fn).endJob j 13
      else if !linkOk then (s.dmaErr jb.fn).endJob j 10
      else
        let st := if jb.outMode = 0 then s.resultStat p jb.outIsl else 0
        let x := s.qp jb.fn jb.queue
        let jb := { jb with gen := x.gen + 1, rstat := st, poisoned := r.poison }
        let s := (s.setQp jb.fn jb.queue { x with gen := x.gen + 1 }).setJob j jb
        let s := if jb.silent then s
          else s.emit (.hostWrite jb.fn jb.outAddr
            (headLineOf jb jb.outLen st (jb.origin + jb.slip) ++ r.bytes ++ List.replicate ((64 - r.bytes.length % 64) % 64) 0
              ++ checkArray r.bytes ++ tailLineOf jb.gen) r.poison)
        s.endJob j (if r.poison then 6 else 0)

/-! ## Completions (R724, R736 to R739, R757, R758) -/

/-- R736: an entry's bytes 0 to 27, but for PHASE and SPILLED; one byte more tells that the entry asks for a signal. -/
def Job.entryBytes (jb : Job) : List Byte :=
  let run := jb.opc = 1 && jb.step != 0
  let pay := if jb.opc = 2 then padTo 16 jb.payload
    else if run then leBytes jb.gen 8 ++ [BitVec.ofNat 8 jb.slips, 0, 0, 0] ++ leBytes jb.endTick 4 else List.replicate 16 0
  padTo 28 (leBytes jb.cid 2 ++ leBytes (jb.sqhd % 4096) 2 ++ [BitVec.ofNat 8 jb.status, 0] ++ leBytes jb.rstat 2
    ++ leBytes (if run then jb.origin + jb.slip else 0) 4 ++ pay)

/-- The next completion of a job's queue is this job's (R739). -/
def State.nextEnd (s : State) (j : Nat) : Bool :=
  let jb := s.job j
  (s.ends.find? fun i => (s.job i).fn = jb.fn && (s.job i).queue = jb.queue) = some j

/-- A CQ entry is free for a job that ends: the one it reserved, or another (R757). -/
def State.entryFree (s : State) (j : Nat) : Bool :=
  let jb := s.job j
  let x := s.qp jb.fn jb.queue
  !jb.slotOvf || (x.cqFree && x.spilled.isEmpty)

/-- The job is over. -/
def State.finishJob (s : State) (j : Nat) : State :=
  let jb := s.job j
  let s := { s.setJob j {} with ends := s.ends.filter (· != j) }
  (s.add64 Reg.HIF_JOBS_LO Reg.HIF_JOBS_HI 1).checkDrain jb.fn jb.queue

/-- Add a completion to the overflow reserve. -/
def State.spill (s : State) (f q : Nat) (e : List Byte) : State :=
  let x := s.qp f q
  let s := s.setQp f q { x with spilled := x.spilled ++ [e] }
  let o := s.ov f
  let s := s.setOv f { o with used := o.used + 1, spillLogged := true }
  if o.spillLogged then s else s.raiseC 10 0 Ev.HIF_OVF_SPILL none f

/-- COMPLETION_WRITE: the completion of an ended job goes to its CQ; where older ones of the queue are spilled, the oldest takes the entry and this one its
slot (R758). A job whose completion is discarded (R769, R771) just leaves. -/
def execCompletionWrite (j : Nat) (s : State) : Host.Outcome State Fault Refusal :=
  .next <|
    let jb := s.job j
    if jb.st != 5 || !s.nextEnd j then s
    else if jb.silent || !(s.qp jb.fn jb.queue).enabled then { s.setJob j {} with ends := s.ends.filter (· != j) }.checkDrain jb.fn jb.queue
    else if !s.entryFree j then s
    else
      let e := jb.entryBytes
      let x := s.qp jb.fn jb.queue
      let s := if jb.slotOvf then (s.setOv jb.fn { s.ov jb.fn with rsv := (s.ov jb.fn).rsv - 1 }).easeOvf jb.fn
        else s.setQp jb.fn jb.queue { x with cqRsv := x.cqRsv - 1 }
      let s := match x.spilled with
        | [] => (s.writeCq jb.fn jb.queue e false).irqOf jb.fn jb.queue jb.irq
        | o :: os =>
          let y := s.qp jb.fn jb.queue
          let s := s.setQp jb.fn jb.queue { y with spilled := os ++ [if jb.irq then e ++ [1] else e] }
          (s.writeCq jb.fn jb.queue (o.take 28) true).irqOf jb.fn jb.queue (o.length = 29)
      s.finishJob j

/-- OVERFLOW_WRITE (R757): the completion of an ended job finds no free CQ entry. -/
def execOverflowWrite (j : Nat) (s : State) : Host.Outcome State Fault Refusal :=
  .next <|
    let jb := s.job j
    if jb.st != 5 || !s.nextEnd j || jb.silent || !(s.qp jb.fn jb.queue).enabled || s.entryFree j then s
    else
      let s := s.setOv jb.fn { s.ov jb.fn with rsv := (s.ov jb.fn).rsv - 1 }
      (s.spill jb.fn jb.queue (if jb.irq then jb.entryBytes ++ [1] else jb.entryBytes)).finishJob j

/-- HIF_DMA_ERR (R767): a host-memory read for a job's input, or the write of its result, fails. -/
def execHifDmaErr (j : Nat) (s : State) : Host.Outcome State Fault Refusal :=
  .next <|
    let jb := s.job j
    if (jb.st = 1 && (jb.inMode != 1 || jb.opc != 1)) || (jb.st = 4 && !jb.failed) then (s.dmaErr jb.fn).endJob j 10 else s

/-! ## Function-level reset and BAR2 (R675, R676, R769) -/

/-- R769: queues and bindings go at once, jobs end without completions; the rest is a context recovery. -/
def State.flr (s : State) (f : Nat) : State :=
  let s := (s.jobs.filter fun e => e.2.fn = f).foldl (fun s e => s.silence e.1) s
  let s := (s.qps.filter fun e => e.1 / 16 = f).foldl (fun s e => s.deletePair f (e.1 % 16)) s
  let s := s.dropQueues f
  let s := { s with regs := s.regs.filter fun e => !(e.1 / 0x1000 = 0x10000 + f), spdm := Store.put (fun _ => {}) s.spdm f {} }
  if s.shut f then s else s.startRung 1 f 2

/-- FLR. -/
def execFlr (f : Ctx) (s : State) : Host.Outcome State Fault Refusal :=
  .next <|
    -- R966: during a partition or chip rung that covers the context it waits for the rung's end.
    if s.rungs.any fun r => !r.held && (r.kind = 4 || (r.kind = 3 && s.ctxPart f = r.target)) then
      { s with flrs := if s.flrs.contains f.val then s.flrs else s.flrs ++ [f.val] }
    else s.flr f

/-- Write bytes at a byte offset of a window, through DATA positions only (R578, R675). -/
def State.bar2Put (s : State) (c a : Nat) (bs : List Byte) : Nat → State
  | 0 => s
  | n + 1 =>
    if bs.isEmpty then s
    else
      let k := 4096 - a % 4096
      let e := Store.get winNone (s.cx c).win (a / 2097152)
      let s := if e.backed && e.ty = 1 && a / 2097152 < (s.cx c).winFrames then
          match s.winBlock c (a / 4096) with
          | some b => s.hbWrite b (a % 4096) (bs.take k) false 66
          | none => s
        else s
      s.bar2Put c (a + k) (bs.drop k) n

/-- BAR2_WRITE (R676, R692): a host write through BAR2; discarded where the context is closing or the position unbacked or not DATA. -/
def execBar2Write (f : Ctx) (a : Nat) (bytes : List Byte) (s : State) : Host.Outcome State Fault Refusal :=
  .next (if s.shut f then s else s.bar2Put f a bytes (bytes.length / 4096 + 2))

/-! ## What reads compute (R762) -/

/-- Q_STS as read. -/
def State.qSts (s : State) (f q : Nat) : Word :=
  let x := s.qp f q
  BitVec.ofNat 32 (b2n x.enabled + 2 * b2n (s.ov f).refusing + 4 * b2n x.flBound + 8 * b2n x.draining + 256 * x.err
    + (if x.flBound then x.flIsl % 64 * 65536 else 0))

/-- Q_PTRS as read. -/
def State.qPtrs (s : State) (f q : Nat) : Word :=
  let x := s.qp f q
  BitVec.ofNat 32 (x.head % 4096 + x.cqTail % 4096 * 65536 + b2n (x.enabled && x.phase) * 2 ^ 28)

/-- FL_BINDi as read. -/
def State.flBind (s : State) (isl : Nat) : Word :=
  let l := Store.get (fun _ => ({} : Landing)) s.landing isl
  if l.bound then BitVec.ofNat 32 (l.fn + l.queue * 64 + 2 ^ 31) else 0

/-- OVF_USEc as read. -/
def State.ovfUse (s : State) (c : Nat) : Word := BitVec.ofNat 32 ((s.ov c).used + b2n (s.ov c).refusing * 65536)

/-- HIF_STS as read. -/
def State.hifSts (s : State) : Word :=
  BitVec.ofNat 32 ((s.landing.filter fun e => e.2.bound).length + 256 * (s.ovf.filter fun e => e.2.refusing).length)

/-- REFUSE_LO or HI as read. -/
def State.refuseWord (s : State) (hi : Bool) : Word :=
  BitVec.ofNat 32 ((s.ovf.filter fun e => e.2.refusing && (hi = decide (32 ≤ e.1))).foldl (fun a e => a + 2 ^ (e.1 % 32)) 0)

end Sys2Proof.Machine
end

