-- ==== Sys2Proof/Machine/Leases.lean ====
section
/-!
DEFINITION. Renewal, expiry and loss of leases (R802 to R805, R831, R945 to R949, R573).
-/
namespace Sys2Proof.Machine

/-- The leases a renewal names: a plan's ticket blocks and sluice reservation together (R945), else the one of a resource and unit. -/
def leaseNamed (res unit plan : Nat) (l : Lease) : Bool :=
  if res = 2 || res = 3 then (l.res = 2 || l.res = 3) && l.plan = plan && l.kind = 1 else l.res = res && l.unit = unit

/-- LEASE_RENEW (R805, R831, R945): only plan leases and the flash-access lease are renewable; at its expiry edge or later a renewal is
refused and changes nothing. -/
def execLeaseRenew (res : Fin 7) (unit plan : Nat) (s : State) : Host.Outcome State Fault Refusal :=
  .next <|
    if res.val = 2 || res.val = 3 || res.val = 6 then
      { s with leases := s.leases.map fun (l : Lease) =>
          if leaseNamed res unit plan l && decide (s.now < l.expiry) then { l with expiry := s.now + 2 ^ 23 } else l }
    else s

/-- R945: what the revocation of a lease does to its resource and its holder. -/
def State.onRevoke (s : State) (l : Lease) : State :=
  match l.res with
  | 1 =>
    match s.tickets.find? fun e => e.1 / 256 = l.unit / 4 && e.2.uclass = 2 && e.2.uindex = l.unit % 4 && (e.2.state = 3 || e.2.state = 4) with
    | none => s
    | some (k, t) => ((s.failStep t.job 13 4 (k / 256) (k % 256)).freeTk k).checkEnd t.job
  | 2 => s.unload l.plan
  | 3 => s.unload l.plan
  | 5 => ((s.setSlot l.owner false).installFail l.owner 10).startTeardown l.owner 5
  | 6 =>
    match s.flashq with
    | [] => s
    | w :: _ => ({ s.flashTear w with torn := s.torn ++ [w] } : State).flashNext
  | _ => s

/-- A lease is revoked, with what follows (R945, R946, R949). -/
def State.revokeLease (s : State) (l : Lease) : State :=
  if l.res = 4 then s.dynRevoke l.unit else (s.loseLease l).onRevoke l

/-! ## Pilots (R930, R931) -/

/-- PIL_STS.STATE of a pilot: 0 held in reset, 1 running, 2 halted by debug, 3 restarting. -/
def State.pilSt (s : State) (n : Nat) : Nat := s.getF (Reg.PIL_STS n) 0 2

/-- Sessions close, their subscriptions with them (R977): CSW_SESSION (log entry 6). -/
def State.dropSessions (s : State) (p : Session → Bool) : State :=
  (s.sessions.filter p).foldl (fun s _ => s.raise 11 0 Ev.CSW_SESSION none 255 255) { s with sessions := s.sessions.filter fun x => !p x }

/-- R910: every test in progress ends without a result. -/
def State.abortTests (s : State) (p : Nat → Bool) : State :=
  (s.tests.filter fun e => e.2.held && p (e.1 / 32)).foldl (fun s e => s.testAbort (e.1 / 32) (e.1 % 32) false) s

/-- R931 steps 1 and 2: a pilot is held, its leases are revoked, its work meets the effects that the rule lists; it restarts under PIL_RESTART. A halted
pilot's reset waits (R1080). -/
def State.pilotReset (s : State) (n cause : Nat) : State :=
  if s.pilSt n != 1 then s
  else
    let s := ((s.setF (Reg.PIL_STS n) 0 2 3).incSat (Reg.PIL_RST_CNT n) 1).setF (Reg.PIL_LAST_RST n) 0 3 cause
    let s := (s.leases.filter fun l => l.kind = 2 && l.owner = n).foldl (fun s l => s.revokeLease l) s
    if n = 1 then s.dropSessions fun _ => true
    else if n = 3 then (s.calAbortRun 6).abortTests fun _ => true
    else s

/-- R948: the holder of a lease that P4 waited for is reset: a pilot, a context's recovery, the causeway's sessions. Not while the holder or P4 is halted
(R1070, R1071). -/
def State.holderReset (s : State) (l : Lease) : State :=
  if s.pilSt 4 = 2 then s
  else if l.kind = 1 then s.startRung 1 l.owner 10
  else if l.kind = 2 then s.pilotReset l.owner 2
  else s.dropSessions fun _ => true

/-- LEASE_EXPIRY (R803, R945, R947): a lease that has reached its expiry tick is revoked. `needed`: P4 waits for the resource (R947) and resets the
holder. -/
def execLeaseExpiry (res : Fin 7) (unit plan : Nat) (needed : Bool) (s : State) : Host.Outcome State Fault Refusal :=
  .next <|
    match s.leases.find? fun l => l.res = res.val && l.unit = unit && l.plan = plan && decide (l.expiry ≤ s.now) with
    | none => s
    | some l => if needed then (s.revokeLease l).holderReset l else s.revokeLease l

/-- R1051: the command of a flash write that was cut short, or that the flash failed, ends with its error. -/
def State.flashFailed (s : State) (w : FlashWrite) : State :=
  match w.kind with
  | 1 => ((s.setF Reg.BOOT_FW_STS 0 2 0).setF Reg.BOOT_FW_STS 4 4 4).raise 16 0 Ev.BOOT_FW_REJECT none 255 255
  | 2 => (s.setF Reg.BOOT_PROF_STS 0 2 0).setF Reg.BOOT_PROF_STS 4 4 5
  | 3 => (s.setF Reg.BOOT_PROF_STS 0 2 0).setF Reg.BOOT_PROF_STS 4 4 5
  | 4 => ((s.setB Reg.CAL_SNAP_STS 17 false).setB Reg.CAL_SNAP_STS 18 true).raise 13 0 Ev.CAL_SNAP_FAIL none 255 255
  | 5 => s.keysWritten w false
  | _ => s

/-- LEASE_LOST (R805, R949): the next access of a revoked holder under its lease fails. -/
def execLeaseLost (res : Fin 7) (unit plan : Nat) (s : State) : Host.Outcome State Fault Refusal :=
  .next <|
    match s.lost.find? fun l => l.res = res.val && l.unit = unit && l.plan = plan with
    | none => s
    | some l =>
      let s := { s with lost := s.lost.erase l }
      let s := if l.kind = 1 then s.raiseC 15 0 Ev.LEASE_LOST none l.owner else s.raise 15 0 Ev.LEASE_LOST none 255 255
      match s.torn with
      | [] => s
      | w :: ws => if l.res = 6 then ({ s with torn := ws } : State).flashFailed w else s

end Sys2Proof.Machine
end

