-- ==== Sys2Proof/Machine/Spdm.lean ====
section
/-!
DEFINITION. The SPDM 1.2 responder that every function has, and the key messages of the IDE option (R687, R688, R725).
Response and error codes are those of SPDM 1.2 (log entry 25).
-/
namespace Sys2Proof.Machine

/-- A fresh responder. -/
def spdmNone (_ : Nat) : SpdmX := {}
/-- The responder of a function. -/
def State.spdmOf (s : State) (f : Nat) : SpdmX := Store.get spdmNone s.spdm f
/-- Store it. -/
def State.setSpdm (s : State) (f : Nat) (x : SpdmX) : State := { s with spdm := Store.put spdmNone s.spdm f x }

/-- An SPDM ERROR response: 1 InvalidRequest, 2 InvalidSession, 4 UnexpectedRequest, 6 DecryptError, 7 UnsupportedRequest. -/
def State.spdmError (s : State) (e : Nat) : State := s.emit (.spdm 0x7F [BitVec.ofNat 8 e])

/-- `n` bytes for which the spec gives no content: free bytes. -/
def State.freeBytes (s : State) (n : Nat) : List Byte × State :=
  (tabulate n (Config.cryptoByte (0x3000000 + s.draws)), { s with draws := s.draws + 1 })

/-- Answer with free bytes. -/
def State.spdmFree (s : State) (code n : Nat) (head : List Byte) : State :=
  let (b, s) := s.freeBytes n
  s.emit (.spdm code (head ++ b))

/-- A digest as 48 bytes. -/
def digest (b : List Byte) : List Byte := tabulate 48 (Config.sha384 b)

/-- R686: the certificate chain in the flash; its first two bytes give its length. -/
def State.certChain (s : State) : List Byte := s.flashBytes 0x1200000 (leAt (s.flashBytes 0x1200000 2) 0 2)

/-- GET_VERSION: version 1.2 only. -/
def execGetVersion (f : Ctx) (s : State) : Host.Outcome State Fault Refusal :=
  .next ((s.setSpdm f { stage := 1 }).emit (.spdm 0x04 [0x12]))

/-- GET_CAPABILITIES. -/
def execGetCapabilities (f : Ctx) (s : State) : Host.Outcome State Fault Refusal :=
  .next <|
    let x := s.spdmOf f
    if x.stage = 0 then s.spdmError 4 else (s.setSpdm f { x with stage := max 2 x.stage }).spdmFree 0x61 16 []

/-- NEGOTIATE_ALGORITHMS: `offered`: the requester offers ECDSA P-384 and SHA-384, which are selected. -/
def execNegotiateAlgorithms (f : Ctx) (offered : Bool) (s : State) : Host.Outcome State Fault Refusal :=
  .next <|
    let x := s.spdmOf f
    if x.stage < 2 then s.spdmError 4
    else if !offered then s.spdmError 1
    else (s.setSpdm f { x with stage := 3 }).emit (.spdm 0x63 [0x80, 0x02])

/-- Answer once algorithms have been negotiated. -/
def State.afterAlgs (s : State) (f : Nat) (g : State → State) : State := if (s.spdmOf f).stage < 3 then s.spdmError 4 else g s

/-- GET_DIGESTS: slot 0. -/
def execGetDigests (f : Ctx) (s : State) : Host.Outcome State Fault Refusal :=
  .next (s.afterAlgs f fun s => s.emit (.spdm 0x01 (1 :: digest s.certChain)))

/-- GET_CERTIFICATE: a portion of the chain; slot 0 only. -/
def execGetCertificate (f : Ctx) (slot : Fin 8) (off len : Fin 65536) (s : State) : Host.Outcome State Fault Refusal :=
  .next (s.afterAlgs f fun s =>
    if slot.val != 0 then s.spdmError 1
    else
      let part := (s.certChain.drop off).take len
      s.emit (.spdm 0x02 (leBytes part.length 2 ++ leBytes (s.certChain.length - off - part.length) 2 ++ part)))

/-- CHALLENGE: the digest of the chain, then a nonce and a signature by the identity key. -/
def execChallenge (f : Ctx) (slot : Fin 8) (s : State) : Host.Outcome State Fault Refusal :=
  .next (s.afterAlgs f fun s => if slot.val != 0 then s.spdmError 1 else s.spdmFree 0x03 128 (digest s.certChain))

/-- The firmware image in use (BOOT_STS.FW_SLOT). -/
def State.fwImage (s : State) : List Byte :=
  let b := if s.getB Reg.BOOT_STS 9 then 0x800000 else 0
  s.flashBytes (b + 64) (leAt (s.flashBytes (b + 12) 4) 0 4)

/-- The record of the active profile; empty where the ROM default is active. -/
def State.profileRec (s : State) : List Byte :=
  let b := 0x1000000 + 0x20000 * s.profile.num
  if s.getB Reg.BOOT_STS 8 then []
  else match s.pairRec 2 b (b + 0x10000) anyRec with
    | some (_, _, _, body) => body
    | none => []

/-- The registrations of a context's owner, with their flags. -/
def State.ownerRec (s : State) (c : Nat) : List Byte :=
  (List.range 4).flatMap fun k =>
    let r := Store.get keyNone s.ownerKeys (4 * (s.cx c).owner + k)
    BitVec.ofNat 8 (b2n r.used + 2 * b2n r.revoked) :: padTo 96 r.pub

/-- The test-pattern bank in use, header and programs (R892). -/
def State.patternBank (s : State) : List Byte :=
  let b := if s.getB Reg.TST_STS 0 then 0x2400000 else 0x1400000
  s.flashBytes b (256 + leAt (s.flashBytes (b + 16) 8) 0 8)

/-- R688: measurement block `i` for a function. -/
def State.measurement (s : State) (f i : Nat) : List Byte :=
  match i with
  | 1 => digest s.fwImage
  | 2 => digest s.profileRec
  | 3 => digest s.patternBank
  | 4 => digest (s.ownerRec f)
  | 5 =>
    match (s.plans.filter fun e => e.2.live && e.2.ctx = f).flatMap fun e => e.2.manifest with
    | [] => List.replicate 48 0
    | m => digest m
  | 6 => [BitVec.ofNat 8 (s.getF Reg.DBG_STS 2 1), BitVec.ofNat 8 (s.getF Reg.DBG_STS 0 2)]
  | 7 => (List.range 24).flatMap fun j => leBytes (Config.fused (Reg.KEY_KAPUB j)).toNat 4
  | _ => []

/-- GET_MEASUREMENTS: index 0 asks for the number of blocks, 255 for all; `signed`: a signature follows. -/
def execGetMeasurements (f : Ctx) (index : Byte) (signed : Bool) (s : State) : Host.Outcome State Fault Refusal :=
  .next (s.afterAlgs f fun s =>
    let i := index.toNat
    if 7 < i && i != 255 then s.spdmError 1
    else
      let body := if i = 0 then [7] else if i = 255 then
          (List.range 7).flatMap fun k => BitVec.ofNat 8 (k + 1) :: s.measurement f (k + 1)
        else index :: s.measurement f i
      if signed then s.spdmFree 0x60 96 body else s.emit (.spdm 0x60 body))

/-! ## The secure session of the IDE option -/

/-- KEY_EXCHANGE: a session begins its handshake. -/
def execKeyExchange (f : Ctx) (s : State) : Host.Outcome State Fault Refusal :=
  .next (s.afterAlgs f fun s => (s.setSpdm f { s.spdmOf f with session := 1 }).spdmFree 0x64 128 [])

/-- FINISH: `ok`: the requester's verify data is right. -/
def execFinish (f : Ctx) (ok : Bool) (s : State) : Host.Outcome State Fault Refusal :=
  .next <|
    let x := s.spdmOf f
    if x.session != 1 then s.spdmError 4
    else if !ok then (s.setSpdm f { x with session := 0 }).spdmError 6
    else (s.setSpdm f { x with session := 2 }).spdmFree 0x65 48 []

/-- END_SESSION. -/
def execEndSession (f : Ctx) (s : State) : Host.Outcome State Fault Refusal :=
  .next <|
    let x := s.spdmOf f
    if x.session != 2 then s.spdmError 2 else (s.setSpdm f { x with session := 0 }).emit (.spdm 0x6C [])

/-- SPDM_UNSUPPORTED. -/
def execSpdmUnsupported (f : Ctx) (s : State) : Host.Outcome State Fault Refusal := .next (let _ := f; s.spdmError 7)

/-- IDE_KM (R725): keys of the one Link IDE stream, in a secure session while IDE_ALLOW is 1; otherwise refused. -/
def execIdeKm (f : Ctx) (s : State) : Host.Outcome State Fault Refusal :=
  .next <|
    if (s.spdmOf f).session = 2 && s.getB Reg.HIF_CTL 1 then (s.setB Reg.HIF_LINK_STS 10 true).spdmFree 0x7E 4 [] else s.emit (.spdm 0x7F [])

end Sys2Proof.Machine
end

