-- ==== Sys2Proof/Machine/Rcv.lean ====
section
/-!
DEFINITION. Recovery commands, pilot watchdogs and restarts, and what RCV_STS shows (R930, R931, R943, R944, R957 to R963).
-/
namespace Sys2Proof.Machine

/-! ## RCV_CMD (R934, R936, R938, R939, R942, R944, R963) -/

/-- A held rung is taken: it starts with its own cause. -/
def State.takeHeld (s : State) (r : Rung) : State := ({ s with rungs := s.rungs.erase r } : State).rungGo r.kind r.target r.cause

/-- A rung is commanded: its own OP takes a held rung (R944). -/
def State.rungCommand (s : State) (kind target : Nat) : State :=
  let s := s.setB Reg.RCV_STS 5 false
  match s.rungs.find? fun r => r.held && r.kind = kind && r.target = target with
  | some r => s.takeHeld r
  | none => s.startRung kind target 1

/-- R963: the command is refused. -/
def State.rungRefuse (s : State) : State := s.setB Reg.RCV_STS 5 true

/-- CTX: RCV_CMD.OP 1. -/
def execCtxCmd (rq : Requester) (target : Fin 256) (s : State) : Host.Outcome State Fault Refusal :=
  .next <|
    if !isMgmt rq then s
    else if 64 ≤ target.val || s.ctxSt target = 0 then s.rungRefuse
    else s.rungCommand 1 target

/-- ENGINE: RCV_CMD.OP 2. -/
def execEngineCmd (rq : Requester) (target : Fin 256) (s : State) : Host.Outcome State Fault Refusal :=
  .next <|
    if !isMgmt rq then s
    else if 64 ≤ target.val then s.rungRefuse
    else (if s.islReset target then s else s.setF (Reg.ISL_ENG_LAST target) 0 5 6).rungCommand 2 target

/-- PARTITION: RCV_CMD.OP 3. -/
def execPartitionCmd (rq : Requester) (target : Fin 256) (s : State) : Host.Outcome State Fault Refusal :=
  .next <|
    if !isMgmt rq then s
    else if (s.partDef target).isNone then s.rungRefuse
    else s.rungCommand 3 target

/-- WARM: RCV_CMD.OP 4. -/
def execWarmCmd (rq : Requester) (s : State) : Host.Outcome State Fault Refusal :=
  .next (if isMgmt rq then s.rungCommand 4 0 else s)

/-- PWRCYC: RCV_CMD.OP 5. -/
def execPwrcycCmd (rq : Requester) (s : State) : Host.Outcome State Fault Refusal :=
  .next (if isMgmt rq then s.rungCommand 5 0 else s)

/-- RESUME: RCV_CMD.OP 6 takes the held rung, the one held first where there are several. -/
def execResumeCmd (rq : Requester) (s : State) : Host.Outcome State Fault Refusal :=
  .next <|
    if !isMgmt rq then s
    else
      let s := s.setB Reg.RCV_STS 5 false
      match s.rungs.find? fun r => r.held with
      | some r => s.takeHeld r
      | none => s

/-- RCV_STS as read: rung in progress (the highest), HELD, PWRCYC_STUCK, REFUSED, its target, rungs in progress (R961). -/
def State.rcvSts (s : State) : Word :=
  let live := s.rungs.filter fun r => !r.held
  let top := live.foldl (fun (b : Nat × Nat) r => if b.1 < r.kind then (r.kind, r.target) else b) (0, 0)
  BitVec.ofNat 32 (top.1 + b2n (s.rungs.any fun r => r.held) * 8 + (s.reg Reg.RCV_STS &&& 0x30#32).toNat + top.2 % 256 * 256
    + min 255 live.length * 65536)

/-! ## Watchdogs (R930, R931, R943, R970, R1078) -/

/-- The watchdog period of a pilot in ticks; 0 is taken as 1 ms. -/
def State.wdPeriod (s : State) (n : Nat) : Nat := max 1 (s.getF (Reg.PIL_CTL n) 8 8) * 125000

/-- Start the watchdog of a pilot with a full period. -/
def State.wdStart (s : State) (n : Nat) : State := { s with wd := Store.put flagZero s.wd n (s.now + 1) }

/-- WD_KICK: pilot `n` writes its WD_KICK register. -/
def execWdKick (n : Pilot) (v : Word) (s : State) : Host.Outcome State Fault Refusal :=
  .next (if v = 0x5A5A#32 && s.pilSt n = 1 then s.wdStart n else s)

/-- A chip warm reset covers the pilots (R970). -/
def State.warming (s : State) : Bool := s.rungs.any fun r => r.kind = 4 && !r.held

/-- PIL_WDOG: no kick for WD_MS. P0 takes a chip warm reset, another pilot its reset, or a chip warm reset at a second expiry within ESC_WIN. Before
OPERATIONAL, P0's expiry is a failed boot (R1033), which BOOT_ATTEMPT_FAIL carries out. -/
def execPilWdog (n : Pilot) (s : State) : Host.Outcome State Fault Refusal :=
  .next <|
    let t := Store.get flagZero s.wd n
    if s.pilSt n != 1 || !s.getB (Reg.PIL_CTL n) 0 || t = 0 || s.now + 1 < t + s.wdPeriod n || s.getB Reg.DBG_CTL 0 || s.warming then s
    else
      let again := s.rungWithin 6 n s.escWin
      let s := { s with wd := Store.put flagZero s.wd n 0, rungAt := Store.put (fun _ => 0) s.rungAt (6 * 1024 + n.val) (s.now + 1) }
      let s := (s.incSat (Reg.PIL_WD_CNT n) 1).raise 2 n Ev.PIL_WDOG none 255 255
      if n.val = 0 then (if s.operational then s.startRung 4 0 8 else s)
      else if again then
        if s.pwrCycling then s else (s.noteEscalate.pilotReset n 1).startRung 4 0 9
      else s.pilotReset n 1

/-! ## Restarts (R931, R939 step 4, R958) -/

/-- Base of a firmware slot (R1024). -/
def fwBase (b : Nat) : Nat := 0x800000 * (b % 2)

/-- The firmware record of a slot. -/
def State.fwRec (s : State) (b : Nat) : Option (Nat × List Byte × List Byte) := s.slotRec 1 (fwBase b) anyRec

/-- The slot in use. -/
def State.fwSlot (s : State) : Nat := s.getF Reg.BOOT_STS 9 1

/-- VERSION of the record in a slot (R1026). -/
def State.fwVersion (s : State) (b : Nat) : Nat := (s.fwRec b).elim 0 fun r => leAt r.2.1 20 4

/-- A pilot runs from now on, its watchdog with a full period. -/
def State.pilotRun (s : State) (n : Nat) : State :=
  ((s.setF (Reg.PIL_STS n) 0 2 1).setReg (Reg.PIL_FW_VER n) (BitVec.ofNat 32 (s.fwVersion s.fwSlot))).wdStart n

/-- PIL_RESTART: a pilot's firmware has been reloaded; `ok`: P0 (its boot ROM, for P0 itself) verifies it. -/
def execPilRestart (n : Pilot) (ok : Bool) (s : State) : Host.Outcome State Fault Refusal :=
  .next <|
    if s.pilSt n != 3 || (n.val != 0 && s.pilSt 0 != 1) then s
    else if ok then (s.pilotRun n).raise 2 n Ev.PIL_RESTART none 255 255
    else s.raise 2 n Ev.PIL_FW_FAIL none 255 255

end Sys2Proof.Machine
end

