-- ==== Sys2Proof/Machine/Log.lean ====
section
/-!
DEFINITION. The trouble log's writer, pins and window, the end of an MSI-X hold-off (R793, R981 to R991, R1003 to R1008).
-/
namespace Sys2Proof.Machine

/-! ## Records (R982) -/

/-- The 32 bytes of a record; its SEQ reads 0 while the slot is being written (R983). -/
def LogRec.bytes (r : LogRec) : List Byte :=
  if !r.used then List.replicate 32 0
  else
    leBytes r.tick 8 ++ leBytes r.seq 4 ++ leBytes r.ty 2 ++ leBytes r.inst 2 ++ leBytes r.code 2
      ++ leBytes (r.cls % 8 + b2n r.forced * 8 + b2n r.pinned * 16 + b2n r.coalesced * 32) 2
      ++ [BitVec.ofNat 8 r.ctx, BitVec.ofNat 8 r.part] ++ padTo 10 r.payload

/-- The record of a slot. -/
def State.logSlot (s : State) (i : Nat) : LogRec := Store.get logEmpty s.log.slots (i % 16384)

/-- LOG_WIN word `w` (R1003). -/
def State.logWord (s : State) (w : Nat) : Word :=
  BitVec.ofNat 32 (leAt (s.logSlot (s.getF Reg.LOG_SEL 0 14 + w / 8)).bytes (4 * (w % 8)) 4)

/-- LOG_STS as read (R1004). -/
def State.logSts (s : State) : Word :=
  BitVec.ofNat 32 (b2n s.log.busy + b2n s.log.wrapped * 2 + b2n s.log.pinOvf * 4 + s.log.pins * 16)

/-! ## LOG_COMMIT (R983, R988, R990) -/

/-- R990: payload of a COALESCED record. -/
def Coal.payload (c : Coal) : List Byte :=
  leBytes c.firstCode 2 ++ leBytes (min 0xFFFF c.count) 2 ++ leBytes (min 0xFFFFFFFF (c.lastTick - c.firstTick)) 4 ++ leBytes c.lastCode 2

/-- R990: the source served next: the first after the last one served, in ascending (type, instance). -/
def LogState.nextSource (l : LogState) : Option (Nat × Coal) := (l.coal.find? fun e => l.last < e.1).or l.coal.head?

/-- R990: a COALESCED record starts for the next source; its counter is cleared. -/
def State.coalesce (s : State) : State :=
  match s.log.nextSource with
  | none => s
  | some (k, c) =>
    let sq := s.log.nextSeq
    let s := { s with log := { s.log with coal := s.log.coal.filter fun e => e.1 != k, last := k } }
    let (s, ovf) := s.startRec
      { tick := c.firstTick, ty := k / 1024, inst := k % 1024, code := 0x0140, cls := c.cls, forced := c.allForced, coalesced := true
        ctx := c.ctx, part := c.part, payload := c.payload }
    let s := s.incSat Reg.LOG_COAL_CNT 1
    let s := if c.report = 0 then s else { s with log := { s.log with report := Store.put (fun _ => 0) s.log.report sq c.report } }
    if ovf then s.raise 12 0 Ev.LOG_PIN_FULL none 255 255 else s

/-- LOG_COMMIT: the record being written is committed, at a later edge than it started while the tide counts; the next COALESCED record starts at
that edge. -/
def execLogCommit (s : State) : Host.Outcome State Fault Refusal :=
  .next <|
    match s.log.writing with
    | none => s
    | some (i, t) =>
      if s.tideRuns && decide (s.now ≤ t) then s
      else
        let sq := s.log.nextSeq
        let r := Store.get logEmpty s.log.slots i
        ({ s with log := { s.log with slots := Store.put logEmpty s.log.slots i { r with seq := sq }, seq := sq, writing := none } } : State).coalesce

/-! ## LOG_CMD (R987, R1003, R1005, R1007) -/

/-- Writers of LOG_CMD: the PF, the causeway and debug. -/
def State.logWriter (s : State) (rq : Requester) : Bool := isMgmt rq || (rq = .debug && s.dbgOpen)

/-- The slot's record is being written: its pin falls due at its commit (R1007). -/
def State.beingWritten (s : State) (slot : Nat) : Bool := s.log.writing.elim false fun w => w.1 = slot

/-- UNPIN. -/
def execUnpin (rq : Requester) (slot : Fin 16384) (s : State) : Host.Outcome State Fault Refusal :=
  .next <|
    if s.logWriter rq && !s.beingWritten slot then
      { s with log := { s.log with slots := Store.upd logEmpty s.log.slots slot fun r => { r with pinned := false } } }
    else s

/-- UNPIN_ALL: PIN_OVF is cleared too. -/
def execUnpinAll (rq : Requester) (s : State) : Host.Outcome State Fault Refusal :=
  .next <|
    if s.logWriter rq then
      { s with log := { s.log with
          slots := (s.log.slots.map fun (e : Nat × LogRec) => (e.1, { e.2 with pinned := e.2.pinned && s.beingWritten e.1 })).filter fun e => !decide (e.2 = logEmpty e.1)
          pinOvf := false } }
    else s

/-! ## IRQ_HOLDOFF_END (R793, R794) -/

/-- IRQ_HOLDOFF_END: one message signals what became pending meanwhile. -/
def execIrqHoldoffEnd (f : Ctx) (s : State) : Host.Outcome State Fault Refusal :=
  .next <|
    let h := Store.get irqIdle s.irq f
    if !h.active || (s.tideRuns && decide (s.now < h.till)) then s
    else
      let s := { s with irq := Store.put irqIdle s.irq f {} }
      if h.waiting then s.signal f else s

end Sys2Proof.Machine
end

