-- ==== Sys2Proof/Machine/Boot.lean ====
section
/-!
DEFINITION. Power-up, profiles, firmware and the flash's writers (chapter 21; R891 to R893, R975).
-/
namespace Sys2Proof.Machine

/-! ## Management record (R972, R975): its layout is the model's (log entry 30) -/

/-- No management key. -/
def mgmtNone (_ : Nat) : List Byte := []

/-- The body of a management record: address, mask, gateway, port, then each key with a flag byte. -/
def mgmtBytes (ip mask gw port : Nat) (keys : Store (List Byte)) : List Byte :=
  leBytes ip 4 ++ leBytes mask 4 ++ leBytes gw 4 ++ leBytes port 4 ++ (List.range 4).flatMap fun i =>
    let k := Store.get mgmtNone keys i
    BitVec.ofNat 8 (b2n !k.isEmpty) :: padTo 96 k

/-- The keys that such a body holds. -/
def mgmtKeysOf (b : List Byte) : Store (List Byte) :=
  (List.range 4).foldl (fun m i => if leAt b (16 + 97 * i) 1 = 1 then Store.put mgmtNone m i ((b.drop (17 + 97 * i)).take 96) else m) []

/-- The management keys as they will be when every requested write has ended. -/
def State.mgmtTable (s : State) : Store (List Byte) :=
  match (s.flashq.filter fun w => w.kind = 6).getLast? with
  | some w => mgmtKeysOf w.body
  | none => s.mgmtKeys

/-- Ask for a new management record, made by P1. -/
def State.writeMgmt (s : State) (keys : Store (List Byte)) : State :=
  s.flashAsk
    { kind := 6, base0 := 0x1320000, base1 := 0x1330000, size := 0x10000, holder := 1
      body := mgmtBytes (s.reg Reg.CSW_IP_ADDR).toNat (s.reg Reg.CSW_IP_MASK).toNat (s.reg Reg.CSW_IP_GW).toNat
        (s.reg Reg.CSW_UDP_PORT).toNat keys }

/-- The management record is read at power-up. -/
def State.readMgmt (s : State) : State :=
  let (s, r) := s.readPair 6 0x1320000 0x1330000 0x10000 anyRec
  match r with
  | none => (((s.setReg Reg.CSW_IP_ADDR 0).setReg Reg.CSW_IP_MASK 0).setReg Reg.CSW_IP_GW 0)
  | some (_, _, _, b) =>
    let w (i : Nat) : Word := BitVec.ofNat 32 (leAt b i 4)
    { (((s.setReg Reg.CSW_IP_ADDR (w 0)).setReg Reg.CSW_IP_MASK (w 4)).setReg Reg.CSW_IP_GW (w 8)).setReg Reg.CSW_UDP_PORT (w 12 &&& 0xFFFF#32)
      with mgmtKeys := mgmtKeysOf b }

/-! ## Profiles (R1039 to R1043) -/

/-- R1039: the partition entry at byte `i` of a body. -/
def partDefAt (b : List Byte) (i : Nat) : PartDef :=
  { x0 := leAt b i 1, y0 := leAt b (i + 1) 1, w := leAt b (i + 2) 1, h := leAt b (i + 3) 1, share := leAt b (i + 4) 2
    arrCap := leAt b (i + 6) 2, coreCap := leAt b (i + 8) 2, calMode := leAt b (i + 10) 1, rpl := leAt b (i + 11) 1, goal := leAt b (i + 12) 1 }

/-- R1039: the profile that a body spells. -/
def parseProfile (num : Nat) (b : List Byte) : Profile :=
  { num, dynCount := leAt b 1 1, rfsh := leAt b 2 1, vmin := leAt b 4 2, vmax := leAt b 6 2, chipArr := leAt b 8 2, chipCore := leAt b 10 2
    periodS := leAt b 12 1, deferMs := leAt b 14 2, parts := (List.range (leAt b 0 1)).map fun p => partDefAt b (32 + 24 * p) }

/-- Rectangles that share an island. -/
def PartDef.meets (a b : PartDef) : Bool := (List.range 64).any fun i => a.has i && b.has i

/-- R1040: a body is a valid profile with a number. -/
def profileOk (num : Nat) (b : List Byte) : Bool :=
  let p := parseProfile num b
  let n := leAt b 0 1
  b.length = 256 && 1 ≤ n && n ≤ 8 && p.dynCount ≤ 4 && p.rfsh < 4 && zeros b 3 1 && 700 ≤ p.vmin && p.vmin ≤ p.vmax && p.vmax ≤ 850
    && 1 ≤ p.periodS && zeros b 13 1 && 1 ≤ p.deferMs && ((b.drop 16).take 16).all (fun x => x.toNat < 128)
    && zeros b (32 + 24 * n) (224 - 32 - 24 * n) && zeros b 224 32
    && (List.range n).all (fun i =>
      let d := partDefAt b (32 + 24 * i)
      1 ≤ d.w && 1 ≤ d.h && d.x0 + d.w ≤ 8 && d.y0 + d.h ≤ 8 && 1 ≤ d.share && d.share ≤ 256 && d.calMode ≤ 1 && d.rpl < 16
        && zeros b (32 + 24 * i + 13) 11 && (List.range i).all fun k => !d.meets (partDefAt b (32 + 24 * k)))
    && p.parts.foldl (fun a d => a + d.share) 0 = 256
    && (num != 0 || (n = 1 && ((p.parts.headD {}).w = 8 && (p.parts.headD {}).h = 8)))

/-- The slot pair of a profile. -/
def profBase (p : Nat) : Nat := 0x1000000 + 0x20000 * (p % 4)

/-- The valid record of a profile, its slots read (R1029, R1041). -/
def State.readProfile (s : State) (p : Nat) : State × Option Profile :=
  let (s, r) := s.readPair 2 (profBase p) (profBase p + 0x10000) 0x10000 fun _ b => profileOk p b
  (s, r.map fun x => parseProfile p x.2.2.2)

/-- SEL_MASK (R1042). -/
def State.selMask (s : State) : Nat :=
  match s.pairRec 3 0x1080000 0x1090000 anyRec with
  | some (_, _, _, b) => leAt b 0 1 % 16
  | none => 15

/-- R711: a context keeps its partition number while the rectangle changes: pages on islands that leave go, pages on islands that join are
taken. -/
def State.movePages (s : State) (c : Nat) (old new : PartDef) : State :=
  (List.range 64).foldl (fun s i =>
    if old.has i && !new.has i then (s.ctxPages i c).foldl (fun s pg => s.setTag i pg 0) s
    else if new.has i && !old.has i then
      let want := (s.cx c).pages
      let s' := s.tagPages i c want
      if (s.freePages i).length < want then s'.setB (Reg.CTX_STS c) 4 true else s'
    else s) s

/-- R1043: what a profile gives every tile: RFSH_CTL, and in the changing partitions TIL_CTL.COMPAT. -/
def State.profileTiles (s : State) (changing : List Nat) : State :=
  (List.range 1024).foldl (fun s gt =>
    let s := if s.getB (Reg.TIL_RFSH_CTL gt) 0 = (s.profile.rfsh % 2 = 1) then s else s.writeGrid gt (s.profile.rfsh % 2 = 1)
    let s := s.setB (Reg.TIL_RFSH_CTL gt) 1 (s.profile.rfsh / 2 % 2 = 1)
    match s.partOf (gt / 16) with
    | some p => if changing.contains p then s.setB (Reg.TIL_CTL gt) 0 (((s.partDef p).getD {}).calMode = 1) else s
    | none => s) s

/-- R1043: RPL_CFG of the islands of the changing partitions; CTX 0. -/
def State.profileRpl (s : State) (changing : List Nat) : State :=
  changing.foldl (fun s p =>
    let d := (s.partDef p).getD {}
    (s.islandsOf p).foldl (fun s i => s.setReg (Reg.ISL_RPL_CFG i) (BitVec.ofNat 32 (d.rpl % 16 + d.goal * 256))) s) s

/-- R1043, R572, R711, R421: a profile is applied: for the changing partitions, and its chip-wide fields for all. `power`: at power-up, where every
account starts full (R534). -/
def State.applyProfile (s : State) (pr : Profile) (changing : List Nat) (power : Bool) : State :=
  let old := s.profile
  let s := { s with profile := pr }
  let s := (List.range 64).foldl (fun s c =>
    let p := s.ctxPart c
    if changing.contains p then s.movePages c (old.parts.getD p {}) (pr.parts.getD p {}) else s) s
  let s := (List.range 64).foldl (fun s i => s.dynCount i) s
  let s := (s.profileTiles changing).profileRpl changing
  let s := (s.setF Reg.TST_CTL 8 8 pr.periodS).setF Reg.TST_CTL 16 16 pr.deferMs
  let s := changing.foldl (fun s p => s.setAc p {}) s
  let s := s.recalc
  let s := if power then changing.foldl (fun s p => s.setAc p { s.ac p with lvlA := (s.ac p).depthA, lvlC := (s.ac p).depthC }) s else s
  (s.setF Reg.TOP_STS 0 2 pr.num).prtSync

/-! ## Losing the core domain (R1014 to R1016, R1051) -/

/-- Flash writes of the core domain end torn; P1's go on. -/
def State.tearWrites (s : State) : State :=
  match s.flashq with
  | [] => s
  | w :: _ =>
    let s := if w.holder = 1 || w.holder = 8 then s else s.flashTear w
    let q := s.flashq.filter fun w => w.holder = 1 || w.holder = 8
    ({ s with flashq := q, leases := s.leases.filter fun l => !(l.res = 6) || w.holder = 1 || w.holder = 8 } : State).flashStart

/-- R1015: everything that is not held in the always-on domain or in the flash is lost. -/
def State.coreLost (s : State) : State :=
  let s := s.tearWrites
  { (State.reset : State) with
    pending := s.pending, out := s.out, draws := s.draws, flash := s.flash, log := s.log, sessions := s.sessions
    mgmtKeys := s.mgmtKeys, authTick := s.authTick, boot := { s.boot with sampling := false, sampled := false, step := 4, sel := 0, changing := [] }
    push := if s.push.kind = 1 then s.push else {}, tap := s.tap, mctp := s.mctp, flashq := s.flashq, views := s.views
    leases := s.leases.filter fun l => l.res = 6
    nextJob := s.nextJob, nextPlan := s.nextPlan, nextRep := s.nextRep, nextRun := s.nextRun
    wd := s.wd.filter fun e => e.1 = 1
    regs := s.regs.filter fun e => alwaysOn (adrType e.1) (adrInst e.1)
    hdr := s.hdr.filter fun e => alwaysOn (e.1 / 1024) (e.1 % 1024)
    shadow := s.shadow.filter fun e => alwaysOn (e.1 % 32768 / 1024) (e.1 % 1024)
    staged := s.staged.filter fun e => alwaysOn (e.1 % 32768 / 1024) (e.1 % 1024) }

/-- R1015: the BOOT page's view of a core domain that is held. -/
def State.coreHeld (s : State) : State :=
  let s := s.coreLost
  let s := (((s.setF Reg.BOOT_STS 0 9 0).setReg Reg.BOOT_MS 0).setReg Reg.BOOT_PROFSEL_SMP 0).setReg Reg.DBG_CTL 0
  let s := (s.setF Reg.BOOT_PROF_STS 0 2 0).setF Reg.DBG_STS 3 9 0
  if s.flashq.any fun w => w.kind = 1 then s else s.setF Reg.BOOT_FW_STS 0 2 (if s.push.kind = 1 then 2 else 0)

/-! ## The always-on half (R1019 steps 1 to 3, R1032, R1064, R1095) -/

/-- R1029, R1032: a firmware slot is accepted: its record is valid and, by `sig`, its signature verifies. -/
def State.fwAccepted (s : State) (b : Nat) (sig : Bool) : Bool := sig && (s.fwRec b).isSome

/-- A slot that holds a programmed byte and is not accepted is counted. -/
def State.fwNote (s : State) (b : Nat) (sig : Bool) : State :=
  if s.slotUsed (fwBase b) 0x800000 && !s.fwAccepted b sig then (s.incSat Reg.BOOT_REC_REJ_CNT 1).raise 16 0 Ev.BOOT_REC_TORN none 255 255
  else s

/-- VDD_AON_GOOD: P1 boots. `mode`: the flash mode that its SFDP tables offer (0 single, 1 quad, 2 octal); `sigA`, `sigB`: the firmware signature of each
slot verifies. Without an accepted slot: recovery mode. -/
def execVddAonGood (mode : Fin 3) (sigA sigB : Bool) (s : State) : Host.Outcome State Fault Refusal :=
  .next <|
    if s.boot.aon then s
    else
      let s := { s with boot := { s.boot with aon := true, step := 4 } }
      let (d, s) := s.nextDraw
      let s := s.set64 Reg.DBG_NONCE_LO Reg.DBG_NONCE_HI d.toNat
      let s := s.setReg Reg.BOOT_FLASH_STS (BitVec.ofNat 32 (mode.val + Config.flashIdent.toNat * 256))
      let s := (s.fwNote 0 sigA).fwNote 1 sigB
      let seq (b : Nat) : Nat := (s.fwRec b).elim 0 (·.1)
      let s := match s.fwAccepted 0 sigA, s.fwAccepted 1 sigB with
        | false, false => s.setB Reg.BOOT_STS 11 true
        | true, false => s.setB Reg.BOOT_STS 9 false
        | false, true => s.setB Reg.BOOT_STS 9 true
        | true, true => s.setB Reg.BOOT_STS 9 (seqNewer (seq 1) (seq 0))
      if s.getB Reg.BOOT_STS 11 then s.setF (Reg.PIL_STS 1) 0 2 1 else s.readMgmt.pilotRun 1

/-- VDD_AON_LOSS (R1095): the whole device resets; the flash keeps what is programmed. -/
def execVddAonLoss (s : State) : Host.Outcome State Fault Refusal :=
  .next <|
    if !s.boot.aon then s
    else
      let s := match s.flashq with
        | [] => s
        | w :: _ => s.flashTear w
      { (State.reset : State) with pending := s.pending, out := s.out, draws := s.draws, flash := s.flash }

/-! ## The core half (R893, R1019 steps 5 and 6, R1033) -/

/-- R893: P0 selects the pattern bank; `pat0`, `pat1`: the bank's CRC, digest and signature verify. -/
def State.selectBank (s : State) (pat0 pat1 : Bool) : State :=
  let ok (b : Nat) (v : Bool) : Bool :=
    let h := s.flashBytes (bankBase b) 8
    v && leAt h 0 4 = 0x50544551 && leAt h 4 2 = 1
  let seq (b : Nat) : Nat := leAt (s.flashBytes (bankBase b + 8) 4) 0 4
  let a := ok 0 pat0
  let c := ok 1 pat1
  let s := s.setF Reg.TST_STS 1 2 (b2n a + 2 * b2n c)
  if !a && !c then (s.setB Reg.TST_STS 3 true).raise 14 0 Ev.TST_PAT_NONE none 255 255
  else
    let b := b2n (c && (!a || seq 0 < seq 1))
    (s.setF Reg.TST_STS 0 1 b).setReg Reg.TST_PAT_VER (s.patVer b)

/-- R1033: the slot of the next boot: after two failed boots in a row, the other slot where it is accepted (`other`). -/
def State.bootSlot (s : State) (other : Bool) : State :=
  if 2 ≤ s.boot.fails && s.fwAccepted (1 - s.fwSlot) other then
    let s := (s.setF Reg.BOOT_STS 9 1 (1 - s.fwSlot)).setB Reg.BOOT_STS 10 true
    ({ s with boot := { s.boot with fails := 0 } } : State).raise 16 0 Ev.BOOT_FW_FALLBACK none 255 255
  else s

/-- Steps 5 and 6: the core reset is released; P0 runs the core firmware and starts P2 to P7. -/
def State.coreBoot (s : State) (pat0 pat1 : Bool) : State :=
  let s := { s with boot := { s.boot with step := 6 } }
  let s := s.setF Reg.BOOT_STS 0 4 3
  let s := [0, 2, 3, 4, 5, 6, 7].foldl (fun s n => s.pilotRun n) s
  let (s, r) := s.readPair 5 0x1300000 0x1310000 0x10000 anyRec
  let s := { s with ownerKeys := r.elim [] fun x => keyTableOf x.2.2.2 }
  s.selectBank pat0 pat1

/-- PWRGD_IN_ASSERT: PWRGD_IN is recognised asserted. In recovery mode the core domain is not started (R1032). -/
def execPwrgdInAssert (other pat0 pat1 : Bool) (s : State) : Host.Outcome State Fault Refusal :=
  .next <|
    if !s.boot.aon || s.boot.pwrgd then s
    else
      let s := { s with boot := { s.boot with pwrgd := true } }
      if s.getB Reg.BOOT_STS 11 then s else (s.bootSlot other).coreBoot pat0 pat1

/-- R1033: one more boot failed to reach OPERATIONAL. -/
def State.bootFailed (s : State) : State :=
  if s.getB Reg.BOOT_STS 5 || s.boot.step < 6 then s else { s with boot := { s.boot with fails := s.boot.fails + 1 } }

/-- BOOT_ATTEMPT_FAIL (R1033): step 6 exceeds its bound, or P0's watchdog expires before OPERATIONAL: the next attempt starts. -/
def execBootAttemptFail (other pat0 pat1 : Bool) (s : State) : Host.Outcome State Fault Refusal :=
  .next <|
    if !s.boot.pwrgd || s.operational || s.boot.step < 6 || s.getF Reg.BOOT_STS 0 4 = 15 then s
    else (s.bootFailed.coreHeld.bootSlot other).coreBoot pat0 pat1

/-- BOOT_PWRGD_LOSS (R1014 to R1016): PWRGD_IN deasserts; the core domain is held as if its rails were lost, and its event is pinned. -/
def execBootPwrgdLoss (s : State) : Host.Outcome State Fault Refusal :=
  .next <|
    if !s.boot.pwrgd then s
    else
      let s := s.bootFailed
      let s := s.coreHeld
      ({ s with boot := { s.boot with pwrgd := false } } : State).raise 16 0 Ev.BOOT_PWRGD_LOSS none 255 255

/-! ## PERST_N and PROFSEL (R1017, R1018, R1037, R1038, R1041) -/

/-- PERST_N_DEASSERT: the first one after PWRGD_IN starts the sampling of PROFSEL. -/
def execPerstNDeassert (s : State) : Host.Outcome State Fault Refusal :=
  .next <|
    if !s.boot.aon || !s.boot.perst then s
    else
      let s := { s with boot := { s.boot with perst := false } }
      if s.boot.step < 6 || s.boot.sampled then s
      else
        let s := { s with boot := { s.boot with sampling := true } }
        if s.getF Reg.BOOT_STS 0 4 = 3 then s.setF Reg.BOOT_STS 0 4 4 else s

/-- PERST_N_ASSERT: it ends a sampling in progress (R1038); after configuration-ready it resets the port (R1018). -/
def execPerstNAssert (s : State) : Host.Outcome State Fault Refusal :=
  .next <|
    if !s.boot.aon || s.boot.perst then s
    else
      let s := { s with boot := { s.boot with perst := true, sampling := false } }
      if !s.getB Reg.BOOT_STS 4 then s
      else
        let s := { s.linkDown with spdm := [] }
        let s := { s with regs := s.regs.filter fun e => e.1 < 0x10000000 }
        let s := (List.range 64).foldl (fun s c => if 0 < c then s.startTeardown c 2 else s) s
        if s.shut 0 then s else s.startRung 1 0 2

/-- Every partition. -/
def allParts : List Nat := List.range 8

/-- Every tile. -/
def allTiles : List Nat := List.range 1024

/-- Ask the outcome of every island's test. -/
def State.askIslTests (s : State) : State := (List.range 64).foldl (fun s i => s.askIslTest i) s

/-- Step 12 with a snapshot, or without: calibration by a verification of the snapshot's trims, or from nothing. -/
def State.bootCal (s : State) (snap : Option (Nat × Nat × List Byte × List Byte)) : State :=
  let s := snap.elim s fun x => s.setReg Reg.CAL_SNAP_STS (BitVec.ofNat 32 (x.2.1 % 65536 + 65536))
  if s.getB Reg.CAL_STS 4 then s.startRun 3 allTiles
  else snap.elim (s.setB Reg.CAL_STS 5 true) fun x => (s.loadSnapshot x.2.2.2).startRun 2 allTiles

/-- Step 12: the calibration snapshot is read, and calibration begins. -/
def State.bootSnapshot (s : State) : State :=
  let r := s.readPair 4 snapBase0 snapBase1 0x80000 anyRec
  r.1.bootCal r.2

/-- Step 11 (R1043): once the profile is chosen and the harbour has trained, the profile is applied; steps 12 and 13 begin: the trims of R226 and the
power-up island tests. -/
def State.bootProfile (s : State) : State :=
  if s.boot.sel = 0 || s.boot.step < 10 then s
  else
    let want := s.boot.want
    let s := { s with boot := { s.boot with sel := 0, want := romProfile, step := 12 } }
    ((s.applyProfile want allParts true).setF Reg.BOOT_STS 0 4 6).bootSnapshot.askIslTests

/-- PROFSEL_SAMPLE_END (R1037, R1041): 64 samples: the first, and how many differ from it. -/
def execProfselSampleEnd (first : Fin 4) (disagree : Fin 64) (s : State) : Host.Outcome State Fault Refusal :=
  .next <|
    if !s.boot.sampling then s
    else
      let amb := disagree.val != 0
      let s := { s with boot := { s.boot with sampling := false, sampled := true } }
      let s := s.setReg Reg.BOOT_PROFSEL_SMP (BitVec.ofNat 32 (first + disagree * 4))
      let s := if amb then (s.setB Reg.BOOT_STS 6 true).raise 16 0 Ev.BOOT_PROFILE_AMBIG none 255 255 else s
      let n := if amb then 0 else first.val
      let (s, r) := s.readProfile n
      let (s, r) := match r with
        | some p => (s, p)
        | none =>
          let s := (s.setB Reg.BOOT_STS 7 true).raise 16 0 Ev.BOOT_PROFILE_FALLBACK none 255 255
          let (s, r) := if n = 0 then (s, none) else s.readProfile 0
          match r with
          | some p => (s, p)
          | none => (s.setB Reg.BOOT_STS 8 true, romProfile)
      let s := { s with boot := { s.boot with sel := 1, want := r } }
      (if s.getF Reg.BOOT_STS 0 4 = 4 then s.setF Reg.BOOT_STS 0 4 5 else s).bootProfile

/-! ## Harbour training and the end of boot (R1019 steps 10 and 14, R1021, R1022) -/

/-- HARBOUR_TRAINED: training ends; `failed`: the stacks that fail it (R1021). -/
def execHarbourTrained (failed : List Stack) (s : State) : Host.Outcome State Fault Refusal :=
  .next <|
    if s.boot.step < 6 || 10 ≤ s.boot.step || s.getF Reg.BOOT_STS 0 4 = 15 then s
    else if !failed.isEmpty then
      (failed.foldl (fun s h => s.setB (Reg.HBR_STS h) 1 true) s).setF Reg.BOOT_STS 0 4 15
    else
      let s := (List.range 6).foldl (fun s h => s.setB (Reg.HBR_STS h) 0 true) s
      ({ s with harbour := [], hbPoison := [], hbWritten := [], frames := [], boot := { s.boot with step := 10 } } : State).bootProfile

/-- HBR_STACK_FAIL (R640, R649, R932, R963): a stack fails in service: its page is fenced by the data path and its event starts a power cycle. -/
def execHbrStackFail (h : Stack) (s : State) : Host.Outcome State Fault Refusal :=
  .next <|
    if !s.getB (Reg.HBR_STS h) 0 then s
    else
      let s := ((s.setB (Reg.HBR_STS h) 0 false).setB (Reg.HBR_STS h) 1 true).fenceDp 5 h 0x16
      s.raise 5 h Ev.HBR_STACK_FAIL none 255 255

/-- BOOT_READY: the sequence has ended: the profile applied, no power-up run or island test outstanding. -/
def execBootReady (s : State) : Host.Outcome State Fault Refusal :=
  .next <|
    if s.getF Reg.BOOT_STS 0 4 != 6 || s.calActive || s.tests.any fun e => e.1 % 32 = 19 && (e.2.want || e.2.held) then s
    else
      let (d, s) := s.nextDraw
      let s := (s.setF Reg.BOOT_STS 0 4 7).setB Reg.BOOT_STS 5 true
      let s := s.setF Reg.BOOT_MS 16 16 (min 0xFFFF (s.now / 125000 + d.toNat % 2))
      ({ s with boot := { s.boot with fails := 0, step := 14 } } : State).raise 16 0 Ev.BOOT_READY none 255 255

/-! ## PROF_CMD (R1044 to R1050, R1054) -/

/-- A firmware or pattern write is in progress (R1035, R1045). -/
def State.pushBusy (s : State) : Bool := s.push.kind != 0 || s.getF Reg.TST_STS 4 2 != 0 || s.getF Reg.BOOT_FW_STS 0 2 != 0

/-- The command's target and its error. -/
def State.profErr (s : State) (target err : Nat) : State := (s.setF Reg.BOOT_PROF_STS 2 2 target).setF Reg.BOOT_PROF_STS 4 4 err

/-- The partitions that change between two profiles (R1045). -/
def changedParts (a b : Profile) : List Nat :=
  (List.range 8).filter fun p => match a.parts[p]?, b.parts[p]? with
    | none, none => false
    | some x, some y => !(x.x0 = y.x0 && x.y0 = y.y0 && x.w = y.w && x.h = y.h && x.share = y.share)
    | _, _ => true

/-- SELECT: PROF_CMD.OP 1, steps 1 to 3. -/
def execProfSelect (rq : Requester) (target : Fin 4) (s : State) : Host.Outcome State Fault Refusal :=
  .next <|
    if !isMgmt rq then s
    else if s.selMask / 2 ^ target.val % 2 = 0 then s.profErr target 1
    else
      let (s, r) := s.readProfile target
      match r with
      | none => s.profErr target 2
      | some pr =>
        if s.getF Reg.BOOT_PROF_STS 0 2 != 0 || s.calActive || s.pushBusy || !s.swaps.isEmpty || !s.operational then s.profErr target 3
        else
          let ch := changedParts s.profile pr
          let s := (s.profErr target 0).setF Reg.BOOT_PROF_STS 0 2 2
          let s := { s with boot := { s.boot with sel := 1, want := pr, changing := ch } }
          let s := (s.plans.filter fun e => e.2.live && ch.contains (s.ctxPart e.2.ctx)).foldl (fun s e => s.unload e.1) s
          (List.range 64).foldl (fun s c => if s.ctxPart c < 8 && pr.parts.length ≤ s.ctxPart c then s.startTeardown c 4 else s) s

/-- PROFILE_APPLY (R1045 step 4): every step in the changing partitions has ended, and the contexts of removed partitions are FREE. -/
def execProfileApply (s : State) : Host.Outcome State Fault Refusal :=
  .next <|
    let ch := s.boot.changing
    let inCh (c : Nat) : Bool := ch.contains (s.ctxPart c)
    if s.getF Reg.BOOT_PROF_STS 0 2 != 2 || (s.jobs.any fun e => (e.2.st = 3 || e.2.st = 4) && inCh e.2.fn)
        || (s.imports.any fun m => inCh m.ctx) || (List.range 64).any fun c => s.ctxPart c < 8 && s.boot.want.parts.length ≤ s.ctxPart c then s
    else
      let s := (s.plans.filter fun e => e.2.live && inCh e.2.ctx).foldl (fun s e => s.unloadNow e.1) s
      let s := s.applyProfile s.boot.want ch false
      let s := { s with boot := { s.boot with sel := 0, want := romProfile, changing := [] } }
      (s.setF Reg.BOOT_PROF_STS 0 2 0).raise 16 0 Ev.BOOT_PROFILE_CHANGE none 255 255

/-- R1047: a select that has not reached step 4 is abandoned. -/
def State.abandonSelect (s : State) : State :=
  if s.getF Reg.BOOT_PROF_STS 0 2 != 2 then s
  else
    let s := { s with boot := { s.boot with sel := 0, want := romProfile, changing := [] } }
    (s.setF Reg.BOOT_PROF_STS 0 2 0).setF Reg.BOOT_PROF_STS 4 4 4

/-- PROF_BUF. -/
def State.profBuf (s : State) (n : Nat) : List Byte := (List.range n).flatMap fun j => leBytes (s.reg (Reg.BOOT_PROF_BUF j)).toNat 4

/-- WRITE_PROFILE: PROF_CMD.OP 2. -/
def execWriteProfile (rq : Requester) (target : Fin 4) (s : State) : Host.Outcome State Fault Refusal :=
  .next <|
    let st := s.getF Reg.BOOT_PROF_STS 0 2
    if !isMgmt rq then s
    else if !profileOk target (s.profBuf 64) then s.profErr target 2
    else if st = 1 || (st = 2 && (s.boot.want.num = target.val || s.profile.num = target.val)) then s.profErr target 3
    else
      let s := (s.profErr target 0).setF Reg.BOOT_PROF_STS 0 2 (if st = 2 then 2 else 1)
      s.flashAsk { kind := 2, base0 := profBase target, base1 := profBase target + 0x10000, size := 0x10000, body := s.profBuf 64, arg := target }

/-- WRITE_INDEX: PROF_CMD.OP 3. -/
def execWriteIndex (rq : Requester) (target : Fin 4) (s : State) : Host.Outcome State Fault Refusal :=
  .next <|
    let st := s.getF Reg.BOOT_PROF_STS 0 2
    if !isMgmt rq then s
    else if st = 1 then s.profErr target 3
    else
      let s := (s.profErr target 0).setF Reg.BOOT_PROF_STS 0 2 (if st = 2 then 2 else 1)
      s.flashAsk { kind := 3, base0 := 0x1080000, base1 := 0x1090000, size := 0x10000, body := s.profBuf 16, arg := target }

/-! ## Firmware from host memory (R1034, R1035, R1048, R1052) -/

/-- R1035: a firmware write is refused. -/
def State.fwReject (s : State) (err : Nat) : State :=
  (s.setF Reg.BOOT_FW_STS 4 4 err).raise 16 0 Ev.BOOT_FW_REJECT none 255 255

/-- SVN of the slot in use (R1026). -/
def State.fwSvn (s : State) : Nat := (s.fwRec s.fwSlot).elim 0 fun r => leAt r.2.1 24 2

/-- FW_WRITE: FW_CMD.OP 1: the image is read through the PF (`ok`), `ver` and `svn` as it states them. -/
def execFwWrite (rq : Requester) (image : List Byte) (ver : Word) (svn : Fin 65536) (ok : Bool) (s : State) :
    Host.Outcome State Fault Refusal :=
  .next <|
    let n := s.getF Reg.BOOT_FW_LEN 0 22
    if !isMgmt rq then s
    else if s.pushBusy || s.getF Reg.BOOT_PROF_STS 0 2 = 2 then s.fwReject 6
    else if 2097248 < n || n < 96 then s.fwReject 3
    else if !ok then (s.incSat Reg.HIF_DMA_ERR_CNT 1).raise 10 0 Ev.HIF_DMA_ERR none 0 255 |>.fwReject 5
    else if svn.val < s.fwSvn then s.fwReject 2
    else
      let s := ((s.setF Reg.BOOT_FW_STS 0 2 2).setF Reg.BOOT_FW_STS 4 4 0).setB Reg.BOOT_FW_STS 8 false
      s.flashAsk { kind := 1, base0 := fwBase 0, base1 := fwBase 1, size := 0x800000, body := padTo n image, extra := leBytes ver.toNat 4 ++ leBytes svn 2 }

/-! ## FLASH_WRITE_DONE (R1027, R1035, R1051) -/

/-- A profile command's write ends. -/
def State.profDone (s : State) : State := if s.getF Reg.BOOT_PROF_STS 0 2 = 1 then s.setF Reg.BOOT_PROF_STS 0 2 0 else s

/-- A staged image (R1035). -/
def State.fwStaged (s : State) : State :=
  ((s.setF Reg.BOOT_FW_STS 0 2 0).setB Reg.BOOT_FW_STS 8 true).raise 16 0 Ev.BOOT_FW_STAGED none 255 255

/-- FLASH_WRITE_DONE: the first write in the queue has ended; `ok`: the flash programmed it; `sig`: a firmware image's signature verifies, checked before its
header is programmed. Trim snapshots end under SNAPSHOT_WRITE_DONE. -/
def execFlashWriteDone (ok sig : Bool) (s : State) : Host.Outcome State Fault Refusal :=
  .next <|
    match s.flashq with
    | [] => s
    | w :: _ =>
      if w.kind = 4 then s
      else if !ok then ((s.flashErr.flashTear w).flashNext).flashFailed w
      else if w.kind = 1 && !sig then
        let s := s.flashProgram (fwBase (1 - s.fwSlot) + 64) w.body
        (s.flashNext.setF Reg.BOOT_FW_STS 0 2 0).fwReject 1
      else
        let s := (s.flashFinish w).flashNext
        match w.kind with
        | 1 => s.fwStaged
        | 2 => s.profDone
        | 3 => s.profDone
        | 5 => s.keysWritten w true
        | 6 => { s with mgmtKeys := mgmtKeysOf w.body }
        | _ => s

end Sys2Proof.Machine
end

