-- ==== Sys2Proof/Machine/Debug.lean ====
section
/-!
DEFINITION. Unlocking, locking, halts and the freeze of leases (R1064 to R1081).
-/
namespace Sys2Proof.Machine

/-- The staged token. -/
def State.token (s : State) : List Byte := (List.range 32).flatMap fun j => leBytes (s.reg (Reg.DBG_TOKEN j)).toNat 4

/-- R1065 step 4: the first check that a token fails, by its ERR code. -/
def State.tokenErr (s : State) (sigOk : Bool) : Option Nat :=
  let t := s.token
  let k := leAt t 20 1
  if s.getF Reg.DBG_STS 0 2 = 0 then some 1
  else if leAt t 0 4 != 0x4B4C4244 then some 2
  else if leAt t 4 8 != s.get64 Reg.DBG_NONCE_LO Reg.DBG_NONCE_HI then some 3
  else if leAt t 12 8 != s.get64 Reg.KEY_DEVICE_ID_LO Reg.KEY_DEVICE_ID_HI then some 4
  else if 4 ≤ k || (Store.get mgmtNone s.mgmtKeys k).isEmpty then some 5
  else if !zeros t 21 11 || !sigOk then some 2
  else none

/-- DBG_STS.ERR. -/
def State.dbgErr (s : State) (e : Nat) : State := s.setF Reg.DBG_STS 12 4 e

/-- UNLOCK: DBG_CMD.OP 1; `sigOk`: the signature by management key KIDX verifies. -/
def execDbgUnlock (rq : Requester) (sigOk : Bool) (s : State) : Host.Outcome State Fault Refusal :=
  .next <|
    if rq != .debug then s
    else if s.tap.unlocking then s.dbgErr 7
    else if 8 ≤ s.getF Reg.DBG_FAIL_CNT 0 8 then s.dbgErr 6
    else
      let s := s.setF Reg.DBG_STS 16 2 (leAt s.token 20 1)
      match s.tokenErr sigOk with
      | some e =>
        let (d, s) := s.nextDraw
        let s := ((s.dbgErr e).incSatF Reg.DBG_FAIL_CNT 0 8 1).set64 Reg.DBG_NONCE_LO Reg.DBG_NONCE_HI d.toNat
        s.raise 17 0 Ev.DBG_UNLOCK_FAIL none 255 255
      | none =>
        let s := { s.dbgErr 0 with tap := { s.tap with unlocking := true } }
        ((List.range 64).foldl (fun s c => s.startTeardown c 5) s).unlockStep

/-- A halted pilot resumes with a full watchdog period (R1069). -/
def State.pilotResume (s : State) (n : Nat) : State :=
  if s.pilSt n = 2 then ((s.setF (Reg.PIL_STS n) 0 2 1).setB Reg.DBG_STS (3 + n) false).wdStart n else s

/-- R1073: LEASE_FREEZE clears: watchdogs restart with full periods. -/
def State.thaw (s : State) : State :=
  if !s.getB Reg.DBG_CTL 0 then s
  else
    let s := (s.setB Reg.DBG_CTL 0 false).setB Reg.DBG_STS 11 false
    (List.range 8).foldl (fun s n => if s.pilSt n = 1 then s.wdStart n else s) s

/-- LOCK (R1068): DBG_CMD.OP 2, from debug or the causeway. -/
def execDbgLock (rq : Requester) (s : State) : Host.Outcome State Fault Refusal :=
  .next <|
    if !(rq = .debug || rq = .causeway) || s.getF Reg.DBG_STS 0 2 = 0 then s
    else
      let s := (List.range 8).foldl (fun s n => s.pilotResume n) s
      ((s.thaw).setF Reg.DBG_STS 0 2 1).raise 17 0 Ev.DBG_LOCK none 255 255

/-- R1063, R1076, R1078: pilot `n` is halted: its watchdog stops. -/
def State.pilotHalt (s : State) (n : Nat) : State :=
  if s.pilSt n != 1 then s
  else
    let s := (s.setF (Reg.PIL_STS n) 0 2 2).setB Reg.DBG_STS (3 + n) true
    ({ s with wd := Store.put flagZero s.wd n 0 } : State).raise 17 0 Ev.DBG_HALT (some [BitVec.ofNat 8 n]) 255 255

/-- HALT: DBG_CMD.OP 3. -/
def execDbgHalt (rq : Requester) (n : Pilot) (s : State) : Host.Outcome State Fault Refusal :=
  .next <|
    if rq != .debug then s
    else if s.getF Reg.DBG_STS 0 2 = 0 then s.dbgErr 1
    else if !s.dbgOpen then s.dbgErr 8
    else (s.dbgErr 0).pilotHalt n

/-- DBG_RESUME: DBG_CMD.OP 4. -/
def execDbgResume (rq : Requester) (n : Pilot) (s : State) : Host.Outcome State Fault Refusal :=
  .next (if rq = .debug then s.pilotResume n else s)

/-- R1072: a write of LEASE_FREEZE by debug while unlocked. -/
def State.writeFreeze (s : State) (v : Bool) : State :=
  if !v then s.thaw
  else if s.getB Reg.DBG_CTL 0 then s
  else
    let s := ((s.setB Reg.DBG_CTL 0 true).setB Reg.DBG_STS 11 true).set64 Reg.DBG_FRZ_TICK_LO Reg.DBG_FRZ_TICK_HI s.now
    s.raise 17 0 Ev.DBG_FREEZE none 255 255

/-- LEASE_FREEZE_WRITE (R1072, R1073). -/
def execLeaseFreezeWrite (rq : Requester) (v : Bool) (s : State) : Host.Outcome State Fault Refusal :=
  .next (if rq = .debug && s.dbgOpen then s.writeFreeze v else s)

end Sys2Proof.Machine
end

