-- ==== Sys2Proof/Machine/Regs.lean ====
section
/-!
DEFINITION. Register accesses: what a read returns, who may read and write each page, the access types, 64-bit pairs, events, fences and bad
accesses (R8, R9, R778 to R789, R799, R806 to R818, R834, R835 and the access rule of each page).
-/
namespace Sys2Proof.Machine

/-! ## What a register reads as -/

/-- Low words of the 64-bit pairs of a page (R806). -/
def pairLow : Nat → List Nat
  | 3 => [0x54, 0x110, 0x1A0, 0x290, 0x298, 0x2A8, 0x410]
  | 4 => [0x60, 0x68, 0xB8, 0xC0, 0xC8]
  | 5 => [0x58, 0x68, 0x70]
  | 6 => [0x60, 0x68] ++ tabulate 64 fun i => 0x400 + 16 * i
  | 7 => [0x60, 0x68]
  | 8 => [0x48, 0x58, 0x60, 0x74, 0x94]
  | 9 => [0x48, 0x50]
  | 10 => [0x60, 0x68, 0x108, 0x110]
  | 11 => 0x48 :: tabulate 16 fun i => 0x100 + 16 * i
  | 13 => [0x50]
  | 14 => [0x70]
  | 15 => [0x54] ++ (tabulate 8 fun i => 0x100 + 8 * i) ++ tabulate 8 fun i => 0x140 + 8 * i
  | 16 => [0x70]
  | 17 => [0x50, 0x58]
  | 18 => [0x48]
  | 19 => [0x50, 0x58]
  | 20 => [0x50]
  | _ => []

/-- The offset is the low word of a pair; SNAP is one in every page (R810). -/
def isLow (a : Nat) : Bool := adrOff a = 0x30 || (pairLow (adrType a)).contains (adrOff a)

/-- The offset is the high word of a pair. -/
def isHigh (a : Nat) : Bool := decide (4 ≤ adrOff a) && isLow (a - 4)

/-- The highest class among a page's pending events (BLK_STS.PEND_CLASS). -/
def pendClass (ty : Nat) (pend : Word) : Nat :=
  (eventTable ty).foldl (fun m p => if pend.getLsbD p.1 then max m (codeClass p.2) else m) 0

/-- BLK_STS.READY: a page of the always-on domain once P1 has booted, any other once the part is OPERATIONAL, unless a recovery is resetting it
(log entry 40). -/
def State.pageReady (s : State) (ty inst : Nat) : Bool :=
  (if alwaysOn ty inst then s.boot.aon else s.operational) && !s.pageReset ty inst

/-- BLK_STS (R783). -/
def State.blkSts (s : State) (ty inst : Nat) : Word :=
  BitVec.ofNat 32 (b2n (s.pageReady ty inst) + 2 * b2n (s.fenced ty inst)
    + 4 * b2n (hasLeases ty && s.leaseWord ty inst != 0) + 8 * b2n (s.pageReset ty inst) + 16 * pendClass ty (s.hd ty inst).pend)

/-- FENCE (R799). -/
def PageHdr.fenceWord (h : PageHdr) : Word :=
  BitVec.ofNat 32 (b2n h.fenced + 2 * b2n h.fenceDp + 4 * b2n h.fenceCsw + 8 * b2n h.fenceHost + 256 * h.reason.toNat)

/-- The common header (R782, R783). -/
def State.hdrVal (s : State) (ty inst off : Nat) : Word :=
  let h := s.hd ty inst
  match off with
  | 0x00 => BitVec.ofNat 32 (inst + ty * 65536)
  | 0x04 => 0xA101
  | 0x08 => blkCap ty
  | 0x0C => h.ctl
  | 0x10 => s.blkSts ty inst
  | 0x14 => h.raw
  | 0x18 => h.en
  | 0x1C => h.pend
  | 0x24 => if fenceable ty then h.fenceWord else 0
  | 0x28 => h.errCnt
  | 0x2C => if hasLeases ty then s.leaseWord ty inst else 0
  | 0x30 => h.snap.setWidth 32
  | 0x34 => (h.snap >>> 32).setWidth 32
  | 0x38 => h.seq
  | _ => 0

/-- A sum of powers of two over the indices below `n` that satisfy `p`. -/
def bitsOf (n : Nat) (p : Nat → Bool) : Nat := (List.range n).foldl (fun a i => if p i then a + 2 ^ i else a) 0

/-- Four bytes as a word, byte 0 lowest. -/
def word4 (f : Nat → Nat) : Word := BitVec.ofNat 32 ((List.range 4).foldl (fun a i => a + f i % 256 * 256 ^ i) 0)

/-- TOP.PEND_TYPE (R817). -/
def State.pendType (s : State) : Word :=
  s.hdr.foldl (fun w e => if e.2.pend = 0 then w else w ||| maskOf (e.1 / 1024) 1) 0

/-- The type that PEND_MAP shows: a write of PEND_SEL changes it at the next edge (R835). -/
def State.pendShown (s : State) : Nat :=
  if s.tideRuns && s.pendWas.2 = s.now + 1 then s.pendWas.1 else s.getF Reg.TOP_PEND_SEL 0 5

/-- TOP.PEND_MAPw (R817). -/
def State.pendMap (s : State) (w : Nat) : Word :=
  let t := s.pendShown
  BitVec.ofNat 32 (bitsOf 32 fun i => decide (32 * w + i < instCount t) && (s.hd t (32 * w + i)).pend != 0)

/-- ms since a unit's last completed test (TAGE). -/
def State.tage (s : State) (isl u : Nat) : Word :=
  match (s.test isl u).last with
  | none => 0xFFFFFF
  | some t => BitVec.ofNat 32 (min 0xFFFFFF ((s.now - t) / 125000))

/-- SEQ_STS.ISSUING: a running step has tickets still to issue on the island. -/
def State.issuing (s : State) (isl : Nat) : Bool :=
  s.jobs.any fun e => e.2.st = 3 && !e.2.failed && (s.planIslands (s.plan e.2.plan)).contains isl && (s.nextOf e.2 isl).isSome

/-- Number of contexts bound to a partition. -/
def State.ctxCount (s : State) (p : Nat) : Nat := ((List.range 64).filter fun c => s.ctxPart c = p).length

/-- TILE_OWN byte of a global tile in the page of partition p (R701). -/
def State.tileOwn (s : State) (p gt : Nat) : Nat :=
  let o := Store.get flagZero s.owners gt
  if s.partOf (gt / 16) = some p && o != 0 then o - 1 + 128 else 0

/-- WIN_ENT of the position selected (R697). -/
def State.winWord (s : State) (c : Nat) : Word :=
  let e := Store.get winNone (s.cx c).win (s.getF (Reg.CTX_WIN_SEL c) 0 17)
  if e.backed then BitVec.ofNat 32 (e.frame % 2 ^ 17 + e.ty % 4 * 2 ^ 18 + 2 ^ 31) else 0

/-- R980: the core domain is in service: powered, P1's firmware accepted, not held by a chip warm reset. -/
def State.coreUp (s : State) : Bool :=
  s.boot.pwrgd && !s.getB Reg.BOOT_STS 11 && !s.warmHeld

/-- CSW_STS (R1000). -/
def State.cswSts (s : State) : Word :=
  BitVec.ofNat 32 (s.getF Reg.CSW_STS 0 1 + 2 * b2n s.mctp.da.isSome + 4 * b2n (!s.mgmtKeys.isEmpty) + 8 * (s.sessions.length % 8) + 64 * b2n s.coreUp)

/-- FLASH_STS (R1055): LEASED, HOLDER and PILOT follow the flash-access lease. -/
def State.flashSts (s : State) : Word :=
  let v := (s.reg Reg.BOOT_FLASH_STS).toNat
  match s.flashq with
  | [] => BitVec.ofNat 32 v
  | w :: _ => BitVec.ofNat 32 (v + 4 + (if w.holder = 8 then 16 else 8 + w.holder % 8 * 32))

/-- SLU registers of a partition (R566). -/
def State.sluWord (s : State) (p k : Nat) : Option Word :=
  let a := s.ac p
  let w (lo hi : Nat) : Option Word := some (BitVec.ofNat 32 (lo % 65536 + hi % 65536 * 65536))
  match k with
  | 0 => w (s.share p % 512) 0
  | 2 => w a.rateA a.rateC
  | 3 => w (a.lvlA / 1024) (a.depthA / 1024)
  | 4 => w a.pavail.1 a.pavail.2
  | 5 => w a.rsvA a.rsvC
  | _ => none

/-- PRT_CFG (R701). -/
def State.prtCfg (s : State) (p : Nat) : Word :=
  match s.partDef p with
  | none => 0
  | some d => BitVec.ofNat 32 (d.x0 % 8 + d.y0 % 8 * 16 + d.w % 16 * 256 + d.h % 16 * 4096 + d.w * d.h % 128 * 65536)

/-- ENG_STS (R955). -/
def State.engSts (s : State) (i : Nat) : Word :=
  let f := s.islFenced i
  let r := s.islReset i
  BitVec.ofNat 32 (b2n (s.operational && !r && !f) + 2 * b2n r + (s.reg (Reg.ISL_ENG_STS i) &&& 4).toNat + 8 * b2n f)

/-- Registers whose value the block computes from other state; `none` for one that is stored. -/
def State.calcVal (s : State) (ty i off : Nat) : Option Word :=
  let w := (off - 0x800) / 4
  match ty with
  | 1 => if off = 0x4C then some s.pendType else if 0x80 ≤ off && off < 0x100 then some (s.pendMap ((off - 0x80) / 4)) else none
  | 3 =>
    if off = 0x40 then some (s.engSts i)
    else if off = 0x100 then some (setFld (s.reg (Reg.ISL_SEQ_STS i)) 0 1 (b2n (s.issuing i)))
    else if off = 0x10C then some (BitVec.ofNat 32 (min 511 (s.leasedOn i)))
    else if off = 0x200 then some (BitVec.ofNat 32 (s.freePages i).length)
    else if 0x920 ≤ off && off < 0x96C then some (s.tage i ((off - 0x920) / 4))
    else if 0xC00 ≤ off then
      some (word4 fun k => let t := Store.get tagNone s.tags (i * 1024 + (off - 0xC00) + k); if t = 0 then 0 else t - 1 + 128)
    else none
  | 4 =>
    if off = 0x78 then some (BitVec.ofNat 32 (s.ckGain i))
    else if off = 0xB0 then some (BitVec.ofNat 32 (s.ageMax i))
    else if 0x800 ≤ off then some (s.trimWord i w)
    else none
  | 5 => if off = 0x64 then some (setFld (s.reg (Reg.HBR_PATROL_STS i)) 0 10 (s.patrolProgress i)) else none
  | 6 =>
    if off = 0x44 then
      some (BitVec.ofNat 32 (s.cmdPend + (2 ^ min 4 s.imports.length - 1) * 2 ^ 17 + b2n (!s.imports.isEmpty) * 2 ^ 21))
    else if 0x80 ≤ off && off < 0xA0 then some (BitVec.ofNat 32 (s.portLanes ((off - 0x80) / 4)))
    else none
  | 7 =>
    if off = 0x54 then some (BitVec.ofNat 32 (s.profile.vmin + s.profile.vmax * 65536))
    else if off = 0x58 then some (setFld (s.reg Reg.SLU_AVS_STS) 28 1 (b2n s.fastLoaded))
    else if 0x100 ≤ off && off < 0x200 then s.sluWord ((off - 0x100) / 32) (off % 32 / 4)
    else none
  | 8 =>
    if off = 0x48 then some (s.count.setWidth 32)
    else if off = 0x4C then some ((s.count >>> 32).setWidth 32)
    else if off = 0x6C then some (BitVec.ofNat 32 (twos 16 s.freqAdj))
    else none
  | 9 =>
    if off = 0x44 then some s.keySts
    else if 0x60 ≤ off && off < 0x70 then some (s.keyRegWord ((off - 0x60) / 4))
    else none
  | 10 =>
    if off = 0x48 then some s.hifSts
    else if off = 0x60 then some (s.refuseWord false)
    else if off = 0x64 then some (s.refuseWord true)
    else if 0x400 ≤ off && off < 0x500 then some (s.flBind ((off - 0x400) / 4))
    else if 0x800 ≤ off && off < 0x900 then some (s.ovfUse w)
    else none
  | 11 => if off = 0x44 then some s.cswSts else none
  | 12 =>
    if off = 0x40 then some s.logSts
    else if off = 0x44 then some (BitVec.ofNat 32 (s.log.freeSlot 65 s.log.head))
    else if off = 0x48 then some (BitVec.ofNat 32 s.log.seq)
    else if 0x800 ≤ off then some (s.logWord w)
    else none
  | 13 => if 0x60 ≤ off && off < 0x80 then some (s.vfyWord (s.getF Reg.CAL_VFY_SEL 0 10) ((off - 0x60) / 4)) else none
  | 15 => if off = 0x48 then some s.rcvSts else none
  | 16 =>
    if off = 0x60 || off = 0x64 then some (BitVec.ofNat 32 ((s.fwRec ((off - 0x60) / 4)).elim 0 (·.1)))
    else if off = 0x68 || off = 0x6C then some (BitVec.ofNat 32 (s.fwVersion ((off - 0x68) / 4)))
    else if off = 0x80 then some s.flashSts
    else none
  | 18 =>
    if off = 0x40 then some (s.prtCfg i)
    else if off = 0x44 then some (setFld (s.reg (Reg.PRT_STS i)) 8 7 (s.ctxCount i))
    else if off = 0x48 then some (BitVec.ofNat 32 (bitsOf 32 fun c => s.ctxPart c = i))
    else if off = 0x4C then some (BitVec.ofNat 32 (bitsOf 32 fun c => s.ctxPart (32 + c) = i))
    else if off = 0x50 then some (BitVec.ofNat 32 ((List.range 1024).filter fun gt => s.tileOwn i gt != 0).length)
    else if 0x400 ≤ off && off < 0x800 then some (word4 fun k => s.tileOwn i (off - 0x400 + k))
    else none
  | 19 => if off = 0x68 then some (s.winWord i) else none
  | _ => none

/-- The value of the register at a BAR0 offset; write-only registers and offsets that no table assigns read 0 (R8, R9). -/
def State.val (s : State) (a : Nat) : Word :=
  let ty := adrType a
  let i := adrInst a
  let off := adrOff a
  if !pageImplemented a then 0
  else if off < 0x40 then s.hdrVal ty i off
  else match regAcc a with
    | none => 0
    | some .wo => 0
    | _ => (s.calcVal ty i off).getD (s.reg a)

/-- The registers at 0x100 to 0x13C of the HIF page (R728). -/
def isBank (a : Nat) : Bool := adrType a = 10 && decide (0x100 ≤ adrOff a) && decide (adrOff a < 0x140)

/-- The value of a banked register of function f; Q_SEL to Q_SPILL show the selected queue (R762). -/
def State.bankVal (s : State) (f a : Nat) : Word :=
  let q := fld (s.reg (bankReg f Reg.HIF_Q_SEL)) 0 4
  match adrOff a with
  | 0x104 => 0
  | 0x124 => s.qSts f q
  | 0x128 => s.qPtrs f q
  | 0x12C => BitVec.ofNat 32 (s.qp f q).spilled.length
  | _ => s.reg (bankReg f a)

/-- The value that a requester's read reaches; `via`: the PF's separate path to another function's bank (R728). -/
def State.valFor (s : State) (rq : Requester) (via : Bool) (a : Nat) : Word :=
  if isBank a then (match s.qBank rq via with | some f => s.bankVal f a | none => 0) else s.val a

/-! ## Bad accesses (R778, R779, R818) -/

/-- The offset is implemented for the requester; the peek windows only for the causeway and debug (R778, R815). -/
def implementedFor (rq : Requester) (a : Nat) : Bool :=
  if a < 0x5400000 then pageImplemented a
  else (0xC000000 ≤ a || (0x8000000 ≤ a && a < 0x9400000)) && (rq = .causeway || rq = .debug)

/-- BAD_ACC_INFO.FUNC and SRC. -/
def Requester.info : Requester → Nat
  | .fn f => f
  | .pilot n => n + 64
  | .causeway => 128
  | .debug => 192

/-- An access is counted and latched. -/
def State.badAccess (s : State) (rq : Requester) (a : Nat) (write : Bool) (kind : Nat) : State :=
  let s := s.incSat Reg.TOP_BAD_ACC_CNT 1
  let s := s.setReg Reg.TOP_BAD_ACC_ADDR (BitVec.ofNat 32 (a % 2 ^ 28))
  let s := s.setReg Reg.TOP_BAD_ACC_INFO (BitVec.ofNat 32 (Requester.info rq + b2n write * 256 + kind * 512))
  if s.badAccTick.elim true fun t => decide (t + 125000 ≤ s.now) then
    ({ s with badAccTick := some s.now } : State).raise 1 0 Ev.TOP_BAD_ACCESS none 255 255
  else s

/-! ## Reads (R8, R781, R806, R807, R813) -/

/-- The register offset that a peek offset mirrors (R812). -/
def peekOf (a : Nat) : Option Nat :=
  if 0xC000000 ≤ a then some (a - 0xC000000) else if 0x8000000 ≤ a && a < 0x9400000 then some (a - 0x4000000) else none

/-- Who may read a register: a VF only its own CTX page, its HIF bank and the header of those pages (R698, R763, R781; log entry 41). -/
def mayRead (rq : Requester) (a : Nat) : Bool :=
  match rq with
  | .fn f =>
    f = 0 || (adrType a = 19 && adrInst a = f.val) || (adrType a = 10 && (adrOff a < 0x40 || isBank a))
  | _ => true

/-- Requester numbers of the shadows and staged words. -/
def Requester.code : Requester → Nat
  | .fn f => f
  | .pilot n => 64 + n
  | .causeway => 72
  | .debug => 73

/-- R807: one shadow for each requester and page. -/
def halfKey (rq : Requester) (a : Nat) : Nat := Requester.code rq * 32768 + a / 0x1000

/-- No half kept. -/
def halfNone (_ : Nat) : Half := {}

/-- R8: a register of access RC is cleared by a read. -/
def State.readClear (s : State) (a : Nat) : State :=
  if adrOff a = 0x28 then s.updHd (adrType a) (adrInst a) fun h => { h with errCnt := 0 }
  else if regAcc a = some .rc then
    let s := s.setReg a 0
    if a = Reg.THM_TJ_PEAK then { s with thm := { s.thm with peakNew := true } } else s
  else s

/-- A normal 32-bit read: the value, and its side effects. -/
def State.regRead (s : State) (rq : Requester) (via : Bool) (a : Nat) : Word × State :=
  if !implementedFor rq a then (0, s.badAccess rq a false 0)
  else match peekOf a with
    | some b => (s.valFor rq via b, s)
    | none =>
      if !mayRead rq a then (0, s)
      else
        let v := s.valFor rq via a
        if isLow a then
          (v, { s with shadow := Store.put halfNone s.shadow (halfKey rq a) { valid := true, low := a, word := s.valFor rq via (a + 4) } })
        else if isHigh a then
          let h := Store.get halfNone s.shadow (halfKey rq a)
          (if h.valid && h.low = a - 4 then h.word else v, s)
        else (v, s.readClear a)

/-- A read returns its data to the requester. -/
def State.readOut (s : State) (rq : Requester) (via : Bool) (a : Nat) : State :=
  let (v, s) := s.regRead rq via a
  s.emit (.data (leBytes v.toNat 4))

/-! ## The common header's writes (R781, R784 to R789, R799, R801, R963) -/

/-- R788: EVT_EN is written; bits that were raised while disabled become pending, lowest first. -/
def State.writeEn (s : State) (ty inst : Nat) (v : Word) : State :=
  let h := s.hd ty inst
  let en := v &&& evtImpl ty
  let new := en &&& h.raw &&& ~~~ h.pend
  let s := s.updHd ty inst fun h => { h with en := en, pend := h.pend ||| new }
  if new = 0 then s else s.routeHost ty inst 255

/-- R787: 1 bits written to EVT_PEND clear both registers. -/
def State.writePend (s : State) (ty inst : Nat) (v : Word) : State :=
  s.updHd ty inst fun h => { h with raw := h.raw &&& ~~~ v, pend := h.pend &&& ~~~ v }

/-- R789: 1 bits written to EVT_FORCE raise their events with a zero payload, lowest first. -/
def State.writeForce (s : State) (ty inst : Nat) (v : Word) : State :=
  (List.range 32).foldl (fun s n =>
    if v.getLsbD n then s.raiseOnly ty inst n (some []) (if ty = 19 then inst else 255)
      (if ty = 19 then s.ctxPart inst else if ty = 18 then inst else if ty = 3 then (s.partOf inst).getD 255
        else if ty = 4 then (s.partOf (inst / 16)).getD 255 else 255) true
    else s) s

/-- The source bit of a requester changes; setting it writes REASON, whether or not it was set (R799, R963). -/
def PageHdr.setFence (h : PageHdr) (rq : Requester) (on : Bool) : PageHdr :=
  let h := if on then { h with reason := match rq with | .fn _ => 1 | .pilot _ => 3 | _ => 2 } else h
  match rq with
  | .fn _ => { h with fenceHost := on }
  | .pilot _ => { h with fenceDp := on }
  | _ => { h with fenceCsw := on }

/-- The bit of FENCE that a requester writes. -/
def fenceBit : Requester → Nat
  | .fn _ => 3
  | .pilot _ => 1
  | _ => 2

/-- P1's view of a unit that nothing has been reported of. -/
def viewNone (_ : Nat) : View := {}

/-- R950: P1's view of a page whose fence the causeway has written. -/
def State.noteView (s : State) (ty inst : Nat) (on : Bool) : State :=
  { s with views := Store.upd viewNone s.views (ty * 1024 + inst) fun v => { v with csw := on, fenced := on || (s.hd ty inst).fenced } }

/-- A write of FENCE: it takes effect at the next edge (R801), at once while the tide stands. -/
def State.writeFence (s : State) (rq : Requester) (ty inst : Nat) (v : Word) : State :=
  if !fenceable ty then s
  else
    let was := s.ownFenced ty inst
    let s := s.updHd ty inst fun h => { h.setFence rq (v.getLsbD (fenceBit rq)) with fenceWas := was, fenceEff := s.now + 1 }
    let s := { s with fencing := if s.fencing.contains (ty, inst) then s.fencing else s.fencing ++ [(ty, inst)] }
    let s := if rq = .causeway then s.noteView ty inst (v.getLsbD (fenceBit rq)) else s
    if s.tideRuns then s else s.fenceEdge

/-- Writes of the header. -/
def State.hdrWrite (s : State) (rq : Requester) (ty inst off : Nat) (v : Word) : State :=
  if !s.stdWriter rq then s
  else match off with
    | 0x0C => s.updHd ty inst fun h => { h with ctl := v &&& 3 }
    | 0x18 => s.writeEn ty inst v
    | 0x1C => s.writePend ty inst v
    | 0x20 => s.writeForce ty inst v
    | 0x24 => s.writeFence rq ty inst v
    | _ => s

/-! ## Who may write each register (the access rule of each page) -/

/-- The requester may write the register; VFs nothing but what R698 and R728 give them, debug only while unlocked (R1061). -/
def State.mayWrite (s : State) (rq : Requester) (a : Nat) (v : Word) : Bool :=
  let off := adrOff a
  let inst := adrInst a
  let pcie : Bool := match rq with | .fn _ => true | _ => false
  let dbg : Bool := rq = .debug
  match adrType a with
  | 2 => if off = 0x48 then rq = .pilot (Fin.ofNat 8 inst) else rq = .pilot 0 || rq = .pilot 4 || (dbg && s.dbgOpen)
  | 3 => s.stdWriter rq && !dbg
  | 4 =>
    if off = 0xA0 then Requester.inner rq
    else if off = 0x7C || (0x80 ≤ off && off < 0x90) || 0x800 ≤ off then Requester.trims rq
    else if 0x100 ≤ off && off < 0x580 && s.getB (Reg.TIL_CTL inst) 1 then s.stdWriter rq && !pcie
    else s.stdWriter rq
  | 5 => s.dpWriter rq
  | 6 => s.dpWriter rq
  | 7 => s.dpWriter rq
  | 8 => s.tidWriter rq (off = 0x50 || off = 0x58 || off = 0x5C || (0x70 ≤ off && off < 0x80))
  | 9 => if off = 0x40 && fld v 0 4 = 3 then rq = .causeway else isMgmt rq
  | 10 => if isBank a then (match rq with | .fn _ => true | .causeway => true | _ => false) else isMgmt rq
  | 12 => if off = 0x50 then s.logWriter rq else s.stdWriter rq
  | 13 => s.calWriter rq
  | 15 => isMgmt rq
  | 16 => isMgmt rq
  | 17 => if off = 0x40 then dbg && s.dbgOpen else dbg || (off = 0x48 && rq = .causeway && fld v 0 4 = 2)
  | 19 => isMgmt rq || (rq = .fn (Fin.ofNat 64 inst) && (off = 0x58 || off = 0x5C || (off = 0x40 && fld v 0 4 = 3)))
  | _ => s.stdWriter rq

/-- The access rules let a requester write a value to an offset. -/
def State.accepts (s : State) (rq : Requester) (a : Nat) (v : Word) : Bool :=
  a % 4 = 0 && a < 0x5400000 && pageImplemented a
    && (if adrOff a < 0x40 then
          s.stdWriter rq && (adrOff a = 0x0C || adrOff a = 0x18 || adrOff a = 0x1C || adrOff a = 0x20 || (adrOff a = 0x24 && fenceable (adrType a)))
        else s.mayWrite rq a v && (regAcc a = some .rw || regAcc a = some .wo || regAcc a = some .rw1c))

/-! ## Registers with behaviour of their own -/

/-- The state after a command's meaning. -/
def runOn (f : State → Host.Outcome State Fault Refusal) (s : State) : State :=
  match f s with
  | .next t => t
  | _ => s

/-- CTX_CMD (R697). -/
def State.writeCtxCmd (s : State) (rq : Requester) (c : Ctx) (v : Word) : State :=
  match fld v 0 4 with
  | 1 => runOn (execCtxCreate rq c) s
  | 2 => runOn (execCtxDestroy rq c) s
  | 3 => runOn (execInstallKey rq c) s
  | 4 => runOn (execCtxBack rq c (Fin.ofNat _ (fld v 8 24))) s
  | _ => s

/-- KEY_CMD (R704). -/
def State.writeKeyCmd (s : State) (rq : Requester) (v : Word) (env : WriteEnv) : State :=
  match fld v 0 4 with
  | 1 => runOn (execRegKey rq (Fin.ofNat _ (fld v 8 7)) env.ok) s
  | 2 => runOn (execRevokeKey rq (Fin.ofNat _ (fld v 8 7))) s
  | 3 => runOn (execZeroise rq (Fin.ofNat _ (fld v 16 6))) s
  | _ => s

/-- Q_CMD (R762). -/
def State.writeQCmd (s : State) (rq : Requester) (via : Bool) (v : Word) : State :=
  match fld v 0 2 with
  | 1 => runOn (execQCreate rq via) s
  | 2 => runOn (execQDelete rq via) s
  | _ => s

/-- LOG_CMD (R1003). -/
def State.writeLogCmd (s : State) (rq : Requester) (v : Word) : State :=
  match fld v 0 2 with
  | 1 => runOn (execUnpin rq (Fin.ofNat _ (fld v 16 14))) s
  | 2 => runOn (execUnpinAll rq) s
  | _ => s

/-- CAL_CMD (R239). -/
def State.writeCalCmd (s : State) (rq : Requester) (v : Word) : State :=
  let sc : Fin 4 := Fin.ofNat _ (fld v 4 2)
  let tg : Fin 1024 := Fin.ofNat _ (fld v 6 10)
  match fld v 0 4 with
  | 1 => runOn (execRunCal rq sc tg) s
  | 2 => runOn (execCalCommit rq sc tg) s
  | 3 => runOn (execCalRevert rq sc tg) s
  | 4 => runOn (execCalAbort rq sc tg) s
  | 5 => runOn (execCalSnapshot rq sc tg) s
  | _ => s

/-- TST_CMD (R915). -/
def State.writeTstCmd (s : State) (rq : Requester) (v : Word) : State :=
  let tg : Fin 1024 := Fin.ofNat _ (fld v 4 10)
  match fld v 0 4 with
  | 1 => runOn (execTestTile rq tg) s
  | 2 => runOn (execTestIsland rq tg) s
  | _ => s

/-- RCV_CMD (R961). -/
def State.writeRcvCmd (s : State) (rq : Requester) (v : Word) : State :=
  let tg : Fin 256 := Fin.ofNat _ (fld v 8 8)
  match fld v 0 4 with
  | 1 => runOn (execCtxCmd rq tg) s
  | 2 => runOn (execEngineCmd rq tg) s
  | 3 => runOn (execPartitionCmd rq tg) s
  | 4 => runOn (execWarmCmd rq) s
  | 5 => runOn (execPwrcycCmd rq) s
  | 6 => runOn (execResumeCmd rq) s
  | _ => s

/-- PROF_CMD and FW_CMD (R1055). -/
def State.writeBootCmd (s : State) (rq : Requester) (off : Nat) (v : Word) (env : WriteEnv) : State :=
  let tg : Fin 4 := Fin.ofNat _ (fld v 2 2)
  if off = 0x54 then (if fld v 0 2 = 1 then runOn (execFwWrite rq env.image env.ver env.svn env.ok) s else s)
  else match fld v 0 2 with
    | 1 => runOn (execProfSelect rq tg) s
    | 2 => runOn (execWriteProfile rq tg) s
    | 3 => runOn (execWriteIndex rq tg) s
    | _ => s

/-- DBG_CMD (R1075). -/
def State.writeDbgCmd (s : State) (rq : Requester) (v : Word) (env : WriteEnv) : State :=
  let n : Pilot := Fin.ofNat _ (fld v 4 3)
  match fld v 0 4 with
  | 1 => runOn (execDbgUnlock rq env.ok) s
  | 2 => runOn (execDbgLock rq) s
  | 3 => runOn (execDbgHalt rq n) s
  | 4 => runOn (execDbgResume rq n) s
  | _ => s

/-- RFSH_CTL (R171, R172, R149, R164): FENCE_KEEP and DIG_CHECK_EN, then GRID, PHASE and RELEASE. -/
def State.writeRfshCtl (s : State) (gt : Nat) (v : Word) : State :=
  let s := s.setF (Reg.TIL_RFSH_CTL gt) 1 2 (fld v 1 2)
  let s := (s.writeGrid gt (bit v 0)).writePhase gt (fld v 8 6)
  if bit v 3 then s.release gt else s

/-- COLMAP_CTL (R108): EN, then APPLY. -/
def State.writeColmapCtl (s : State) (gt : Nat) (v : Word) : State :=
  let s := s.setF (Reg.TIL_COLMAP_CTL gt) 0 4 (fld v 0 4)
  if bit v 8 then s.applyMap gt else s

/-- PEND_SEL (R835). -/
def State.writePendSel (s : State) (v : Word) : State :=
  ({ s with pendWas := (s.pendShown, s.now + 1) } : State).plainWrite Reg.TOP_PEND_SEL v

/-- A register of access RW1C (R8). -/
def State.clearBits (s : State) (a : Nat) (v : Word) : State := s.setReg a (s.reg a &&& ~~~ (v &&& regMask a))

/-- A write that the access rules let through to a register beyond the header. -/
def State.act (s : State) (rq : Requester) (via : Bool) (a : Nat) (v : Word) (env : WriteEnv) : State :=
  let inst := adrInst a
  let off := adrOff a
  match adrType a, off with
  | 1, 0x50 => s.writePendSel v
  | 2, 0x48 => runOn (execWdKick (Fin.ofNat _ inst) v) s
  | 3, 0x400 => s.writeWeirCtl inst v
  | 4, 0x7C => s.writeColmapCtl inst v
  | 4, 0xA0 => s.writeRfshCtl inst v
  | 7, 0x40 => s.writeSluCtl v
  | 7, 0x48 => s.writeCap a v
  | 7, 0x50 => s.writeAvsCtl v
  | 8, 0x50 => s.writePpsCtl v
  | 8, 0x9C => s.writeSlkCtl v
  | 8, 0xB0 => s.writeTktSel v
  | 9, 0x40 => s.writeKeyCmd rq v env
  | 12, 0x50 => s.writeLogCmd rq v
  | 13, 0x40 => s.writeCalCmd rq v
  | 14, 0x48 => s.writeTstCmd rq v
  | 15, 0x44 => s.writeRcvCmd rq v
  | 16, 0x4C => s.writeBootCmd rq off v env
  | 16, 0x54 => s.writeBootCmd rq off v env
  | 17, 0x40 => s.writeFreeze (bit v 0)
  | 17, 0x48 => s.writeDbgCmd rq v env
  | 19, 0x40 => s.writeCtxCmd rq (Fin.ofNat _ inst) v
  | ty, _ =>
    if ty = 4 && 0x800 ≤ off then s.writeTrim inst ((off - 0x800) / 4) v
    else if ty = 7 && 0x100 ≤ off then s.writeCap a v
    else if ty = 10 && off = 0x104 then s.writeQCmd rq via v
    else if ty = 11 && 0x50 ≤ off && off < 0x60 then
      -- R972: the management record follows the address registers.
      let s := s.plainWrite a v
      s.writeMgmt s.mgmtTable
    else s.plainWrite a v

/-- The register that a write reaches: a banked one in the bank of R728. -/
def State.target (s : State) (rq : Requester) (via : Bool) (a : Nat) : Option Nat :=
  if isBank a then (s.qBank rq via).map fun f => bankReg f a else some a

/-- Store under the mask of the register at `a`, in the register `b` that holds it. -/
def State.store (s : State) (a b : Nat) (v : Word) : State := s.setReg b ((s.reg b &&& ~~~ regMask a) ||| (v &&& regMask a))

/-- R808: the pair at low offset `a` takes both words at one edge. -/
def State.commitPair (s : State) (a lo : Nat) (low high : Word) : State :=
  if a = Reg.TID_PPS_BASE_LO then s.writePpsBase (high ++ low)
  else (s.store a lo low).store (a + 4) (lo + 4) high

/-- A write to a register of access RW of a pair, or to any other register beyond the header (R8, R808). -/
def State.bodyWrite (s : State) (rq : Requester) (via : Bool) (a : Nat) (v : Word) (env : WriteEnv) : State :=
  match regAcc a, s.target rq via a with
  | some .rw, some b =>
    let k := halfKey rq a
    if isLow a then { s with staged := Store.put halfNone s.staged k { valid := true, low := b, word := v } }
    else if isHigh a then
      let h := Store.get halfNone s.staged k
      if h.valid && h.low = b - 4 then ({ s with staged := Store.put halfNone s.staged k {} } : State).commitPair (a - 4) (b - 4) h.word v
      else s.commitPair (a - 4) (b - 4) (s.reg (b - 4)) v
    else if isBank a then s.store a b v
    else s.act rq via a v env
  | some .wo, some _ => s.act rq via a v env
  | some .rw1c, some _ => s.clearBits a v
  | _, _ => s

/-- A write to an implemented page outside the peek windows, out of reset. -/
def State.applyWrite (s : State) (rq : Requester) (via : Bool) (a : Nat) (v : Word) (env : WriteEnv) : State :=
  if adrOff a < 0x40 then s.hdrWrite rq (adrType a) (adrInst a) (adrOff a) v
  else if s.mayWrite rq a v then s.bodyWrite rq via a v env
  else s

/-- A 32-bit write: bad offsets are counted (R778), peek writes ignored (R814), writes to a page in reset held (R834). -/
def State.regWrite (s : State) (rq : Requester) (via : Bool) (a : Nat) (v : Word) (env : WriteEnv) : State :=
  if !implementedFor rq a then s.badAccess rq a true 0
  else if 0x5400000 ≤ a then s
  else if s.pageReset (adrType a) (adrInst a) then { s with heldWrites := s.heldWrites ++ [⟨rq, via, a, v, env⟩] }
  else s.applyWrite rq via a v env

/-- R834: held writes to pages that have left reset are applied in arrival order. -/
def State.releaseWrites (s : State) : State :=
  let out (w : HeldWrite) : Bool := !s.pageReset (adrType w.addr) (adrInst w.addr)
  (s.heldWrites.filter out).foldl (fun s w => s.applyWrite w.rq w.via w.addr w.val w.env)
    { s with heldWrites := s.heldWrites.filter fun w => !out w }

/-! ## The commands -/

/-- EVT_PEND_WRITE (R787). -/
def execEvtPendWrite (rq : Requester) (ty : Fin 21) (inst : Fin 1024) (v : Word) (s : State) : Host.Outcome State Fault Refusal :=
  .next (s.regWrite rq false (pageAddr ty inst + 0x1C) v {})

/-- EVT_EN_WRITE (R788). -/
def execEvtEnWrite (rq : Requester) (ty : Fin 21) (inst : Fin 1024) (v : Word) (s : State) : Host.Outcome State Fault Refusal :=
  .next (s.regWrite rq false (pageAddr ty inst + 0x18) v {})

/-- EVT_FORCE (R789). -/
def execEvtForce (rq : Requester) (ty : Fin 21) (inst : Fin 1024) (v : Word) (s : State) : Host.Outcome State Fault Refusal :=
  .next (s.regWrite rq false (pageAddr ty inst + 0x20) v {})

/-- FENCE_WRITE (R799). -/
def execFenceWrite (rq : Requester) (ty : Fin 21) (inst : Fin 1024) (v : Word) (s : State) : Host.Outcome State Fault Refusal :=
  .next (s.regWrite rq false (pageAddr ty inst + 0x24) v {})

/-- RW1C_WRITE (R8). -/
def execRw1cWrite (rq : Requester) (a : Fin 268435456) (v : Word) (s : State) : Host.Outcome State Fault Refusal :=
  .next (s.regWrite rq false a v {})

/-- RC_READ (R8): a normal read; an RC register is cleared. -/
def execRcRead (rq : Requester) (a : Fin 268435456) (s : State) : Host.Outcome State Fault Refusal := .next (s.readOut rq false a)

/-- RP_READ (R8): a normal read.  No page table of the spec assigns a register of access RP, so there is no head entry to pop (log entry 42). -/
def execRpRead (rq : Requester) (a : Fin 268435456) (s : State) : Host.Outcome State Fault Refusal := .next (s.readOut rq false a)

/-- LOW_WORD_READ (R806): a normal read; the low word of a pair latches its high word. -/
def execLowWordRead (rq : Requester) (via : Bool) (a : Fin 268435456) (s : State) : Host.Outcome State Fault Refusal :=
  .next (s.readOut rq via a)

/-- LOW_WORD_WRITE (R808). -/
def execLowWordWrite (rq : Requester) (via : Bool) (a : Fin 268435456) (v : Word) (s : State) : Host.Outcome State Fault Refusal :=
  .next (s.regWrite rq via a v {})

/-- HIGH_WORD_WRITE (R808). -/
def execHighWordWrite (rq : Requester) (via : Bool) (a : Fin 268435456) (v : Word) (s : State) : Host.Outcome State Fault Refusal :=
  .next (s.regWrite rq via a v {})

/-- REG_WRITE (R8): a 32-bit write to any offset; a command register's write carries `env`. -/
def execRegWrite (rq : Requester) (via : Bool) (a : Fin 268435456) (v : Word) (env : WriteEnv) (s : State) :
    Host.Outcome State Fault Refusal :=
  .next (s.regWrite rq via a v env)

/-- TOP_BAD_ACCESS (R778, R779): an access of `bytes` bytes.  One of 32 or 64 bits, naturally aligned, to an unimplemented offset counts once for
each register; one of another size or alignment counts once with KIND 1; either read returns 0. An access that is neither is no bad access. -/
def execTopBadAccess (rq : Requester) (a : Fin 268435456) (bytes : Fin 65) (write : Bool) (s : State) :
    Host.Outcome State Fault Refusal :=
  .next <|
    let out (s : State) : State := if write then s else s.emit (.data (List.replicate bytes 0))
    if !((bytes.val = 4 || bytes.val = 8) && a.val % bytes.val = 0) then out (s.badAccess rq a write 1)
    else if implementedFor rq a then s
    else if bytes.val = 8 then out ((s.badAccess rq a write 0).badAccess rq (a + 4) write 0)
    else out (s.badAccess rq a write 0)

/-- PEND_SEL_WRITE (R835). -/
def execPendSelWrite (rq : Requester) (v : Word) (s : State) : Host.Outcome State Fault Refusal :=
  .next (s.regWrite rq false Reg.TOP_PEND_SEL v {})

end Sys2Proof.Machine
end

