-- ==== Sys2Proof/Machine/Csw.lean ====
section
/-!
DEFINITION. The causeway: sessions, messages, event reports, telemetry, pushes, the Ethernet port's own answers, and the monitoring over MCTP and
PLDM (R893, R912, R971 to R980, R992 to R998, R1009 to R1012, R1032 to R1035).
-/
namespace Sys2Proof.Machine

/-! ## Ports and messages (R971, R973, R976 to R978, R1010, R1032) -/

/-- Recovery mode: P1's ROM serves only MCTP on the I3C port (R1032). -/
def State.recoveryMode (s : State) : Bool := s.getB Reg.BOOT_STS 11

/-- P1 hears a port: it runs, the port is in service, and the Ethernet link is up. -/
def State.hears (s : State) (i3c : Bool) : Bool :=
  s.pilSt 1 = 1 && (if i3c then s.getB Reg.CSW_CTL 1 else s.getB Reg.CSW_CTL 0 && s.getB Reg.CSW_STS 0)

/-- A message on the I3C port that the running firmware serves. -/
def State.serves (s : State) (i3c : Bool) : Bool := s.hears i3c && !s.recoveryMode

/-- R976: a message is dropped: AUTH_FAIL_CNT, and CSW_AUTH_FAIL at most once per second. -/
def State.authFail (s : State) : State :=
  let s := s.incSat Reg.CSW_AUTH_FAIL_CNT 1
  if s.authTick = 0 || s.authTick - 1 + 125000000 ≤ s.now then
    ({ s with authTick := s.now + 1 } : State).raise 11 0 Ev.CSW_AUTH_FAIL none 255 255
  else s

/-- The open session of an identifier. -/
def State.session (s : State) (sid : Word) : Option Session := s.sessions.find? fun x => x.id = sid.toNat

/-- Change a session. -/
def State.setSession (s : State) (x : Session) : State :=
  { s with sessions := s.sessions.map fun y => if y.id = x.id then x else y }

/-- A datagram counter of the CSW page; messages over I3C are no datagrams. -/
def State.countMsg (s : State) (i3c : Bool) (a : Nat) : State := if i3c then s else s.incSat a 1

/-- A message to a session, with the next of the device's sequence numbers (R977). -/
def State.say (s : State) (x : Session) (ty status flags : Nat) (body : List Byte) : State :=
  (((s.setSession { (s.session (BitVec.ofNat 32 x.id)).getD x with tx := ((s.session (BitVec.ofNat 32 x.id)).getD x).tx + 1 }).countMsg x.i3c Reg.CSW_TX_CNT).emit
    (.causeway x.id ty status flags body))

/-- R978: the one reply to a request: TYPE | 0x80, the request's SEQ in bytes 0 to 3. -/
def State.reply (s : State) (x : Session) (ty status : Nat) (seq : Word) (body : List Byte) : State :=
  s.say x (ty + 128) status 0 (leBytes seq.toNat 4 ++ body)

/-- R976: a message whose tag verifies reaches P1: dropped unless its session is open and its sequence number lies above the highest accepted, less a
window of 64; else it is accepted and `f` serves it. -/
def State.served (s : State) (sid seq : Word) (f : State → Session → State) : State :=
  match s.session sid with
  | none => if s.serves false || s.serves true then s.authFail else s
  | some x =>
    if !s.serves x.i3c then s
    else if seq.toNat + 64 ≤ x.rx then s.authFail
    else
      let x := { x with rx := max x.rx seq.toNat, last := s.now }
      f ((s.setSession x).countMsg x.i3c Reg.CSW_RX_CNT) x

/-! ## Sessions (R974, R975, R977, R1012) -/

/-- A free identifier: a drawn one, or the next that is neither 0 nor in use. -/
def State.freshId (s : State) (d : Nat) : Nat :=
  ((List.range 6).map fun k => (d + k) % 2 ^ 32).find? (fun i => i != 0 && !(s.sessions.any fun x => x.id = i)) |>.getD 1

/-- HELLO: `sigOk`: its signature verifies by management key `key`. -/
def execHello (i3c : Bool) (seq : Word) (key : Fin 4) (sigOk : Bool) (s : State) : Host.Outcome State Fault Refusal :=
  .next <|
    if !s.serves i3c then s
    else
      let s := s.countMsg i3c Reg.CSW_RX_CNT
      let answer (s : State) (st : Nat) (b : List Byte) : State :=
        (s.countMsg i3c Reg.CSW_TX_CNT).emit (.causeway 0 0x81 st 0 (leBytes seq.toNat 4 ++ b))
      if !sigOk || (Store.get mgmtNone s.mgmtKeys key).isEmpty then answer s 1 []
      else if 4 ≤ s.sessions.length then answer s 4 []
      else
        let (d, s) := s.nextDraw
        let id := s.freshId (d.toNat % 2 ^ 32)
        let (eph, s) := s.freeBytes 96
        let (nonce, s) := s.freeBytes 16
        let (sig, s) := s.freeBytes 96
        let s := { s with sessions := s.sessions ++ [{ id, key, i3c, last := s.now, tx := 1 }] }
        (answer s 0 (eph ++ leBytes id 4 ++ nonce ++ sig)).raise 11 0 Ev.CSW_SESSION none 255 255

/-- CLOSE: the session ends after its reply, its subscription with it. -/
def execCloseSession (sid seq : Word) (s : State) : Host.Outcome State Fault Refusal :=
  .next (s.served sid seq fun s x => (s.reply x 0x02 0 seq []).dropSessions fun y => y.id = x.id)

/-- SESSION_TIMEOUT: 30 s with no accepted message. -/
def execSessionTimeout (sid : Word) (s : State) : Host.Outcome State Fault Refusal :=
  .next (s.dropSessions fun x => x.id = sid.toNat && decide (x.last + 3750000000 ≤ s.now))

/-- CSW_AUTH_FAIL: a message on a port that fails its tag or names no session. -/
def execCswAuthFail (i3c : Bool) (s : State) : Host.Outcome State Fault Refusal := .next (if s.serves i3c then s.authFail else s)

/-- R975: the key is written to the identity area, or the request is refused. -/
def State.keySet (s : State) (open' : Bool) (key : Nat) (pub : List Byte) (sigOk : Bool) : State × Nat :=
  if pub.length != 96 then (s, 2)
  else if !open' || !sigOk then (s, 1)
  else (s.writeMgmt (Store.put mgmtNone s.mgmtTable key pub), 0)

/-- MGMT_KEY_SET: from the PF (`origin` 0), the I3C port without a session (1), or inside a session (2). -/
def execMgmtKeySet (origin : Fin 3) (sid seq : Word) (key : Fin 4) (pub : List Byte) (sigOk : Bool) (s : State) :
    Host.Outcome State Fault Refusal :=
  .next <|
    let bare := s.mgmtKeys.isEmpty
    if origin = 2 then
      s.served sid seq fun s x =>
        let (s, st) := s.keySet (bare || x.key = 0) key pub sigOk
        s.reply x 0x03 st seq []
    else if !(if origin = 0 then s.pilSt 1 = 1 && !s.recoveryMode else s.serves true) then s
    else
      let (s, st) := s.keySet bare key pub sigOk
      s.emit (.causeway 0 0x83 st 0 (leBytes seq.toNat 4))

/-! ## READ and WRITE (R979, R980) -/

/-- The offset lies in the CSW or LOG page, itself or through the peek windows (R980). -/
def cswLogPage (a : Nat) : Bool :=
  let t := adrType ((peekOf a).getD a)
  t = 11 || t = 12

/-- One value of a READ. -/
def State.cswRead1 (s : State) (peek : Bool) (a : Nat) : Word × State :=
  if !s.coreUp && !cswLogPage a then (0, s)
  else if a % 4 != 0 then (0, s.badAccess .causeway a false 1)
  else if peek then (if a < 0x5400000 then s.valFor .causeway false a else (s.regRead .causeway false a).1, s)
  else s.regRead .causeway false a

/-- `n` values from an offset. -/
def State.cswReads (s : State) (peek : Bool) (a : Nat) : Nat → List Word × State
  | 0 => ([], s)
  | n + 1 =>
    let (v, s) := s.cswRead1 peek a
    let (vs, s) := State.cswReads s peek (a + 4) n
    (v :: vs, s)

/-- READ: `peek`: the requester view. -/
def execCswRead (sid seq : Word) (peek : Bool) (a : Fin 268435456) (n : Fin 1024) (s : State) : Host.Outcome State Fault Refusal :=
  .next (s.served sid seq fun s x =>
    if n.val = 0 || 256 < n.val then s.reply x 0x10 2 seq []
    else
      let down := !s.coreUp && (List.range n).any fun i => !cswLogPage (a + 4 * i)
      let (vs, s) := s.cswReads peek a n
      s.reply x 0x10 (if down then 3 else 0) seq (vs.flatMap fun v => leBytes v.toNat 4))

/-- Values written from an offset on, with their accepted bits. -/
def State.cswWrites (s : State) (env : WriteEnv) (a : Nat) : List Word → List Bool × State
  | [] => ([], s)
  | v :: vs =>
    let (ok, s) :=
      if !s.coreUp && !cswLogPage a then (false, s)
      else if a % 4 != 0 then (false, s.badAccess .causeway a true 1)
      else (s.accepts .causeway a v, s.regWrite .causeway false a v env)
    let (oks, s) := State.cswWrites s env (a + 4) vs
    (ok :: oks, s)

/-- WRITE: bit i of the reply's 8 bytes: value i was accepted. -/
def execCswWrite (sid seq : Word) (a : Fin 268435456) (vals : List Word) (env : WriteEnv) (s : State) :
    Host.Outcome State Fault Refusal :=
  .next (s.served sid seq fun s x =>
    if vals.isEmpty || 64 < vals.length then s.reply x 0x11 2 seq []
    else
      let down := !s.coreUp && (List.range vals.length).any fun i => !cswLogPage (a + 4 * i)
      let (oks, s) := s.cswWrites env a vals
      s.reply x 0x11 (if down then 3 else 0) seq (leBytes (bitsOf 64 fun i => oks.getD i false) 8))

/-! ## The log over the causeway (R978, R992 to R994, R1008) -/

/-- How far one sequence number lies after another. -/
def seqDist (a b : Nat) : Nat := (b + 2 ^ 32 - a) % 2 ^ 32

/-- The committed record whose sequence number lies least far, but at least `d`, after `first`. -/
def State.recAfter (s : State) (first d : Nat) : Option LogRec :=
  s.log.slots.foldl (fun (b : Option LogRec) e =>
    let k := seqDist first e.2.seq
    if e.2.seq = 0 || k < d || 2 ^ 31 ≤ k then b
    else match b with
      | none => some e.2
      | some r => if k < seqDist first r.seq then some e.2 else b) none

/-- Up to `n` committed records from `first` on, in sequence order. -/
def State.recsFrom (s : State) (first d : Nat) : Nat → List LogRec
  | 0 => []
  | n + 1 =>
    match s.recAfter first d with
    | none => []
    | some r => r :: State.recsFrom s first (seqDist first r.seq + 1) n

/-- LOG_READ. -/
def execLogRead (sid seq first : Word) (n : Fin 256) (s : State) : Host.Outcome State Fault Refusal :=
  .next (s.served sid seq fun s x =>
    if n.val = 0 || 40 < n.val then s.reply x 0x20 2 seq []
    else s.reply x 0x20 0 seq ((s.recsFrom first.toNat 0 n).flatMap LogRec.bytes))

/-- SUBSCRIBE: records committed from now on whose class is at least `cls`. -/
def execSubscribe (sid seq : Word) (cls : Byte) (enable : Bool) (s : State) : Host.Outcome State Fault Refusal :=
  .next (s.served sid seq fun s x =>
    if 4 < cls.toNat then s.reply x 0x21 2 seq []
    else (s.setSession { x with sub := if enable then cls.toNat + 1 else 0, next := s.log.nextSeq }).reply x 0x21 0 seq [])

/-- Sequence numbers of committed records that a subscription has still to report, in sequence order. -/
def State.dueSeqs (s : State) (x : Session) : List Nat :=
  ((s.log.report.filter fun e =>
      x.sub ≤ e.2 && decide (seqDist x.next e.1 ≤ seqDist x.next s.log.seq) && decide (seqDist x.next s.log.seq < 2 ^ 31)).map (·.1)).mergeSort
    fun a b => seqDist x.next a ≤ seqDist x.next b

/-- The committed record of a sequence number, while it is in the ring. -/
def State.recOf (s : State) (q : Nat) : Option LogRec := (s.log.slots.find? fun e => e.2.seq = q).map (·.2)

/-- EVENT: a report to a session: overwritten records as a gap (R994), up to MAX_REC records, MORE when others wait. -/
def execEventReport (sid : Word) (s : State) : Host.Outcome State Fault Refusal :=
  .next <|
    match s.session sid with
    | none => s
    | some x =>
      let us := max 1 (s.getF Reg.CSW_EVT_BATCH 0 16)
      let n := max 1 (min 40 (s.getF Reg.CSW_EVT_BATCH 16 8))
      let due := s.dueSeqs x
      if x.sub = 0 || !s.serves x.i3c || due.isEmpty || (x.sent != 0 && decide (s.now < x.sent - 1 + us * 125)) then s
      else
        let lost := due.filter fun q => (s.recOf q).isNone
        let have' := due.filterMap fun q => s.recOf q
        let send := have'.take n
        let last := (send.getLast?.map (·.seq)).getD (lost.getLast?.getD 0)
        let x' := { x with next := if last = 0xFFFFFFFF then 1 else last + 1, sent := s.now + 1 }
        let gone := lost.filter fun q => send.isEmpty || seqDist x.next q < seqDist x.next last
        let s := s.setSession x'
        let s := if gone.isEmpty then s else s.incSat Reg.CSW_GAP_CNT 1
        let s := s.say x' 0x22 0 (b2n (n < have'.length) + 2 * b2n (!gone.isEmpty))
          ((if gone.isEmpty then [] else leBytes (gone.headD 0) 4 ++ leBytes (gone.getLast?.getD 0) 4) ++ send.flatMap LogRec.bytes)
        if gone.isEmpty then s else s.raise 11 0 Ev.CSW_REPORT_GAP none 255 255

/-! ## Telemetry and time (R996 to R998) -/

/-- The 256-byte block. -/
def State.telemetry (s : State) : List Byte :=
  padTo 256 (leBytes s.now 8 ++ (tabulate 64 fun i => BitVec.ofNat 8 (s.tj i)) ++ (tabulate 6 fun h => BitVec.ofNat 8 (s.getF (Reg.HBR_STACK_TJ h) 0 8))
    ++ leBytes (s.getF Reg.SLU_AVS_STS 0 12) 2 ++ leBytes (s.getF Reg.SLU_AVS_STS 16 12) 2
    ++ leBytes (s.get64 Reg.SLU_GRANT_ARR_LO Reg.SLU_GRANT_ARR_HI) 8 ++ leBytes (s.get64 Reg.SLU_GRANT_CORE_LO Reg.SLU_GRANT_CORE_HI) 8
    ++ (tabulate 8 fun p => BitVec.ofNat 8 (s.getF (Reg.PRT_STS p) 0 2)) ++ leBytes s.pendType.toNat 4 ++ leBytes s.log.seq 4
    ++ [BitVec.ofNat 8 (s.getF Reg.THM_STS 0 3), BitVec.ofNat 8 (fld s.rcvSts 0 3)])

/-- TELEMETRY. -/
def execTelemetry (sid seq : Word) (s : State) : Host.Outcome State Fault Refusal :=
  .next (s.served sid seq fun s x => s.reply x 0x30 0 seq s.telemetry)

/-- A timestamp within ±2 ticks of an instant. -/
def stamp (t : Nat) (err : Fin 5) : Nat := t + err - 2

/-- TIME_PROBE: the request came `turn` ticks ago; the errors of the two timestamps. -/
def execTimeProbe (sid seq : Word) (turn : Nat) (rxErr txErr : Fin 5) (s : State) : Host.Outcome State Fault Refusal :=
  .next (s.served sid seq fun s x => s.reply x 0x31 0 seq (leBytes (stamp (s.now - turn) rxErr) 8 ++ leBytes (stamp s.now txErr) 8))

/-- PTP_CAPTURE: the MAC captures an IEEE 1588 event message. -/
def execPtpCapture (ty : Fin 16) (dom : Byte) (seqId : Fin 65536) (err : Fin 5) (s : State) : Host.Outcome State Fault Refusal :=
  .next <|
    if !s.getB Reg.CSW_CTL 2 || !s.getB Reg.CSW_CTL 0 || !s.getB Reg.CSW_STS 0 then s
    else
      let n := s.getF Reg.CSW_TS_WR 0 4
      let s := s.set64 (Reg.CSW_TS_LO n) (Reg.CSW_TS_HI n) (stamp s.now err)
      let s := s.setReg (Reg.CSW_TS_ID n) (BitVec.ofNat 32 (seqId + dom.toNat * 65536 + ty * 2 ^ 24))
      s.setF Reg.CSW_TS_WR 0 4 (n + 1)

/-- CSW_LINK: the SGMII link changes. -/
def execCswLink (up : Bool) (s : State) : Host.Outcome State Fault Refusal :=
  .next (if !s.boot.aon || s.getB Reg.CSW_STS 0 = up then s else (s.setB Reg.CSW_STS 0 up).raise 11 0 Ev.CSW_LINK none 255 255)

/-! ## The Ethernet port's own answers (R971, R972, R1000) -/

/-- The tag of a frame sent. -/
def State.vlan (s : State) : Option Nat := if s.getB Reg.CSW_CTL 3 then some (s.getF Reg.CSW_CTL 4 12) else none

/-- The fused MAC address. -/
def State.mac (s : State) : List Byte := leBytes (s.reg Reg.CSW_MAC_LO).toNat 4 ++ leBytes (s.reg Reg.CSW_MAC_HI).toNat 2

/-- ARP_REQUEST: for the port's address; with no address, only a probe (sender 0.0.0.0) is answered. -/
def execArpRequest (sender target : Word) (s : State) : Host.Outcome State Fault Refusal :=
  .next <|
    let ip := s.reg Reg.CSW_IP_ADDR
    if s.serves false && target = ip && (ip != 0 || sender = 0) then s.emit (.eth 1 s.vlan (s.mac ++ leBytes ip.toNat 4)) else s

/-- ICMP_ECHO: the data come back. -/
def execIcmpEcho (dst : Word) (data : List Byte) (s : State) : Host.Outcome State Fault Refusal :=
  .next <|
    let ip := s.reg Reg.CSW_IP_ADDR
    if s.serves false && dst = ip && ip != 0 then s.emit (.eth 2 s.vlan data) else s

/-! ## Pushes (R891 to R893, R912, R913, R1032 to R1035, R1048, R1052) -/

/-- R1052, R1048: another writer is at the flash, or a select waits. -/
def State.pushBlocked (s : State) (kind : Nat) : Bool :=
  !s.flashq.isEmpty || s.getF Reg.BOOT_PROF_STS 0 2 = 2 || !(s.push.kind = 0 || s.push.kind = kind)

/-- The bank that is not active. -/
def State.idleBank (s : State) : Nat := 1 - s.getF Reg.TST_STS 0 1

/-- PAT_DATA: the first message of a push erases the inactive bank. -/
def execPatData (sid seq : Word) (off : Fin 33554432) (bytes : List Byte) (s : State) : Host.Outcome State Fault Refusal :=
  .next (s.served sid seq fun s x =>
    if !s.coreUp then s.reply x 0x40 3 seq []
    else if 1024 < bytes.length || 0x1000000 < off.val + bytes.length then s.reply x 0x40 2 seq []
    else if s.pushBlocked 2 || 2 ≤ s.getF Reg.TST_STS 4 2 then (s.tstErr 2).reply x 0x40 4 seq []
    else
      let b := s.idleBank
      let s := if s.push.kind = 2 then s
        else
          let s := ((s.setF Reg.TST_STS 4 2 1).tstErr 0).setB Reg.TST_STS (1 + b) false
          ({ s with push := { kind := 2 } } : State).flashErase (bankBase b) 0x1000000
      (s.flashProgram (bankBase b + off) bytes).reply x 0x40 0 seq [])

/-- R893, R912: why a bank is refused (TST_STS.ERR): 6 FLASH, 3 SIG, 4 DIGEST, 5 ROLLBACK. `sigOk`: SIG verifies; `readOk`: both read-backs agree. -/
def State.bankErr (s : State) (b len : Nat) (sigOk readOk : Bool) : Option Nat :=
  let h := s.flashBytes (bankBase b) 256
  let n := leAt h 16 8
  if !readOk then some 6
  else if leAt h 0 4 != 0x50544551 || leAt h 4 2 != 1 || leAt h 252 4 != (crc32c (h.take 252)).toNat || 0x1000000 < 256 + n || len != 256 + n then some 4
  else if !sigOk then some 3
  else if (h.drop 24).take 48 != digest (s.flashBytes (bankBase b + 256) n) then some 4
  else if s.getB Reg.TST_STS (1 + (1 - b)) && leAt h 8 4 ≤ leAt (s.flashBytes (bankBase (1 - b)) 16) 8 4 then some 5
  else none

/-- PAT_COMMIT: the bank is verified and waits for the switch (R913, TST_PAT_UPDATE), or it is refused. -/
def execPatCommit (sid seq : Word) (len : Fin 33554432) (sigOk readOk : Bool) (s : State) : Host.Outcome State Fault Refusal :=
  .next (s.served sid seq fun s x =>
    if !s.coreUp then s.reply x 0x41 3 seq []
    else if s.push.kind != 2 then (s.tstErr 2).reply x 0x41 4 seq []
    else
      let s' : State := { s with push := {} }
      match s.bankErr s.idleBank len sigOk readOk with
      | none => ((s'.setF Reg.TST_STS 4 2 3).tstErr 0).reply x 0x41 0 seq []
      | some e => (((s'.setF Reg.TST_STS 4 2 0).tstErr e).reply x 0x41 1 seq []).raise 14 0 Ev.TST_PAT_REJECT none 255 255)

/-- R1032: FW messages need no session in recovery mode, on the I3C port. -/
def State.servedFw (s : State) (sid seq : Word) (f : State → Session → State) : State :=
  if s.recoveryMode then (if s.hears true then f s { id := 0, key := 0, i3c := true } else s) else s.served sid seq f

/-- The slot that is not in use. -/
def State.idleSlot (s : State) : Nat := 1 - s.fwSlot

/-- FW_DATA: the bytes follow the slot's 64-byte header place; offset 0 erases the slot (R1034). `ok`: the flash programs them. -/
def execFwData (sid seq : Word) (off : Fin 33554432) (bytes : List Byte) (ok : Bool) (s : State) : Host.Outcome State Fault Refusal :=
  .next (s.servedFw sid seq fun s x =>
    if 1024 < bytes.length || 2097248 < off.val + bytes.length then s.reply x 0x42 2 seq []
    else if s.pushBlocked 1 || s.getF Reg.TST_STS 4 2 != 0 || (s.push.kind = 0 && s.getF Reg.BOOT_FW_STS 0 2 != 0) then
      (s.reply x 0x42 4 seq []).fwReject 6
    else if s.push.kind = 0 && off.val != 0 then s.reply x 0x42 2 seq []
    else
      let s := if off.val != 0 then s
        else
          let s := ((s.setF Reg.BOOT_FW_STS 0 2 2).setF Reg.BOOT_FW_STS 4 4 0).setB Reg.BOOT_FW_STS 8 false
          ({ s with push := { kind := 1 } } : State).flashErase (fwBase s.idleSlot) 0x800000
      if ok then (s.flashProgram (fwBase s.idleSlot + 64 + off) bytes).reply x 0x42 0 seq []
      else
        let s : State := { s.flashErr with push := {} }
        ((s.setF Reg.BOOT_FW_STS 0 2 0).reply x 0x42 1 seq []).fwReject 4)

/-- R1035: why an image is refused: 3 LENGTH, 4 FLASH, 1 SIG, 2 ROLLBACK. -/
def State.fwErr (s : State) (len : Nat) (svn : Nat) (sigOk ok : Bool) : Option Nat :=
  if 2097248 < len || len < 96 then some 3
  else if !ok then some 4
  else if !sigOk then some 1
  else if svn < s.fwSvn then some 2
  else none

/-- FW_COMMIT: the header follows and the image is staged, or it is refused. `ver`, `svn`: as the image states them; `ok`: both read-backs agree. -/
def execFwCommit (sid seq : Word) (len : Fin 33554432) (ver : Word) (svn : Fin 65536) (sigOk ok : Bool) (s : State) :
    Host.Outcome State Fault Refusal :=
  .next (s.servedFw sid seq fun s x =>
    if s.push.kind != 1 then (s.reply x 0x43 4 seq []).fwReject 6
    else
      let s' : State := { s with push := {} }
      match s.fwErr len svn sigOk ok with
      | some e => ((s'.setF Reg.BOOT_FW_STS 0 2 0).reply x 0x43 1 seq []).fwReject e
      | none =>
        let base := fwBase s.idleSlot
        let q := (s.writeSlot 1 (fwBase 0) (fwBase 1) anyRec).2
        let h := recHeader 1 q (s.flashBytes (base + 64) len) (leBytes ver.toNat 4 ++ leBytes svn 2)
        (((s'.flashProgram base h)).reply x 0x43 0 seq []).fwStaged)

/-! ## MCTP and PLDM on the I3C port (R973, R995); codes of DSP0236, DSP0240 and DSP0248 (log entry 43) -/

/-- The I3C controller assigns a dynamic address. -/
def execDynamicAddressAssign (addr : Fin 128) (s : State) : Host.Outcome State Fault Refusal :=
  .next (if s.hears true then { s with mctp := { s.mctp with da := some addr.val } } else s)

/-- A response where the running firmware serves the port. -/
def State.mctpSay (s : State) (code : Nat) (body : List Byte) : State := if s.serves true then s.emit (.mctp code body) else s

/-- A response whose content the spec does not state. -/
def State.mctpFree (s : State) (n : Nat) : State :=
  if s.serves true then
    let (b, s) := s.freeBytes n
    s.emit (.mctp 0 b)
  else s

/-- SET_ENDPOINT_ID: 0 and 0xFF are no endpoint identifiers. -/
def execSetEndpointId (eid : Byte) (s : State) : Host.Outcome State Fault Refusal :=
  .next <|
    if !s.serves true then s
    else if eid = 0 || eid = 0xFF then s.emit (.mctp 2 [])
    else ({ s with mctp := { s.mctp with eid := eid.toNat } } : State).emit (.mctp 0 [0, eid, 0])

/-- GET_ENDPOINT_ID. -/
def execGetEndpointId (s : State) : Host.Outcome State Fault Refusal := .next (s.mctpSay 0 [BitVec.ofNat 8 s.mctp.eid, 0, 0])

/-- GET_MCTP_VERSION_SUPPORT: the versions are not stated. -/
def execGetMctpVersionSupport (_ty : Byte) (s : State) : Host.Outcome State Fault Refusal := .next (s.mctpFree 5)

/-- GET_MESSAGE_TYPE_SUPPORT: PLDM and the vendor-defined type 0x7F (R974, R995). -/
def execGetMessageTypeSupport (s : State) : Host.Outcome State Fault Refusal := .next (s.mctpSay 0 [2, 1, 0x7F])

/-- GETTID: served in recovery mode too (R1032); the terminus identifier is not stated. -/
def execGettid (s : State) : Host.Outcome State Fault Refusal :=
  .next <|
    if !s.hears true then s
    else
      let (b, s) := s.freeBytes 1
      s.emit (.mctp 0 b)

/-- A PLDM type that the port does not serve. -/
def State.pldmType (s : State) (ty : Byte) (f : State → State) : State :=
  if ty = 0 || ty = 2 then f s else s.mctpSay 0x83 []

/-- GETPLDMVERSION: of types 0 and 2; the version is not stated. -/
def execGetpldmversion (ty : Byte) (s : State) : Host.Outcome State Fault Refusal := .next (s.pldmType ty fun s => s.mctpFree 4)

/-- GETPLDMTYPES: bits 0 and 2. -/
def execGetpldmtypes (s : State) : Host.Outcome State Fault Refusal := .next (s.mctpSay 0 (leBytes 5 8))

/-- GETPLDMCOMMANDS: the commands of R995. -/
def execGetpldmcommands (ty : Byte) (s : State) : Host.Outcome State Fault Refusal :=
  .next (s.pldmType ty fun s =>
    s.mctpSay 0 (leBytes (if ty = 0 then 2 ^ 2 + 2 ^ 3 + 2 ^ 4 + 2 ^ 5 else 2 ^ 0x11 + 2 ^ 0x21 + 2 ^ 0x51) 32))

/-- GETPDR: the repository's records are not stated. -/
def execGetpdr (_handle : Word) (s : State) : Host.Outcome State Fault Refusal := .next (s.mctpFree 64)

/-- FAULT_N is asserted: a class-4 bit of some EVT_RAW (R791), a power cycle (R942), a training failure (R1021) or recovery mode (R1032). -/
def State.faultN (s : State) : Bool :=
  s.fatalRaw || s.pwrCycling || s.getF Reg.BOOT_STS 0 4 = 15 || s.recoveryMode

/-- The reading of a numeric sensor (R995): °C, mV or W. -/
def State.numericSensor (s : State) (id : Nat) : Option Int :=
  if id = 1 then some (sgn 8 (s.getF Reg.THM_TJ_MAX 0 8))
  else if 2 ≤ id && id ≤ 65 then some (sgn 8 (s.tj (id - 2)))
  else if 66 ≤ id && id ≤ 71 then some (sgn 8 (s.getF (Reg.HBR_STACK_TJ (id - 66)) 0 8))
  else if id = 72 then some (s.getF Reg.SLU_AVS_STS 0 12)
  else if id = 73 then some s.power.1
  else if id = 74 then some s.power.2
  else none

/-- GETSENSORREADING: operational state (0 enabled, 2 unavailable), then the reading as 4 bytes. -/
def execGetsensorreading (id : Fin 65536) (s : State) : Host.Outcome State Fault Refusal :=
  .next <|
    match s.numericSensor id with
    | none => s.mctpSay 0x80 []
    | some v => if s.coreUp then s.mctpSay 0 (0 :: leBytes (twos 32 v) 4) else s.mctpSay 0 [2]

/-- GETSTATESENSORREADINGS: operational state, then the states: of a partition, or FAULT_N, THERMTRIP_N and the thermal alert. -/
def execGetstatesensorreadings (id : Fin 65536) (s : State) : Host.Outcome State Fault Refusal :=
  .next <|
    if 80 ≤ id.val && id.val ≤ 87 then
      (if s.coreUp then s.mctpSay 0 [0, BitVec.ofNat 8 (s.getF (Reg.PRT_STS (id - 80)) 0 2)] else s.mctpSay 0 [2])
    else if id.val = 88 then
      s.mctpSay 0 [0, BitVec.ofNat 8 (b2n s.faultN), BitVec.ofNat 8 (b2n (s.getB Reg.THM_STS 1)), BitVec.ofNat 8 (s.getF Reg.THM_STS 0 1)]
    else s.mctpSay 0x80 []

/-- PLDM_UNSUPPORTED: a command outside R995: ERROR_UNSUPPORTED_PLDM_CMD. -/
def execPldmUnsupported (ty cmd : Byte) (s : State) : Host.Outcome State Fault Refusal :=
  .next <|
    if (ty = 0 && 2 ≤ cmd.toNat && cmd.toNat ≤ 5) || (ty = 2 && (cmd = 0x11 || cmd = 0x21 || cmd = 0x51)) then s else s.mctpSay 5 []

end Sys2Proof.Machine
end

