-- ==== Sys2Proof/Machine/Tap.lean ====
section
/-!
DEFINITION. The TAP, boundary scan, the debug transport and the pilots' debug modules (R1057 to R1063, R1087, R1088).
-/
namespace Sys2Proof.Machine

/-- Change the TAP. -/
def State.updTap (s : State) (f : TapX → TapX) : State := { s with tap := f s.tap }

/-- R1059: EXTEST, CLAMP and HIGHZ are refused on an OPERATIONAL part that is not UNLOCKED. -/
def State.landsKept (s : State) : Bool := s.operational && !s.dbgOpen

/-- A cell of the boundary-scan register replaced by what the block itself puts on its land. -/
def setCell (v n : Nat) (b : Bool) : Nat := v - v / 2 ^ n % 2 * 2 ^ n + b2n b * 2 ^ n

/-- R1087: the cells at a capture: `pins` where the spec leaves the land to its surroundings or its function; PERST_N (cell 0) and the data cells of
PWRCYC_REQ_N (7), ALERT_N (9) and FAULT_N (11) from the state. -/
def State.cells (s : State) (pins : Nat) : Nat :=
  let req := s.rungs.any fun r => r.kind = 5 && !r.held && r.phase = 2
  setCell (setCell (setCell (setCell pins 0 (!s.boot.perst)) 7 (!req)) 9 (!s.alertN)) 11 (!s.faultN)

/-- An instruction that takes the lands, or is refused and selects BYPASS. -/
def State.takeLands (s : State) (code : Nat) (f : State → State) : State :=
  if s.landsKept then s.updTap fun t => { t with ir := 0xFF }
  else f (s.updTap fun t => { t with ir := code, lands := code + 1 })

/-- A scan of the boundary register: the captured cells leave, `shift` becomes the update stage. -/
def State.scan (s : State) (code pins shift : Nat) : State :=
  (s.updTap fun t => { t with bsr := shift }).emit (.jtag code (s.cells pins))

/-- EXTEST: the lands follow the update stage, after a scan. -/
def execExtest (pins shift : Fin 72057594037927936) (s : State) : Host.Outcome State Fault Refusal :=
  .next (s.takeLands 0x00 fun s => s.scan 0x00 pins shift)

/-- IDCODE (R1058, R1088). -/
def execIdcode (s : State) : Host.Outcome State Fault Refusal :=
  .next ((s.updTap fun t => { t with ir := 0x01 }).emit (.jtag 0x01 0x11024B7B))

/-- SAMPLE/PRELOAD. -/
def execSamplePreload (pins shift : Fin 72057594037927936) (s : State) : Host.Outcome State Fault Refusal :=
  .next ((s.updTap fun t => { t with ir := 0x02 }).scan 0x02 pins shift)

/-- CLAMP: the lands keep the update stage. -/
def execTapClamp (s : State) : Host.Outcome State Fault Refusal := .next (s.takeLands 0x03 id)

/-- HIGHZ: the lands float. -/
def execHighz (s : State) : Host.Outcome State Fault Refusal := .next (s.takeLands 0x04 id)

/-- Codes that select another register than bypass at present. -/
def State.tapKnows (s : State) (code : Nat) : Bool :=
  code < 5 || (code = 0x10 && s.getF Reg.DBG_STS 0 2 != 0) || (code = 0x11 && s.dbgOpen)

/-- BYPASS, or any code without an instruction. -/
def execBypass (code : Byte) (s : State) : Host.Outcome State Fault Refusal :=
  .next (if s.tapKnows code.toNat then s else s.updTap fun t => { t with ir := 0xFF })

/-- TAP_RESET: the lands return to their functions; IDCODE is selected (log entry 44). -/
def execTapReset (s : State) : Host.Outcome State Fault Refusal :=
  .next (s.updTap fun t => { t with ir := 0x01, lands := 0 })

/-! ## The debug transport (R1060 to R1062) -/

/-- The access is over: data and status wait for Capture-DR. -/
def State.dtmDone (s : State) (data : Word) (status : Nat) : State :=
  (s.updTap fun t => { t with ir := 0x10, data := data.toNat, status := status }).emit (.jtag 0x10 (data.toNat * 2 ^ 32 + status * 2 ^ 64))

/-- R1062: the core domain is held and the offset lies outside DBG, CSW and LOG. -/
def State.dtmDown (s : State) (a : Nat) : Bool := !s.coreUp && !cswLogPage a && adrType ((peekOf a).getD a) != 17

/-- The transport exists: DBG_EN is 1; otherwise DTM_ACCESS acts as BYPASS. -/
def State.dtm (s : State) (f : State → State) : State :=
  if s.getF Reg.DBG_STS 0 2 = 0 then s.updTap fun t => { t with ir := 0xFF } else f s

/-- The offset that bits [29:2] name. -/
def wordAdr (a : Nat) : Nat := a - a % 4

/-- DTM_READ: OP 1. -/
def execDtmRead (a : Fin 268435456) (s : State) : Host.Outcome State Fault Refusal :=
  .next (s.dtm fun s =>
    if s.dtmDown a then s.dtmDone 0 3
    else
      let (v, s) := s.regRead .debug false (wordAdr a)
      s.dtmDone v 0)

/-- DTM_WRITE: OP 2; refused where debug may not write (R1061). -/
def execDtmWrite (a : Fin 268435456) (v : Word) (env : WriteEnv) (s : State) : Host.Outcome State Fault Refusal :=
  .next (s.dtm fun s =>
    if s.dtmDown a then s.dtmDone 0 3
    else (s.regWrite .debug false (wordAdr a) v env).dtmDone 0 (if s.accepts .debug (wordAdr a) v then 0 else 2))

/-- DTM_PEEK: OP 3. -/
def execDtmPeek (a : Fin 268435456) (s : State) : Host.Outcome State Fault Refusal :=
  .next (s.dtm fun s => if s.dtmDown a then s.dtmDone 0 3 else s.dtmDone (s.valFor .debug false ((peekOf (wordAdr a)).getD (wordAdr a))) 0)

/-- DMI_ACCESS: 0 a halt request to pilot `n`, 1 a resume request, 2 any other access to its debug module; what a module answers is that of the RISC-V
debug specification and not stated here: free bits (log entry 45). -/
def execDmiAccess (n : Pilot) (kind : Fin 3) (s : State) : Host.Outcome State Fault Refusal :=
  .next <|
    if !s.dbgOpen then s.updTap fun t => { t with ir := 0xFF }
    else
      let s := s.updTap fun t => { t with ir := 0x11 }
      let s := if kind = 0 then s.pilotHalt n else if kind = 1 then s.pilotResume n else s
      let (d, s) := s.nextDraw
      s.emit (.jtag 0x11 d.toNat)

end Sys2Proof.Machine
end

