-- ==== Sys2Proof/Machine/Recovery.lean ====
section
/-!
DEFINITION. The rungs of the reset ladder as they proceed, and the reconciliation of P1's view with the data path (R934 to R943, R946, R950 to R952,
R964 to R970; R418, R460, R525, R574, R645, R646, R712, R772, R890, R923, R1036, R1047). A rung goes through its phases: each command carries the rung in
progress one phase further once what the phase waits for has come about, and leaves the state as it is before (log entry 1).
-/
namespace Sys2Proof.Machine

/-! ## A rung and its end -/

/-- The rung of a kind and target in progress. -/
def State.liveRung (s : State) (kind target : Nat) : Option Rung := s.rungs.find? fun r => !r.held && r.kind = kind && r.target = target

/-- The entry of a rung in progress. -/
def Rung.same (r x : Rung) : Bool := !x.held && x.kind = r.kind && x.target = r.target

/-- The rung goes on in its next phase. -/
def State.nextPhase (s : State) (r : Rung) : State :=
  { s with rungs := s.rungs.map fun x => if r.same x then { x with phase := x.phase + 1, since := s.now, hb := [] } else x }

/-- The rung leaves the ladder. -/
def State.dropRung (s : State) (r : Rung) : State := { s with rungs := s.rungs.filter fun x => !r.same x }

/-- R933: the bound of a rung in ticks. -/
def rungBound (kind : Nat) : Nat :=
  match kind with
  | 1 => 25000
  | 2 => 125000
  | 3 => 1000000
  | _ => 37500000

/-- R943: the rung has outlasted its bound. -/
def State.overran (s : State) (r : Rung) : Bool := decide (r.start + rungBound r.kind < s.now)

/-- R943: an overrun is recorded. -/
def State.noteOverrun (s : State) : State := (s.setB Reg.RCV_LAST_RCV 16 true).raise 15 0 Ev.RCV_OVERRUN none 255 255

/-- R943: a rung that outlasts its bound ends by escalation: a context's to its partition, a partition's to the chip, the chip's to a power cycle. -/
def State.rungEscalate (s : State) (r : Rung) : State :=
  let s := (s.noteOverrun.noteEscalate).dropRung r
  match r.kind with
  | 1 => if s.ctxPart r.target < 8 then s.startRung 3 (s.ctxPart r.target) 9 else s
  | 3 => s.startRung 4 0 9
  | _ => s.startRung 5 0 9

/-- The rung last started is this one (LAST_RCV, LAST_START). -/
def State.lastIs (s : State) (r : Rung) : Bool :=
  s.getF Reg.RCV_LAST_RCV 0 3 = r.kind && s.getF Reg.RCV_LAST_RCV 8 8 = r.target % 256
    && s.get64 Reg.RCV_LAST_START_LO Reg.RCV_LAST_START_HI = r.start

/-- R966: FLRs that waited for a rung are applied. -/
def State.dueFlrs (s : State) : State :=
  let wait (f : Nat) : Bool := s.rungs.any fun r => !r.held && (r.kind = 4 || (r.kind = 3 && s.ctxPart f = r.target))
  (s.flrs.filter fun f => !wait f).foldl (fun s f => s.flr f) { s with flrs := s.flrs.filter wait }

/-- A rung ends: LAST_DUR, RCV_DONE or RCV_WARM_DONE, the writes held meanwhile (R834), the FLRs that waited (R966). -/
def State.rungDone (s : State) (r : Rung) : State :=
  let s := if s.lastIs r then s.setReg Reg.RCV_LAST_DUR (BitVec.ofNat 32 (min 0xFFFFFFFF (s.now - r.start))) else s
  let s := if r.kind = 2 && s.overran r then s.noteOverrun else s
  let s := s.dropRung r
  let s := s.raise 15 0 (if r.kind = 4 then Ev.RCV_WARM_DONE else Ev.RCV_DONE) none 255 (if r.kind = 3 then r.target else 255)
  s.prtSync.releaseWrites.dueFlrs

/-! ## Work in the scope of a rung -/

/-- A ticket is launched. -/
def Ticket.launched (t : Ticket) : Bool := t.state = 3 || t.state = 4

/-- The ticket of a reprogramming. -/
def Ticket.isReprog (t : Ticket) : Bool := t.action = 7 && t.plan = 0 && t.job = 0

/-- Unlaunched tickets retire (R934, R936, R938, R525). -/
def State.retire (s : State) (p : Nat → Ticket → Bool) : State :=
  s.mapTk (fun k t => p k t && (t.state = 1 || t.state = 2)) fun t => { t with state := 5 }

/-- The steps of jobs that satisfy `p` fail with ABORTED; what their tickets yet deliver is discarded (R934, R938, R645). -/
def State.failJobs (s : State) (p : Job → Bool) : State :=
  (s.jobs.filter fun e => p e.2 && e.2.st = 3).foldl (fun s e => s.failStep e.1 11 4 0xFF 0xFF) s

/-- R418: DYN operations end: their leases are returned; a pulse in flight runs to its acknowledgement. -/
def State.endDyns (s : State) (p : Nat → Ticket → Bool) : State :=
  (s.tickets.filter fun e => p e.1 e.2 && e.2.action = 0x30 && e.2.launched).foldl (fun s e =>
    let subs := s.tickets.filter fun x => x.2.dyn = e.1 + 1 && !(x.2.launched && x.2.action = 0x31)
    ((subs.foldl (fun s x => s.freeTk x.1) s).dynEnd e.1).freeTk e.1) s

/-- Ferry runs stop writing and release their tiles; their launched tickets may acknowledge (R934, R938, R646). -/
def State.stopFerry (s : State) (p : FerryRun → Bool) (q : Nat → Ticket → Bool) : State :=
  (s.dropRuns p).mapTk (fun k t => q k t && t.action = 7 && t.launched) fun t => { t with ran := true, discard := true }

/-- R935: what is still launched at the end of a drain is hung. -/
def State.hangRest (s : State) (p : Nat → Ticket → Bool) : State :=
  (s.tickets.filter fun e => p e.1 e.2 && e.2.launched).foldl (fun s e =>
    if (s.tkAt e.1).state = 0 then s else s.hungFree e.1 (s.tkAt e.1)) s

/-- Every entry in the scope is freed. -/
def State.clearTks (s : State) (p : Nat → Ticket → Bool) : State :=
  (s.tickets.filter fun e => p e.1 e.2).foldl (fun s e => (s.dynEnd e.1).freeTk e.1) s

/-- R946: leases other than plan leases are revoked. -/
def State.rungRevoke (s : State) (p : Lease → Bool) : State :=
  (s.leases.filter fun l => p l && (l.res = 1 || l.res = 4 || l.res = 5)).foldl (fun s l =>
    if l.res = 4 then (s.loseLease l).dynReturn l.unit else s.revokeLease l) s

/-- The job asks for a replacement that goes on (R645). -/
def State.swapping (s : State) (j : Nat) : Bool := s.swaps.any fun w => w.job = j

/-- Jobs in flight end ABORTED, and with them the imports that they asked for; plans whose unload waited for a step are unloaded. -/
def State.abortJobs (s : State) (p : Job → Bool) : State :=
  let gone := (s.jobs.filter fun e => p e.2 && 1 ≤ e.2.st && e.2.st ≤ 4 && !s.swapping e.1).map (·.1)
  let s := (s.imports.filter fun m => gone.contains m.job).foldl (fun s m => s.dropImport m) s
  let s := { s with acks := s.acks.filter fun a => !gone.contains a.job }
  gone.foldl (fun s j =>
    let h := (s.job j).plan
    let s := s.endJob j 11
    if (s.plan h).unloading then s.unloadNow h else s) s

/-- R460: an update in progress ends; the tile is written again from its level copies before its owner's next ticket. -/
def State.endUpdates (s : State) (p : Nat → Bool) : State :=
  (List.range 1024).foldl (fun s gt =>
    if p gt && s.getB (Reg.ISL_ADP_STS (gt / 16)) (gt % 16) then
      (s.setB (Reg.ISL_ADP_STS (gt / 16)) (gt % 16) false).updTx gt fun x => { x with needReprog := 8 }
    else s) s

/-- A reprogramming in progress ends; it begins again before the owner's next ticket (R890). -/
def State.endReprogs (s : State) (p : Nat → Bool) : State :=
  (List.range 1024).foldl (fun s gt =>
    if p gt && (s.tx gt).reStep != 0 then
      (s.updTx gt fun x => { x with reStep := 0, reCause := 0, needReprog := 8 }).setF (Reg.ISL_REPROG_STS (gt / 16)) (gt % 16) 1 0
    else s) s

/-- R645: replacements go on with their gates closed; the layer in hand begins again. -/
def State.closeSwaps (s : State) (p : Nat → Bool) : State :=
  (s.swaps.filter fun w => p w.ctx).foldl (fun s w =>
    (s.setCx w.ctx { s.cx w.ctx with gateClosed := true }).setSwap { w with closed := true, running := false, retried := false, todo := [] }) s

/-- The next steps of bound plans are armed again (R751, R772). -/
def State.rearm (s : State) (p : Plan → Bool) : State :=
  (s.plans.filter fun e => e.2.live && e.2.bound && p e.2).foldl (fun s e =>
    ((s.tickets.filter fun t => t.2.job = armedJob e.1).foldl (fun s t => s.freeTk t.1) s).arm e.1) s

/-- P4 carries the rung out: it waits while P4 is halted or restarts (R1071). -/
def State.p4Runs (s : State) : Bool := s.pilSt 4 = 1

/-! ## Context recovery (R934, R935) -/

/-- Steps 1 and 2. -/
def State.ctxStop (s : State) (c : Nat) : State :=
  let q (_ : Nat) (t : Ticket) : Bool := t.ctx = c && !t.isReprog
  let s := (s.failJobs fun j => j.fn = c).retire q
  (s.stopFerry (fun x => x.ctx = c && x.gt = 0) q).endDyns q

/-- Steps 3 to 5. -/
def State.ctxFinish (s : State) (c : Nat) (r : Rung) : State :=
  let q (_ : Nat) (t : Ticket) : Bool := t.ctx = c && !t.isReprog
  let s := (s.hangRest q).clearTks q
  let s := s.rungRevoke fun l => l.kind = 1 && l.owner = c
  let s := s.abortJobs fun j => j.fn = c
  let s := (s.endUpdates fun gt => s.owner gt = some c).closeSwaps fun x => x = c
  (s.rungDone r).rearm fun p => p.ctx = c

/-- CONTEXT_RECOVERY. -/
def execContextRecovery (c : Ctx) (s : State) : Host.Outcome State Fault Refusal :=
  .next <|
    match s.liveRung 1 c with
    | none => s
    | some r =>
      if !s.p4Runs then s
      else if s.overran r then s.rungEscalate r
      else if r.phase = 0 then (s.ctxStop c).nextPhase r
      else if (s.tickets.any fun e => e.2.ctx = c.val && !e.2.isReprog && e.2.launched) && decide (s.now < r.start + 1250) then s
      else s.ctxFinish c r

/-! ## Engine recovery (R936, R937) -/

/-- R937: an engine is fenced by the data path. -/
def State.fenceEngine (s : State) (isl : Nat) : State := ((s.fenceDp 3 isl 0x15).onIslFence isl).raiseI 3 isl Ev.ISL_ENG_FENCE none

/-- An engine has not answered: ENG_LAST.RESULT, and its fence. -/
def State.engineSilent (s : State) (isl : Nat) : State := (s.setB (Reg.ISL_ENG_LAST isl) 4 true).fenceEngine isl

/-- Step 1. -/
def State.engineStop (s : State) (isl : Nat) (r : Rung) : State :=
  let q (k : Nat) (_ : Ticket) : Bool := k / 256 = isl
  let s := s.set64 (Reg.ISL_ENG_LAST_TICK_LO isl) (Reg.ISL_ENG_LAST_TICK_HI isl) r.start
  let s := [16, 17, 18, 19].foldl (fun s u => s.testAbort isl u false) s
  (s.failLive isl fun k _ => k / 256 = isl).endDyns q

/-- The engine of an island is reset: the acknowledgements it holds go (R335), it is counted and reported. -/
def State.engineReset (s : State) (isl : Nat) : State :=
  let s := { s with acks := s.acks.filter fun a => a.tile / 16 != isl }
  (s.incSat (Reg.ISL_ENG_RST_CNT isl) 1).raiseI 3 isl Ev.ISL_ENG_RESET none

/-- Step 3: engine, strait switch queues and ticket table, ferry entries apart. -/
def State.engineClear (s : State) (isl : Nat) : State :=
  let q (k : Nat) (t : Ticket) : Bool := k / 256 = isl && t.uclass != 3
  let jobs := (s.tickets.filter fun e => q e.1 e.2).map fun e => e.2.job
  let s := (s.hangRest q).clearTks q
  let s := s.rungRevoke fun l => (l.res = 1 && l.unit / 4 = isl) || (l.res = 4 && l.unit / 16 = isl)
  jobs.foldl (fun s j => s.checkEnd j) (s.engineReset isl)

/-- MISS_RUN is 0 as IN_RESET clears (R929). -/
def State.clearMiss (s : State) (isl : Nat) : State := s.setF (Reg.ISL_HB_CNT isl) 16 8 0

/-- Step 5, or the end under R937. -/
def State.engineDone (s : State) (isl : Nat) (r : Rung) (ok : Bool) : State :=
  let s := if ok then s else s.engineSilent isl
  let s := ((s.clearMiss isl).rungDone r).rearm fun p => (s.planIslands p).contains isl
  if ok then s.askIslTest isl else s

/-- ENGINE_RECOVERY. -/
def execEngineRecovery (isl : Isl) (s : State) : Host.Outcome State Fault Refusal :=
  .next <|
    match s.liveRung 2 isl with
    | none => s
    | some r =>
      if !s.p4Runs then s
      else if r.esc then (s.dropRung r).fenceEngine isl
      else if r.phase = 0 then (s.engineStop isl r).nextPhase r
      else if r.phase = 1 then
        if (s.tickets.any fun e => e.1 / 256 = isl.val && (e.2.uclass = 0 || e.2.uclass = 2) && e.2.launched)
            && decide (s.now < r.since + 250) then s
        else (s.engineClear isl).nextPhase r
      else if 2 ≤ r.hb.length then s.engineDone isl r true
      else if s.now < r.since + 3072 || s.getB Reg.DBG_CTL 0 then s
      else s.engineDone isl r false

/-! ## Partition recovery (R938) -/

/-- The island lies in partition `p`. -/
def State.inPart (s : State) (p isl : Nat) : Bool := s.partOf isl = some p

/-- The ticket belongs to a partition: it stands on one of its islands. -/
def State.partTk (s : State) (p k : Nat) : Bool := s.inPart p (k / 256)

/-- Steps 1 and 2. -/
def State.partStop (s : State) (p : Nat) : State :=
  let q (k : Nat) (_ : Ticket) : Bool := s.partTk p k
  let s := (s.failJobs fun j => s.ctxPart j.fn = p).retire q
  let s := (s.stopFerry (fun x => s.ctxPart x.ctx = p) q).endDyns q
  let s := s.abortTests fun i => s.inPart p i
  if s.boot.changing.contains p then s.abandonSelect else s

/-- Steps 3 to 5. -/
def State.partClear (s : State) (p : Nat) (r : Rung) : State :=
  let q (k : Nat) (_ : Ticket) : Bool := s.partTk p k
  let s := (s.hangRest q).clearTks q
  let s := s.rungRevoke fun l => l.kind = 1 && s.ctxPart l.owner = p
  let s := if s.cal.tiles.any fun e => s.inPart p (e.1 / 16) then s.calAbortRun 6 else s
  let s := (s.endReprogs fun gt => s.inPart p (gt / 16)).endUpdates fun gt => s.inPart p (gt / 16)
  let s := (s.islandsOf p).foldl (fun s i =>
    ((s.setF (Reg.ISL_ENG_LAST i) 0 5 7).set64 (Reg.ISL_ENG_LAST_TICK_LO i) (Reg.ISL_ENG_LAST_TICK_HI i) r.start).engineReset i) s
  s.abortJobs fun j => s.ctxPart j.fn = p

/-- The unfenced islands of a list whose probes a rung still waits for. -/
def State.unanswered (s : State) (r : Rung) (isls : List Nat) : List Nat := isls.filter fun i => !r.hb.contains i && !s.ownFenced 3 i

/-- Step 7, after the islands that have not answered have been fenced (R937). -/
def State.partDone (s : State) (p : Nat) (r : Rung) : State :=
  let s := (s.unanswered r (s.islandsOf p)).foldl (fun s i => s.engineSilent i) s
  let s := (s.islandsOf p).foldl (fun s i => s.clearMiss i) s
  let s := s.closeSwaps fun c => s.ctxPart c = p
  (s.rungDone r).rearm fun x => x.part = p

/-- PARTITION_RECOVERY. -/
def execPartitionRecovery (p : Part) (s : State) : Host.Outcome State Fault Refusal :=
  .next <|
    match s.liveRung 3 p with
    | none => s
    | some r =>
      if !s.p4Runs then s
      else if s.overran r then s.rungEscalate r
      else if r.phase = 0 then (s.partStop p).nextPhase r
      else if r.phase = 1 then
        if (s.tickets.any fun e => s.partTk p e.1 && e.2.launched) && decide (s.now < r.start + 2500) then s
        else (s.partClear p r).nextPhase r
      else if !(s.unanswered r (s.islandsOf p)).isEmpty && (decide (s.now < r.since + 12500) || s.getB Reg.DBG_CTL 0) then s
      else s.partDone p r

/-! ## Chip warm reset (R939, R941) -/

/-- Steps 1 and 2. -/
def State.warmStop (s : State) : State :=
  let q (_ : Nat) (_ : Ticket) : Bool := true
  let s := (s.failJobs fun _ => true).retire q
  ((((s.stopFerry (fun _ => true) q).endDyns q).abortTests fun _ => true).abandonSelect).calAbortRun 6

/-- Registers of the core domain, not marked held, that step 3 leaves as they are: those of the tide, the refresh engines, the harbour controllers, the
link, the sluice's loop (R170, R574, R939), and those whose value belongs to state that stays: the profile in force and the count of warm resets, pilot
states, issued page tags, the pool's size, test bookkeeping, partition states, the trip (R837, R1049). -/
def warmKept (a : Nat) : Bool :=
  let ty := adrType a
  let off := adrOff a
  regHeld a || alwaysOn ty (adrInst a) || ty = 5
    || (ty = 1 && off = 0x44) || (ty = 2 && off = 0x44)
    || (ty = 3 && (off = 0x140 || off = 0x914))
    || (ty = 4 && (off = 0x40 || off = 0x44 || (0xA0 ≤ off && off ≤ 0xE4)))
    || (ty = 7 && off != 0x5C && !(0x60 ≤ off && off < 0x70) && !(0x100 ≤ off && off < 0x200 && (off % 32 = 24 || off % 32 = 28)))
    || (ty = 10 && off = 0x44)
    || (ty = 14 && (off = 0x4C || off = 0x50))
    || (ty = 18 && off = 0x44)
    || (ty = 20 && off = 0x44)

/-- What is left of a register that step 3 resets only in part: TIL_CTL keeps COMPAT and the pool bit, a tile is no longer busy, the trip stays. -/
def warmPart (a : Nat) (v : Word) : Word :=
  let ty := adrType a
  let off := adrOff a
  if ty = 4 && off = 0x40 then (regReset a &&& ~~~ 3#32) ||| (v &&& 3)
  else if ty = 4 && off = 0x44 then v &&& ~~~ 0xF#32
  else if ty = 20 && off = 0x44 then v &&& 2
  else v

/-- Step 3: the registers. -/
def State.warmRegs (s : State) : State :=
  let l := s.regs.filter fun e => warmKept e.1
  { s with regs := l.foldl (fun m e => Store.put regReset m e.1 (warmPart e.1 e.2)) [] }

/-- Step 3: the leases of the core domain, but for plan leases (R946), and the flash writes of the core domain (R1051). -/
def State.warmLeases (s : State) : State :=
  let s := (s.leases.filter fun l => l.res = 5).foldl (fun s l => ((s.loseLease l).setSlot l.owner false).installFail l.owner 10) s
  let s := s.rungRevoke fun l => l.res != 5
  let s := (s.leases.filter fun l => l.res = 6 && l.kind = 2 && l.owner != 1).foldl (fun s l => s.loseLease l) s
  let s := s.tearWrites
  let s := (s.setF Reg.BOOT_PROF_STS 0 2 0).setB Reg.CAL_SNAP_STS 17 false
  let s := if s.flashq.any fun w => w.kind = 1 then s else s.setF Reg.BOOT_FW_STS 0 2 (if s.push.kind = 1 then 2 else 0)
  { s with push := if s.push.kind = 1 then s.push else {} }

/-- Step 3: what the core domain holds beyond its registers. -/
def State.warmCore (s : State) : State :=
  let s := s.warmRegs
  { s with
    tickets := [], acks := [], runs := [], refetch := [], dyns := [], lines := [], weir := [], rplChecks := [], spdm := []
    shadow := s.shadow.filter fun e => alwaysOn (e.1 % 32768 / 1024) (e.1 % 1024)
    staged := s.staged.filter fun e => alwaysOn (e.1 % 32768 / 1024) (e.1 % 1024)
    landing := s.landing.map fun e => (e.1, { e.2 with bytes := [], job := 0, waited := false })
    tide := { s.tide with slack := [] }
    wd := s.wd.filter fun e => e.1 = 1
    grantWas := (0, 0), scrubFrom := s.now
    hbr := (List.range 6).foldl (fun m h => Store.put hbrNone m h { s.hbx h with last := s.now }) [] }

/-- Step 3 for one pilot: it is held, and restarts in step 4; a halt is released (R970, R1068, R1080). -/
def State.warmPilot (s : State) (n : Nat) : State :=
  let s := ((s.setF (Reg.PIL_STS n) 0 2 3).incSat (Reg.PIL_RST_CNT n) 1).setF (Reg.PIL_LAST_RST n) 0 3 3
  (s.setReg (Reg.PIL_FW_VER n) 0).setB Reg.DBG_STS (3 + n) false

/-- R1036: with WARM_SWITCH a staged image is the one that step 4 loads, and P1 is reset too. -/
def State.warmSwitch (s : State) : State :=
  if s.getB Reg.BOOT_CTL 0 && s.getB Reg.BOOT_FW_STS 8 then
    ((s.setF Reg.BOOT_STS 9 1 (1 - s.fwSlot)).setB Reg.BOOT_FW_STS 8 false).pilotReset 1 3
  else s

/-- Step 3. -/
def State.warmClear (s : State) (r : Rung) : State :=
  let s := s.hangRest fun _ _ => true
  let s := s.clearTks fun _ _ => true
  let s := (s.endReprogs fun _ => true).endUpdates fun _ => true
  let s := ((List.range 64).foldl (fun s i =>
    ((s.setF (Reg.ISL_ENG_LAST i) 0 5 8).set64 (Reg.ISL_ENG_LAST_TICK_LO i) (Reg.ISL_ENG_LAST_TICK_HI i) r.start).engineReset i) s)
  let s := ((s.abortJobs fun _ => true).closeSwaps fun _ => true).warmLeases
  let s := s.thaw.warmCore
  [0, 2, 3, 4, 5, 6, 7].foldl (fun s n => s.warmPilot n) s.warmSwitch

/-- R941: a plan is lost. -/
def State.planLost (s : State) (h : Nat) : State :=
  let c := (s.plan h).ctx
  (s.unload h).raiseC 15 0 Ev.RCV_PLAN_LOST (some (BitVec.ofNat 8 c :: leBytes h 4)) c

/-- Step 5 for one plan: its TYPE 1 sections as `plain` brings them, decrypted; one that is missing could not be read or failed its digest. -/
def State.planReload (s : State) (h : Nat) (plain : List (Nat × Nat × List Byte)) : State :=
  let p := s.plan h
  let secs := (List.range (sectCnt p.manifest)).filter fun i =>
    let e := sectOf p.manifest i
    leAt e 0 1 = 1 && leAt e 3 1 < p.w * p.h
  let got (i : Nat) := plain.find? fun x => x.1 = h && x.2.1 = i
  if secs.any fun i => (got i).isNone then s.planLost h
  else
    secs.foldl (fun s i =>
      let e := sectOf p.manifest i
      let isl := s.gridIsl p (leAt e 3 1)
      match got i with
      | none => s
      | some x =>
        let (s, f) := s.writeBytes isl p.ctx (64 * leAt e 4 4) (padTo (leAt e 16 4) x.2.2) false
        s.noteForeign isl p.ctx f) s

/-- Step 5. -/
def State.warmReload (s : State) (plain : List (Nat × Nat × List Byte)) : State :=
  (s.plans.filter fun e => e.2.live).foldl (fun s e => s.planReload e.1 plain) s

/-- Step 7, after the islands that have not answered have been fenced (R937). -/
def State.warmDone (s : State) (r : Rung) : State :=
  let s := (s.unanswered r (List.range 64)).foldl (fun s i => s.engineSilent i) s
  let s := (List.range 64).foldl (fun s i => s.clearMiss i) s
  let s := (s.setB Reg.TOP_STS 2 true).incSatF Reg.TOP_STS 8 8 1
  (s.rungDone r).rearm fun _ => true

/-- CHIP_WARM_RESET: `plain`: the TYPE 1 sections of step 5, by plan handle and section (log entry 2). -/
def execChipWarmReset (plain : List (Nat × Nat × List Byte)) (s : State) : Host.Outcome State Fault Refusal :=
  .next <|
    match s.liveRung 4 0 with
    | none => s
    | some r =>
      if s.overran r then s.rungEscalate r
      else if r.phase = 0 then s.warmStop.nextPhase r
      else if r.phase = 1 then
        if (s.tickets.any fun e => e.2.launched) && decide (s.now < r.start + 6375) then s
        else (s.warmClear r).nextPhase r
      else if r.phase = 2 then
        if [0, 2, 3, 4, 5, 6, 7].all fun n => s.pilSt n = 1 then (s.nextPhase r).warmReload plain else s
      else if !(s.unanswered r (List.range 64)).isEmpty && (decide (s.now < r.since + 2500000) || s.getB Reg.DBG_CTL 0) then s
      else s.warmDone r

/-! ## Power cycle (R942) -/

/-- POWER_CYCLE: step 1, then, after HOLD_MS, step 3. The loss of PWRGD_IN ends it (R1016). -/
def execPowerCycle (s : State) : Host.Outcome State Fault Refusal :=
  .next <|
    match s.liveRung 5 0 with
    | none => s
    | some r =>
      if r.phase = 0 then (s.nextPhase r).raise 15 0 Ev.RCV_PWRCYC none 255 255
      else if r.phase = 1 && r.since + min 1000 (s.getF Reg.RCV_PWRCYC_CTL 0 10) * 125000 ≤ s.now then s.nextPhase r
      else s

/-- PWRCYC_STUCK: PWRGD_IN has not deasserted TMO_S seconds after step 3 began. -/
def execPwrcycStuck (s : State) : Host.Outcome State Fault Refusal :=
  .next <|
    match s.liveRung 5 0 with
    | none => s
    | some r =>
      if r.phase = 2 && r.since + max 1 (s.getF Reg.RCV_PWRCYC_CTL 16 8) * 125000000 ≤ s.now then s.setB Reg.RCV_STS 4 true else s

/-! ## Reconciliation (R950 to R952) -/

/-- R952: the unit lies inside the scope of a rung in progress. -/
def State.inRung (s : State) (ty inst : Nat) : Bool :=
  s.rungs.any fun r => !r.held && (4 ≤ r.kind ||
    (match ty with
    | 3 => (r.kind = 3 && s.inPart r.target inst) || (r.kind = 2 && r.target = inst)
    | 4 => r.kind = 3 && s.inPart r.target (inst / 16)
    | 0x12 => r.kind = 3 && r.target = inst
    | _ => false))

/-- The unit's view. -/
def State.view (s : State) (ty inst : Nat) : View := Store.get viewNone s.views (ty * 1024 + inst)

/-- Change it. -/
def State.updView (s : State) (ty inst : Nat) (f : View → View) : State := { s with views := Store.upd viewNone s.views (ty * 1024 + inst) f }

/-- The unit is in the lagoon. -/
def State.lagged (s : State) (ty inst : Nat) : Bool := if ty = 4 then s.inLagoon (inst / 16) (inst % 16) else ty = 3 && s.inLagoon inst 16

/-- The data path shows the unit recovering: IN_RESET, or PRT STATE 2. -/
def State.recovering (s : State) (ty inst : Nat) : Bool := if ty = 0x12 then s.prtState inst = 2 else s.pageReset ty inst

/-- R950 row 2: BY_CSW is set again, at once, with what a fence brings. -/
def State.fenceAgain (s : State) (ty inst : Nat) : State :=
  let was := s.ownFenced ty inst
  let s := s.updHd ty inst fun h => { h with fenceCsw := true, reason := 2, fenceWas := was, fenceEff := s.now }
  s.fenceChange ty inst

/-- R951: a difference is resolved. -/
def State.noteRecon (s : State) (ty inst row : Nat) : State :=
  let s := s.setReg Reg.RCV_RECON_LAST (BitVec.ofNat 32 (ty % 32 + inst % 1024 * 32 + row * 32768))
  (s.incSat Reg.RCV_RECON_CNT 1).raise 15 0 Ev.RCV_DISAGREE none 255 255

/-- The rows of the table, in order, for one unit. -/
def State.reconcile (s : State) (ty inst : Nat) : State :=
  if s.inRung ty inst then s
  else
    let s := if (s.hd ty inst).fenced && !(s.view ty inst).fenced then (s.updView ty inst fun v => { v with fenced := true }).noteRecon ty inst 1 else s
    let s := if (s.view ty inst).csw && !(s.hd ty inst).fenceCsw then (s.fenceAgain ty inst).noteRecon ty inst 2 else s
    let s := if s.recovering ty inst && !(s.view ty inst).recov then (s.updView ty inst fun v => { v with recov := true }).noteRecon ty inst 3 else s
    let s := if s.lagged ty inst != (s.view ty inst).lag then (s.updView ty inst fun v => { v with lag := !v.lag }).noteRecon ty inst 4 else s
    if !s.recovering ty inst && (s.view ty inst).recov then (s.updView ty inst fun v => { v with recov := false }).noteRecon ty inst 5 else s

/-- Reconcile the first `n` views of one type. -/
def State.reconcileAll (s : State) (ty n : Nat) : State := (List.range n).foldl (fun s i => s.reconcile ty i) s

/-- RECONCILIATION. -/
def execReconciliation (s : State) : Host.Outcome State Fault Refusal :=
  .next <|
    if s.now / 1250000 ≤ s.reconAt || s.pilSt 1 != 1 || !s.coreUp then s
    else
      let n := s.profile.parts.length
      (((({ s with reconAt := s.now / 1250000 } : State).reconcileAll 4 1024).reconcileAll 3 64).reconcileAll 5 6).reconcileAll 0x12 n

end Sys2Proof.Machine
end

