-- ==== Sys2Proof/Machine/Thermal.lean ====
section
/-!
DEFINITION. The thermal monitor, stack temperatures and the loss of the reference clock (R470, R471, R819 to R826, R837, R1105, R1110,
R1118).
-/
namespace Sys2Proof.Machine

/-! ## Samples (R819 to R823) -/

/-- The sensor of an island has failed. -/
def State.sensBad (s : State) (isl : Nat) : Bool := s.getB (if isl < 32 then Reg.THM_SENS_FAIL_LO else Reg.THM_SENS_FAIL_HI) (isl % 32)

/-- Set or clear a sensor's failure. -/
def State.setSens (s : State) (isl : Nat) (b : Bool) : State :=
  let s := s.setB (if isl < 32 then Reg.THM_SENS_FAIL_LO else Reg.THM_SENS_FAIL_HI) (isl % 32) b
  s.setB Reg.THM_STS 2 (s.reg Reg.THM_SENS_FAIL_LO != 0 || s.reg Reg.THM_SENS_FAIL_HI != 0)

/-- A reading within the range of R823. -/
def tjGood (v : Int) : Bool := decide (-40 ≤ v) && decide (v ≤ 150)

/-- Store the Tj of an island. -/
def State.setTj (s : State) (isl : Nat) (v : Int) : State := s.setF (Reg.THM_TJ (isl / 4)) (8 * (isl % 4)) 8 (twos 8 v)

/-- R823: the substitute: the highest reading among the working sensors plus 5 °C; where none works the spec gives none: a free value. -/
def State.substitute (s : State) : Int × State :=
  match (List.range 64).filter fun i => !s.sensBad i with
  | [] => let (d, s) := s.nextDraw; (sgn 8 d.toNat, s)
  | i :: is => (is.foldl (fun m k => max m (sgn 8 (s.tj k))) (sgn 8 (s.tj i)) + 5, s)

/-- R823: a sensor fails: THM_SENSOR, and its island takes the substitute. -/
def State.sensFail (s : State) (isl : Nat) : State :=
  if s.sensBad isl then s else (s.setSens isl true).raise 0x14 0 Ev.THM_SENSOR none 255 ((s.partOf isl).getD 255)

/-- R147: a -X part's regime by Tj. -/
def State.tjRegime (s : State) (gt : Nat) : State :=
  let v := sgn 8 (s.tj (gt / 16))
  let hot := (s.tx gt).tjHot
  let new := if 85 < v then true else if v ≤ 82 then false else hot
  if new = hot then s
  else
    let s := s.updTx gt fun x => { x with tjHot := new }
    if Config.gradeX then s.decideRegime gt false else s

/-- What follows from the Tj of the islands: TJ_MAX, TJ_PEAK, the alert (R821), regimes (R147), CAL_TEMP (R99). -/
def State.tjFollow (s : State) : State :=
  let v (i : Nat) : Int := sgn 8 (s.tj i)
  let m := (List.range 64).foldl (fun b i => if v b < v i then i else b) 0
  let s := s.setReg Reg.THM_TJ_MAX (BitVec.ofNat 32 (s.tj m + m * 256))
  let s := if s.thm.peakNew || sgn 8 (s.getF Reg.THM_TJ_PEAK 0 8) < v m then s.setF Reg.THM_TJ_PEAK 0 8 (s.tj m) else s
  let s := { s with thm := { s.thm with peakNew := false } }
  let hi := min 110 (sgn 8 (s.getF Reg.THM_CTL 0 8))
  let hyst : Int := (max 1 (s.getF Reg.THM_CTL 8 4) : Nat)
  let s := if !s.getB Reg.THM_STS 0 && hi ≤ v m then (s.setB Reg.THM_STS 0 true).raise 0x14 0 Ev.THM_ALERT none 255 255
    else if s.getB Reg.THM_STS 0 && v m ≤ hi - hyst then (s.setB Reg.THM_STS 0 false).raise 0x14 0 Ev.THM_ALERT_CLEAR none 255 255
    else s
  (List.range 1024).foldl (fun s gt => (s.tjRegime gt).checkCalTemp gt) s

/-- The failed sensors' islands take the substitute. -/
def State.fillTj (s : State) : State :=
  let bad := (List.range 64).filter s.sensBad
  if bad.isEmpty then s else let (v, s) := s.substitute; bad.foldl (fun s i => s.setTj i v) s

/-- THERMAL_SAMPLE: one sample of the sensors: `temps`: the readings returned, in °C; a sensor not named returns none (log entry 2). -/
def execThermalSample (temps : List (Isl × Int)) (s : State) : Host.Outcome State Fault Refusal :=
  .next <|
    let s := temps.foldl (fun (s : State) (e : Isl × Int) =>
      if tjGood e.2 then
        ({ s with thm := { s.thm with last := Store.put flagZero s.thm.last e.1 (s.now + 1) } }.setSens e.1 false).setTj e.1 e.2
      else s.sensFail e.1) s
    (s.fillTj).tjFollow

/-- THM_SENSOR (R823): a reading out of range, or no sample for 3 ms. -/
def execThmSensor (isl : Isl) (reading : Option Int) (s : State) : Host.Outcome State Fault Refusal :=
  .next <|
    let bad := match reading with
      | some v => !tjGood v
      | none => decide (Store.get flagZero s.thm.last isl + 375000 ≤ s.now)
    if bad && !s.sensBad isl then ((s.sensFail isl).fillTj).tjFollow else s

/-- THM_TRIP (R822, R837): the comparator trips on island `isl`: THERMTRIP_N is asserted and no drop is granted. -/
def execThmTrip (isl : Isl) (s : State) : Host.Outcome State Fault Refusal :=
  .next <|
    if s.getB Reg.THM_STS 1 then s
    else
      let s := { s.setB Reg.THM_STS 1 true with slu := { s.slu with tripped := true } }
      s.raise 0x14 0 Ev.THM_TRIP none 255 ((s.partOf isl).getD 255)

/-! ## Stacks (R1110) -/

/-- STACK_TJ: a harbour controller reads its stack's temperature. -/
def execStackTj (h : Stack) (t : BitVec 8) (s : State) : Host.Outcome State Fault Refusal :=
  .next <|
    let s := s.setF (Reg.HBR_STACK_TJ h) 0 8 t.toNat
    { s with hbr := Store.put hbrNone s.hbr h { s.hbx h with fast := decide (85 < sgn 8 t.toNat) } }

/-! ## The reference clock (R470, R471, R1105, R1118) -/

/-- REFCLK_LOSS: `torn`: tiles whose row write in flight had begun its drive (R95). With HOLDOVER_EN the tide goes on; without, the count stops. -/
def execRefclkLoss (torn : List Tile) (s : State) : Host.Outcome State Fault Refusal :=
  .next <|
    if !s.tide.refclk || !s.getB Reg.TID_STS 2 then s
    else
      let s := ({ s with tide := { s.tide with refclk := false } } : State).setB Reg.TID_STS 0 false
      let s := if s.getB Reg.TID_CTL 0 then (s.setB Reg.TID_STS 1 true).raise 8 0 Ev.TIDE_UNLOCK none 255 255 else s
      let s := (List.range 1024).foldl (fun s gt => s.lockLost gt (torn.any fun t => t.val = gt)) s
      s.linkDown

end Sys2Proof.Machine
end

