-- ==== Sys2Proof/Machine/Dispatch.lean ====
section
/-!
DEFINITION. One arm per command: each is one direct call of the command's meaning.
-/
namespace Sys2Proof.Machine

def exec (i : Instr) (s : State) : Host.Outcome State Fault Refusal :=
  match i with
  | .tideTick => Sys2Proof.Machine.execTideTick s
  | .tidePllLock => Sys2Proof.Machine.execTidePllLock s
  | .refclkLoss torn => Sys2Proof.Machine.execRefclkLoss torn s
  | .refclkReturn => Sys2Proof.Machine.execRefclkReturn s
  | .resyncWord bad silent => Sys2Proof.Machine.execResyncWord bad silent s
  | .ticketIssue isl => Sys2Proof.Machine.execTicketIssue isl s
  | .fountainExpand isl idx => Sys2Proof.Machine.execFountainExpand isl idx s
  | .standardPulse isl idx errs => Sys2Proof.Machine.execStandardPulse isl idx errs s
  | .extendedPulse isl idx errs => Sys2Proof.Machine.execExtendedPulse isl idx errs s
  | .transposePhase isl idx errs => Sys2Proof.Machine.execTransposePhase isl idx errs s
  | .spillRowRead gt devs => Sys2Proof.Machine.execSpillRowRead gt devs s
  | .rowioRead isl idx devs => Sys2Proof.Machine.execRowioRead isl idx devs s
  | .rowioWrite isl idx => Sys2Proof.Machine.execRowioWrite isl idx s
  | .actionAck isl idx early => Sys2Proof.Machine.execActionAck isl idx early s
  | .tideMiss isl idx => Sys2Proof.Machine.execTideMiss isl idx s
  | .tideHang isl idx => Sys2Proof.Machine.execTideHang isl idx s
  | .slackWindowEnd => Sys2Proof.Machine.execSlackWindowEnd s
  | .stepOrigin j => Sys2Proof.Machine.execStepOrigin j s
  | .ppsEdge falling ns trim => Sys2Proof.Machine.execPpsEdge falling ns trim s
  | .tidePpsLost => Sys2Proof.Machine.execTidePpsLost s
  | .ppsCtlWrite rq v => Sys2Proof.Machine.execPpsCtlWrite rq v s
  | .ppsBaseWrite rq v => Sys2Proof.Machine.execPpsBaseWrite rq v s
  | .tideOutMarker => Sys2Proof.Machine.execTideOutMarker s
  | .tktSelWrite rq v => Sys2Proof.Machine.execTktSelWrite rq v s
  | .slkCtlWrite rq v => Sys2Proof.Machine.execSlkCtlWrite rq v s
  | .tunitLock gt => Sys2Proof.Machine.execTunitLock gt s
  | .tilTunitUnlock gt begun => Sys2Proof.Machine.execTilTunitUnlock gt begun s
  | .descale isl idx => Sys2Proof.Machine.execDescale isl idx s
  | .quant isl idx => Sys2Proof.Machine.execQuant isl idx s
  | .outsel isl idx => Sys2Proof.Machine.execOutsel isl idx s
  | .actOp isl idx => Sys2Proof.Machine.execActOp isl idx s
  | .addOp isl idx => Sys2Proof.Machine.execAddOp isl idx s
  | .mulOp isl idx => Sys2Proof.Machine.execMulOp isl idx s
  | .normOp isl idx => Sys2Proof.Machine.execNormOp isl idx s
  | .softmax isl idx => Sys2Proof.Machine.execSoftmax isl idx s
  | .copyOp isl idx => Sys2Proof.Machine.execCopyOp isl idx s
  | .gquant isl idx => Sys2Proof.Machine.execGquant isl idx s
  | .outer isl idx => Sys2Proof.Machine.execOuter isl idx s
  | .optstep isl idx => Sys2Proof.Machine.execOptstep isl idx s
  | .send isl idx badSrc badDst => Sys2Proof.Machine.execSend isl idx badSrc badDst s
  | .repeatPulse isl => Sys2Proof.Machine.execRepeatPulse isl s
  | .colmapApply rq gt => Sys2Proof.Machine.execColmapApply rq gt s
  | .copyPassRowOp gt devs => Sys2Proof.Machine.execCopyPassRowOp gt devs s
  | .tilColmapDone gt => Sys2Proof.Machine.execTilColmapDone gt s
  | .trimWinWrite rq gt ix v => Sys2Proof.Machine.execTrimWinWrite rq gt ix v s
  | .refreshSlot gt => Sys2Proof.Machine.execRefreshSlot gt s
  | .rowRefreshDone gt codes => Sys2Proof.Machine.execRowRefreshDone gt codes s
  | .catchupRefresh gt => Sys2Proof.Machine.execCatchupRefresh gt s
  | .tilRfshLate gt => Sys2Proof.Machine.execTilRfshLate gt s
  | .release rq gt => Sys2Proof.Machine.execRelease rq gt s
  | .releaseApply gt => Sys2Proof.Machine.execReleaseApply gt s
  | .tilDecayed gt => Sys2Proof.Machine.execTilDecayed gt s
  | .tilRfshRegime gt => Sys2Proof.Machine.execTilRfshRegime gt s
  | .gridWrite rq gt v => Sys2Proof.Machine.execGridWrite rq gt v s
  | .phaseWrite rq gt v => Sys2Proof.Machine.execPhaseWrite rq gt v s
  | .termStoreEcc gt r => Sys2Proof.Machine.execTermStoreEcc gt r s
  | .digWriteRecompute gt => Sys2Proof.Machine.execDigWriteRecompute gt s
  | .runCal rq scope target => Sys2Proof.Machine.execRunCal rq scope target s
  | .calCommit rq scope target => Sys2Proof.Machine.execCalCommit rq scope target s
  | .calRevert rq scope target => Sys2Proof.Machine.execCalRevert rq scope target s
  | .calAbort rq scope target => Sys2Proof.Machine.execCalAbort rq scope target s
  | .calSnapshot rq scope target => Sys2Proof.Machine.execCalSnapshot rq scope target s
  | .snapshotWriteDone ok => Sys2Proof.Machine.execSnapshotWriteDone ok s
  | .calTileStart gt => Sys2Proof.Machine.execCalTileStart gt s
  | .calAction gt kind row devs => Sys2Proof.Machine.execCalAction gt kind row devs s
  | .calTileEnd gt cols rows ofs gain row ofsCol gainCol rowWorst side bg => Sys2Proof.Machine.execCalTileEnd gt cols rows ofs gain row ofsCol gainCol rowWorst side bg s
  | .calCommitted => Sys2Proof.Machine.execCalCommitted s
  | .vrefSample uv dev => Sys2Proof.Machine.execVrefSample uv dev s
  | .calUnlockTimeout gt => Sys2Proof.Machine.execCalUnlockTimeout gt s
  | .weirWindowEnd isl => Sys2Proof.Machine.execWeirWindowEnd isl s
  | .weirCtlWrite rq isl v => Sys2Proof.Machine.execWeirCtlWrite rq isl v s
  | .loadPlan j manifest sigOk dmaOk => Sys2Proof.Machine.execLoadPlan j manifest sigOk dmaOk s
  | .importSection j data ok dmaOk => Sys2Proof.Machine.execImportSection j data ok dmaOk s
  | .unloadPlan j => Sys2Proof.Machine.execUnloadPlan j s
  | .runJob j => Sys2Proof.Machine.execRunJob j s
  | .swapPlan j => Sys2Proof.Machine.execSwapPlan j s
  | .cistReg j => Sys2Proof.Machine.execCistReg j s
  | .nopJob j => Sys2Proof.Machine.execNopJob j s
  | .tileAssignWrite n h isl wti tile => Sys2Proof.Machine.execTileAssignWrite n h isl wti tile s
  | .dynDecision isl idx => Sys2Proof.Machine.execDynDecision isl idx s
  | .dynDefault isl idx => Sys2Proof.Machine.execDynDefault isl idx s
  | .dynWait isl idx => Sys2Proof.Machine.execDynWait isl idx s
  | .dynPrepare isl idx q => Sys2Proof.Machine.execDynPrepare isl idx q s
  | .dynSubRowWrite isl idx q => Sys2Proof.Machine.execDynSubRowWrite isl idx q s
  | .dynSubPulse isl idx q errs => Sys2Proof.Machine.execDynSubPulse isl idx q errs s
  | .dynRevoked gt => Sys2Proof.Machine.execDynRevoked gt s
  | .sluiceTick => Sys2Proof.Machine.execSluiceTick s
  | .capWindowEnd => Sys2Proof.Machine.execCapWindowEnd s
  | .avsWindowEnd => Sys2Proof.Machine.execAvsWindowEnd s
  | .avsReadback mv => Sys2Proof.Machine.execAvsReadback mv s
  | .sluiceAvsFault => Sys2Proof.Machine.execSluiceAvsFault s
  | .capWrite rq which v => Sys2Proof.Machine.execCapWrite rq which v s
  | .capWinWrite rq v => Sys2Proof.Machine.execCapWinWrite rq v s
  | .avsCtlWrite rq v => Sys2Proof.Machine.execAvsCtlWrite rq v s
  | .harbourReadDone blk ce ue chk src => Sys2Proof.Machine.execHarbourReadDone blk ce ue chk src s
  | .hbrCeStorm h => Sys2Proof.Machine.execHbrCeStorm h s
  | .patrolPass h => Sys2Proof.Machine.execPatrolPass h s
  | .scrubPass bad ms => Sys2Proof.Machine.execScrubPass bad ms s
  | .fryCistErr r => Sys2Proof.Machine.execFryCistErr r s
  | .hbToBasin isl idx bad => Sys2Proof.Machine.execHbToBasin isl idx bad s
  | .basinToHb isl idx bad => Sys2Proof.Machine.execBasinToHb isl idx bad s
  | .ferryFetch j h cmd data ok => Sys2Proof.Machine.execFerryFetch j h cmd data ok s
  | .ferryDelivery r isl n => Sys2Proof.Machine.execFerryDelivery r isl n s
  | .writeTiles isl idx => Sys2Proof.Machine.execWriteTiles isl idx s
  | .ferryRowWrite isl idx plain => Sys2Proof.Machine.execFerryRowWrite isl idx plain s
  | .ferryVerify isl idx tagOk digestOk => Sys2Proof.Machine.execFerryVerify isl idx tagOk digestOk s
  | .swapLayerRewrite c => Sys2Proof.Machine.execSwapLayerRewrite c s
  | .frySwapDone c => Sys2Proof.Machine.execFrySwapDone c s
  | .overflowWrite j => Sys2Proof.Machine.execOverflowWrite j s
  | .ctxCreate rq c => Sys2Proof.Machine.execCtxCreate rq c s
  | .ctxDestroy rq c => Sys2Proof.Machine.execCtxDestroy rq c s
  | .teardownDone c zero => Sys2Proof.Machine.execTeardownDone c zero s
  | .installKey rq c => Sys2Proof.Machine.execInstallKey rq c s
  | .vaultLeaseGrant => Sys2Proof.Machine.execVaultLeaseGrant s
  | .ctxKeyOk c blob dmaOk sigOk keyUnwraps => Sys2Proof.Machine.execCtxKeyOk c blob dmaOk sigOk keyUnwraps s
  | .ctxBack rq c n => Sys2Proof.Machine.execCtxBack rq c n s
  | .vfOff n => Sys2Proof.Machine.execVfOff n s
  | .regKey rq k onCurve => Sys2Proof.Machine.execRegKey rq k onCurve s
  | .revokeKey rq k => Sys2Proof.Machine.execRevokeKey rq k s
  | .zeroise rq c => Sys2Proof.Machine.execZeroise rq c s
  | .getVersion f => Sys2Proof.Machine.execGetVersion f s
  | .getCapabilities f => Sys2Proof.Machine.execGetCapabilities f s
  | .negotiateAlgorithms f offered => Sys2Proof.Machine.execNegotiateAlgorithms f offered s
  | .getDigests f => Sys2Proof.Machine.execGetDigests f s
  | .getCertificate f slot off len => Sys2Proof.Machine.execGetCertificate f slot off len s
  | .challenge f slot => Sys2Proof.Machine.execChallenge f slot s
  | .getMeasurements f index signed => Sys2Proof.Machine.execGetMeasurements f index signed s
  | .keyExchange f => Sys2Proof.Machine.execKeyExchange f s
  | .finish f ok => Sys2Proof.Machine.execFinish f ok s
  | .endSession f => Sys2Proof.Machine.execEndSession f s
  | .spdmUnsupported f => Sys2Proof.Machine.execSpdmUnsupported f s
  | .ideKm f => Sys2Proof.Machine.execIdeKm f s
  | .linkUp speed width flit => Sys2Proof.Machine.execLinkUp speed width flit s
  | .hifLinkDown => Sys2Proof.Machine.execHifLinkDown s
  | .sqTail f q v => Sys2Proof.Machine.execSqTail f q v s
  | .cqHead f q v => Sys2Proof.Machine.execCqHead f q v s
  | .entryFetch bytes ok => Sys2Proof.Machine.execEntryFetch bytes ok s
  | .qCreate rq via => Sys2Proof.Machine.execQCreate rq via s
  | .qDelete rq via => Sys2Proof.Machine.execQDelete rq via s
  | .pushPayloadWrite f q off bytes => Sys2Proof.Machine.execPushPayloadWrite f q off bytes s
  | .fastEntry f q bytes => Sys2Proof.Machine.execFastEntry f q bytes s
  | .fastCommit isl => Sys2Proof.Machine.execFastCommit isl s
  | .inputBlockArrival j data word ok => Sys2Proof.Machine.execInputBlockArrival j data word ok s
  | .resultBlockWrite j wordOk linkOk => Sys2Proof.Machine.execResultBlockWrite j wordOk linkOk s
  | .completionWrite j => Sys2Proof.Machine.execCompletionWrite j s
  | .hifDmaErr j => Sys2Proof.Machine.execHifDmaErr j s
  | .flr f => Sys2Proof.Machine.execFlr f s
  | .outputCompare j => Sys2Proof.Machine.execOutputCompare j s
  | .evtPendWrite rq ty inst v => Sys2Proof.Machine.execEvtPendWrite rq ty inst v s
  | .evtEnWrite rq ty inst v => Sys2Proof.Machine.execEvtEnWrite rq ty inst v s
  | .evtForce rq ty inst v => Sys2Proof.Machine.execEvtForce rq ty inst v s
  | .fenceWrite rq ty inst v => Sys2Proof.Machine.execFenceWrite rq ty inst v s
  | .rw1cWrite rq a v => Sys2Proof.Machine.execRw1cWrite rq a v s
  | .rcRead rq a => Sys2Proof.Machine.execRcRead rq a s
  | .rpRead rq a => Sys2Proof.Machine.execRpRead rq a s
  | .lowWordRead rq via a => Sys2Proof.Machine.execLowWordRead rq via a s
  | .lowWordWrite rq via a v => Sys2Proof.Machine.execLowWordWrite rq via a v s
  | .highWordWrite rq via a v => Sys2Proof.Machine.execHighWordWrite rq via a v s
  | .regWrite rq via a v env => Sys2Proof.Machine.execRegWrite rq via a v env s
  | .topBadAccess rq a bytes write => Sys2Proof.Machine.execTopBadAccess rq a bytes write s
  | .pendSelWrite rq v => Sys2Proof.Machine.execPendSelWrite rq v s
  | .irqHoldoffEnd f => Sys2Proof.Machine.execIrqHoldoffEnd f s
  | .leaseRenew res unit plan => Sys2Proof.Machine.execLeaseRenew res unit plan s
  | .leaseExpiry res unit plan needed => Sys2Proof.Machine.execLeaseExpiry res unit plan needed s
  | .leaseLost res unit plan => Sys2Proof.Machine.execLeaseLost res unit plan s
  | .thermalSample temps => Sys2Proof.Machine.execThermalSample temps s
  | .thmTrip isl => Sys2Proof.Machine.execThmTrip isl s
  | .thmSensor isl reading => Sys2Proof.Machine.execThmSensor isl reading s
  | .reprogramStart gt => Sys2Proof.Machine.execReprogramStart gt s
  | .reprogramVerify gt devs => Sys2Proof.Machine.execReprogramVerify gt devs s
  | .nearMissWindowEnd gt => Sys2Proof.Machine.execNearMissWindowEnd gt s
  | .basinLineUe isl line => Sys2Proof.Machine.execBasinLineUe isl line s
  | .replicaCompare h => Sys2Proof.Machine.execReplicaCompare h s
  | .rplExpel isl => Sys2Proof.Machine.execRplExpel isl s
  | .testDue isl u => Sys2Proof.Machine.execTestDue isl u s
  | .testStart isl u => Sys2Proof.Machine.execTestStart isl u s
  | .testDeferBound isl u => Sys2Proof.Machine.execTestDeferBound isl u s
  | .rehomeSwitch isl u => Sys2Proof.Machine.execRehomeSwitch isl u s
  | .tstPreempt isl u h => Sys2Proof.Machine.execTstPreempt isl u h s
  | .testComplete isl u pass data ok => Sys2Proof.Machine.execTestComplete isl u pass data ok s
  | .testTile rq target => Sys2Proof.Machine.execTestTile rq target s
  | .testIsland rq target => Sys2Proof.Machine.execTestIsland rq target s
  | .tstIsland isl => Sys2Proof.Machine.execTstIsland isl s
  | .tstPatUpdate => Sys2Proof.Machine.execTstPatUpdate s
  | .pilWdog n => Sys2Proof.Machine.execPilWdog n s
  | .wdKick n v => Sys2Proof.Machine.execWdKick n v s
  | .pilRestart n ok => Sys2Proof.Machine.execPilRestart n ok s
  | .contextRecovery c => Sys2Proof.Machine.execContextRecovery c s
  | .engineRecovery isl => Sys2Proof.Machine.execEngineRecovery isl s
  | .partitionRecovery p => Sys2Proof.Machine.execPartitionRecovery p s
  | .chipWarmReset plain => Sys2Proof.Machine.execChipWarmReset plain s
  | .powerCycle => Sys2Proof.Machine.execPowerCycle s
  | .pwrcycStuck => Sys2Proof.Machine.execPwrcycStuck s
  | .ctxCmd rq target => Sys2Proof.Machine.execCtxCmd rq target s
  | .engineCmd rq target => Sys2Proof.Machine.execEngineCmd rq target s
  | .partitionCmd rq target => Sys2Proof.Machine.execPartitionCmd rq target s
  | .warmCmd rq => Sys2Proof.Machine.execWarmCmd rq s
  | .pwrcycCmd rq => Sys2Proof.Machine.execPwrcycCmd rq s
  | .resumeCmd rq => Sys2Proof.Machine.execResumeCmd rq s
  | .reconciliation => Sys2Proof.Machine.execReconciliation s
  | .hello i3c seq key sigOk => Sys2Proof.Machine.execHello i3c seq key sigOk s
  | .closeSession sid seq => Sys2Proof.Machine.execCloseSession sid seq s
  | .sessionTimeout sid => Sys2Proof.Machine.execSessionTimeout sid s
  | .cswAuthFail i3c => Sys2Proof.Machine.execCswAuthFail i3c s
  | .mgmtKeySet origin sid seq key pub sigOk => Sys2Proof.Machine.execMgmtKeySet origin sid seq key pub sigOk s
  | .cswRead sid seq peek a n => Sys2Proof.Machine.execCswRead sid seq peek a n s
  | .cswWrite sid seq a vals env => Sys2Proof.Machine.execCswWrite sid seq a vals env s
  | .logRead sid seq first n => Sys2Proof.Machine.execLogRead sid seq first n s
  | .subscribe sid seq cls enable => Sys2Proof.Machine.execSubscribe sid seq cls enable s
  | .eventReport sid => Sys2Proof.Machine.execEventReport sid s
  | .telemetry sid seq => Sys2Proof.Machine.execTelemetry sid seq s
  | .timeProbe sid seq turn rxErr txErr => Sys2Proof.Machine.execTimeProbe sid seq turn rxErr txErr s
  | .patData sid seq off bytes => Sys2Proof.Machine.execPatData sid seq off bytes s
  | .patCommit sid seq len sigOk readOk => Sys2Proof.Machine.execPatCommit sid seq len sigOk readOk s
  | .fwData sid seq off bytes ok => Sys2Proof.Machine.execFwData sid seq off bytes ok s
  | .fwCommit sid seq len ver svn sigOk ok => Sys2Proof.Machine.execFwCommit sid seq len ver svn sigOk ok s
  | .arpRequest sender target => Sys2Proof.Machine.execArpRequest sender target s
  | .icmpEcho dst data => Sys2Proof.Machine.execIcmpEcho dst data s
  | .dynamicAddressAssign addr => Sys2Proof.Machine.execDynamicAddressAssign addr s
  | .setEndpointId eid => Sys2Proof.Machine.execSetEndpointId eid s
  | .getEndpointId => Sys2Proof.Machine.execGetEndpointId s
  | .getMctpVersionSupport ty => Sys2Proof.Machine.execGetMctpVersionSupport ty s
  | .getMessageTypeSupport => Sys2Proof.Machine.execGetMessageTypeSupport s
  | .gettid => Sys2Proof.Machine.execGettid s
  | .getpldmversion ty => Sys2Proof.Machine.execGetpldmversion ty s
  | .getpldmtypes => Sys2Proof.Machine.execGetpldmtypes s
  | .getpldmcommands ty => Sys2Proof.Machine.execGetpldmcommands ty s
  | .getpdr handle => Sys2Proof.Machine.execGetpdr handle s
  | .getsensorreading id => Sys2Proof.Machine.execGetsensorreading id s
  | .getstatesensorreadings id => Sys2Proof.Machine.execGetstatesensorreadings id s
  | .pldmUnsupported ty cmd => Sys2Proof.Machine.execPldmUnsupported ty cmd s
  | .ptpCapture ty dom seqId err => Sys2Proof.Machine.execPtpCapture ty dom seqId err s
  | .logCommit => Sys2Proof.Machine.execLogCommit s
  | .unpin rq slot => Sys2Proof.Machine.execUnpin rq slot s
  | .unpinAll rq => Sys2Proof.Machine.execUnpinAll rq s
  | .vddAonGood mode sigA sigB => Sys2Proof.Machine.execVddAonGood mode sigA sigB s
  | .vddAonLoss => Sys2Proof.Machine.execVddAonLoss s
  | .pwrgdInAssert other pat0 pat1 => Sys2Proof.Machine.execPwrgdInAssert other pat0 pat1 s
  | .bootPwrgdLoss => Sys2Proof.Machine.execBootPwrgdLoss s
  | .perstNDeassert => Sys2Proof.Machine.execPerstNDeassert s
  | .perstNAssert => Sys2Proof.Machine.execPerstNAssert s
  | .profselSampleEnd first disagree => Sys2Proof.Machine.execProfselSampleEnd first disagree s
  | .harbourTrained failed => Sys2Proof.Machine.execHarbourTrained failed s
  | .bootReady => Sys2Proof.Machine.execBootReady s
  | .bootAttemptFail other pat0 pat1 => Sys2Proof.Machine.execBootAttemptFail other pat0 pat1 s
  | .profSelect rq target => Sys2Proof.Machine.execProfSelect rq target s
  | .profileApply => Sys2Proof.Machine.execProfileApply s
  | .writeProfile rq target => Sys2Proof.Machine.execWriteProfile rq target s
  | .writeIndex rq target => Sys2Proof.Machine.execWriteIndex rq target s
  | .fwWrite rq image ver svn ok => Sys2Proof.Machine.execFwWrite rq image ver svn ok s
  | .flashWriteDone ok sig => Sys2Proof.Machine.execFlashWriteDone ok sig s
  | .extest pins shift => Sys2Proof.Machine.execExtest pins shift s
  | .idcode => Sys2Proof.Machine.execIdcode s
  | .samplePreload pins shift => Sys2Proof.Machine.execSamplePreload pins shift s
  | .tapClamp => Sys2Proof.Machine.execTapClamp s
  | .highz => Sys2Proof.Machine.execHighz s
  | .bypass code => Sys2Proof.Machine.execBypass code s
  | .tapReset => Sys2Proof.Machine.execTapReset s
  | .dtmRead a => Sys2Proof.Machine.execDtmRead a s
  | .dtmWrite a v env => Sys2Proof.Machine.execDtmWrite a v env s
  | .dtmPeek a => Sys2Proof.Machine.execDtmPeek a s
  | .dmiAccess n kind => Sys2Proof.Machine.execDmiAccess n kind s
  | .dbgUnlock rq sigOk => Sys2Proof.Machine.execDbgUnlock rq sigOk s
  | .dbgLock rq => Sys2Proof.Machine.execDbgLock rq s
  | .dbgHalt rq n => Sys2Proof.Machine.execDbgHalt rq n s
  | .dbgResume rq n => Sys2Proof.Machine.execDbgResume rq n s
  | .leaseFreezeWrite rq v => Sys2Proof.Machine.execLeaseFreezeWrite rq v s
  | .hbrStackFail h => Sys2Proof.Machine.execHbrStackFail h s
  | .bar2Write f a bytes => Sys2Proof.Machine.execBar2Write f a bytes s
  | .cswLink up => Sys2Proof.Machine.execCswLink up s
  | .stackTj h t => Sys2Proof.Machine.execStackTj h t s

end Sys2Proof.Machine
end

