-- ==== Sys2Proof/WellFormed.lean ====
section
/-!
DEFINITION. Commands whose operands are of the shape that the spec gives what they carry: what lies outside the ranges of the operands' own types.
-/
namespace Sys2Proof

/-- No element occurs twice. -/
def distinct {α : Type} [DecidableEq α] : List α → Bool
  | [] => true
  | x :: xs => !xs.contains x && distinct xs

/-- At most `n` bytes. -/
def bytesAtMost (n : Nat) (b : List (BitVec 8)) : Bool := decide (b.length ≤ n)

/-- Errors are given for lines of a tile: 528 bit lines, or 1,024 word lines of a transpose phase (R44, R270). -/
def lines (errs : List (Nat × Int)) : Bool := errs.all fun e => decide (e.1 < 1024)

/-- The units of a leased resource (R945): strait outputs, islands, partitions, tiles, the vault, the flash. -/
def leaseUnit (res : Fin 7) (unit : Nat) : Bool :=
  match res.val with
  | 1 => decide (unit < 256)
  | 2 => decide (unit < 64)
  | 3 => decide (unit < 8)
  | 4 => decide (unit < 1024)
  | 0 => false
  | _ => unit = 0

/-- The command is well formed. -/
def Instr.wf (i : Instr) : Bool :=
  match i with
  | .resyncWord bad silent => distinct bad && distinct silent
  | .loadPlan _ manifest _ _ => bytesAtMost 65824 manifest
  | .importSection _ data _ _ => bytesAtMost 100696064 data
  | .harbourReadDone blk _ _ _ _ => decide (blk < 37748736)
  | .ferryDelivery _ _ n => decide (n ≤ 393344)
  | .ferryRowWrite _ _ plain => plain.length = 384
  | .fastEntry _ _ bytes => bytes.length = 64
  | .pushPayloadWrite _ _ off bytes => decide (off.val + bytes.length ≤ 4096)
  | .leaseRenew res unit _ => leaseUnit res unit
  | .leaseExpiry res unit _ _ => leaseUnit res unit
  | .leaseLost res unit _ => leaseUnit res unit
  | .thermalSample temps => distinct (temps.map (·.1))
  | .refclkLoss torn => distinct torn
  | .harbourTrained failed => distinct failed
  | .mgmtKeySet _ _ _ _ pub _ => bytesAtMost 96 pub
  | .cswWrite _ _ _ vals _ => decide (1 ≤ vals.length) && decide (vals.length ≤ 64)
  | .patData _ _ _ bytes => bytesAtMost 1024 bytes
  | .fwData _ _ _ bytes _ => bytesAtMost 1024 bytes
  | .send _ _ badSrc badDst => distinct badSrc && distinct badDst
  | .standardPulse _ _ errs => lines errs
  | .extendedPulse _ _ errs => lines errs
  | .transposePhase _ _ errs => lines errs
  | .dynSubPulse _ _ _ errs => lines errs
  | .fountainExpand .. | .spillRowRead .. | .rowioRead .. | .rowioWrite .. | .descale .. | .quant .. | .outsel .. | .actOp .. | .addOp .. | .mulOp ..
  | .normOp .. | .softmax .. | .copyOp .. | .repeatPulse .. | .refreshSlot .. | .rowRefreshDone .. | .catchupRefresh .. | .tilRfshLate ..
  | .release .. | .releaseApply .. | .tilDecayed .. | .tilRfshRegime .. | .gridWrite .. | .phaseWrite .. | .termStoreEcc .. | .digWriteRecompute ..
  | .tunitLock .. | .tilTunitUnlock .. | .colmapApply .. | .copyPassRowOp .. | .tilColmapDone .. | .trimWinWrite .. | .weirWindowEnd ..
  | .weirCtlWrite .. | .gquant .. | .outer .. | .optstep .. | .ticketIssue .. | .stepOrigin .. | .actionAck .. | .tideMiss .. | .tideHang ..
  | .tideTick .. | .tidePllLock .. | .refclkReturn .. | .slackWindowEnd .. | .slkCtlWrite .. | .tktSelWrite .. | .ppsEdge .. | .tidePpsLost ..
  | .ppsCtlWrite .. | .ppsBaseWrite .. | .tideOutMarker .. | .sluiceTick .. | .capWindowEnd .. | .avsWindowEnd .. | .avsReadback ..
  | .sluiceAvsFault .. | .capWrite .. | .capWinWrite .. | .avsCtlWrite .. | .dynDecision .. | .dynDefault .. | .dynWait .. | .dynPrepare ..
  | .dynSubRowWrite .. | .dynRevoked .. | .runCal .. | .calCommit .. | .calRevert .. | .calAbort .. | .calSnapshot .. | .snapshotWriteDone ..
  | .calTileStart .. | .calAction .. | .calTileEnd .. | .calCommitted .. | .vrefSample .. | .calUnlockTimeout .. | .unloadPlan .. | .runJob ..
  | .swapPlan .. | .cistReg .. | .nopJob .. | .tileAssignWrite .. | .hbrCeStorm .. | .patrolPass .. | .scrubPass .. | .fryCistErr .. | .hbToBasin ..
  | .basinToHb .. | .ferryFetch .. | .writeTiles .. | .ferryVerify .. | .swapLayerRewrite .. | .frySwapDone .. | .ctxCreate .. | .ctxDestroy ..
  | .teardownDone .. | .installKey .. | .vaultLeaseGrant .. | .ctxKeyOk .. | .ctxBack .. | .vfOff .. | .regKey .. | .revokeKey .. | .zeroise ..
  | .getVersion .. | .getCapabilities .. | .negotiateAlgorithms .. | .getDigests .. | .getCertificate .. | .challenge .. | .getMeasurements ..
  | .keyExchange .. | .finish .. | .endSession .. | .spdmUnsupported .. | .ideKm .. | .outputCompare .. | .replicaCompare .. | .rplExpel ..
  | .overflowWrite .. | .linkUp .. | .hifLinkDown .. | .sqTail .. | .cqHead .. | .entryFetch .. | .qCreate .. | .qDelete .. | .fastCommit ..
  | .inputBlockArrival .. | .resultBlockWrite .. | .completionWrite .. | .hifDmaErr .. | .flr .. | .bar2Write .. | .reprogramStart ..
  | .reprogramVerify .. | .nearMissWindowEnd .. | .basinLineUe .. | .thmTrip .. | .thmSensor .. | .stackTj .. | .testDue .. | .testStart ..
  | .testDeferBound .. | .rehomeSwitch .. | .tstPreempt .. | .testComplete .. | .testTile .. | .testIsland .. | .tstIsland .. | .tstPatUpdate ..
  | .ctxCmd .. | .engineCmd .. | .partitionCmd .. | .warmCmd .. | .pwrcycCmd .. | .resumeCmd .. | .wdKick .. | .pilWdog .. | .pilRestart ..
  | .logCommit .. | .unpin .. | .unpinAll .. | .irqHoldoffEnd .. | .vddAonGood .. | .vddAonLoss .. | .pwrgdInAssert .. | .bootPwrgdLoss ..
  | .perstNDeassert .. | .perstNAssert .. | .profselSampleEnd .. | .bootReady .. | .bootAttemptFail .. | .profSelect .. | .profileApply ..
  | .writeProfile .. | .writeIndex .. | .fwWrite .. | .flashWriteDone .. | .hbrStackFail .. | .dbgUnlock .. | .dbgLock .. | .dbgHalt ..
  | .dbgResume .. | .leaseFreezeWrite .. | .evtPendWrite .. | .evtEnWrite .. | .evtForce .. | .fenceWrite .. | .rw1cWrite .. | .rcRead ..
  | .rpRead .. | .lowWordRead .. | .lowWordWrite .. | .highWordWrite .. | .regWrite .. | .topBadAccess .. | .pendSelWrite .. | .hello ..
  | .closeSession .. | .sessionTimeout .. | .cswAuthFail .. | .cswRead .. | .logRead .. | .subscribe .. | .eventReport .. | .telemetry ..
  | .timeProbe .. | .patCommit .. | .fwCommit .. | .arpRequest .. | .icmpEcho .. | .dynamicAddressAssign .. | .setEndpointId .. | .getEndpointId ..
  | .getMctpVersionSupport .. | .getMessageTypeSupport .. | .gettid .. | .getpldmversion .. | .getpldmtypes .. | .getpldmcommands .. | .getpdr ..
  | .getsensorreading .. | .getstatesensorreadings .. | .pldmUnsupported .. | .ptpCapture .. | .cswLink .. | .extest .. | .idcode ..
  | .samplePreload .. | .tapClamp .. | .highz .. | .bypass .. | .tapReset .. | .dtmRead .. | .dtmWrite .. | .dtmPeek .. | .dmiAccess ..
  | .contextRecovery .. | .engineRecovery .. | .partitionRecovery .. | .chipWarmReset .. | .powerCycle .. | .pwrcycStuck .. | .reconciliation .. => true

end Sys2Proof
end

