-- ==== Sys2Proof/Safety.lean ====
section
/-!
DEFINITION. What a safe run of the block is, in the terms claims use: the queue holds well-formed commands, every step answers a next state, and the
state keeps its invariant.
-/
namespace Sys2Proof.Machine

/-- The sparse memories are in their canonical form: addresses rise, and no byte that reads as its default is listed. -/
def State.cellsWf (s : State) : Bool :=
  Store.wf basinZero s.basin && Store.wf basinZero s.harbour && Store.wf flashBlank s.flash

/-- In every listed page header a pending event is a raised one (R786). -/
def pendSub (h : Store PageHdr) : Bool := h.all fun p => p.2.pend &&& ~~~ p.2.raw = 0

/-- The invariant of the state that every step keeps: the three memories and the table of basin page tags are in their canonical form (so a page has
one owner, R669), and EVT_PEND lies within EVT_RAW on every page (R791). -/
def State.Inv (s : State) : Prop :=
  Store.wf basinZero s.basin = true ∧ Store.wf basinZero s.harbour = true ∧ Store.wf flashBlank s.flash = true ∧ pendSub s.hdr = true
    ∧ Store.wf tagNone s.tags = true

/-- The commands that wait are well formed. -/
def State.queueWf (s : State) : Bool := s.pending.all Instr.wf

/-- A step answers a next state. -/
def State.steps (s : State) : Prop := ∃ t, step s = .next t

/-! ## Frames -/

/-! The fields of State, one bit each: a set of fields is the OR of theirs. -/
namespace Fld
/-- The field `pending`. -/
abbrev pending : Nat := 1
/-- The field `regs`. -/
abbrev regs : Nat := 2
/-- The field `hdr`. -/
abbrev hdr : Nat := 4
/-- The field `shadow`. -/
abbrev shadow : Nat := 8
/-- The field `staged`. -/
abbrev staged : Nat := 16
/-- The field `heldWrites`. -/
abbrev heldWrites : Nat := 32
/-- The field `fencing`. -/
abbrev fencing : Nat := 64
/-- The field `pendWas`. -/
abbrev pendWas : Nat := 128
/-- The field `log`. -/
abbrev log : Nat := 256
/-- The field `out`. -/
abbrev out : Nat := 512
/-- The field `irq`. -/
abbrev irq : Nat := 1024
/-- The field `badAccTick`. -/
abbrev badAccTick : Nat := 2048
/-- The field `draws`. -/
abbrev draws : Nat := 4096
/-- The field `leases`. -/
abbrev leases : Nat := 8192
/-- The field `profile`. -/
abbrev profile : Nat := 16384
/-- The field `count`. -/
abbrev count : Nat := 32768
/-- The field `tide`. -/
abbrev tide : Nat := 65536
/-- The field `tickets`. -/
abbrev tickets : Nat := 131072
/-- The field `acks`. -/
abbrev acks : Nat := 262144
/-- The field `jobs`. -/
abbrev jobs : Nat := 524288
/-- The field `nextJob`. -/
abbrev nextJob : Nat := 1048576
/-- The field `plans`. -/
abbrev plans : Nat := 2097152
/-- The field `nextPlan`. -/
abbrev nextPlan : Nat := 4194304
/-- The field `acct`. -/
abbrev acct : Nat := 8388608
/-- The field `slu`. -/
abbrev slu : Nat := 16777216
/-- The field `ctxs`. -/
abbrev ctxs : Nat := 33554432
/-- The field `basin`. -/
abbrev basin : Nat := 67108864
/-- The field `lines`. -/
abbrev lines : Nat := 134217728
/-- The field `tags`. -/
abbrev tags : Nat := 268435456
/-- The field `qps`. -/
abbrev qps : Nat := 536870912
/-- The field `ovf`. -/
abbrev ovf : Nat := 1073741824
/-- The field `landing`. -/
abbrev landing : Nat := 2147483648
/-- The field `rungs`. -/
abbrev rungs : Nat := 4294967296
/-- The field `rows`. -/
abbrev rows : Nat := 8589934592
/-- The field `tiles`. -/
abbrev tiles : Nat := 17179869184
/-- The field `trims`. -/
abbrev trims : Nat := 34359738368
/-- The field `weir`. -/
abbrev weir : Nat := 68719476736
/-- The field `nextRep`. -/
abbrev nextRep : Nat := 137438953472
/-- The field `harbour`. -/
abbrev harbour : Nat := 274877906944
/-- The field `hbPoison`. -/
abbrev hbPoison : Nat := 549755813888
/-- The field `hbWritten`. -/
abbrev hbWritten : Nat := 1099511627776
/-- The field `frames`. -/
abbrev frames : Nat := 2199023255552
/-- The field `badSlots`. -/
abbrev badSlots : Nat := 4398046511104
/-- The field `owners`. -/
abbrev owners : Nat := 8796093022208
/-- The field `runs`. -/
abbrev runs : Nat := 17592186044416
/-- The field `nextRun`. -/
abbrev nextRun : Nat := 35184372088832
/-- The field `refetch`. -/
abbrev refetch : Nat := 70368744177664
/-- The field `hbr`. -/
abbrev hbr : Nat := 140737488355328
/-- The field `scrubFrom`. -/
abbrev scrubFrom : Nat := 281474976710656
/-- The field `swaps`. -/
abbrev swaps : Nat := 562949953421312
/-- The field `imports`. -/
abbrev imports : Nat := 1125899906842624
/-- The field `dyns`. -/
abbrev dyns : Nat := 2251799813685248
/-- The field `tests`. -/
abbrev tests : Nat := 4503599627370496
/-- The field `flash`. -/
abbrev flash : Nat := 9007199254740992
/-- The field `cal`. -/
abbrev cal : Nat := 18014398509481984
/-- The field `flashq`. -/
abbrev flashq : Nat := 36028797018963968
/-- The field `ownerKeys`. -/
abbrev ownerKeys : Nat := 72057594037927936
/-- The field `spdm`. -/
abbrev spdm : Nat := 144115188075855872
/-- The field `ends`. -/
abbrev ends : Nat := 288230376151711744
/-- The field `rrCtx`. -/
abbrev rrCtx : Nat := 576460752303423488
/-- The field `rrQ`. -/
abbrev rrQ : Nat := 1152921504606846976
/-- The field `rplChecks`. -/
abbrev rplChecks : Nat := 2305843009213693952
/-- The field `lost`. -/
abbrev lost : Nat := 4611686018427387904
/-- The field `thm`. -/
abbrev thm : Nat := 9223372036854775808
/-- The field `wd`. -/
abbrev wd : Nat := 18446744073709551616
/-- The field `rungAt`. -/
abbrev rungAt : Nat := 36893488147419103232
/-- The field `flrs`. -/
abbrev flrs : Nat := 73786976294838206464
/-- The field `sessions`. -/
abbrev sessions : Nat := 147573952589676412928
/-- The field `mgmtKeys`. -/
abbrev mgmtKeys : Nat := 295147905179352825856
/-- The field `authTick`. -/
abbrev authTick : Nat := 590295810358705651712
/-- The field `views`. -/
abbrev views : Nat := 1180591620717411303424
/-- The field `boot`. -/
abbrev boot : Nat := 2361183241434822606848
/-- The field `push`. -/
abbrev push : Nat := 4722366482869645213696
/-- The field `tap`. -/
abbrev tap : Nat := 9444732965739290427392
/-- The field `mctp`. -/
abbrev mctp : Nat := 18889465931478580854784
/-- The field `torn`. -/
abbrev torn : Nat := 37778931862957161709568
/-- The field `grantWas`. -/
abbrev grantWas : Nat := 75557863725914323419136
/-- The field `power`. -/
abbrev power : Nat := 151115727451828646838272
/-- The field `reconAt`. -/
abbrev reconAt : Nat := 302231454903657293676544
end Fld

/-- The fields that raising an event may change: registers and page headers, the trouble log, outputs and hold-offs, free draws, rungs. -/
abbrev Fld.raised : Nat := Fld.regs ||| Fld.hdr ||| Fld.log ||| Fld.out ||| Fld.irq ||| Fld.draws ||| Fld.rungs ||| Fld.rungAt

/-- The set `a` of fields lies within `b`. -/
def Fld.sub (a b : Nat) : Bool := a &&& b == a

/-- Two states agree on every field outside `m`. -/
structure Agree (m : Nat) (s t : State) : Prop where
  pending : Fld.sub Fld.pending m = false → t.pending = s.pending
  regs : Fld.sub Fld.regs m = false → t.regs = s.regs
  hdr : Fld.sub Fld.hdr m = false → t.hdr = s.hdr
  shadow : Fld.sub Fld.shadow m = false → t.shadow = s.shadow
  staged : Fld.sub Fld.staged m = false → t.staged = s.staged
  heldWrites : Fld.sub Fld.heldWrites m = false → t.heldWrites = s.heldWrites
  fencing : Fld.sub Fld.fencing m = false → t.fencing = s.fencing
  pendWas : Fld.sub Fld.pendWas m = false → t.pendWas = s.pendWas
  log : Fld.sub Fld.log m = false → t.log = s.log
  out : Fld.sub Fld.out m = false → t.out = s.out
  irq : Fld.sub Fld.irq m = false → t.irq = s.irq
  badAccTick : Fld.sub Fld.badAccTick m = false → t.badAccTick = s.badAccTick
  draws : Fld.sub Fld.draws m = false → t.draws = s.draws
  leases : Fld.sub Fld.leases m = false → t.leases = s.leases
  profile : Fld.sub Fld.profile m = false → t.profile = s.profile
  count : Fld.sub Fld.count m = false → t.count = s.count
  tide : Fld.sub Fld.tide m = false → t.tide = s.tide
  tickets : Fld.sub Fld.tickets m = false → t.tickets = s.tickets
  acks : Fld.sub Fld.acks m = false → t.acks = s.acks
  jobs : Fld.sub Fld.jobs m = false → t.jobs = s.jobs
  nextJob : Fld.sub Fld.nextJob m = false → t.nextJob = s.nextJob
  plans : Fld.sub Fld.plans m = false → t.plans = s.plans
  nextPlan : Fld.sub Fld.nextPlan m = false → t.nextPlan = s.nextPlan
  acct : Fld.sub Fld.acct m = false → t.acct = s.acct
  slu : Fld.sub Fld.slu m = false → t.slu = s.slu
  ctxs : Fld.sub Fld.ctxs m = false → t.ctxs = s.ctxs
  basin : Fld.sub Fld.basin m = false → t.basin = s.basin
  lines : Fld.sub Fld.lines m = false → t.lines = s.lines
  tags : Fld.sub Fld.tags m = false → t.tags = s.tags
  qps : Fld.sub Fld.qps m = false → t.qps = s.qps
  ovf : Fld.sub Fld.ovf m = false → t.ovf = s.ovf
  landing : Fld.sub Fld.landing m = false → t.landing = s.landing
  rungs : Fld.sub Fld.rungs m = false → t.rungs = s.rungs
  rows : Fld.sub Fld.rows m = false → t.rows = s.rows
  tiles : Fld.sub Fld.tiles m = false → t.tiles = s.tiles
  trims : Fld.sub Fld.trims m = false → t.trims = s.trims
  weir : Fld.sub Fld.weir m = false → t.weir = s.weir
  nextRep : Fld.sub Fld.nextRep m = false → t.nextRep = s.nextRep
  harbour : Fld.sub Fld.harbour m = false → t.harbour = s.harbour
  hbPoison : Fld.sub Fld.hbPoison m = false → t.hbPoison = s.hbPoison
  hbWritten : Fld.sub Fld.hbWritten m = false → t.hbWritten = s.hbWritten
  frames : Fld.sub Fld.frames m = false → t.frames = s.frames
  badSlots : Fld.sub Fld.badSlots m = false → t.badSlots = s.badSlots
  owners : Fld.sub Fld.owners m = false → t.owners = s.owners
  runs : Fld.sub Fld.runs m = false → t.runs = s.runs
  nextRun : Fld.sub Fld.nextRun m = false → t.nextRun = s.nextRun
  refetch : Fld.sub Fld.refetch m = false → t.refetch = s.refetch
  hbr : Fld.sub Fld.hbr m = false → t.hbr = s.hbr
  scrubFrom : Fld.sub Fld.scrubFrom m = false → t.scrubFrom = s.scrubFrom
  swaps : Fld.sub Fld.swaps m = false → t.swaps = s.swaps
  imports : Fld.sub Fld.imports m = false → t.imports = s.imports
  dyns : Fld.sub Fld.dyns m = false → t.dyns = s.dyns
  tests : Fld.sub Fld.tests m = false → t.tests = s.tests
  flash : Fld.sub Fld.flash m = false → t.flash = s.flash
  cal : Fld.sub Fld.cal m = false → t.cal = s.cal
  flashq : Fld.sub Fld.flashq m = false → t.flashq = s.flashq
  ownerKeys : Fld.sub Fld.ownerKeys m = false → t.ownerKeys = s.ownerKeys
  spdm : Fld.sub Fld.spdm m = false → t.spdm = s.spdm
  ends : Fld.sub Fld.ends m = false → t.ends = s.ends
  rrCtx : Fld.sub Fld.rrCtx m = false → t.rrCtx = s.rrCtx
  rrQ : Fld.sub Fld.rrQ m = false → t.rrQ = s.rrQ
  rplChecks : Fld.sub Fld.rplChecks m = false → t.rplChecks = s.rplChecks
  lost : Fld.sub Fld.lost m = false → t.lost = s.lost
  thm : Fld.sub Fld.thm m = false → t.thm = s.thm
  wd : Fld.sub Fld.wd m = false → t.wd = s.wd
  rungAt : Fld.sub Fld.rungAt m = false → t.rungAt = s.rungAt
  flrs : Fld.sub Fld.flrs m = false → t.flrs = s.flrs
  sessions : Fld.sub Fld.sessions m = false → t.sessions = s.sessions
  mgmtKeys : Fld.sub Fld.mgmtKeys m = false → t.mgmtKeys = s.mgmtKeys
  authTick : Fld.sub Fld.authTick m = false → t.authTick = s.authTick
  views : Fld.sub Fld.views m = false → t.views = s.views
  boot : Fld.sub Fld.boot m = false → t.boot = s.boot
  push : Fld.sub Fld.push m = false → t.push = s.push
  tap : Fld.sub Fld.tap m = false → t.tap = s.tap
  mctp : Fld.sub Fld.mctp m = false → t.mctp = s.mctp
  torn : Fld.sub Fld.torn m = false → t.torn = s.torn
  grantWas : Fld.sub Fld.grantWas m = false → t.grantWas = s.grantWas
  power : Fld.sub Fld.power m = false → t.power = s.power
  reconAt : Fld.sub Fld.reconAt m = false → t.reconAt = s.reconAt

/-- The registers that raising any event may change: those of the RCV and PRT pages (its class action, R932) and LOG_OVW_CNT. -/
def raiseReg (a : Nat) : Bool := adrType a = 15 || adrType a = 0x12 || a = Reg.LOG_OVW_CNT

/-- Every register is as before but those listed and, where an event is raised, those of `raiseReg`. -/
def RegsBut (l : List Nat) (s t : State) : Prop := ∀ a, l.contains a = false → raiseReg a = false → t.reg a = s.reg a

/-- Every register is as before but those listed. -/
def RegsOnly (l : List Nat) (s t : State) : Prop := ∀ a, l.contains a = false → t.reg a = s.reg a

/-- The event bit of a page is raised (EVT_RAW). -/
def State.rawBit (s : State) (ty inst n : Nat) : Bool := (s.hd ty inst).raw.getLsbD n

/-- Every basin byte of every island is as before but those of the context's own lines that hold the `n` bytes from a context-relative address. -/
def StoresIn (isl ctx adr n : Nat) (s t : State) : Prop :=
  ∀ i a, a < 2 ^ 22 → (i ≠ isl ∨ ∀ v l, adr / 64 ≤ v → v ≤ (adr + n) / 64 → s.physLine isl ctx v = some l → a / 64 ≠ l) →
    t.basinByte i a = s.basinByte i a

/-- The ticket has launched, its unit takes part, and its action has not run yet. -/
def Ticket.toRun (x : Ticket) (action : Nat) : Bool := x.state = 3 && !x.ran && !x.noAct && x.action = action

/-- The ticket of a rill operation with an ROPC, launched and not run yet. -/
def Ticket.toRill (x : Ticket) (c : Nat) : Bool := x.toRun 0x10 && x.ropc = c

/-- The ticket's action has run and has stored `bs` at its OUT operand: those bytes and the lines that hold them, nothing else of any basin. -/
def RowOut (s t : State) (isl : Isl) (idx : TktIx) (bs : List Byte) : Prop :=
  t.basin = (s.writeBytes isl (s.tk isl idx).ctx (s.tk isl idx).outA bs false).1.basin
    ∧ t.lines = (s.writeBytes isl (s.tk isl idx).ctx (s.tk isl idx).outA bs false).1.lines
    ∧ StoresIn isl (s.tk isl idx).ctx (s.tk isl idx).outA bs.length s t ∧ (t.tk isl idx).ran = true

/-- A message to an open session is served and its sequence number lies within the window (R976). -/
abbrev Accepts (s : State) (sid seq : Word) (x : Session) : Prop := s.session sid = some x ∧ s.serves x.i3c = true ∧ x.rx < seq.toNat + 64

/-- The state once a message has been accepted (R976): the highest sequence number, the last accepted message, CSW_RX_CNT. -/
def State.heard (s : State) (seq : Word) (x : Session) : State :=
  (s.setSession { x with rx := max x.rx seq.toNat, last := s.now }).countMsg x.i3c Reg.CSW_RX_CNT

/-- The one reply to an accepted request is out (R978), and the session has moved on. -/
abbrev Answered (s t : State) (sid seq : Word) (x : Session) (ty status : Nat) (body : List Byte) : Prop :=
  t.out = .causeway x.id ty status 0 (leBytes seq.toNat 4 ++ body) :: s.out
    ∧ t.session sid = some { x with rx := max x.rx seq.toNat, last := s.now, tx := x.tx + 1 }

/-- The command answers a next state that agrees with `s` on every field outside `m` and has `P`. -/
def Runs (c : Instr) (s : State) (m : Nat) (P : State → Prop) : Prop := ∃ t, exec c s = .next t ∧ Agree m s t ∧ P t

/-! ## Runs of many steps, and what each command may write -/

/-- The state after `n` steps; none where one of them stops. -/
def State.runFor : Nat → State → Option State
  | 0, s => some s
  | n + 1, s => match step s with | .next t => t.runFor n | _ => none

/-- The session identifier and sequence number that a message of a session carries (R976, R977); none for the other commands. -/
def inSession : Instr → Option (Word × Word)
  | .closeSession sid seq | .telemetry sid seq => some (sid, seq)
  | .cswRead sid seq .. => some (sid, seq)
  | .cswWrite sid seq .. => some (sid, seq)
  | .logRead sid seq .. => some (sid, seq)
  | .subscribe sid seq .. => some (sid, seq)
  | .timeProbe sid seq .. => some (sid, seq)
  | .patData sid seq .. => some (sid, seq)
  | .patCommit sid seq .. => some (sid, seq)
  | .fwData sid seq .. => some (sid, seq)
  | .fwCommit sid seq .. => some (sid, seq)
  | .mgmtKeySet origin sid seq .. => if origin = 2 then some (sid, seq) else none
  | _ => none

/-- The message is dropped (R976): on a port in service, it names no open session, or its number is not above the highest accepted less 64. -/
def State.drops (s : State) (sid seq : Word) : Bool :=
  match s.session sid with
  | none => s.serves false || s.serves true
  | some x => s.serves x.i3c && decide (seq.toNat + 64 ≤ x.rx)

/-- The island and ticket of a rill operation; none for the other commands. -/
def rillTicket : Instr → Option (Isl × TktIx)
  | .quant i k | .outsel i k | .actOp i k | .addOp i k | .mulOp i k | .normOp i k | .softmax i k | .copyOp i k | .gquant i k
  | .outer i k | .optstep i k | .descale i k => some (i, k)
  | _ => none

/-- The commands whose effect may reach the flash; no other command does. -/
def mayWriteFlash : Instr → Bool
  | .calSnapshot .. | .snapshotWriteDone .. | .regKey .. | .revokeKey .. | .evtPendWrite .. | .evtEnWrite .. | .evtForce .. | .fenceWrite ..
  | .rw1cWrite .. | .lowWordWrite .. | .highWordWrite .. | .regWrite .. | .pendSelWrite .. | .leaseExpiry .. | .pilWdog .. | .contextRecovery ..
  | .engineRecovery .. | .partitionRecovery .. | .chipWarmReset .. | .mgmtKeySet .. | .cswWrite .. | .patData .. | .fwData .. | .fwCommit ..
  | .vddAonLoss | .bootPwrgdLoss | .bootAttemptFail .. | .writeProfile .. | .writeIndex .. | .fwWrite .. | .flashWriteDone .. | .dtmWrite .. => true
  | _ => false

/-- The commands whose effect may reach basin bytes; no other command does. -/
def mayWriteBasin : Instr → Bool
  | .ticketIssue .. | .actionAck .. | .descale .. | .quant .. | .outsel .. | .actOp .. | .addOp .. | .mulOp .. | .normOp .. | .softmax ..
  | .copyOp .. | .gquant .. | .outer .. | .optstep .. | .send .. | .importSection .. | .tileAssignWrite .. | .dynPrepare .. | .hbToBasin ..
  | .fastCommit .. | .inputBlockArrival .. | .rehomeSwitch .. | .chipWarmReset .. | .vddAonLoss | .bootPwrgdLoss | .bootAttemptFail .. => true
  | _ => false

/-- The commands whose effect may reach harbour bytes; no other command does. -/
def mayWriteHarbour : Instr → Bool
  | .tideTick | .ticketIssue .. | .actionAck .. | .tideHang .. | .stepOrigin .. | .importSection .. | .unloadPlan .. | .dynRevoked ..
  | .basinToHb .. | .swapLayerRewrite .. | .frySwapDone .. | .teardownDone .. | .inputBlockArrival .. | .evtPendWrite .. | .evtEnWrite ..
  | .evtForce .. | .fenceWrite .. | .rw1cWrite .. | .lowWordWrite .. | .highWordWrite .. | .regWrite .. | .pendSelWrite .. | .leaseExpiry ..
  | .pilWdog .. | .contextRecovery .. | .engineRecovery .. | .partitionRecovery .. | .chipWarmReset .. | .cswWrite .. | .vddAonLoss
  | .bootPwrgdLoss | .harbourTrained .. | .bootAttemptFail .. | .profSelect .. | .profileApply | .dtmWrite .. | .bar2Write .. => true
  | _ => false

/-- The commands whose effect may reach trims and analogue banks; no other command does. -/
def mayWriteTrims : Instr → Bool
  | .trimWinWrite .. | .calTileStart .. | .calTileEnd .. | .evtPendWrite .. | .evtEnWrite .. | .evtForce .. | .fenceWrite .. | .rw1cWrite ..
  | .lowWordWrite .. | .highWordWrite .. | .regWrite .. | .pendSelWrite .. | .contextRecovery .. | .engineRecovery .. | .partitionRecovery ..
  | .chipWarmReset .. | .cswWrite .. | .vddAonLoss | .bootPwrgdLoss | .profselSampleEnd .. | .harbourTrained .. | .bootAttemptFail ..
  | .dtmWrite .. => true
  | _ => false

/-- The commands whose effect may reach the partition profile in force; no other command does. -/
def mayWriteProfile : Instr → Bool
  | .vddAonLoss | .bootPwrgdLoss | .profselSampleEnd .. | .harbourTrained .. | .bootAttemptFail .. | .profileApply => true
  | _ => false

/-- The commands whose effect may reach the owners' signing keys; no other command does. -/
def mayWriteOwnerKeys : Instr → Bool
  | .leaseLost .. | .vddAonLoss | .pwrgdInAssert .. | .bootPwrgdLoss | .bootAttemptFail .. | .flashWriteDone .. => true
  | _ => false

/-- The commands whose effect may reach the management keys; no other command does. -/
def mayWriteMgmtKeys : Instr → Bool
  | .vddAonGood .. | .vddAonLoss | .flashWriteDone .. => true
  | _ => false

/-- The commands whose effect may reach the causeway sessions; no other command does. -/
def mayWriteSessions : Instr → Bool
  | .leaseExpiry .. | .pilWdog .. | .chipWarmReset .. | .hello .. | .closeSession .. | .sessionTimeout .. | .mgmtKeySet .. | .cswRead ..
  | .cswWrite .. | .logRead .. | .subscribe .. | .eventReport .. | .telemetry .. | .timeProbe .. | .patData .. | .patCommit .. | .fwData ..
  | .fwCommit .. | .vddAonLoss => true
  | _ => false

/-- The commands whose effect may reach the tide count; no other command does. -/
def mayWriteCount : Instr → Bool
  | .tideTick | .tidePllLock | .vddAonLoss | .bootPwrgdLoss | .bootAttemptFail .. => true
  | _ => false

end Sys2Proof.Machine
end

