-- ==== Sys2Proof/Certificates/Slice0/Obligations.lean ====
section
/-!
DEFINITION. The statements for the provers: first the whole machine, then what each command does and leaves, family by family. Every clause about a
command concludes that `exec` answers a next state (`Runs`), that this state agrees with the old one on every field outside the set named, and what it
holds. Readings of the spec that the model chose are named by their log entry.
-/
open Sys2Proof Sys2Proof.Machine

/-- For every command c, every list q and every state whose queue is c followed by q, step answers exactly what exec answers of c on the state with
queue q. On an empty queue step answers the same state (the model's choice, log entry 8). (spec/95_what_each_step_holds.md) -/
def Obligations.StepRunsFront : Prop :=
  (∀ (c : Instr) (q : List Instr) (s : State), s.pending = c :: q → step s = exec c { s with pending := q })
    ∧ ∀ s : State, s.pending = [] → step s = .next s

/-- For every command and every state, exec answers a next state whose queue is that of the state; for every state, step answers a next state whose
queue is the old one without its first command. (An internal event whose condition does not hold leaves the state as it is: the model's choice, log
entry 1.) (spec/95_what_each_step_holds.md) -/
def Obligations.EveryCommandCompletes : Prop :=
  (∀ (c : Instr) (s : State), ∃ t, exec c s = .next t ∧ t.pending = s.pending)
    ∧ ∀ s : State, ∃ t, step s = .next t ∧ t.pending = s.pending.tail

/-- For every state that has the invariant (basin, harbour, flash and page tags in their canonical form, so that a basin page has one owner; no event
bit pending that is not raised), if step answers a next state, that state has it. The canonical form is the model's own; that EVT_PEND is never 1
while EVT_RAW is 0 is R791's. (R669, R791, R1030) -/
def Obligations.StepKeepsInvariant : Prop :=
  ∀ s t : State, s.Inv → step s = .next t → t.Inv

/-- For every state with the invariant, the run of as many steps as its queue has commands stops nowhere and ends in a state with an empty queue and the
invariant, whatever the commands are. (spec/95_what_each_step_holds.md) -/
def Obligations.QueueDrains : Prop :=
  ∀ s : State, s.Inv → ∃ t, s.runFor s.pending.length = some t ∧ t.pending = [] ∧ t.Inv

/-- State.reset has the invariant and an empty queue. Every register reads its reset value, which for a sample of pages is the number of the page
tables; EVT_RAW and EVT_PEND of every page are 0, EVT_EN is the set of implemented events of class 2 or above and BLK_CTL is 3. Every context is
FREE, no basin page is tagged, no causeway session is open, flash bytes read 0xFF. What an unwritten memory byte reads as, and values the spec
leaves open, are the model's choice (log entries 3, 4 and 10). (R784, R468, R664, R146, R816) -/
def Obligations.ResetState : Prop :=
  State.reset.Inv ∧ State.reset.pending = [] ∧ (∀ a, State.reset.reg a = regReset a)
    ∧ (∀ ty inst : Nat, (State.reset.hd ty inst).raw = 0 ∧ (State.reset.hd ty inst).pend = 0 ∧ (State.reset.hd ty inst).ctl = 3
        ∧ (State.reset.hd ty inst).fenced = false)
    ∧ (∀ ty inst : Nat, inst < 1024 → (State.reset.hd ty inst).en = evtEnReset ty)
    ∧ (∀ c : Nat, c < 64 → State.reset.ctxSt c = 0) ∧ (∀ i p, Store.get tagNone State.reset.tags (i * 1024 + p) = 0)
    ∧ State.reset.sessions = [] ∧ (∀ a, State.reset.flashByte a = 0xFF) ∧ State.reset.count = 0
    ∧ State.reset.reg Reg.TOP_IRQ_CTL = 0xA03 ∧ State.reset.reg Reg.TID_CTL = 3 ∧ State.reset.reg Reg.TID_SLK_CTL = 0x700
    ∧ State.reset.reg Reg.CAL_CTL = 0x1016 ∧ State.reset.reg Reg.SLU_AVS_CTL = 0x06020509 ∧ State.reset.reg Reg.HIF_CTL = 1
    ∧ (∀ i : Nat, i < 64 → State.reset.reg (Reg.ISL_INT_CTL i) = 0x27102100)
    ∧ (∀ g : Nat, g < 1024 → State.reset.reg (Reg.TIL_RFSH_STS g) = 6 ∧ State.reset.reg (Reg.TIL_CK_CFG g) = 2)

/-- For every state and every event of a page's table, the raise sets EVT_RAW bit n whatever EVT_EN holds, and EVT_PEND bit n when EVT_EN bit n is 1,
and leaves EVT_PEND bit n as it was when EVT_EN bit n is 0. Every other bit of EVT_RAW and EVT_PEND of every page is as before, but for bit 0 of the
LOG page (LOG_PIN_FULL, raised where the log is full of pinned records). (R785, R786) -/
def Obligations.RaiseSetsRawAndPend : Prop :=
  ∀ (s : State) (ty inst n : Nat) (pl : Option (List Byte)) (ctx part : Nat) (forced : Bool), (eventCode ty n).isSome = true → n < 32 → inst < 1024 →
    ((s.raiseOnly ty inst n pl ctx part forced).hd ty inst).raw.getLsbD n = true
    ∧ ((s.raiseOnly ty inst n pl ctx part forced).hd ty inst).pend.getLsbD n = ((s.hd ty inst).pend.getLsbD n || (s.hd ty inst).en.getLsbD n)
    ∧ ∀ ty' inst' m : Nat, inst' < 1024 → (ty', inst', m) ≠ (ty, inst, n) → (ty', inst', m) ≠ (12, 0, 0) →
      ((s.raiseOnly ty inst n pl ctx part forced).hd ty' inst').raw.getLsbD m = (s.hd ty' inst').raw.getLsbD m
      ∧ ((s.raiseOnly ty inst n pl ctx part forced).hd ty' inst').pend.getLsbD m = (s.hd ty' inst').pend.getLsbD m

/-- For a write that the page takes (its writer may write the header, the page is not in reset): each 1 of an EVT_PEND write clears the bit in EVT_PEND
and in EVT_RAW, whether or not it was pending, and each 0 leaves both. A write of EVT_EN sets the enables of the implemented events, and EVT_PEND
bit n where EVT_EN bit n becomes or stays 1 while EVT_RAW bit n is 1; it changes no EVT_RAW bit. (R787, R788) -/
def Obligations.EvtPendAndEnable : Prop :=
  ∀ (rq : Requester) (ty : Fin 21) (inst : Fin 1024) (v : Word) (s : State), inst.val < instCount ty.val →
    s.pageReset ty inst = false → s.stdWriter rq = true →
    (∃ t, exec (.evtPendWrite rq ty inst v) s = .next t ∧ ∀ n : Nat,
      (t.hd ty inst).raw.getLsbD n = ((s.hd ty inst).raw.getLsbD n && !v.getLsbD n)
      ∧ (t.hd ty inst).pend.getLsbD n = ((s.hd ty inst).pend.getLsbD n && !v.getLsbD n))
    ∧ ∃ t, exec (.evtEnWrite rq ty inst v) s = .next t ∧ (t.hd ty inst).raw = (s.hd ty inst).raw ∧ ∀ n : Nat,
      (t.hd ty inst).en.getLsbD n = (v.getLsbD n && (evtImpl ty).getLsbD n)
      ∧ (t.hd ty inst).pend.getLsbD n = ((s.hd ty inst).pend.getLsbD n
          || v.getLsbD n && (evtImpl ty).getLsbD n && (s.hd ty inst).raw.getLsbD n)

/-- For every state: after a raise of an event whose code has class 4, FAULT_N is asserted, whatever the page's EVT_EN and BLK_CTL hold and whether or
not its record was coalesced; and where a class-4 bit of some EVT_RAW is set, it is still set after a raise of any event. (R791) -/
def Obligations.FaultNFollowsClassFour : Prop :=
  (∀ (s : State) (ty inst n code : Nat) (pl : Option (List Byte)) (ctx part : Nat) (forced : Bool), eventCode ty n = some code → codeClass code = 4 →
      n < 32 → inst < 1024 → (s.raiseOnly ty inst n pl ctx part forced).faultN = true)
    ∧ ∀ (s : State) (ty inst n : Nat) (pl : Option (List Byte)) (ctx part : Nat) (forced : Bool), s.fatalRaw = true →
      (s.raiseOnly ty inst n pl ctx part forced).fatalRaw = true

/-- A normal read of the low word of a pair returns it and puts the high word of the same value into the shadow of that requester and page, replacing
what it held; no other shadow changes. A read of the high word returns the shadow when the shadow holds that value's high word, and the live high
word otherwise, and changes no shadow. Two requesters, or two pages, never share a shadow. (R806, R807) -/
def Obligations.PairReads : Prop :=
  (∀ (rq : Requester) (via : Bool) (a : Fin 268435456) (s : State), a.val < 0x5400000 → implementedFor rq a = true → mayRead rq a = true → isLow a = true →
      ∃ t, exec (.lowWordRead rq via a) s = .next t ∧ t.out = .data (leBytes (s.valFor rq via a).toNat 4) :: s.out
        ∧ Store.get halfNone t.shadow (halfKey rq a) = { valid := true, low := a, word := s.valFor rq via (a + 4) }
        ∧ ∀ k, k ≠ halfKey rq a → Store.get halfNone t.shadow k = Store.get halfNone s.shadow k)
    ∧ (∀ (rq : Requester) (b : Fin 268435456) (s : State), b.val < 0x5400000 → implementedFor rq b = true → mayRead rq b = true → isHigh b = true →
      ∃ t, exec (.rpRead rq b) s = .next t ∧ t.shadow = s.shadow
        ∧ t.out = .data (leBytes (if (Store.get halfNone s.shadow (halfKey rq b)).valid ∧ (Store.get halfNone s.shadow (halfKey rq b)).low + 4 = b
            then (Store.get halfNone s.shadow (halfKey rq b)).word else s.valFor rq false b).toNat 4) :: s.out)
    ∧ ∀ (rq rq' : Requester) (a b : Nat), a < 0x5400000 → b < 0x5400000 → halfKey rq a = halfKey rq' b → rq = rq' ∧ a / 0x1000 = b / 0x1000

/-- For the causeway and debug: a read at a peek offset answers the value of the mirrored register and changes nothing else of the state; that value is
what a normal read of the register returns, the live word for the high word of a pair. A write at a peek offset changes nothing. (R813, R814) -/
def Obligations.PeekAperture : Prop :=
  ∀ (rq : Requester) (via : Bool) (a : Fin 268435456) (b : Nat) (v : Word) (env : WriteEnv) (s : State), (rq = .causeway ∨ rq = .debug) → peekOf a = some b →
    exec (.rpRead rq a) s = .next (s.emit (.data (leBytes (s.valFor rq false b).toNat 4)))
    ∧ exec (.regWrite rq via a v env) s = .next s
    ∧ (implementedFor rq b = true → isHigh b = false ∨ (Store.get halfNone s.shadow (halfKey rq b)).valid = false →
        (s.regRead rq false b).1 = s.valFor rq false b)

/-- For every function f other than 0: a write to an implemented page that is not in reset, not f's own CTX page and not the banked HIF registers leaves
the state as it is; a normal read outside f's CTX page, the HIF header and its bank returns 0 and changes nothing else. (R781, R698, R728, R763) -/
def Obligations.VfTouchesNothing : Prop :=
  (∀ (f : Ctx) (via : Bool) (a : Fin 268435456) (v : Word) (env : WriteEnv) (s : State), f.val ≠ 0 → implementedFor (.fn f) a = true →
      s.pageReset (adrType a) (adrInst a) = false → isBank a = false → ¬ (adrType a = 19 ∧ adrInst a = f.val) →
      exec (.regWrite (.fn f) via a v env) s = .next s)
    ∧ ∀ (f : Ctx) (a : Fin 268435456) (s : State), f.val ≠ 0 → a.val < 0x5400000 → implementedFor (.fn f) a = true →
      ¬ (adrType a = 19 ∧ adrInst a = f.val) → ¬ (adrType a = 10 ∧ (adrOff a < 0x40 ∨ isBank a = true)) →
      exec (.rpRead (.fn f) a) s = .next (s.emit (.data [0, 0, 0, 0]))

/-- While DBG_STS shows the part LOCKED or DISABLED: a debug write to any implemented page that is not in reset, or through the peek aperture, leaves
the state as it is, unless it is to a register of the DBG page above its header and LEASE_FREEZE; a DMI access selects BYPASS and changes nothing
else (the model's reading, log entry 45). While DISABLED, a DTM read, write or peek selects BYPASS and changes nothing else (log entry 91). (R1061,
R1063, R1064) -/
def Obligations.DebugNeedsUnlock : Prop :=
  (∀ (via : Bool) (a : Fin 268435456) (v : Word) (env : WriteEnv) (s : State), s.dbgOpen = false → implementedFor .debug a = true →
      s.pageReset (adrType a) (adrInst a) = false → (adrType a = 17 → adrOff a ≤ 0x40) → exec (.regWrite .debug via a v env) s = .next s)
    ∧ (∀ (n : Pilot) (kind : Fin 3) (s : State), s.dbgOpen = false → exec (.dmiAccess n kind) s = .next { s with tap := { s.tap with ir := 0xFF } })
    ∧ ∀ (a : Fin 268435456) (v : Word) (env : WriteEnv) (s : State), s.getF Reg.DBG_STS 0 2 = 0 →
      exec (.dtmRead a) s = .next { s with tap := { s.tap with ir := 0xFF } }
      ∧ exec (.dtmWrite a v env) s = .next { s with tap := { s.tap with ir := 0xFF } }
      ∧ exec (.dtmPeek a) s = .next { s with tap := { s.tap with ir := 0xFF } }

/-- For every message of a session (close, read, write, log read, subscribe, telemetry, time probe, pattern and firmware data and commit, a management
key from inside a session) on a port in service: where its session is not open, or its sequence number is not above the highest accepted less 64,
the command counts the failure and changes sessions, flash, memories, jobs and keys in nothing; it has no reply. (R976) -/
def Obligations.MessageDropped : Prop :=
  ∀ (c : Instr) (sid seq : Word) (s : State), inSession c = some (sid, seq) → s.drops sid seq = true →
    exec c s = .next s.authFail ∧ Agree (Fld.raised ||| Fld.authTick) s s.authFail ∧ RegsBut [Reg.CSW_AUTH_FAIL_CNT] s s.authFail
    ∧ s.authFail.reg Reg.CSW_AUTH_FAIL_CNT = BitVec.ofNat 32 (satAdd 0xFFFFFFFF (s.reg Reg.CSW_AUTH_FAIL_CNT).toNat 1)

/-- For every command and state: a command outside the list of mayWriteFlash (mayWriteBasin, mayWriteHarbour, mayWriteTrims, mayWriteProfile,
mayWriteOwnerKeys, mayWriteMgmtKeys, mayWriteSessions, mayWriteCount) answers a next state in which that piece of state is as before.
(spec/95_what_each_step_holds.md) -/
def Obligations.StorageWrittenOnlyBy : Prop :=
  ∀ (c : Instr) (s : State), ∃ t, exec c s = .next t ∧ (mayWriteFlash c = false → t.flash = s.flash) ∧ (mayWriteBasin c = false → t.basin = s.basin)
    ∧ (mayWriteHarbour c = false → t.harbour = s.harbour) ∧ (mayWriteTrims c = false → t.trims = s.trims)
    ∧ (mayWriteProfile c = false → t.profile = s.profile) ∧ (mayWriteOwnerKeys c = false → t.ownerKeys = s.ownerKeys)
    ∧ (mayWriteMgmtKeys c = false → t.mgmtKeys = s.mgmtKeys) ∧ (mayWriteSessions c = false → t.sessions = s.sessions)
    ∧ (mayWriteCount c = false → t.count = s.count)

/-- For every command and state: a tick advances the count by exactly 1 while the tide runs and leaves it otherwise; a lock of the tide PLL sets it to 0
when it has not started and leaves it otherwise; a loss of VDD_AON or of PWRGD_IN and a failed boot attempt may clear it; every other command leaves
it as it is. (R466, R468, R1015, R1033) -/
def Obligations.TideCountRule : Prop :=
  ∀ (c : Instr) (s : State), ∃ t, exec c s = .next t
    ∧ (c = .tideTick → t.count = if s.tideRuns then s.count + 1 else s.count)
    ∧ (c = .tidePllLock → t.count = s.count ∨ (s.getB Reg.TID_STS 2 = false ∧ t.count = 0))
    ∧ (mayWriteCount c = false → t.count = s.count)

/-- For every state whose page tags are in canonical form: bytes written from a context-relative address whose every line lies in a page tagged with the
context meet no fault, and reading that range then gives exactly those bytes with no fault; a line not tagged with the context takes no write and
reads as zeros with its fault. (R669, R671, R672) -/
def Obligations.BasinReadAfterWrite : Prop :=
  (∀ (s : State) (isl ctx adr : Nat) (bs : List Byte), Store.wf tagNone s.tags = true → bs ≠ [] →
      (∀ l, adr / 64 ≤ l → l ≤ (adr + bs.length - 1) / 64 → (s.physLine isl ctx l).isSome = true) →
      (s.writeBytes isl ctx adr bs false).2 = [] ∧ ((s.writeBytes isl ctx adr bs false).1.readBytes isl ctx adr bs.length).bytes = bs
      ∧ ((s.writeBytes isl ctx adr bs false).1.readBytes isl ctx adr bs.length).faults = [])
    ∧ ∀ (s : State) (isl ctx l off : Nat) (bs : List Byte) (p : Bool), s.physLine isl ctx l = none →
      s.writeLine isl ctx l off bs p = (s, [(2, l / 64, l % 64)]) ∧ (s.readLine isl ctx l).bytes = List.replicate 64 0
      ∧ (s.readLine isl ctx l).faults = [(1, l / 64, l % 64)]

/-- For every state whose page tags are in canonical form and every rill operation (QUANT, OUTSEL, ACT, ADD, MUL, NORM, SOFTMAX, COPY, GQUANT, OUTER,
OPTSTEP, DESCALE): it answers a next state in which every context-relative line of every other context, on every island, reads as before: bytes,
faults and poison. (R669, R671) -/
def Obligations.RillOpsKeepOtherContexts : Prop :=
  ∀ (c : Instr) (isl : Isl) (idx : TktIx) (s : State), rillTicket c = some (isl, idx) → Store.wf tagNone s.tags = true →
    ∃ t, exec c s = .next t ∧ ∀ i ctx l : Nat, ctx ≠ (s.tk isl idx).ctx → t.readLine i ctx l = s.readLine i ctx l

/-- VDD_AON good starts the always-on domain at boot step 4 with P1 running, shows flash mode and identity in FLASH_STS, chooses the slot by which
images are accepted, and sets recovery mode where neither is; VDD_AON lost empties registers, headers, log and boot state and sets the count to 0,
and with no flash write in hand resets every field but the queue, the outputs, the draws taken and the flash. PWRGD_IN recognised is recorded and,
outside recovery mode, starts the core boot: step 6, BOOT_STS.STATE 3, P0 and P2 to P7 running. A boot attempt that fails starts again there, its
fail counted when the other slot is not taken, with no row, plan or ticket. A loss of PWRGD_IN clears BOOT_STS[8:0], raises BOOT_PWRGD_LOSS and
leaves no row, plan or basin byte. Every field outside the set named is as before. Readings that are the model's choice: log entries 10, 76, 74, 88.
(R1095, R1019, R1033, R1015) -/
def Obligations.PowerRailsAndBootAttempts : Prop :=
  (∀ (mode : Fin 3) (sigA sigB : Bool) (s : State),
      s.boot.aon = false →
      Runs (.vddAonGood mode sigA sigB) s (Fld.raised ||| Fld.wd ||| Fld.mgmtKeys ||| Fld.boot) fun t =>
        t.boot = { s.boot with aon := true, step := 4 } ∧ t.reg Reg.BOOT_FLASH_STS = BitVec.ofNat 32 (mode.val + Config.flashIdent.toNat * 256) ∧
        (s.fwAccepted 0 sigA = false → s.fwAccepted 1 sigB = false → t.getB Reg.BOOT_STS 11 = true) ∧
        (s.fwAccepted 0 sigA = true → s.fwAccepted 1 sigB = false → t.getB Reg.BOOT_STS 9 = false) ∧
        (s.fwAccepted 0 sigA = false → s.fwAccepted 1 sigB = true → t.getB Reg.BOOT_STS 9 = true) ∧ t.pilSt 1 = 1 ∧ t.flash = s.flash)
  ∧ (∀ (s : State),
      s.boot.aon = true →
      Runs .vddAonLoss s
        (Fld.regs ||| Fld.hdr ||| Fld.shadow ||| Fld.staged ||| Fld.heldWrites ||| Fld.fencing ||| Fld.pendWas ||| Fld.log ||| Fld.irq |||
         Fld.badAccTick ||| Fld.draws ||| Fld.leases ||| Fld.profile ||| Fld.count ||| Fld.tide ||| Fld.tickets ||| Fld.acks ||| Fld.jobs |||
         Fld.nextJob ||| Fld.plans ||| Fld.nextPlan ||| Fld.acct ||| Fld.slu ||| Fld.ctxs ||| Fld.basin ||| Fld.lines ||| Fld.tags ||| Fld.qps |||
         Fld.ovf ||| Fld.landing ||| Fld.rungs ||| Fld.rows ||| Fld.tiles ||| Fld.trims ||| Fld.weir ||| Fld.nextRep ||| Fld.harbour |||
         Fld.hbPoison ||| Fld.hbWritten ||| Fld.frames ||| Fld.badSlots ||| Fld.owners ||| Fld.runs ||| Fld.nextRun ||| Fld.refetch ||| Fld.hbr |||
         Fld.scrubFrom ||| Fld.swaps ||| Fld.imports ||| Fld.dyns ||| Fld.tests ||| Fld.flash ||| Fld.cal ||| Fld.flashq ||| Fld.ownerKeys |||
         Fld.spdm ||| Fld.ends ||| Fld.rrCtx ||| Fld.rrQ ||| Fld.rplChecks ||| Fld.lost ||| Fld.thm ||| Fld.wd ||| Fld.rungAt ||| Fld.flrs |||
         Fld.sessions ||| Fld.mgmtKeys ||| Fld.authTick ||| Fld.views ||| Fld.boot ||| Fld.push ||| Fld.tap ||| Fld.mctp ||| Fld.torn |||
         Fld.grantWas ||| Fld.power ||| Fld.reconAt) fun t =>
        t.regs = [] ∧ t.hdr = [] ∧ t.boot = {} ∧ t.log = {} ∧ t.pending = s.pending ∧ t.count = 0 ∧
        (s.flashq = [] → t = { (State.reset : State) with pending := s.pending, out := s.out, draws := s.draws, flash := s.flash }))
  ∧ (∀ (other pat0 pat1 : Bool) (s : State),
      s.boot.aon = true → s.boot.pwrgd = false →
      Runs (.pwrgdInAssert other pat0 pat1) s (Fld.raised ||| Fld.ownerKeys ||| Fld.wd ||| Fld.boot) fun t =>
        t.boot.pwrgd = true ∧ (s.getB Reg.BOOT_STS 11 = true → t = { s with boot := { s.boot with pwrgd := true } }) ∧
        (s.getB Reg.BOOT_STS 11 = false → t.boot.step = 6 ∧ t.getF Reg.BOOT_STS 0 4 = 3 ∧ t.pilSt 0 = 1 ∧ ∀ n : Nat, n < 8 → 2 ≤ n → t.pilSt n = 1))
  ∧ (∀ (other pat0 pat1 : Bool) (s : State),
      s.boot.pwrgd = true → s.operational = false → 6 ≤ s.boot.step → s.getF Reg.BOOT_STS 0 4 ≠ 15 →
      Runs (.bootAttemptFail other pat0 pat1) s
        (Fld.raised ||| Fld.shadow ||| Fld.staged ||| Fld.heldWrites ||| Fld.fencing ||| Fld.pendWas ||| Fld.badAccTick ||| Fld.leases |||
         Fld.profile ||| Fld.count ||| Fld.tide ||| Fld.tickets ||| Fld.acks ||| Fld.jobs ||| Fld.plans ||| Fld.acct ||| Fld.slu ||| Fld.ctxs |||
         Fld.basin ||| Fld.lines ||| Fld.tags ||| Fld.qps ||| Fld.ovf ||| Fld.landing ||| Fld.rows ||| Fld.tiles ||| Fld.trims ||| Fld.weir |||
         Fld.harbour ||| Fld.hbPoison ||| Fld.hbWritten ||| Fld.frames ||| Fld.badSlots ||| Fld.owners ||| Fld.runs ||| Fld.refetch ||| Fld.hbr |||
         Fld.scrubFrom ||| Fld.swaps ||| Fld.imports ||| Fld.dyns ||| Fld.tests ||| Fld.flash ||| Fld.cal ||| Fld.flashq ||| Fld.ownerKeys |||
         Fld.spdm ||| Fld.ends ||| Fld.rrCtx ||| Fld.rrQ ||| Fld.rplChecks ||| Fld.lost ||| Fld.thm ||| Fld.wd ||| Fld.flrs ||| Fld.boot |||
         Fld.push ||| Fld.torn ||| Fld.grantWas ||| Fld.power ||| Fld.reconAt) fun t =>
        t.boot.step = 6 ∧ t.getF Reg.BOOT_STS 0 4 = 3 ∧ t.pilSt 0 = 1 ∧ (other = false → t.boot.fails = s.boot.fails + 1) ∧ t.rows = [] ∧
        t.plans = [] ∧ t.tickets = [])
  ∧ (∀ (s : State),
      s.boot.pwrgd = true →
      Runs .bootPwrgdLoss s
        (Fld.raised ||| Fld.shadow ||| Fld.staged ||| Fld.heldWrites ||| Fld.fencing ||| Fld.pendWas ||| Fld.badAccTick ||| Fld.leases |||
         Fld.profile ||| Fld.count ||| Fld.tide ||| Fld.tickets ||| Fld.acks ||| Fld.jobs ||| Fld.plans ||| Fld.acct ||| Fld.slu ||| Fld.ctxs |||
         Fld.basin ||| Fld.lines ||| Fld.tags ||| Fld.qps ||| Fld.ovf ||| Fld.landing ||| Fld.rows ||| Fld.tiles ||| Fld.trims ||| Fld.weir |||
         Fld.harbour ||| Fld.hbPoison ||| Fld.hbWritten ||| Fld.frames ||| Fld.badSlots ||| Fld.owners ||| Fld.runs ||| Fld.refetch ||| Fld.hbr |||
         Fld.scrubFrom ||| Fld.swaps ||| Fld.imports ||| Fld.dyns ||| Fld.tests ||| Fld.flash ||| Fld.cal ||| Fld.flashq ||| Fld.ownerKeys |||
         Fld.spdm ||| Fld.ends ||| Fld.rrCtx ||| Fld.rrQ ||| Fld.rplChecks ||| Fld.lost ||| Fld.thm ||| Fld.wd ||| Fld.flrs ||| Fld.boot |||
         Fld.push ||| Fld.torn ||| Fld.grantWas ||| Fld.power ||| Fld.reconAt) fun t =>
        t.boot.pwrgd = false ∧ t.getF Reg.BOOT_STS 0 9 = 0 ∧ t.rawBit 16 0 Ev.BOOT_PWRGD_LOSS = true ∧ t.rows = [] ∧ t.plans = [] ∧ t.basin = [] ∧
        (s.flashq = [] → t.flash = s.flash))

/-- PERST_N deasserted at or after step 6 starts the sampling of PROFSEL where none was done, and else changes no register; asserted it ends a sampling
and, on a configured port, drops SPDM state and the link and tears every bound context but 0 down. The sampling's end latches both samples, flags
samples that differ and chooses the profile of the strap. Training without a failure empties harbour and frames and puts every stack in service;
with one it stops the boot in state 15 and marks the stacks. A stack that fails in service is marked, fenced and reported. The ready condition sets
OPERATIONAL and raises BOOT_READY. Readings that are the model's choice: log entries 76, 93. (R1017, R1018, R1037, R1021, R649, R1019) -/
def Obligations.ResetPinsStrapsAndTraining : Prop :=
  (∀ (s : State),
      s.boot.aon = true → s.boot.perst = true →
      Runs .perstNDeassert s (Fld.regs ||| Fld.boot) fun t =>
        t.boot.perst = false ∧ (6 ≤ s.boot.step → s.boot.sampled = false → t.boot.sampling = true) ∧
        (6 ≤ s.boot.step → s.boot.sampled = false → s.getF Reg.BOOT_STS 0 4 = 3 → t.getF Reg.BOOT_STS 0 4 = 4) ∧
        ((s.boot.step < 6 ∨ s.boot.sampled = true) → t.regs = s.regs ∧ t.boot.sampling = s.boot.sampling))
  ∧ (∀ (s : State),
      s.boot.aon = true → s.boot.perst = false →
      Runs .perstNAssert s
        (Fld.raised ||| Fld.leases ||| Fld.tickets ||| Fld.jobs ||| Fld.ctxs ||| Fld.qps ||| Fld.ovf ||| Fld.landing ||| Fld.imports ||| Fld.spdm |||
         Fld.ends ||| Fld.boot) fun t =>
        t.boot.perst = true ∧ t.boot.sampling = false ∧
        (s.getB Reg.BOOT_STS 4 = true → t.spdm = [] ∧ t.getB Reg.HIF_LINK_STS 11 = false ∧ ∀ c : Nat, c < 64 → 0 < c → s.ctxSt c ≠ 0 → t.ctxSt c = 3) ∧
        (s.getB Reg.BOOT_STS 4 = false → t.regs = s.regs))
  ∧ (∀ (first : Fin 4) (disagree : Fin 64) (s : State),
      let n := if disagree.val = 0 then first.val else 0;
      s.boot.sampling = true →
      Runs (.profselSampleEnd first disagree) s
        (Fld.raised ||| Fld.profile ||| Fld.acct ||| Fld.lines ||| Fld.tags ||| Fld.tiles ||| Fld.trims ||| Fld.tests ||| Fld.cal ||| Fld.boot) fun t =>
        t.boot.sampled = true ∧ t.boot.sampling = false ∧ t.reg Reg.BOOT_PROFSEL_SMP = BitVec.ofNat 32 (first + disagree * 4) ∧
        (disagree.val ≠ 0 → t.getB Reg.BOOT_STS 6 = true) ∧
        (s.boot.step < 10 → t.boot.sel = 1 ∧
          t.boot.want = ((s.readProfile n).2).getD (if n = 0 then romProfile else ((s.readProfile 0).2).getD romProfile)))
  ∧ (∀ (failed : List Stack) (s : State),
      6 ≤ s.boot.step → s.boot.step < 10 → s.getF Reg.BOOT_STS 0 4 ≠ 15 →
      Runs (.harbourTrained failed) s
        (Fld.raised ||| Fld.profile ||| Fld.acct ||| Fld.lines ||| Fld.tags ||| Fld.tiles ||| Fld.trims ||| Fld.harbour ||| Fld.hbPoison |||
         Fld.hbWritten ||| Fld.frames ||| Fld.tests ||| Fld.cal ||| Fld.boot) fun t =>
        (failed = [] → t.harbour = [] ∧ t.frames = [] ∧ ∀ h : Nat, h < 6 → t.getB (Reg.HBR_STS h) 0 = true) ∧
        (failed = [] → s.boot.sel = 0 → t.boot = { s.boot with step := 10 }) ∧
        (failed ≠ [] → t.getF Reg.BOOT_STS 0 4 = 15 ∧ ∀ h ∈ failed, t.getB (Reg.HBR_STS h) 1 = true))
  ∧ (∀ (h : Stack) (s : State),
      s.getB (Reg.HBR_STS h) 0 = true → s.warmHeld = false →
      Runs (.hbrStackFail h) s Fld.raised fun t =>
        t.getB (Reg.HBR_STS h) 0 = false ∧ t.getB (Reg.HBR_STS h) 1 = true ∧ (t.hd 5 h).fenceDp = true ∧ t.rawBit 5 h Ev.HBR_STACK_FAIL = true ∧
        RegsBut [Reg.HBR_STS h] s t)
  ∧ (∀ (s : State),
      s.getF Reg.BOOT_STS 0 4 = 6 → s.calActive = false → (s.tests.any fun e => e.1 % 32 = 19 && (e.2.want || e.2.held)) = false →
      Runs .bootReady s (Fld.raised ||| Fld.boot) fun t =>
        t.getF Reg.BOOT_STS 0 4 = 7 ∧ t.operational = true ∧ t.boot = { s.boot with fails := 0, step := 14 } ∧ t.rawBit 16 0 Ev.BOOT_READY = true ∧
        RegsBut [Reg.BOOT_STS, Reg.BOOT_MS] s t)

/-- A SELECT of a valid profile on an idle OPERATIONAL part waits in PROF_STS with its profile and the partitions that change, the profile in force
unchanged; a target outside the mask is refused with error 1. The application, once no step of a changing partition runs, puts the wanted profile in
force and raises BOOT_PROFILE_CHANGE. WRITE_PROFILE queues one flash write of the checked buffer, or is refused with error 2; WRITE_INDEX queues one
of the index. Readings that are the model's choice: log entries 93, 12. (R1045, R1044) -/
def Obligations.ProfilesAndProfileRecords : Prop :=
  (∀ (rq : Requester) (target : Fin 4) (pr : Profile) (s : State),
      isMgmt rq = true → s.selMask / 2 ^ target.val % 2 = 1 → (s.readProfile target).2 = some pr → s.getF Reg.BOOT_PROF_STS 0 2 = 0 →
      s.calActive = false → s.pushBusy = false → s.swaps = [] → s.operational = true →
      Runs (.profSelect rq target) s
        (Fld.raised ||| Fld.leases ||| Fld.tickets ||| Fld.jobs ||| Fld.plans ||| Fld.acct ||| Fld.ctxs ||| Fld.qps ||| Fld.landing ||| Fld.rows |||
         Fld.tiles ||| Fld.harbour ||| Fld.hbPoison ||| Fld.hbWritten ||| Fld.frames ||| Fld.badSlots ||| Fld.owners ||| Fld.runs ||| Fld.imports |||
         Fld.ends ||| Fld.boot) fun t =>
        t.boot = { s.boot with sel := 1, want := pr, changing := changedParts s.profile pr } ∧ t.getF Reg.BOOT_PROF_STS 0 2 = 2 ∧
        t.getF Reg.BOOT_PROF_STS 2 2 = target.val ∧ t.getF Reg.BOOT_PROF_STS 4 4 = 0 ∧ t.profile = s.profile)
  ∧ (∀ (rq : Requester) (target : Fin 4) (s : State),
      isMgmt rq = true → s.selMask / 2 ^ target.val % 2 = 0 →
      Runs (.profSelect rq target) s
        (Fld.raised ||| Fld.leases ||| Fld.tickets ||| Fld.jobs ||| Fld.plans ||| Fld.acct ||| Fld.ctxs ||| Fld.qps ||| Fld.landing ||| Fld.rows |||
         Fld.tiles ||| Fld.harbour ||| Fld.hbPoison ||| Fld.hbWritten ||| Fld.frames ||| Fld.badSlots ||| Fld.owners ||| Fld.runs ||| Fld.imports |||
         Fld.ends ||| Fld.boot) fun t =>
        t.getF Reg.BOOT_PROF_STS 2 2 = target.val ∧ t.getF Reg.BOOT_PROF_STS 4 4 = 1 ∧ t.boot = s.boot ∧ RegsOnly [Reg.BOOT_PROF_STS] s t)
  ∧ (∀ (s : State),
      s.getF Reg.BOOT_PROF_STS 0 2 = 2 → (s.jobs.any fun e => (e.2.st = 3 || e.2.st = 4) && s.boot.changing.contains (s.ctxPart e.2.fn)) = false →
      (s.imports.any fun m => s.boot.changing.contains (s.ctxPart m.ctx)) = false →
      ((List.range 64).any fun c => s.ctxPart c < 8 && s.boot.want.parts.length ≤ s.ctxPart c) = false →
      Runs .profileApply s
        (Fld.raised ||| Fld.leases ||| Fld.profile ||| Fld.tickets ||| Fld.jobs ||| Fld.plans ||| Fld.acct ||| Fld.ctxs ||| Fld.lines ||| Fld.tags |||
         Fld.qps ||| Fld.landing ||| Fld.rows ||| Fld.tiles ||| Fld.harbour ||| Fld.hbPoison ||| Fld.hbWritten ||| Fld.frames ||| Fld.badSlots |||
         Fld.owners ||| Fld.runs ||| Fld.ends ||| Fld.boot) fun t =>
        t.profile = s.boot.want ∧ t.boot = { s.boot with sel := 0, want := romProfile, changing := [] } ∧ t.getF Reg.BOOT_PROF_STS 0 2 = 0 ∧
        t.getF Reg.TOP_STS 0 2 = s.boot.want.num % 4 ∧ t.rawBit 16 0 Ev.BOOT_PROFILE_CHANGE = true)
  ∧ (∀ (rq : Requester) (target : Fin 4) (s : State),
      isMgmt rq = true → profileOk target (s.profBuf 64) = true → s.getF Reg.BOOT_PROF_STS 0 2 = 0 →
      Runs (.writeProfile rq target) s (Fld.regs ||| Fld.leases ||| Fld.flash ||| Fld.flashq) fun t =>
        t.getF Reg.BOOT_PROF_STS 0 2 = 1 ∧ t.getF Reg.BOOT_PROF_STS 2 2 = target.val ∧ t.getF Reg.BOOT_PROF_STS 4 4 = 0 ∧
        t.flashq.map (fun w => (w.kind, w.arg, w.base0, w.body)) = s.flashq.map (fun w => (w.kind, w.arg, w.base0, w.body)) ++ [(2, target.val,
          profBase target, s.profBuf 64)] ∧
        RegsOnly [Reg.BOOT_PROF_STS] s t)
  ∧ (∀ (rq : Requester) (target : Fin 4) (s : State),
      isMgmt rq = true → profileOk target (s.profBuf 64) = false →
      Runs (.writeProfile rq target) s (Fld.regs ||| Fld.leases ||| Fld.flash ||| Fld.flashq) fun t =>
        t.getF Reg.BOOT_PROF_STS 4 4 = 2 ∧ t.flashq = s.flashq ∧ RegsOnly [Reg.BOOT_PROF_STS] s t)
  ∧ (∀ (rq : Requester) (target : Fin 4) (s : State),
      isMgmt rq = true → s.getF Reg.BOOT_PROF_STS 0 2 ≠ 1 →
      Runs (.writeIndex rq target) s (Fld.regs ||| Fld.leases ||| Fld.flash ||| Fld.flashq) fun t =>
        t.getF Reg.BOOT_PROF_STS 0 2 = (if s.getF Reg.BOOT_PROF_STS 0 2 = 2 then 2 else 1) ∧ t.getF Reg.BOOT_PROF_STS 4 4 = 0 ∧
        t.flashq.map (fun w => (w.kind, w.arg, w.base0, w.body)) = s.flashq.map (fun w => (w.kind, w.arg, w.base0, w.body)) ++ [(3, target.val,
          0x1080000, s.profBuf 16)] ∧
        RegsOnly [Reg.BOOT_PROF_STS] s t)

/-- FW_CMD WRITE queues one flash write of the padded image with BUSY set, or is refused with error 6, 3 or 2 and BOOT_FW_REJECT. The end of a flash
write removes it from the queue; of a key record it loads the key table and raises KEY_REG or KEY_REVOKE; of firmware it clears BUSY and stages the
image or refuses it by its signature; a failed one counts in FLASH_ERR_CNT and raises BOOT_FLASH_ERR. Readings that are the model's choice: log
entries 88, 47. (R1034, R1027) -/
def Obligations.FirmwareAndFlashRecords : Prop :=
  (∀ (rq : Requester) (image : List Byte) (ver : Word) (svn : Fin 65536) (ok : Bool) (s : State),
      let n := s.getF Reg.BOOT_FW_LEN 0 22;
      isMgmt rq = true → s.pushBusy = false → s.getF Reg.BOOT_PROF_STS 0 2 ≠ 2 → 96 ≤ n → n ≤ 2097248 → ok = true → s.fwSvn ≤ svn.val →
      Runs (.fwWrite rq image ver svn ok) s (Fld.raised ||| Fld.leases ||| Fld.flash ||| Fld.flashq) fun t =>
        t.getF Reg.BOOT_FW_STS 0 2 = 2 ∧ t.getF Reg.BOOT_FW_STS 4 4 = 0 ∧ t.getB Reg.BOOT_FW_STS 8 = false ∧
        t.flashq.map (fun w => (w.kind, w.base0, w.body)) = s.flashq.map (fun w => (w.kind, w.base0, w.body)) ++ [(1, 0, padTo n image)] ∧
        RegsOnly [Reg.BOOT_FW_STS] s t)
  ∧ (∀ (rq : Requester) (image : List Byte) (ver : Word) (svn : Fin 65536) (ok : Bool) (s : State),
      let n := s.getF Reg.BOOT_FW_LEN 0 22;
      isMgmt rq = true → (s.pushBusy = true ∨ s.getF Reg.BOOT_PROF_STS 0 2 = 2 ∨ n < 96 ∨ 2097248 < n ∨ (ok = true ∧ svn.val < s.fwSvn)) →
      Runs (.fwWrite rq image ver svn ok) s (Fld.raised ||| Fld.leases ||| Fld.flash ||| Fld.flashq) fun t =>
        t.getF Reg.BOOT_FW_STS 4 4 = (if s.pushBusy = true ∨ s.getF Reg.BOOT_PROF_STS 0 2 = 2 then 6 else if n < 96 ∨ 2097248 < n then 3 else 2) ∧
        t.rawBit 16 0 Ev.BOOT_FW_REJECT = true ∧ t.flashq = s.flashq ∧ RegsBut [Reg.BOOT_FW_STS] s t)
  ∧ (∀ (ok sig : Bool) (w : FlashWrite) (ws : List FlashWrite) (s : State),
      s.flashq = w :: ws → w.kind = 5 → ok = true → s.warmHeld = false →
      Runs (.flashWriteDone ok sig) s (Fld.raised ||| Fld.leases ||| Fld.flash ||| Fld.flashq ||| Fld.ownerKeys ||| Fld.mgmtKeys) fun t =>
        t.ownerKeys = keyTableOf w.body ∧ t.rawBit 9 0 (if w.arg / 128 = 1 then Ev.KEY_REG else Ev.KEY_REVOKE) = true ∧ t.flashq.length = ws.length)
  ∧ (∀ (ok sig : Bool) (w : FlashWrite) (ws : List FlashWrite) (s : State),
      s.flashq = w :: ws → w.kind = 1 → ok = true →
      Runs (.flashWriteDone ok sig) s (Fld.raised ||| Fld.leases ||| Fld.flash ||| Fld.flashq ||| Fld.ownerKeys ||| Fld.mgmtKeys) fun t =>
        t.getF Reg.BOOT_FW_STS 0 2 = 0 ∧ (sig = true → t.getB Reg.BOOT_FW_STS 8 = true ∧ t.rawBit 16 0 Ev.BOOT_FW_STAGED = true) ∧
        (sig = false → t.getF Reg.BOOT_FW_STS 4 4 = 1 ∧ t.rawBit 16 0 Ev.BOOT_FW_REJECT = true) ∧ t.flashq.length = ws.length)
  ∧ (∀ (ok sig : Bool) (w : FlashWrite) (ws : List FlashWrite) (s : State),
      s.flashq = w :: ws → w.kind ≠ 4 → ok = false →
      Runs (.flashWriteDone ok sig) s (Fld.raised ||| Fld.leases ||| Fld.flash ||| Fld.flashq ||| Fld.ownerKeys ||| Fld.mgmtKeys) fun t =>
        t.rawBit 16 0 Ev.BOOT_FLASH_ERR = true ∧
        t.reg Reg.BOOT_FLASH_ERR_CNT = BitVec.ofNat 32 (satAdd 0xFFFFFFFF (s.reg Reg.BOOT_FLASH_ERR_CNT).toNat 1) ∧ t.flashq.length = ws.length)

/-- RUN over tiles of its scope starts a run with every tile waiting, or is refused with error 3, 1 or 7 and CAL_REFUSED; COMMIT, of a READY run or of
inactive banks, and REVERT set the tick T_c of their switch; ABORT ends the run in state 4 with CAL_ABORTED; SNAPSHOT queues one flash write of the
trims. Registers outside those named are as before where a clause says so. Readings that are the model's choice: log entry 46. (R203, R207, R208,
R210, R224) -/
def Obligations.CalibrationCommands : Prop :=
  (∀ (rq : Requester) (scope : Fin 4) (target : Fin 1024) (s : State),
      s.calWriter rq = true → s.pageReset 13 0 = false → (scope ≠ 3 ∨ rq = .pilot 3) → s.scopeTiles scope target ≠ [] → s.calActive = false →
      s.getF Reg.BOOT_PROF_STS 0 2 ≠ 2 → s.getB Reg.CAL_STS 4 = true →
      Runs (.runCal rq scope target) s (Fld.raised ||| Fld.heldWrites ||| Fld.cal) fun t =>
        t.getF Reg.CAL_STS 0 3 = 1 ∧ t.getB Reg.CAL_STS 3 = false ∧ t.getF Reg.CAL_STS 6 2 = scope.val ∧ t.getF Reg.CAL_STS 8 10 = target.val ∧
        t.getF Reg.CAL_STS 24 8 = 0 ∧ t.cal.kind = 1 ∧ t.cal.sw = none ∧ (∀ g ∈ s.scopeTiles scope target, t.calSt g = 1) ∧
        t.reg Reg.CAL_PROG = BitVec.ofNat 32 ((s.scopeTiles scope target).length * 65536) ∧ RegsOnly [Reg.CAL_STS, Reg.CAL_PROG] s t)
  ∧ (∀ (rq : Requester) (scope : Fin 4) (target : Fin 1024) (s : State),
      s.calWriter rq = true → s.pageReset 13 0 = false → (scope ≠ 3 ∨ rq = .pilot 3) → s.scopeTiles scope target ≠ [] →
      (s.calActive = true ∨ s.getF Reg.BOOT_PROF_STS 0 2 = 2 ∨ s.getB Reg.CAL_STS 4 = false) → s.warmHeld = false →
      Runs (.runCal rq scope target) s (Fld.raised ||| Fld.heldWrites ||| Fld.cal) fun t =>
        t.getF Reg.CAL_STS 24 8 = (if s.calActive = true ∨ s.getF Reg.BOOT_PROF_STS 0 2 = 2 then 3 else 1) ∧ t.rawBit 13 0 Ev.CAL_REFUSED = true ∧
        t.cal = s.cal ∧ RegsBut [Reg.CAL_STS] s t)
  ∧ (∀ (rq : Requester) (scope : Fin 4) (target : Fin 1024) (s : State),
      s.calWriter rq = true → s.pageReset 13 0 = false → scope = 3 → rq ≠ .pilot 3 → s.warmHeld = false →
      Runs (.runCal rq scope target) s (Fld.raised ||| Fld.heldWrites ||| Fld.cal) fun t =>
        t.getF Reg.CAL_STS 24 8 = 7 ∧ t.rawBit 13 0 Ev.CAL_REFUSED = true ∧ t.cal = s.cal)
  ∧ (∀ (rq : Requester) (scope : Fin 4) (target : Fin 1024) (s : State),
      s.calWriter rq = true → s.pageReset 13 0 = false → (scope ≠ 3 ∨ rq = .pilot 3) → s.getF Reg.CAL_STS 0 3 = 2 → s.cal.sw = none →
      Runs (.calCommit rq scope target) s (Fld.raised ||| Fld.heldWrites ||| Fld.cal) fun t =>
        t.cal = { s.cal with sw := some (1, s.now + s.commitLead) } ∧ RegsOnly [Reg.CAL_STS] s t)
  ∧ (∀ (rq : Requester) (scope : Fin 4) (target : Fin 1024) (s : State),
      s.calWriter rq = true → s.pageReset 13 0 = false → (scope ≠ 3 ∨ rq = .pilot 3) → s.calActive = false → s.scopeTiles scope target ≠ [] →
      Runs (.calCommit rq scope target) s (Fld.raised ||| Fld.heldWrites ||| Fld.cal) fun t =>
        t.cal = { s.cal with sw := some (2, s.now + s.commitLead), swTiles := s.scopeTiles scope target } ∧ RegsOnly [Reg.CAL_STS] s t)
  ∧ (∀ (rq : Requester) (scope : Fin 4) (target : Fin 1024) (s : State),
      s.calWriter rq = true → s.pageReset 13 0 = false → (scope ≠ 3 ∨ rq = .pilot 3) → s.getB Reg.CAL_STS 3 = true →
      Runs (.calRevert rq scope target) s (Fld.raised ||| Fld.heldWrites ||| Fld.cal) fun t =>
        t.getB Reg.CAL_STS 3 = false ∧ t.cal = { s.cal with sw := some (3, s.now + s.commitLead) } ∧ RegsOnly [Reg.CAL_STS] s t)
  ∧ (∀ (rq : Requester) (scope : Fin 4) (target : Fin 1024) (s : State),
      s.calWriter rq = true → s.pageReset 13 0 = false → (scope ≠ 3 ∨ rq = .pilot 3) → s.calActive = true → s.warmHeld = false →
      Runs (.calAbort rq scope target) s (Fld.raised ||| Fld.heldWrites ||| Fld.rows ||| Fld.tiles ||| Fld.cal) fun t =>
        t.getF Reg.CAL_STS 0 3 = 4 ∧ t.getF Reg.CAL_STS 24 8 = 0 ∧ t.cal.kind = 0 ∧ t.cal.tiles = [] ∧ t.cal.sw = none ∧
        t.rawBit 13 0 Ev.CAL_ABORTED = true)
  ∧ (∀ (rq : Requester) (scope : Fin 4) (target : Fin 1024) (s : State),
      s.calWriter rq = true → s.pageReset 13 0 = false → (scope ≠ 3 ∨ rq = .pilot 3) → s.calActive = false → s.getB Reg.CAL_SNAP_STS 17 = false →
      Runs (.calSnapshot rq scope target) s (Fld.raised ||| Fld.heldWrites ||| Fld.leases ||| Fld.flash ||| Fld.flashq) fun t =>
        t.getB Reg.CAL_SNAP_STS 17 = true ∧
        t.flashq.map (fun w => (w.kind, w.base0, w.base1)) = s.flashq.map (fun w => (w.kind, w.base0, w.base1)) ++ [(4, 0x1100000, 0x1180000)] ∧
        t.flashq.getLast?.map (fun w => w.body) = some s.snapBody ∧ t.trims = s.trims)

/-- A tile's measurement begins in turn by copying every trim of its active bank to the inactive one; an action counts its pulse or row operation,
writes full-scale levels into a pattern row, and under an unlocked line records the tick and raises TIL_TUNIT_UNLOCK; the end of a measurement
stores the measured column and row trims in the inactive bank only; a line unlocked for over 125,000 ticks aborts the measurement; T_c switches the
bank of every measured tile, or back, and raises its event; the end of a snapshot write and the samples of VREF set their status bits. Readings that
are the model's choice: log entries 46, 2. (R225, R204, R200, R221, R234, R206, R186) -/
def Obligations.CalibrationMeasurements : Prop :=
  (∀ (ok : Bool) (w : FlashWrite) (ws : List FlashWrite) (s : State),
      s.flashq = w :: ws → w.kind = 4 → s.warmHeld = false →
      Runs (.snapshotWriteDone ok) s (Fld.raised ||| Fld.leases ||| Fld.flash ||| Fld.flashq) fun t =>
        t.getB Reg.CAL_SNAP_STS 17 = false ∧ t.getB Reg.CAL_SNAP_STS 18 = !ok ∧
        (ok = true → t.getB Reg.CAL_SNAP_STS 16 = true ∧ t.getF Reg.CAL_SNAP_STS 0 16 = (w.slot.elim 0 (·.2)) % 65536) ∧
        (ok = false → t.rawBit 13 0 Ev.CAL_SNAP_FAIL = true ∧ t.rawBit 16 0 Ev.BOOT_FLASH_ERR = true) ∧ t.flashq.length = ws.length)
  ∧ (∀ (gt : Tile) (s : State),
      s.getF Reg.CAL_STS 0 3 = 1 → s.calTurn (gt.val / 16) = some (gt.val % 16) →
      ((List.range 16).filter fun u => s.calSt (gt.val / 16 * 16 + u) = 2).length < s.calPar → s.getB (Reg.TIL_STS gt) 8 = false →
      s.tileFenced gt = false → s.tileTested gt = false → (s.nativeCal gt = true ∨ s.getF (Reg.TIL_COLMAP_CTL gt) 4 4 ≠ 15) →
      Runs (.calTileStart gt) s (Fld.raised ||| Fld.rows ||| Fld.tiles ||| Fld.trims ||| Fld.cal) fun t =>
        t.calSt gt = 2 ∧ (t.tx gt).calStart = s.now ∧ (t.tx gt).calPat = s.getB (Reg.TIL_RFSH_STS gt) 1 ∧
        (s.nativeCal gt = true → t.getB (Reg.TIL_STS gt) 7 = true) ∧
        (∀ i : Nat, i < 528 → t.trim gt (1 - s.bankOf gt) i = s.trim gt (s.bankOf gt) i) ∧
        (∀ i : Nat, i < 1024 → t.trim gt (1 - s.bankOf gt) (1024 + i) = s.trim gt (s.bankOf gt) (1024 + i)) ∧
        (∀ i : Nat, i < 2048 → t.trim gt (s.bankOf gt) i = s.trim gt (s.bankOf gt) i))
  ∧ (∀ (gt : Tile) (kind : Fin 5) (row : Fin 1024) (devs : List (Fin 528 × Fin 64)) (s : State),
      let c := calCost kind;
      s.calSt gt = 2 → s.tileBusy gt = false → s.tileFenced gt = false → s.quiet gt c.2 = true → (kind ≠ 3 ∨ (s.tx gt).calPat = true) →
      (s.grant (gt.val / 16) c.1).isSome = true → s.locked gt = true →
      Runs (.calAction gt kind row devs) s (Fld.raised ||| Fld.acct ||| Fld.rows ||| Fld.tiles) fun t =>
        (t.tx gt).unlockTick = none ∧
        (kind.val = 2 →
          t.get64 (Reg.TIL_ROWOP_CNT_LO gt) (Reg.TIL_ROWOP_CNT_HI gt) = (s.get64 (Reg.TIL_ROWOP_CNT_LO gt) (Reg.TIL_ROWOP_CNT_HI gt) + 1) % 2 ^ 64) ∧
        (kind.val = 3 → (t.row gt row).valid = true ∧ (t.row gt row).levels.take 512 = List.replicate 512 63#8) ∧
        (kind.val = 4 →
          t.get64 (Reg.TIL_PULSE_CNT_LO gt) (Reg.TIL_PULSE_CNT_HI gt) = (s.get64 (Reg.TIL_PULSE_CNT_LO gt) (Reg.TIL_PULSE_CNT_HI gt) + 1) % 2 ^ 64) ∧
        (kind.val ≠ 3 → t.rows = s.rows))
  ∧ (∀ (gt : Tile) (kind : Fin 5) (row : Fin 1024) (devs : List (Fin 528 × Fin 64)) (s : State),
      let c := calCost kind;
      s.calSt gt = 2 → s.tileBusy gt = false → s.tileFenced gt = false → s.quiet gt c.2 = true → (kind ≠ 3 ∨ (s.tx gt).calPat = true) →
      (s.grant (gt.val / 16) c.1).isSome = true → s.locked gt = false → s.warmHeld = false →
      Runs (.calAction gt kind row devs) s (Fld.raised ||| Fld.acct ||| Fld.rows ||| Fld.tiles) fun t =>
        (t.tx gt).unlockTick = (s.tx gt).unlockTick.or (some s.now) ∧ t.rawBit 4 gt Ev.TIL_TUNIT_UNLOCK = true ∧ t.rows = s.rows)
  ∧ (∀ (gt : Tile) (cols : List (Fin 528 × Fin 64 × Fin 64)) (rows : List (Fin 1024 × Fin 32)) (ofs gain row : Byte) (ofsCol gainCol rowWorst : Fin 1024) (side bg : Int) (s : State),
      let b := 1 - s.bankOf gt;
      s.calSt gt = 2 → (cols.map (·.1)).Nodup → (rows.map (·.1)).Nodup →
      Runs (.calTileEnd gt cols rows ofs gain row ofsCol gainCol rowWorst side bg) s
        (Fld.raised ||| Fld.rows ||| Fld.tiles ||| Fld.trims ||| Fld.cal) fun t =>
        t.calSt gt = 3 ∧ t.getB (Reg.TIL_STS gt) 7 = false ∧
        (∀ c ∈ cols, t.trim gt b c.1 = c.2.1.val + (if s.cal.kind ≠ 2 then c.2.2.val else s.trim gt b c.1 / 256 % 64) * 256) ∧
        (∀ r ∈ rows, s.rowMeasured gt r.1 = true → t.trim gt b (1024 + r.1.val) = r.2.val) ∧
        (∀ r ∈ rows, s.rowMeasured gt r.1 = false → t.trim gt b (1024 + r.1.val) = s.trim gt b (1024 + r.1.val)) ∧
        (∀ i : Nat, i < 2048 → t.trim gt (s.bankOf gt) i = s.trim gt (s.bankOf gt) i))
  ∧ (∀ (gt : Tile) (u : Nat) (s : State),
      (s.tx gt).unlockTick = some u → s.calSt gt = 2 → s.locked gt = false → u + 125000 < s.now →
      Runs (.calUnlockTimeout gt) s (Fld.raised ||| Fld.rows ||| Fld.tiles ||| Fld.cal) fun t =>
        t.calSt gt = 5 ∧ (t.tx gt).unlockTick = none ∧ t.getB (Reg.TIL_STS gt) 7 = false ∧ t.trims = s.trims)
  ∧ (∀  (c : Nat) (s : State),
      let l := (s.cal.tiles.filter fun e => e.2 = 3).map (·.1);
      s.cal.sw = some (1, c) → c ≤ s.now → s.getB Reg.CAL_SNAP_STS 17 = false → l.Nodup → (∀ g ∈ l, g < 1024) → s.warmHeld = false →
      Runs .calCommitted s (Fld.raised ||| Fld.cal) fun t =>
        (∀ g ∈ l, t.bankOf g = 1 - s.bankOf g ∧ t.getF (Reg.TIL_CAL_TJ g) 0 8 = s.tj (g / 16) ∧ t.getB (Reg.TIL_STS g) 6 = false) ∧
        t.trims = s.trims ∧ t.getF Reg.CAL_STS 0 3 = 3 ∧ t.getB Reg.CAL_STS 3 = true ∧ t.cal.sw = none ∧ t.cal.tiles = [] ∧
        t.get64 Reg.CAL_COMMIT_TICK_LO Reg.CAL_COMMIT_TICK_HI = s.now ∧ t.rawBit 13 0 Ev.CAL_COMMITTED = true)
  ∧ (∀  (c : Nat) (s : State),
      s.cal.sw = some (3, c) → c ≤ s.now → s.getB Reg.CAL_SNAP_STS 17 = false → (s.cal.lastTj.map (·.1)).Nodup → (∀ e ∈ s.cal.lastTj, e.1 < 1024) →
      s.warmHeld = false →
      Runs .calCommitted s (Fld.raised ||| Fld.cal) fun t =>
        (∀ e ∈ s.cal.lastTj, t.bankOf e.1 = 1 - s.bankOf e.1 ∧ t.getF (Reg.TIL_CAL_TJ e.1) 0 8 = e.2 % 256) ∧ t.getF Reg.CAL_STS 0 3 = 5 ∧
        t.cal.sw = none ∧ t.get64 Reg.CAL_COMMIT_TICK_LO Reg.CAL_COMMIT_TICK_HI = s.now ∧ t.rawBit 13 0 Ev.CAL_REVERTED = true)
  ∧ (∀ (uv : Fin 1048576) (dev : Int) (s : State),
      let good := decide (594000 ≤ uv.val) && decide (uv.val ≤ 606000);
      let since := if good then s.cal.vrefSince.or (some s.now) else none;
      let ok := since.elim false fun u => decide (u + 1250000 ≤ s.now);
      Runs (.vrefSample uv dev) s (Fld.raised ||| Fld.rows ||| Fld.tiles ||| Fld.cal) fun t =>
        t.getB Reg.CAL_STS 4 = ok ∧ t.cal.vrefSince = since ∧ t.getF Reg.CAL_VREF_MEAS 0 16 = twos 16 (clampI (-32768) 32767 dev) ∧
        (s.getB Reg.CAL_STS 4 = true → ok = false → s.calActive = true → t.getF Reg.CAL_STS 0 3 = 4 ∧ t.getF Reg.CAL_STS 24 8 = 2) ∧
        (ok = true → t.cal.tiles = s.cal.tiles))

/-- A HELLO whose signature verifies by a management key opens a session with a fresh identifier and answers the key exchange, unless four are open; one
that does not verify is refused with status 1. CLOSE answers and ends the session. A session without an accepted message for 30 s ends. A dropped
message counts in AUTH_FAIL_CNT and raises CSW_AUTH_FAIL at most once a second. MGMT_KEY_SET outside a session queues a write only while no key is
set; inside one it is refused to another key than 0. Readings that are the model's choice: log entries 78, 92, 11, 25. (R974, R977, R976, R975) -/
def Obligations.CausewaySessions : Prop :=
  (∀ (i3c : Bool) (seq : Word) (key : Fin 4) (sigOk : Bool) (s : State),
      s.serves i3c = true → sigOk = false ∨ (Store.get mgmtNone s.mgmtKeys key).isEmpty = true ∨ 4 ≤ s.sessions.length →
      Runs (.hello i3c seq key sigOk) s (Fld.raised ||| Fld.sessions) fun t =>
        t.out = .causeway 0 0x81 (if sigOk = false ∨
          (Store.get mgmtNone s.mgmtKeys key).isEmpty = true then 1 else 4) 0 (leBytes seq.toNat 4) :: s.out ∧
        t.sessions = s.sessions ∧ t.draws = s.draws ∧ RegsOnly [Reg.CSW_RX_CNT, Reg.CSW_TX_CNT] s t)
  ∧ (∀ (i3c : Bool) (seq : Word) (key : Fin 4) (sigOk : Bool) (s : State),
      let id := s.freshId ((Config.draw s.draws).toNat % 2 ^ 32);
      s.serves i3c = true → sigOk = true → (Store.get mgmtNone s.mgmtKeys key).isEmpty = false → s.sessions.length < 4 →
      Runs (.hello i3c seq key sigOk) s (Fld.raised ||| Fld.sessions) fun t =>
        t.sessions = s.sessions ++ [{ id, key, i3c, last := s.now, tx := 1 }] ∧
        t.out.any (fun o => match o with | .causeway 0 0x81 0 0 b => b.take 4 == leBytes seq.toNat 4 && b.length == 216 && (b.drop 100).take 4 == leBytes id 4 | _ => false) = true ∧
        t.rawBit 11 0 Ev.CSW_SESSION = true)
  ∧ (∀ (sid seq : Word) (x : Session) (s : State),
      Accepts s sid seq x →
      Runs (.closeSession sid seq) s (Fld.raised ||| Fld.sessions ||| Fld.authTick) fun t =>
        t.sessions = (s.heard seq x).sessions.filter (fun y => y.id ≠ x.id) ∧ t.session sid = none ∧
        t.out.contains (.causeway x.id 0x82 0 0 (leBytes seq.toNat 4)) = true ∧ t.rawBit 11 0 Ev.CSW_SESSION = true)
  ∧ (∀ (sid : Word) (s : State),
      Runs (.sessionTimeout sid) s (Fld.raised ||| Fld.sessions) fun t =>
        t.sessions = s.sessions.filter (fun x => ¬ (x.id = sid.toNat ∧ x.last + 3750000000 ≤ s.now)) ∧
        ((s.sessions.any fun x => x.id = sid.toNat && decide (x.last + 3750000000 ≤ s.now)) = true → t.rawBit 11 0 Ev.CSW_SESSION = true))
  ∧ (∀ (i3c : Bool) (s : State),
      s.serves i3c = true →
      Runs (.cswAuthFail i3c) s (Fld.raised ||| Fld.authTick) fun t =>
        t.reg Reg.CSW_AUTH_FAIL_CNT = BitVec.ofNat 32 (satAdd 0xFFFFFFFF (s.reg Reg.CSW_AUTH_FAIL_CNT).toNat 1) ∧
        ((s.authTick = 0 ∨ s.authTick + 124999999 ≤ s.now) → t.authTick = s.now + 1 ∧ t.rawBit 11 0 Ev.CSW_AUTH_FAIL = true) ∧
        (¬ (s.authTick = 0 ∨ s.authTick + 124999999 ≤ s.now) → t.authTick = s.authTick ∧ t.hdr = s.hdr) ∧ RegsBut [Reg.CSW_AUTH_FAIL_CNT] s t)
  ∧ (∀ (origin : Fin 3) (sid seq : Word) (key : Fin 4) (pub : List Byte) (sigOk : Bool) (s : State),
      let st := if pub.length ≠ 96 then 2 else if s.mgmtKeys.isEmpty = false ∨ sigOk = false then 1 else 0;
      origin = 0 → s.pilSt 1 = 1 → s.recoveryMode = false →
      Runs (.mgmtKeySet origin sid seq key pub sigOk) s
        (Fld.raised ||| Fld.leases ||| Fld.flash ||| Fld.flashq ||| Fld.sessions ||| Fld.authTick) fun t =>
        t.out.contains (.causeway 0 0x83 st 0 (leBytes seq.toNat 4)) = true ∧ (st ≠ 0 → t.flashq = s.flashq ∧ RegsOnly [] s t) ∧
        (st = 0 → t.flashq.length = s.flashq.length + 1))
  ∧ (∀ (origin : Fin 3) (sid seq : Word) (key : Fin 4) (pub : List Byte) (sigOk : Bool) (x : Session) (s : State),
      origin = 2 → Accepts s sid seq x → pub.length = 96 → sigOk = false ∨ (s.mgmtKeys ≠ [] ∧ x.key ≠ 0) →
      Runs (.mgmtKeySet origin sid seq key pub sigOk) s
        (Fld.raised ||| Fld.leases ||| Fld.flash ||| Fld.flashq ||| Fld.sessions ||| Fld.authTick) fun t =>
        Answered s t sid seq x 0x83 1 [] ∧ t.flashq = s.flashq)

/-- Each accepted request has one reply with TYPE + 0x80, the request's sequence number in bytes 0 to 3 and the status the rules give, and moves the
session on. READ carries the values read in order, WRITE one accepted bit a value; a wrong length is status 2. LOG_READ gives the committed records
from a sequence number; SUBSCRIBE sets class and first record; EVENT sends the committed records due, at most MAX_REC, and reports overwritten ones
as a gap; TELEMETRY gives 256 bytes latched at one edge; TIME_PROBE two timestamps. Readings that are the model's choice: log entries 78, 86, 92.
(R979, R978, R992, R993, R996, R997) -/
def Obligations.CausewayAccessAndReports : Prop :=
  (∀ (sid seq : Word) (peek : Bool) (a : Fin 268435456) (n : Fin 1024) (x : Session) (s : State),
      let u := s.heard seq x;
      Accepts s sid seq x → n.val ≠ 0 → n.val ≤ 256 →
      Runs (.cswRead sid seq peek a n) s (Fld.raised ||| Fld.shadow ||| Fld.badAccTick ||| Fld.thm ||| Fld.sessions ||| Fld.authTick) fun t =>
        t.out = .causeway x.id 0x90 (if !u.coreUp && (List.range n).any (fun i => !cswLogPage (a + 4 * i)) then 3 else 0) 0 (leBytes seq.toNat 4 ++
          (u.cswReads peek a n).1.flatMap (fun v => leBytes v.toNat 4)) :: (u.cswReads peek a n).2.out ∧
        t.session sid = some { x with rx := max x.rx seq.toNat, last := s.now, tx := x.tx + 1 } ∧
        (n.val = 1 → u.coreUp = true → a.val % 4 = 0 → a.val < 0x5400000 → peek = true →
          Answered s t sid seq x 0x90 0 (leBytes (u.valFor .causeway false a).toNat 4) ∧ RegsOnly [Reg.CSW_RX_CNT, Reg.CSW_TX_CNT] s t))
  ∧ (∀ (sid seq : Word) (peek : Bool) (a : Fin 268435456) (n : Fin 1024) (x : Session) (s : State),
      Accepts s sid seq x → (n.val = 0 ∨ 256 < n.val) →
      Runs (.cswRead sid seq peek a n) s (Fld.raised ||| Fld.shadow ||| Fld.badAccTick ||| Fld.thm ||| Fld.sessions ||| Fld.authTick) fun t =>
        Answered s t sid seq x 0x90 2 [] ∧ RegsOnly [Reg.CSW_RX_CNT, Reg.CSW_TX_CNT] s t)
  ∧ (∀ (sid seq : Word) (a : Fin 268435456) (vals : List Word) (env : WriteEnv) (x : Session) (s : State),
      let u := s.heard seq x;
      Accepts s sid seq x → vals ≠ [] → vals.length ≤ 64 →
      Runs (.cswWrite sid seq a vals env) s
        (Fld.raised ||| Fld.staged ||| Fld.heldWrites ||| Fld.fencing ||| Fld.pendWas ||| Fld.badAccTick ||| Fld.leases ||| Fld.tide |||
         Fld.tickets ||| Fld.jobs ||| Fld.plans ||| Fld.acct ||| Fld.slu ||| Fld.ctxs ||| Fld.lines ||| Fld.tags ||| Fld.qps ||| Fld.ovf |||
         Fld.landing ||| Fld.rows ||| Fld.tiles ||| Fld.trims ||| Fld.weir ||| Fld.harbour ||| Fld.hbPoison ||| Fld.hbWritten ||| Fld.frames |||
         Fld.badSlots ||| Fld.owners ||| Fld.runs ||| Fld.imports ||| Fld.tests ||| Fld.flash ||| Fld.cal ||| Fld.flashq ||| Fld.ends |||
         Fld.rplChecks ||| Fld.wd ||| Fld.sessions ||| Fld.authTick ||| Fld.views ||| Fld.boot ||| Fld.tap) fun t =>
        t.out = .causeway x.id 0x91 (if !u.coreUp && (List.range vals.length).any (fun i => !cswLogPage (a + 4 * i)) then 3 else 0) 0 (leBytes seq.toNat 4 ++
          leBytes (bitsOf 64 fun i => (u.cswWrites env a vals).1.getD i false) 8) :: (u.cswWrites env a vals).2.out ∧
        (∀ v : Word, vals = [v] → u.coreUp = true → a.val % 4 = 0 → (u.cswWrites env a vals).1 = [u.accepts .causeway a v] ∧ t.basin = s.basin))
  ∧ (∀ (sid seq first : Word) (n : Fin 256) (x : Session) (s : State),
      Accepts s sid seq x →
      Runs (.logRead sid seq first n) s (Fld.raised ||| Fld.sessions ||| Fld.authTick) fun t =>
        ((n.val = 0 ∨ 40 < n.val) → Answered s t sid seq x 0xA0 2 []) ∧
        (n.val ≠ 0 → n.val ≤ 40 → Answered s t sid seq x 0xA0 0 ((s.recsFrom first.toNat 0 n).flatMap LogRec.bytes)) ∧
        RegsOnly [Reg.CSW_RX_CNT, Reg.CSW_TX_CNT] s t)
  ∧ (∀ (sid seq : Word) (cls : Byte) (enable : Bool) (x : Session) (s : State),
      Accepts s sid seq x →
      Runs (.subscribe sid seq cls enable) s (Fld.raised ||| Fld.sessions ||| Fld.authTick) fun t =>
        (4 < cls.toNat → Answered s t sid seq x 0xA1 2 []) ∧
        (cls.toNat ≤ 4 → t.out = .causeway x.id 0xA1 0 0 (leBytes seq.toNat 4) :: s.out ∧
          t.session sid = some { x with rx := max x.rx seq.toNat, last := s.now, tx := x.tx + 1, sub := if enable then cls.toNat + 1 else 0, next := s.log.nextSeq }) ∧
        RegsOnly [Reg.CSW_RX_CNT, Reg.CSW_TX_CNT] s t)
  ∧ (∀ (sid : Word) (x : Session) (s : State),
      let n := max 1 (min 40 (s.getF Reg.CSW_EVT_BATCH 16 8));
      let recs := ((s.dueSeqs x).filterMap fun q => s.recOf q);
      s.session sid = some x → x.sub ≠ 0 → s.serves x.i3c = true → s.dueSeqs x ≠ [] → (∀ q ∈ s.dueSeqs x, (s.recOf q).isSome = true) →
      (x.sent = 0 ∨ x.sent + max 1 (s.getF Reg.CSW_EVT_BATCH 0 16) * 125 ≤ s.now) →
      Runs (.eventReport sid) s (Fld.raised ||| Fld.sessions) fun t =>
        t.out = .causeway x.id 0x22 0 (b2n (n < recs.length)) ((recs.take n).flatMap LogRec.bytes) :: s.out ∧
        (∀ r : LogRec, (recs.take n).getLast? = some r →
          t.session sid = some { x with next := if r.seq = 0xFFFFFFFF then 1 else r.seq + 1, sent := s.now + 1, tx := x.tx + 1 }) ∧
        RegsOnly [Reg.CSW_TX_CNT] s t)
  ∧ (∀ (sid : Word) (x : Session) (q : Nat) (s : State),
      s.session sid = some x → x.sub ≠ 0 → s.serves x.i3c = true → s.dueSeqs x = [q] → s.recOf q = none →
      (x.sent = 0 ∨ x.sent + max 1 (s.getF Reg.CSW_EVT_BATCH 0 16) * 125 ≤ s.now) →
      Runs (.eventReport sid) s (Fld.raised ||| Fld.sessions) fun t =>
        t.out.contains (.causeway x.id 0x22 0 2 (leBytes q 4 ++ leBytes q 4)) = true ∧
        t.reg Reg.CSW_GAP_CNT = BitVec.ofNat 32 (satAdd 0xFFFFFFFF (s.reg Reg.CSW_GAP_CNT).toNat 1) ∧ t.rawBit 11 0 Ev.CSW_REPORT_GAP = true ∧
        RegsBut [Reg.CSW_TX_CNT, Reg.CSW_GAP_CNT] s t)
  ∧ (∀ (sid seq : Word) (x : Session) (s : State),
      Accepts s sid seq x →
      Runs (.telemetry sid seq) s (Fld.raised ||| Fld.sessions ||| Fld.authTick) fun t =>
        Answered s t sid seq x 0xB0 0 s.telemetry ∧ s.telemetry.length = 256 ∧ RegsOnly [Reg.CSW_RX_CNT, Reg.CSW_TX_CNT] s t)
  ∧ (∀ (sid seq : Word) (turn : Nat) (rxErr txErr : Fin 5) (x : Session) (s : State),
      Accepts s sid seq x →
      Runs (.timeProbe sid seq turn rxErr txErr) s (Fld.raised ||| Fld.sessions ||| Fld.authTick) fun t =>
        Answered s t sid seq x 0xB1 0 (leBytes (s.now - turn + rxErr - 2) 8 ++ leBytes (s.now + txErr - 2) 8) ∧
        RegsOnly [Reg.CSW_RX_CNT, Reg.CSW_TX_CNT] s t)

/-- PAT_DATA and FW_DATA at the first message erase bank or slot, and program the bytes at their offset with a status-0 reply; a PAT_DATA that is out of
range, blocked or sent while the core is down leaves the flash as it is and carries status 2, 4 or 3. PAT_COMMIT and FW_COMMIT end the push: a
verified bank or image is staged with status 0, another is refused with status 1, the error of its first failing check and the event. Readings that
are the model's choice: log entries 88, 38. (R978, R912, R1034, R1035) -/
def Obligations.CausewayPushes : Prop :=
  (∀ (sid seq : Word) (off : Fin 33554432) (bytes : List Byte) (x : Session) (s : State),
      let b := s.idleBank;
      let u := if s.push.kind = 2 then s else s.flashErase (bankBase b) 0x1000000;
      Accepts s sid seq x → s.coreUp = true → bytes.length ≤ 1024 → off.val + bytes.length ≤ 0x1000000 → s.pushBlocked 2 = false →
      s.getF Reg.TST_STS 4 2 < 2 →
      Runs (.patData sid seq off bytes) s (Fld.raised ||| Fld.flash ||| Fld.sessions ||| Fld.authTick ||| Fld.push) fun t =>
        Answered s t sid seq x 0xC0 0 [] ∧ t.flash = (u.flashProgram (bankBase b + off) bytes).flash ∧
        (s.push.kind ≠ 2 → t.push = { kind := 2 } ∧ t.getF Reg.TST_STS 4 2 = 1 ∧ t.getF Reg.TST_STS 28 4 = 0 ∧ (∀ i : Nat, i < bytes.length →
          t.flashByte (bankBase b + off + i) = bytes.getD i 0)) ∧
        RegsOnly [Reg.CSW_RX_CNT, Reg.CSW_TX_CNT, Reg.TST_STS] s t)
  ∧ (∀ (sid seq : Word) (off : Fin 33554432) (bytes : List Byte) (x : Session) (s : State),
      Accepts s sid seq x →
      (s.coreUp = false ∨ 1024 < bytes.length ∨ 0x1000000 < off.val + bytes.length ∨ s.pushBlocked 2 = true ∨ 2 ≤ s.getF Reg.TST_STS 4 2) →
      Runs (.patData sid seq off bytes) s (Fld.raised ||| Fld.flash ||| Fld.sessions ||| Fld.authTick ||| Fld.push) fun t =>
        Answered s t sid seq x 0xC0 (if s.coreUp = false then 3 else if 1024 < bytes.length ∨ 0x1000000 < off.val + bytes.length then 2 else 4) [] ∧
        t.flash = s.flash ∧ RegsOnly [Reg.CSW_RX_CNT, Reg.CSW_TX_CNT, Reg.TST_STS] s t)
  ∧ (∀ (sid seq : Word) (len : Fin 33554432) (sigOk readOk : Bool) (x : Session) (s : State),
      Accepts s sid seq x → s.coreUp = true → s.push.kind = 2 →
      Runs (.patCommit sid seq len sigOk readOk) s (Fld.raised ||| Fld.sessions ||| Fld.authTick ||| Fld.push) fun t =>
        (s.bankErr s.idleBank len sigOk readOk = none → Answered s t sid seq x 0xC1 0 [] ∧ t.getF Reg.TST_STS 4 2 = 3 ∧ t.getF Reg.TST_STS 28 4 = 0) ∧
        (∀ e : Fin 16, s.bankErr s.idleBank len sigOk readOk = some e.val → t.out.contains (.causeway x.id 0xC1 1 0 (leBytes seq.toNat 4)) = true ∧
          t.getF Reg.TST_STS 4 2 = 0 ∧ t.getF Reg.TST_STS 28 4 = e.val ∧ t.rawBit 14 0 Ev.TST_PAT_REJECT = true) ∧
        t.push = {} ∧ t.flash = s.flash ∧ RegsBut [Reg.CSW_RX_CNT, Reg.CSW_TX_CNT, Reg.TST_STS] s t)
  ∧ (∀ (sid seq : Word) (off : Fin 33554432) (bytes : List Byte) (ok : Bool) (x : Session) (s : State),
      s.recoveryMode = false → Accepts s sid seq x → bytes.length ≤ 1024 → off.val + bytes.length ≤ 2097248 → s.pushBlocked 1 = false →
      s.getF Reg.TST_STS 4 2 = 0 → off.val = 0 → (s.push.kind = 1 ∨ s.getF Reg.BOOT_FW_STS 0 2 = 0) → ok = true →
      Runs (.fwData sid seq off bytes ok) s (Fld.raised ||| Fld.flash ||| Fld.sessions ||| Fld.authTick ||| Fld.push) fun t =>
        Answered s t sid seq x 0xC2 0 [] ∧ t.push = { kind := 1 } ∧ t.getF Reg.BOOT_FW_STS 0 2 = 2 ∧ t.getB Reg.BOOT_FW_STS 8 = false ∧
        (∀ i : Nat, i < bytes.length → t.flashByte (fwBase s.idleSlot + 64 + i) = bytes.getD i 0) ∧
        RegsOnly [Reg.CSW_RX_CNT, Reg.CSW_TX_CNT, Reg.BOOT_FW_STS] s t)
  ∧ (∀ (sid seq : Word) (off : Fin 33554432) (bytes : List Byte) (ok : Bool) (s : State),
      s.recoveryMode = true → s.hears true = true → bytes.length ≤ 1024 → off.val + bytes.length ≤ 2097248 → s.pushBlocked 1 = false →
      s.getF Reg.TST_STS 4 2 = 0 → s.push.kind = 1 → off.val ≠ 0 → ok = true →
      Runs (.fwData sid seq off bytes ok) s (Fld.raised ||| Fld.flash ||| Fld.sessions ||| Fld.authTick ||| Fld.push) fun t =>
        t.out = .causeway 0 0xC2 0 0 (leBytes seq.toNat 4) :: s.out ∧ t.flash = (s.flashProgram (fwBase s.idleSlot + 64 + off) bytes).flash ∧
        t.regs = s.regs)
  ∧ (∀ (sid seq : Word) (len : Fin 33554432) (ver : Word) (svn : Fin 65536) (sigOk ok : Bool) (x : Session) (s : State),
      s.recoveryMode = false → Accepts s sid seq x → s.push.kind = 1 →
      Runs (.fwCommit sid seq len ver svn sigOk ok) s (Fld.raised ||| Fld.flash ||| Fld.sessions ||| Fld.authTick ||| Fld.push) fun t =>
        (s.fwErr len svn sigOk ok = none → t.out.contains (.causeway x.id 0xC3 0 0 (leBytes seq.toNat 4)) = true ∧ t.getF Reg.BOOT_FW_STS 0 2 = 0 ∧
          t.getB Reg.BOOT_FW_STS 8 = true ∧ t.rawBit 16 0 Ev.BOOT_FW_STAGED = true) ∧
        (∀ e : Fin 16, s.fwErr len svn sigOk ok = some e.val → t.out.contains (.causeway x.id 0xC3 1 0 (leBytes seq.toNat 4)) = true ∧
          t.getF Reg.BOOT_FW_STS 4 4 = e.val ∧ t.flash = s.flash ∧ t.rawBit 16 0 Ev.BOOT_FW_REJECT = true) ∧
        t.push = {} ∧ RegsBut [Reg.CSW_RX_CNT, Reg.CSW_TX_CNT, Reg.BOOT_FW_STS] s t)

/-- Each MCTP control and PLDM request that the port serves has its answer, with completion code and body; content that the spec does not give is free
bytes. ARP for the port's address and ICMP echo are answered. A captured event message stores its timestamp and identity in the next of TS0 to TS15.
A change of the link shows in CSW_STS and raises CSW_LINK. Nothing else changes. Readings that are the model's choice: log entries 43, 89, 90.
(R971, R973, R995, R998, R1002) -/
def Obligations.MonitoringOverI3cAndEthernet : Prop :=
  (∀ (sender target : Word) (s : State),
      s.serves false = true → target = s.reg Reg.CSW_IP_ADDR → (target ≠ 0 ∨ sender = 0) →
      Runs (.arpRequest sender target) s Fld.out fun t =>
        t = { s with out := .eth 1 s.vlan (s.mac ++ leBytes target.toNat 4) :: s.out })
  ∧ (∀ (dst : Word) (data : List Byte) (s : State),
      s.serves false = true → dst = s.reg Reg.CSW_IP_ADDR → dst ≠ 0 →
      Runs (.icmpEcho dst data) s Fld.out fun t =>
        t = { s with out := .eth 2 s.vlan data :: s.out })
  ∧ (∀ (addr : Fin 128) (s : State),
      s.hears true = true →
      Runs (.dynamicAddressAssign addr) s Fld.mctp fun t =>
        t = { s with mctp := { s.mctp with da := some addr.val } })
  ∧ (∀ (eid : Byte) (s : State),
      s.serves true = true →
      Runs (.setEndpointId eid) s (Fld.out ||| Fld.mctp) fun t =>
        (eid = 0 ∨ eid = 0xFF → t = { s with out := .mctp 2 [] :: s.out }) ∧
        (eid ≠ 0 → eid ≠ 0xFF → t.mctp = { s.mctp with eid := eid.toNat } ∧ t.out = .mctp 0 [0, eid, 0] :: s.out))
  ∧ (∀ (s : State),
      s.serves true = true →
      Runs .getEndpointId s Fld.out fun t =>
        t = { s with out := .mctp 0 [BitVec.ofNat 8 s.mctp.eid, 0, 0] :: s.out })
  ∧ (∀ (ty : Byte) (s : State),
      s.serves true = true →
      Runs (.getMctpVersionSupport ty) s (Fld.out ||| Fld.draws) fun t =>
        t.out = .mctp 0 (s.freeBytes 5).1 :: s.out ∧ t.draws = s.draws + 1)
  ∧ (∀ (s : State),
      s.serves true = true →
      Runs .getMessageTypeSupport s Fld.out fun t =>
        t = { s with out := .mctp 0 [2, 1, 0x7F] :: s.out })
  ∧ (∀ (s : State),
      s.hears true = true →
      Runs .gettid s (Fld.out ||| Fld.draws) fun t =>
        t.out = .mctp 0 (s.freeBytes 1).1 :: s.out ∧ t.draws = s.draws + 1)
  ∧ (∀ (ty : Byte) (s : State),
      s.serves true = true →
      Runs (.getpldmversion ty) s (Fld.out ||| Fld.draws) fun t =>
        ((ty = 0 ∨ ty = 2) → t.out = .mctp 0 (s.freeBytes 4).1 :: s.out) ∧ (¬ (ty = 0 ∨ ty = 2) → t = { s with out := .mctp 0x83 [] :: s.out }))
  ∧ (∀ (s : State),
      s.serves true = true →
      Runs .getpldmtypes s Fld.out fun t =>
        t = { s with out := .mctp 0 [5, 0, 0, 0, 0, 0, 0, 0] :: s.out })
  ∧ (∀ (ty : Byte) (s : State),
      s.serves true = true →
      Runs (.getpldmcommands ty) s Fld.out fun t =>
        (ty = 0 → t = { s with out := .mctp 0 (leBytes 0x3C 32) :: s.out }) ∧
        (ty = 2 → t = { s with out := .mctp 0 (leBytes (2 ^ 0x11 + 2 ^ 0x21 + 2 ^ 0x51) 32) :: s.out }) ∧
        (¬ (ty = 0 ∨ ty = 2) → t = { s with out := .mctp 0x83 [] :: s.out }))
  ∧ (∀ (handle : Word) (s : State),
      s.serves true = true →
      Runs (.getpdr handle) s (Fld.out ||| Fld.draws) fun t =>
        t.out = .mctp 0 (s.freeBytes 64).1 :: s.out ∧ t.draws = s.draws + 1)
  ∧ (∀ (id : Fin 65536) (s : State),
      s.serves true = true →
      Runs (.getsensorreading id) s Fld.out fun t =>
        (s.numericSensor id = none → t = { s with out := .mctp 0x80 [] :: s.out }) ∧
        (id.val = 72 → s.coreUp = true → t = { s with out := .mctp 0 (0 :: leBytes (s.getF Reg.SLU_AVS_STS 0 12) 4) :: s.out }) ∧
        ((s.numericSensor id).isSome = true → s.coreUp = false → t = { s with out := .mctp 0 [2] :: s.out }))
  ∧ (∀ (id : Fin 65536) (s : State),
      s.serves true = true →
      Runs (.getstatesensorreadings id) s Fld.out fun t =>
        (80 ≤ id.val → id.val ≤ 87 →
          t = { s with out := .mctp 0 (if s.coreUp then [0, BitVec.ofNat 8 (s.getF (Reg.PRT_STS (id - 80)) 0 2)] else [2]) :: s.out }) ∧
        (id.val = 88 →
          t = { s with out := .mctp 0 [0, BitVec.ofNat 8 (b2n s.faultN), BitVec.ofNat 8 (b2n (s.getB Reg.THM_STS 1)), BitVec.ofNat 8 (s.getF Reg.THM_STS 0 1)] :: s.out }) ∧
        ((id.val < 80 ∨ 88 < id.val) → t = { s with out := .mctp 0x80 [] :: s.out }))
  ∧ (∀ (ty cmd : Byte) (s : State),
      s.serves true = true → ¬ ((ty = 0 ∧ 2 ≤ cmd.toNat ∧ cmd.toNat ≤ 5) ∨ (ty = 2 ∧ (cmd = 0x11 ∨ cmd = 0x21 ∨ cmd = 0x51))) →
      Runs (.pldmUnsupported ty cmd) s Fld.out fun t =>
        t = { s with out := .mctp 5 [] :: s.out })
  ∧ (∀ (ty : Fin 16) (dom : Byte) (seqId : Fin 65536) (err : Fin 5) (s : State),
      let n := s.getF Reg.CSW_TS_WR 0 4;
      s.getB Reg.CSW_CTL 2 = true → s.getB Reg.CSW_CTL 0 = true → s.getB Reg.CSW_STS 0 = true →
      Runs (.ptpCapture ty dom seqId err) s Fld.regs fun t =>
        t.get64 (Reg.CSW_TS_LO n) (Reg.CSW_TS_HI n) = (s.now + err - 2) % 2 ^ 64 ∧
        t.reg (Reg.CSW_TS_ID n) = BitVec.ofNat 32 (seqId + dom.toNat * 65536 + ty * 2 ^ 24) ∧ t.getF Reg.CSW_TS_WR 0 4 = (n + 1) % 16 ∧
        RegsOnly [Reg.CSW_TS_LO n, Reg.CSW_TS_HI n, Reg.CSW_TS_ID n, Reg.CSW_TS_WR] s t)
  ∧ (∀ (up : Bool) (s : State),
      s.boot.aon = true → s.getB Reg.CSW_STS 0 ≠ up →
      Runs (.cswLink up) s Fld.raised fun t =>
        t.getB Reg.CSW_STS 0 = up ∧ t.rawBit 11 0 Ev.CSW_LINK = true ∧ RegsBut [Reg.CSW_STS] s t)

/-- CREATE of a FREE context binds partition, owner and pages and tags the pages of every island of the partition, or is refused with its error; BACK
gives the unbacked positions FREE frames in ascending order; DESTROY and lowering NumVFs put contexts into teardown with gate closed and cause 1 or
2; the end of a teardown leaves the context FREE with no key, tag, job or queue pair, or raises KEY_ZERO_FAIL. Readings that are the model's choice:
log entry 58. (R665, R674, R694, R692) -/
def Obligations.ContextLifeCycle : Prop :=
  (∀ (rq : Requester) (c : Ctx) (s : State),
      let cfg := s.reg (Reg.CTX_CFG c);
      isMgmt rq = true → s.pageReset 19 c = false → s.createErr c = none → s.warmHeld = false →
      Runs (.ctxCreate rq c) s (Fld.raised ||| Fld.heldWrites ||| Fld.ctxs ||| Fld.lines ||| Fld.tags) fun t =>
        t.ctxSt c = 1 ∧ t.getF (Reg.CTX_STS c) 8 8 = 0 ∧
        t.cx c = { part := fld cfg 0 3, owner := fld cfg 8 5, pages := fld cfg 16 11, winFrames := s.getF (Reg.CTX_WIN c) 0 17 } ∧
        (∀ i ∈ s.islandsOf (fld cfg 0 3), ∀ g ∈ (s.freePages i).take (fld cfg 16 11), Store.get tagNone t.tags (i * 1024 + g) = c.val + 1) ∧
        t.rawBit 19 c Ev.CTX_CREATED = true ∧ RegsBut [Reg.CTX_STS c, Reg.CTX_CHALLENGE_LO c, Reg.CTX_CHALLENGE_HI c] s t)
  ∧ (∀ (rq : Requester) (c : Ctx) (e : Nat) (s : State),
      isMgmt rq = true → s.pageReset 19 c = false → s.ctxSt c ≠ 3 → s.createErr c = some e →
      Runs (.ctxCreate rq c) s (Fld.raised ||| Fld.heldWrites ||| Fld.ctxs ||| Fld.lines ||| Fld.tags) fun t =>
        t.getF (Reg.CTX_STS c) 8 8 = e ∧ t.ctxSt c = s.ctxSt c ∧ t.tags = s.tags ∧ RegsOnly [Reg.CTX_STS c] s t)
  ∧ (∀ (rq : Requester) (c : Ctx) (n : Fin 16777216) (s : State),
      let pos := s.getF (Reg.CTX_WIN_SEL c) 0 17;
      let want := ((List.range n).map (pos + ·)).filter fun p => !(Store.get winNone (s.cx c).win p).backed;
      let free := s.freeFrames want.length;
      isMgmt rq = true → s.pageReset 19 c = false → (s.ctxSt c = 1 ∨ s.ctxSt c = 2) → pos + n.val ≤ (s.cx c).winFrames → want.length ≤ free.length →
      Runs (.ctxBack rq c n) s (Fld.regs ||| Fld.heldWrites ||| Fld.ctxs ||| Fld.frames) fun t =>
        (want.map (fun p => Store.get winNone (t.cx c).win p) = free.map fun f => { backed := true, frame := f, ty := 1 }) ∧
        (∀ f ∈ free, t.frame f = { ty := 1, owner := c.val + 1 }) ∧ t.getF (Reg.CTX_STS c) 8 8 = 0 ∧
        RegsOnly [Reg.CTX_STS c, Reg.CTX_WIN_BACKED c] s t)
  ∧ (∀ (rq : Requester) (c : Ctx) (s : State),
      isMgmt rq = true → s.pageReset 19 c = false → (s.ctxSt c = 1 ∨ s.ctxSt c = 2) →
      Runs (.ctxDestroy rq c) s
        (Fld.raised ||| Fld.heldWrites ||| Fld.leases ||| Fld.tickets ||| Fld.jobs ||| Fld.ctxs ||| Fld.imports ||| Fld.ends) fun t =>
        t.ctxSt c = 3 ∧ (t.cx c).gateClosed = true ∧ (t.cx c).closeCause = 1 ∧ (t.imports.any fun m => m.ctx = c.val) = false)
  ∧ (∀ (n : Ctx) (s : State),
      Runs (.vfOff n) s (Fld.raised ||| Fld.leases ||| Fld.tickets ||| Fld.jobs ||| Fld.ctxs ||| Fld.imports ||| Fld.ends) fun t =>
        (∀ c : Nat, c < 64 → n.val < c → s.ctxSt c ≠ 0 → t.ctxSt c = 3) ∧
        (∀ c : Nat, c < 64 → n.val < c → (s.ctxSt c = 1 ∨ s.ctxSt c = 2) → (t.cx c).closeCause = 2 ∧ (t.cx c).gateClosed = true) ∧
        (∀ c : Nat, c < 64 → c ≤ n.val → t.ctxSt c = s.ctxSt c))
  ∧ (∀ (c : Ctx) (zero : Bool) (s : State),
      s.ctxSt c = 3 → s.quiesced c = true → zero = true → s.warmHeld = false →
      Runs (.teardownDone c zero) s
        (Fld.raised ||| Fld.leases ||| Fld.tickets ||| Fld.jobs ||| Fld.plans ||| Fld.acct ||| Fld.ctxs ||| Fld.lines ||| Fld.tags ||| Fld.qps |||
         Fld.ovf ||| Fld.landing ||| Fld.rows ||| Fld.tiles ||| Fld.harbour ||| Fld.hbPoison ||| Fld.hbWritten ||| Fld.frames ||| Fld.badSlots |||
         Fld.owners ||| Fld.runs ||| Fld.refetch ||| Fld.swaps ||| Fld.ends ||| Fld.tap) fun t =>
        t.ctxSt c = 0 ∧ t.slotKeyed c = false ∧ t.cx c = {} ∧ (t.tags.any fun e => e.2 = c.val + 1) = false ∧
        (t.jobs.any fun e => e.2.fn = c.val) = false ∧ (t.qps.any fun e => e.1 / 16 = c.val) = false ∧ t.rawBit 19 c Ev.CTX_FREED = true)
  ∧ (∀ (c : Ctx) (zero : Bool) (s : State),
      s.ctxSt c = 3 → s.quiesced c = true → zero = false → s.warmHeld = false →
      Runs (.teardownDone c zero) s
        (Fld.raised ||| Fld.leases ||| Fld.tickets ||| Fld.jobs ||| Fld.plans ||| Fld.acct ||| Fld.ctxs ||| Fld.lines ||| Fld.tags ||| Fld.qps |||
         Fld.ovf ||| Fld.landing ||| Fld.rows ||| Fld.tiles ||| Fld.harbour ||| Fld.hbPoison ||| Fld.hbWritten ||| Fld.frames ||| Fld.badSlots |||
         Fld.owners ||| Fld.runs ||| Fld.refetch ||| Fld.swaps ||| Fld.ends ||| Fld.tap) fun t =>
        t.ctxSt c = 3 ∧ t.rawBit 9 0 Ev.KEY_ZERO_FAIL = true)

/-- INSTALL_KEY waits for the vault lease, which goes to the lowest context that waits; the install ends KEYED, or fails with the code of its first
failing check, and returns the lease. REG_KEY queues one flash write of the key table with the new key or is refused with error 3 or 1; REVOKE_KEY
queues one with the key revoked; ZEROISE empties the slot and tears its context down with cause 5. Readings that are the model's choice: log entries
58, 60, 72. (R683, R685, R689, R690, R704) -/
def Obligations.ContextAndSigningKeys : Prop :=
  (∀ (rq : Requester) (c : Ctx) (s : State),
      (isMgmt rq = true ∨ rq = .fn c) → s.pageReset 19 c = false → s.ctxSt c = 1 → s.dbgOpen = false → s.installing c = false →
      Runs (.installKey rq c) s (Fld.regs ||| Fld.heldWrites ||| Fld.ctxs) fun t =>
        (t.cx c).installWait = true ∧ t.getF (Reg.CTX_STS c) 8 8 = 0 ∧ t.ctxSt c = 1 ∧ RegsOnly [Reg.CTX_STS c] s t)
  ∧ (∀  (c : Nat) (s : State),
      (s.leases.any fun l => l.res = 5) = false → (List.range 64).find? (fun c => (s.cx c).installWait) = some c →
      Runs .vaultLeaseGrant s (Fld.leases ||| Fld.ctxs) fun t =>
        t.leases = s.leases ++ [{ res := 5, unit := 0, kind := 1, owner := c, expiry := s.now + 2500000 }] ∧ (t.cx c).installWait = false)
  ∧ (∀ (c : Ctx) (blob : List Byte) (dmaOk sigOk keyUnwraps : Bool) (s : State),
      s.installing c = true → dmaOk = true → s.blobErr c blob = none → sigOk = true → keyUnwraps = true → s.warmHeld = false →
      Runs (.ctxKeyOk c blob dmaOk sigOk keyUnwraps) s (Fld.raised ||| Fld.leases ||| Fld.ctxs) fun t =>
        t.ctxSt c = 2 ∧ t.slotKeyed c = true ∧ t.getF (Reg.CTX_STS c) 8 8 = 0 ∧ (t.leases.any fun l => l.res = 5) = false ∧
        t.rawBit 19 c Ev.CTX_KEY_OK = true)
  ∧ (∀ (c : Ctx) (blob : List Byte) (dmaOk sigOk keyUnwraps : Bool) (s : State),
      let e := if dmaOk then (match s.blobErr c blob with | some e => e | none => if sigOk then 7 else 6) else 11;
      s.installing c = true → (dmaOk && (s.blobErr c blob).isNone && sigOk && keyUnwraps) = false → s.warmHeld = false →
      Runs (.ctxKeyOk c blob dmaOk sigOk keyUnwraps) s (Fld.raised ||| Fld.leases ||| Fld.ctxs) fun t =>
        t.getF (Reg.CTX_STS c) 8 8 = e % 256 ∧ t.ctxSt c = s.ctxSt c ∧ (t.leases.any fun l => l.res = 5 && l.owner = c.val) = false ∧
        t.rawBit 19 c Ev.CTX_KEY_FAIL = true)
  ∧ (∀ (rq : Requester) (k : Fin 128) (onCurve : Bool) (s : State),
      let r := Store.get keyNone s.keyTable k;
      isMgmt rq = true → s.pageReset 9 0 = false → (r.used = false ∨ r.revoked = true) → onCurve = true →
      Runs (.regKey rq k onCurve) s (Fld.regs ||| Fld.heldWrites ||| Fld.leases ||| Fld.flash ||| Fld.flashq) fun t =>
        t.flashq.map (fun w => (w.kind, w.arg)) = s.flashq.map (fun w => (w.kind, w.arg)) ++ [(5, 128 + k.val)] ∧
        t.flashq.getLast?.map (fun w => w.body) = some (keyTableBytes (Store.put keyNone s.keyTable k { used := true, pub := s.stagedPub })) ∧
        t.getF Reg.KEY_STS 8 8 = 0 ∧ RegsOnly [Reg.KEY_STS] s t)
  ∧ (∀ (rq : Requester) (k : Fin 128) (onCurve : Bool) (s : State),
      let r := Store.get keyNone s.keyTable k;
      isMgmt rq = true → s.pageReset 9 0 = false → ((r.used = true ∧ r.revoked = false) ∨ onCurve = false) →
      Runs (.regKey rq k onCurve) s (Fld.regs ||| Fld.heldWrites ||| Fld.leases ||| Fld.flash ||| Fld.flashq) fun t =>
        t.getF Reg.KEY_STS 8 8 = (if r.used = true ∧ r.revoked = false then 3 else 1) ∧ t.flashq = s.flashq ∧ RegsOnly [Reg.KEY_STS] s t)
  ∧ (∀ (rq : Requester) (k : Fin 128) (s : State),
      let r := Store.get keyNone s.keyTable k;
      isMgmt rq = true → s.pageReset 9 0 = false → r.used = true →
      Runs (.revokeKey rq k) s (Fld.regs ||| Fld.heldWrites ||| Fld.leases ||| Fld.flash ||| Fld.flashq) fun t =>
        t.flashq.map (fun w => (w.kind, w.arg)) = s.flashq.map (fun w => (w.kind, w.arg)) ++ [(5, 256 + k.val)] ∧
        t.flashq.getLast?.map (fun w => w.body) = some (keyTableBytes (Store.put keyNone s.keyTable k { r with revoked := true })) ∧
        t.getF Reg.KEY_STS 8 8 = 0 ∧ RegsOnly [Reg.KEY_STS] s t)
  ∧ (∀ (rq : Requester) (c : Ctx) (s : State),
      rq = .causeway → s.pageReset 9 0 = false → s.warmHeld = false →
      Runs (.zeroise rq c) s
        (Fld.raised ||| Fld.heldWrites ||| Fld.leases ||| Fld.tickets ||| Fld.jobs ||| Fld.ctxs ||| Fld.imports ||| Fld.ends) fun t =>
        t.slotKeyed c = false ∧ (s.ctxSt c ≠ 0 → t.ctxSt c = 3) ∧ ((s.ctxSt c = 1 ∨ s.ctxSt c = 2) → (t.cx c).closeCause = 5) ∧
        t.rawBit 9 0 Ev.KEY_FORCE_ZERO = true)

/-- UNLOCK with a good token puts every context in teardown and unlocks at once where none is bound, else goes on unlocking; a bad token counts in
FAIL_CNT with its error. LOCK resumes halted pilots, clears LEASE_FREEZE and locks. HALT stops a running pilot and its watchdog on an unlocked part
and is refused with error 1 or 8 otherwise; RESUME restarts pilot and watchdog. LEASE_FREEZE set latches the tick and raises DBG_FREEZE. Readings
that are the model's choice: log entry 79. (R1065, R1068, R1076, R1072) -/
def Obligations.DebugPort : Prop :=
  (∀ (rq : Requester) (sigOk : Bool) (s : State),
      rq = .debug → s.tap.unlocking = false → s.getF Reg.DBG_FAIL_CNT 0 8 < 8 → s.tokenErr sigOk = none →
      Runs (.dbgUnlock rq sigOk) s
        (Fld.raised ||| Fld.leases ||| Fld.tickets ||| Fld.jobs ||| Fld.ctxs ||| Fld.imports ||| Fld.ends ||| Fld.tap) fun t =>
        (∀ c : Nat, c < 64 → s.ctxSt c ≠ 0 → t.ctxSt c = 3) ∧ t.getF Reg.DBG_STS 12 4 = 0 ∧
        ((∀ c : Nat, c < 64 → s.ctxSt c = 0) → t.dbgOpen = true ∧ t.tap.unlocking = false ∧ t.rawBit 17 0 Ev.DBG_UNLOCK = true) ∧
        ((¬ ∀ c : Nat, c < 64 → s.ctxSt c = 0) → t.tap.unlocking = true ∧ t.getF Reg.DBG_STS 0 2 = s.getF Reg.DBG_STS 0 2))
  ∧ (∀ (rq : Requester) (sigOk : Bool) (e : Nat) (s : State),
      rq = .debug → s.tap.unlocking = false → s.getF Reg.DBG_FAIL_CNT 0 8 < 8 → s.tokenErr sigOk = some e →
      Runs (.dbgUnlock rq sigOk) s
        (Fld.raised ||| Fld.leases ||| Fld.tickets ||| Fld.jobs ||| Fld.ctxs ||| Fld.imports ||| Fld.ends ||| Fld.tap) fun t =>
        t.getF Reg.DBG_STS 12 4 = e ∧ t.getF Reg.DBG_FAIL_CNT 0 8 = s.getF Reg.DBG_FAIL_CNT 0 8 + 1 ∧ t.rawBit 17 0 Ev.DBG_UNLOCK_FAIL = true ∧
        t.ctxs = s.ctxs ∧ RegsBut [Reg.DBG_STS, Reg.DBG_FAIL_CNT, Reg.DBG_NONCE_LO, Reg.DBG_NONCE_HI] s t)
  ∧ (∀ (rq : Requester) (s : State),
      (rq = .debug ∨ rq = .causeway) → s.getF Reg.DBG_STS 0 2 ≠ 0 →
      Runs (.dbgLock rq) s (Fld.raised ||| Fld.wd) fun t =>
        t.getF Reg.DBG_STS 0 2 = 1 ∧ t.getB Reg.DBG_CTL 0 = false ∧ (∀ n : Nat, n < 8 → t.pilSt n = (if s.pilSt n = 2 then 1 else s.pilSt n)) ∧
        t.rawBit 17 0 Ev.DBG_LOCK = true)
  ∧ (∀ (rq : Requester) (n : Pilot) (s : State),
      rq = .debug → s.dbgOpen = true → s.pilSt n = 1 →
      Runs (.dbgHalt rq n) s (Fld.raised ||| Fld.wd) fun t =>
        t.pilSt n = 2 ∧ t.getB Reg.DBG_STS (3 + n) = true ∧ t.getF Reg.DBG_STS 12 4 = 0 ∧ Store.get flagZero t.wd n = 0 ∧
        t.rawBit 17 0 Ev.DBG_HALT = true ∧ RegsBut [Reg.DBG_STS, Reg.PIL_STS n] s t)
  ∧ (∀ (rq : Requester) (n : Pilot) (s : State),
      rq = .debug → s.dbgOpen = false →
      Runs (.dbgHalt rq n) s (Fld.raised ||| Fld.wd) fun t =>
        t.getF Reg.DBG_STS 12 4 = (if s.getF Reg.DBG_STS 0 2 = 0 then 1 else 8) ∧ RegsOnly [Reg.DBG_STS] s t)
  ∧ (∀ (rq : Requester) (n : Pilot) (s : State),
      rq = .debug → s.pilSt n = 2 →
      Runs (.dbgResume rq n) s (Fld.regs ||| Fld.wd) fun t =>
        t.pilSt n = 1 ∧ t.getB Reg.DBG_STS (3 + n) = false ∧ Store.get flagZero t.wd n = s.now + 1 ∧ RegsOnly [Reg.DBG_STS, Reg.PIL_STS n] s t)
  ∧ (∀ (rq : Requester) (v : Bool) (s : State),
      rq = .debug → s.dbgOpen = true →
      Runs (.leaseFreezeWrite rq v) s (Fld.raised ||| Fld.wd) fun t =>
        t.getB Reg.DBG_CTL 0 = v ∧
        (v = true → s.getB Reg.DBG_CTL 0 = false → t.get64 Reg.DBG_FRZ_TICK_LO Reg.DBG_FRZ_TICK_HI = s.now ∧ t.getB Reg.DBG_STS 11 = true ∧
          t.rawBit 17 0 Ev.DBG_FREEZE = true) ∧
        (v = false → s.getB Reg.DBG_CTL 0 = true → t.getB Reg.DBG_STS 11 = false) ∧
        RegsBut [Reg.DBG_STS, Reg.DBG_CTL, Reg.DBG_FRZ_TICK_LO, Reg.DBG_FRZ_TICK_HI] s t)

/-- EVT_PEND clears the written bits in EVT_PEND and EVT_RAW; EVT_EN takes the implemented bits and makes raised ones pending; EVT_FORCE raises every
written event; FENCE writes the requester's own source bit and is in effect from the next edge; PEND_SEL shows its new type from the next edge. No
register outside the header changes but PEND_SEL. Readings that are the model's choice: log entries 81, 82, 83. (R787, R788, R789, R799, R835) -/
def Obligations.PageHeaderWrites : Prop :=
  (∀ (rq : Requester) (ty : Fin 21) (inst : Fin 1024) (v : Word) (s : State),
      pageImplemented (pageAddr ty inst) = true → s.pageReset ty inst = false → s.stdWriter rq = true →
      Runs (.evtPendWrite rq ty inst v) s
        (Fld.raised ||| Fld.staged ||| Fld.heldWrites ||| Fld.fencing ||| Fld.pendWas ||| Fld.badAccTick ||| Fld.leases ||| Fld.tide |||
         Fld.tickets ||| Fld.jobs ||| Fld.plans ||| Fld.acct ||| Fld.slu ||| Fld.ctxs ||| Fld.lines ||| Fld.tags ||| Fld.qps ||| Fld.ovf |||
         Fld.landing ||| Fld.rows ||| Fld.tiles ||| Fld.trims ||| Fld.weir ||| Fld.harbour ||| Fld.hbPoison ||| Fld.hbWritten ||| Fld.frames |||
         Fld.badSlots ||| Fld.owners ||| Fld.runs ||| Fld.imports ||| Fld.tests ||| Fld.flash ||| Fld.cal ||| Fld.flashq ||| Fld.ends |||
         Fld.rplChecks ||| Fld.wd ||| Fld.views ||| Fld.boot ||| Fld.tap) fun t =>
        t.hd ty inst = { s.hd ty inst with raw := (s.hd ty inst).raw &&& ~~~ v, pend := (s.hd ty inst).pend &&& ~~~ v } ∧ t.regs = s.regs)
  ∧ (∀ (rq : Requester) (ty : Fin 21) (inst : Fin 1024) (v : Word) (s : State),
      let x := s.hd ty inst;
      pageImplemented (pageAddr ty inst) = true → s.pageReset ty inst = false → s.stdWriter rq = true →
      Runs (.evtEnWrite rq ty inst v) s
        (Fld.raised ||| Fld.staged ||| Fld.heldWrites ||| Fld.fencing ||| Fld.pendWas ||| Fld.badAccTick ||| Fld.leases ||| Fld.tide |||
         Fld.tickets ||| Fld.jobs ||| Fld.plans ||| Fld.acct ||| Fld.slu ||| Fld.ctxs ||| Fld.lines ||| Fld.tags ||| Fld.qps ||| Fld.ovf |||
         Fld.landing ||| Fld.rows ||| Fld.tiles ||| Fld.trims ||| Fld.weir ||| Fld.harbour ||| Fld.hbPoison ||| Fld.hbWritten ||| Fld.frames |||
         Fld.badSlots ||| Fld.owners ||| Fld.runs ||| Fld.imports ||| Fld.tests ||| Fld.flash ||| Fld.cal ||| Fld.flashq ||| Fld.ends |||
         Fld.rplChecks ||| Fld.wd ||| Fld.views ||| Fld.boot ||| Fld.tap) fun t =>
        t.hd ty inst = { x with en := v &&& evtImpl ty, pend := x.pend ||| (v &&& evtImpl ty &&& x.raw &&& ~~~ x.pend) } ∧ t.regs = s.regs)
  ∧ (∀ (rq : Requester) (ty : Fin 21) (inst : Fin 1024) (v : Word) (s : State),
      pageImplemented (pageAddr ty inst) = true → s.pageReset ty inst = false → s.stdWriter rq = true →
      Runs (.evtForce rq ty inst v) s
        (Fld.raised ||| Fld.staged ||| Fld.heldWrites ||| Fld.fencing ||| Fld.pendWas ||| Fld.badAccTick ||| Fld.leases ||| Fld.tide |||
         Fld.tickets ||| Fld.jobs ||| Fld.plans ||| Fld.acct ||| Fld.slu ||| Fld.ctxs ||| Fld.lines ||| Fld.tags ||| Fld.qps ||| Fld.ovf |||
         Fld.landing ||| Fld.rows ||| Fld.tiles ||| Fld.trims ||| Fld.weir ||| Fld.harbour ||| Fld.hbPoison ||| Fld.hbWritten ||| Fld.frames |||
         Fld.badSlots ||| Fld.owners ||| Fld.runs ||| Fld.imports ||| Fld.tests ||| Fld.flash ||| Fld.cal ||| Fld.flashq ||| Fld.ends |||
         Fld.rplChecks ||| Fld.wd ||| Fld.views ||| Fld.boot ||| Fld.tap) fun t =>
        (∀ n : Nat, n < 32 → v.getLsbD n = true → (eventCode ty n).isSome = true → t.rawBit ty inst n = true) ∧ RegsBut [] s t)
  ∧ (∀ (rq : Requester) (ty : Fin 21) (inst : Fin 1024) (v : Word) (s : State),
      let x := s.hd ty inst;
      let on := v.getLsbD (fenceBit rq);
      pageImplemented (pageAddr ty inst) = true → fenceable ty = true → s.pageReset ty inst = false → s.stdWriter rq = true → s.tideRuns = true →
      Runs (.fenceWrite rq ty inst v) s
        (Fld.raised ||| Fld.staged ||| Fld.heldWrites ||| Fld.fencing ||| Fld.pendWas ||| Fld.badAccTick ||| Fld.leases ||| Fld.tide |||
         Fld.tickets ||| Fld.jobs ||| Fld.plans ||| Fld.acct ||| Fld.slu ||| Fld.ctxs ||| Fld.lines ||| Fld.tags ||| Fld.qps ||| Fld.ovf |||
         Fld.landing ||| Fld.rows ||| Fld.tiles ||| Fld.trims ||| Fld.weir ||| Fld.harbour ||| Fld.hbPoison ||| Fld.hbWritten ||| Fld.frames |||
         Fld.badSlots ||| Fld.owners ||| Fld.runs ||| Fld.imports ||| Fld.tests ||| Fld.flash ||| Fld.cal ||| Fld.flashq ||| Fld.ends |||
         Fld.rplChecks ||| Fld.wd ||| Fld.views ||| Fld.boot ||| Fld.tap) fun t =>
        t.hd ty inst = { x.setFence rq on with fenceWas := s.ownFenced ty inst, fenceEff := s.now + 1 } ∧
        t.fencing.contains (ty.val, inst.val) = true ∧ t.regs = s.regs)
  ∧ (∀ (rq : Requester) (v : Word) (s : State),
      s.pageReset 1 0 = false → s.stdWriter rq = true →
      Runs (.pendSelWrite rq v) s
        (Fld.raised ||| Fld.staged ||| Fld.heldWrites ||| Fld.fencing ||| Fld.pendWas ||| Fld.badAccTick ||| Fld.leases ||| Fld.tide |||
         Fld.tickets ||| Fld.jobs ||| Fld.plans ||| Fld.acct ||| Fld.slu ||| Fld.ctxs ||| Fld.lines ||| Fld.tags ||| Fld.qps ||| Fld.ovf |||
         Fld.landing ||| Fld.rows ||| Fld.tiles ||| Fld.trims ||| Fld.weir ||| Fld.harbour ||| Fld.hbPoison ||| Fld.hbWritten ||| Fld.frames |||
         Fld.badSlots ||| Fld.owners ||| Fld.runs ||| Fld.imports ||| Fld.tests ||| Fld.flash ||| Fld.cal ||| Fld.flashq ||| Fld.ends |||
         Fld.rplChecks ||| Fld.wd ||| Fld.views ||| Fld.boot ||| Fld.tap) fun t =>
        t.pendWas = (s.pendShown, s.now + 1) ∧
        t.reg Reg.TOP_PEND_SEL = (s.reg Reg.TOP_PEND_SEL &&& ~~~ regMask Reg.TOP_PEND_SEL) ||| (v &&& regMask Reg.TOP_PEND_SEL) ∧
        RegsOnly [Reg.TOP_PEND_SEL] s t)

/-- An RW1C write clears the written bits; an RC read gives the value and clears it; a low-word read latches the high word in the requester's shadow; a
low-word write is staged and a high-word write commits both; a plain write stores the writable fields; a write to a page in reset is held in arrival
order; an access to an unimplemented offset or of a wrong size or alignment counts, latches address and information, and reads 0. Readings that are
the model's choice: log entries 42, 84, 85, 87. (R8, R806, R808, R778) -/
def Obligations.RegisterAccess : Prop :=
  (∀ (rq : Requester) (a : Fin 268435456) (v : Word) (s : State),
      a.val < 0x5400000 → pageImplemented a = true → 0x40 ≤ adrOff a → isBank a = false → regAcc a = some .rw1c →
      s.pageReset (adrType a) (adrInst a) = false → s.mayWrite rq a v = true →
      Runs (.rw1cWrite rq a v) s
        (Fld.raised ||| Fld.staged ||| Fld.heldWrites ||| Fld.fencing ||| Fld.pendWas ||| Fld.badAccTick ||| Fld.leases ||| Fld.tide |||
         Fld.tickets ||| Fld.jobs ||| Fld.plans ||| Fld.acct ||| Fld.slu ||| Fld.ctxs ||| Fld.lines ||| Fld.tags ||| Fld.qps ||| Fld.ovf |||
         Fld.landing ||| Fld.rows ||| Fld.tiles ||| Fld.trims ||| Fld.weir ||| Fld.harbour ||| Fld.hbPoison ||| Fld.hbWritten ||| Fld.frames |||
         Fld.badSlots ||| Fld.owners ||| Fld.runs ||| Fld.imports ||| Fld.tests ||| Fld.flash ||| Fld.cal ||| Fld.flashq ||| Fld.ends |||
         Fld.rplChecks ||| Fld.wd ||| Fld.views ||| Fld.boot ||| Fld.tap) fun t =>
        t.reg a = s.reg a &&& ~~~ (v &&& regMask a) ∧ RegsOnly [a.val] s t)
  ∧ (∀ (rq : Requester) (a : Fin 268435456) (s : State),
      a.val < 0x5400000 → pageImplemented a = true → 0x40 ≤ adrOff a → isBank a = false → isLow a = false → isHigh a = false → regAcc a = some .rc →
      mayRead rq a = true →
      Runs (.rcRead rq a) s (Fld.raised ||| Fld.shadow ||| Fld.badAccTick ||| Fld.thm) fun t =>
        t.reg a = 0 ∧ t.out = .data (leBytes (s.val a).toNat 4) :: s.out ∧ RegsOnly [a.val] s t)
  ∧ (∀ (rq : Requester) (a : Fin 268435456) (s : State),
      a.val < 0x5400000 → pageImplemented a = true → isBank a = false → isLow a = false → isHigh a = false → adrOff a ≠ 0x28 → regAcc a ≠ some .rc →
      mayRead rq a = true →
      Runs (.rpRead rq a) s (Fld.raised ||| Fld.shadow ||| Fld.badAccTick ||| Fld.thm) fun t =>
        t.out = .data (leBytes (s.val a).toNat 4) :: s.out ∧ t.regs = s.regs ∧ t.hdr = s.hdr)
  ∧ (∀ (rq : Requester) (via : Bool) (a : Fin 268435456) (s : State),
      a.val < 0x5400000 → pageImplemented a = true → isLow a = true → mayRead rq a = true →
      Runs (.lowWordRead rq via a) s (Fld.raised ||| Fld.shadow ||| Fld.badAccTick ||| Fld.thm) fun t =>
        t.out = .data (leBytes (s.valFor rq via a).toNat 4) :: s.out ∧
        Store.get halfNone t.shadow (halfKey rq a) = { valid := true, low := a, word := s.valFor rq via (a + 4) } ∧ t.regs = s.regs)
  ∧ (∀ (rq : Requester) (via : Bool) (a : Fin 268435456) (v : Word) (d : Nat) (s : State),
      a.val < 0x5400000 → pageImplemented a = true → 0x40 ≤ adrOff a → isLow a = true → regAcc a = some .rw → s.target rq via a = some d →
      s.pageReset (adrType a) (adrInst a) = false → s.mayWrite rq a v = true →
      Runs (.lowWordWrite rq via a v) s
        (Fld.raised ||| Fld.staged ||| Fld.heldWrites ||| Fld.fencing ||| Fld.pendWas ||| Fld.badAccTick ||| Fld.leases ||| Fld.tide |||
         Fld.tickets ||| Fld.jobs ||| Fld.plans ||| Fld.acct ||| Fld.slu ||| Fld.ctxs ||| Fld.lines ||| Fld.tags ||| Fld.qps ||| Fld.ovf |||
         Fld.landing ||| Fld.rows ||| Fld.tiles ||| Fld.trims ||| Fld.weir ||| Fld.harbour ||| Fld.hbPoison ||| Fld.hbWritten ||| Fld.frames |||
         Fld.badSlots ||| Fld.owners ||| Fld.runs ||| Fld.imports ||| Fld.tests ||| Fld.flash ||| Fld.cal ||| Fld.flashq ||| Fld.ends |||
         Fld.rplChecks ||| Fld.wd ||| Fld.views ||| Fld.boot ||| Fld.tap) fun t =>
        Store.get halfNone t.staged (halfKey rq a) = { valid := true, low := d, word := v } ∧ t.regs = s.regs)
  ∧ (∀ (rq : Requester) (via : Bool) (a : Fin 268435456) (v : Word) (s : State),
      let k := halfKey rq a;
      let low := if (Store.get halfNone s.staged k).valid && (Store.get halfNone s.staged k).low = a.val - 4 then (Store.get halfNone s.staged k).word else s.reg (a.val - 4);
      a.val < 0x5400000 → pageImplemented a = true → 0x40 ≤ adrOff a → isBank a = false → isLow a = false → isHigh a = true → regAcc a = some .rw →
      a.val ≠ Reg.TID_PPS_BASE_LO + 4 → s.pageReset (adrType a) (adrInst a) = false → s.mayWrite rq a v = true →
      Runs (.highWordWrite rq via a v) s
        (Fld.raised ||| Fld.staged ||| Fld.heldWrites ||| Fld.fencing ||| Fld.pendWas ||| Fld.badAccTick ||| Fld.leases ||| Fld.tide |||
         Fld.tickets ||| Fld.jobs ||| Fld.plans ||| Fld.acct ||| Fld.slu ||| Fld.ctxs ||| Fld.lines ||| Fld.tags ||| Fld.qps ||| Fld.ovf |||
         Fld.landing ||| Fld.rows ||| Fld.tiles ||| Fld.trims ||| Fld.weir ||| Fld.harbour ||| Fld.hbPoison ||| Fld.hbWritten ||| Fld.frames |||
         Fld.badSlots ||| Fld.owners ||| Fld.runs ||| Fld.imports ||| Fld.tests ||| Fld.flash ||| Fld.cal ||| Fld.flashq ||| Fld.ends |||
         Fld.rplChecks ||| Fld.wd ||| Fld.views ||| Fld.boot ||| Fld.tap) fun t =>
        t.reg (a.val - 4) = (s.reg (a.val - 4) &&& ~~~ regMask (a.val - 4)) ||| (low &&& regMask (a.val - 4)) ∧
        t.reg a = (s.reg a &&& ~~~ regMask a) ||| (v &&& regMask a) ∧ RegsOnly [a.val - 4, a.val] s t)
  ∧ (∀ (rq : Requester) (via : Bool) (a : Fin 268435456) (v : Word) (env : WriteEnv) (s : State),
      a.val < 0x5400000 → pageImplemented a = true → 0x40 ≤ adrOff a → [5, 6, 20].contains (adrType a) = true → isLow a = false → isHigh a = false →
      regAcc a = some .rw → s.pageReset (adrType a) (adrInst a) = false → s.mayWrite rq a v = true →
      Runs (.regWrite rq via a v env) s
        (Fld.raised ||| Fld.staged ||| Fld.heldWrites ||| Fld.fencing ||| Fld.pendWas ||| Fld.badAccTick ||| Fld.leases ||| Fld.tide |||
         Fld.tickets ||| Fld.jobs ||| Fld.plans ||| Fld.acct ||| Fld.slu ||| Fld.ctxs ||| Fld.lines ||| Fld.tags ||| Fld.qps ||| Fld.ovf |||
         Fld.landing ||| Fld.rows ||| Fld.tiles ||| Fld.trims ||| Fld.weir ||| Fld.harbour ||| Fld.hbPoison ||| Fld.hbWritten ||| Fld.frames |||
         Fld.badSlots ||| Fld.owners ||| Fld.runs ||| Fld.imports ||| Fld.tests ||| Fld.flash ||| Fld.cal ||| Fld.flashq ||| Fld.ends |||
         Fld.rplChecks ||| Fld.wd ||| Fld.views ||| Fld.boot ||| Fld.tap) fun t =>
        t.reg a = (s.reg a &&& ~~~ regMask a) ||| (v &&& regMask a) ∧ RegsOnly [a.val] s t)
  ∧ (∀ (rq : Requester) (via : Bool) (a : Fin 268435456) (v : Word) (env : WriteEnv) (s : State),
      a.val < 0x5400000 → pageImplemented a = true → s.pageReset (adrType a) (adrInst a) = true →
      Runs (.regWrite rq via a v env) s
        (Fld.raised ||| Fld.staged ||| Fld.heldWrites ||| Fld.fencing ||| Fld.pendWas ||| Fld.badAccTick ||| Fld.leases ||| Fld.tide |||
         Fld.tickets ||| Fld.jobs ||| Fld.plans ||| Fld.acct ||| Fld.slu ||| Fld.ctxs ||| Fld.lines ||| Fld.tags ||| Fld.qps ||| Fld.ovf |||
         Fld.landing ||| Fld.rows ||| Fld.tiles ||| Fld.trims ||| Fld.weir ||| Fld.harbour ||| Fld.hbPoison ||| Fld.hbWritten ||| Fld.frames |||
         Fld.badSlots ||| Fld.owners ||| Fld.runs ||| Fld.imports ||| Fld.tests ||| Fld.flash ||| Fld.cal ||| Fld.flashq ||| Fld.ends |||
         Fld.rplChecks ||| Fld.wd ||| Fld.views ||| Fld.boot ||| Fld.tap) fun t =>
        t.heldWrites = s.heldWrites ++ [⟨rq, via, a.val, v, env⟩] ∧ t.regs = s.regs ∧ t.hdr = s.hdr)
  ∧ (∀ (rq : Requester) (a : Fin 268435456) (bytes : Fin 65) (write : Bool) (s : State),
      bytes.val = 4 → a.val % 4 = 0 → implementedFor rq a = false →
      Runs (.topBadAccess rq a bytes write) s (Fld.raised ||| Fld.badAccTick) fun t =>
        t.reg Reg.TOP_BAD_ACC_CNT = BitVec.ofNat 32 (satAdd 0xFFFFFFFF (s.reg Reg.TOP_BAD_ACC_CNT).toNat 1) ∧
        t.reg Reg.TOP_BAD_ACC_ADDR = BitVec.ofNat 32 a.val ∧ t.reg Reg.TOP_BAD_ACC_INFO = BitVec.ofNat 32 (Requester.info rq + b2n write * 256) ∧
        (s.warmHeld = false → s.badAccTick = none → t.rawBit 1 0 Ev.TOP_BAD_ACCESS = true) ∧
        (write = false → t.out.head? = some (.data [0, 0, 0, 0])) ∧ RegsBut [Reg.TOP_BAD_ACC_CNT, Reg.TOP_BAD_ACC_ADDR, Reg.TOP_BAD_ACC_INFO] s t)
  ∧ (∀ (rq : Requester) (a : Fin 268435456) (bytes : Fin 65) (write : Bool) (s : State),
      ((bytes.val = 4 ∨ bytes.val = 8) → a.val % bytes.val ≠ 0) →
      Runs (.topBadAccess rq a bytes write) s (Fld.raised ||| Fld.badAccTick) fun t =>
        t.reg Reg.TOP_BAD_ACC_INFO = BitVec.ofNat 32 (Requester.info rq + b2n write * 256 + 512) ∧
        (write = false → t.out.head? = some (.data (List.replicate bytes 0))) ∧
        RegsBut [Reg.TOP_BAD_ACC_CNT, Reg.TOP_BAD_ACC_ADDR, Reg.TOP_BAD_ACC_INFO] s t)

/-- A cap write stores the cap, recomputes pool and effective rates and raises SLUICE_CAP_CHANGE; CAP_WIN waits for the boundary of its new length with
window counts cleared; a window's end clears the counts and sets the allowances; a tick refills every account by its rate up to its depth, and
launches the ready ticket that is the sole candidate with its deadline; the voltage loop latches the least slack, raises the target by its step,
takes a voltage read back within 5 mV, repeats a write once and then stops with SLUICE_AVS_FAULT, and AVS_CTL restarts it. Readings that are the
model's choice: log entries 35, 94. (R569, R571, R542, R545, R554, R557, R558, R559) -/
def Obligations.SluiceAccountsAndVoltage : Prop :=
  (∀ (rq : Requester) (which : Fin 9) (v : Word) (s : State),
      let a := if which.val = 0 then Reg.SLU_CHIP_CAP else Reg.SLU_PCAP (which.val - 1);
      s.dpWriter rq = true → s.pageReset 7 0 = false → s.warmHeld = false → s.profile.parts.length ≤ 8 →
      Runs (.capWrite rq which v) s (Fld.raised ||| Fld.heldWrites ||| Fld.acct) fun t =>
        t.reg a = (s.plainWrite a v).reg a ∧
        t.reg Reg.SLU_CHIP_RATE = BitVec.ofNat 32 (t.chipPool 0 s.slu.vForce + t.chipPool 1 s.slu.vForce * 65536) ∧
        (∀ k : Nat, k < s.profile.parts.length → (t.ac k).rateA = t.effRate k 0 s.slu.vForce ∧ (t.ac k).rateC = t.effRate k 1 s.slu.vForce) ∧
        t.rawBit 7 0 Ev.SLUICE_CAP_CHANGE = true)
  ∧ (∀ (rq : Requester) (v : Word) (s : State),
      s.dpWriter rq = true → s.pageReset 7 0 = false →
      Runs (.capWinWrite rq v) s (Fld.regs ||| Fld.heldWrites ||| Fld.acct ||| Fld.slu) fun t =>
        t.reg Reg.SLU_CTL = (s.plainWrite Reg.SLU_CTL v).reg Reg.SLU_CTL ∧
        (t.capWin ≠ s.capWin → t.slu.winPend = true ∧ ∀ k : Nat, k < s.profile.parts.length → (t.ac k).wA = 0 ∧ (t.ac k).wC = 0) ∧
        (t.capWin = s.capWin → t.acct = s.acct ∧ t.slu = s.slu) ∧ RegsOnly [Reg.SLU_CTL] s t)
  ∧ (∀ (s : State),
      s.now % s.capWin = 0 → s.slu.winTick ≠ s.now →
      Runs .capWindowEnd s (Fld.acct ||| Fld.slu) fun t =>
        t.slu = { s.slu with winTick := s.now, winPend := false } ∧
        (∀ k : Nat, k < s.profile.parts.length → (t.ac k).wA = 0 ∧ (t.ac k).wC = 0 ∧ (t.ac k).allowA = (s.ac k).rateA * s.capWin ∧
          (t.ac k).allowC = (s.ac k).rateC * s.capWin) ∧
        (∀ k : Nat, k < s.profile.parts.length → (t.ac k).lvlA = (s.ac k).lvlA ∧ (t.ac k).lvlC = (s.ac k).lvlC))
  ∧ (∀ (s : State),
      s.slu.refill ≠ some s.now → s.tickets = [] →
      Runs .sluiceTick s (Fld.raised ||| Fld.tickets ||| Fld.acct ||| Fld.slu) fun t =>
        t.slu.refill = some s.now ∧
        (∀ k : Nat, k < s.profile.parts.length → (t.ac k).lvlA = min ((s.ac k).lvlA + (s.ac k).rateA) (s.ac k).depthA ∧
          (t.ac k).lvlC = min ((s.ac k).lvlC + (s.ac k).rateC) (s.ac k).depthC))
  ∧ (∀  (k : Nat) (s : State),
      let x := s.tkAt k;
      s.slu.refill = some s.now → s.now % s.capWin ≠ 0 → s.profile.parts.length = 1 → s.candidates 0 = [k] → s.ready k x = true →
      s.unitFenced k x = false → (s.grant (k / 256) (s.cost k x)).isSome = true → s.runOf x = none → x.uclass = 3 →
      Runs .sluiceTick s (Fld.raised ||| Fld.tickets ||| Fld.acct ||| Fld.slu) fun t =>
        (t.tkAt k).state = 3 ∧ (t.tkAt k).launch = s.now ∧ (t.tkAt k).deadline = s.now + x.dln)
  ∧ (∀ (s : State),
      s.now % 2 ^ (10 + s.getF Reg.SLU_AVS_CTL 4 4) = 0 →
      Runs .avsWindowEnd s (Fld.raised ||| Fld.acct ||| Fld.slu) fun t =>
        t.getF Reg.SLU_SLK_AVS 0 16 = twos 16 (clampI (-32768) 32767 s.slu.avsMin) ∧ t.slu.avsMin = 32767 ∧
        (s.slu.busy.isSome = true ∨ s.getF Reg.BOOT_STS 0 4 < 6 → t.slu = { s.slu with avsMin := 32767 } ∧ t.acct = s.acct))
  ∧ (∀ (s : State),
      let v := s.vTarget;
      let n := min s.profile.vmax (max s.vFloor (v + s.avsStep));
      s.now % 2 ^ (10 + s.getF Reg.SLU_AVS_CTL 4 4) = 0 → s.slu.busy = none → 6 ≤ s.getF Reg.BOOT_STS 0 4 → s.getB Reg.SLU_AVS_STS 30 = false →
      s.getB Reg.SLU_AVS_CTL 0 = true → s.vFloor ≤ v → s.slu.avsMin ≠ 32767 → s.slu.avsMin < (s.getF Reg.SLU_AVS_CTL 16 8 : Nat) → v < n → n < 4096 →
      s.chipCap 1 = 0 →
      Runs .avsWindowEnd s (Fld.raised ||| Fld.acct ||| Fld.slu) fun t =>
        t.vTarget = n ∧ t.slu.busy = some s.now ∧ t.slu.retried = false ∧ t.getB Reg.SLU_AVS_STS 31 = true ∧ t.slu.vForce = max s.slu.vForce n ∧
        t.out.head? = some (.avsWrite n))
  ∧ (∀ (mv : Fin 4096) (s : State),
      s.slu.busy.isSome = true →
      Runs (.avsReadback mv) s (Fld.raised ||| Fld.acct ||| Fld.slu) fun t =>
        t.getF Reg.SLU_AVS_STS 0 12 = mv.val ∧
        (mv.val ≤ s.vTarget + 5 ∧ s.vTarget ≤ mv.val + 5 → t.slu.busy = none ∧ t.slu.vForce = max mv.val s.vTarget ∧
          t.getB Reg.SLU_AVS_STS 31 = false) ∧
        (¬ (mv.val ≤ s.vTarget + 5 ∧ s.vTarget ≤ mv.val + 5) → t.slu.busy = s.slu.busy ∧ t.slu.vForce = max s.slu.vForce mv.val))
  ∧ (∀  (c : Nat) (s : State),
      s.slu.busy = some c → c + 12500 ≤ s.now → s.slu.retried = false →
      Runs .sluiceAvsFault s (Fld.raised ||| Fld.acct ||| Fld.slu) fun t =>
        t.slu = { s.slu with busy := some s.now, retried := true } ∧ t.out = .avsWrite s.vTarget :: s.out ∧ t.regs = s.regs)
  ∧ (∀  (c : Nat) (s : State),
      s.slu.busy = some c → c + 12500 ≤ s.now → s.slu.retried = true → s.warmHeld = false →
      Runs .sluiceAvsFault s (Fld.raised ||| Fld.acct ||| Fld.slu) fun t =>
        t.slu.busy = none ∧ t.getB Reg.SLU_AVS_STS 30 = true ∧ t.vTarget = s.vOut ∧ t.rawBit 7 0 Ev.SLUICE_AVS_FAULT = true)
  ∧ (∀ (rq : Requester) (v : Word) (s : State),
      s.dpWriter rq = true → s.pageReset 7 0 = false →
      Runs (.avsCtlWrite rq v) s (Fld.regs ||| Fld.heldWrites ||| Fld.slu) fun t =>
        t.reg Reg.SLU_AVS_CTL = (s.plainWrite Reg.SLU_AVS_CTL v).reg Reg.SLU_AVS_CTL ∧
        (s.getB Reg.SLU_AVS_CTL 0 = false → t.getB Reg.SLU_AVS_CTL 0 = true → t.slu.ample = 0 ∧ t.getB Reg.SLU_AVS_STS 30 = false) ∧
        RegsOnly [Reg.SLU_AVS_CTL, Reg.SLU_AVS_STS] s t)

/-- A decision by launch + 48 leases the tiles it chose and sets the operation's start, reason and owners, or lets the call wait where no tile is free;
from launch + 48 the default tiling runs with DYN_DEFAULT; a waiting call takes the first free tile with DYN_WAIT; a block's prepare pass holds the
port for its ticks; a row write stores the row's levels and counts it; a pulse enters its pulse and DESCALE tickets; an expired lease raises
DYN_REVOKED, ends the operation and frees its ticket. Readings that are the model's choice: log entries 23, 37. (R404, R406, R407, R393, R392, R396,
R417) -/
def Obligations.DynamicOperands : Prop :=
  (∀ (isl : Isl) (idx : TktIx) (s : State),
      let k := isl.val * 256 + idx.val;
      let x := s.tkAt k;
      let d := s.dynP isl x;
      let fr := (maskTiles (at0 0 x.call 0)).filter (s.poolFree isl);
      let c := d.choose x.slot (if x.mvmMode = 1 then 52 else 40) fr.length (at0 0 x.call 1) (at0 0 x.call 2);
      s.dynOpen k x = true → s.dynFirst k x = true → s.now ≤ x.launch + 48 → c.2 ≠ 4 →
      Runs (.dynDecision isl idx) s (Fld.raised ||| Fld.leases ||| Fld.rows ||| Fld.tiles ||| Fld.dyns) fun t =>
        (Store.get dynNone t.dyns k).t0 = x.launch ∧ (Store.get dynNone t.dyns k).reason = c.2 ∧
        (Store.get dynNone t.dyns k).pos.map (·.tile) = fr.take c.1 ∧ (Store.get dynNone t.dyns k).total = d.blocks * d.m ∧
        (∀ y ∈ fr.take c.1, t.getF (Reg.ISL_DYN_OWNER isl) (8 * (y - 12)) 8 = (x.ctx + 128) % 256) ∧
        (t.leases.map (fun l => (l.res, l.unit)) = s.leases.map (fun l => (l.res, l.unit)) ++ (fr.take c.1).map fun y => (4, isl.val * 16 + y)) ∧
        t.getB (Reg.ISL_DYN_CFG isl) 8 = true ∧ t.getF (Reg.ISL_DYN_LAST isl) 0 3 = c.1 % 8 ∧ t.getF (Reg.ISL_DYN_LAST isl) 8 3 = c.2 % 8)
  ∧ (∀ (isl : Isl) (idx : TktIx) (s : State),
      let k := isl.val * 256 + idx.val;
      let x := s.tkAt k;
      let d := s.dynP isl x;
      s.dynOpen k x = true → s.dynFirst k x = true → s.now ≤ x.launch + 48 → (maskTiles (at0 0 x.call 0)).filter (s.poolFree isl) = [] →
      Runs (.dynDecision isl idx) s (Fld.raised ||| Fld.leases ||| Fld.rows ||| Fld.tiles ||| Fld.dyns) fun t =>
        Store.get dynNone t.dyns k = { reason := 4, waiting := true, total := d.blocks * d.m } ∧ t.getF (Reg.ISL_DYN_LAST isl) 8 3 = 4 ∧
        t.leases = s.leases)
  ∧ (∀ (isl : Isl) (idx : TktIx) (s : State),
      let k := isl.val * 256 + idx.val;
      let x := s.tkAt k;
      let n := min (min (s.dynP isl x).tref (s.dynP isl x).blocks) (s.freePool isl).length;
      s.dynOpen k x = true → s.dynFirst k x = true → x.launch + 48 ≤ s.now → (x.state = 3 ∨ x.state = 4) → n ≠ 0 → s.warmHeld = false →
      Runs (.dynDefault isl idx) s (Fld.raised ||| Fld.leases ||| Fld.rows ||| Fld.tiles ||| Fld.dyns) fun t =>
        (Store.get dynNone t.dyns k).t0 = x.launch ∧ (Store.get dynNone t.dyns k).reason = 5 ∧
        (Store.get dynNone t.dyns k).pos.map (·.tile) = (s.freePool isl).take n ∧ t.rawBit 3 isl Ev.DYN_DEFAULT = true ∧
        (t.leases.map (fun l => (l.res, l.unit)) = s.leases.map (fun l => (l.res, l.unit)) ++ ((s.freePool isl).take n).map fun y => (4,
          isl.val * 16 + y)))
  ∧ (∀ (isl : Isl) (idx : TktIx) (y : Nat) (ys : List Nat) (s : State),
      let k := isl.val * 256 + idx.val;
      s.freePool isl = y :: ys → (Store.get dynNone s.dyns k).waiting = true → (s.dyns.any fun e => e.1 / 256 = isl.val && e.1 ≠ k) = false →
      s.warmHeld = false →
      Runs (.dynWait isl idx) s (Fld.raised ||| Fld.leases ||| Fld.rows ||| Fld.tiles ||| Fld.dyns) fun t =>
        (Store.get dynNone t.dyns k).waiting = false ∧ (Store.get dynNone t.dyns k).t0 = max s.now (s.tkAt k).launch ∧
        (Store.get dynNone t.dyns k).pos.map (·.tile) = [y] ∧
        t.leases.map (fun l => (l.res, l.unit)) = s.leases.map (fun l => (l.res, l.unit)) ++ [(4, isl.val * 16 + y)] ∧
        t.rawBit 3 isl Ev.DYN_WAIT = true)
  ∧ (∀ (isl : Isl) (idx : TktIx) (q : Fin 4) (p : DynPos) (v : Nat) (vs : List Nat) (s : State),
      let k := isl.val * 256 + idx.val;
      let x := s.tkAt k;
      let d := s.dynP isl x;
      let r := Store.get dynNone s.dyns k;
      s.dynLive k = true → (r.pos.any fun p => !p.lost && s.tileFenced (isl.val * 16 + p.tile)) = false → r.pos[q.val]? = some p → p.todo = v :: vs →
      p.lost = false → p.prep = none → p.cur = none → (r.pos.any fun x => !x.lost && x.todo.any fun y => y < v) = false → max r.port p.wend ≤ s.now →
      Runs (.dynPrepare isl idx q) s
        (Fld.raised ||| Fld.leases ||| Fld.tickets ||| Fld.jobs ||| Fld.ctxs ||| Fld.basin ||| Fld.lines ||| Fld.imports ||| Fld.dyns ||| Fld.ends) fun t =>
        (Store.get dynNone t.dyns k).port = s.now + d.prepTicks v ∧
        ((Store.get dynNone t.dyns k).pos[q.val]?).map (fun p => (p.prep, p.todo, p.pScales)) = some (some (v, s.now + d.prepTicks v), vs,
          dynUnits d v (s.dynSource isl x d v)))
  ∧ (∀ (isl : Isl) (idx : TktIx) (q : Fin 4) (p : DynPos) (v e : Nat) (s : State),
      let k := isl.val * 256 + idx.val;
      let x := s.tkAt k;
      let d := s.dynP isl x;
      let r := Store.get dynNone s.dyns k;
      let gt := isl.val * 16 + p.tile;
      s.dynLive k = true → (r.pos.any fun p => !p.lost && s.tileFenced (isl.val * 16 + p.tile)) = false → r.pos[q.val]? = some p → p.cur = some v →
      p.lost = false → p.rows < d.kin → p.entry = e + 1 → s.tileBusy gt = false → (p.rows = 0 ∨ p.lastRow + 5 ≤ s.now) → s.locked gt = true →
      (s.grant isl (1, 1)).isSome = true →
      Runs (.dynSubRowWrite isl idx q) s
        (Fld.raised ||| Fld.leases ||| Fld.tickets ||| Fld.jobs ||| Fld.acct ||| Fld.ctxs ||| Fld.rows ||| Fld.tiles ||| Fld.imports ||| Fld.dyns |||
         Fld.ends) fun t =>
        (t.row gt p.rows).valid = true ∧ (t.row gt p.rows).levels.take 512 = (s.dynRow isl x d q v p.rows p.cScales).1 ∧
        ((Store.get dynNone t.dyns k).pos[q.val]?).map (fun p => (p.rows, p.lastRow)) = some (p.rows + 1, s.now) ∧
        (p.rows + 1 = d.kin → (t.tk isl e).state = 0))
  ∧ (∀ (isl : Isl) (idx : TktIx) (q : Fin 4) (errs : List (Nat × Int)) (p : DynPos) (v : Nat) (s : State),
      let k := isl.val * 256 + idx.val;
      let x := s.tkAt k;
      let d := s.dynP isl x;
      let r := Store.get dynNone s.dyns k;
      let gt := isl.val * 16 + p.tile;
      let free := (List.range 256).filter fun i => (s.tk isl i).state = 0;
      s.dynLive k = true → (r.pos.any fun p => !p.lost && s.tileFenced (isl.val * 16 + p.tile)) = false → r.pos[q.val]? = some p → p.cur = some v →
      p.lost = false → p.redo = 0 → p.pulses < d.m → d.kin ≤ p.rows → 2 ≤ free.length →
      (if p.pulses = 0 then residueTick r.t0 x.slot q p.wend else p.lastPulse + x.slot) ≤ s.now → s.tileBusy gt = false →
      (s.grant isl (if x.mvmMode = 1 then (52, 12) else (40, 8))).isSome = true →
      Runs (.dynSubPulse isl idx q errs) s
        (Fld.raised ||| Fld.leases ||| Fld.tickets ||| Fld.jobs ||| Fld.acct ||| Fld.ctxs ||| Fld.imports ||| Fld.dyns ||| Fld.ends) fun t =>
        (t.tk isl (free.headD 0)).action = 0x31 ∧ (t.tk isl (free.headD 0)).state = 3 ∧ (t.tk isl (free.headD 0)).ran = true ∧
        (t.tk isl ((free.drop 1).headD 0)).action = 0x10 ∧ (t.tk isl ((free.drop 1).headD 0)).launch = s.now + x.slot ∧
        (t.tk isl ((free.drop 1).headD 0)).deps = [isl.val * 256 + free.headD 0] ∧
        ((Store.get dynNone t.dyns k).pos[q.val]?).map (fun p => (p.pulses, p.lastPulse)) = some (p.pulses + 1, s.now))
  ∧ (∀ (gt : Tile) (k : Nat) (r : DynRun) (s : State),
      (s.leases.any fun l => l.res = 4 && l.unit = gt && decide (l.expiry ≤ s.now)) = true → s.getB Reg.DBG_CTL 0 = false →
      s.dyns.find? (fun e => e.1 / 256 = gt.val / 16 && e.2.pos.any fun p => p.tile = gt.val % 16) = some (k, r) → s.warmHeld = false →
      Runs (.dynRevoked gt) s
        (Fld.raised ||| Fld.leases ||| Fld.tickets ||| Fld.acks ||| Fld.jobs ||| Fld.plans ||| Fld.acct ||| Fld.ctxs ||| Fld.qps ||| Fld.landing |||
         Fld.rows ||| Fld.tiles ||| Fld.harbour ||| Fld.hbPoison ||| Fld.hbWritten ||| Fld.frames ||| Fld.badSlots ||| Fld.owners ||| Fld.runs |||
         Fld.dyns ||| Fld.tests ||| Fld.cal ||| Fld.ends ||| Fld.rplChecks ||| Fld.lost) fun t =>
        t.rawBit 3 (gt.val / 16) Ev.DYN_REVOKED = true ∧ (t.leases.any fun l => l.res = 4 && l.unit = gt) = false ∧ (t.tkAt k).state = 0 ∧
        Store.get dynNone t.dyns k = {})

/-- A fetch within LEAD × 16 ticks of the launch starts a run with the bytes of its slot or cistern unit, a second fetch ends its entry and lists a bad
slot; a cistern error fails the run on every island with FRY_CIST_ERR; delivered bytes are recorded up to what the island can reach, and a header
that does not fit fails it with FRY_SHARD_AUTH; a WRITE_TILES ticket launches with its deadline; a delivered row is written to every tile of the run
with its levels and stamp; a shard is marked verified, or fails with FRY_SHARD_AUTH or FRY_SHARD_DIGEST. Readings that are the model's choice: log
entries 29, 53, 54. (R615, R592, R618, R619, R620) -/
def Obligations.FerryRuns : Prop :=
  (∀ (j h cmd : Nat) (data : List Byte) (ok : Bool) (x : FerryRun) (l : Nat) (s : State),
      s.refetch = [] → s.runSpec j h cmd = some (x, l) → l ≤ s.now + 16 * max 1 (s.getF Reg.FRY_CTL 8 8) →
      (s.runs.any fun e => e.2.job = j && e.2.plan = h && (if h = 0 then e.2.gt = cmd else e.2.cmd = cmd)) = false →
      (x.cist = true ∨ s.badSlots.contains (s.runSlot x) = false) →
      Runs (.ferryFetch j h cmd data ok) s
        (Fld.raised ||| Fld.leases ||| Fld.tickets ||| Fld.jobs ||| Fld.ctxs ||| Fld.rows ||| Fld.tiles ||| Fld.badSlots ||| Fld.runs |||
         Fld.nextRun ||| Fld.refetch ||| Fld.imports ||| Fld.ends) fun t =>
        t.nextRun = s.nextRun + 1 ∧
        t.run s.nextRun = (if x.cist then { x with buf := padTo shardLen data } else { x with buf := (s.slotBytes x).1, poison := (s.slotBytes x).2 }))
  ∧ (∀ (j h cmd : Nat) (data : List Byte) (ok : Bool) (f : Nat × Nat × Nat × Nat) (s : State),
      (s.refetch.find? fun f => f.1 = h && (if h = 0 then f.2.2.1 = (if j = 0 && h = 0 then cmd else 0) else f.2.1 = cmd)) = some f →
      Runs (.ferryFetch j h cmd data ok) s
        (Fld.raised ||| Fld.leases ||| Fld.tickets ||| Fld.jobs ||| Fld.ctxs ||| Fld.rows ||| Fld.tiles ||| Fld.badSlots ||| Fld.runs |||
         Fld.nextRun ||| Fld.refetch ||| Fld.imports ||| Fld.ends) fun t =>
        t.refetch = s.refetch.erase f ∧
        t.badSlots = (if ok || s.badSlots.contains f.2.2.2 || 1024 ≤ s.badSlots.length then s.badSlots else s.badSlots ++ [f.2.2.2]) ∧ t.runs = s.runs)
  ∧ (∀ (r : Nat) (s : State),
      (s.run r).cist = true → (s.run r).failed = [] → s.warmHeld = false →
      Runs (.fryCistErr r) s
        (Fld.raised ||| Fld.leases ||| Fld.tickets ||| Fld.jobs ||| Fld.ctxs ||| Fld.rows ||| Fld.tiles ||| Fld.runs ||| Fld.imports ||| Fld.ends) fun t =>
        t.rawBit 6 0 Ev.FRY_CIST_ERR = true ∧ (∀ i ∈ s.runIslands (s.run r), (t.run r).bad i = true))
  ∧ (∀ (r : Nat) (isl : Isl) (n : Nat) (s : State),
      let x := s.run r;
      let m := min n (s.reach x isl);
      (s.runIslands x).contains isl.val = true → x.copies = false → s.islFenced isl = false → x.bad isl = false → cnt x.arrived isl < m →
      (64 ≤ cnt x.arrived isl ∨ m < 64 ∨ x.hdrOk = true) → (x.poison.any fun l => 64 * l < m) = false →
      Runs (.ferryDelivery r isl n) s
        (Fld.raised ||| Fld.leases ||| Fld.tickets ||| Fld.jobs ||| Fld.ctxs ||| Fld.rows ||| Fld.tiles ||| Fld.runs ||| Fld.refetch |||
         Fld.imports ||| Fld.ends) fun t =>
        t.run r = { x with arrived := Store.put flagZero x.arrived isl m })
  ∧ (∀ (r : Nat) (isl : Isl) (n : Nat) (s : State),
      let x := s.run r;
      let m := min n (s.reach x isl);
      (s.runIslands x).contains isl.val = true → x.copies = false → s.islFenced isl = false → x.bad isl = false → cnt x.arrived isl < 64 → 64 ≤ m →
      x.hdrOk = false → s.warmHeld = false →
      Runs (.ferryDelivery r isl n) s
        (Fld.raised ||| Fld.leases ||| Fld.tickets ||| Fld.jobs ||| Fld.ctxs ||| Fld.rows ||| Fld.tiles ||| Fld.runs ||| Fld.refetch |||
         Fld.imports ||| Fld.ends) fun t =>
        (t.run r).bad isl = true ∧ t.rawBit 6 0 Ev.FRY_SHARD_AUTH = true)
  ∧ (∀ (isl : Isl) (idx : TktIx) (s : State),
      let x := s.tk isl idx;
      x.action = 7 → x.uclass = 3 → x.uindex < 4 → (x.state = 1 ∨ x.state = 2) → x.launch ≤ s.now →
      s.candidates (s.acctOf isl) = [isl.val * 256 + idx.val] → s.ready (isl.val * 256 + idx.val) x = true →
      s.unitFenced (isl.val * 256 + idx.val) x = false → s.runOf x = none →
      Runs (.writeTiles isl idx) s (Fld.raised ||| Fld.tickets ||| Fld.acct) fun t =>
        (t.tk isl idx).state = 3 ∧ (t.tk isl idx).launch = s.now ∧ (t.tk isl idx).deadline = s.now + x.dln ∧ (t.tk isl idx).noAct = false)
  ∧ (∀ (isl : Isl) (idx : TktIx) (plain : List Byte) (r : Nat) (s : State),
      let x := s.run r;
      let k := isl.val * 256 + idx.val;
      let i := cnt x.rows isl;
      let g := s.runTiles x isl;
      s.runOf (s.tkAt k) = some (r, x) → ((s.tkAt k).state = 3 ∨ (s.tkAt k).state = 4) → (s.tkAt k).noAct = false → (s.tkAt k).ran = false →
      x.copies = false → x.bad isl = false → i < 1024 → (i = 0 ∧ (s.tkAt k).launch ≤ s.now ∨ i ≠ 0 ∧ cnt x.lastRow isl + 5 ≤ s.now) →
      64 + 384 * (i + 1) ≤ cnt x.arrived isl → (g.all fun t => s.tileFree t i && s.locked t && !s.tileFenced t && !x.skipped.contains t) = true →
      (s.grant isl (g.length, 4)).isSome = true → x.verified.contains isl.val = false →
      Runs (.ferryRowWrite isl idx plain) s
        (Fld.raised ||| Fld.leases ||| Fld.tickets ||| Fld.jobs ||| Fld.acct ||| Fld.ctxs ||| Fld.rows ||| Fld.tiles ||| Fld.runs ||| Fld.refetch |||
         Fld.imports ||| Fld.ends) fun t =>
        (∀ t' ∈ g, (t.row t' i).valid = true ∧ (t.row t' i).levels.take 512 = rowLevels plain ∧ (t.row t' i).stamp = s.now) ∧
        cnt (t.run r).rows isl = i + 1)
  ∧ (∀ (isl : Isl) (idx : TktIx) (tagOk digestOk : Bool) (r : Nat) (s : State),
      let x := s.run r;
      s.runOf (s.tk isl idx) = some (r, x) → ((s.tk isl idx).state = 3 ∨ (s.tk isl idx).state = 4) → (s.tk isl idx).noAct = false → x.copies = false →
      x.bad isl = false → shardLen ≤ cnt x.arrived isl → x.verified.contains isl.val = false → s.warmHeld = false →
      Runs (.ferryVerify isl idx tagOk digestOk) s
        (Fld.raised ||| Fld.leases ||| Fld.tickets ||| Fld.jobs ||| Fld.ctxs ||| Fld.rows ||| Fld.tiles ||| Fld.runs ||| Fld.refetch |||
         Fld.imports ||| Fld.ends) fun t =>
        (tagOk = true → digestOk = true → (t.run r).verified.contains isl.val = true) ∧
        (tagOk = false → (t.run r).bad isl = true ∧ t.rawBit 6 0 Ev.FRY_SHARD_AUTH = true) ∧
        (tagOk = true → digestOk = false → (t.run r).bad isl = true ∧ t.rawBit 6 0 Ev.FRY_SHARD_DIGEST = true))

/-- MOVE copies harbour blocks into basin lines and back and its ticket has run; a harbour read raises HBR_CE, HBR_UE or HBR_CHK and poisons the lines
it cannot correct; more corrections in a second than CE_STORM set the flag and raise HBR_CE_STORM; a patrol pass counts; a scrub pass records its
slots and time and raises FRY_SCRUB_LATE when too long; a replacement goes on to its next layer and ends with FRY_SWAP_DONE. Readings that are the
model's choice: log entries 54, 55, 57. (R613, R584, R583, R589, R606, R628) -/
def Obligations.HarbourAndScrub : Prop :=
  (∀ (isl : Isl) (idx : TktIx) (bad : List Nat) (s : State),
      let x := s.tk isl idx;
      x.toRun 7 = true → leAt x.rop 0 1 = 2 →
      Runs (.hbToBasin isl idx bad) s
        (Fld.raised ||| Fld.leases ||| Fld.tickets ||| Fld.jobs ||| Fld.acct ||| Fld.ctxs ||| Fld.basin ||| Fld.lines ||| Fld.imports ||| Fld.ends) fun t =>
        (t.tk isl idx).ran = true ∧ t.basin = (s.blocksIn isl x (cmdMember x.rop 0).2 (leAt x.rop 16 4 / 4096) bad).1.basin ∧
        t.lines = (s.blocksIn isl x (cmdMember x.rop 0).2 (leAt x.rop 16 4 / 4096) bad).1.lines)
  ∧ (∀ (isl : Isl) (idx : TktIx) (bad : List Nat) (s : State),
      let x := s.tk isl idx;
      x.toRun 7 = true → leAt x.rop 0 1 = 3 →
      Runs (.basinToHb isl idx bad) s
        (Fld.raised ||| Fld.leases ||| Fld.tickets ||| Fld.jobs ||| Fld.acct ||| Fld.ctxs ||| Fld.harbour ||| Fld.hbPoison ||| Fld.hbWritten |||
         Fld.imports ||| Fld.ends) fun t =>
        (t.tk isl idx).ran = true ∧ t.harbour = (s.blocksOut isl x (cmdMember x.rop 0).2 (leAt x.rop 16 4 / 4096) bad).1.harbour ∧
        t.hbPoison = (s.blocksOut isl x (cmdMember x.rop 0).2 (leAt x.rop 16 4 / 4096) bad).1.hbPoison)
  ∧ (∀ (blk ce : Nat) (ue : List (Fin 64)) (chk : Bool) (src : Fin 7) (s : State),
      blk < 37748736 → s.warmHeld = false →
      Runs (.harbourReadDone blk ce ue chk src) s (Fld.raised ||| Fld.hbPoison ||| Fld.runs ||| Fld.hbr) fun t =>
        (ce ≠ 0 → t.rawBit 5 (blk % 6) Ev.HBR_CE = true) ∧ (ue ≠ [] → t.rawBit 5 (blk % 6) Ev.HBR_UE = true) ∧
        (chk = true → t.rawBit 5 (blk % 6) Ev.HBR_CHK = true) ∧ (∀ l ∈ ue, t.hbPois blk l = true))
  ∧ (∀ (h : Stack) (s : State),
      let storm := decide (s.getF (Reg.HBR_CTL h) 16 16 < ((s.hbx h).ces.filter fun t => s.now < t + second).length);
      s.warmHeld = false →
      Runs (.hbrCeStorm h) s Fld.raised fun t =>
        t.getB (Reg.HBR_STS h) 2 = storm ∧ (storm = true → s.getB (Reg.HBR_STS h) 2 = false → t.rawBit 5 h Ev.HBR_CE_STORM = true) ∧
        RegsBut [Reg.HBR_STS h] s t)
  ∧ (∀ (h : Stack) (s : State),
      s.getB (Reg.HBR_CTL h) 0 = true → s.getB (Reg.HBR_STS h) 1 = false → (s.hbx h).last + s.patrolTicks h ≤ s.now →
      Runs (.patrolPass h) s (Fld.regs ||| Fld.hbr) fun t =>
        (t.hbx h).last = s.now ∧ t.getF (Reg.HBR_PATROL_STS h) 16 16 = (s.getF (Reg.HBR_PATROL_STS h) 16 16 + 1) % 65536 ∧
        RegsOnly [Reg.HBR_PATROL_STS h] s t)
  ∧ (∀ (bad : List Nat) (ms : Nat) (s : State),
      s.getF Reg.FRY_CTL 0 8 ≠ 0 → s.scrubFrom + s.getF Reg.FRY_CTL 0 8 * second ≤ s.now → s.warmHeld = false →
      Runs (.scrubPass bad ms) s (Fld.raised ||| Fld.badSlots ||| Fld.scrubFrom) fun t =>
        t.scrubFrom = s.now ∧ t.reg Reg.FRY_SCRUB_LAST = BitVec.ofNat 32 ms ∧ t.getF Reg.FRY_SCRUB_STS 0 24 = s.allSlots.length % 2 ^ 24 ∧
        t.getB Reg.FRY_SCRUB_STS 24 = decide (s.getF Reg.FRY_CTL 0 8 * 1000 < ms) ∧
        (s.getF Reg.FRY_CTL 0 8 * 1000 < ms → t.rawBit 6 0 Ev.FRY_SCRUB_LATE = true))
  ∧ (∀ (c : Ctx) (w : Swap) (s : State),
      s.swapOf c = some w → w.running = false → w.st ≠ 3 → 0 < w.layer → w.layer ≤ (s.plan w.new).layers → s.allPassed w.old w.layer = true →
      (s.plan w.new).onceOf w.layer = [] → s.failedOnce w.new = [] →
      (s.tickets.any fun e => e.2.action = 7 && e.2.job = 0 && e.2.plan = w.new) = false →
      Runs (.swapLayerRewrite c) s
        (Fld.raised ||| Fld.leases ||| Fld.tickets ||| Fld.jobs ||| Fld.plans ||| Fld.acct ||| Fld.ctxs ||| Fld.qps ||| Fld.landing ||| Fld.rows |||
         Fld.tiles ||| Fld.harbour ||| Fld.hbPoison ||| Fld.hbWritten ||| Fld.frames ||| Fld.badSlots ||| Fld.owners ||| Fld.runs ||| Fld.swaps |||
         Fld.ends) fun t =>
        (t.swapOf c).map (·.layer) = some (w.layer + 1) ∧ (t.swapOf c).map (·.running) = some false ∧
        (w.closed = false → (t.swapOf c).map (·.st) = some 2))
  ∧ (∀ (c : Ctx) (w : Swap) (s : State),
      s.swapOf c = some w → w.running = false → w.st = 2 → ((s.plan w.new).layers = 0 ∨ (s.plan w.new).layers < w.layer) →
      (w.old = 0 ∨ s.inFlight w.old = []) → s.warmHeld = false →
      Runs (.frySwapDone c) s
        (Fld.raised ||| Fld.leases ||| Fld.tickets ||| Fld.jobs ||| Fld.plans ||| Fld.acct ||| Fld.ctxs ||| Fld.qps ||| Fld.landing ||| Fld.rows |||
         Fld.tiles ||| Fld.harbour ||| Fld.hbPoison ||| Fld.hbWritten ||| Fld.frames ||| Fld.badSlots ||| Fld.owners ||| Fld.runs ||| Fld.swaps |||
         Fld.ends) fun t =>
        t.rawBit 6 0 Ev.FRY_SWAP_DONE = true ∧ t.swapOf c = none ∧ t.getF Reg.FRY_SWAP_STS 0 4 = 0)

/-- The link up shows rate and width; the link down disables every queue pair. SQ_TAIL records a tail in range and is refused while the reserve is full;
CQ_HEAD frees entries. An entry is fetched and checked, and becomes a job or a completion with its error. CREATE enables a queue pair with its
configuration or is refused; DELETE stops fetching. Readings that are the model's choice: log entries 61, 62, 63. (R714, R771, R759, R758, R731,
R729, R730) -/
def Obligations.QueuesAndDoorbells : Prop :=
  (∀ (speed : Fin 7) (width : Fin 17) (flit : Bool) (s : State),
      3 ≤ speed.val → (width.val = 4 ∨ width.val = 8 ∨ width.val = 16) → s.getB Reg.HIF_LINK_STS 11 = false → s.boot.perst = false →
      s.boot.sampled = true → s.tide.refclk = true → s.warmHeld = false →
      Runs (.linkUp speed width flit) s Fld.raised fun t =>
        t.reg Reg.HIF_LINK_STS = BitVec.ofNat 32 (speed + width * 16 + b2n (flit || speed.val = 6) * 512 + 2048) ∧ t.getB Reg.BOOT_STS 4 = true ∧
        ((speed.val = 6 ∧ width.val = 16) ∨ t.rawBit 10 0 Ev.HIF_LINK_DEGRADED = true) ∧ RegsBut [Reg.HIF_LINK_STS, Reg.BOOT_STS, Reg.BOOT_MS] s t)
  ∧ (∀ (s : State),
      s.getB Reg.HIF_LINK_STS 11 = true → s.warmHeld = false →
      Runs .hifLinkDown s (Fld.raised ||| Fld.jobs ||| Fld.qps ||| Fld.ovf ||| Fld.landing ||| Fld.ends) fun t =>
        t.reg Reg.HIF_LINK_STS = 0 ∧ t.qps = [] ∧ t.ovf = [] ∧ t.landing = [] ∧ (t.jobs.all fun e => e.2.silent) = true ∧
        t.rawBit 10 0 Ev.HIF_LINK_DOWN = true)
  ∧ (∀ (f : Ctx) (q : Fin 16) (v : Fin 4096) (s : State),
      let x := s.qp f q;
      x.enabled = true → s.shut f = false → (s.ov f).refusing = false → (s.ov f).free ≠ 0 →
      Runs (.sqTail f q v) s (Fld.raised ||| Fld.qps ||| Fld.ovf) fun t =>
        (v < x.sqN → (x.tail + x.sqN - x.head) % x.sqN ≤ (v + x.sqN - x.head) % x.sqN → t.qp f q = { x with tail := v }) ∧
        ((x.sqN ≤ v ∨ (v + x.sqN - x.head) % x.sqN < (x.tail + x.sqN - x.head) % x.sqN) → t.qp f q = { x with err := 10 }))
  ∧ (∀ (f : Ctx) (q : Fin 16) (v : Fin 4096) (s : State),
      (s.qp f q).enabled = true → s.shut f = false → (s.ov f).refusing = false → (s.ov f).free = 0 → s.warmHeld = false →
      Runs (.sqTail f q v) s (Fld.raised ||| Fld.qps ||| Fld.ovf) fun t =>
        (t.ov f).refusing = true ∧ t.qps = s.qps ∧ t.rawBit 10 0 Ev.QUEUE_BACKPRESSURE = true)
  ∧ (∀ (f : Ctx) (q : Fin 16) (v : Fin 4096) (s : State),
      let x := s.qp f q;
      let n := (v + x.cqN - x.cqHead) % x.cqN;
      x.enabled = true → s.shut f = false → v < x.cqN → n ≤ x.cqUsed → x.spilled = [] →
      Runs (.cqHead f q v) s (Fld.out ||| Fld.qps ||| Fld.ovf) fun t =>
        t.qp f q = { x with cqHead := v, cqUsed := x.cqUsed - n } ∧ t.out = s.out)
  ∧ (∀ (f : Ctx) (q : Fin 16) (v : Fin 4096) (e : List Byte) (s : State),
      let x := s.qp f q;
      x.enabled = true → s.shut f = false → v < x.cqN → (v + x.cqN - x.cqHead) % x.cqN = 1 → 1 ≤ x.cqUsed → x.cqUsed - 1 + x.cqRsv < x.cqN →
      x.spilled = [e] →
      Runs (.cqHead f q v) s (Fld.out ||| Fld.qps ||| Fld.ovf) fun t =>
        (t.qp f q).spilled = [] ∧ (t.qp f q).cqUsed = x.cqUsed ∧ (t.qp f q).cqHead = v ∧ (t.ov f).used = (s.ov f).used - 1 ∧
        s.out.length < t.out.length)
  ∧ (∀ (f : Ctx) (q : Fin 16) (v : Fin 4096) (s : State),
      let x := s.qp f q;
      x.enabled = true → s.shut f = false → (x.cqN ≤ v ∨ x.cqUsed < (v + x.cqN - x.cqHead) % x.cqN) →
      Runs (.cqHead f q v) s (Fld.out ||| Fld.qps ||| Fld.ovf) fun t =>
        t.qp f q = { x with err := 10 })
  ∧ (∀ (bytes : List Byte) (ok : Bool) (f q : Nat) (s : State),
      let x := s.qp f q;
      let head := if x.head + 1 = x.sqN then 0 else x.head + 1;
      s.nextQueue = some (f, q) → x.cqFree = true → ok = true → entryOk (padTo 64 bytes) = true → leAt (padTo 64 bytes) 0 1 ≠ 0 →
      leAt (padTo 64 bytes) 0 1 ≤ 6 →
      Runs (.entryFetch bytes ok) s (Fld.raised ||| Fld.jobs ||| Fld.nextJob ||| Fld.qps ||| Fld.ovf ||| Fld.ends ||| Fld.rrCtx ||| Fld.rrQ) fun t =>
        t.job s.nextJob = { parseEntry f q head false (padTo 64 bytes) with fast := false } ∧ t.nextJob = s.nextJob + 1 ∧
        t.qp f q = { x with head := head, cqRsv := x.cqRsv + 1 } ∧ t.rrCtx = f)
  ∧ (∀ (bytes : List Byte) (ok : Bool) (f q : Nat) (s : State),
      s.nextQueue = some (f, q) → (s.qp f q).cqFree = true → ok = true → entryOk (padTo 64 bytes) = false → s.warmHeld = false →
      Runs (.entryFetch bytes ok) s (Fld.raised ||| Fld.jobs ||| Fld.nextJob ||| Fld.qps ||| Fld.ovf ||| Fld.ends ||| Fld.rrCtx ||| Fld.rrQ) fun t =>
        (t.job s.nextJob).st = 5 ∧ (t.job s.nextJob).status = 4 ∧ t.ends = s.ends ++ [s.nextJob] ∧ t.rawBit 10 0 Ev.HIF_ENTRY_CHECK = true)
  ∧ (∀ (rq : Requester) (via : Bool) (f : Nat) (s : State),
      let r := fun a => s.reg (bankReg f a);
      let q := fld (r Reg.HIF_Q_SEL) 0 4;
      s.qBank rq via = some f → s.pageReset 10 0 = false → s.pairErr f = none →
      Runs (.qCreate rq via) s (Fld.regs ||| Fld.heldWrites ||| Fld.tickets ||| Fld.plans ||| Fld.qps ||| Fld.landing) fun t =>
        (t.qp f q).enabled = true ∧ (t.qp f q).sqBase = (r Reg.HIF_SQ_BASE_LO).toNat + (r Reg.HIF_SQ_BASE_HI).toNat * 2 ^ 32 ∧
        (t.qp f q).cqBase = (r Reg.HIF_CQ_BASE_LO).toNat + (r Reg.HIF_CQ_BASE_HI).toNat * 2 ^ 32 ∧ (t.qp f q).sqN = fld (r Reg.HIF_Q_SIZE) 0 13 ∧
        (t.qp f q).cqN = fld (r Reg.HIF_Q_SIZE) 16 13 ∧ (t.qp f q).err = 0 ∧ (t.qp f q).flBound = bit (r Reg.HIF_Q_CTL) 0)
  ∧ (∀ (rq : Requester) (via : Bool) (f e : Nat) (s : State),
      let q := fld (s.reg (bankReg f Reg.HIF_Q_SEL)) 0 4;
      s.qBank rq via = some f → s.pageReset 10 0 = false → s.pairErr f = some e →
      Runs (.qCreate rq via) s (Fld.regs ||| Fld.heldWrites ||| Fld.tickets ||| Fld.plans ||| Fld.qps ||| Fld.landing) fun t =>
        t.qp f q = { s.qp f q with err := e } ∧ t.plans = s.plans)
  ∧ (∀ (rq : Requester) (via : Bool) (f : Nat) (s : State),
      let q := fld (s.reg (bankReg f Reg.HIF_Q_SEL)) 0 4;
      s.qBank rq via = some f → s.pageReset 10 0 = false → (s.qp f q).enabled = true →
      Runs (.qDelete rq via) s (Fld.heldWrites ||| Fld.tickets ||| Fld.plans ||| Fld.qps ||| Fld.ovf ||| Fld.landing) fun t =>
        (s.pairJobs f q = false → t.qp f q = {}) ∧ (s.pairJobs f q = true → t.qp f q = { s.qp f q with draining := true }))

/-- An input block is verified and its rows placed in the basin; a posted write places its bytes in the landing buffer of its queue; a fast entry is
checked and bound, or discarded as busy; a commit copies the buffer and binds the origin. Readings that are the model's choice: log entries 62, 38.
(R742, R752, R753) -/
def Obligations.HostInputs : Prop :=
  (∀ (j : Nat) (data : List Byte) (word : Word) (ok : Bool) (s : State),
      let jb := s.job j;
      let n := min 4096 (jb.inLen - jb.got);
      let r := s.placeRows j jb.got (padTo n data);
      jb.st = 1 → jb.taken = true → jb.opc = 1 → jb.fast = false → jb.inMode = 0 → s.mayPlace j = true → ok = true → blockWord (padTo n data) = word →
      Runs (.inputBlockArrival j data word ok) s
        (Fld.raised ||| Fld.jobs ||| Fld.basin ||| Fld.lines ||| Fld.harbour ||| Fld.hbPoison ||| Fld.hbWritten ||| Fld.ends) fun t =>
        t.basin = r.basin ∧ t.lines = r.lines ∧
        ((r.job j).st = 1 → (t.job j).got = (r.job j).got + n ∧ (t.job j).st = (if (r.job j).got + n = jb.inLen then 2 else 1) ∧
          (t.job j).inTick = s.now))
  ∧ (∀ (j : Nat) (data : List Byte) (word : Word) (ok : Bool) (s : State),
      let jb := s.job j;
      let n := min 4096 (jb.inLen - jb.got);
      jb.st = 1 → jb.taken = true → jb.opc = 1 → jb.fast = false → jb.inMode = 2 → s.gateShut jb.fn = false → ok = true →
      blockWord (padTo n data) = word →
      Runs (.inputBlockArrival j data word ok) s
        (Fld.raised ||| Fld.jobs ||| Fld.basin ||| Fld.lines ||| Fld.harbour ||| Fld.hbPoison ||| Fld.hbWritten ||| Fld.ends) fun t =>
        t.harbour = (s.putWindow jb.fn (jb.arg + jb.got / 4096) (padTo n data)).harbour ∧
        t.job j = { jb with got := jb.got + n, st := if jb.got + n = jb.inLen then 2 else 1, inTick := s.now })
  ∧ (∀ (j : Nat) (data : List Byte) (word : Word) (ok : Bool) (s : State),
      let jb := s.job j;
      let n := min 4096 (jb.inLen - jb.got);
      jb.st = 1 → jb.taken = true → jb.opc = 1 → jb.fast = false → jb.inMode = 2 → s.gateShut jb.fn = false → ok = true →
      blockWord (padTo n data) ≠ word → jb.status = 0 → s.warmHeld = false →
      Runs (.inputBlockArrival j data word ok) s
        (Fld.raised ||| Fld.jobs ||| Fld.basin ||| Fld.lines ||| Fld.harbour ||| Fld.hbPoison ||| Fld.hbWritten ||| Fld.ends) fun t =>
        (t.job j).st = 5 ∧ (t.job j).status = 5 ∧ t.rawBit 10 0 Ev.HIF_DATA_CHECK = true ∧ t.harbour = s.harbour)
  ∧ (∀ (f : Ctx) (q : Fin 16) (off : Fin 4096) (bytes : List Byte) (isl : Nat) (l : Landing) (s : State),
      s.landOf f q = some (isl, l) → s.getB Reg.HIF_CTL 0 = true → s.shut f = false → l.job = 0 →
      Runs (.pushPayloadWrite f q off bytes) s Fld.landing fun t =>
        (∀ i : Nat, i < bytes.length → off.val + i < 4096 →
          Store.get flagZero (Store.get (fun _ => ({} : Landing)) t.landing isl).bytes (off.val + i) = (bytes.getD i 0).toNat) ∧
        (∀ i : Nat, i < 4096 → (i < off.val ∨ off.val + bytes.length ≤ i) →
          Store.get flagZero (Store.get (fun _ => ({} : Landing)) t.landing isl).bytes i = Store.get flagZero l.bytes i))
  ∧ (∀ (f : Ctx) (q : Fin 16) (bytes : List Byte) (isl : Nat) (l : Landing) (s : State),
      let x := s.qp f q;
      let jb := { parseEntry f q x.head false (padTo 64 bytes) with fast := true, taken := true };
      s.getB Reg.HIF_CTL 0 = true → x.enabled = true → x.fast = true → x.draining = false → s.shut f = false → x.cqFree = true →
      s.landOf f q = some (isl, l) → l.job = 0 → entryOk (padTo 64 bytes) = true → jb.opc = 1 → jb.plan = x.planH → (s.plan jb.plan).live = true →
      (s.plan jb.plan).ctx = f.val → jb.inMode = 0 → jb.inLen ≤ 4096 → s.badShape jb (s.plan jb.plan) = false →
      (blockWord (l.data jb.inLen)).toNat = jb.arg →
      Runs (.fastEntry f q bytes) s (Fld.raised ||| Fld.jobs ||| Fld.nextJob ||| Fld.qps ||| Fld.ovf ||| Fld.landing ||| Fld.ends) fun t =>
        t.job s.nextJob = jb ∧ t.nextJob = s.nextJob + 1 ∧ Store.get (fun _ => ({} : Landing)) t.landing isl = { l with job := s.nextJob } ∧
        (t.qp f q).cqRsv = x.cqRsv + 1)
  ∧ (∀ (f : Ctx) (q : Fin 16) (bytes : List Byte) (isl : Nat) (l : Landing) (s : State),
      let x := s.qp f q;
      s.getB Reg.HIF_CTL 0 = true → x.enabled = true → x.fast = true → x.draining = false → s.shut f = false → x.cqFree = true →
      s.landOf f q = some (isl, l) → l.job ≠ 0 → entryOk (padTo 64 bytes) = true → s.warmHeld = false →
      Runs (.fastEntry f q bytes) s (Fld.raised ||| Fld.jobs ||| Fld.nextJob ||| Fld.qps ||| Fld.ovf ||| Fld.landing ||| Fld.ends) fun t =>
        (t.job s.nextJob).status = 14 ∧ t.ends = s.ends ++ [s.nextJob] ∧ t.landing = s.landing ∧ t.rawBit 10 0 Ev.HIF_FAST_BUSY = true)
  ∧ (∀ (isl : Isl) (s : State),
      let l := Store.get (fun _ => ({} : Landing)) s.landing isl;
      let jb := s.job l.job;
      let r := (s.setLand isl { l with bytes := [], job := 0, waited := false }).placeRows l.job 0 (l.data jb.inLen);
      l.job ≠ 0 → jb.st = 1 → s.mayPlace l.job = true →
      Runs (.fastCommit isl) s (Fld.raised ||| Fld.jobs ||| Fld.basin ||| Fld.lines ||| Fld.landing ||| Fld.ends) fun t =>
        t.basin = r.basin ∧ Store.get (fun _ => ({} : Landing)) t.landing isl = { l with bytes := [], job := 0, waited := false } ∧
        ((r.job l.job).st = 1 → (t.job l.job).st = 2 ∧ (t.job l.job).inTick = s.now ∧ (t.job l.job).payload = l.data jb.inLen))

/-- A result block leaves with head line, data, checks and tail line; a completion is written with its phase and signals its vector; without a free
entry it goes to the overflow reserve; a DMA error fails its job; an FLR deletes queues and bindings and recovers the context; a BAR2 write reaches
the harbour window. Readings that are the model's choice: log entries 61, 62. (R746, R736, R757, R767, R769, R582) -/
def Obligations.HostResultsAndApertures : Prop :=
  (∀ (j : Nat) (wordOk linkOk : Bool) (s : State),
      let jb := s.job j;
      let p := s.plan jb.plan;
      let r := s.resultData jb p;
      jb.st = 4 → jb.failed = false → (s.outCmp p = false ∨ jb.compared = true) → r.faults = [] → wordOk = true → linkOk = true → jb.status = 0 →
      Runs (.resultBlockWrite j wordOk linkOk) s (Fld.raised ||| Fld.jobs ||| Fld.qps ||| Fld.ends) fun t =>
        (t.job j).st = 5 ∧ (t.job j).status = (if r.poison then 6 else 0) ∧ (t.job j).gen = (s.qp jb.fn jb.queue).gen + 1 ∧
        (t.qp jb.fn jb.queue).gen = (s.qp jb.fn jb.queue).gen + 1 ∧ t.ends = s.ends ++ [j] ∧ (jb.silent = false → t.out.length = s.out.length + 1) ∧
        (jb.silent = true → t.out = s.out))
  ∧ (∀ (j : Nat) (s : State),
      let jb := s.job j;
      let x := s.qp jb.fn jb.queue;
      jb.st = 5 → s.nextEnd j = true → jb.silent = false → x.enabled = true → jb.slotOvf = false → x.spilled = [] → x.draining = false →
      Runs (.completionWrite j) s
        (Fld.regs ||| Fld.out ||| Fld.tickets ||| Fld.jobs ||| Fld.plans ||| Fld.qps ||| Fld.ovf ||| Fld.landing ||| Fld.ends) fun t =>
        t.job j = {} ∧ t.ends = s.ends.filter (· != j) ∧ (t.qp jb.fn jb.queue).cqUsed = x.cqUsed + 1 ∧ (t.qp jb.fn jb.queue).cqRsv = x.cqRsv - 1 ∧
        (t.qp jb.fn jb.queue).cqTail = (if x.cqTail + 1 = x.cqN then 0 else x.cqTail + 1) ∧ s.out.length < t.out.length ∧
        t.get64 Reg.HIF_JOBS_LO Reg.HIF_JOBS_HI = (s.get64 Reg.HIF_JOBS_LO Reg.HIF_JOBS_HI + 1) % 2 ^ 64 ∧
        RegsOnly [Reg.HIF_JOBS_LO, Reg.HIF_JOBS_HI] s t)
  ∧ (∀ (j : Nat) (s : State),
      let jb := s.job j;
      let x := s.qp jb.fn jb.queue;
      jb.st = 5 → s.nextEnd j = true → jb.silent = false → x.enabled = true → x.draining = false → s.entryFree j = false →
      Runs (.overflowWrite j) s (Fld.raised ||| Fld.tickets ||| Fld.jobs ||| Fld.plans ||| Fld.qps ||| Fld.ovf ||| Fld.landing ||| Fld.ends) fun t =>
        t.job j = {} ∧ t.ends = s.ends.filter (· != j) ∧ (t.ov jb.fn).used = (s.ov jb.fn).used + 1 ∧ (t.ov jb.fn).rsv = (s.ov jb.fn).rsv - 1 ∧
        (t.qp jb.fn jb.queue).spilled.length = x.spilled.length + 1 ∧
        (s.warmHeld = false → (s.ov jb.fn).spillLogged = false → t.rawBit 10 0 Ev.HIF_OVF_SPILL = true))
  ∧ (∀ (j : Nat) (s : State),
      let jb := s.job j;
      ((jb.st = 1 ∧ (jb.inMode ≠ 1 ∨ jb.opc ≠ 1)) ∨ (jb.st = 4 ∧ jb.failed = false)) → jb.status = 0 → s.warmHeld = false →
      Runs (.hifDmaErr j) s (Fld.raised ||| Fld.jobs ||| Fld.ends) fun t =>
        (t.job j).st = 5 ∧ (t.job j).status = 10 ∧ t.ends = s.ends ++ [j] ∧
        t.reg Reg.HIF_DMA_ERR_CNT = BitVec.ofNat 32 (satAdd 0xFFFFFFFF (s.reg Reg.HIF_DMA_ERR_CNT).toNat 1) ∧ t.rawBit 10 0 Ev.HIF_DMA_ERR = true)
  ∧ (∀ (f : Ctx) (s : State),
      (s.rungs.any fun r => !r.held && (r.kind = 4 || (r.kind = 3 && s.ctxPart f = r.target))) = false →
      Runs (.flr f) s
        (Fld.raised ||| Fld.tickets ||| Fld.jobs ||| Fld.plans ||| Fld.qps ||| Fld.ovf ||| Fld.landing ||| Fld.spdm ||| Fld.ends ||| Fld.flrs) fun t =>
        (t.qps.any fun e => e.1 / 16 = f.val) = false ∧ (t.landing.any fun e => e.2.fn = f.val) = false ∧
        Store.get (fun _ => ({} : SpdmX)) t.spdm f = {} ∧
        (∀ j : Nat, (s.job j).fn = f.val → if (s.job j).st = 3 then (t.job j).silent = true else t.job j = {}) ∧
        (∀ a : Nat, a < 64 → t.reg (0x10000000 + 0x1000 * f + 0x100 + 4 * a) = regReset (0x10000000 + 0x1000 * f + 0x100 + 4 * a)))
  ∧ (∀ (f : Ctx) (s : State),
      (s.rungs.any fun r => !r.held && (r.kind = 4 || (r.kind = 3 && s.ctxPart f = r.target))) = true →
      Runs (.flr f) s
        (Fld.raised ||| Fld.tickets ||| Fld.jobs ||| Fld.plans ||| Fld.qps ||| Fld.ovf ||| Fld.landing ||| Fld.spdm ||| Fld.ends ||| Fld.flrs) fun t =>
        t.flrs.contains f.val = true ∧ t.qps = s.qps ∧ t.regs = s.regs)
  ∧ (∀ (f : Ctx) (a : Nat) (bytes : List Byte) (v : Nat) (s : State),
      let e := Store.get winNone (s.cx f).win (a / 2097152);
      s.shut f = false → e.backed = true → e.ty = 1 → a / 2097152 < (s.cx f).winFrames → s.winBlock f (a / 4096) = some v →
      a % 4096 + bytes.length ≤ 4096 →
      Runs (.bar2Write f a bytes) s (Fld.regs ||| Fld.harbour ||| Fld.hbPoison ||| Fld.hbWritten) fun t =>
        (∀ i : Nat, i < bytes.length → Store.get basinZero t.harbour (v * 4096 + a % 4096 + i) = bytes.getD i 0) ∧ t.frames = s.frames)
  ∧ (∀ (f : Ctx) (a : Nat) (bytes : List Byte) (s : State),
      s.shut f = true →
      Runs (.bar2Write f a bytes) s (Fld.regs ||| Fld.harbour ||| Fld.hbPoison ||| Fld.hbWritten) fun t =>
        t = s)

/-- A NOP job ends; a RUN of a live plan of its function waits for its inputs, or ends with status 7 or 8; replicas' output digests that agree let the
step end, an odd one is left out with RPL_MISMATCH, and with no majority the step runs again once; corresponding islands whose captures agree are
marked in agreement with no header or tile changed; the islands of an expelled replica are marked and, outside a step, fenced, with RPL_EXPEL.
Readings that are the model's choice: log entries 51, 52, 64. (R733, R743, R867, R866, R870) -/
def Obligations.JobsAndReplicas : Prop :=
  (∀ (j : Nat) (s : State),
      s.entry j 6 = true →
      Runs (.nopJob j) s (Fld.jobs ||| Fld.ends) fun t =>
        t.ends = s.ends ++ [j] ∧ t.job j = { (s.job j) with taken := true, st := 5, status := (s.job j).status })
  ∧ (∀ (j : Nat) (s : State),
      let jb := s.job j;
      let h := s.currentPlan jb.fn jb.plan;
      s.entry j 1 = true → (s.plan h).live = true → (s.plan h).ctx = jb.fn → s.badShape jb (s.plan h) = false →
      Runs (.runJob j) s (Fld.jobs ||| Fld.ends) fun t =>
        (t.job j).plan = h ∧ (t.job j).taken = true ∧ (t.job j).st = (if jb.inMode = 1 then 2 else 1) ∧ (jb.inMode = 1 → (t.job j).inTick = s.now))
  ∧ (∀ (j : Nat) (s : State),
      let jb := s.job j;
      let h := s.currentPlan jb.fn jb.plan;
      s.entry j 1 = true → ((s.plan h).live = false ∨ (s.plan h).ctx ≠ jb.fn ∨ s.badShape jb (s.plan h) = true) → jb.status = 0 →
      Runs (.runJob j) s (Fld.jobs ||| Fld.ends) fun t =>
        t.ends = s.ends ++ [j] ∧ (t.job j).st = 5 ∧ (t.job j).status = (if (s.plan h).live = true ∧ (s.plan h).ctx = jb.fn then 7 else 8))
  ∧ (∀ (j : Nat) (s : State),
      let jb := s.job j;
      let p := s.plan jb.plan;
      let out := fun k => s.repIsl p k (p.f 17 1);
      jb.st = 4 → jb.failed = false → jb.compared = false → s.rcnt p ≠ 1 → bit (s.rplCfg p) 3 = true →
      verdict ((s.activeReps p).map fun k => (k, s.get64 (Reg.ISL_RPL_OUT_LO (out k)) (Reg.ISL_RPL_OUT_HI (out k)))) = none →
      Runs (.outputCompare j) s
        (Fld.raised ||| Fld.jobs ||| Fld.rows ||| Fld.tiles ||| Fld.tests ||| Fld.cal ||| Fld.ends ||| Fld.rplChecks) fun t =>
        t.job j = { jb with compared := true, outIsl := out ((s.activeReps p).headD 0) } ∧
        (∀ k ∈ s.activeReps p, t.getF (Reg.ISL_RPL_STS (out k)) 5 3 = if jb.rerun then 2 else 1))
  ∧ (∀ (j : Nat) (k : Nat) (s : State),
      let jb := s.job j;
      let p := s.plan jb.plan;
      let out := fun k => s.repIsl p k (p.f 17 1);
      jb.st = 4 → jb.failed = false → jb.compared = false → s.rcnt p ≠ 1 → bit (s.rplCfg p) 3 = true →
      verdict ((s.activeReps p).map fun k => (k, s.get64 (Reg.ISL_RPL_OUT_LO (out k)) (Reg.ISL_RPL_OUT_HI (out k)))) = some (some k) →
      s.warmHeld = false →
      Runs (.outputCompare j) s
        (Fld.raised ||| Fld.jobs ||| Fld.rows ||| Fld.tiles ||| Fld.tests ||| Fld.cal ||| Fld.ends ||| Fld.rplChecks) fun t =>
        t.job j = { jb with compared := true, outIsl := out (((s.activeReps p).filter (· != k)).headD 0) } ∧ t.rawBit 3 (out k) Ev.RPL_MISMATCH = true)
  ∧ (∀ (j : Nat) (s : State),
      let jb := s.job j;
      let p := s.plan jb.plan;
      let out := fun k => s.repIsl p k (p.f 17 1);
      jb.st = 4 → jb.failed = false → jb.compared = false → jb.rerun = false → s.rcnt p ≠ 1 → bit (s.rplCfg p) 3 = true →
      verdict ((s.activeReps p).map fun k => (k, s.get64 (Reg.ISL_RPL_OUT_LO (out k)) (Reg.ISL_RPL_OUT_HI (out k)))) = some none →
      s.warmHeld = false →
      Runs (.outputCompare j) s
        (Fld.raised ||| Fld.jobs ||| Fld.rows ||| Fld.tiles ||| Fld.tests ||| Fld.cal ||| Fld.ends ||| Fld.rplChecks) fun t =>
        (t.job j).rerun = true ∧ (t.job j).got = 0 ∧ (t.job j).st = (if jb.inMode = 1 then 2 else 1) ∧
        t.rawBit 3 (((s.activeReps p).map out).headD 0) Ev.RPL_MISMATCH = true)
  ∧ (∀ (h : Nat) (s : State),
      let p := s.plan h;
      let n := p.w * (p.h / s.rcnt p);
      let set := fun pi => (s.activeReps p).map fun k => s.repIsl p k pi;
      let same := fun pi => (set pi).all fun i => (s.reg (Reg.ISL_RPL_MASK i),
        s.reg (Reg.ISL_RPL_PTH i)) = (((set pi).map fun i => (s.reg (Reg.ISL_RPL_MASK i), s.reg (Reg.ISL_RPL_PTH i))).headD (0, 0));
      p.live = true → p.captured = true →
      (∀ pi : Nat, pi < n → verdict ((s.activeReps p).map fun k => (k, s.captureOf (s.repIsl p k pi) (same pi))) = none) →
      Runs (.replicaCompare h) s (Fld.raised ||| Fld.plans ||| Fld.rows ||| Fld.tiles ||| Fld.tests ||| Fld.cal ||| Fld.rplChecks) fun t =>
        (t.plan h).captured = false ∧ (∀ pi : Nat, pi < n → ∀ i ∈ set pi, t.getF (Reg.ISL_RPL_STS i) 5 3 = 1) ∧ t.hdr = s.hdr ∧ t.tiles = s.tiles)
  ∧ (∀ (isl : Isl) (h k : Nat) (s : State),
      s.islFenced isl = true → s.rplPlan isl = some (h, k) → s.warmHeld = false → (∀ i ∈ s.repIslands (s.plan h) k, i < 64) →
      Runs (.rplExpel isl) s (Fld.raised ||| Fld.rows ||| Fld.tiles ||| Fld.tests ||| Fld.cal ||| Fld.rplChecks) fun t =>
        (∀ i ∈ s.repIslands (s.plan h) k, t.getB (Reg.ISL_RPL_STS i) 3 = true ∧ t.getB (Reg.ISL_RPL_STS i) 2 = false ∧
          t.getF (Reg.ISL_RPL_STS i) 5 3 = 3) ∧
        t.rawBit 3 ((s.repIslands (s.plan h) k).headD 0) Ev.RPL_EXPEL = true ∧
        (s.inStep h = false → ∀ i ∈ s.repIslands (s.plan h) k, (t.hd 3 i).fenceDp = true))

/-- A LOAD whose checks pass starts an import, and one whose signature or manifest fails ends with status 9, its report and LDR_REJECT; a section lands
in basin lines, in the command list, or in backed window blocks, and the import goes on with the next; UNLOAD ends a plan with its leases, or waits
for the step in progress; SWAP closes the gate and starts the replacement; CIST_REG stores base and size; a rewritten assignment entry waits for the
next layer barrier or is written at it. Readings that are the model's choice: log entries 24, 48, 49, 51. (R361, R602, R378, R628, R590, R376) -/
def Obligations.PlansAndImages : Prop :=
  (∀ (j : Nat) (manifest : List Byte) (sigOk dmaOk : Bool) (s : State),
      let c := (s.job j).fn;
      s.entry j 2 = true → dmaOk = true → sigOk = true → manifestOk manifest = true → s.keyOk c (leAt manifest 18 2) = true →
      s.getF (Reg.CTX_STS c) 0 2 = 2 → (s.plans.filter fun e => e.2.live && e.2.ctx = c).length < 2 →
      Runs (.loadPlan j manifest sigOk dmaOk) s (Fld.raised ||| Fld.jobs ||| Fld.imports ||| Fld.ends) fun t =>
        t.imports = s.imports ++ [{ job := j, ctx := c, iova := (s.job j).inAddr, manifest := manifest }] ∧ (t.job j).taken = true)
  ∧ (∀ (j : Nat) (manifest : List Byte) (sigOk dmaOk : Bool) (s : State),
      s.entry j 2 = true → dmaOk = true → (sigOk = false ∨ manifestOk manifest = false) → (s.job j).status = 0 → s.warmHeld = false →
      Runs (.loadPlan j manifest sigOk dmaOk) s (Fld.raised ||| Fld.jobs ||| Fld.imports ||| Fld.ends) fun t =>
        t.ends = s.ends ++ [j] ∧ (t.job j).status = 9 ∧ (t.job j).payload = ldrReport (some { err := 1 }) 0 ∧ t.rawBit 2 2 Ev.LDR_REJECT = true)
  ∧ (∀ (j : Nat) (data : List Byte) (ok dmaOk : Bool) (m : Import) (s : State),
      let e := sectOf m.manifest m.next;
      s.imports.find? (fun x => x.job = j) = some m → ok = true → dmaOk = true → leAt e 0 1 = 1 → m.next + 1 < sectCnt m.manifest →
      Runs (.importSection j data ok dmaOk) s
        (Fld.raised ||| Fld.leases ||| Fld.jobs ||| Fld.plans ||| Fld.nextPlan ||| Fld.acct ||| Fld.ctxs ||| Fld.basin ||| Fld.lines ||| Fld.tiles |||
         Fld.harbour ||| Fld.hbPoison ||| Fld.hbWritten ||| Fld.frames ||| Fld.badSlots ||| Fld.owners ||| Fld.swaps ||| Fld.imports ||| Fld.ends) fun t =>
        t.basin = (s.placeLines m e (padTo (leAt e 16 4) data)).basin ∧
        (t.imports = s.imports.map fun x => if x.job = j then { m with next := m.next + 1 } else x))
  ∧ (∀ (j : Nat) (data : List Byte) (ok dmaOk : Bool) (m : Import) (s : State),
      let e := sectOf m.manifest m.next;
      s.imports.find? (fun x => x.job = j) = some m → ok = true → dmaOk = true → leAt e 0 1 = 2 → m.next + 1 < sectCnt m.manifest →
      Runs (.importSection j data ok dmaOk) s
        (Fld.raised ||| Fld.leases ||| Fld.jobs ||| Fld.plans ||| Fld.nextPlan ||| Fld.acct ||| Fld.ctxs ||| Fld.basin ||| Fld.lines ||| Fld.tiles |||
         Fld.harbour ||| Fld.hbPoison ||| Fld.hbWritten ||| Fld.frames ||| Fld.badSlots ||| Fld.owners ||| Fld.swaps ||| Fld.imports ||| Fld.ends) fun t =>
        (t.imports = s.imports.map fun x => if x.job = j then { m with next := m.next + 1, cmds := m.cmds ++ tabulate (leAt e 16 4 / 64) fun k => ((padTo (leAt e 16 4) data).drop (64 * k)).take 64 } else x) ∧
        t.basin = s.basin ∧ t.harbour = s.harbour)
  ∧ (∀ (j : Nat) (data : List Byte) (ok dmaOk : Bool) (m : Import) (l : List Nat) (s : State),
      let e := sectOf m.manifest m.next;
      let r := s.backAll m.ctx 1 (positions (leAt e 4 4) (leAt e 16 4));
      s.imports.find? (fun x => x.job = j) = some m → ok = true → dmaOk = true → leAt e 0 1 = 3 → r.map (·.2) = some l →
      m.next + 1 < sectCnt m.manifest →
      Runs (.importSection j data ok dmaOk) s
        (Fld.raised ||| Fld.leases ||| Fld.jobs ||| Fld.plans ||| Fld.nextPlan ||| Fld.acct ||| Fld.ctxs ||| Fld.basin ||| Fld.lines ||| Fld.tiles |||
         Fld.harbour ||| Fld.hbPoison ||| Fld.hbWritten ||| Fld.frames ||| Fld.badSlots ||| Fld.owners ||| Fld.swaps ||| Fld.imports ||| Fld.ends) fun t =>
        (t.imports = s.imports.map fun x => if x.job = j then { m with next := m.next + 1, backed := m.backed ++ l } else x) ∧
        t.harbour = ((r.getD (s, [])).1.putWindow m.ctx (leAt e 4 4) (padTo (leAt e 16 4) data)).harbour ∧ t.frames = (r.getD (s, [])).1.frames)
  ∧ (∀ (j : Nat) (s : State),
      let h := (s.job j).plan;
      s.entry j 3 = true → s.ownPlan j = true → (s.jobs.any fun e => e.2.plan = h && e.2.st = 3) = false →
      Runs (.unloadPlan j) s
        (Fld.regs ||| Fld.leases ||| Fld.tickets ||| Fld.jobs ||| Fld.plans ||| Fld.acct ||| Fld.ctxs ||| Fld.qps ||| Fld.landing ||| Fld.rows |||
         Fld.tiles ||| Fld.harbour ||| Fld.hbPoison ||| Fld.hbWritten ||| Fld.frames ||| Fld.badSlots ||| Fld.owners ||| Fld.runs ||| Fld.ends) fun t =>
        (t.plan h).live = false ∧ (t.job j).st = 5 ∧ (∀ l ∈ t.leases, l.plan = h → l.kind ≠ 1))
  ∧ (∀ (j : Nat) (s : State),
      let h := (s.job j).plan;
      s.entry j 3 = true → s.ownPlan j = true → (s.jobs.any fun e => e.1 ≠ j && e.2.plan = h && e.2.st = 3) = true →
      Runs (.unloadPlan j) s
        (Fld.regs ||| Fld.leases ||| Fld.tickets ||| Fld.jobs ||| Fld.plans ||| Fld.acct ||| Fld.ctxs ||| Fld.qps ||| Fld.landing ||| Fld.rows |||
         Fld.tiles ||| Fld.harbour ||| Fld.hbPoison ||| Fld.hbWritten ||| Fld.frames ||| Fld.badSlots ||| Fld.owners ||| Fld.runs ||| Fld.ends) fun t =>
        t.plan h = { s.plan h with unloading := true } ∧ (t.job j).taken = true)
  ∧ (∀ (j : Nat) (s : State),
      let jb := s.job j;
      s.entry j 4 = true → (s.swaps.any fun w => w.ctx = jb.fn) = false → s.getF Reg.BOOT_PROF_STS 0 2 ≠ 2 → s.ownPlan j = true →
      (s.plan jb.plan).f 31 1 % 2 = 1 →
      Runs (.swapPlan j) s (Fld.regs ||| Fld.jobs ||| Fld.ctxs ||| Fld.swaps ||| Fld.ends) fun t =>
        (t.cx jb.fn).gateClosed = true ∧
        t.swaps.map (fun w => (w.ctx, w.old, w.new, w.job, w.st)) = s.swaps.map (fun w => (w.ctx, w.old, w.new, w.job, w.st)) ++ [(jb.fn,
          (s.otherPlans jb.plan).headD 0, jb.plan, j, 1)] ∧
        t.getF Reg.FRY_SWAP_STS 0 3 = 1 ∧ t.getF Reg.FRY_SWAP_STS 4 6 = jb.fn % 64 ∧ (t.job j).taken = true)
  ∧ (∀ (j : Nat) (s : State),
      let jb := s.job j;
      s.entry j 5 = true → (s.plans.any fun e => e.2.live && e.2.ctx = jb.fn && e.2.usesCist) = false → jb.fn < 64 →
      Runs (.cistReg j) s (Fld.regs ||| Fld.jobs ||| Fld.ends) fun t =>
        t.get64 (Reg.FRY_CIST_BASE_LO jb.fn) (Reg.FRY_CIST_BASE_HI jb.fn) = jb.inAddr % 2 ^ 64 ∧
        t.reg (Reg.FRY_CIST_SIZE jb.fn) = BitVec.ofNat 32 jb.inLen ∧ t.reg (Reg.FRY_CIST_CTL jb.fn) = 1 ∧ t.ends = s.ends ++ [j] ∧
        RegsOnly [Reg.FRY_CIST_BASE_LO jb.fn, Reg.FRY_CIST_BASE_HI jb.fn, Reg.FRY_CIST_SIZE jb.fn, Reg.FRY_CIST_CTL jb.fn] s t)
  ∧ (∀ (n : Pilot) (h : Nat) (isl : Isl) (wti : Fin 4096) (tile : Fin 16) (s : State),
      (n.val = 3 ∨ n.val = 4) → (s.plan h).live = true → (s.planIslands (s.plan h)).contains isl.val = true → s.now < s.nextBarrier h →
      (s.plan h).rehome = [] →
      Runs (.tileAssignWrite n h isl wti tile) s (Fld.plans ||| Fld.basin ||| Fld.lines) fun t =>
        (t.plan h).rehome = [(isl.val, wti.val, s.nextBarrier h * 16 + tile.val)] ∧ t.basin = s.basin)
  ∧ (∀ (n : Pilot) (h : Nat) (isl : Isl) (wti : Fin 4096) (tile : Fin 16) (s : State),
      let p := s.plan h;
      (n.val = 3 ∨ n.val = 4) → p.live = true → (s.planIslands p).contains isl.val = true → s.nextBarrier h ≤ s.now → p.rehome = [] →
      Runs (.tileAssignWrite n h isl wti tile) s (Fld.plans ||| Fld.basin ||| Fld.lines) fun t =>
        t.basin = (s.writeBytes isl p.ctx (64 * leAt (s.rootLine p isl) 8 2 + 4 * wti) (leBytes (s.wtiWord p isl wti / 16 * 16 + tile.val) 4) false).1.basin ∧
        (t.plan h).rehome = [])

/-- The expansion of a token row is latched on its ticket and nothing else of it changes. A standard pulse, an extended pulse and a transpose phase that
are launched deliver the counts of their mode with the conversion errors given, the held counts with status 1 on a stale tile, and no counts with
status 2 on an unlocked one, and sample the tile's registers. A spill read takes a ticket entry and reads its row; ROWIO reads a row's levels, or
takes 512 legal bytes for a row. Readings that are the model's choice: log entries 2, 14, 59. (R259, R60, R61, R78, R307, R448, R449) -/
def Obligations.PulsesAndRowReads : Prop :=
  (∀ (isl : Isl) (idx : TktIx) (s : State),
      ((s.tk isl idx).state = 1 ∨ (s.tk isl idx).state = 2) → (s.tk isl idx).fountainFed = true → (s.tk isl idx).isRepeat = false →
      (s.tk isl idx).launch ≤ s.now + 1 →
      Runs (.fountainExpand isl idx) s Fld.tickets fun t =>
        t.tk isl idx = { s.tk isl idx with ex := s.expand isl (s.tk isl idx) } ∧ (∀ j : Nat, j ≠ isl.val * 256 + idx.val → t.tkAt j = s.tkAt j))
  ∧ (∀ (isl : Isl) (idx : TktIx) (errs : List (Nat × Int)) (s : State),
      let x := s.tk isl idx;
      let g := isl.val * 16 + x.uindex;
      x.toRun 1 = true →
      Runs (.standardPulse isl idx errs) s
        (Fld.raised ||| Fld.leases ||| Fld.tickets ||| Fld.jobs ||| Fld.acct ||| Fld.ctxs ||| Fld.imports ||| Fld.ends) fun t =>
        (t.tk isl idx).ran = true ∧ (s.getB (Reg.TIL_STS g) 7 = true → (t.tk isl idx).status = 1 ∧ (t.tk isl idx).counts = s.heldCounts g 1) ∧
        (s.getB (Reg.TIL_STS g) 7 = false → s.locked g = false → (t.tk isl idx).status = 2 ∧ (t.tk isl idx).counts = []) ∧
        (s.getB (Reg.TIL_STS g) 7 = false → s.locked g = true →
          (t.tk isl idx).counts = s.pulseCounts g (if x.ex.ok then x.ex else s.expand isl x).drives false errs) ∧
        (t.tk isl idx).samp = s.sample g)
  ∧ (∀ (isl : Isl) (idx : TktIx) (errs : List (Nat × Int)) (s : State),
      let x := s.tk isl idx;
      let g := isl.val * 16 + x.uindex;
      x.toRun 2 = true →
      Runs (.extendedPulse isl idx errs) s
        (Fld.raised ||| Fld.leases ||| Fld.tickets ||| Fld.jobs ||| Fld.acct ||| Fld.ctxs ||| Fld.imports ||| Fld.ends) fun t =>
        (t.tk isl idx).ran = true ∧ (s.getB (Reg.TIL_STS g) 7 = true → (t.tk isl idx).status = 1 ∧ (t.tk isl idx).counts = s.heldCounts g 2) ∧
        (s.getB (Reg.TIL_STS g) 7 = false → s.locked g = false → (t.tk isl idx).status = 2 ∧ (t.tk isl idx).counts = []) ∧
        (s.getB (Reg.TIL_STS g) 7 = false → s.locked g = true →
          (t.tk isl idx).counts = s.pulseCounts g (if x.ex.ok then x.ex else s.expand isl x).drives true errs) ∧
        (t.tk isl idx).samp = s.sample g)
  ∧ (∀ (isl : Isl) (idx : TktIx) (errs : List (Nat × Int)) (s : State),
      let x := s.tk isl idx;
      let g := isl.val * 16 + x.uindex;
      x.toRun 3 = true →
      Runs (.transposePhase isl idx errs) s
        (Fld.raised ||| Fld.leases ||| Fld.tickets ||| Fld.jobs ||| Fld.acct ||| Fld.ctxs ||| Fld.imports ||| Fld.ends) fun t =>
        (t.tk isl idx).ran = true ∧
        (s.getB (Reg.TIL_STS g) 7 = true → (t.tk isl idx).status = 1 ∧ (t.tk isl idx).counts = s.heldCounts g (4 + x.phase)) ∧
        (s.getB (Reg.TIL_STS g) 7 = false → s.locked g = false → (t.tk isl idx).status = 2 ∧ (t.tk isl idx).counts = []) ∧
        (s.getB (Reg.TIL_STS g) 7 = false → s.locked g = true →
          (t.tk isl idx).counts = s.phaseCounts g x.phase (if x.ex.ok then x.ex else s.expand isl x).drives errs))
  ∧ (∀ (gt : Tile) (devs : List (Fin 528 × Fin 64)) (a : AckRec) (i idx : Nat) (s : State),
      let e := at0 ⟨0, 0, 1, []⟩ a.spills i;
      let rr := s.rowReadAt gt e.row (devs.map fun p => (p.1.val, BitVec.ofNat 8 p.2.val));
      s.nextSpill gt = some (a, i) → (s.tickets.any fun x => x.2.action = 4 && tkTile x.1 x.2 = gt) = false → s.tileBusy gt = false →
      a.launch + a.slot + 5 * i ≤ s.now → s.freeIdx (gt / 16) = some idx → s.tileFenced gt = false → (s.grant (gt / 16) (1, 1)).isSome = true →
      s.locked gt = true →
      Runs (.spillRowRead gt devs) s (Fld.raised ||| Fld.tickets ||| Fld.acct) fun t =>
        (t.tk (gt / 16) idx).state = 3 ∧ (t.tk (gt / 16) idx).action = 4 ∧ (t.tk (gt / 16) idx).rows = e.row ∧ (t.tk (gt / 16) idx).ran = true ∧
        (t.tk (gt / 16) idx).counts = (if rr.failed then [] else rr.data.map (·.toNat)) ∧ t.rows = s.rows ∧ t.getF (Reg.TIL_STS gt) 0 4 = 11)
  ∧ (∀ (isl : Isl) (idx : TktIx) (devs : List (Fin 528 × Fin 64)) (s : State),
      let x := s.tk isl idx;
      let g := isl.val * 16 + x.uindex;
      let rr := s.rowReadAt g x.rowNo (devs.map fun p => (p.1.val, BitVec.ofNat 8 p.2.val));
      x.toRun 5 = true →
      Runs (.rowioRead isl idx devs) s (Fld.raised ||| Fld.tickets ||| Fld.acct) fun t =>
        (t.tk isl idx).ran = true ∧ (s.locked g = true → (t.tk isl idx).counts = if rr.failed then [] else rr.data.map (·.toNat)) ∧
        (s.locked g = false → (t.tk isl idx).status = 2) ∧ t.getF (Reg.ISL_ADP_STS isl) 16 6 = x.ctx % 64)
  ∧ (∀ (isl : Isl) (idx : TktIx) (s : State),
      let x := s.tk isl idx;
      let g := isl.val * 16 + x.uindex;
      let r := s.readBytes isl x.ctx x.inA 512;
      x.toRun 6 = true →
      Runs (.rowioWrite isl idx) s
        (Fld.raised ||| Fld.leases ||| Fld.tickets ||| Fld.jobs ||| Fld.acct ||| Fld.ctxs ||| Fld.imports ||| Fld.ends) fun t =>
        (t.tk isl idx).ran = true ∧ (t.tk isl idx).rows = x.rowNo ∧ (s.locked g = false → (t.tk isl idx).status = 2) ∧
        (s.locked g = true → (r.bytes.any fun b => 63 < b.toNat) = false → (t.tk isl idx).counts = r.bytes.map (·.toNat)))

/-- A slot passes a fresh row by and moves the pointer, or begins to sense the row, or waits for the busy tile; a row whose term agrees is stamped with
the tick, stays valid and moves the pointer; a catch-up senses an owed row or passes an invalid one by; a row older than two passes sets LATE and
raises TIL_RFSH_LATE; a release clears every row of the tile, at once or at the end of the row operation, and no other tile's; 25,000,000 ticks
later DECAYED is set; a regime decision takes effect at a normal-grid slot tick; GRID is a decision when it changes; PHASE is applied at once on a
released tile and pending otherwise. Readings that are the model's choice: log entries 15, 16, 17, 18. (R145, R134, R161, R163, R164, R166, R148,
R149, R178) -/
def Obligations.RefreshEngine : Prop :=
  (∀ (gt : Tile) (s : State),
      s.refreshing gt = true → s.now % s.period gt = s.getF (Reg.TIL_RFSH_CTL gt) 8 6 → (s.tx gt).rf = 0 →
      (s.row gt (s.getF (Reg.TIL_RFSH_PTR gt) 0 10)).fresh = true → (s.row gt (s.getF (Reg.TIL_RFSH_PTR gt) 0 10)).valid = true →
      Runs (.refreshSlot gt) s (Fld.raised ||| Fld.rows ||| Fld.tiles) fun t =>
        (t.row gt (s.getF (Reg.TIL_RFSH_PTR gt) 0 10)).fresh = false ∧
        t.getF (Reg.TIL_RFSH_PTR gt) 0 10 = (s.getF (Reg.TIL_RFSH_PTR gt) 0 10 + 1) % 1024 ∧ (t.tx gt).rf = 0)
  ∧ (∀ (gt : Tile) (s : State),
      s.refreshing gt = true → s.now % s.period gt = s.getF (Reg.TIL_RFSH_CTL gt) 8 6 → (s.tx gt).rf = 0 →
      (s.row gt (s.getF (Reg.TIL_RFSH_PTR gt) 0 10)).fresh = false → (s.row gt (s.getF (Reg.TIL_RFSH_PTR gt) 0 10)).valid = true →
      s.locked gt = true →
      Runs (.refreshSlot gt) s (Fld.raised ||| Fld.rows ||| Fld.tiles) fun t =>
        (t.tx gt).rf = (if s.tileBusy gt then 1 else 2) ∧ (t.tx gt).rfCatch = false ∧
        (s.tileBusy gt = false → (t.tx gt).rfStart = s.now ∧ t.getF (Reg.TIL_STS gt) 0 4 = 13) ∧ RegsOnly [Reg.TIL_STS gt] s t)
  ∧ (∀ (gt : Tile) (codes : List (Fin 528 × Fin 128)) (s : State),
      (s.tx gt).rf = 2 → (s.tx gt).rfStart + 6 ≤ s.now → (s.tx gt).rfLost = false → (s.tx gt).relReq = false →
      (s.row gt (s.getF (Reg.TIL_RFSH_PTR gt) 0 10)).valid = true →
      (s.getB (Reg.TIL_RFSH_CTL gt) 2 = false ∨ codes = [] ∧
        rowTerm (s.getF (Reg.TIL_RFSH_PTR gt) 0 10) (s.row gt (s.getF (Reg.TIL_RFSH_PTR gt) 0 10)).levels = (s.row gt (s.getF (Reg.TIL_RFSH_PTR gt) 0 10)).term) →
      Runs (.rowRefreshDone gt codes) s (Fld.raised ||| Fld.rows ||| Fld.tiles) fun t =>
        (t.row gt (s.getF (Reg.TIL_RFSH_PTR gt) 0 10)).stamp = s.now ∧ (t.row gt (s.getF (Reg.TIL_RFSH_PTR gt) 0 10)).valid = true ∧
        t.getF (Reg.TIL_RFSH_PTR gt) 0 10 = (s.getF (Reg.TIL_RFSH_PTR gt) 0 10 + 1) % 1024 ∧ (t.tx gt).rf = 0 ∧ (t.tx gt).held = false)
  ∧ (∀ (gt : Tile) (s : State),
      s.refreshing gt = true → s.owed gt ≠ 0 → (s.tx gt).held = false → (s.tx gt).rf = 0 → s.tileBusy gt = false → s.quiet gt 6 = true →
      (s.row gt (s.getF (Reg.TIL_RFSH_PTR gt) 0 10)).valid = true → (s.row gt (s.getF (Reg.TIL_RFSH_PTR gt) 0 10)).fresh = false →
      (s.grant (gt / 16) (1, 1)).isSome = true →
      Runs (.catchupRefresh gt) s (Fld.raised ||| Fld.acct ||| Fld.rows ||| Fld.tiles) fun t =>
        (t.tx gt).rf = 2 ∧ (t.tx gt).rfCatch = true ∧ (t.tx gt).rfStart = s.now)
  ∧ (∀ (gt : Tile) (s : State),
      s.refreshing gt = true → s.owed gt ≠ 0 → (s.tx gt).held = false → (s.tx gt).rf = 0 → s.tileBusy gt = false → s.quiet gt 6 = true →
      (s.row gt (s.getF (Reg.TIL_RFSH_PTR gt) 0 10)).valid = false →
      Runs (.catchupRefresh gt) s (Fld.raised ||| Fld.acct ||| Fld.rows ||| Fld.tiles) fun t =>
        t.owed gt = s.owed gt - 1 ∧ t.getF (Reg.TIL_RFSH_PTR gt) 0 10 = (s.getF (Reg.TIL_RFSH_PTR gt) 0 10 + 1) % 1024)
  ∧ (∀ (gt : Tile) (a r : Nat) (s : State),
      s.oldest gt = some (a, r) → 2 * 1024 * s.period gt < a → s.getB (Reg.TIL_RFSH_STS gt) 6 = false → s.getB (Reg.TIL_RFSH_STS gt) 3 = false →
      s.warmHeld = false →
      Runs (.tilRfshLate gt) s (Fld.raised ||| Fld.tiles) fun t =>
        t.rawBit 4 gt Ev.TIL_RFSH_LATE = true ∧ t.getB (Reg.TIL_RFSH_STS gt) 6 = true ∧
        (t.tx gt).needReprog = (if (s.tx gt).needReprog = 0 then 6 else (s.tx gt).needReprog) ∧ RegsBut [Reg.TIL_RFSH_STS gt] s t)
  ∧ (∀ (rq : Requester) (gt : Tile) (s : State),
      s.pageReset 4 gt = false → Requester.inner rq = true → s.inRowOp gt = false →
      Runs (.release rq gt) s (Fld.regs ||| Fld.heldWrites ||| Fld.rows ||| Fld.tiles) fun t =>
        t.getB (Reg.TIL_RFSH_STS gt) 1 = true ∧ (∀ r : Nat, r < 1024 → (t.row gt r).valid = false) ∧
        (∀ g r : Nat, g ≠ gt.val → r < 1024 → t.row g r = s.row g r))
  ∧ (∀ (rq : Requester) (gt : Tile) (s : State),
      s.pageReset 4 gt = false → Requester.inner rq = true → s.inRowOp gt = true →
      Runs (.release rq gt) s (Fld.regs ||| Fld.heldWrites ||| Fld.rows ||| Fld.tiles) fun t =>
        (t.tx gt).relReq = true ∧ t.rows = s.rows ∧ RegsOnly [] s t)
  ∧ (∀ (gt : Tile) (s : State),
      (s.tx gt).relReq = true → s.inRowOp gt = false →
      Runs (.releaseApply gt) s (Fld.regs ||| Fld.rows ||| Fld.tiles) fun t =>
        t.getB (Reg.TIL_RFSH_STS gt) 1 = true ∧ (∀ r : Nat, r < 1024 → (t.row gt r).valid = false) ∧ (t.tx gt).relReq = false)
  ∧ (∀ (gt : Tile) (s : State),
      s.getF (Reg.TIL_RFSH_STS gt) 1 2 = 1 → (s.tx gt).relTick + 25000000 ≤ s.now → s.warmHeld = false →
      Runs (.tilDecayed gt) s Fld.raised fun t =>
        t.rawBit 4 gt Ev.TIL_DECAYED = true ∧ t.getB (Reg.TIL_RFSH_STS gt) 2 = true ∧ RegsBut [Reg.TIL_RFSH_STS gt] s t)
  ∧ (∀ (gt : Tile) (h w : Bool) (t0 : Nat) (s : State),
      (s.tx gt).regime = some (h, w, t0) → t0 < s.now → s.now % 122 = s.getF (Reg.TIL_RFSH_CTL gt) 8 6 → s.warmHeld = false →
      (∀ e ∈ s.plans, ∀ i ∈ s.planIslands e.2, i < 64) →
      Runs (.tilRfshRegime gt) s (Fld.raised ||| Fld.tiles) fun t =>
        t.getB (Reg.TIL_RFSH_STS gt) 0 = h ∧ (t.tx gt).regime = none ∧ (s.getB (Reg.TIL_RFSH_STS gt) 0 ≠ h → t.rawBit 4 gt Ev.TIL_RFSH_REGIME = true))
  ∧ (∀ (rq : Requester) (gt : Tile) (v : Bool) (s : State),
      s.pageReset 4 gt = false → Requester.inner rq = true →
      Runs (.gridWrite rq gt v) s (Fld.regs ||| Fld.heldWrites ||| Fld.tiles) fun t =>
        t.getB (Reg.TIL_RFSH_CTL gt) 0 = v ∧ (s.getB (Reg.TIL_RFSH_CTL gt) 0 ≠ v → (t.tx gt).regime = some (t.wantHot gt, true, s.now)) ∧
        (s.getB (Reg.TIL_RFSH_CTL gt) 0 = v → t.tiles = s.tiles) ∧ RegsOnly [Reg.TIL_RFSH_CTL gt] s t)
  ∧ (∀ (rq : Requester) (gt : Tile) (v : Fin 64) (s : State),
      s.pageReset 4 gt = false → Requester.inner rq = true →
      Runs (.phaseWrite rq gt v) s (Fld.regs ||| Fld.heldWrites ||| Fld.tiles) fun t =>
        (60 < v.val → t.regs = s.regs ∧ t.tiles = s.tiles) ∧
        (v.val ≤ 60 → s.getB (Reg.TIL_RFSH_STS gt) 1 = true → t.getF (Reg.TIL_RFSH_CTL gt) 8 6 = v.val ∧ t.tiles = s.tiles) ∧
        (v.val ≤ 60 → s.getB (Reg.TIL_RFSH_STS gt) 1 = false → (t.tx gt).phasePend = some v.val ∧ t.regs = s.regs) ∧
        RegsOnly [Reg.TIL_RFSH_CTL gt] s t)

/-- A term-store error invalidates its row, starts a recomputation and raises TIL_DIG_MISMATCH; the recomputation replaces DIG_WRITE at one edge; a
delay line locks under a locked tide, and a lost lock records the tick and raises TIL_TUNIT_UNLOCK; APPLY sets REFUSED by its check; a copy pass
reads a row and writes it back in the new map; its end puts the map in effect and raises TIL_COLMAP_DONE; a trim written through the window lands in
the inactive bank only. Readings that are the model's choice: log entries 21, 17. (R144, R93, R95, R52, R53, R113) -/
def Obligations.TileServices : Prop :=
  (∀ (gt : Tile) (r : Fin 1024) (s : State),
      (s.row gt r).valid = true → s.warmHeld = false →
      Runs (.termStoreEcc gt r) s (Fld.raised ||| Fld.rows ||| Fld.tiles) fun t =>
        (t.row gt r).valid = false ∧ t.reg (Reg.TIL_DIG_ROW gt) = BitVec.ofNat 32 (r + 2048) ∧ (t.tx gt).recomp = some s.now ∧
        t.rawBit 4 gt Ev.TIL_DIG_MISMATCH = true)
  ∧ (∀ (gt : Tile) (s : State),
      (s.tx gt).recomp.isSome = true →
      Runs (.digWriteRecompute gt) s (Fld.regs ||| Fld.tiles) fun t =>
        t.get64 (Reg.TIL_DIG_WRITE_LO gt) (Reg.TIL_DIG_WRITE_HI gt) = (s.termsXor gt).toNat ∧ (t.tx gt).recomp = none ∧
        RegsOnly [Reg.TIL_DIG_WRITE_LO gt, Reg.TIL_DIG_WRITE_HI gt] s t)
  ∧ (∀ (gt : Tile) (s : State),
      s.getB Reg.TID_STS 0 = true →
      Runs (.tunitLock gt) s (Fld.regs ||| Fld.tiles) fun t =>
        t.getB (Reg.TIL_STS gt) 5 = true ∧ (t.tx gt).unlockTick = none ∧ RegsOnly [Reg.TIL_STS gt] s t)
  ∧ (∀ (gt : Tile) (begun : Bool) (s : State),
      s.locked gt = true → s.warmHeld = false →
      Runs (.tilTunitUnlock gt begun) s (Fld.raised ||| Fld.tickets ||| Fld.rows ||| Fld.tiles ||| Fld.tests) fun t =>
        t.locked gt = false ∧ (t.tx gt).unlockTick = some s.now ∧ t.rawBit 4 gt Ev.TIL_TUNIT_UNLOCK = true)
  ∧ (∀ (rq : Requester) (gt : Tile) (s : State),
      s.pageReset 4 gt = false → Requester.trims rq = true →
      Runs (.colmapApply rq gt) s (Fld.regs ||| Fld.heldWrites ||| Fld.tiles) fun t =>
        t.getB (Reg.TIL_COLMAP_CTL gt) 10 = s.applyRefused gt ∧ (s.applyRefused gt = true → t.tiles = s.tiles) ∧
        RegsOnly [Reg.TIL_COLMAP_CTL gt, Reg.TIL_STS gt] s t)
  ∧ (∀ (gt : Tile) (devs : List (Fin 528 × Fin 64)) (r : Nat) (s : State),
      s.getB (Reg.TIL_COLMAP_CTL gt) 9 = true → s.tileBusy gt = false → s.tileFenced gt = false → s.quiet gt 5 = true →
      s.copyNext gt (s.tx gt).copyRow = some r → (s.tx gt).copyLv ≠ [] → (s.grant (gt / 16) (1, 0)).isSome = true → s.locked gt = true →
      Runs (.copyPassRowOp gt devs) s (Fld.raised ||| Fld.acct ||| Fld.rows ||| Fld.tiles) fun t =>
        (t.row gt r).levels = (s.tx gt).complete (s.tx gt).copyLv ∧ (t.row gt r).valid = true ∧ (t.tx gt).copyRow = r + 1 ∧ (t.tx gt).copyLv = [])
  ∧ (∀ (gt : Tile) (devs : List (Fin 528 × Fin 64)) (r : Nat) (s : State),
      s.getB (Reg.TIL_COLMAP_CTL gt) 9 = true → s.tileBusy gt = false → s.tileFenced gt = false → s.quiet gt 5 = true →
      s.copyNext gt (s.tx gt).copyRow = some r → (s.tx gt).copyLv = [] → (s.grant (gt / 16) (1, 1)).isSome = true → s.locked gt = true →
      (s.rowReadAt gt r (devs.map fun p => (p.1.val, BitVec.ofNat 8 p.2.val))).failed = false →
      Runs (.copyPassRowOp gt devs) s (Fld.raised ||| Fld.acct ||| Fld.rows ||| Fld.tiles) fun t =>
        (t.tx gt).copyLv = (s.rowReadAt gt r (devs.map fun p => (p.1.val, BitVec.ofNat 8 p.2.val))).data ∧ (t.tx gt).copyRow = r ∧ t.rows = s.rows)
  ∧ (∀ (gt : Tile) (s : State),
      s.getB (Reg.TIL_COLMAP_CTL gt) 9 = true → s.copyNext gt (s.tx gt).copyRow = none → (s.tx gt).copyEnd < s.now → s.warmHeld = false →
      Runs (.tilColmapDone gt) s (Fld.raised ||| Fld.tiles) fun t =>
        (t.tx gt).map = (s.tx gt).mapNext ∧ (t.tx gt).mapNext = [none, none, none, none] ∧ t.getB (Reg.TIL_COLMAP_CTL gt) 9 = false ∧
        t.rawBit 4 gt Ev.TIL_COLMAP_DONE = true)
  ∧ (∀ (rq : Requester) (gt : Tile) (ix : Fin 512) (v : Word) (s : State),
      s.pageReset 4 gt = false → Requester.trims rq = true → s.getB (Reg.TIL_TRIM_WIN_CTL gt) 0 = true → s.inRun gt = false →
      s.getF (Reg.TIL_TRIM_WIN_CTL gt) 1 1 ≠ s.bankOf gt →
      Runs (.trimWinWrite rq gt ix v) s (Fld.raised ||| Fld.heldWrites ||| Fld.trims) fun t =>
        (s.getB (Reg.TIL_TRIM_WIN_CTL gt) 2 = false → ix.val < 264 → ∀ k : Nat, k < 2 →
          t.trim gt (s.getF (Reg.TIL_TRIM_WIN_CTL gt) 1 1) (2 * ix + k) = fld v (16 * k) 6 + fld v (16 * k + 8) 6 * 256) ∧
        (s.getB (Reg.TIL_TRIM_WIN_CTL gt) 2 = true → ix.val < 256 → ∀ k : Nat, k < 4 →
          t.trim gt (s.getF (Reg.TIL_TRIM_WIN_CTL gt) 1 1) (1024 + 4 * ix + k) = fld v (8 * k) 5) ∧
        (∀ i : Nat, i < 1024 → t.trim gt (s.bankOf gt) i = s.trim gt (s.bankOf gt) i) ∧ t.regs = s.regs)

/-- A launched rill ticket of each operation stores exactly the output row that the operation computes from its operand rows, with tail and side list,
in the lines of its OUT operand, and no other byte of any basin; the ticket has run. Readings that are the model's choice: log entries 7, 19, 28.
(R357, R253, R299) -/
def Obligations.RillRowOperations : Prop :=
  (∀ (isl : Isl) (idx : TktIx) (s : State),
      let x := s.tk isl idx;
      let r := s.readRow isl x.ctx x.inA 3 x.rlen;
      let y := (r.vals x.rlen).map (actVal x.p2 x.p0 x.p1 (if x.p2 = 2 then (s.readLines isl x.ctx x.lut 9).bytes else []));
      x.toRill 0x04 = true →
      Runs (.actOp isl idx) s
        (Fld.raised ||| Fld.leases ||| Fld.tickets ||| Fld.jobs ||| Fld.acct ||| Fld.ctxs ||| Fld.basin ||| Fld.lines ||| Fld.imports ||| Fld.ends) fun t =>
        RowOut s t isl idx (padLines (packVals y) ++ (⟨0, 0, 3, flagsOf y ||| r.tail.rstat ||| r.shape 3 x.rlen, x.rlen, 0, false, 0⟩ : Tail).bytes) ∧
        (t.tk isl idx).rstat = flagsOf y ||| r.tail.rstat ||| r.shape 3 x.rlen)
  ∧ (∀ (isl : Isl) (idx : TktIx) (s : State),
      let x := s.tk isl idx;
      let r := s.readRow isl x.ctx x.inA 3 x.rlen;
      let a := s.readRow isl x.ctx x.auxA 3 x.rlen;
      let y := ((r.vals x.rlen).zip (a.vals x.rlen)).map fun p => fAdd p.1 p.2;
      let st := flagsOf y ||| r.tail.rstat ||| r.shape 3 x.rlen ||| a.tail.rstat ||| a.shape 3 x.rlen;
      x.toRill 0x05 = true →
      Runs (.addOp isl idx) s
        (Fld.raised ||| Fld.leases ||| Fld.tickets ||| Fld.jobs ||| Fld.acct ||| Fld.ctxs ||| Fld.basin ||| Fld.lines ||| Fld.imports ||| Fld.ends) fun t =>
        RowOut s t isl idx (padLines (packVals y) ++ (⟨0, 0, 3, st, x.rlen, 0, false, 0⟩ : Tail).bytes) ∧ (t.tk isl idx).rstat = st)
  ∧ (∀ (isl : Isl) (idx : TktIx) (s : State),
      let x := s.tk isl idx;
      let r := s.readRow isl x.ctx x.inA 3 x.rlen;
      let a := s.readRow isl x.ctx x.auxA 3 x.rlen;
      let y := ((r.vals x.rlen).zip (a.vals x.rlen)).map fun p => fMul p.1 p.2;
      let st := flagsOf y ||| r.tail.rstat ||| r.shape 3 x.rlen ||| a.tail.rstat ||| a.shape 3 x.rlen;
      x.toRill 0x06 = true →
      Runs (.mulOp isl idx) s
        (Fld.raised ||| Fld.leases ||| Fld.tickets ||| Fld.jobs ||| Fld.acct ||| Fld.ctxs ||| Fld.basin ||| Fld.lines ||| Fld.imports ||| Fld.ends) fun t =>
        RowOut s t isl idx (padLines (packVals y) ++ (⟨0, 0, 3, st, x.rlen, 0, false, 0⟩ : Tail).bytes) ∧ (t.tk isl idx).rstat = st)
  ∧ (∀ (isl : Isl) (idx : TktIx) (s : State),
      let x := s.tk isl idx;
      let r := s.readRow isl x.ctx x.inA 3 x.rlen;
      let y := normVals (x.rflag 3) (s.readLines isl x.ctx x.lut 9).bytes (r.vals x.rlen);
      let st := flagsOf y ||| r.tail.rstat ||| r.shape 3 x.rlen;
      x.toRill 0x07 = true →
      Runs (.normOp isl idx) s
        (Fld.raised ||| Fld.leases ||| Fld.tickets ||| Fld.jobs ||| Fld.acct ||| Fld.ctxs ||| Fld.basin ||| Fld.lines ||| Fld.imports ||| Fld.ends) fun t =>
        RowOut s t isl idx (padLines (packVals y) ++ (⟨0, 0, 3, st, x.rlen, 0, false, 0⟩ : Tail).bytes) ∧ (t.tk isl idx).rstat = st)
  ∧ (∀ (isl : Isl) (idx : TktIx) (s : State),
      let x := s.tk isl idx;
      let r := s.readRow isl x.ctx x.inA 3 x.rlen;
      let y := softmaxVals (s.readLines isl x.ctx x.lut 9).bytes (r.vals x.rlen);
      let st := flagsOf y ||| r.tail.rstat ||| r.shape 3 x.rlen;
      x.toRill 0x08 = true →
      Runs (.softmax isl idx) s
        (Fld.raised ||| Fld.leases ||| Fld.tickets ||| Fld.jobs ||| Fld.acct ||| Fld.ctxs ||| Fld.basin ||| Fld.lines ||| Fld.imports ||| Fld.ends) fun t =>
        RowOut s t isl idx (padLines (packVals y) ++ (⟨0, 0, 3, st, x.rlen, 0, false, 0⟩ : Tail).bytes) ∧ (t.tk isl idx).rstat = st)
  ∧ (∀ (isl : Isl) (idx : TktIx) (s : State),
      let x := s.tk isl idx;
      let r := s.readRow isl x.ctx x.inA 3 x.rlen;
      let f := if x.rflag 2 then 1 else 0;
      let q := quantVals f ((r.entries.map (·.1)).filter (· < x.rlen)) (r.vals x.rlen);
      let good := r.listBad = 0 && r.tail.cnt != 0;
      x.toRill 0x02 = true →
      Runs (.quant isl idx) s
        (Fld.raised ||| Fld.leases ||| Fld.tickets ||| Fld.jobs ||| Fld.acct ||| Fld.ctxs ||| Fld.basin ||| Fld.lines ||| Fld.imports ||| Fld.ends) fun t =>
        RowOut s t isl idx (padLines (packCodes f q.1) ++ (⟨q.2.1, 0, f, (t.tk isl idx).rstat, x.rlen, if good then r.tail.cnt else 0,
          good && r.tail.ovf, if good then r.tail.chk else 0⟩ : Tail).bytes ++ if good then r.side else []) ∧
        (t.tk isl idx).rstat = r.tail.rstat ||| r.shape 3 x.rlen ||| flagsOf (r.vals x.rlen) ||| q.2.2 ||| flagIf (r.listBad != 0) rsEscOvf)
  ∧ (∀ (isl : Isl) (idx : TktIx) (s : State),
      let x := s.tk isl idx;
      let r := s.readRow isl x.ctx x.inA 3 x.rlen;
      let v := r.vals x.rlen;
      let cand := (List.range x.rlen).filter fun i => i < r.tail.len && finiteWord (BitVec.ofNat 32 (leAt r.data (4 * i) 4)) && fLt (fBf x.p0) (fAbs (at0 fZero v i));
      let sel := cand.filter ((cand.foldl (fun l i => insertCand v i l) []).take (min 16 x.p2)).contains;
      let line := sideLine (sel.map fun i => (i, bfOf (at0 fZero v i).w));
      x.toRill 0x03 = true →
      Runs (.outsel isl idx) s
        (Fld.raised ||| Fld.leases ||| Fld.tickets ||| Fld.jobs ||| Fld.acct ||| Fld.ctxs ||| Fld.basin ||| Fld.lines ||| Fld.imports ||| Fld.ends) fun t =>
        RowOut s t isl idx (padLines (packVals v) ++ (⟨0, 0, 3, (t.tk isl idx).rstat, r.tail.len, sel.length, cand.length - sel.length != 0,
          (crc32c line).toNat⟩ : Tail).bytes ++ line))

/-- COPY stores its value or token row with tail and side list; a DESCALE of an acknowledgement that needs no repeat stores 512 values and takes the
acknowledgement, one with a mismatch keeps it for a repeat and stores nothing; the repeat takes two entries with the pulse's expansion; GQUANT
stores a gradient row on the forward scale; OUTER stores its accumulated products; OPTSTEP writes the new frame and slab, or nothing where a level
is illegal. Stores lie within the operand's lines. Readings that are the model's choice: log entries 22, 27, 28, 34, 36. (R357, R265, R847, R427,
R432, R441) -/
def Obligations.RillDescaleAndTraining : Prop :=
  (∀ (isl : Isl) (idx : TktIx) (s : State),
      let x := s.tk isl idx;
      let r := s.readRow isl x.ctx x.inA 3 x.rlen;
      let st := r.tail.rstat ||| r.shape 3 x.rlen ||| flagsOf (r.vals x.rlen);
      x.toRill 0x0B = true → s.copyFmt isl x.ctx x.inA x.rlen = 3 →
      Runs (.copyOp isl idx) s
        (Fld.raised ||| Fld.leases ||| Fld.tickets ||| Fld.jobs ||| Fld.acct ||| Fld.ctxs ||| Fld.basin ||| Fld.lines ||| Fld.imports ||| Fld.ends) fun t =>
        RowOut s t isl idx (padLines (packVals (r.vals x.rlen)) ++ patchAt r.tailBytes 4 (leBytes st 2) ++ if r.tail.cnt = 0 then [] else r.side) ∧
        (t.tk isl idx).rstat = st)
  ∧ (∀ (isl : Isl) (idx : TktIx) (s : State),
      let x := s.tk isl idx;
      let f := s.copyFmt isl x.ctx x.inA x.rlen;
      let r := s.readRow isl x.ctx x.inA f x.rlen;
      let d := tabulate (rowBytes f x.rlen) fun i => if f = 1 && x.rlen % 2 = 1 && i + 1 = rowBytes f x.rlen then at0 0 r.data i &&& 0xF#8 else at0 0 r.data i;
      x.toRill 0x0B = true → s.copyFmt isl x.ctx x.inA x.rlen ≠ 3 →
      Runs (.copyOp isl idx) s
        (Fld.raised ||| Fld.leases ||| Fld.tickets ||| Fld.jobs ||| Fld.acct ||| Fld.ctxs ||| Fld.basin ||| Fld.lines ||| Fld.imports ||| Fld.ends) fun t =>
        RowOut s t isl idx (padLines d ++ r.tailBytes ++ if r.tail.cnt = 0 then [] else r.side) ∧ (t.tk isl idx).rstat = r.tail.rstat)
  ∧ (∀ (isl : Isl) (idx : TktIx) (a : AckRec) (s : State),
      let x := s.tk isl idx;
      let y := tabulate 512 fun i => sliceValue a x.p0 i;
      let c := compareCounts (a.mode = 1) a.counts a.samp.g a.samp.tol a.samp.win a.samp.refEn;
      x.toRill 0x01 = true → s.ackFor x = some a → a.mode ≠ 2 → (a.status % 4 ≠ 0 ∨ c.miss = 0 ∧ c.refBad = 0) → x.dyn = 0 → x.kx = 0 →
      x.rflag 0 = false → x.rflag 1 = false →
      Runs (.descale isl idx) s
        (Fld.raised ||| Fld.leases ||| Fld.tickets ||| Fld.acks ||| Fld.jobs ||| Fld.acct ||| Fld.ctxs ||| Fld.basin ||| Fld.lines ||| Fld.rows |||
         Fld.tiles ||| Fld.nextRep ||| Fld.imports ||| Fld.dyns ||| Fld.tests ||| Fld.cal ||| Fld.ends ||| Fld.rplChecks) fun t =>
        RowOut s t isl idx (padLines (packVals y) ++ (⟨0, 0, 3, (t.tk isl idx).rstat, 512, 0, false, 0⟩ : Tail).bytes) ∧ t.acks = s.acks.erase a)
  ∧ (∀ (isl : Isl) (idx : TktIx) (a : AckRec) (s : State),
      let x := s.tk isl idx;
      let c := compareCounts (a.mode = 1) a.counts a.samp.g a.samp.tol a.samp.win a.samp.refEn;
      x.toRill 0x01 = true → s.ackFor x = some a → a.mode ≠ 2 → a.status % 4 = 0 → (c.miss ≠ 0 ∨ c.refBad ≠ 0) → x.dyn = 0 → a.isRepeat = false →
      Runs (.descale isl idx) s
        (Fld.raised ||| Fld.leases ||| Fld.tickets ||| Fld.acks ||| Fld.jobs ||| Fld.acct ||| Fld.ctxs ||| Fld.basin ||| Fld.lines ||| Fld.rows |||
         Fld.tiles ||| Fld.nextRep ||| Fld.imports ||| Fld.dyns ||| Fld.tests ||| Fld.cal ||| Fld.ends ||| Fld.rplChecks) fun t =>
        t.acks = s.acks.erase a ++ [{ a with repKey := 2 ^ 20 + s.nextRep, dtk := [x] }] ∧ t.basin = s.basin ∧ (t.tk isl idx).ran = true ∧
        (t.tk isl idx).status = 32)
  ∧ (∀ (isl : Isl) (a : AckRec) (d : Ticket) (i j : Nat) (s : State),
      (s.acks.find? fun a => a.repKey != 0 && a.tile / 16 = isl.val) = some a →
      ((List.range 256).filter fun i => (s.tk isl i).state = 0).take 2 = [i, j] → a.dtk.head? = some d → (s.job a.job).st = 3 →
      (s.job a.job).failed = false →
      Runs (.repeatPulse isl) s (Fld.regs ||| Fld.tickets ||| Fld.acks) fun t =>
        t.acks = s.acks.erase a ∧ (t.tk isl i).state = 1 ∧ (t.tk isl i).action = (if a.mode = 1 then 2 else 1) ∧ (t.tk isl i).isRepeat = true ∧
        (t.tk isl i).launch = s.now + 1 ∧ (t.tk isl i).ex = a.ex ∧ (t.tk isl j).state = 1 ∧ (t.tk isl j).isRepeat = true ∧
        (t.tk isl j).launch = s.now + 1)
  ∧ (∀ (isl : Isl) (idx : TktIx) (s : State),
      let x := s.tk isl idx;
      let r := s.readRow isl x.ctx x.inA 3 x.rlen;
      let a := s.readBytes isl x.ctx (tailAdr x.auxA 0 x.rlen) 64;
      let sc := (parseTail a.bytes).scale;
      let dead := bfDead sc || bfDead x.p0;
      let q := (r.vals x.rlen).map fun v => if dead then 0 else fTruncMulDiv v (fBf sc) (fBf x.p0);
      x.toRill 0x0D = true →
      Runs (.gquant isl idx) s
        (Fld.raised ||| Fld.leases ||| Fld.tickets ||| Fld.jobs ||| Fld.acct ||| Fld.ctxs ||| Fld.basin ||| Fld.lines ||| Fld.imports ||| Fld.ends) fun t =>
        RowOut s t isl idx (padLines (packCodes 0 (q.map (clampI (-127) 127))) ++ (⟨if dead then 0 else bfOf (fDiv (fBf x.p0) (fBf sc)).w, 0, 0,
          (t.tk isl idx).rstat, x.rlen, 0, false, 0⟩ : Tail).bytes) ∧
        (t.tk isl idx).rstat = r.tail.rstat ||| (parseTail a.bytes).rstat ||| r.shape 3 x.rlen ||| flagsOf (r.vals x.rlen))
  ∧ (∀ (isl : Isl) (idx : TktIx) (s : State),
      let x := s.tk isl idx;
      let r := s.outerReads isl x;
      let cs := r.1.map fun b => b.bytes.map fun y => if y = 0x80#8 then (0 : Int) else sbyte y;
      let vs := r.2.1.map fun b => b.bytes.map (outerVal (x.p0 % 4) (x.p0 / 256));
      x.toRill 0x09 = true →
      Runs (.outer isl idx) s
        (Fld.raised ||| Fld.leases ||| Fld.tickets ||| Fld.jobs ||| Fld.acct ||| Fld.ctxs ||| Fld.basin ||| Fld.lines ||| Fld.imports ||| Fld.ends) fun t =>
        RowOut s t isl idx (outerBytes (outerExact cs vs fun w => if x.rflag 1 then sgn 32 (leAt r.2.2.bytes (4 * w) 4) else 0)))
  ∧ (∀ (isl : Isl) (idx : TktIx) (s : State),
      let x := s.tk isl idx;
      let fr := s.readBytes isl x.ctx x.inA 28672;
      let ac := s.readBytes isl x.ctx x.auxA 32768;
      let slab := (List.range 128).map fun i => (s.readBytes isl x.ctx (x.outA + 512 * i) 64).bytes;
      let rows := optRows fr.bytes ac.bytes slab (fBf x.p0) (fInt x.p2 (-8));
      x.toRill 0x0A = true →
      Runs (.optstep isl idx) s
        (Fld.raised ||| Fld.leases ||| Fld.tickets ||| Fld.jobs ||| Fld.acct ||| Fld.ctxs ||| Fld.basin ||| Fld.lines ||| Fld.imports ||| Fld.ends) fun t =>
        (t.tk isl idx).ran = true ∧ ((slab.any fun b => b.any fun y => 63 < y.toNat) = true → t.basin = s.basin) ∧
        ((slab.any fun b => b.any fun y => 63 < y.toNat) = false →
          t.basin = ((s.writeBytes isl x.ctx x.inA (optFrame fr.bytes rows) false).1.writeSlab isl x.ctx x.outA (optLevels rows)).1.basin))

/-- GET_VERSION starts the responder at stage 1 and answers 1.2; each further request is answered at its stage and moves stage or session on, draws free
bytes for signatures and keys, and out of order is answered with error 4, for a wrong slot or index with error 1; KEY_EXCHANGE, FINISH and
END_SESSION move the session through 1, 2 and 0; any other request is answered with error 7. IDE_KM inside an established session with IDE_ALLOW 1
sets the link's IDE bit and else changes no register. Readings that are the model's choice: log entries 25, 11. (R687, R688, R725) -/
def Obligations.SpdmResponder : Prop :=
  (∀ (f : Ctx) (s : State),
      Runs (.getVersion f) s (Fld.out ||| Fld.spdm) fun t =>
        t.spdmOf f = { stage := 1 } ∧ t.out = .spdm 0x04 [0x12] :: s.out)
  ∧ (∀ (f : Ctx) (s : State),
      let x := s.spdmOf f;
      Runs (.getCapabilities f) s (Fld.out ||| Fld.draws ||| Fld.spdm) fun t =>
        (x.stage = 0 → t.spdm = s.spdm ∧ t.out = .spdm 0x7F [4] :: s.out) ∧
        (x.stage ≠ 0 → t.spdmOf f = { x with stage := max 2 x.stage } ∧ t.out = .spdm 0x61 (s.freeBytes 16).1 :: s.out))
  ∧ (∀ (f : Ctx) (offered : Bool) (s : State),
      let x := s.spdmOf f;
      Runs (.negotiateAlgorithms f offered) s (Fld.out ||| Fld.spdm) fun t =>
        (x.stage < 2 → t.spdm = s.spdm ∧ t.out = .spdm 0x7F [4] :: s.out) ∧
        (2 ≤ x.stage → offered = false → t.spdm = s.spdm ∧ t.out = .spdm 0x7F [1] :: s.out) ∧
        (2 ≤ x.stage → offered = true → t.spdmOf f = { x with stage := 3 } ∧ t.out = .spdm 0x63 [0x80, 0x02] :: s.out))
  ∧ (∀ (f : Ctx) (s : State),
      Runs (.getDigests f) s Fld.out fun t =>
        ((s.spdmOf f).stage < 3 → t.out = .spdm 0x7F [4] :: s.out) ∧ (3 ≤ (s.spdmOf f).stage → t.out = .spdm 0x01 (1 :: digest s.certChain) :: s.out))
  ∧ (∀ (f : Ctx) (slot : Fin 8) (off len : Fin 65536) (s : State),
      let part := (s.certChain.drop off).take len;
      Runs (.getCertificate f slot off len) s Fld.out fun t =>
        ((s.spdmOf f).stage < 3 → t.out = .spdm 0x7F [4] :: s.out) ∧ (3 ≤ (s.spdmOf f).stage → slot.val ≠ 0 → t.out = .spdm 0x7F [1] :: s.out) ∧
        (3 ≤ (s.spdmOf f).stage → slot.val = 0 → t.out = .spdm 0x02 (leBytes part.length 2 ++ leBytes (s.certChain.length - off - part.length) 2 ++
          part) :: s.out))
  ∧ (∀ (f : Ctx) (slot : Fin 8) (s : State),
      Runs (.challenge f slot) s (Fld.out ||| Fld.draws) fun t =>
        ((s.spdmOf f).stage < 3 → t.out = .spdm 0x7F [4] :: s.out) ∧ (3 ≤ (s.spdmOf f).stage → slot.val ≠ 0 → t.out = .spdm 0x7F [1] :: s.out) ∧
        (3 ≤ (s.spdmOf f).stage → slot.val = 0 → t.out = .spdm 0x03 (digest s.certChain ++ (s.freeBytes 128).1) :: s.out ∧ t.draws = s.draws + 1))
  ∧ (∀ (f : Ctx) (index : Byte) (signed : Bool) (s : State),
      let i := index.toNat;
      3 ≤ (s.spdmOf f).stage → signed = false →
      Runs (.getMeasurements f index signed) s (Fld.out ||| Fld.draws) fun t =>
        (7 < i → i ≠ 255 → t.out = .spdm 0x7F [1] :: s.out) ∧ (i = 0 → t.out = .spdm 0x60 [7] :: s.out) ∧
        (1 ≤ i → i ≤ 7 → t.out = .spdm 0x60 (index :: s.measurement f i) :: s.out) ∧
        (i = 255 → t.out = .spdm 0x60 ((List.range 7).flatMap fun k => BitVec.ofNat 8 (k + 1) :: s.measurement f (k + 1)) :: s.out))
  ∧ (∀ (f : Ctx) (index : Byte) (signed : Bool) (s : State),
      let i := index.toNat;
      3 ≤ (s.spdmOf f).stage → signed = true →
      Runs (.getMeasurements f index signed) s (Fld.out ||| Fld.draws) fun t =>
        (i = 0 → t.out = .spdm 0x60 ([7] ++ (s.freeBytes 96).1) :: s.out) ∧
        (1 ≤ i → i ≤ 7 → t.out = .spdm 0x60 (index :: s.measurement f i ++ (s.freeBytes 96).1) :: s.out))
  ∧ (∀ (f : Ctx) (s : State),
      Runs (.keyExchange f) s (Fld.out ||| Fld.draws ||| Fld.spdm) fun t =>
        ((s.spdmOf f).stage < 3 → t.spdm = s.spdm ∧ t.out = .spdm 0x7F [4] :: s.out) ∧
        (3 ≤ (s.spdmOf f).stage → t.spdmOf f = { s.spdmOf f with session := 1 } ∧ t.out = .spdm 0x64 (s.freeBytes 128).1 :: s.out))
  ∧ (∀ (f : Ctx) (ok : Bool) (s : State),
      let x := s.spdmOf f;
      Runs (.finish f ok) s (Fld.out ||| Fld.draws ||| Fld.spdm) fun t =>
        (x.session ≠ 1 → t.spdm = s.spdm ∧ t.out = .spdm 0x7F [4] :: s.out) ∧
        (x.session = 1 → ok = false → t.spdmOf f = { x with session := 0 } ∧ t.out = .spdm 0x7F [6] :: s.out) ∧
        (x.session = 1 → ok = true → t.spdmOf f = { x with session := 2 } ∧ t.out = .spdm 0x65 (s.freeBytes 48).1 :: s.out))
  ∧ (∀ (f : Ctx) (s : State),
      let x := s.spdmOf f;
      Runs (.endSession f) s (Fld.out ||| Fld.spdm) fun t =>
        (x.session ≠ 2 → t.spdm = s.spdm ∧ t.out = .spdm 0x7F [2] :: s.out) ∧
        (x.session = 2 → t.spdmOf f = { x with session := 0 } ∧ t.out = .spdm 0x6C [] :: s.out))
  ∧ (∀ (f : Ctx) (s : State),
      Runs (.spdmUnsupported f) s Fld.out fun t =>
        t.out = .spdm 0x7F [7] :: s.out)
  ∧ (∀ (f : Ctx) (s : State),
      let yes := decide ((s.spdmOf f).session = 2) && s.getB Reg.HIF_CTL 1;
      Runs (.ideKm f) s (Fld.regs ||| Fld.out ||| Fld.draws) fun t =>
        (yes = true → t.getB Reg.HIF_LINK_STS 10 = true ∧ t.out = .spdm 0x7E (s.freeBytes 4).1 :: s.out) ∧
        (yes = false → t.regs = s.regs ∧ t.out = .spdm 0x7F [] :: s.out) ∧ RegsOnly [Reg.HIF_LINK_STS] s t)

/-- A due tile with a source is marked PENDING and one WRITE_TILES ticket of its source, or of its level copies, is entered; without a source it ends
with result 3. A verify read compares its row and goes on; the last clean row ends with result 1 and ISL_REPROG. A near-miss window's end clears the
count and raises ISL_NEAR_RATE where it was above the threshold. A valid basin line with an uncorrectable error is poisoned, its bytes unchanged,
and ISL_CHK_FAIL is counted and raised. Readings that are the model's choice: log entry 65. (R851, R856, R839) -/
def Obligations.IntegrityOfTilesAndBasin : Prop :=
  (∀ (gt : Tile) (c : ShardSrc) (idx : Nat) (s : State),
      let at' := s.now + 16 * max 1 (s.getF Reg.FRY_CTL 8 8);
      s.reprogDue gt = true → s.getB (Reg.ISL_ADP_TILES (gt.val / 16)) (gt.val % 16) = false → (s.tx gt).src = some c →
      s.freeIdx (gt.val / 16) = some idx →
      Runs (.reprogramStart gt) s (Fld.raised ||| Fld.tickets ||| Fld.rows ||| Fld.tiles ||| Fld.runs ||| Fld.nextRun ||| Fld.cal) fun t =>
        (t.tx gt).reStep = 2 ∧ (t.tx gt).reCause = (s.tx gt).needReprog ∧ (t.tx gt).needReprog = 0 ∧
        t.getB (Reg.ISL_REPROG_STS (gt.val / 16)) (gt.val % 16) = true ∧
        t.tk (gt.val / 16) idx = { state := 1, launch := at', planned := at', dln := 5152, uclass := 3, action := 7, ctx := c.ctx, iter := gt.val + 1 })
  ∧ (∀ (gt : Tile) (idx : Nat) (s : State),
      let at' := s.now + 16 * max 1 (s.getF Reg.FRY_CTL 8 8);
      let ctx := (s.owner gt).getD 0;
      s.reprogDue gt = true → s.getB (Reg.ISL_ADP_TILES (gt.val / 16)) (gt.val % 16) = true → s.freeIdx (gt.val / 16) = some idx →
      Runs (.reprogramStart gt) s (Fld.raised ||| Fld.tickets ||| Fld.rows ||| Fld.tiles ||| Fld.runs ||| Fld.nextRun ||| Fld.cal) fun t =>
        (t.tx gt).reStep = 2 ∧ t.getB (Reg.ISL_REPROG_STS (gt.val / 16)) (gt.val % 16) = true ∧
        t.tk (gt.val / 16) idx = { state := 1, launch := at', planned := at', dln := 5152, uclass := 3, action := 7, ctx := ctx, iter := gt.val + 1 } ∧
        t.run s.nextRun = { gt := gt.val + 1, copies := true, ctx := ctx, block := (s.reg (Reg.ISL_ADP_SRC (gt.val / 16) (gt.val % 16))).toNat % 2 ^ 26 } ∧
        t.nextRun = s.nextRun + 1)
  ∧ (∀ (gt : Tile) (s : State),
      s.reprogDue gt = true → s.getB (Reg.ISL_ADP_TILES (gt.val / 16)) (gt.val % 16) = false → (s.tx gt).src = none →
      Runs (.reprogramStart gt) s (Fld.raised ||| Fld.tickets ||| Fld.rows ||| Fld.tiles ||| Fld.runs ||| Fld.nextRun ||| Fld.cal) fun t =>
        (t.tx gt).reStep = 0 ∧ t.getB (Reg.ISL_REPROG_STS (gt.val / 16)) (gt.val % 16) = false ∧ t.getF (Reg.ISL_REPROG_STS (gt.val / 16)) 20 2 = 3 ∧
        t.getF (Reg.ISL_REPROG_STS (gt.val / 16)) 22 2 = 3 ∧ t.tickets = s.tickets)
  ∧ (∀ (gt : Tile) (devs : List (Fin 528 × Fin 64)) (s : State),
      let x := s.tx gt;
      let dv := devs.map fun p => (p.1.val, BitVec.ofNat 8 p.2.val);
      let bad := !(s.row gt x.reRow).valid || rowTerm x.reRow (override (s.row gt x.reRow).levels dv) != (s.row gt x.reRow).term;
      x.reStep = 3 → s.tileBusy gt = false → s.tileFenced gt = false → x.reTick + 5 ≤ s.now → s.quiet gt 5 = true → s.locked gt = true →
      (s.grant (gt.val / 16) (1, 1)).isSome = true → x.reRow < 1023 →
      Runs (.reprogramVerify gt devs) s (Fld.raised ||| Fld.acct ||| Fld.rows ||| Fld.tiles ||| Fld.tests ||| Fld.cal ||| Fld.rplChecks) fun t =>
        t.tx gt = { x with reRow := x.reRow + 1, reTick := s.now, reBad := x.reBad || bad } ∧
        t.get64 (Reg.TIL_ROWOP_CNT_LO gt) (Reg.TIL_ROWOP_CNT_HI gt) = (s.get64 (Reg.TIL_ROWOP_CNT_LO gt) (Reg.TIL_ROWOP_CNT_HI gt) + 1) % 2 ^ 64 ∧
        t.rows = s.rows)
  ∧ (∀ (gt : Tile) (devs : List (Fin 528 × Fin 64)) (s : State),
      let x := s.tx gt;
      let dv := devs.map fun p => (p.1.val, BitVec.ofNat 8 p.2.val);
      let w := s.row gt x.reRow;
      x.reStep = 3 → s.tileBusy gt = false → s.tileFenced gt = false → x.reTick + 5 ≤ s.now → s.quiet gt 5 = true → s.locked gt = true →
      (s.grant (gt.val / 16) (1, 1)).isSome = true → x.reRow = 1023 → x.reCause ≠ 9 → x.reBad = false → w.valid = true →
      rowTerm x.reRow (override w.levels dv) = w.term → s.warmHeld = false →
      Runs (.reprogramVerify gt devs) s (Fld.raised ||| Fld.acct ||| Fld.rows ||| Fld.tiles ||| Fld.tests ||| Fld.cal ||| Fld.rplChecks) fun t =>
        (t.tx gt).reStep = 0 ∧ t.getF (Reg.ISL_REPROG_STS (gt.val / 16)) 20 2 = 1 ∧ t.getF (Reg.ISL_REPROG_STS (gt.val / 16)) 16 4 = gt.val % 16 ∧
        t.rawBit 3 (gt.val / 16) Ev.ISL_REPROG = true)
  ∧ (∀ (gt : Tile) (s : State),
      let x := s.tx gt;
      x.nearWin < s.now / 2 ^ 17 →
      Runs (.nearMissWindowEnd gt) s (Fld.raised ||| Fld.rows ||| Fld.tiles ||| Fld.tests ||| Fld.cal ||| Fld.rplChecks) fun t =>
        (t.tx gt).near = 0 ∧ (t.tx gt).nearWin = s.now / 2 ^ 17 ∧
        (x.near ≤ s.getF (Reg.ISL_INT_CTL (gt.val / 16)) 0 12 → t.hdr = s.hdr ∧ t.regs = s.regs) ∧
        (s.getF (Reg.ISL_INT_CTL (gt.val / 16)) 0 12 < x.near → s.warmHeld = false → t.rawBit 3 (gt.val / 16) Ev.ISL_NEAR_RATE = true))
  ∧ (∀ (isl : Isl) (line : Fin 65536) (s : State),
      (s.lineAt isl line).valid = true → s.warmHeld = false →
      Runs (.basinLineUe isl line) s (Fld.raised ||| Fld.lines) fun t =>
        t.lineAt isl line = { valid := true, poison := true } ∧ t.rawBit 3 isl Ev.ISL_CHK_FAIL = true ∧
        t.reg (Reg.ISL_CHK_FAIL_CNT isl) = BitVec.ofNat 32 (satAdd 0xFFFFFFFF (s.reg (Reg.ISL_CHK_FAIL_CNT isl)).toNat 1) ∧ t.basin = s.basin ∧
        RegsBut [Reg.ISL_CHK_FAIL_CNT isl] s t)

/-- A sample stores each good reading, marks each bad sensor and sets TJ_MAX at or above every Tj; a sensor that reads out of range or is silent for
375,000 ticks is marked with THM_SENSOR; the trip sets its bit, stops the sluice and raises THM_TRIP; a stack temperature sets its register and the
doubled rate above 85 °C; without REFCLK the tide goes to holdover, raises TIDE_UNLOCK, and no tile is locked. Readings that are the model's choice:
log entries 66, 2. (R819, R823, R822, R1110, R1105) -/
def Obligations.TemperaturesAndReference : Prop :=
  (∀ (temps : List (Isl × Int)) (s : State),
      (temps.map (·.1)).Nodup →
      Runs (.thermalSample temps) s (Fld.raised ||| Fld.tiles ||| Fld.thm) fun t =>
        (∀ e ∈ temps, tjGood e.2 = true → t.tj e.1 = twos 8 e.2 ∧ t.sensBad e.1 = false) ∧ (∀ e ∈ temps, tjGood e.2 = false → t.sensBad e.1 = true) ∧
        (∀ i : Nat, i < 64 → sgn 8 (t.tj i) ≤ sgn 8 (t.getF Reg.THM_TJ_MAX 0 8)))
  ∧ (∀ (isl : Isl) (reading : Option Int) (s : State),
      let bad := match reading with | some v => !tjGood v | none => decide (Store.get flagZero s.thm.last isl + 375000 ≤ s.now);
      bad = true → s.sensBad isl = false → s.warmHeld = false →
      Runs (.thmSensor isl reading) s (Fld.raised ||| Fld.tiles ||| Fld.thm) fun t =>
        t.sensBad isl = true ∧ t.rawBit 0x14 0 Ev.THM_SENSOR = true ∧ t.getB Reg.THM_STS 2 = true)
  ∧ (∀ (isl : Isl) (s : State),
      s.getB Reg.THM_STS 1 = false → s.warmHeld = false →
      Runs (.thmTrip isl) s (Fld.raised ||| Fld.slu) fun t =>
        t.getB Reg.THM_STS 1 = true ∧ t.slu.tripped = true ∧ t.rawBit 0x14 0 Ev.THM_TRIP = true ∧ RegsBut [Reg.THM_STS] s t)
  ∧ (∀ (h : Stack) (t : BitVec 8) (s : State),
      let v := t;
      Runs (.stackTj h t) s (Fld.regs ||| Fld.hbr) fun t =>
        t.getF (Reg.HBR_STACK_TJ h) 0 8 = v.toNat ∧ (t.hbx h).fast = decide (85 < sgn 8 v.toNat) ∧ RegsOnly [Reg.HBR_STACK_TJ h] s t)
  ∧ (∀ (torn : List Tile) (s : State),
      s.tide.refclk = true → s.getB Reg.TID_STS 2 = true → s.getB Reg.TID_CTL 0 = true → s.warmHeld = false →
      Runs (.refclkLoss torn) s
        (Fld.raised ||| Fld.tide ||| Fld.tickets ||| Fld.jobs ||| Fld.qps ||| Fld.ovf ||| Fld.landing ||| Fld.rows ||| Fld.tiles ||| Fld.tests |||
         Fld.ends) fun t =>
        t.tide.refclk = false ∧ t.getB Reg.TID_STS 0 = false ∧ t.getB Reg.TID_STS 1 = true ∧ t.rawBit 8 0 Ev.TIDE_UNLOCK = true ∧
        t.getB Reg.HIF_LINK_STS 11 = false ∧ (∀ g : Nat, g < 1024 → t.locked g = false))

/-- A renewal before the expiry edge moves the expiry of the lease it names and no other, and at the edge or later changes none; an expired flash lease
tears the write in hand, a vault lease empties the slot and fails the install, a plan lease unloads the plan, and each enters the lost leases; the
holder's next access raises LEASE_LOST and takes it from that list. Readings that are the model's choice: log entries 72, 80. (R805, R803, R949) -/
def Obligations.LeaseLifeCycle : Prop :=
  (∀ (res : Fin 7) (unit plan : Nat) (s : State),
      Runs (.leaseRenew res unit plan) s Fld.leases fun t =>
        ((res.val = 2 ∨ res.val = 3 ∨ res.val = 6) → t.leases = s.leases.map fun l => if leaseNamed res unit plan l = true ∧
          s.now < l.expiry then { l with expiry := s.now + 2 ^ 23 } else l) ∧
        (¬ (res.val = 2 ∨ res.val = 3 ∨ res.val = 6) → t.leases = s.leases))
  ∧ (∀ (res : Fin 7) (unit plan : Nat) (needed : Bool) (l : Lease) (w : FlashWrite) (ws : List FlashWrite) (s : State),
      s.leases.find? (fun l => l.res = res.val && l.unit = unit && l.plan = plan && decide (l.expiry ≤ s.now)) = some l → l.res = 6 →
      s.flashq = w :: ws → needed = false →
      Runs (.leaseExpiry res unit plan needed) s
        (Fld.raised ||| Fld.leases ||| Fld.tickets ||| Fld.acks ||| Fld.jobs ||| Fld.plans ||| Fld.acct ||| Fld.ctxs ||| Fld.qps ||| Fld.landing |||
         Fld.rows ||| Fld.tiles ||| Fld.harbour ||| Fld.hbPoison ||| Fld.hbWritten ||| Fld.frames ||| Fld.badSlots ||| Fld.owners ||| Fld.runs |||
         Fld.imports ||| Fld.dyns ||| Fld.tests ||| Fld.flash ||| Fld.cal ||| Fld.flashq ||| Fld.ends ||| Fld.rplChecks ||| Fld.lost |||
         Fld.sessions ||| Fld.torn) fun t =>
        t.torn = s.torn ++ [w] ∧ t.lost = s.lost ++ [l] ∧ ((t.flashq.map fun w => (w.kind, w.arg)) = ws.map fun w => (w.kind, w.arg)))
  ∧ (∀ (res : Fin 7) (unit plan : Nat) (needed : Bool) (l : Lease) (s : State),
      s.leases.find? (fun l => l.res = res.val && l.unit = unit && l.plan = plan && decide (l.expiry ≤ s.now)) = some l → l.res = 5 → l.owner < 64 →
      needed = false → s.warmHeld = false →
      Runs (.leaseExpiry res unit plan needed) s
        (Fld.raised ||| Fld.leases ||| Fld.tickets ||| Fld.acks ||| Fld.jobs ||| Fld.plans ||| Fld.acct ||| Fld.ctxs ||| Fld.qps ||| Fld.landing |||
         Fld.rows ||| Fld.tiles ||| Fld.harbour ||| Fld.hbPoison ||| Fld.hbWritten ||| Fld.frames ||| Fld.badSlots ||| Fld.owners ||| Fld.runs |||
         Fld.imports ||| Fld.dyns ||| Fld.tests ||| Fld.flash ||| Fld.cal ||| Fld.flashq ||| Fld.ends ||| Fld.rplChecks ||| Fld.lost |||
         Fld.sessions ||| Fld.torn) fun t =>
        t.lost = s.lost ++ [l] ∧ (t.leases.any fun x => x.res = 5 && x.owner = l.owner) = false ∧ t.slotKeyed l.owner = false ∧
        t.rawBit 19 l.owner Ev.CTX_KEY_FAIL = true ∧ (s.ctxSt l.owner ≠ 0 → t.ctxSt l.owner = 3))
  ∧ (∀ (res : Fin 7) (unit plan : Nat) (needed : Bool) (l : Lease) (s : State),
      s.leases.find? (fun l => l.res = res.val && l.unit = unit && l.plan = plan && decide (l.expiry ≤ s.now)) = some l → (l.res = 2 ∨ l.res = 3) →
      needed = false → (s.plan l.plan).live = true → (s.jobs.any fun e => e.2.plan = l.plan && e.2.st = 3) = false →
      Runs (.leaseExpiry res unit plan needed) s
        (Fld.raised ||| Fld.leases ||| Fld.tickets ||| Fld.acks ||| Fld.jobs ||| Fld.plans ||| Fld.acct ||| Fld.ctxs ||| Fld.qps ||| Fld.landing |||
         Fld.rows ||| Fld.tiles ||| Fld.harbour ||| Fld.hbPoison ||| Fld.hbWritten ||| Fld.frames ||| Fld.badSlots ||| Fld.owners ||| Fld.runs |||
         Fld.imports ||| Fld.dyns ||| Fld.tests ||| Fld.flash ||| Fld.cal ||| Fld.flashq ||| Fld.ends ||| Fld.rplChecks ||| Fld.lost |||
         Fld.sessions ||| Fld.torn) fun t =>
        t.lost = s.lost ++ [l] ∧ (t.plan l.plan).live = false)
  ∧ (∀ (res : Fin 7) (unit plan : Nat) (l : Lease) (s : State),
      s.lost.find? (fun l => l.res = res.val && l.unit = unit && l.plan = plan) = some l → s.torn = [] → s.warmHeld = false →
      Runs (.leaseLost res unit plan) s (Fld.raised ||| Fld.ownerKeys ||| Fld.lost ||| Fld.torn) fun t =>
        t.lost = s.lost.erase l ∧ t.rawBit 15 0 Ev.LEASE_LOST = true ∧ RegsBut [] s t)

/-- A window boundary latches the counters and clears them; a change of EN, filter or WIN clears them and restarts the window; SEND stores its lines in
the destination basin in order, and no other byte, and its ticket has run. Readings that are the model's choice: log entries 39, 29. (R322, R330,
R352) -/
def Obligations.WeirAndStrait : Prop :=
  (∀ (isl : Isl) (s : State),
      s.getB (Reg.ISL_WEIR_CTL isl) 0 = true → s.now % s.weirLen isl = 0 → s.now ≠ 0 → (s.wx isl).last ≠ s.now → (s.wx isl).resume = none →
      Runs (.weirWindowEnd isl) s (Fld.raised ||| Fld.weir ||| Fld.tests) fun t =>
        (∀ j : Nat, j < 128 → t.reg (Reg.ISL_CLIP_LAST isl j) = s.reg (Reg.ISL_CLIP_CNT isl j) ∧ t.reg (Reg.ISL_CLIP_CNT isl j) = 0) ∧
        t.reg (Reg.ISL_SAT_LAST isl) = s.reg (Reg.ISL_SAT_CNT isl) ∧ t.reg (Reg.ISL_SAT_CNT isl) = 0 ∧
        t.get64 (Reg.ISL_WIN_TICK_LO isl) (Reg.ISL_WIN_TICK_HI isl) = s.now - s.weirLen isl ∧
        (∀ j : Nat, j < 128 → t.getB (Reg.ISL_CLIP_MAP isl (j / 32)) (j % 32) = t.weirOver isl j))
  ∧ (∀ (rq : Requester) (isl : Isl) (v : Word) (s : State),
      let new := s.reg (Reg.ISL_WEIR_CTL isl) &&& ~~~ regMask (Reg.ISL_WEIR_CTL isl) ||| v &&& regMask (Reg.ISL_WEIR_CTL isl);
      s.pageReset 3 isl = false → (rq = .fn 0 ∨ Requester.inner rq = true) →
      Runs (.weirCtlWrite rq isl v) s (Fld.regs ||| Fld.heldWrites ||| Fld.weir) fun t =>
        t.reg (Reg.ISL_WEIR_CTL isl) = new ∧
        ((s.reg (Reg.ISL_WEIR_CTL isl) ^^^ new) &&& 0x000F3F03#32 ≠ 0 → (t.wx isl).resume = some ((s.now / t.weirLen isl + 1) * t.weirLen isl) ∧
          ∀ j : Nat, j < 128 → t.reg (Reg.ISL_CLIP_CNT isl j) = 0) ∧
        ((s.reg (Reg.ISL_WEIR_CTL isl) ^^^ new) &&& 0x000F3F03#32 = 0 → t.weir = s.weir))
  ∧ (∀ (isl : Isl) (idx : TktIx) (badSrc badDst : List (Fin 32)) (s : State),
      let x := s.tk isl idx;
      let bs := badSrc.filter fun b => b.val < (x.extent + 63) / 64;
      let bd := badDst.filter fun b => b.val < (x.extent + 63) / 64 && !bs.contains b;
      x.toRun 0x20 = true → x.rows = 0 → ((routeFrom x.dest 16 isl).any s.islFenced) = false →
      Runs (.send isl idx badSrc badDst) s
        (Fld.raised ||| Fld.leases ||| Fld.tickets ||| Fld.jobs ||| Fld.acct ||| Fld.ctxs ||| Fld.basin ||| Fld.lines ||| Fld.imports ||| Fld.ends) fun t =>
        t.basin = (s.moveLines isl x.dest x.ctx (x.inA / 64) (x.outA / 64) x.extent bs bd).1.basin ∧
        t.lines = (s.moveLines isl x.dest x.ctx (x.inA / 64) (x.outA / 64) x.extent bs bd).1.lines ∧ (t.tk isl idx).ran = true)
  ∧ (∀ (isl : Isl) (idx : TktIx) (badSrc badDst : List (Fin 32)) (s : State),
      let x := s.tk isl idx;
      x.toRun 0x20 = true → x.rows = 0 → ((routeFrom x.dest 16 isl).any s.islFenced) = true →
      Runs (.send isl idx badSrc badDst) s
        (Fld.raised ||| Fld.leases ||| Fld.tickets ||| Fld.jobs ||| Fld.acct ||| Fld.ctxs ||| Fld.basin ||| Fld.lines ||| Fld.imports ||| Fld.ends) fun t =>
        t.basin = s.basin ∧ t.leases = s.leases ++ [{ res := 1, unit := isl * 4 + x.uindex, kind := 1, owner := x.ctx, expiry := s.now + 4096 }] ∧
        t.tk isl idx = { x with rows := 1 })

/-- An issued ticket has the emission's action, class and launch tick in state 1; an origin starts the step at this tick with its number; an
acknowledgement frees the entry and no ticket waits for it any more, and that of a pulse adds one acknowledgement record; a miss raises TIDE_MISS
and fails the job with status 1, or slips it under a SLIP plan; a hang raises TIDE_HANG. Readings that are the model's choice: log entries 13, 32,
9. (R347, R743, R481, R483, R485) -/
def Obligations.TicketsAndSteps : Prop :=
  (∀ (isl : Isl) (j idx : Nat) (m : Em) (l : Nat) (s : State),
      s.dueEm isl = some (j, m, l) → (s.applyRehome (s.job j).plan).badItem ((s.applyRehome (s.job j).plan).plan (s.job j).plan) isl m = none →
      s.freeIdx isl = some idx →
      Runs (.ticketIssue isl) s
        (Fld.raised ||| Fld.leases ||| Fld.tickets ||| Fld.acks ||| Fld.jobs ||| Fld.plans ||| Fld.acct ||| Fld.ctxs ||| Fld.basin ||| Fld.lines |||
         Fld.qps ||| Fld.landing ||| Fld.rows ||| Fld.tiles ||| Fld.harbour ||| Fld.hbPoison ||| Fld.hbWritten ||| Fld.frames ||| Fld.badSlots |||
         Fld.owners ||| Fld.runs ||| Fld.tests ||| Fld.cal ||| Fld.ends ||| Fld.rplChecks) fun t =>
        (t.tk isl idx).state = 1 ∧ (t.tk isl idx).action = m.action ∧ (t.tk isl idx).uclass = m.uclass ∧ (t.tk isl idx).launch = l ∧
        (t.tk isl idx).job = j ∧ (t.job j).cur isl = some m.key)
  ∧ (∀ (j : Nat) (s : State),
      s.canStart j = true →
      Runs (.stepOrigin j) s
        (Fld.regs ||| Fld.out ||| Fld.leases ||| Fld.tide ||| Fld.tickets ||| Fld.jobs ||| Fld.plans ||| Fld.qps ||| Fld.harbour ||| Fld.hbPoison |||
         Fld.hbWritten) fun t =>
        (t.job j).st = 3 ∧ (t.job j).origin = s.now ∧ (t.job j).step = (s.plan (s.job j).plan).steps + 1 ∧ (t.job j).slip = 0 ∧
        (t.plan (s.job j).plan).steps = (s.plan (s.job j).plan).steps + 1 ∧ (t.plan (s.job j).plan).lastOrigin = some s.now)
  ∧ (∀ (isl : Isl) (idx : TktIx) (early : Fin 8) (s : State),
      let x := s.tk isl idx;
      x.state = 3 → x.ran = true → x.noAct = false → x.launch < s.now → x.action ≠ 7 →
      Runs (.actionAck isl idx early) s
        (Fld.raised ||| Fld.leases ||| Fld.tide ||| Fld.tickets ||| Fld.acks ||| Fld.jobs ||| Fld.plans ||| Fld.acct ||| Fld.slu ||| Fld.ctxs |||
         Fld.basin ||| Fld.lines ||| Fld.qps ||| Fld.landing ||| Fld.rows ||| Fld.tiles ||| Fld.harbour ||| Fld.hbPoison ||| Fld.hbWritten |||
         Fld.frames ||| Fld.badSlots ||| Fld.owners ||| Fld.runs ||| Fld.swaps ||| Fld.imports ||| Fld.dyns ||| Fld.tests ||| Fld.cal ||| Fld.ends |||
         Fld.rplChecks) fun t =>
        (t.tk isl idx).state = 0 ∧ (∀ j : Nat, (t.tkAt j).deps.contains (isl * 256 + idx) = false))
  ∧ (∀ (isl : Isl) (idx : TktIx) (early : Fin 8) (s : State),
      let x := s.tk isl idx;
      x.state = 3 → x.ran = true → x.noAct = false → x.launch < s.now → (x.action = 1 ∨ x.action = 2 ∨ x.action = 3) → x.uclass = 0 →
      x.discard = false → x.status % 4 = 0 → s.unitFenced (isl * 256 + idx) x = false → (s.job x.job).st ≠ 3 →
      Runs (.actionAck isl idx early) s
        (Fld.raised ||| Fld.leases ||| Fld.tide ||| Fld.tickets ||| Fld.acks ||| Fld.jobs ||| Fld.plans ||| Fld.acct ||| Fld.slu ||| Fld.ctxs |||
         Fld.basin ||| Fld.lines ||| Fld.qps ||| Fld.landing ||| Fld.rows ||| Fld.tiles ||| Fld.harbour ||| Fld.hbPoison ||| Fld.hbWritten |||
         Fld.frames ||| Fld.badSlots ||| Fld.owners ||| Fld.runs ||| Fld.swaps ||| Fld.imports ||| Fld.dyns ||| Fld.tests ||| Fld.cal ||| Fld.ends |||
         Fld.rplChecks) fun t =>
        t.acks = s.acks ++ [ackRecOf (isl * 256 + idx) x] ∧
        t.getF (Reg.TIL_STS (tkTile (isl * 256 + idx) x)) 0 4 = (if (s.tx (tkTile (isl * 256 + idx) x)).rf = 1 then 13 else 0))
  ∧ (∀ (isl : Isl) (idx : TktIx) (s : State),
      let x := s.tk isl idx;
      x.missed s.now = true → s.warmHeld = false → (s.job x.job).st = 3 → (s.job x.job).failed = false → (s.tickets.any fun e => e.2.noAct) = false →
      (s.plan (s.job x.job).plan).isSlip = false →
      Runs (.tideMiss isl idx) s (Fld.raised ||| Fld.tickets ||| Fld.jobs ||| Fld.plans) fun t =>
        t.rawBit 8 0 Ev.TIDE_MISS = true ∧ (t.job x.job).failed = true ∧ (t.job x.job).status = 1)
  ∧ (∀ (isl : Isl) (idx : TktIx) (s : State),
      let x := s.tk isl idx;
      let p := s.plan (s.job x.job).plan;
      x.missed s.now = true → s.warmHeld = false → (s.job x.job).st = 3 → (s.job x.job).failed = false → (s.tickets.any fun e => e.2.noAct) = false →
      p.isSlip = true →
      Runs (.tideMiss isl idx) s (Fld.raised ||| Fld.tickets ||| Fld.jobs ||| Fld.plans) fun t =>
        t.rawBit 8 0 Ev.TIDE_MISS = true ∧
        ((s.job x.job).slips < p.maxSlips → (t.job x.job).slip = (s.job x.job).slip + p.slipN ∧ (t.job x.job).slips = (s.job x.job).slips + 1 ∧
          (t.job x.job).failed = false) ∧
        (p.maxSlips ≤ (s.job x.job).slips → (t.job x.job).failed = true ∧ (t.job x.job).status = 1))
  ∧ (∀ (isl : Isl) (idx : TktIx) (s : State),
      let x := s.tk isl idx;
      x.hung s.now = true → s.getB Reg.DBG_CTL 0 = false → s.warmHeld = false →
      Runs (.tideHang isl idx) s
        (Fld.raised ||| Fld.leases ||| Fld.tickets ||| Fld.acks ||| Fld.jobs ||| Fld.plans ||| Fld.acct ||| Fld.ctxs ||| Fld.qps ||| Fld.landing |||
         Fld.rows ||| Fld.tiles ||| Fld.harbour ||| Fld.hbPoison ||| Fld.hbWritten ||| Fld.frames ||| Fld.badSlots ||| Fld.owners ||| Fld.runs |||
         Fld.dyns ||| Fld.tests ||| Fld.cal ||| Fld.ends ||| Fld.rplChecks) fun t =>
        t.rawBit 8 0 Ev.TIDE_HANG = true ∧ (x.uclass ≠ 3 → (t.tk isl idx).state = 0))

/-- EXTEST, CLAMP and HIGHZ take the lands, or select BYPASS on an OPERATIONAL part that is not unlocked; EXTEST and SAMPLE/PRELOAD capture the cells
and shift the update stage; IDCODE answers 0x11024B7B; every other code selects BYPASS; a reset returns the lands. No other field changes. Readings
that are the model's choice: log entries 44, 91. (R1059, R1058, R1057) -/
def Obligations.BoundaryScan : Prop :=
  (∀ (pins shift : Fin 72057594037927936) (s : State),
      s.landsKept = false →
      Runs (.extest pins shift) s (Fld.out ||| Fld.tap) fun t =>
        t = { s with tap := { s.tap with ir := 0, lands := 1, bsr := shift }, out := .jtag 0 (s.cells pins) :: s.out })
  ∧ (∀ (pins shift : Fin 72057594037927936) (s : State),
      s.landsKept = true →
      Runs (.extest pins shift) s (Fld.out ||| Fld.tap) fun t =>
        t = { s with tap := { s.tap with ir := 0xFF } })
  ∧ (∀ (s : State),
      Runs .idcode s (Fld.out ||| Fld.tap) fun t =>
        t = { s with tap := { s.tap with ir := 1 }, out := .jtag 1 0x11024B7B :: s.out })
  ∧ (∀ (pins shift : Fin 72057594037927936) (s : State),
      Runs (.samplePreload pins shift) s (Fld.out ||| Fld.tap) fun t =>
        t = { s with tap := { s.tap with ir := 2, bsr := shift }, out := .jtag 2 (s.cells pins) :: s.out })
  ∧ (∀ (s : State),
      Runs .tapClamp s Fld.tap fun t =>
        (s.landsKept = false → t = { s with tap := { s.tap with ir := 3, lands := 4 } }) ∧
        (s.landsKept = true → t = { s with tap := { s.tap with ir := 0xFF } }))
  ∧ (∀ (s : State),
      Runs .highz s Fld.tap fun t =>
        (s.landsKept = false → t = { s with tap := { s.tap with ir := 4, lands := 5 } }) ∧
        (s.landsKept = true → t = { s with tap := { s.tap with ir := 0xFF } }))
  ∧ (∀ (code : Byte) (s : State),
      5 ≤ code.toNat → (code = 0x10 → s.getF Reg.DBG_STS 0 2 = 0) → (code = 0x11 → s.dbgOpen = false) →
      Runs (.bypass code) s Fld.tap fun t =>
        t = { s with tap := { s.tap with ir := 0xFF } })
  ∧ (∀ (s : State),
      Runs .tapReset s Fld.tap fun t =>
        t = { s with tap := { s.tap with ir := 1, lands := 0 } })

/-- A read has the register's read effects and captures the value; a write is applied where debug may write and has status 2 where it may not; a peek
has no effect on any register; a held core domain gives status 3; a DMI halt or resume acts on its pilot, and any other DMI access changes the TAP
and takes one free draw. Readings that are the model's choice: log entries 45, 91. (R1060, R1061, R1063) -/
def Obligations.DebugTransport : Prop :=
  (∀ (a : Fin 268435456) (s : State),
      let v := (s.regRead .debug false (wordAdr a)).1;
      s.getF Reg.DBG_STS 0 2 ≠ 0 → s.dtmDown a = false →
      Runs (.dtmRead a) s (Fld.raised ||| Fld.shadow ||| Fld.badAccTick ||| Fld.thm ||| Fld.tap) fun t =>
        t.out = .jtag 0x10 (v.toNat * 2 ^ 32) :: (s.regRead .debug false (wordAdr a)).2.out ∧
        t.tap = { s.tap with ir := 0x10, data := v.toNat, status := 0 } ∧ t.regs = (s.regRead .debug false (wordAdr a)).2.regs)
  ∧ (∀ (a : Fin 268435456) (s : State),
      s.getF Reg.DBG_STS 0 2 ≠ 0 → s.dtmDown a = true →
      Runs (.dtmRead a) s (Fld.raised ||| Fld.shadow ||| Fld.badAccTick ||| Fld.thm ||| Fld.tap) fun t =>
        t.out = .jtag 0x10 (3 * 2 ^ 64) :: s.out ∧ t.tap = { s.tap with ir := 0x10, data := 0, status := 3 })
  ∧ (∀ (a : Fin 268435456) (v : Word) (env : WriteEnv) (s : State),
      s.getF Reg.DBG_STS 0 2 ≠ 0 → s.dtmDown a = false →
      Runs (.dtmWrite a v env) s
        (Fld.raised ||| Fld.staged ||| Fld.heldWrites ||| Fld.fencing ||| Fld.pendWas ||| Fld.badAccTick ||| Fld.leases ||| Fld.tide |||
         Fld.tickets ||| Fld.jobs ||| Fld.plans ||| Fld.acct ||| Fld.slu ||| Fld.ctxs ||| Fld.lines ||| Fld.tags ||| Fld.qps ||| Fld.ovf |||
         Fld.landing ||| Fld.rows ||| Fld.tiles ||| Fld.trims ||| Fld.weir ||| Fld.harbour ||| Fld.hbPoison ||| Fld.hbWritten ||| Fld.frames |||
         Fld.badSlots ||| Fld.owners ||| Fld.runs ||| Fld.imports ||| Fld.tests ||| Fld.flash ||| Fld.cal ||| Fld.flashq ||| Fld.ends |||
         Fld.rplChecks ||| Fld.wd ||| Fld.views ||| Fld.boot ||| Fld.tap) fun t =>
        t.out = .jtag 0x10 ((if s.accepts .debug (wordAdr a) v then 0 else 2) * 2 ^ 64) :: (s.regWrite .debug false (wordAdr a) v env).out ∧
        t.regs = (s.regWrite .debug false (wordAdr a) v env).regs ∧ t.hdr = (s.regWrite .debug false (wordAdr a) v env).hdr)
  ∧ (∀ (a : Fin 268435456) (v : Word) (env : WriteEnv) (s : State),
      s.getF Reg.DBG_STS 0 2 ≠ 0 → s.dtmDown a = true →
      Runs (.dtmWrite a v env) s
        (Fld.raised ||| Fld.staged ||| Fld.heldWrites ||| Fld.fencing ||| Fld.pendWas ||| Fld.badAccTick ||| Fld.leases ||| Fld.tide |||
         Fld.tickets ||| Fld.jobs ||| Fld.plans ||| Fld.acct ||| Fld.slu ||| Fld.ctxs ||| Fld.lines ||| Fld.tags ||| Fld.qps ||| Fld.ovf |||
         Fld.landing ||| Fld.rows ||| Fld.tiles ||| Fld.trims ||| Fld.weir ||| Fld.harbour ||| Fld.hbPoison ||| Fld.hbWritten ||| Fld.frames |||
         Fld.badSlots ||| Fld.owners ||| Fld.runs ||| Fld.imports ||| Fld.tests ||| Fld.flash ||| Fld.cal ||| Fld.flashq ||| Fld.ends |||
         Fld.rplChecks ||| Fld.wd ||| Fld.views ||| Fld.boot ||| Fld.tap) fun t =>
        t.out = .jtag 0x10 (3 * 2 ^ 64) :: s.out ∧ t.regs = s.regs)
  ∧ (∀ (a : Fin 268435456) (s : State),
      let v := s.valFor .debug false ((peekOf (wordAdr a)).getD (wordAdr a));
      s.getF Reg.DBG_STS 0 2 ≠ 0 → s.dtmDown a = false →
      Runs (.dtmPeek a) s (Fld.out ||| Fld.tap) fun t =>
        t = { s with tap := { s.tap with ir := 0x10, data := v.toNat, status := 0 }, out := .jtag 0x10 (v.toNat * 2 ^ 32) :: s.out })
  ∧ (∀ (n : Pilot) (kind : Fin 3) (s : State),
      s.dbgOpen = true → kind = 0 → s.pilSt n = 1 →
      Runs (.dmiAccess n kind) s (Fld.raised ||| Fld.wd ||| Fld.tap) fun t =>
        t.pilSt n = 2 ∧ t.tap.ir = 0x11 ∧ t.rawBit 17 0 Ev.DBG_HALT = true ∧ t.draws = s.draws + 1)
  ∧ (∀ (n : Pilot) (kind : Fin 3) (s : State),
      s.dbgOpen = true → kind = 1 → s.pilSt n = 2 →
      Runs (.dmiAccess n kind) s (Fld.raised ||| Fld.wd ||| Fld.tap) fun t =>
        t.pilSt n = 1 ∧ t.tap = { s.tap with ir := 0x11 } ∧ t.out = .jtag 0x11 (Config.draw s.draws).toNat :: s.out ∧
        RegsOnly [Reg.DBG_STS, Reg.PIL_STS n] s t)
  ∧ (∀ (n : Pilot) (kind : Fin 3) (s : State),
      s.dbgOpen = true → kind = 2 →
      Runs (.dmiAccess n kind) s (Fld.raised ||| Fld.wd ||| Fld.tap) fun t =>
        t = { s with tap := { s.tap with ir := 0x11 }, out := .jtag 0x11 (Config.draw s.draws).toNat :: s.out, draws := s.draws + 1 })

/-- A due unit that cannot be tested is deferred with TST_DEFER; a free one in turn is held by its test, a tile's rows gone; an island test holds its
twenty units; at the bound a deferral is paused, re-homed on a spare, or TEST_OVERDUE; a re-homed unit's test may begin; a paused plan waits its
ticks with TST_PREEMPT; a passed test counts, a first failure repeats, a second one fences the unit with TST_FAIL; TST_CMD asks for a test or is
refused with its error; a staged bank becomes active with TST_PAT_UPDATE. Readings that are the model's choice: log entries 26, 67. (R898, R900,
R907, R902, R903, R904, R909, R921, R906, R913) -/
def Obligations.FieldTests : Prop :=
  (∀ (isl : Isl) (u : Fin 20) (s : State),
      s.isDue isl u = true → (s.test isl u).held = false → (s.test isl u).deferred = false → (s.testFree isl u && s.testTurn isl u) = false →
      s.warmHeld = false →
      Runs (.testDue isl u) s (Fld.raised ||| Fld.tests) fun t =>
        (t.test isl u).deferred = true ∧ (u.val < 19 → t.getB (Reg.ISL_TST_DEFER isl) u = true) ∧
        t.reg Reg.TST_DEFER_CNT = BitVec.ofNat 32 (satAdd 0xFFFFFFFF (s.reg Reg.TST_DEFER_CNT).toNat 1) ∧ t.rawBit 14 0 Ev.TST_DEFER = true ∧
        RegsBut [Reg.TST_DEFER_CNT, Reg.ISL_TST_DEFER isl] s t)
  ∧ (∀ (isl : Isl) (u : Fin 19) (s : State),
      s.isDue isl u = true → s.testFree isl u = true → s.testTurn isl u = true →
      Runs (.testStart isl u) s (Fld.raised ||| Fld.rows ||| Fld.tiles ||| Fld.owners ||| Fld.tests) fun t =>
        (t.test isl u).held = true ∧ (t.test isl u).start = s.now ∧ (t.test isl u).deferred = false ∧
        (u.val < 16 → (t.rows.any fun e => e.1 / 1024 = isl.val * 16 + u.val) = false ∧ t.getB (Reg.TIL_RFSH_STS (isl.val * 16 + u.val)) 3 = true) ∧
        (16 ≤ u.val → t.getB (Reg.ISL_ENG_STS isl) 2 = true ∧ t.rows = s.rows))
  ∧ (∀ (isl : Isl) (s : State),
      s.isDue isl 19 = true → s.testFree isl 19 = true → s.warmHeld = false →
      Runs (.tstIsland isl) s (Fld.raised ||| Fld.rows ||| Fld.tiles ||| Fld.owners ||| Fld.tests) fun t =>
        (∀ v : Nat, v < 20 → (t.test isl v).held = true) ∧ (t.rows.any fun e => e.1 / 16384 = isl.val) = false ∧ t.rawBit 14 0 Ev.TST_ISLAND = true)
  ∧ (∀ (isl : Isl) (u : Fin 20) (s : State),
      let x := s.test isl u;
      x.deferred = true → x.held = false → s.dueTick isl u + s.deferTicks ≤ s.now → s.routed isl u = false → s.getB Reg.TST_STS 3 = false →
      16 ≤ u.val → s.canPause isl u = true →
      Runs (.testDeferBound isl u) s (Fld.raised ||| Fld.tickets ||| Fld.tiles ||| Fld.owners ||| Fld.runs ||| Fld.nextRun ||| Fld.tests) fun t =>
        t.test isl u = { x with route := 2 } ∧ t.regs = s.regs)
  ∧ (∀ (isl : Isl) (u : Fin 20) (s : State),
      let x := s.test isl u;
      x.deferred = true → x.held = false → s.dueTick isl u + s.deferTicks ≤ s.now → s.routed isl u = false → s.getB Reg.TST_STS 3 = true →
      u.val < 19 → s.getB (Reg.ISL_TST_OVERDUE isl) u = false → s.warmHeld = false →
      Runs (.testDeferBound isl u) s (Fld.raised ||| Fld.tickets ||| Fld.tiles ||| Fld.owners ||| Fld.runs ||| Fld.nextRun ||| Fld.tests) fun t =>
        t.getB (Reg.ISL_TST_OVERDUE isl) u = true ∧ t.getF Reg.TST_STS 16 11 = (s.getF Reg.TST_STS 16 11 + 1) % 2048 ∧
        t.rawBit 14 0 Ev.TEST_OVERDUE = true)
  ∧ (∀ (isl : Isl) (u : Fin 20) (sp idx : Nat) (s : State),
      let x := s.test isl u;
      x.deferred = true → x.held = false → s.dueTick isl u + s.deferTicks ≤ s.now → s.routed isl u = false → s.getB Reg.TST_STS 3 = false →
      u.val < 16 → s.spareOf isl = some sp → s.hasSrc (isl.val * 16 + u.val) = true → s.writtenEach isl u = false → s.freeIdx isl = some idx →
      Runs (.testDeferBound isl u) s (Fld.raised ||| Fld.tickets ||| Fld.tiles ||| Fld.owners ||| Fld.runs ||| Fld.nextRun ||| Fld.tests) fun t =>
        t.test isl u = { x with route := 1, spare := sp + 1, phase := 0 } ∧
        t.owner (isl.val * 16 + sp) = some ((s.owner (isl.val * 16 + u.val)).getD 0) ∧ (t.tx (isl.val * 16 + sp)).reCause = 11 ∧
        (t.tk isl idx).action = 7 ∧ (t.tk isl idx).iter = isl.val * 16 + sp + 1)
  ∧ (∀ (isl : Isl) (u : Fin 16) (s : State),
      let x := s.test isl u;
      x.route = 1 → x.spare ≠ 0 → x.noRestore = false → x.held = false →
      (x.phase = 1 ∨ ((s.tx (isl.val * 16 + (x.spare - 1))).reCause = 11 ∧ (s.tx (isl.val * 16 + (x.spare - 1))).reStep = 0)) →
      Runs (.rehomeSwitch isl u) s (Fld.regs ||| Fld.plans ||| Fld.basin ||| Fld.lines ||| Fld.tiles ||| Fld.tests) fun t =>
        (t.test isl u).noRestore = true ∧ (t.tx (isl.val * 16 + (x.spare - 1))).reCause = 0 ∧
        t.reg Reg.TST_PREEMPT_CNT = BitVec.ofNat 32 (satAdd 0xFFFFFFFF (s.reg Reg.TST_PREEMPT_CNT).toNat 1))
  ∧ (∀ (isl : Isl) (u : Fin 20) (h : Nat) (s : State),
      (s.test isl u).route = 2 → (s.test isl u).held = false → (s.testPlans isl u).any (fun e => e.1 = h) = true → s.atBarrier h = true →
      (s.plan h).paused ≤ s.now → s.warmHeld = false →
      Runs (.tstPreempt isl u h) s (Fld.raised ||| Fld.tickets ||| Fld.jobs ||| Fld.plans) fun t =>
        (t.plan h).paused = s.now + pauseTicks u ∧ (t.plan h).lastSlip = (s.plan h).lastSlip + pauseTicks u ∧
        t.getB (Reg.ISL_TST_ISTS isl) 18 = true ∧ t.rawBit 14 0 Ev.TST_PREEMPT = true ∧ RegsBut [Reg.ISL_TST_ISTS isl, Reg.TST_PREEMPT_CNT] s t)
  ∧ (∀ (isl : Isl) (u : Fin 19) (pass : Bool) (data : List Byte) (ok : Bool) (s : State),
      (s.test isl u).held = true → (s.test isl u).failed = false → pass = true →
      Runs (.testComplete isl u pass data ok) s
        (Fld.raised ||| Fld.leases ||| Fld.tickets ||| Fld.jobs ||| Fld.ctxs ||| Fld.rows ||| Fld.tiles ||| Fld.imports ||| Fld.tests ||| Fld.cal |||
         Fld.ends ||| Fld.rplChecks) fun t =>
        (t.test isl u).held = false ∧ (t.test isl u).last = some s.now ∧
        t.reg Reg.TST_PASS_CNT = BitVec.ofNat 32 (satAdd 0xFFFFFFFF (s.reg Reg.TST_PASS_CNT).toNat 1))
  ∧ (∀ (isl : Isl) (u : Fin 19) (pass : Bool) (data : List Byte) (ok : Bool) (s : State),
      (s.test isl u).held = true → (s.test isl u).failed = false → pass = false →
      Runs (.testComplete isl u pass data ok) s
        (Fld.raised ||| Fld.leases ||| Fld.tickets ||| Fld.jobs ||| Fld.ctxs ||| Fld.rows ||| Fld.tiles ||| Fld.imports ||| Fld.tests ||| Fld.cal |||
         Fld.ends ||| Fld.rplChecks) fun t =>
        t.test isl u = { s.test isl u with failed := true, start := s.now } ∧ t.regs = s.regs)
  ∧ (∀ (isl : Isl) (u : Fin 19) (pass : Bool) (data : List Byte) (ok : Bool) (s : State),
      (s.test isl u).held = true → (s.test isl u).failed = true → pass = false → s.inLagoon isl (min 16 u.val) = false → s.warmHeld = false →
      Runs (.testComplete isl u pass data ok) s
        (Fld.raised ||| Fld.leases ||| Fld.tickets ||| Fld.jobs ||| Fld.ctxs ||| Fld.rows ||| Fld.tiles ||| Fld.imports ||| Fld.tests ||| Fld.cal |||
         Fld.ends ||| Fld.rplChecks) fun t =>
        (t.test isl u).held = false ∧ t.reg Reg.TST_FAIL_CNT = BitVec.ofNat 32 (satAdd 0xFFFFFFFF (s.reg Reg.TST_FAIL_CNT).toNat 1) ∧
        t.reg Reg.TST_LAST_FAIL = BitVec.ofNat 32 (unitWord isl u 2) ∧ t.rawBit 14 0 Ev.TST_FAIL = true ∧
        (if u.val < 16 then (t.hd 4 (isl.val * 16 + u.val)).fenceDp = true else (t.hd 3 isl).fenceDp = true))
  ∧ (∀ (rq : Requester) (target : Fin 1024) (s : State),
      s.stdWriter rq = true → s.pageReset 14 0 = false →
      Runs (.testTile rq target) s (Fld.regs ||| Fld.heldWrites ||| Fld.tests) fun t =>
        (s.tileTested target = false → (t.test (target.val / 16) (target.val % 16)).due = some s.now ∧ t.getF Reg.TST_STS 28 4 = 0) ∧
        (s.tileTested target = true → t.tests = s.tests ∧ t.getF Reg.TST_STS 28 4 = 2) ∧ RegsOnly [Reg.TST_STS] s t)
  ∧ (∀ (rq : Requester) (target : Fin 1024) (s : State),
      let busy := (List.range 20).any fun u => (s.test target u).held;
      s.stdWriter rq = true → s.pageReset 14 0 = false →
      Runs (.testIsland rq target) s (Fld.regs ||| Fld.heldWrites ||| Fld.tests) fun t =>
        (target.val < 64 → busy = false → (t.test target 19).want = true ∧ t.getF Reg.TST_STS 28 4 = 0) ∧
        (target.val < 64 → busy = true → t.tests = s.tests ∧ t.getF Reg.TST_STS 28 4 = 2) ∧
        (64 ≤ target.val → t.tests = s.tests ∧ t.getF Reg.TST_STS 28 4 = 1) ∧ RegsOnly [Reg.TST_STS] s t)
  ∧ (∀ (s : State),
      let k := 1 - s.getF Reg.TST_STS 0 1;
      s.getF Reg.TST_STS 4 2 = 3 → (s.tests.any fun e => e.2.held) = false → s.warmHeld = false →
      Runs .tstPatUpdate s Fld.raised fun t =>
        t.getF Reg.TST_STS 0 1 = k ∧ t.getF Reg.TST_STS 4 2 = 0 ∧ t.getB Reg.TST_STS 3 = false ∧ t.reg Reg.TST_PAT_VER = s.patVer k ∧
        t.rawBit 14 0 Ev.TST_PAT_UPDATE = true ∧ RegsBut [Reg.TST_STS, Reg.TST_PAT_VER] s t)

/-- With no rung on the ladder each RCV_CMD starts its rung with cause 1 and raises RCV_START; CTX of no bound context is refused; RESUME starts the
held rung; a kick with the kick value restarts a running pilot's watchdog and no other value does; an expiry counts, raises PIL_WDOG and puts the
pilot in restart; a restart runs it or raises PIL_FW_FAIL. A power cycle raises RCV_PWRCYC, waits HOLD_MS, asks for the cycle, and PWRCYC_STUCK is
set TMO_S later. Readings that are the model's choice: log entries 68, 69. (R934, R936, R938, R939, R942, R944, R930, R931) -/
def Obligations.RecoveryCommandsAndWatchdogs : Prop :=
  (∀ (rq : Requester) (target : Fin 256) (s : State),
      isMgmt rq = true → target.val < 64 → s.ctxSt target ≠ 0 → s.rungs = [] →
      Runs (.ctxCmd rq target) s Fld.raised fun t =>
        t.rungs = [{ kind := 1, target := target.val, cause := 1, start := s.now, since := s.now }] ∧ t.rawBit 15 0 Ev.RCV_START = true ∧
        t.getF Reg.RCV_LAST_RCV 0 8 = 9 ∧ t.getB Reg.RCV_STS 5 = false ∧ RegsBut [] s t)
  ∧ (∀ (rq : Requester) (target : Fin 256) (s : State),
      isMgmt rq = true → (64 ≤ target.val ∨ s.ctxSt target = 0) →
      Runs (.ctxCmd rq target) s Fld.raised fun t =>
        t.getB Reg.RCV_STS 5 = true ∧ t.rungs = s.rungs ∧ RegsOnly [Reg.RCV_STS] s t)
  ∧ (∀ (rq : Requester) (target : Fin 256) (s : State),
      isMgmt rq = true → target.val < 64 → s.rungs = [] → s.rungWithin 2 target s.escWin = false →
      Runs (.engineCmd rq target) s Fld.raised fun t =>
        t.rungs = [{ kind := 2, target := target.val, cause := 1, start := s.now, since := s.now }] ∧ t.rawBit 15 0 Ev.RCV_START = true ∧
        t.getF (Reg.ISL_ENG_LAST target) 0 5 = 6 ∧ RegsBut [Reg.ISL_ENG_LAST target] s t)
  ∧ (∀ (rq : Requester) (target : Fin 256) (s : State),
      isMgmt rq = true → (s.partDef target).isSome = true → s.rungs = [] → s.rungWithin 3 target s.escWin = false →
      Runs (.partitionCmd rq target) s Fld.raised fun t =>
        t.rungs = [{ kind := 3, target := target.val, cause := 1, start := s.now, since := s.now }] ∧ t.rawBit 15 0 Ev.RCV_START = true ∧
        RegsBut [] s t)
  ∧ (∀ (rq : Requester) (s : State),
      isMgmt rq = true → s.rungs = [] → s.rungWithin 4 0 s.warmWin = false →
      Runs (.warmCmd rq) s Fld.raised fun t =>
        t.rungs = [{ kind := 4, target := 0, cause := 1, start := s.now, since := s.now }] ∧ t.rawBit 15 0 Ev.RCV_START = true ∧ RegsBut [] s t)
  ∧ (∀ (rq : Requester) (s : State),
      isMgmt rq = true → s.rungs = [] →
      Runs (.pwrcycCmd rq) s Fld.raised fun t =>
        t.rungs = [{ kind := 5, target := 0, cause := 1, start := s.now, since := s.now }] ∧ t.rawBit 15 0 Ev.RCV_START = true ∧ RegsBut [] s t)
  ∧ (∀ (rq : Requester) (r : Rung) (s : State),
      isMgmt rq = true → s.rungs = [r] → r.held = true →
      Runs (.resumeCmd rq) s Fld.raised fun t =>
        t.rungs = [{ kind := r.kind, target := r.target, cause := r.cause, start := s.now, since := s.now }] ∧ t.rawBit 15 0 Ev.RCV_START = true ∧
        t.getB Reg.RCV_STS 5 = false)
  ∧ (∀ (n : Pilot) (v : Word) (s : State),
      Runs (.wdKick n v) s Fld.wd fun t =>
        (v = 0x5A5A → s.pilSt n = 1 → Store.get flagZero t.wd n = s.now + 1) ∧ ((v ≠ 0x5A5A ∨ s.pilSt n ≠ 1) → t.wd = s.wd))
  ∧ (∀ (n : Pilot) (s : State),
      let k := Store.get flagZero s.wd n;
      s.pilSt n = 1 → s.getB (Reg.PIL_CTL n) 0 = true → k ≠ 0 → k + s.wdPeriod n ≤ s.now + 1 → s.getB Reg.DBG_CTL 0 = false → s.warming = false →
      n.val ≠ 0 → s.rungWithin 6 n s.escWin = false →
      Runs (.pilWdog n) s
        (Fld.raised ||| Fld.leases ||| Fld.tickets ||| Fld.acks ||| Fld.jobs ||| Fld.plans ||| Fld.acct ||| Fld.ctxs ||| Fld.qps ||| Fld.landing |||
         Fld.rows ||| Fld.tiles ||| Fld.harbour ||| Fld.hbPoison ||| Fld.hbWritten ||| Fld.frames ||| Fld.badSlots ||| Fld.owners ||| Fld.runs |||
         Fld.imports ||| Fld.dyns ||| Fld.tests ||| Fld.flash ||| Fld.cal ||| Fld.flashq ||| Fld.ends ||| Fld.rplChecks ||| Fld.lost ||| Fld.wd |||
         Fld.sessions ||| Fld.torn) fun t =>
        t.pilSt n = 3 ∧ Store.get flagZero t.wd n = 0 ∧ t.rawBit 2 n Ev.PIL_WDOG = true ∧
        t.reg (Reg.PIL_WD_CNT n) = BitVec.ofNat 32 (satAdd 0xFFFFFFFF (s.reg (Reg.PIL_WD_CNT n)).toNat 1) ∧ t.getF (Reg.PIL_LAST_RST n) 0 3 = 1)
  ∧ (∀ (n : Pilot) (ok : Bool) (s : State),
      s.pilSt n = 3 → (n.val = 0 ∨ s.pilSt 0 = 1) →
      Runs (.pilRestart n ok) s (Fld.raised ||| Fld.wd) fun t =>
        (ok = true → t.pilSt n = 1 ∧ t.rawBit 2 n Ev.PIL_RESTART = true ∧ Store.get flagZero t.wd n = s.now + 1) ∧
        (ok = false → t.pilSt n = 3 ∧ t.rawBit 2 n Ev.PIL_FW_FAIL = true))
  ∧ (∀  (r : Rung) (s : State),
      s.liveRung 5 0 = some r → r.phase = 0 →
      Runs .powerCycle s Fld.raised fun t =>
        t.liveRung 5 0 = some { r with phase := 1, since := s.now, hb := [] } ∧ t.rawBit 15 0 Ev.RCV_PWRCYC = true ∧ RegsBut [] s t)
  ∧ (∀  (r : Rung) (s : State),
      s.liveRung 5 0 = some r → r.phase = 1 → r.since + min 1000 (s.getF Reg.RCV_PWRCYC_CTL 0 10) * 125000 ≤ s.now →
      Runs .powerCycle s Fld.raised fun t =>
        t = s.nextPhase r ∧ t.liveRung 5 0 = some { r with phase := 2, since := s.now, hb := [] })
  ∧ (∀  (r : Rung) (s : State),
      s.liveRung 5 0 = some r → r.phase = 2 → r.since + max 1 (s.getF Reg.RCV_PWRCYC_CTL 16 8) * 125000000 ≤ s.now →
      Runs .pwrcycStuck s Fld.regs fun t =>
        t = s.setB Reg.RCV_STS 4 true ∧ t.getB Reg.RCV_STS 4 = true ∧ RegsOnly [Reg.RCV_STS] s t)

/-- The record in hand is committed under the next sequence number, and where a source has coalesced its record is begun; UNPIN clears the pin of one
slot and no other, UNPIN_ALL every pin but that of the slot being written; a hold-off's end sends one message exactly if a bit became pending
meanwhile. Readings that are the model's choice: log entry 77. (R983, R987, R793) -/
def Obligations.TroubleLog : Prop :=
  (∀  (i c : Nat) (s : State),
      s.log.writing = some (i, c) → (s.tideRuns = false ∨ c < s.now) → s.log.coal = [] →
      Runs .logCommit s Fld.raised fun t =>
        t.log.seq = s.log.nextSeq ∧ Store.get logEmpty t.log.slots i = { Store.get logEmpty s.log.slots i with seq := s.log.nextSeq } ∧
        t.log.writing = none ∧ t.regs = s.regs)
  ∧ (∀  (i c k : Nat) (e : Coal) (s : State),
      s.log.writing = some (i, c) → (s.tideRuns = false ∨ c < s.now) → s.log.nextSource = some (k, e) →
      Runs .logCommit s Fld.raised fun t =>
        t.log.seq = s.log.nextSeq ∧ (s.log.pinOvf = true → t.log.coal = s.log.coal.filter fun e => e.1 != k) ∧ t.log.last = k ∧
        t.log.writing.isSome = true)
  ∧ (∀ (rq : Requester) (slot : Fin 16384) (s : State),
      s.logWriter rq = true → s.beingWritten slot = false →
      Runs (.unpin rq slot) s Fld.log fun t =>
        Store.get logEmpty t.log.slots slot = { Store.get logEmpty s.log.slots slot with pinned := false } ∧
        (∀ i : Nat, i < 16384 → i ≠ slot.val → Store.get logEmpty t.log.slots i = Store.get logEmpty s.log.slots i))
  ∧ (∀ (rq : Requester) (s : State),
      s.logWriter rq = true →
      Runs (.unpinAll rq) s Fld.log fun t =>
        t.log.pinOvf = false ∧ (t.log.slots.all fun e => !e.2.pinned || s.beingWritten e.1) = true)
  ∧ (∀ (f : Ctx) (s : State),
      let x := Store.get irqIdle s.irq f;
      x.active = true → (s.tideRuns = false ∨ x.till ≤ s.now) →
      Runs (.irqHoldoffEnd f) s (Fld.out ||| Fld.irq) fun t =>
        (x.waiting = false → Store.get irqIdle t.irq f = {} ∧ t.out = s.out) ∧ (x.waiting = true → t.out = .msix f 16 :: s.out))

/-- A tick advances the count by 1; the first lock starts it at 0 and REFCLK's return leaves holdover; a window boundary latches the four slack minima
of the island selected; SLK_CTL resets them; TKT_SEL copies 64 entries; a PPS edge that is accepted is captured; a lost PPS clears LOCKED and raises
TIDE_PPS_LOST; PPS_CTL keeps the trim and slews it in mode 0; PPS_BASE is taken at once, or at the next edge in DISCIPLINE; a marker drives
TIDE_OUT; a resynchronisation word probes every island and reports those that differ. Readings that are the model's choice: log entries 33, 94.
(R468, R466, R472, R487, R513, R512, R500, R505, R523, R522, R507, R474) -/
def Obligations.TideAndPps : Prop :=
  (∀ (s : State),
      s.tideRuns = true →
      Runs .tideTick s
        (Fld.raised ||| Fld.fencing ||| Fld.leases ||| Fld.count ||| Fld.tickets ||| Fld.acks ||| Fld.jobs ||| Fld.plans ||| Fld.acct ||| Fld.ctxs |||
         Fld.qps ||| Fld.landing ||| Fld.rows ||| Fld.tiles ||| Fld.harbour ||| Fld.hbPoison ||| Fld.hbWritten ||| Fld.frames ||| Fld.badSlots |||
         Fld.owners ||| Fld.runs ||| Fld.dyns ||| Fld.tests ||| Fld.cal ||| Fld.ends ||| Fld.rplChecks ||| Fld.wd ||| Fld.grantWas ||| Fld.power) fun t =>
        t.count = s.count + 1)
  ∧ (∀ (s : State),
      s.getB Reg.TID_STS 0 = false → s.getF Reg.BOOT_STS 0 4 ≠ 0 →
      Runs .tidePllLock s (Fld.regs ||| Fld.count ||| Fld.tide) fun t =>
        t.getB Reg.TID_STS 0 = true ∧ t.getB Reg.TID_STS 1 = false ∧ t.getB Reg.TID_STS 2 = true ∧ t.tide = { s.tide with refclk := true } ∧
        t.count = (if s.getB Reg.TID_STS 2 then s.count else 0) ∧ RegsOnly [Reg.TID_STS] s t)
  ∧ (∀ (s : State),
      s.tide.refclk = false → s.getB Reg.TID_STS 2 = true →
      Runs .refclkReturn s (Fld.regs ||| Fld.tide) fun t =>
        t.getB Reg.TID_STS 0 = true ∧ t.getB Reg.TID_STS 1 = false ∧ t.tide = { s.tide with refclk := true } ∧ RegsOnly [Reg.TID_STS] s t)
  ∧ (∀ (s : State),
      s.now % s.slackLen = 0 → s.tide.slackHold = false →
      Runs .slackWindowEnd s (Fld.regs ||| Fld.tide) fun t =>
        (∀ c : Nat, c < 4 →
          t.reg (Reg.TID_SLK_MIN c) = BitVec.ofNat 32 (twos 16 (clampI (-32768) 32767 (Store.get (fun _ => (32767 : Int)) s.tide.slack (s.getF Reg.TID_SLK_CTL 0 6 * 4 + c))))) ∧
        t.tide.slack = [] ∧ RegsOnly [Reg.TID_SLK_MIN 0, Reg.TID_SLK_MIN 1, Reg.TID_SLK_MIN 2, Reg.TID_SLK_MIN 3] s t)
  ∧ (∀ (s : State),
      s.now % s.slackLen = 0 → s.tide.slackHold = true →
      Runs .slackWindowEnd s (Fld.regs ||| Fld.tide) fun t =>
        t.tide = { s.tide with slack := [], slackHold := false } ∧ RegsOnly [] s t)
  ∧ (∀ (rq : Requester) (v : Word) (s : State),
      s.pageReset 8 0 = false → s.tidWriter rq false = true →
      Runs (.slkCtlWrite rq v) s (Fld.regs ||| Fld.heldWrites ||| Fld.tide) fun t =>
        t.reg Reg.TID_SLK_CTL = (s.reg Reg.TID_SLK_CTL &&& ~~~ regMask Reg.TID_SLK_CTL ||| v &&& regMask Reg.TID_SLK_CTL) ∧
        (t.reg Reg.TID_SLK_CTL ≠ s.reg Reg.TID_SLK_CTL → t.tide.slack = [] ∧ t.tide.slackHold = true ∧ ∀ c : Nat, c < 4 →
          t.reg (Reg.TID_SLK_MIN c) = 0x7FFF) ∧
        RegsOnly [Reg.TID_SLK_CTL, Reg.TID_SLK_MIN 0, Reg.TID_SLK_MIN 1, Reg.TID_SLK_MIN 2, Reg.TID_SLK_MIN 3] s t)
  ∧ (∀ (rq : Requester) (v : Word) (s : State),
      s.pageReset 8 0 = false → s.tidWriter rq false = true →
      Runs (.tktSelWrite rq v) s (Fld.regs ||| Fld.heldWrites) fun t =>
        t.reg Reg.TID_TKT_SEL = (s.reg Reg.TID_TKT_SEL &&& ~~~ regMask Reg.TID_TKT_SEL ||| v &&& regMask Reg.TID_TKT_SEL) ∧
        (∀ i : Nat, i < 64 → ∀ w : Nat, w < 4 →
          t.reg (Reg.TID_TKT_WIN (4 * i + w)) = BitVec.ofNat 32 (leAt (s.tk (t.getF Reg.TID_TKT_SEL 0 6) (64 * t.getF Reg.TID_TKT_SEL 8 2 + i)).bytes (4 * w) 4)))
  ∧ (∀ (falling : Bool) (ns : Fin 8) (trim : Int) (s : State),
      s.getF Reg.TID_PPS_CTL 0 2 ≠ 0 → falling = s.getB Reg.TID_PPS_CTL 2 →
      (s.tide.ppsLast.elim true fun l => decide (112500000 ≤ s.now - l)) = true →
      (s.getF Reg.TID_PPS_CTL 0 2 = 1 ∨ (s.ppsError ((s.now * 8 + ns.val : Nat) : Int)).natAbs ≤ 1000000) →
      Runs (.ppsEdge falling ns trim) s (Fld.raised ||| Fld.tide) fun t =>
        t.get64 Reg.TID_PPS_CAPT_LO Reg.TID_PPS_CAPT_HI = s.now ∧ t.tide.ppsLast = some s.now)
  ∧ (∀ (s : State),
      s.getF Reg.TID_PPS_CTL 0 2 ≠ 0 → s.getB Reg.TID_PPS_STS 3 = false → max s.tide.ppsFrom (s.tide.ppsLast.getD 0) + 187500000 ≤ s.now →
      s.warmHeld = false →
      Runs .tidePpsLost s (Fld.raised ||| Fld.tide) fun t =>
        t.rawBit 8 0 Ev.TIDE_PPS_LOST = true ∧ t.getB Reg.TID_PPS_STS 3 = true ∧ t.getB Reg.TID_PPS_STS 1 = false ∧ t.getB Reg.TID_PPS_STS 0 = false ∧
        t.tide = { s.tide with ppsRun := 0 } ∧ RegsBut [Reg.TID_PPS_STS] s t)
  ∧ (∀ (rq : Requester) (v : Word) (s : State),
      s.pageReset 8 0 = false → s.tidWriter rq true = true →
      Runs (.ppsCtlWrite rq v) s (Fld.regs ||| Fld.heldWrites ||| Fld.tide) fun t =>
        t.reg Reg.TID_PPS_CTL = (s.reg Reg.TID_PPS_CTL &&& ~~~ regMask Reg.TID_PPS_CTL ||| v &&& regMask Reg.TID_PPS_CTL) ∧
        t.getF Reg.TID_FREQ_ADJ 0 16 = twos 16 s.freqAdj ∧ t.tide.slewFrom = (if t.getF Reg.TID_PPS_CTL 0 2 = 0 then some s.now else none) ∧
        RegsOnly [Reg.TID_PPS_CTL, Reg.TID_FREQ_ADJ] s t)
  ∧ (∀ (rq : Requester) (v : DWord) (s : State),
      s.pageReset 8 0 = false → s.tidWriter rq true = true → s.getF Reg.TID_PPS_CTL 0 2 ≠ 2 →
      Runs (.ppsBaseWrite rq v) s (Fld.regs ||| Fld.heldWrites ||| Fld.tide) fun t =>
        t.get64 Reg.TID_PPS_BASE_LO Reg.TID_PPS_BASE_HI = v.toNat ∧ RegsOnly [Reg.TID_PPS_BASE_LO, Reg.TID_PPS_BASE_HI] s t ∧ t.tide = s.tide)
  ∧ (∀ (rq : Requester) (v : DWord) (s : State),
      s.pageReset 8 0 = false → s.tidWriter rq true = true → s.getF Reg.TID_PPS_CTL 0 2 = 2 →
      Runs (.ppsBaseWrite rq v) s (Fld.regs ||| Fld.heldWrites ||| Fld.tide) fun t =>
        t.tide = { s.tide with ppsBaseNext := some v, ppsRun := 0 } ∧ t.getB Reg.TID_PPS_STS 1 = false ∧ RegsOnly [Reg.TID_PPS_STS] s t)
  ∧ (∀ (s : State),
      s.markerNow = true →
      Runs .tideOutMarker s (Fld.out ||| Fld.tide) fun t =>
        t.tide.outTill = max s.tide.outTill (s.now + max 1 (s.getF Reg.TID_OUT_CTL 16 8)) ∧
        t.out = (if s.tide.outTill < s.now + max 1 (s.getF Reg.TID_OUT_CTL 16 8) then .tideOut (s.now + max 1 (s.getF Reg.TID_OUT_CTL 16 8)) :: s.out else s.out))
  ∧ (∀ (bad silent : List Isl) (s : State),
      s.tideRuns = true → s.now % 1024 = 0 →
      Runs (.resyncWord bad silent) s (Fld.raised ||| Fld.tickets ||| Fld.jobs) fun t =>
        t = (List.range 64).foldl (fun u i => u.probe i !(silent.any fun b => b.val = i)) (if s.getB Reg.TID_CTL 1 then ((List.range 64).filter fun i => bad.any fun b => b.val = i).foldl (fun u i => u.desync i) s else s))

/-- While P4 runs: step 1 of a context recovery retires its unlaunched tickets and fails its jobs; once nothing of it is launched, or 1,250 ticks have
passed, it ends with RCV_DONE and its rung leaves the ladder; an overrun raises RCV_OVERRUN and escalates. An engine recovery latches the tick, then
resets the engine (ENG_RST_CNT, ISL_ENG_RESET, its acknowledgements dropped), and ends with two answered probes, or with a fence of the island.
Readings that are the model's choice: log entries 70, 71. (R934, R936) -/
def Obligations.ContextAndEngineRecovery : Prop :=
  (∀ (c : Ctx) (r : Rung) (s : State),
      s.liveRung 1 c = some r → s.p4Runs = true → s.overran r = false → r.phase = 0 →
      Runs (.contextRecovery c) s
        (Fld.raised ||| Fld.staged ||| Fld.heldWrites ||| Fld.fencing ||| Fld.pendWas ||| Fld.leases ||| Fld.tide ||| Fld.tickets ||| Fld.acks |||
         Fld.jobs ||| Fld.plans ||| Fld.acct ||| Fld.slu ||| Fld.ctxs ||| Fld.lines ||| Fld.tags ||| Fld.qps ||| Fld.ovf ||| Fld.landing |||
         Fld.rows ||| Fld.tiles ||| Fld.trims ||| Fld.weir ||| Fld.harbour ||| Fld.hbPoison ||| Fld.hbWritten ||| Fld.frames ||| Fld.badSlots |||
         Fld.owners ||| Fld.runs ||| Fld.swaps ||| Fld.imports ||| Fld.dyns ||| Fld.tests ||| Fld.flash ||| Fld.cal ||| Fld.flashq ||| Fld.spdm |||
         Fld.ends ||| Fld.rplChecks ||| Fld.lost ||| Fld.wd ||| Fld.flrs ||| Fld.views ||| Fld.boot ||| Fld.tap ||| Fld.torn) fun t =>
        t = (s.ctxStop c).nextPhase r ∧
        (s.jobs = [] → s.runs = [] → (∀ e ∈ s.tickets, e.2.launched = false) → t.liveRung 1 c = some { r with phase := 1, since := s.now, hb := [] } ∧
          t.tickets = s.tickets.map (fun e => if e.2.ctx = c.val ∧ e.2.isReprog = false ∧ (e.2.state = 1 ∨ e.2.state = 2) then (e.1,
          { e.2 with state := 5 }) else e)))
  ∧ (∀ (c : Ctx) (r : Rung) (s : State),
      s.liveRung 1 c = some r → s.p4Runs = true → s.overran r = false → r.phase ≠ 0 →
      ((∀ e ∈ s.tickets, e.2.ctx = c.val → e.2.isReprog = false → e.2.launched = false) ∨ r.start + 1250 ≤ s.now) →
      Runs (.contextRecovery c) s
        (Fld.raised ||| Fld.staged ||| Fld.heldWrites ||| Fld.fencing ||| Fld.pendWas ||| Fld.leases ||| Fld.tide ||| Fld.tickets ||| Fld.acks |||
         Fld.jobs ||| Fld.plans ||| Fld.acct ||| Fld.slu ||| Fld.ctxs ||| Fld.lines ||| Fld.tags ||| Fld.qps ||| Fld.ovf ||| Fld.landing |||
         Fld.rows ||| Fld.tiles ||| Fld.trims ||| Fld.weir ||| Fld.harbour ||| Fld.hbPoison ||| Fld.hbWritten ||| Fld.frames ||| Fld.badSlots |||
         Fld.owners ||| Fld.runs ||| Fld.swaps ||| Fld.imports ||| Fld.dyns ||| Fld.tests ||| Fld.flash ||| Fld.cal ||| Fld.flashq ||| Fld.spdm |||
         Fld.ends ||| Fld.rplChecks ||| Fld.lost ||| Fld.wd ||| Fld.flrs ||| Fld.views ||| Fld.boot ||| Fld.tap ||| Fld.torn) fun t =>
        t = s.ctxFinish c r ∧
        (s.tickets = [] → s.leases = [] → s.jobs = [] → s.owners = [] → s.swaps = [] → s.plans = [] → s.heldWrites = [] → s.flrs = [] →
          t.rungs = s.rungs.filter (fun x => !r.same x) ∧ t.liveRung 1 c = none ∧ t.rawBit 15 0 Ev.RCV_DONE = true ∧ (s.lastIs r = true →
          t.reg Reg.RCV_LAST_DUR = BitVec.ofNat 32 (min 0xFFFFFFFF (s.now - r.start)))))
  ∧ (∀ (c : Ctx) (r : Rung) (s : State),
      s.liveRung 1 c = some r → s.p4Runs = true → r.start + 25000 < s.now →
      Runs (.contextRecovery c) s
        (Fld.raised ||| Fld.staged ||| Fld.heldWrites ||| Fld.fencing ||| Fld.pendWas ||| Fld.leases ||| Fld.tide ||| Fld.tickets ||| Fld.acks |||
         Fld.jobs ||| Fld.plans ||| Fld.acct ||| Fld.slu ||| Fld.ctxs ||| Fld.lines ||| Fld.tags ||| Fld.qps ||| Fld.ovf ||| Fld.landing |||
         Fld.rows ||| Fld.tiles ||| Fld.trims ||| Fld.weir ||| Fld.harbour ||| Fld.hbPoison ||| Fld.hbWritten ||| Fld.frames ||| Fld.badSlots |||
         Fld.owners ||| Fld.runs ||| Fld.swaps ||| Fld.imports ||| Fld.dyns ||| Fld.tests ||| Fld.flash ||| Fld.cal ||| Fld.flashq ||| Fld.spdm |||
         Fld.ends ||| Fld.rplChecks ||| Fld.lost ||| Fld.wd ||| Fld.flrs ||| Fld.views ||| Fld.boot ||| Fld.tap ||| Fld.torn) fun t =>
        t = s.rungEscalate r ∧ t.rawBit 15 0 Ev.RCV_OVERRUN = true)
  ∧ (∀ (isl : Isl) (r : Rung) (s : State),
      s.liveRung 2 isl = some r → s.p4Runs = true → r.esc = false → r.phase = 0 →
      Runs (.engineRecovery isl) s
        (Fld.raised ||| Fld.staged ||| Fld.heldWrites ||| Fld.fencing ||| Fld.pendWas ||| Fld.leases ||| Fld.tide ||| Fld.tickets ||| Fld.acks |||
         Fld.jobs ||| Fld.plans ||| Fld.acct ||| Fld.slu ||| Fld.ctxs ||| Fld.lines ||| Fld.tags ||| Fld.qps ||| Fld.ovf ||| Fld.landing |||
         Fld.rows ||| Fld.tiles ||| Fld.trims ||| Fld.weir ||| Fld.harbour ||| Fld.hbPoison ||| Fld.hbWritten ||| Fld.frames ||| Fld.badSlots |||
         Fld.owners ||| Fld.runs ||| Fld.imports ||| Fld.dyns ||| Fld.tests ||| Fld.flash ||| Fld.cal ||| Fld.flashq ||| Fld.spdm ||| Fld.ends |||
         Fld.rplChecks ||| Fld.lost ||| Fld.wd ||| Fld.flrs ||| Fld.views ||| Fld.boot ||| Fld.tap ||| Fld.torn) fun t =>
        t = (s.engineStop isl r).nextPhase r ∧
        (s.tickets = [] → s.tests = [] → t.liveRung 2 isl = some { r with phase := 1, since := s.now, hb := [] } ∧
          t.get64 (Reg.ISL_ENG_LAST_TICK_LO isl) (Reg.ISL_ENG_LAST_TICK_HI isl) = r.start % 2 ^ 64))
  ∧ (∀ (isl : Isl) (r : Rung) (s : State),
      s.liveRung 2 isl = some r → s.p4Runs = true → r.esc = false → r.phase = 1 → ((∀ e ∈ s.tickets, e.2.launched = false) ∨ r.since + 250 ≤ s.now) →
      Runs (.engineRecovery isl) s
        (Fld.raised ||| Fld.staged ||| Fld.heldWrites ||| Fld.fencing ||| Fld.pendWas ||| Fld.leases ||| Fld.tide ||| Fld.tickets ||| Fld.acks |||
         Fld.jobs ||| Fld.plans ||| Fld.acct ||| Fld.slu ||| Fld.ctxs ||| Fld.lines ||| Fld.tags ||| Fld.qps ||| Fld.ovf ||| Fld.landing |||
         Fld.rows ||| Fld.tiles ||| Fld.trims ||| Fld.weir ||| Fld.harbour ||| Fld.hbPoison ||| Fld.hbWritten ||| Fld.frames ||| Fld.badSlots |||
         Fld.owners ||| Fld.runs ||| Fld.imports ||| Fld.dyns ||| Fld.tests ||| Fld.flash ||| Fld.cal ||| Fld.flashq ||| Fld.spdm ||| Fld.ends |||
         Fld.rplChecks ||| Fld.lost ||| Fld.wd ||| Fld.flrs ||| Fld.views ||| Fld.boot ||| Fld.tap ||| Fld.torn) fun t =>
        t = (s.engineClear isl).nextPhase r ∧
        (s.tickets = [] → s.leases = [] → t.acks = s.acks.filter (fun a => a.tile / 16 ≠ isl.val) ∧
          t.reg (Reg.ISL_ENG_RST_CNT isl) = BitVec.ofNat 32 (satAdd 0xFFFFFFFF (s.reg (Reg.ISL_ENG_RST_CNT isl)).toNat 1) ∧ (s.warmHeld = false →
          t.rawBit 3 isl Ev.ISL_ENG_RESET = true)))
  ∧ (∀ (isl : Isl) (r : Rung) (s : State),
      s.liveRung 2 isl = some r → s.p4Runs = true → r.esc = false → 2 ≤ r.phase → 2 ≤ r.hb.length →
      Runs (.engineRecovery isl) s
        (Fld.raised ||| Fld.staged ||| Fld.heldWrites ||| Fld.fencing ||| Fld.pendWas ||| Fld.leases ||| Fld.tide ||| Fld.tickets ||| Fld.acks |||
         Fld.jobs ||| Fld.plans ||| Fld.acct ||| Fld.slu ||| Fld.ctxs ||| Fld.lines ||| Fld.tags ||| Fld.qps ||| Fld.ovf ||| Fld.landing |||
         Fld.rows ||| Fld.tiles ||| Fld.trims ||| Fld.weir ||| Fld.harbour ||| Fld.hbPoison ||| Fld.hbWritten ||| Fld.frames ||| Fld.badSlots |||
         Fld.owners ||| Fld.runs ||| Fld.imports ||| Fld.dyns ||| Fld.tests ||| Fld.flash ||| Fld.cal ||| Fld.flashq ||| Fld.spdm ||| Fld.ends |||
         Fld.rplChecks ||| Fld.lost ||| Fld.wd ||| Fld.flrs ||| Fld.views ||| Fld.boot ||| Fld.tap ||| Fld.torn) fun t =>
        t = s.engineDone isl r true ∧
        (s.plans = [] → s.heldWrites = [] → s.flrs = [] → t.rungs = s.rungs.filter (fun x => !r.same x) ∧ t.rawBit 15 0 Ev.RCV_DONE = true ∧
          t.getF (Reg.ISL_HB_CNT isl) 16 8 = 0))
  ∧ (∀ (isl : Isl) (r : Rung) (s : State),
      s.liveRung 2 isl = some r → s.p4Runs = true → r.esc = false → 2 ≤ r.phase → r.hb.length < 2 → r.since + 3072 ≤ s.now →
      s.getB Reg.DBG_CTL 0 = false →
      Runs (.engineRecovery isl) s
        (Fld.raised ||| Fld.staged ||| Fld.heldWrites ||| Fld.fencing ||| Fld.pendWas ||| Fld.leases ||| Fld.tide ||| Fld.tickets ||| Fld.acks |||
         Fld.jobs ||| Fld.plans ||| Fld.acct ||| Fld.slu ||| Fld.ctxs ||| Fld.lines ||| Fld.tags ||| Fld.qps ||| Fld.ovf ||| Fld.landing |||
         Fld.rows ||| Fld.tiles ||| Fld.trims ||| Fld.weir ||| Fld.harbour ||| Fld.hbPoison ||| Fld.hbWritten ||| Fld.frames ||| Fld.badSlots |||
         Fld.owners ||| Fld.runs ||| Fld.imports ||| Fld.dyns ||| Fld.tests ||| Fld.flash ||| Fld.cal ||| Fld.flashq ||| Fld.spdm ||| Fld.ends |||
         Fld.rplChecks ||| Fld.lost ||| Fld.wd ||| Fld.flrs ||| Fld.views ||| Fld.boot ||| Fld.tap ||| Fld.torn) fun t =>
        t = s.engineDone isl r false ∧
        (s.plans = [] → s.heldWrites = [] → s.flrs = [] → t.ownFenced 3 isl = true ∧ t.getB (Reg.ISL_ENG_LAST isl) 4 = true))

/-- A partition recovery stops its work, then resets the engine of each of its islands (cause 7, ISL_ENG_RESET) and ends with RCV_DONE once no unfenced
island owes an answer. A chip warm reset stops all work; clears tickets, acknowledgements and SPDM state where no firmware switch is asked, with
every pilot but P1 in restart; reloads the plans once those pilots run; and ends with TOP_STS bit 2 and RCV_WARM_DONE. A reconciliation in a new 10
ms period goes over tiles, islands, stacks and partitions, and a fence that P1 has not seen is taken over with RCV_DISAGREE. Readings that are the
model's choice: log entries 71, 73, 74, 75. (R938, R939, R950) -/
def Obligations.PartitionAndChipRecovery : Prop :=
  (∀ (p : Part) (r : Rung) (s : State),
      s.liveRung 3 p = some r → s.p4Runs = true → s.overran r = false → r.phase = 0 →
      Runs (.partitionRecovery p) s
        (Fld.raised ||| Fld.staged ||| Fld.heldWrites ||| Fld.fencing ||| Fld.pendWas ||| Fld.leases ||| Fld.tide ||| Fld.tickets ||| Fld.acks |||
         Fld.jobs ||| Fld.plans ||| Fld.acct ||| Fld.slu ||| Fld.ctxs ||| Fld.lines ||| Fld.tags ||| Fld.qps ||| Fld.ovf ||| Fld.landing |||
         Fld.rows ||| Fld.tiles ||| Fld.trims ||| Fld.weir ||| Fld.harbour ||| Fld.hbPoison ||| Fld.hbWritten ||| Fld.frames ||| Fld.badSlots |||
         Fld.owners ||| Fld.runs ||| Fld.swaps ||| Fld.imports ||| Fld.dyns ||| Fld.tests ||| Fld.flash ||| Fld.cal ||| Fld.flashq ||| Fld.spdm |||
         Fld.ends ||| Fld.rplChecks ||| Fld.lost ||| Fld.wd ||| Fld.flrs ||| Fld.views ||| Fld.boot ||| Fld.tap ||| Fld.torn) fun t =>
        t = (s.partStop p).nextPhase r ∧
        (s.tickets = [] → s.jobs = [] → s.runs = [] → s.tests = [] → s.boot.changing = [] →
          t.liveRung 3 p = some { r with phase := 1, since := s.now, hb := [] }))
  ∧ (∀ (p : Part) (r : Rung) (s : State),
      s.liveRung 3 p = some r → s.p4Runs = true → s.overran r = false → r.phase = 1 →
      ((∀ e ∈ s.tickets, e.2.launched = false) ∨ r.start + 2500 ≤ s.now) →
      Runs (.partitionRecovery p) s
        (Fld.raised ||| Fld.staged ||| Fld.heldWrites ||| Fld.fencing ||| Fld.pendWas ||| Fld.leases ||| Fld.tide ||| Fld.tickets ||| Fld.acks |||
         Fld.jobs ||| Fld.plans ||| Fld.acct ||| Fld.slu ||| Fld.ctxs ||| Fld.lines ||| Fld.tags ||| Fld.qps ||| Fld.ovf ||| Fld.landing |||
         Fld.rows ||| Fld.tiles ||| Fld.trims ||| Fld.weir ||| Fld.harbour ||| Fld.hbPoison ||| Fld.hbWritten ||| Fld.frames ||| Fld.badSlots |||
         Fld.owners ||| Fld.runs ||| Fld.swaps ||| Fld.imports ||| Fld.dyns ||| Fld.tests ||| Fld.flash ||| Fld.cal ||| Fld.flashq ||| Fld.spdm |||
         Fld.ends ||| Fld.rplChecks ||| Fld.lost ||| Fld.wd ||| Fld.flrs ||| Fld.views ||| Fld.boot ||| Fld.tap ||| Fld.torn) fun t =>
        t = (s.partClear p r).nextPhase r ∧
        (s.tickets = [] → s.leases = [] → s.jobs = [] → s.cal.tiles = [] → ∀ i : Nat, i < 64 → s.inPart p i = true →
          t.getF (Reg.ISL_ENG_LAST i) 0 5 = 7 ∧ (s.warmHeld = false → t.rawBit 3 i Ev.ISL_ENG_RESET = true)))
  ∧ (∀ (p : Part) (r : Rung) (s : State),
      s.liveRung 3 p = some r → s.p4Runs = true → s.overran r = false → 2 ≤ r.phase → s.unanswered r (s.islandsOf p) = [] →
      Runs (.partitionRecovery p) s
        (Fld.raised ||| Fld.staged ||| Fld.heldWrites ||| Fld.fencing ||| Fld.pendWas ||| Fld.leases ||| Fld.tide ||| Fld.tickets ||| Fld.acks |||
         Fld.jobs ||| Fld.plans ||| Fld.acct ||| Fld.slu ||| Fld.ctxs ||| Fld.lines ||| Fld.tags ||| Fld.qps ||| Fld.ovf ||| Fld.landing |||
         Fld.rows ||| Fld.tiles ||| Fld.trims ||| Fld.weir ||| Fld.harbour ||| Fld.hbPoison ||| Fld.hbWritten ||| Fld.frames ||| Fld.badSlots |||
         Fld.owners ||| Fld.runs ||| Fld.swaps ||| Fld.imports ||| Fld.dyns ||| Fld.tests ||| Fld.flash ||| Fld.cal ||| Fld.flashq ||| Fld.spdm |||
         Fld.ends ||| Fld.rplChecks ||| Fld.lost ||| Fld.wd ||| Fld.flrs ||| Fld.views ||| Fld.boot ||| Fld.tap ||| Fld.torn) fun t =>
        t = s.partDone p r ∧
        (s.swaps = [] → s.plans = [] → s.heldWrites = [] → s.flrs = [] → t.rungs = s.rungs.filter (fun x => !r.same x) ∧
          t.rawBit 15 0 Ev.RCV_DONE = true))
  ∧ (∀ (plain : List (Nat × Nat × List Byte)) (r : Rung) (s : State),
      s.liveRung 4 0 = some r → s.overran r = false → r.phase = 0 →
      Runs (.chipWarmReset plain) s
        (Fld.raised ||| Fld.shadow ||| Fld.staged ||| Fld.heldWrites ||| Fld.fencing ||| Fld.pendWas ||| Fld.leases ||| Fld.tide ||| Fld.tickets |||
         Fld.acks ||| Fld.jobs ||| Fld.plans ||| Fld.acct ||| Fld.slu ||| Fld.ctxs ||| Fld.basin ||| Fld.lines ||| Fld.tags ||| Fld.qps |||
         Fld.ovf ||| Fld.landing ||| Fld.rows ||| Fld.tiles ||| Fld.trims ||| Fld.weir ||| Fld.harbour ||| Fld.hbPoison ||| Fld.hbWritten |||
         Fld.frames ||| Fld.badSlots ||| Fld.owners ||| Fld.runs ||| Fld.refetch ||| Fld.hbr ||| Fld.scrubFrom ||| Fld.swaps ||| Fld.imports |||
         Fld.dyns ||| Fld.tests ||| Fld.flash ||| Fld.cal ||| Fld.flashq ||| Fld.spdm ||| Fld.ends ||| Fld.rplChecks ||| Fld.lost ||| Fld.wd |||
         Fld.flrs ||| Fld.sessions ||| Fld.views ||| Fld.boot ||| Fld.push ||| Fld.tap ||| Fld.torn ||| Fld.grantWas) fun t =>
        t = s.warmStop.nextPhase r ∧
        (s.tickets = [] → s.jobs = [] → s.runs = [] → s.tests = [] → s.getF Reg.CAL_STS 0 3 ≠ 1 → s.getF Reg.CAL_STS 0 3 ≠ 2 →
          s.getF Reg.BOOT_PROF_STS 0 2 ≠ 2 → t.liveRung 4 0 = some { r with phase := 1, since := s.now, hb := [] }))
  ∧ (∀ (plain : List (Nat × Nat × List Byte)) (r : Rung) (s : State),
      s.liveRung 4 0 = some r → s.overran r = false → r.phase = 1 → ((∀ e ∈ s.tickets, e.2.launched = false) ∨ r.start + 6375 ≤ s.now) →
      Runs (.chipWarmReset plain) s
        (Fld.raised ||| Fld.shadow ||| Fld.staged ||| Fld.heldWrites ||| Fld.fencing ||| Fld.pendWas ||| Fld.leases ||| Fld.tide ||| Fld.tickets |||
         Fld.acks ||| Fld.jobs ||| Fld.plans ||| Fld.acct ||| Fld.slu ||| Fld.ctxs ||| Fld.basin ||| Fld.lines ||| Fld.tags ||| Fld.qps |||
         Fld.ovf ||| Fld.landing ||| Fld.rows ||| Fld.tiles ||| Fld.trims ||| Fld.weir ||| Fld.harbour ||| Fld.hbPoison ||| Fld.hbWritten |||
         Fld.frames ||| Fld.badSlots ||| Fld.owners ||| Fld.runs ||| Fld.refetch ||| Fld.hbr ||| Fld.scrubFrom ||| Fld.swaps ||| Fld.imports |||
         Fld.dyns ||| Fld.tests ||| Fld.flash ||| Fld.cal ||| Fld.flashq ||| Fld.spdm ||| Fld.ends ||| Fld.rplChecks ||| Fld.lost ||| Fld.wd |||
         Fld.flrs ||| Fld.sessions ||| Fld.views ||| Fld.boot ||| Fld.push ||| Fld.tap ||| Fld.torn ||| Fld.grantWas) fun t =>
        t = (s.warmClear r).nextPhase r ∧ (s.getB Reg.BOOT_CTL 0 = false → t.tickets = [] ∧ t.acks = [] ∧ t.spdm = []) ∧
        (∀ n : Nat, n < 8 → n ≠ 1 → t.pilSt n = 3))
  ∧ (∀ (plain : List (Nat × Nat × List Byte)) (r : Rung) (s : State),
      s.liveRung 4 0 = some r → s.overran r = false → r.phase = 2 → (∀ n : Nat, n < 8 → n ≠ 1 → s.pilSt n = 1) →
      Runs (.chipWarmReset plain) s
        (Fld.raised ||| Fld.shadow ||| Fld.staged ||| Fld.heldWrites ||| Fld.fencing ||| Fld.pendWas ||| Fld.leases ||| Fld.tide ||| Fld.tickets |||
         Fld.acks ||| Fld.jobs ||| Fld.plans ||| Fld.acct ||| Fld.slu ||| Fld.ctxs ||| Fld.basin ||| Fld.lines ||| Fld.tags ||| Fld.qps |||
         Fld.ovf ||| Fld.landing ||| Fld.rows ||| Fld.tiles ||| Fld.trims ||| Fld.weir ||| Fld.harbour ||| Fld.hbPoison ||| Fld.hbWritten |||
         Fld.frames ||| Fld.badSlots ||| Fld.owners ||| Fld.runs ||| Fld.refetch ||| Fld.hbr ||| Fld.scrubFrom ||| Fld.swaps ||| Fld.imports |||
         Fld.dyns ||| Fld.tests ||| Fld.flash ||| Fld.cal ||| Fld.flashq ||| Fld.spdm ||| Fld.ends ||| Fld.rplChecks ||| Fld.lost ||| Fld.wd |||
         Fld.flrs ||| Fld.sessions ||| Fld.views ||| Fld.boot ||| Fld.push ||| Fld.tap ||| Fld.torn ||| Fld.grantWas) fun t =>
        t = (s.nextPhase r).warmReload plain ∧
        (s.plans = [] → t.liveRung 4 0 = some { r with phase := 3, since := s.now, hb := [] } ∧ t.regs = s.regs))
  ∧ (∀ (plain : List (Nat × Nat × List Byte)) (r : Rung) (s : State),
      s.liveRung 4 0 = some r → s.overran r = false → 3 ≤ r.phase → s.unanswered r (List.range 64) = [] →
      Runs (.chipWarmReset plain) s
        (Fld.raised ||| Fld.shadow ||| Fld.staged ||| Fld.heldWrites ||| Fld.fencing ||| Fld.pendWas ||| Fld.leases ||| Fld.tide ||| Fld.tickets |||
         Fld.acks ||| Fld.jobs ||| Fld.plans ||| Fld.acct ||| Fld.slu ||| Fld.ctxs ||| Fld.basin ||| Fld.lines ||| Fld.tags ||| Fld.qps |||
         Fld.ovf ||| Fld.landing ||| Fld.rows ||| Fld.tiles ||| Fld.trims ||| Fld.weir ||| Fld.harbour ||| Fld.hbPoison ||| Fld.hbWritten |||
         Fld.frames ||| Fld.badSlots ||| Fld.owners ||| Fld.runs ||| Fld.refetch ||| Fld.hbr ||| Fld.scrubFrom ||| Fld.swaps ||| Fld.imports |||
         Fld.dyns ||| Fld.tests ||| Fld.flash ||| Fld.cal ||| Fld.flashq ||| Fld.spdm ||| Fld.ends ||| Fld.rplChecks ||| Fld.lost ||| Fld.wd |||
         Fld.flrs ||| Fld.sessions ||| Fld.views ||| Fld.boot ||| Fld.push ||| Fld.tap ||| Fld.torn ||| Fld.grantWas) fun t =>
        t = s.warmDone r ∧
        (s.plans = [] → s.heldWrites = [] → s.flrs = [] → t.rungs = s.rungs.filter (fun x => !r.same x) ∧ t.rawBit 15 0 Ev.RCV_WARM_DONE = true ∧
          t.getB Reg.TOP_STS 2 = true))
  ∧ (∀ (s : State),
      s.reconAt < s.now / 1250000 → s.pilSt 1 = 1 → s.coreUp = true →
      Runs .reconciliation s
        (Fld.raised ||| Fld.rows ||| Fld.tiles ||| Fld.tests ||| Fld.cal ||| Fld.rplChecks ||| Fld.views ||| Fld.reconAt) fun t =>
        t = (((({ s with reconAt := s.now / 1250000 } : State).reconcileAll 4 1024).reconcileAll 3 64).reconcileAll 5 6).reconcileAll 0x12 s.profile.parts.length ∧
        t.reconAt = s.now / 1250000 ∧
        (∀ ty inst : Nat, s.inRung ty inst = false → (s.hd ty inst).fenced = true → (s.view ty inst).fenced = false →
          ((s.reconcile ty inst).view ty inst).fenced = true ∧ (s.reconcile ty inst).rawBit 15 0 Ev.RCV_DISAGREE = true))
end

