-- ==== Sys2Proof/Laws/Keeps.lean ====
section
/-!
SUPPORT. What a function of the model may change, said once per function: `Keeps m s t` says that `t` agrees with `s` on every field of State
outside the set `m`, and that the invariant of State carries over from `s` to `t`.
-/
namespace Sys2Proof.Machine

theorem Fld.sub_trans {a b c : Nat} (h : Fld.sub a b = true) (h' : Fld.sub b c = true) : Fld.sub a c = true := by
  simp only [Fld.sub, beq_iff_eq] at *
  rw [← h, Nat.and_assoc, h']

theorem Fld.sub_false {a b c : Nat} (h : Fld.sub b c = true) (h' : Fld.sub a c = false) : Fld.sub a b = false := by
  cases hb : Fld.sub a b with
  | false => rfl
  | true => rw [Fld.sub_trans hb h] at h'; exact h'

theorem Agree.refl (m : Nat) (s : State) : Agree m s s := by constructor <;> exact fun _ => rfl

theorem Agree.trans {m : Nat} {s t u : State} (h : Agree m s t) (k : Agree m t u) : Agree m s u where
  pending := fun e => (k.pending e).trans (h.pending e)
  regs := fun e => (k.regs e).trans (h.regs e)
  hdr := fun e => (k.hdr e).trans (h.hdr e)
  shadow := fun e => (k.shadow e).trans (h.shadow e)
  staged := fun e => (k.staged e).trans (h.staged e)
  heldWrites := fun e => (k.heldWrites e).trans (h.heldWrites e)
  fencing := fun e => (k.fencing e).trans (h.fencing e)
  pendWas := fun e => (k.pendWas e).trans (h.pendWas e)
  log := fun e => (k.log e).trans (h.log e)
  out := fun e => (k.out e).trans (h.out e)
  irq := fun e => (k.irq e).trans (h.irq e)
  badAccTick := fun e => (k.badAccTick e).trans (h.badAccTick e)
  draws := fun e => (k.draws e).trans (h.draws e)
  leases := fun e => (k.leases e).trans (h.leases e)
  profile := fun e => (k.profile e).trans (h.profile e)
  count := fun e => (k.count e).trans (h.count e)
  tide := fun e => (k.tide e).trans (h.tide e)
  tickets := fun e => (k.tickets e).trans (h.tickets e)
  acks := fun e => (k.acks e).trans (h.acks e)
  jobs := fun e => (k.jobs e).trans (h.jobs e)
  nextJob := fun e => (k.nextJob e).trans (h.nextJob e)
  plans := fun e => (k.plans e).trans (h.plans e)
  nextPlan := fun e => (k.nextPlan e).trans (h.nextPlan e)
  acct := fun e => (k.acct e).trans (h.acct e)
  slu := fun e => (k.slu e).trans (h.slu e)
  ctxs := fun e => (k.ctxs e).trans (h.ctxs e)
  basin := fun e => (k.basin e).trans (h.basin e)
  lines := fun e => (k.lines e).trans (h.lines e)
  tags := fun e => (k.tags e).trans (h.tags e)
  qps := fun e => (k.qps e).trans (h.qps e)
  ovf := fun e => (k.ovf e).trans (h.ovf e)
  landing := fun e => (k.landing e).trans (h.landing e)
  rungs := fun e => (k.rungs e).trans (h.rungs e)
  rows := fun e => (k.rows e).trans (h.rows e)
  tiles := fun e => (k.tiles e).trans (h.tiles e)
  trims := fun e => (k.trims e).trans (h.trims e)
  weir := fun e => (k.weir e).trans (h.weir e)
  nextRep := fun e => (k.nextRep e).trans (h.nextRep e)
  harbour := fun e => (k.harbour e).trans (h.harbour e)
  hbPoison := fun e => (k.hbPoison e).trans (h.hbPoison e)
  hbWritten := fun e => (k.hbWritten e).trans (h.hbWritten e)
  frames := fun e => (k.frames e).trans (h.frames e)
  badSlots := fun e => (k.badSlots e).trans (h.badSlots e)
  owners := fun e => (k.owners e).trans (h.owners e)
  runs := fun e => (k.runs e).trans (h.runs e)
  nextRun := fun e => (k.nextRun e).trans (h.nextRun e)
  refetch := fun e => (k.refetch e).trans (h.refetch e)
  hbr := fun e => (k.hbr e).trans (h.hbr e)
  scrubFrom := fun e => (k.scrubFrom e).trans (h.scrubFrom e)
  swaps := fun e => (k.swaps e).trans (h.swaps e)
  imports := fun e => (k.imports e).trans (h.imports e)
  dyns := fun e => (k.dyns e).trans (h.dyns e)
  tests := fun e => (k.tests e).trans (h.tests e)
  flash := fun e => (k.flash e).trans (h.flash e)
  cal := fun e => (k.cal e).trans (h.cal e)
  flashq := fun e => (k.flashq e).trans (h.flashq e)
  ownerKeys := fun e => (k.ownerKeys e).trans (h.ownerKeys e)
  spdm := fun e => (k.spdm e).trans (h.spdm e)
  ends := fun e => (k.ends e).trans (h.ends e)
  rrCtx := fun e => (k.rrCtx e).trans (h.rrCtx e)
  rrQ := fun e => (k.rrQ e).trans (h.rrQ e)
  rplChecks := fun e => (k.rplChecks e).trans (h.rplChecks e)
  lost := fun e => (k.lost e).trans (h.lost e)
  thm := fun e => (k.thm e).trans (h.thm e)
  wd := fun e => (k.wd e).trans (h.wd e)
  rungAt := fun e => (k.rungAt e).trans (h.rungAt e)
  flrs := fun e => (k.flrs e).trans (h.flrs e)
  sessions := fun e => (k.sessions e).trans (h.sessions e)
  mgmtKeys := fun e => (k.mgmtKeys e).trans (h.mgmtKeys e)
  authTick := fun e => (k.authTick e).trans (h.authTick e)
  views := fun e => (k.views e).trans (h.views e)
  boot := fun e => (k.boot e).trans (h.boot e)
  push := fun e => (k.push e).trans (h.push e)
  tap := fun e => (k.tap e).trans (h.tap e)
  mctp := fun e => (k.mctp e).trans (h.mctp e)
  torn := fun e => (k.torn e).trans (h.torn e)
  grantWas := fun e => (k.grantWas e).trans (h.grantWas e)
  power := fun e => (k.power e).trans (h.power e)
  reconAt := fun e => (k.reconAt e).trans (h.reconAt e)

theorem Agree.mono {m n : Nat} {s t : State} (hm : Fld.sub m n = true) (h : Agree m s t) : Agree n s t where
  pending := fun e => h.pending (Fld.sub_false hm e)
  regs := fun e => h.regs (Fld.sub_false hm e)
  hdr := fun e => h.hdr (Fld.sub_false hm e)
  shadow := fun e => h.shadow (Fld.sub_false hm e)
  staged := fun e => h.staged (Fld.sub_false hm e)
  heldWrites := fun e => h.heldWrites (Fld.sub_false hm e)
  fencing := fun e => h.fencing (Fld.sub_false hm e)
  pendWas := fun e => h.pendWas (Fld.sub_false hm e)
  log := fun e => h.log (Fld.sub_false hm e)
  out := fun e => h.out (Fld.sub_false hm e)
  irq := fun e => h.irq (Fld.sub_false hm e)
  badAccTick := fun e => h.badAccTick (Fld.sub_false hm e)
  draws := fun e => h.draws (Fld.sub_false hm e)
  leases := fun e => h.leases (Fld.sub_false hm e)
  profile := fun e => h.profile (Fld.sub_false hm e)
  count := fun e => h.count (Fld.sub_false hm e)
  tide := fun e => h.tide (Fld.sub_false hm e)
  tickets := fun e => h.tickets (Fld.sub_false hm e)
  acks := fun e => h.acks (Fld.sub_false hm e)
  jobs := fun e => h.jobs (Fld.sub_false hm e)
  nextJob := fun e => h.nextJob (Fld.sub_false hm e)
  plans := fun e => h.plans (Fld.sub_false hm e)
  nextPlan := fun e => h.nextPlan (Fld.sub_false hm e)
  acct := fun e => h.acct (Fld.sub_false hm e)
  slu := fun e => h.slu (Fld.sub_false hm e)
  ctxs := fun e => h.ctxs (Fld.sub_false hm e)
  basin := fun e => h.basin (Fld.sub_false hm e)
  lines := fun e => h.lines (Fld.sub_false hm e)
  tags := fun e => h.tags (Fld.sub_false hm e)
  qps := fun e => h.qps (Fld.sub_false hm e)
  ovf := fun e => h.ovf (Fld.sub_false hm e)
  landing := fun e => h.landing (Fld.sub_false hm e)
  rungs := fun e => h.rungs (Fld.sub_false hm e)
  rows := fun e => h.rows (Fld.sub_false hm e)
  tiles := fun e => h.tiles (Fld.sub_false hm e)
  trims := fun e => h.trims (Fld.sub_false hm e)
  weir := fun e => h.weir (Fld.sub_false hm e)
  nextRep := fun e => h.nextRep (Fld.sub_false hm e)
  harbour := fun e => h.harbour (Fld.sub_false hm e)
  hbPoison := fun e => h.hbPoison (Fld.sub_false hm e)
  hbWritten := fun e => h.hbWritten (Fld.sub_false hm e)
  frames := fun e => h.frames (Fld.sub_false hm e)
  badSlots := fun e => h.badSlots (Fld.sub_false hm e)
  owners := fun e => h.owners (Fld.sub_false hm e)
  runs := fun e => h.runs (Fld.sub_false hm e)
  nextRun := fun e => h.nextRun (Fld.sub_false hm e)
  refetch := fun e => h.refetch (Fld.sub_false hm e)
  hbr := fun e => h.hbr (Fld.sub_false hm e)
  scrubFrom := fun e => h.scrubFrom (Fld.sub_false hm e)
  swaps := fun e => h.swaps (Fld.sub_false hm e)
  imports := fun e => h.imports (Fld.sub_false hm e)
  dyns := fun e => h.dyns (Fld.sub_false hm e)
  tests := fun e => h.tests (Fld.sub_false hm e)
  flash := fun e => h.flash (Fld.sub_false hm e)
  cal := fun e => h.cal (Fld.sub_false hm e)
  flashq := fun e => h.flashq (Fld.sub_false hm e)
  ownerKeys := fun e => h.ownerKeys (Fld.sub_false hm e)
  spdm := fun e => h.spdm (Fld.sub_false hm e)
  ends := fun e => h.ends (Fld.sub_false hm e)
  rrCtx := fun e => h.rrCtx (Fld.sub_false hm e)
  rrQ := fun e => h.rrQ (Fld.sub_false hm e)
  rplChecks := fun e => h.rplChecks (Fld.sub_false hm e)
  lost := fun e => h.lost (Fld.sub_false hm e)
  thm := fun e => h.thm (Fld.sub_false hm e)
  wd := fun e => h.wd (Fld.sub_false hm e)
  rungAt := fun e => h.rungAt (Fld.sub_false hm e)
  flrs := fun e => h.flrs (Fld.sub_false hm e)
  sessions := fun e => h.sessions (Fld.sub_false hm e)
  mgmtKeys := fun e => h.mgmtKeys (Fld.sub_false hm e)
  authTick := fun e => h.authTick (Fld.sub_false hm e)
  views := fun e => h.views (Fld.sub_false hm e)
  boot := fun e => h.boot (Fld.sub_false hm e)
  push := fun e => h.push (Fld.sub_false hm e)
  tap := fun e => h.tap (Fld.sub_false hm e)
  mctp := fun e => h.mctp (Fld.sub_false hm e)
  torn := fun e => h.torn (Fld.sub_false hm e)
  grantWas := fun e => h.grantWas (Fld.sub_false hm e)
  power := fun e => h.power (Fld.sub_false hm e)
  reconAt := fun e => h.reconAt (Fld.sub_false hm e)

/-- `t` agrees with `s` outside `m`, and the invariant carries over. -/
structure Keeps (m : Nat) (s t : State) : Prop where
  agree : Agree m s t
  inv : s.Inv → t.Inv

/-- What an answer keeps, where it is a next state. -/
def KeepsO (m : Nat) (s : State) (o : Host.Outcome State Fault Refusal) : Prop := ∀ t, o = .next t → Keeps m s t

theorem KeepsO.next {m : Nat} {s t : State} (h : Keeps m s t) : KeepsO m s (.next t) := by
  intro u e
  cases e
  exact h

theorem KeepsO.ite {m : Nat} {s : State} {c : Prop} [Decidable c] {a b : Host.Outcome State Fault Refusal} (ha : KeepsO m s a)
    (hb : KeepsO m s b) : KeepsO m s (if c then a else b) := by split <;> assumption

theorem Keeps.refl (m : Nat) (s : State) : Keeps m s s := ⟨Agree.refl m s, id⟩

theorem Keeps.trans {m : Nat} {s t u : State} (h : Keeps m s t) (k : Keeps m t u) : Keeps m s u :=
  ⟨h.agree.trans k.agree, fun i => k.inv (h.inv i)⟩

theorem Keeps.mono {m n : Nat} {s t : State} (h : Keeps m s t) (hm : Fld.sub m n = true) : Keeps n s t := ⟨h.agree.mono hm, h.inv⟩

theorem KeepsO.mono {m n : Nat} {s : State} {o : Host.Outcome State Fault Refusal} (h : KeepsO n s o) (hm : Fld.sub n m = true) :
    KeepsO m s o := fun t e => (h t e).mono hm

/-- A function that keeps all but `n`, run on a state reached. -/
theorem Keeps.step {m n : Nat} {s t u : State} (k : Keeps n t u) (hm : Fld.sub n m = true) (h : Keeps m s t) : Keeps m s u :=
  h.trans (k.mono hm)

/-- An intermediate state first. -/
theorem Keeps.cut {m : Nat} {s u : State} (x : State) (h : Keeps m s x) (k : Keeps m s x → Keeps m s u) : Keeps m s u := k h

theorem KeepsO.cut {m : Nat} {s : State} {o : Host.Outcome State Fault Refusal} (x : State) (h : Keeps m s x)
    (k : Keeps m s x → KeepsO m s o) : KeepsO m s o := k h

theorem Keeps.ite {m : Nat} {s : State} {c : Prop} [Decidable c] {a b : State} (ha : Keeps m s a) (hb : Keeps m s b) :
    Keeps m s (if c then a else b) := by split <;> assumption

theorem Keeps.foldl {m : Nat} {s u : State} {α : Type} {g : State → α → State} {l : List α} (hg : ∀ t x, Keeps m s t → Keeps m s (g t x))
    (h : Keeps m s u) : Keeps m s (l.foldl g u) := by
  induction l generalizing u with
  | nil => exact h
  | cons x l ih => exact ih (hg u x h)

/-- One more update, which keeps all but `n` and carries the invariant over. -/
theorem Keeps.step0 {m n : Nat} {s u v : State} (h : Keeps m s u) (hm : Fld.sub n m = true) (ha : Agree n u v) (hi : u.Inv → v.Inv) :
    Keeps m s v := h.trans ⟨ha.mono hm, hi⟩

/-- The first component of a pair a function answered. -/
theorem Keeps.of_fst {m : Nat} {s a : State} {β : Type} {b : β} {p : State × β} (e : p = (a, b)) (h : Keeps m s p.1) : Keeps m s a := by
  subst e
  exact h

/-- The second component. -/
theorem Keeps.of_snd {m : Nat} {s a : State} {β : Type} {b : β} {p : β × State} (e : p = (b, a)) (h : Keeps m s p.2) : Keeps m s a := by
  subst e
  exact h

theorem Keeps.set_pending {m : Nat} {s u : State} (x) (h : Keeps m s u) (hm : Fld.sub Fld.pending m = true) :
    Keeps m s { u with pending := x } :=
  h.step0 hm (by constructor <;> first | exact fun e => absurd e (by decide) | exact fun _ => rfl) id

theorem Keeps.set_regs {m : Nat} {s u : State} (x) (h : Keeps m s u) (hm : Fld.sub Fld.regs m = true) :
    Keeps m s { u with regs := x } :=
  h.step0 hm (by constructor <;> first | exact fun e => absurd e (by decide) | exact fun _ => rfl) id

theorem Keeps.set_hdr {m : Nat} {s u : State} (x) (h : Keeps m s u) (hi : pendSub u.hdr = true → pendSub x = true) (hm : Fld.sub Fld.hdr m = true) :
    Keeps m s { u with hdr := x } :=
  h.step0 hm (by constructor <;> first | exact fun e => absurd e (by decide) | exact fun _ => rfl) fun i => ⟨i.1, i.2.1, i.2.2.1, hi i.2.2.2.1, i.2.2.2.2⟩

theorem Keeps.set_shadow {m : Nat} {s u : State} (x) (h : Keeps m s u) (hm : Fld.sub Fld.shadow m = true) :
    Keeps m s { u with shadow := x } :=
  h.step0 hm (by constructor <;> first | exact fun e => absurd e (by decide) | exact fun _ => rfl) id

theorem Keeps.set_staged {m : Nat} {s u : State} (x) (h : Keeps m s u) (hm : Fld.sub Fld.staged m = true) :
    Keeps m s { u with staged := x } :=
  h.step0 hm (by constructor <;> first | exact fun e => absurd e (by decide) | exact fun _ => rfl) id

theorem Keeps.set_heldWrites {m : Nat} {s u : State} (x) (h : Keeps m s u) (hm : Fld.sub Fld.heldWrites m = true) :
    Keeps m s { u with heldWrites := x } :=
  h.step0 hm (by constructor <;> first | exact fun e => absurd e (by decide) | exact fun _ => rfl) id

theorem Keeps.set_fencing {m : Nat} {s u : State} (x) (h : Keeps m s u) (hm : Fld.sub Fld.fencing m = true) :
    Keeps m s { u with fencing := x } :=
  h.step0 hm (by constructor <;> first | exact fun e => absurd e (by decide) | exact fun _ => rfl) id

theorem Keeps.set_pendWas {m : Nat} {s u : State} (x) (h : Keeps m s u) (hm : Fld.sub Fld.pendWas m = true) :
    Keeps m s { u with pendWas := x } :=
  h.step0 hm (by constructor <;> first | exact fun e => absurd e (by decide) | exact fun _ => rfl) id

theorem Keeps.set_log {m : Nat} {s u : State} (x) (h : Keeps m s u) (hm : Fld.sub Fld.log m = true) :
    Keeps m s { u with log := x } :=
  h.step0 hm (by constructor <;> first | exact fun e => absurd e (by decide) | exact fun _ => rfl) id

theorem Keeps.set_out {m : Nat} {s u : State} (x) (h : Keeps m s u) (hm : Fld.sub Fld.out m = true) :
    Keeps m s { u with out := x } :=
  h.step0 hm (by constructor <;> first | exact fun e => absurd e (by decide) | exact fun _ => rfl) id

theorem Keeps.set_irq {m : Nat} {s u : State} (x) (h : Keeps m s u) (hm : Fld.sub Fld.irq m = true) :
    Keeps m s { u with irq := x } :=
  h.step0 hm (by constructor <;> first | exact fun e => absurd e (by decide) | exact fun _ => rfl) id

theorem Keeps.set_badAccTick {m : Nat} {s u : State} (x) (h : Keeps m s u) (hm : Fld.sub Fld.badAccTick m = true) :
    Keeps m s { u with badAccTick := x } :=
  h.step0 hm (by constructor <;> first | exact fun e => absurd e (by decide) | exact fun _ => rfl) id

theorem Keeps.set_draws {m : Nat} {s u : State} (x) (h : Keeps m s u) (hm : Fld.sub Fld.draws m = true) :
    Keeps m s { u with draws := x } :=
  h.step0 hm (by constructor <;> first | exact fun e => absurd e (by decide) | exact fun _ => rfl) id

theorem Keeps.set_leases {m : Nat} {s u : State} (x) (h : Keeps m s u) (hm : Fld.sub Fld.leases m = true) :
    Keeps m s { u with leases := x } :=
  h.step0 hm (by constructor <;> first | exact fun e => absurd e (by decide) | exact fun _ => rfl) id

theorem Keeps.set_profile {m : Nat} {s u : State} (x) (h : Keeps m s u) (hm : Fld.sub Fld.profile m = true) :
    Keeps m s { u with profile := x } :=
  h.step0 hm (by constructor <;> first | exact fun e => absurd e (by decide) | exact fun _ => rfl) id

theorem Keeps.set_count {m : Nat} {s u : State} (x) (h : Keeps m s u) (hm : Fld.sub Fld.count m = true) :
    Keeps m s { u with count := x } :=
  h.step0 hm (by constructor <;> first | exact fun e => absurd e (by decide) | exact fun _ => rfl) id

theorem Keeps.set_tide {m : Nat} {s u : State} (x) (h : Keeps m s u) (hm : Fld.sub Fld.tide m = true) :
    Keeps m s { u with tide := x } :=
  h.step0 hm (by constructor <;> first | exact fun e => absurd e (by decide) | exact fun _ => rfl) id

theorem Keeps.set_tickets {m : Nat} {s u : State} (x) (h : Keeps m s u) (hm : Fld.sub Fld.tickets m = true) :
    Keeps m s { u with tickets := x } :=
  h.step0 hm (by constructor <;> first | exact fun e => absurd e (by decide) | exact fun _ => rfl) id

theorem Keeps.set_acks {m : Nat} {s u : State} (x) (h : Keeps m s u) (hm : Fld.sub Fld.acks m = true) :
    Keeps m s { u with acks := x } :=
  h.step0 hm (by constructor <;> first | exact fun e => absurd e (by decide) | exact fun _ => rfl) id

theorem Keeps.set_jobs {m : Nat} {s u : State} (x) (h : Keeps m s u) (hm : Fld.sub Fld.jobs m = true) :
    Keeps m s { u with jobs := x } :=
  h.step0 hm (by constructor <;> first | exact fun e => absurd e (by decide) | exact fun _ => rfl) id

theorem Keeps.set_nextJob {m : Nat} {s u : State} (x) (h : Keeps m s u) (hm : Fld.sub Fld.nextJob m = true) :
    Keeps m s { u with nextJob := x } :=
  h.step0 hm (by constructor <;> first | exact fun e => absurd e (by decide) | exact fun _ => rfl) id

theorem Keeps.set_plans {m : Nat} {s u : State} (x) (h : Keeps m s u) (hm : Fld.sub Fld.plans m = true) :
    Keeps m s { u with plans := x } :=
  h.step0 hm (by constructor <;> first | exact fun e => absurd e (by decide) | exact fun _ => rfl) id

theorem Keeps.set_nextPlan {m : Nat} {s u : State} (x) (h : Keeps m s u) (hm : Fld.sub Fld.nextPlan m = true) :
    Keeps m s { u with nextPlan := x } :=
  h.step0 hm (by constructor <;> first | exact fun e => absurd e (by decide) | exact fun _ => rfl) id

theorem Keeps.set_acct {m : Nat} {s u : State} (x) (h : Keeps m s u) (hm : Fld.sub Fld.acct m = true) :
    Keeps m s { u with acct := x } :=
  h.step0 hm (by constructor <;> first | exact fun e => absurd e (by decide) | exact fun _ => rfl) id

theorem Keeps.set_slu {m : Nat} {s u : State} (x) (h : Keeps m s u) (hm : Fld.sub Fld.slu m = true) :
    Keeps m s { u with slu := x } :=
  h.step0 hm (by constructor <;> first | exact fun e => absurd e (by decide) | exact fun _ => rfl) id

theorem Keeps.set_ctxs {m : Nat} {s u : State} (x) (h : Keeps m s u) (hm : Fld.sub Fld.ctxs m = true) :
    Keeps m s { u with ctxs := x } :=
  h.step0 hm (by constructor <;> first | exact fun e => absurd e (by decide) | exact fun _ => rfl) id

theorem Keeps.set_basin {m : Nat} {s u : State} (x) (h : Keeps m s u) (hi : Store.wf basinZero u.basin = true → Store.wf basinZero x = true) (hm : Fld.sub Fld.basin m = true) :
    Keeps m s { u with basin := x } :=
  h.step0 hm (by constructor <;> first | exact fun e => absurd e (by decide) | exact fun _ => rfl) fun i => ⟨hi i.1, i.2.1, i.2.2.1, i.2.2.2⟩

theorem Keeps.set_lines {m : Nat} {s u : State} (x) (h : Keeps m s u) (hm : Fld.sub Fld.lines m = true) :
    Keeps m s { u with lines := x } :=
  h.step0 hm (by constructor <;> first | exact fun e => absurd e (by decide) | exact fun _ => rfl) id

theorem Keeps.set_tags {m : Nat} {s u : State} (x) (h : Keeps m s u) (hi : Store.wf tagNone u.tags = true → Store.wf tagNone x = true) (hm : Fld.sub Fld.tags m = true) :
    Keeps m s { u with tags := x } :=
  h.step0 hm (by constructor <;> first | exact fun e => absurd e (by decide) | exact fun _ => rfl) fun i => ⟨i.1, i.2.1, i.2.2.1, i.2.2.2.1, hi i.2.2.2.2⟩

theorem Keeps.set_qps {m : Nat} {s u : State} (x) (h : Keeps m s u) (hm : Fld.sub Fld.qps m = true) :
    Keeps m s { u with qps := x } :=
  h.step0 hm (by constructor <;> first | exact fun e => absurd e (by decide) | exact fun _ => rfl) id

theorem Keeps.set_ovf {m : Nat} {s u : State} (x) (h : Keeps m s u) (hm : Fld.sub Fld.ovf m = true) :
    Keeps m s { u with ovf := x } :=
  h.step0 hm (by constructor <;> first | exact fun e => absurd e (by decide) | exact fun _ => rfl) id

theorem Keeps.set_landing {m : Nat} {s u : State} (x) (h : Keeps m s u) (hm : Fld.sub Fld.landing m = true) :
    Keeps m s { u with landing := x } :=
  h.step0 hm (by constructor <;> first | exact fun e => absurd e (by decide) | exact fun _ => rfl) id

theorem Keeps.set_rungs {m : Nat} {s u : State} (x) (h : Keeps m s u) (hm : Fld.sub Fld.rungs m = true) :
    Keeps m s { u with rungs := x } :=
  h.step0 hm (by constructor <;> first | exact fun e => absurd e (by decide) | exact fun _ => rfl) id

theorem Keeps.set_rows {m : Nat} {s u : State} (x) (h : Keeps m s u) (hm : Fld.sub Fld.rows m = true) :
    Keeps m s { u with rows := x } :=
  h.step0 hm (by constructor <;> first | exact fun e => absurd e (by decide) | exact fun _ => rfl) id

theorem Keeps.set_tiles {m : Nat} {s u : State} (x) (h : Keeps m s u) (hm : Fld.sub Fld.tiles m = true) :
    Keeps m s { u with tiles := x } :=
  h.step0 hm (by constructor <;> first | exact fun e => absurd e (by decide) | exact fun _ => rfl) id

theorem Keeps.set_trims {m : Nat} {s u : State} (x) (h : Keeps m s u) (hm : Fld.sub Fld.trims m = true) :
    Keeps m s { u with trims := x } :=
  h.step0 hm (by constructor <;> first | exact fun e => absurd e (by decide) | exact fun _ => rfl) id

theorem Keeps.set_weir {m : Nat} {s u : State} (x) (h : Keeps m s u) (hm : Fld.sub Fld.weir m = true) :
    Keeps m s { u with weir := x } :=
  h.step0 hm (by constructor <;> first | exact fun e => absurd e (by decide) | exact fun _ => rfl) id

theorem Keeps.set_nextRep {m : Nat} {s u : State} (x) (h : Keeps m s u) (hm : Fld.sub Fld.nextRep m = true) :
    Keeps m s { u with nextRep := x } :=
  h.step0 hm (by constructor <;> first | exact fun e => absurd e (by decide) | exact fun _ => rfl) id

theorem Keeps.set_harbour {m : Nat} {s u : State} (x) (h : Keeps m s u) (hi : Store.wf basinZero u.harbour = true → Store.wf basinZero x = true) (hm : Fld.sub Fld.harbour m = true) :
    Keeps m s { u with harbour := x } :=
  h.step0 hm (by constructor <;> first | exact fun e => absurd e (by decide) | exact fun _ => rfl) fun i => ⟨i.1, hi i.2.1, i.2.2.1, i.2.2.2⟩

theorem Keeps.set_hbPoison {m : Nat} {s u : State} (x) (h : Keeps m s u) (hm : Fld.sub Fld.hbPoison m = true) :
    Keeps m s { u with hbPoison := x } :=
  h.step0 hm (by constructor <;> first | exact fun e => absurd e (by decide) | exact fun _ => rfl) id

theorem Keeps.set_hbWritten {m : Nat} {s u : State} (x) (h : Keeps m s u) (hm : Fld.sub Fld.hbWritten m = true) :
    Keeps m s { u with hbWritten := x } :=
  h.step0 hm (by constructor <;> first | exact fun e => absurd e (by decide) | exact fun _ => rfl) id

theorem Keeps.set_frames {m : Nat} {s u : State} (x) (h : Keeps m s u) (hm : Fld.sub Fld.frames m = true) :
    Keeps m s { u with frames := x } :=
  h.step0 hm (by constructor <;> first | exact fun e => absurd e (by decide) | exact fun _ => rfl) id

theorem Keeps.set_badSlots {m : Nat} {s u : State} (x) (h : Keeps m s u) (hm : Fld.sub Fld.badSlots m = true) :
    Keeps m s { u with badSlots := x } :=
  h.step0 hm (by constructor <;> first | exact fun e => absurd e (by decide) | exact fun _ => rfl) id

theorem Keeps.set_owners {m : Nat} {s u : State} (x) (h : Keeps m s u) (hm : Fld.sub Fld.owners m = true) :
    Keeps m s { u with owners := x } :=
  h.step0 hm (by constructor <;> first | exact fun e => absurd e (by decide) | exact fun _ => rfl) id

theorem Keeps.set_runs {m : Nat} {s u : State} (x) (h : Keeps m s u) (hm : Fld.sub Fld.runs m = true) :
    Keeps m s { u with runs := x } :=
  h.step0 hm (by constructor <;> first | exact fun e => absurd e (by decide) | exact fun _ => rfl) id

theorem Keeps.set_nextRun {m : Nat} {s u : State} (x) (h : Keeps m s u) (hm : Fld.sub Fld.nextRun m = true) :
    Keeps m s { u with nextRun := x } :=
  h.step0 hm (by constructor <;> first | exact fun e => absurd e (by decide) | exact fun _ => rfl) id

theorem Keeps.set_refetch {m : Nat} {s u : State} (x) (h : Keeps m s u) (hm : Fld.sub Fld.refetch m = true) :
    Keeps m s { u with refetch := x } :=
  h.step0 hm (by constructor <;> first | exact fun e => absurd e (by decide) | exact fun _ => rfl) id

theorem Keeps.set_hbr {m : Nat} {s u : State} (x) (h : Keeps m s u) (hm : Fld.sub Fld.hbr m = true) :
    Keeps m s { u with hbr := x } :=
  h.step0 hm (by constructor <;> first | exact fun e => absurd e (by decide) | exact fun _ => rfl) id

theorem Keeps.set_scrubFrom {m : Nat} {s u : State} (x) (h : Keeps m s u) (hm : Fld.sub Fld.scrubFrom m = true) :
    Keeps m s { u with scrubFrom := x } :=
  h.step0 hm (by constructor <;> first | exact fun e => absurd e (by decide) | exact fun _ => rfl) id

theorem Keeps.set_swaps {m : Nat} {s u : State} (x) (h : Keeps m s u) (hm : Fld.sub Fld.swaps m = true) :
    Keeps m s { u with swaps := x } :=
  h.step0 hm (by constructor <;> first | exact fun e => absurd e (by decide) | exact fun _ => rfl) id

theorem Keeps.set_imports {m : Nat} {s u : State} (x) (h : Keeps m s u) (hm : Fld.sub Fld.imports m = true) :
    Keeps m s { u with imports := x } :=
  h.step0 hm (by constructor <;> first | exact fun e => absurd e (by decide) | exact fun _ => rfl) id

theorem Keeps.set_dyns {m : Nat} {s u : State} (x) (h : Keeps m s u) (hm : Fld.sub Fld.dyns m = true) :
    Keeps m s { u with dyns := x } :=
  h.step0 hm (by constructor <;> first | exact fun e => absurd e (by decide) | exact fun _ => rfl) id

theorem Keeps.set_tests {m : Nat} {s u : State} (x) (h : Keeps m s u) (hm : Fld.sub Fld.tests m = true) :
    Keeps m s { u with tests := x } :=
  h.step0 hm (by constructor <;> first | exact fun e => absurd e (by decide) | exact fun _ => rfl) id

theorem Keeps.set_flash {m : Nat} {s u : State} (x) (h : Keeps m s u) (hi : Store.wf flashBlank u.flash = true → Store.wf flashBlank x = true) (hm : Fld.sub Fld.flash m = true) :
    Keeps m s { u with flash := x } :=
  h.step0 hm (by constructor <;> first | exact fun e => absurd e (by decide) | exact fun _ => rfl) fun i => ⟨i.1, i.2.1, hi i.2.2.1, i.2.2.2⟩

theorem Keeps.set_cal {m : Nat} {s u : State} (x) (h : Keeps m s u) (hm : Fld.sub Fld.cal m = true) :
    Keeps m s { u with cal := x } :=
  h.step0 hm (by constructor <;> first | exact fun e => absurd e (by decide) | exact fun _ => rfl) id

theorem Keeps.set_flashq {m : Nat} {s u : State} (x) (h : Keeps m s u) (hm : Fld.sub Fld.flashq m = true) :
    Keeps m s { u with flashq := x } :=
  h.step0 hm (by constructor <;> first | exact fun e => absurd e (by decide) | exact fun _ => rfl) id

theorem Keeps.set_ownerKeys {m : Nat} {s u : State} (x) (h : Keeps m s u) (hm : Fld.sub Fld.ownerKeys m = true) :
    Keeps m s { u with ownerKeys := x } :=
  h.step0 hm (by constructor <;> first | exact fun e => absurd e (by decide) | exact fun _ => rfl) id

theorem Keeps.set_spdm {m : Nat} {s u : State} (x) (h : Keeps m s u) (hm : Fld.sub Fld.spdm m = true) :
    Keeps m s { u with spdm := x } :=
  h.step0 hm (by constructor <;> first | exact fun e => absurd e (by decide) | exact fun _ => rfl) id

theorem Keeps.set_ends {m : Nat} {s u : State} (x) (h : Keeps m s u) (hm : Fld.sub Fld.ends m = true) :
    Keeps m s { u with ends := x } :=
  h.step0 hm (by constructor <;> first | exact fun e => absurd e (by decide) | exact fun _ => rfl) id

theorem Keeps.set_rrCtx {m : Nat} {s u : State} (x) (h : Keeps m s u) (hm : Fld.sub Fld.rrCtx m = true) :
    Keeps m s { u with rrCtx := x } :=
  h.step0 hm (by constructor <;> first | exact fun e => absurd e (by decide) | exact fun _ => rfl) id

theorem Keeps.set_rrQ {m : Nat} {s u : State} (x) (h : Keeps m s u) (hm : Fld.sub Fld.rrQ m = true) :
    Keeps m s { u with rrQ := x } :=
  h.step0 hm (by constructor <;> first | exact fun e => absurd e (by decide) | exact fun _ => rfl) id

theorem Keeps.set_rplChecks {m : Nat} {s u : State} (x) (h : Keeps m s u) (hm : Fld.sub Fld.rplChecks m = true) :
    Keeps m s { u with rplChecks := x } :=
  h.step0 hm (by constructor <;> first | exact fun e => absurd e (by decide) | exact fun _ => rfl) id

theorem Keeps.set_lost {m : Nat} {s u : State} (x) (h : Keeps m s u) (hm : Fld.sub Fld.lost m = true) :
    Keeps m s { u with lost := x } :=
  h.step0 hm (by constructor <;> first | exact fun e => absurd e (by decide) | exact fun _ => rfl) id

theorem Keeps.set_thm {m : Nat} {s u : State} (x) (h : Keeps m s u) (hm : Fld.sub Fld.thm m = true) :
    Keeps m s { u with thm := x } :=
  h.step0 hm (by constructor <;> first | exact fun e => absurd e (by decide) | exact fun _ => rfl) id

theorem Keeps.set_wd {m : Nat} {s u : State} (x) (h : Keeps m s u) (hm : Fld.sub Fld.wd m = true) :
    Keeps m s { u with wd := x } :=
  h.step0 hm (by constructor <;> first | exact fun e => absurd e (by decide) | exact fun _ => rfl) id

theorem Keeps.set_rungAt {m : Nat} {s u : State} (x) (h : Keeps m s u) (hm : Fld.sub Fld.rungAt m = true) :
    Keeps m s { u with rungAt := x } :=
  h.step0 hm (by constructor <;> first | exact fun e => absurd e (by decide) | exact fun _ => rfl) id

theorem Keeps.set_flrs {m : Nat} {s u : State} (x) (h : Keeps m s u) (hm : Fld.sub Fld.flrs m = true) :
    Keeps m s { u with flrs := x } :=
  h.step0 hm (by constructor <;> first | exact fun e => absurd e (by decide) | exact fun _ => rfl) id

theorem Keeps.set_sessions {m : Nat} {s u : State} (x) (h : Keeps m s u) (hm : Fld.sub Fld.sessions m = true) :
    Keeps m s { u with sessions := x } :=
  h.step0 hm (by constructor <;> first | exact fun e => absurd e (by decide) | exact fun _ => rfl) id

theorem Keeps.set_mgmtKeys {m : Nat} {s u : State} (x) (h : Keeps m s u) (hm : Fld.sub Fld.mgmtKeys m = true) :
    Keeps m s { u with mgmtKeys := x } :=
  h.step0 hm (by constructor <;> first | exact fun e => absurd e (by decide) | exact fun _ => rfl) id

theorem Keeps.set_authTick {m : Nat} {s u : State} (x) (h : Keeps m s u) (hm : Fld.sub Fld.authTick m = true) :
    Keeps m s { u with authTick := x } :=
  h.step0 hm (by constructor <;> first | exact fun e => absurd e (by decide) | exact fun _ => rfl) id

theorem Keeps.set_views {m : Nat} {s u : State} (x) (h : Keeps m s u) (hm : Fld.sub Fld.views m = true) :
    Keeps m s { u with views := x } :=
  h.step0 hm (by constructor <;> first | exact fun e => absurd e (by decide) | exact fun _ => rfl) id

theorem Keeps.set_boot {m : Nat} {s u : State} (x) (h : Keeps m s u) (hm : Fld.sub Fld.boot m = true) :
    Keeps m s { u with boot := x } :=
  h.step0 hm (by constructor <;> first | exact fun e => absurd e (by decide) | exact fun _ => rfl) id

theorem Keeps.set_push {m : Nat} {s u : State} (x) (h : Keeps m s u) (hm : Fld.sub Fld.push m = true) :
    Keeps m s { u with push := x } :=
  h.step0 hm (by constructor <;> first | exact fun e => absurd e (by decide) | exact fun _ => rfl) id

theorem Keeps.set_tap {m : Nat} {s u : State} (x) (h : Keeps m s u) (hm : Fld.sub Fld.tap m = true) :
    Keeps m s { u with tap := x } :=
  h.step0 hm (by constructor <;> first | exact fun e => absurd e (by decide) | exact fun _ => rfl) id

theorem Keeps.set_mctp {m : Nat} {s u : State} (x) (h : Keeps m s u) (hm : Fld.sub Fld.mctp m = true) :
    Keeps m s { u with mctp := x } :=
  h.step0 hm (by constructor <;> first | exact fun e => absurd e (by decide) | exact fun _ => rfl) id

theorem Keeps.set_torn {m : Nat} {s u : State} (x) (h : Keeps m s u) (hm : Fld.sub Fld.torn m = true) :
    Keeps m s { u with torn := x } :=
  h.step0 hm (by constructor <;> first | exact fun e => absurd e (by decide) | exact fun _ => rfl) id

theorem Keeps.set_grantWas {m : Nat} {s u : State} (x) (h : Keeps m s u) (hm : Fld.sub Fld.grantWas m = true) :
    Keeps m s { u with grantWas := x } :=
  h.step0 hm (by constructor <;> first | exact fun e => absurd e (by decide) | exact fun _ => rfl) id

theorem Keeps.set_power {m : Nat} {s u : State} (x) (h : Keeps m s u) (hm : Fld.sub Fld.power m = true) :
    Keeps m s { u with power := x } :=
  h.step0 hm (by constructor <;> first | exact fun e => absurd e (by decide) | exact fun _ => rfl) id

theorem Keeps.set_reconAt {m : Nat} {s u : State} (x) (h : Keeps m s u) (hm : Fld.sub Fld.reconAt m = true) :
    Keeps m s { u with reconAt := x } :=
  h.step0 hm (by constructor <;> first | exact fun e => absurd e (by decide) | exact fun _ => rfl) id

end Sys2Proof.Machine
end

