-- ==== Sys2Proof/Laws/Store.lean ====
section
/-!
SUPPORT. Sparse tables: a write keeps the canonical form; a read after a write gives the value written at its key and the old value elsewhere.
The memories built from them: basin, harbour and flash bytes.
-/
namespace Sys2Proof.Machine

section table
variable {β : Type} [DecidableEq β] {d : Nat → β}

theorem Store.wfFrom_mono {m : Store β} {a b : Nat} (hb : Store.wfFrom d b m = true) (hab : a ≤ b) : Store.wfFrom d a m = true := by
  cases m with
  | nil => rfl
  | cons p m =>
    simp only [Store.wfFrom, Bool.and_eq_true, decide_eq_true_eq] at hb ⊢
    exact ⟨⟨Nat.le_trans hab hb.1.1, hb.1.2⟩, hb.2⟩

theorem Store.wfFrom_filter {m : Store β} {a : Nat} (p : Nat × β → Bool) (h : Store.wfFrom d a m = true) :
    Store.wfFrom d a (m.filter p) = true := by
  induction m generalizing a with
  | nil => rfl
  | cons q m ih =>
    simp only [Store.wfFrom, Bool.and_eq_true, decide_eq_true_eq] at h
    simp only [List.filter]
    split
    · simp only [Store.wfFrom, Bool.and_eq_true, decide_eq_true_eq]
      exact ⟨h.1, ih h.2⟩
    · exact ih (Store.wfFrom_mono h.2 (Nat.le_trans h.1.1 (Nat.le_succ _)))

theorem Store.wfFrom_ins {m : Store β} {a k : Nat} {v : β} (h : Store.wfFrom d a m = true) (hk : a ≤ k) (e : v ≠ d k) :
    Store.wfFrom d a (Store.ins m k v) = true := by
  induction m generalizing a with
  | nil =>
    simp only [Store.ins, Store.wfFrom, Bool.and_true, Bool.and_eq_true, decide_eq_true_eq]
    exact ⟨hk, by simp only [decide_eq_false e, Bool.not_false]⟩
  | cons p m ih =>
    simp only [Store.wfFrom, Bool.and_eq_true, decide_eq_true_eq] at h
    simp only [Store.ins]
    split
    · next c1 =>
      simp only [Store.wfFrom, Bool.and_eq_true, decide_eq_true_eq]
      exact ⟨⟨hk, by simp only [decide_eq_false e, Bool.not_false]⟩, ⟨⟨c1, h.1.2⟩, h.2⟩⟩
    · split
      · next c2 =>
        simp only [Store.wfFrom, Bool.and_eq_true, decide_eq_true_eq]
        exact ⟨⟨hk, by simp only [decide_eq_false e, Bool.not_false]⟩, by rw [c2]; exact h.2⟩
      · simp only [Store.wfFrom, Bool.and_eq_true, decide_eq_true_eq]
        exact ⟨h.1, ih h.2 (by omega)⟩

/-- A write keeps the canonical form. -/
theorem Store.wf_put {m : Store β} (h : Store.wf d m = true) (k : Nat) (v : β) : Store.wf d (Store.put d m k v) = true := by
  simp only [Store.put]
  split
  · exact Store.wfFrom_filter _ h
  · next e => exact Store.wfFrom_ins h (Nat.zero_le k) e

omit [DecidableEq β] in
theorem Store.get_ins (m : Store β) (k j : Nat) (v : β) : Store.get d (Store.ins m k v) j = if j = k then v else Store.get d m j := by
  induction m with
  | nil => rfl
  | cons p m ih =>
    simp only [Store.ins]
    split
    · rfl
    · split
      · next c => simp only [Store.get]; split <;> simp_all
      · next c =>
        simp only [Store.get, ih]
        by_cases hj : j = p.1
        · simp [hj, Ne.symm c]
        · simp [hj]

omit [DecidableEq β] in
theorem Store.get_drop (m : Store β) (k j : Nat) :
    Store.get d (m.filter fun p => p.1 != k) j = if j = k then d k else Store.get d m j := by
  induction m with
  | nil => simp only [List.filter, Store.get]; split <;> simp_all
  | cons p m ih =>
    simp only [List.filter]
    by_cases hp : p.1 = k
    · simp only [hp, bne_self_eq_false, ih, Store.get]
      split <;> simp_all
    · have : (p.1 != k) = true := by simp [hp]
      simp only [this, Store.get, ih]
      by_cases hj : j = p.1
      · simp [hj, hp]
      · simp [hj]

/-- A read after a write. -/
theorem Store.get_put (m : Store β) (k j : Nat) (v : β) :
    Store.get d (Store.put d m k v) j = if j = k then v else Store.get d m j := by
  simp only [Store.put]
  split
  · next e => rw [Store.get_drop, e]
  · rw [Store.get_ins]

/-- A read at the key written. -/
theorem Store.get_put_same (m : Store β) (k : Nat) (v : β) : Store.get d (Store.put d m k v) k = v := by
  rw [Store.get_put, if_pos rfl]

/-- A read elsewhere. -/
theorem Store.get_put_other (m : Store β) (k j : Nat) (v : β) (hj : j ≠ k) : Store.get d (Store.put d m k v) j = Store.get d m j := by
  rw [Store.get_put, if_neg hj]

theorem Store.wf_upd {m : Store β} (h : Store.wf d m = true) (k : Nat) (f : β → β) : Store.wf d (Store.upd d m k f) = true :=
  Store.wf_put h k _

/-- Dropping entries keeps the canonical form. -/
theorem Store.wf_filter {m : Store β} (p : Nat × β → Bool) (h : Store.wf d m = true) : Store.wf d (m.filter p) = true :=
  Store.wfFrom_filter p h

end table

/-! ## Memories -/

/-- Storing bytes keeps the canonical form. -/
theorem putCells_wf {m : List Host.Cell} (h : Store.wf basinZero m = true) (a : Nat) (bs : List Byte) :
    Store.wf basinZero (putCells m a bs) = true := by
  induction bs generalizing m a with
  | nil => exact h
  | cons b bs ih => exact ih (Store.wf_put h a b) (a + 1)

/-- Bytes outside the range stored read as before. -/
theorem putCells_get_other (m : List Host.Cell) (a : Nat) (bs : List Byte) (k : Nat) (hk : k < a ∨ a + bs.length ≤ k) :
    Store.get basinZero (putCells m a bs) k = Store.get basinZero m k := by
  induction bs generalizing m a with
  | nil => rfl
  | cons b bs ih =>
    simp only [List.length_cons] at hk
    rw [putCells, ih _ (a + 1) (by omega), Store.get_put_other m a k b (by omega)]

/-- The bytes stored are read back. -/
theorem putCells_get (m : List Host.Cell) (a : Nat) (bs : List Byte) (i : Nat) (hi : i < bs.length) :
    Store.get basinZero (putCells m a bs) (a + i) = bs[i] := by
  induction bs generalizing m a i with
  | nil => exact absurd hi (Nat.not_lt_zero i)
  | cons b bs ih =>
    rw [putCells]
    cases i with
    | zero =>
      rw [putCells_get_other _ (a + 1) bs (a + 0) (by omega)]
      exact Store.get_put_same m a b
    | succ i =>
      have := ih (Store.put basinZero m a b) (a + 1) i (by simpa only [List.length_cons, Nat.succ_lt_succ_iff] using hi)
      simpa only [Nat.add_assoc, Nat.add_comm 1 i, List.getElem_cons_succ] using this

/-- Programming the flash keeps its canonical form. -/
theorem flashProgram_wf {s : State} (h : Store.wf flashBlank s.flash = true) (a : Nat) (bs : List Byte) :
    Store.wf flashBlank (s.flashProgram a bs).flash = true := by
  induction bs generalizing s a with
  | nil => exact h
  | cons b bs ih => exact ih (s := { s with flash := Store.put flashBlank s.flash a (s.flashByte a &&& b) }) (Store.wf_put h a _) (a + 1)

/-! ## Page headers -/

theorem pendSub_filter {h : Store PageHdr} (p : Nat × PageHdr → Bool) (hs : pendSub h = true) : pendSub (h.filter p) = true := by
  simp only [pendSub, List.all_eq_true, List.mem_filter, decide_eq_true_eq] at hs ⊢
  exact fun x hx => hs x hx.1

theorem pendSub_ins {h : Store PageHdr} (hs : pendSub h = true) (k : Nat) (v : PageHdr) (hv : v.pend &&& ~~~ v.raw = 0) :
    pendSub (Store.ins h k v) = true := by
  induction h with
  | nil => simp only [Store.ins, pendSub, List.all_cons, List.all_nil, Bool.and_true, decide_eq_true_eq, hv]
  | cons p m ih =>
    simp only [pendSub, List.all_cons, Bool.and_eq_true, decide_eq_true_eq] at hs
    have hm : pendSub m = true := hs.2
    simp only [Store.ins]
    split
    · simp only [pendSub, List.all_cons, Bool.and_eq_true, decide_eq_true_eq]; exact ⟨hv, hs⟩
    · split
      · simp only [pendSub, List.all_cons, Bool.and_eq_true, decide_eq_true_eq]; exact ⟨hv, hm⟩
      · have := ih hm
        simp only [pendSub, List.all_cons, Bool.and_eq_true, decide_eq_true_eq] at this ⊢
        exact ⟨hs.1, this⟩

/-- Writing a header whose pending bits are raised keeps the invariant of the headers. -/
theorem pendSub_put {h : Store PageHdr} (hs : pendSub h = true) (k : Nat) (v : PageHdr) (hv : v.pend &&& ~~~ v.raw = 0) :
    pendSub (Store.put hdrReset h k v) = true := by
  simp only [Store.put]
  split
  · exact pendSub_filter _ hs
  · exact pendSub_ins hs k v hv

theorem pendSub_get {h : Store PageHdr} (hs : pendSub h = true) (k : Nat) :
    (Store.get hdrReset h k).pend &&& ~~~ (Store.get hdrReset h k).raw = 0 := by
  induction h with
  | nil => simp only [Store.get, hdrReset, BitVec.zero_and, BitVec.ofNat_eq_ofNat]
  | cons p m ih =>
    simp only [pendSub, List.all_cons, Bool.and_eq_true, decide_eq_true_eq] at hs
    simp only [Store.get]
    split
    · exact hs.1
    · exact ih hs.2

theorem pendSub_upd {h : Store PageHdr} (hs : pendSub h = true) (k : Nat) (f : PageHdr → PageHdr)
    (hf : ∀ x : PageHdr, x.pend &&& ~~~ x.raw = 0 → (f x).pend &&& ~~~ (f x).raw = 0) : pendSub (Store.upd hdrReset h k f) = true :=
  pendSub_put hs k _ (hf _ (pendSub_get hs k))

end Sys2Proof.Machine
end

