-- ==== Sys2Proof/Laws/Ops.lean ====
section
/-!
SUPPORT. What each function of Machine/Ops.lean may change, and that it keeps the invariant of State.
-/
set_option linter.unusedVariables false
namespace Sys2Proof.Machine

/-- Bits of `p` outside `r`: none. -/
theorem sub_iff (p r : Word) : p &&& ~~~ r = 0 ↔ ∀ i, i < 32 → p.getLsbD i = true → r.getLsbD i = true := by
  constructor
  · intro h i hi hp
    have e := congrArg (fun x : Word => x.getLsbD i) h
    simp only [BitVec.getLsbD_and, BitVec.getLsbD_not, hp, hi, decide_true, Bool.true_and, BitVec.ofNat_eq_ofNat, BitVec.getLsbD_zero] at e
    cases hr : r.getLsbD i with
    | true => rfl
    | false => rw [hr] at e; exact absurd e (by decide)
  · intro h
    apply BitVec.eq_of_getLsbD_eq
    intro i hi
    simp only [BitVec.getLsbD_and, BitVec.getLsbD_not, hi, decide_true, Bool.true_and, BitVec.ofNat_eq_ofNat, BitVec.getLsbD_zero]
    cases hp : p.getLsbD i with
    | false => rfl
    | true => rw [h i hi hp]; rfl

/-- R785, R786: a raise sets the raw bit, and the pending bit where it is enabled. -/
theorem pend_raise {p r k : Word} {c : Bool} (h : p &&& ~~~ r = 0) : (if c = true then p ||| k else p) &&& ~~~ (r ||| k) = 0 := by
  rw [sub_iff] at h ⊢
  intro i hi hp
  rw [BitVec.getLsbD_or, Bool.or_eq_true]
  split at hp
  · rw [BitVec.getLsbD_or, Bool.or_eq_true] at hp
    exact hp.imp (h i hi) id
  · exact Or.inl (h i hi hp)

/-- R787: a write clears the same bits of both. -/
theorem pend_clear {p r v : Word} (h : p &&& ~~~ r = 0) : (p &&& ~~~ v) &&& ~~~ (r &&& ~~~ v) = 0 := by
  rw [sub_iff] at h ⊢
  intro i hi hp
  rw [BitVec.getLsbD_and, Bool.and_eq_true] at hp ⊢
  exact ⟨h i hi hp.1, hp.2⟩

/-- R788: an enable makes raised bits pending. -/
theorem pend_enable {p r e : Word} (h : p &&& ~~~ r = 0) : (p ||| (e &&& r &&& ~~~ p)) &&& ~~~ r = 0 := by
  rw [sub_iff] at h ⊢
  intro i hi hp
  rw [BitVec.getLsbD_or, Bool.or_eq_true] at hp
  rcases hp with hp | hp
  · exact h i hi hp
  · rw [BitVec.getLsbD_and, BitVec.getLsbD_and, Bool.and_eq_true, Bool.and_eq_true] at hp
    exact hp.1.2

/-- Setting a fence leaves raised and pending bits. -/
theorem setFence_sub (x : PageHdr) (rq : Requester) (b : Bool) (h : x.pend &&& ~~~ x.raw = 0) :
    (x.setFence rq b).pend &&& ~~~ (x.setFence rq b).raw = 0 := by
  unfold PageHdr.setFence
  cases b <;> cases rq <;> exact h

/-- Updating a page header: raised and pending bits stay in order. -/
theorem State.updHd_hof {m : Nat} {s u : State} {ty inst : Nat} {f : PageHdr → PageHdr}
    (hf : ∀ x : PageHdr, x = u.hd ty inst → x.pend &&& ~~~ x.raw = 0 → (f x).pend &&& ~~~ (f x).raw = 0) (hm : Fld.sub Fld.hdr m = true)
    (h : Keeps m s u) : Keeps m s (u.updHd ty inst f) :=
  Keeps.set_hdr _ h (fun hs => pendSub_put hs _ _ (hf _ rfl (pendSub_get hs _))) hm

theorem State.orHeld_hof {m : Nat} {s u : State} {rq via a v env} {f : State → State} (hf : ∀ t, Keeps m s t → Keeps m s (f t))
    (hm : Fld.sub Fld.heldWrites m = true) (h : Keeps m s u) : Keeps m s (u.orHeld rq via a v env f) :=
  Keeps.ite (Keeps.set_heldWrites _ h hm) (hf u h)

theorem Keeps.foldl_fst {m : Nat} {s u : State} {α β : Type} {g : State × β → α → State × β} {l : List α} {b : β}
    (hg : ∀ t c x, Keeps m s t → Keeps m s (g (t, c) x).1) (h : Keeps m s u) : Keeps m s (l.foldl g (u, b)).1 := by
  induction l generalizing u b with
  | nil => exact h
  | cons x l ih => exact ih (hg u b x h)

theorem Keeps.elim {m : Nat} {s a : State} {α : Type} {o : Option α} {f : α → State} (ha : Keeps m s a) (hf : ∀ x, Keeps m s (f x)) :
    Keeps m s (o.elim a f) := by
  cases o with
  | none => exact ha
  | some x => exact hf x

theorem State.lease_keeps (s l) : Keeps (Fld.leases) s (State.lease s l) := by
  unfold State.lease
  refine Keeps.cut s (Keeps.refl _ s) fun h0 => ?_
  exact ((Keeps.set_leases _ h0 rfl) :)

theorem State.emit_keeps (s o) : Keeps (Fld.out) s (State.emit s o) := by
  unfold State.emit
  refine Keeps.cut s (Keeps.refl _ s) fun h0 => ?_
  exact ((Keeps.set_out _ h0 rfl) :)

theorem State.setReg_keeps (s a v) : Keeps (Fld.regs) s (State.setReg s a v) := by
  unfold State.setReg
  refine Keeps.cut s (Keeps.refl _ s) fun h0 => ?_
  exact ((Keeps.set_regs _ h0 rfl) :)

theorem State.incSat_keeps (s a n) : Keeps (Fld.regs) s (State.incSat s a n) := by
  unfold State.incSat
  refine Keeps.cut s (Keeps.refl _ s) fun h0 => ?_
  refine Keeps.step (State.setReg_keeps ..) rfl ?_
  assumption

theorem State.setF_keeps (s a lo w x) : Keeps (Fld.regs) s (State.setF s a lo w x) := by
  unfold State.setF
  refine Keeps.cut s (Keeps.refl _ s) fun h0 => ?_
  refine Keeps.step (State.setReg_keeps ..) rfl ?_
  assumption

theorem State.nextDraw_keeps (s) : Keeps (Fld.draws) s (State.nextDraw s).2 := by
  unfold State.nextDraw
  refine Keeps.cut s (Keeps.refl _ s) fun h0 => ?_
  dsimp only
  exact ((Keeps.set_draws _ h0 rfl) :)

theorem State.setB_keeps (s a n b) : Keeps (Fld.regs) s (State.setB s a n b) := by
  unfold State.setB
  refine Keeps.cut s (Keeps.refl _ s) fun h0 => ?_
  refine Keeps.step (State.setF_keeps ..) rfl ?_
  assumption

theorem State.incWrapF_keeps (s a lo w n) : Keeps (Fld.regs) s (State.incWrapF s a lo w n) := by
  unfold State.incWrapF
  refine Keeps.cut s (Keeps.refl _ s) fun h0 => ?_
  refine Keeps.step (State.setF_keeps ..) rfl ?_
  assumption

theorem State.signal_keeps (s f) : Keeps (Fld.out ||| Fld.irq) s (State.signal s f) := by
  unfold State.signal
  refine Keeps.cut s (Keeps.refl _ s) fun h0 => ?_
  extract_lets -merge y0 y1
  clear_value y0 y1
  refine Keeps.ite ?_ ?_
  · exact ((Keeps.set_irq _ h0 rfl) :)
  · refine Keeps.step (State.emit_keeps ..) rfl ?_
    exact ((Keeps.set_irq _ h0 rfl) :)

theorem State.incSatF_keeps (s a lo w n) : Keeps (Fld.regs) s (State.incSatF s a lo w n) := by
  unfold State.incSatF
  refine Keeps.cut s (Keeps.refl _ s) fun h0 => ?_
  refine Keeps.step (State.setF_keeps ..) rfl ?_
  assumption

theorem State.startRec_keeps (s r) : Keeps (Fld.regs ||| Fld.log) s (State.startRec s r).1 := by
  unfold State.startRec
  refine Keeps.cut s (Keeps.refl _ s) fun h0 => ?_
  split
  · rename_i a0 a1 a2 a3 a4
    dsimp only
    refine (Keeps.set_log _ ?_ rfl)
    refine Keeps.ite ?_ ?_
    · refine Keeps.step (State.incSat_keeps ..) rfl ?_
      assumption
    · assumption

theorem State.routeHost_keeps (s ty inst ctx) : Keeps (Fld.out ||| Fld.irq) s (State.routeHost s ty inst ctx) := by
  unfold State.routeHost
  refine Keeps.cut s (Keeps.refl _ s) fun h0 => ?_
  refine Keeps.ite ?_ ?_
  · extract_lets -merge y0
    refine Keeps.cut (y0) ?_ fun h1 => ?_
    · unfold y0
      refine Keeps.ite ?_ ?_
      · refine Keeps.step (State.signal_keeps ..) rfl ?_
        assumption
      · assumption
    clear_value y0
    refine Keeps.ite ?_ ?_
    · refine Keeps.step (State.signal_keeps ..) rfl ?_
      assumption
    · assumption
  · assumption

theorem State.bumpSeq_keeps (s ty inst) : Keeps (Fld.hdr) s (State.bumpSeq s ty inst) := by
  unfold State.bumpSeq
  refine Keeps.cut s (Keeps.refl _ s) fun h0 => ?_
  refine State.updHd_hof ?_ rfl ?_
  · exact fun _ _ hx => hx
  assumption

theorem State.set64_keeps (s lo hi v) : Keeps (Fld.regs) s (State.set64 s lo hi v) := by
  unfold State.set64
  refine Keeps.cut s (Keeps.refl _ s) fun h0 => ?_
  refine Keeps.step (State.setReg_keeps ..) rfl ?_
  refine Keeps.step (State.setReg_keeps ..) rfl ?_
  assumption

theorem State.add64_keeps (s lo hi n) : Keeps (Fld.regs) s (State.add64 s lo hi n) := by
  unfold State.add64
  refine Keeps.cut s (Keeps.refl _ s) fun h0 => ?_
  refine Keeps.step (State.set64_keeps ..) rfl ?_
  assumption

theorem State.fenceDp_keeps (s ty inst reason) : Keeps (Fld.hdr) s (State.fenceDp s ty inst reason) := by
  unfold State.fenceDp
  refine Keeps.cut s (Keeps.refl _ s) fun h0 => ?_
  refine State.updHd_hof ?_ rfl ?_
  · exact fun _ _ hx => hx
  assumption

theorem State.logRaise_keeps (s r csw) : Keeps (Fld.regs ||| Fld.log) s (State.logRaise s r csw).1 := by
  unfold State.logRaise
  refine Keeps.cut s (Keeps.refl _ s) fun h0 => ?_
  extract_lets -merge y0 y1
  clear_value y0 y1
  split
  · rename_i a2
    dsimp only
    exact ((Keeps.set_log _ h0 rfl) :)
  · rename_i a3
    split
    · rename_i a4 a5 a6 a7
      refine Keeps.cut (a5) ?_ fun h8 => ?_
      · refine Keeps.of_fst a7 ?_
        refine Keeps.step (State.startRec_keeps ..) rfl ?_
        assumption
      extract_lets -merge y9
      clear_value y9
      dsimp only
      refine Keeps.ite ?_ ?_
      · exact ((Keeps.set_log _ h8 rfl) :)
      · assumption

theorem State.raiseOnly_keeps (s : State) (ty inst n : Nat) (pl : Option (List Byte)) (ctx part : Nat) (forced : Bool) :
    Keeps (Fld.regs ||| Fld.hdr ||| Fld.log ||| Fld.out ||| Fld.irq ||| Fld.draws) s (s.raiseOnly ty inst n pl ctx part forced) := by
  unfold State.raiseOnly
  refine Keeps.cut s (Keeps.refl _ s) fun h0 => ?_
  split
  · assumption
  · rename_i code e
    extract_lets -merge cls h newPend s1 pay s2
    refine Keeps.cut s1 (State.updHd_hof (fun _ _ hx => pend_raise hx) rfl h0) fun h1 => ?_
    refine Keeps.cut s2 (Keeps.ite (Keeps.set_draws _ h1 rfl) h1) fun h2 => ?_
    clear_value cls h newPend s1 pay s2
    split
    rename_i s3 ovf e3
    refine Keeps.cut s3 (Keeps.of_fst e3 (Keeps.step (State.logRaise_keeps ..) rfl h2)) fun h3 => ?_
    extract_lets -merge s4 hl s5
    refine Keeps.cut s4 (Keeps.ite (Keeps.step (State.routeHost_keeps ..) rfl h3) h3) fun h4 => ?_
    refine Keeps.cut s5 (State.updHd_hof (fun _ _ hx => pend_raise hx) rfl h4) fun h5 => ?_
    clear_value s4 hl s5
    refine Keeps.ite ?_ h4
    split
    rename_i s6 o6 e6
    have h6 := Keeps.of_fst e6 (Keeps.step (State.logRaise_keeps ..) rfl h5)
    exact Keeps.ite (Keeps.step (State.routeHost_keeps ..) rfl h6) h6

theorem State.prtSync_keeps (s) : Keeps (Fld.regs ||| Fld.hdr ||| Fld.log ||| Fld.out ||| Fld.irq ||| Fld.draws) s (State.prtSync s) := by
  unfold State.prtSync
  refine Keeps.cut s (Keeps.refl _ s) fun h0 => ?_
  refine Keeps.foldl ?_ ?_
  · intro t0 x1 h2
    refine Keeps.ite ?_ ?_
    · assumption
    · refine Keeps.step (State.raiseOnly_keeps ..) rfl ?_
      refine Keeps.step (State.setF_keeps ..) rfl ?_
      assumption
  assumption

theorem State.rungGo_keeps (s kind target cause) : Keeps (Fld.regs ||| Fld.hdr ||| Fld.log ||| Fld.out ||| Fld.irq ||| Fld.draws ||| Fld.rungs ||| Fld.rungAt) s (State.rungGo s kind target cause) := by
  unfold State.rungGo
  refine Keeps.cut s (Keeps.refl _ s) fun h0 => ?_
  extract_lets -merge y0 y1 y2 y3 y4
  clear_value y0
  refine Keeps.cut (y1) ?_ fun h5 => ?_
  · unfold y1
    exact Keeps.step0 (n := Fld.rungs ||| Fld.rungAt) h0 rfl (by constructor <;> first | exact fun e => absurd e (by decide) | exact fun _ => rfl) fun i => ⟨i.1, i.2.1, i.2.2.1, i.2.2.2⟩
  clear_value y1
  refine Keeps.cut (y2) ?_ fun h6 => ?_
  · unfold y2
    refine Keeps.step (State.setReg_keeps ..) rfl ?_
    assumption
  clear_value y2
  refine Keeps.cut (y3) ?_ fun h7 => ?_
  · unfold y3
    refine Keeps.step (State.set64_keeps ..) rfl ?_
    assumption
  clear_value y3
  refine Keeps.cut (y4) ?_ fun h8 => ?_
  · unfold y4
    split
    · rename_i a9
      refine Keeps.step (State.incSat_keeps ..) rfl ?_
      assumption
    · rename_i a10
      refine Keeps.step (State.incSat_keeps ..) rfl ?_
      assumption
    · rename_i a11
      refine Keeps.step (State.incSat_keeps ..) rfl ?_
      assumption
    · rename_i a12
      refine Keeps.step (State.incSat_keeps ..) rfl ?_
      assumption
    · rename_i a13 a14 a15 a16 a17
      assumption
  clear_value y4
  refine Keeps.step (State.prtSync_keeps ..) rfl ?_
  refine Keeps.step (State.raiseOnly_keeps ..) rfl ?_
  assumption

theorem State.noteEscalate_keeps (s) : Keeps (Fld.regs ||| Fld.hdr ||| Fld.log ||| Fld.out ||| Fld.irq ||| Fld.draws) s (State.noteEscalate s) := by
  unfold State.noteEscalate
  refine Keeps.cut s (Keeps.refl _ s) fun h0 => ?_
  refine Keeps.step (State.raiseOnly_keeps ..) rfl ?_
  refine Keeps.step (State.setB_keeps ..) rfl ?_
  assumption

theorem State.rungStart_keeps (s kind target cause) : Keeps (Fld.regs ||| Fld.hdr ||| Fld.log ||| Fld.out ||| Fld.irq ||| Fld.draws ||| Fld.rungs ||| Fld.rungAt) s (State.rungStart s kind target cause) := by
  unfold State.rungStart
  refine Keeps.cut s (Keeps.refl _ s) fun h0 => ?_
  refine Keeps.ite ?_ ?_
  · refine Keeps.step (State.rungGo_keeps ..) rfl ?_
    assumption
  · refine Keeps.ite ?_ ?_
    · assumption
    · exact ((Keeps.set_rungs _ h0 rfl) :)

theorem State.warmRung_keeps (s cause) : Keeps (Fld.regs ||| Fld.hdr ||| Fld.log ||| Fld.out ||| Fld.irq ||| Fld.draws ||| Fld.rungs ||| Fld.rungAt) s (State.warmRung s cause) := by
  unfold State.warmRung
  refine Keeps.cut s (Keeps.refl _ s) fun h0 => ?_
  refine Keeps.ite ?_ ?_
  · refine Keeps.step (State.rungStart_keeps ..) rfl ?_
    refine Keeps.step (State.noteEscalate_keeps ..) rfl ?_
    assumption
  · refine Keeps.step (State.rungStart_keeps ..) rfl ?_
    assumption

theorem State.startRung_keeps (s kind target cause) : Keeps (Fld.regs ||| Fld.hdr ||| Fld.log ||| Fld.out ||| Fld.irq ||| Fld.draws ||| Fld.rungs ||| Fld.rungAt) s (State.startRung s kind target cause) := by
  unfold State.startRung
  refine Keeps.cut s (Keeps.refl _ s) fun h0 => ?_
  extract_lets -merge y0 y1
  clear_value y0
  refine Keeps.cut (y1) ?_ fun h2 => ?_
  · unfold y1
    refine Keeps.step (State.noteEscalate_keeps ..) rfl ?_
    assumption
  clear_value y1
  refine Keeps.ite ?_ ?_
  · assumption
  · refine Keeps.ite ?_ ?_
    · assumption
    · refine Keeps.ite ?_ ?_
      · exact ((Keeps.set_rungs _ h2 rfl) :)
      · refine Keeps.ite ?_ ?_
        · refine Keeps.step (State.warmRung_keeps ..) rfl ?_
          refine Keeps.step (State.noteEscalate_keeps ..) rfl ?_
          assumption
        · refine Keeps.ite ?_ ?_
          · refine Keeps.step (State.warmRung_keeps ..) rfl ?_
            assumption
          · refine Keeps.step (State.rungStart_keeps ..) rfl ?_
            assumption

theorem State.classAction_keeps (s ty inst n) : Keeps (Fld.regs ||| Fld.hdr ||| Fld.log ||| Fld.out ||| Fld.irq ||| Fld.draws ||| Fld.rungs ||| Fld.rungAt) s (State.classAction s ty inst n) := by
  unfold State.classAction
  refine Keeps.cut s (Keeps.refl _ s) fun h0 => ?_
  split
  · rename_i a0 a1
    assumption
  · rename_i a2 a3 a4
    refine Keeps.ite ?_ ?_
    · refine Keeps.ite ?_ ?_
      · assumption
      · split
        · rename_i a5 a6 a7
          refine Keeps.step (State.startRung_keeps ..) rfl ?_
          assumption
        · rename_i a8 a9
          assumption
    · refine Keeps.ite ?_ ?_
      · refine Keeps.ite ?_ ?_
        · refine Keeps.step (State.startRung_keeps ..) rfl ?_
          assumption
        · refine Keeps.ite ?_ ?_
          · refine Keeps.step (State.startRung_keeps ..) rfl ?_
            assumption
          · refine Keeps.ite ?_ ?_
            · assumption
            · refine Keeps.ite ?_ ?_
              · assumption
              · refine Keeps.ite ?_ ?_
                · refine Keeps.ite ?_ ?_
                  · assumption
                  · refine Keeps.step (State.startRung_keeps ..) rfl ?_
                    refine Keeps.step (State.noteEscalate_keeps ..) rfl ?_
                    assumption
                · refine Keeps.ite ?_ ?_
                  · assumption
                  · refine Keeps.step (State.startRung_keeps ..) rfl ?_
                    assumption
      · assumption

theorem State.raise_keeps (s ty inst n pl ctx part) : Keeps (Fld.regs ||| Fld.hdr ||| Fld.log ||| Fld.out ||| Fld.irq ||| Fld.draws ||| Fld.rungs ||| Fld.rungAt) s (State.raise s ty inst n pl ctx part) := by
  unfold State.raise
  refine Keeps.cut s (Keeps.refl _ s) fun h0 => ?_
  refine Keeps.ite ?_ ?_
  · assumption
  · refine Keeps.step (State.classAction_keeps ..) rfl ?_
    refine Keeps.step (State.raiseOnly_keeps ..) rfl ?_
    assumption

theorem State.raiseC_keeps (s ty inst n pl ctx) : Keeps (Fld.regs ||| Fld.hdr ||| Fld.log ||| Fld.out ||| Fld.irq ||| Fld.draws ||| Fld.rungs ||| Fld.rungAt) s (State.raiseC s ty inst n pl ctx) := by
  unfold State.raiseC
  refine Keeps.cut s (Keeps.refl _ s) fun h0 => ?_
  refine Keeps.step (State.raise_keeps ..) rfl ?_
  assumption

theorem State.noteRevoked_keeps (s) : Keeps (Fld.regs ||| Fld.hdr ||| Fld.log ||| Fld.out ||| Fld.irq ||| Fld.draws ||| Fld.rungs ||| Fld.rungAt) s (State.noteRevoked s) := by
  unfold State.noteRevoked
  refine Keeps.cut s (Keeps.refl _ s) fun h0 => ?_
  refine Keeps.step (State.raise_keeps ..) rfl ?_
  refine Keeps.step (State.incSat_keeps ..) rfl ?_
  assumption

theorem State.loseLease_keeps (s l) : Keeps (Fld.regs ||| Fld.hdr ||| Fld.log ||| Fld.out ||| Fld.irq ||| Fld.draws ||| Fld.leases ||| Fld.rungs ||| Fld.lost ||| Fld.rungAt) s (State.loseLease s l) := by
  unfold State.loseLease
  refine Keeps.cut s (Keeps.refl _ s) fun h0 => ?_
  refine Keeps.step (State.noteRevoked_keeps ..) rfl ?_
  exact Keeps.step0 (n := Fld.leases ||| Fld.lost) h0 rfl (by constructor <;> first | exact fun e => absurd e (by decide) | exact fun _ => rfl) fun i => ⟨i.1, i.2.1, i.2.2.1, i.2.2.2⟩

theorem State.raiseI_keeps (s ty inst n pl) : Keeps (Fld.regs ||| Fld.hdr ||| Fld.log ||| Fld.out ||| Fld.irq ||| Fld.draws ||| Fld.rungs ||| Fld.rungAt) s (State.raiseI s ty inst n pl) := by
  unfold State.raiseI
  refine Keeps.cut s (Keeps.refl _ s) fun h0 => ?_
  refine Keeps.step (State.raise_keeps ..) rfl ?_
  assumption

theorem State.revoke_keeps (s p) : Keeps (Fld.regs ||| Fld.hdr ||| Fld.log ||| Fld.out ||| Fld.irq ||| Fld.draws ||| Fld.leases ||| Fld.rungs ||| Fld.lost ||| Fld.rungAt) s (State.revoke s p) := by
  unfold State.revoke
  refine Keeps.cut s (Keeps.refl _ s) fun h0 => ?_
  refine Keeps.foldl ?_ ?_
  · intro t0 x1 h2
    refine Keeps.step (State.loseLease_keeps ..) rfl ?_
    assumption
  assumption

end Sys2Proof.Machine
end

