-- ==== Sys2Proof/Laws/Basin.lean ====
section
/-!
SUPPORT. What each function of Machine/Basin.lean may change, and that it keeps the invariant of State.
-/
set_option linter.unusedVariables false
namespace Sys2Proof.Machine

theorem State.basinPut_keeps (s : State) (isl adr : Nat) (bs : List Byte) : Keeps (Fld.basin) s (s.basinPut isl adr bs) :=
  Keeps.set_basin _ (Keeps.refl _ s) (fun h => putCells_wf h _ bs) rfl

theorem State.setTag_keeps (s isl page tag) : Keeps (Fld.lines ||| Fld.tags) s (State.setTag s isl page tag) := by
  unfold State.setTag
  refine Keeps.cut s (Keeps.refl _ s) fun h0 => ?_
  exact Keeps.step0 (n := Fld.lines ||| Fld.tags) h0 rfl (by constructor <;> first | exact fun e => absurd e (by decide) | exact fun _ => rfl) fun i => ⟨i.1, i.2.1, i.2.2.1, i.2.2.2.1, Store.wf_put i.2.2.2.2 _ _⟩

theorem State.setLine_keeps (s isl line m) : Keeps (Fld.lines) s (State.setLine s isl line m) := by
  unfold State.setLine
  refine Keeps.cut s (Keeps.refl _ s) fun h0 => ?_
  exact ((Keeps.set_lines _ h0 rfl) :)

theorem State.writeLine_keeps (s isl ctx vline off bs poison) : Keeps (Fld.basin ||| Fld.lines) s (State.writeLine s isl ctx vline off bs poison).1 := by
  unfold State.writeLine
  refine Keeps.cut s (Keeps.refl _ s) fun h0 => ?_
  split
  · rename_i a0 a1
    dsimp only
    assumption
  · rename_i a2 a3 a4
    extract_lets -merge y5 y6 y7 y8
    clear_value y5 y6
    refine Keeps.cut (y7) ?_ fun h9 => ?_
    · unfold y7
      refine Keeps.ite ?_ ?_
      · assumption
      · refine Keeps.step (State.basinPut_keeps ..) rfl ?_
        assumption
    clear_value y7
    refine Keeps.cut (y8) ?_ fun h10 => ?_
    · unfold y8
      refine Keeps.step (State.basinPut_keeps ..) rfl ?_
      assumption
    clear_value y8
    dsimp only
    refine Keeps.step (State.setLine_keeps ..) rfl ?_
    assumption

theorem State.writeFrom_keeps (s : State) (isl ctx adr : Nat) (bs : List Byte) (poison : Bool) (n : Nat) :
    Keeps (Fld.basin ||| Fld.lines) s (s.writeFrom isl ctx adr bs poison n).1 := by
  induction n generalizing s adr bs with
  | zero => exact Keeps.refl _ s
  | succ n ih =>
    simp only [State.writeFrom]
    split
    · exact Keeps.refl _ s
    · exact (Keeps.step (State.writeLine_keeps ..) rfl (Keeps.refl _ s)).trans (ih ..)

theorem State.writeBytes_keeps (s isl ctx adr bs poison) : Keeps (Fld.basin ||| Fld.lines) s (State.writeBytes s isl ctx adr bs poison).1 := by
  unfold State.writeBytes
  refine Keeps.cut s (Keeps.refl _ s) fun h0 => ?_
  refine Keeps.step (State.writeFrom_keeps ..) rfl ?_
  assumption

theorem State.noteForeign_keeps (s isl ctx fs) : Keeps (Fld.regs ||| Fld.hdr ||| Fld.log ||| Fld.out ||| Fld.irq ||| Fld.draws ||| Fld.rungs ||| Fld.rungAt) s (State.noteForeign s isl ctx fs) := by
  unfold State.noteForeign
  refine Keeps.cut s (Keeps.refl _ s) fun h0 => ?_
  split
  · rename_i a0
    assumption
  · rename_i a1 a2 a3
    extract_lets -merge y4 y5 y6
    refine Keeps.cut (y4) ?_ fun h7 => ?_
    · unfold y4
      refine Keeps.step (State.incSat_keeps ..) rfl ?_
      assumption
    clear_value y4
    refine Keeps.cut (y5) ?_ fun h8 => ?_
    · unfold y5
      refine Keeps.step (State.incSat_keeps ..) rfl ?_
      assumption
    clear_value y5
    refine Keeps.cut (y6) ?_ fun h9 => ?_
    · unfold y6
      refine Keeps.step (State.setReg_keeps ..) rfl ?_
      assumption
    clear_value y6
    refine Keeps.step (State.raiseC_keeps ..) rfl ?_
    assumption

end Sys2Proof.Machine
end

