-- ==== Sys2Proof/Laws/Flash.lean ====
section
/-!
SUPPORT. What each function of Machine/Flash.lean may change, and that it keeps the invariant of State.
-/
set_option linter.unusedVariables false
namespace Sys2Proof.Machine

theorem State.flashErase_keeps (s : State) (a n : Nat) : Keeps (Fld.flash) s (s.flashErase a n) :=
  Keeps.set_flash _ (Keeps.refl _ s) (fun h => Store.wf_filter _ h) rfl

theorem State.flashProgram_keeps (s : State) (a : Nat) (bs : List Byte) : Keeps (Fld.flash) s (s.flashProgram a bs) := by
  induction bs generalizing s a with
  | nil => exact Keeps.refl _ s
  | cons b bs ih =>
    exact (Keeps.set_flash _ (Keeps.refl _ s) (fun h => Store.wf_put h _ _) rfl).trans
      (ih { s with flash := Store.put flashBlank s.flash a (s.flashByte a &&& b) } (a + 1))

theorem State.flashStart_keeps (s) : Keeps (Fld.leases ||| Fld.flash ||| Fld.flashq) s (State.flashStart s) := by
  unfold State.flashStart
  refine Keeps.cut s (Keeps.refl _ s) fun h0 => ?_
  split
  · rename_i a0 a1
    assumption
  · rename_i a2 a3 a4 a5
    refine Keeps.ite ?_ ?_
    · assumption
    · split
      · rename_i a6 a7 a8 a9
        extract_lets -merge y10 y11 y12
        clear_value y10
        refine Keeps.cut (y11) ?_ fun h13 => ?_
        · unfold y11
          exact ((Keeps.set_flashq _ h0 rfl) :)
        clear_value y11
        refine Keeps.cut (y12) ?_ fun h14 => ?_
        · unfold y12
          refine Keeps.step (State.lease_keeps ..) rfl ?_
          assumption
        clear_value y12
        refine Keeps.step (State.flashErase_keeps ..) rfl ?_
        assumption

theorem State.flashAsk_keeps (s w) : Keeps (Fld.leases ||| Fld.flash ||| Fld.flashq) s (State.flashAsk s w) := by
  unfold State.flashAsk
  refine Keeps.cut s (Keeps.refl _ s) fun h0 => ?_
  refine Keeps.step (State.flashStart_keeps ..) rfl ?_
  exact ((Keeps.set_flashq _ h0 rfl) :)

theorem State.flashTear_keeps (s w) : Keeps (Fld.draws ||| Fld.flash) s (State.flashTear s w) := by
  unfold State.flashTear
  refine Keeps.cut s (Keeps.refl _ s) fun h0 => ?_
  split
  · rename_i a0 a1
    assumption
  · rename_i a2 a3 a4 a5
    extract_lets -merge y6
    clear_value y6
    split
    · rename_i a7 a8 a9 a10
      refine Keeps.cut (a9) ?_ fun h11 => ?_
      · refine Keeps.of_snd a10 ?_
        refine Keeps.step (State.nextDraw_keeps ..) rfl ?_
        assumption
      extract_lets -merge y12 y13
      clear_value y12 y13
      refine Keeps.step (State.flashProgram_keeps ..) rfl ?_
      assumption

theorem State.flashNext_keeps (s) : Keeps (Fld.leases ||| Fld.flash ||| Fld.flashq) s (State.flashNext s) := by
  unfold State.flashNext
  refine Keeps.cut s (Keeps.refl _ s) fun h0 => ?_
  refine Keeps.step (State.flashStart_keeps ..) rfl ?_
  exact Keeps.step0 (n := Fld.leases ||| Fld.flashq) h0 rfl (by constructor <;> first | exact fun e => absurd e (by decide) | exact fun _ => rfl) fun i => ⟨i.1, i.2.1, i.2.2.1, i.2.2.2⟩

theorem State.flashFinish_keeps (s w) : Keeps (Fld.flash) s (State.flashFinish s w) := by
  unfold State.flashFinish
  refine Keeps.cut s (Keeps.refl _ s) fun h0 => ?_
  split
  · rename_i a0 a1
    assumption
  · rename_i a2 a3 a4 a5
    extract_lets -merge y6
    clear_value y6
    refine Keeps.step (State.flashProgram_keeps ..) rfl ?_
    refine Keeps.step (State.flashProgram_keeps ..) rfl ?_
    assumption

theorem State.noteTorn_keeps (s kind base size own) : Keeps (Fld.regs ||| Fld.hdr ||| Fld.log ||| Fld.out ||| Fld.irq ||| Fld.draws ||| Fld.rungs ||| Fld.rungAt) s (State.noteTorn s kind base size own) := by
  unfold State.noteTorn
  refine Keeps.cut s (Keeps.refl _ s) fun h0 => ?_
  refine Keeps.ite ?_ ?_
  · refine Keeps.step (State.raise_keeps ..) rfl ?_
    refine Keeps.step (State.incSat_keeps ..) rfl ?_
    assumption
  · assumption

theorem State.readPair_keeps (s kind b0 b1 size own) : Keeps (Fld.regs ||| Fld.hdr ||| Fld.log ||| Fld.out ||| Fld.irq ||| Fld.draws ||| Fld.rungs ||| Fld.rungAt) s (State.readPair s kind b0 b1 size own).1 := by
  unfold State.readPair
  refine Keeps.cut s (Keeps.refl _ s) fun h0 => ?_
  dsimp only
  refine Keeps.step (State.noteTorn_keeps ..) rfl ?_
  refine Keeps.step (State.noteTorn_keeps ..) rfl ?_
  assumption

end Sys2Proof.Machine
end

