-- ==== Sys2Proof/Laws/Tickets.lean ====
section
/-!
SUPPORT. What each function of Machine/Tickets.lean may change, and that it keeps the invariant of State.
-/
set_option linter.unusedVariables false
namespace Sys2Proof.Machine

theorem State.mapTk_keeps (s p f) : Keeps (Fld.tickets) s (State.mapTk s p f) := by
  unfold State.mapTk
  refine Keeps.cut s (Keeps.refl _ s) fun h0 => ?_
  exact ((Keeps.set_tickets _ h0 rfl) :)

theorem State.setTk_keeps (s k t) : Keeps (Fld.tickets) s (State.setTk s k t) := by
  unfold State.setTk
  refine Keeps.cut s (Keeps.refl _ s) fun h0 => ?_
  exact ((Keeps.set_tickets _ h0 rfl) :)

theorem State.setCx_keeps (s c x) : Keeps (Fld.ctxs) s (State.setCx s c x) := by
  unfold State.setCx
  refine Keeps.cut s (Keeps.refl _ s) fun h0 => ?_
  exact ((Keeps.set_ctxs _ h0 rfl) :)

theorem State.setPlan_keeps (s h p) : Keeps (Fld.plans) s (State.setPlan s h p) := by
  unfold State.setPlan
  refine Keeps.cut s (Keeps.refl _ s) fun h0 => ?_
  exact ((Keeps.set_plans _ h0 rfl) :)

theorem State.setTest_keeps (s isl u t) : Keeps (Fld.tests) s (State.setTest s isl u t) := by
  unfold State.setTest
  refine Keeps.cut s (Keeps.refl _ s) fun h0 => ?_
  exact ((Keeps.set_tests _ h0 rfl) :)

theorem State.setJob_keeps (s j x) : Keeps (Fld.jobs) s (State.setJob s j x) := by
  unfold State.setJob
  refine Keeps.cut s (Keeps.refl _ s) fun h0 => ?_
  exact ((Keeps.set_jobs _ h0 rfl) :)

theorem State.setAc_keeps (s p a) : Keeps (Fld.acct) s (State.setAc s p a) := by
  unfold State.setAc
  refine Keeps.cut s (Keeps.refl _ s) fun h0 => ?_
  exact ((Keeps.set_acct _ h0 rfl) :)

theorem State.noteLive_keeps (s isl) : Keeps (Fld.regs) s (State.noteLive s isl) := by
  unfold State.noteLive
  refine Keeps.cut s (Keeps.refl _ s) fun h0 => ?_
  extract_lets -merge y0
  clear_value y0
  refine Keeps.step (State.setF_keeps ..) rfl ?_
  refine Keeps.step (State.setF_keeps ..) rfl ?_
  assumption

theorem State.freeTk_keeps (s k) : Keeps (Fld.regs ||| Fld.tickets) s (State.freeTk s k) := by
  unfold State.freeTk
  refine Keeps.cut s (Keeps.refl _ s) fun h0 => ?_
  extract_lets -merge y0 y1
  refine Keeps.cut (y0) ?_ fun h2 => ?_
  · unfold y0
    refine Keeps.step (State.setTk_keeps ..) rfl ?_
    assumption
  clear_value y0
  refine Keeps.cut (y1) ?_ fun h3 => ?_
  · unfold y1
    refine Keeps.step (State.mapTk_keeps ..) rfl ?_
    assumption
  clear_value y1
  refine Keeps.step (State.noteLive_keeps ..) rfl ?_
  assumption

theorem State.newChallenge_keeps (s c) : Keeps (Fld.regs ||| Fld.draws) s (State.newChallenge s c) := by
  unfold State.newChallenge
  refine Keeps.cut s (Keeps.refl _ s) fun h0 => ?_
  split
  · rename_i a0 a1 a2 a3
    refine Keeps.cut (a2) ?_ fun h4 => ?_
    · refine Keeps.of_snd a3 ?_
      refine Keeps.step (State.nextDraw_keeps ..) rfl ?_
      assumption
    refine Keeps.step (State.set64_keeps ..) rfl ?_
    assumption

theorem State.askIslTest_keeps (s isl) : Keeps (Fld.tests) s (State.askIslTest s isl) := by
  unfold State.askIslTest
  refine Keeps.cut s (Keeps.refl _ s) fun h0 => ?_
  extract_lets -merge y0
  clear_value y0
  refine Keeps.ite ?_ ?_
  · assumption
  · refine Keeps.step (State.setTest_keeps ..) rfl ?_
    assumption

theorem State.endJob_keeps (s j status) : Keeps (Fld.jobs ||| Fld.ends) s (State.endJob s j status) := by
  unfold State.endJob
  refine Keeps.cut s (Keeps.refl _ s) fun h0 => ?_
  extract_lets -merge y0 y1
  clear_value y0
  refine Keeps.cut (y1) ?_ fun h2 => ?_
  · unfold y1
    refine Keeps.step (State.setJob_keeps ..) rfl ?_
    assumption
  clear_value y1
  refine Keeps.ite ?_ ?_
  · assumption
  · exact ((Keeps.set_ends _ h2 rfl) :)

theorem State.trigTest_keeps (s isl b) : Keeps (Fld.tests) s (State.trigTest s isl b) := by
  unfold State.trigTest
  refine Keeps.cut s (Keeps.refl _ s) fun h0 => ?_
  extract_lets -merge y0 y1
  clear_value y0 y1
  refine Keeps.ite ?_ ?_
  · assumption
  · refine Keeps.step (State.askIslTest_keeps ..) rfl ?_
    refine Keeps.step (State.setTest_keeps ..) rfl ?_
    assumption

theorem State.grant_keeps {s t : State} {isl : Nat} {c : Nat × Nat} (h : s.grant isl c = some t) : Keeps (Fld.regs ||| Fld.acct) s t := by
  unfold State.grant at h
  dsimp only at h
  split at h
  · cases h; exact Keeps.refl _ s
  · split at h
    · cases h
    · cases h
      exact Keeps.step (State.add64_keeps ..) rfl (Keeps.step (State.add64_keeps ..) rfl (Keeps.step (State.setAc_keeps ..) rfl (Keeps.refl _ s)))

theorem State.grantUnless_keeps {s t : State} {b : Bool} {isl : Nat} {c : Nat × Nat} (h : s.grantUnless b isl c = some t) :
    Keeps (Fld.regs ||| Fld.acct) s t := by
  unfold State.grantUnless at h
  split at h
  · cases h; exact Keeps.refl _ s
  · exact Keeps.step (State.grant_keeps h) rfl (Keeps.refl _ s)

theorem State.waitDrops_keeps (s k t stretch rail cause) : Keeps (Fld.regs ||| Fld.hdr ||| Fld.log ||| Fld.out ||| Fld.irq ||| Fld.draws ||| Fld.tickets ||| Fld.acct ||| Fld.rungs ||| Fld.rungAt) s (State.waitDrops s k t stretch rail cause) := by
  unfold State.waitDrops
  refine Keeps.cut s (Keeps.refl _ s) fun h0 => ?_
  extract_lets -merge y0 y1 y2 y3 y4 y5 y6 y7
  clear_value y0 y1 y2
  refine Keeps.cut (y3) ?_ fun h8 => ?_
  · unfold y3
    refine Keeps.step (State.setTk_keeps ..) rfl ?_
    assumption
  clear_value y3
  refine Keeps.cut (y4) ?_ fun h9 => ?_
  · unfold y4
    refine Keeps.ite ?_ ?_
    · refine Keeps.ite ?_ ?_
      · refine Keeps.step (State.incSatF_keeps ..) rfl ?_
        assumption
      · refine Keeps.step (State.incSatF_keeps ..) rfl ?_
        assumption
    · assumption
  clear_value y4 y5 y6 y7
  refine Keeps.ite ?_ ?_
  · refine Keeps.step (State.raise_keeps ..) rfl ?_
    refine Keeps.step (State.setAc_keeps ..) rfl ?_
    assumption
  · refine Keeps.ite ?_ ?_
    · refine Keeps.step (State.raise_keeps ..) rfl ?_
      refine Keeps.step (State.setAc_keeps ..) rfl ?_
      assumption
    · assumption

theorem State.slipStep_keeps (s j d isl) : Keeps (Fld.regs ||| Fld.hdr ||| Fld.log ||| Fld.out ||| Fld.irq ||| Fld.draws ||| Fld.tickets ||| Fld.jobs ||| Fld.plans ||| Fld.rungs ||| Fld.rungAt) s (State.slipStep s j d isl) := by
  unfold State.slipStep
  refine Keeps.cut s (Keeps.refl _ s) fun h0 => ?_
  extract_lets -merge y0 y1 y2 y3 y4 y5 y6 y7 y8
  clear_value y0 y1 y2
  refine Keeps.cut (y3) ?_ fun h9 => ?_
  · unfold y3
    refine Keeps.step (State.setJob_keeps ..) rfl ?_
    assumption
  clear_value y3
  refine Keeps.cut (y4) ?_ fun h10 => ?_
  · unfold y4
    refine Keeps.step (State.mapTk_keeps ..) rfl ?_
    assumption
  clear_value y4
  refine Keeps.cut (y5) ?_ fun h11 => ?_
  · unfold y5
    refine Keeps.step (State.mapTk_keeps ..) rfl ?_
    assumption
  clear_value y5 y6
  refine Keeps.cut (y7) ?_ fun h12 => ?_
  · unfold y7
    refine Keeps.step (State.setPlan_keeps ..) rfl ?_
    assumption
  clear_value y7
  refine Keeps.cut (y8) ?_ fun h13 => ?_
  · unfold y8
    refine Keeps.step (State.incSat_keeps ..) rfl ?_
    assumption
  clear_value y8
  refine Keeps.step (State.raiseC_keeps ..) rfl ?_
  assumption

theorem State.installFail_keeps (s c err) : Keeps (Fld.regs ||| Fld.hdr ||| Fld.log ||| Fld.out ||| Fld.irq ||| Fld.draws ||| Fld.leases ||| Fld.ctxs ||| Fld.rungs ||| Fld.rungAt) s (State.installFail s c err) := by
  unfold State.installFail
  refine Keeps.cut s (Keeps.refl _ s) fun h0 => ?_
  extract_lets -merge y0 y1 y2
  refine Keeps.cut (y0) ?_ fun h3 => ?_
  · unfold y0
    exact ((Keeps.set_leases _ h0 rfl) :)
  clear_value y0 y1
  refine Keeps.cut (y2) ?_ fun h4 => ?_
  · unfold y2
    refine Keeps.step (State.setF_keeps ..) rfl ?_
    refine Keeps.step (State.setCx_keeps ..) rfl ?_
    assumption
  clear_value y2
  refine Keeps.step (State.raiseC_keeps ..) rfl ?_
  refine Keeps.step (State.newChallenge_keeps ..) rfl ?_
  assumption

theorem State.launchTk_keeps (s k t noAct) : Keeps (Fld.regs ||| Fld.hdr ||| Fld.log ||| Fld.out ||| Fld.irq ||| Fld.draws ||| Fld.tickets ||| Fld.rungs ||| Fld.rungAt) s (State.launchTk s k t noAct) := by
  unfold State.launchTk
  refine Keeps.cut s (Keeps.refl _ s) fun h0 => ?_
  extract_lets -merge y0 y1 y2 y3 y4 y5
  clear_value y0 y1 y2 y3
  refine Keeps.cut (y4) ?_ fun h6 => ?_
  · unfold y4
    refine Keeps.step (State.setTk_keeps ..) rfl ?_
    assumption
  clear_value y4
  refine Keeps.cut (y5) ?_ fun h7 => ?_
  · unfold y5
    refine Keeps.step (State.incSat_keeps ..) rfl ?_
    assumption
  clear_value y5
  refine Keeps.ite ?_ ?_
  · assumption
  · refine Keeps.step (State.raiseC_keeps ..) rfl ?_
    assumption

theorem State.failStep_keeps (s j status cause isl idx) : Keeps (Fld.regs ||| Fld.hdr ||| Fld.log ||| Fld.out ||| Fld.irq ||| Fld.draws ||| Fld.tickets ||| Fld.jobs ||| Fld.rungs ||| Fld.rungAt) s (State.failStep s j status cause isl idx) := by
  unfold State.failStep
  refine Keeps.cut s (Keeps.refl _ s) fun h0 => ?_
  extract_lets -merge y0 y1 y2 y3
  clear_value y0
  refine Keeps.cut (y1) ?_ fun h4 => ?_
  · unfold y1
    refine Keeps.step (State.setJob_keeps ..) rfl ?_
    assumption
  clear_value y1
  refine Keeps.cut (y2) ?_ fun h5 => ?_
  · unfold y2
    refine Keeps.step (State.mapTk_keeps ..) rfl ?_
    assumption
  clear_value y2
  refine Keeps.cut (y3) ?_ fun h6 => ?_
  · unfold y3
    refine Keeps.step (State.mapTk_keeps ..) rfl ?_
    assumption
  clear_value y3
  refine Keeps.ite ?_ ?_
  · assumption
  · refine Keeps.step (State.raiseC_keeps ..) rfl ?_
    assumption

theorem State.visit_keeps (b : State × Option (Bool × Nat × Nat)) (k : Nat) : Keeps (Fld.regs ||| Fld.hdr ||| Fld.log ||| Fld.out ||| Fld.irq ||| Fld.draws ||| Fld.tickets ||| Fld.acct ||| Fld.rungs ||| Fld.rungAt) b.1 (State.visit b k).1 := by
  unfold State.visit
  refine Keeps.cut b.1 (Keeps.refl _ _) fun h0 => ?_
  extract_lets -merge s t
  have hs : Keeps (Fld.regs ||| Fld.hdr ||| Fld.log ||| Fld.out ||| Fld.irq ||| Fld.draws ||| Fld.tickets ||| Fld.acct ||| Fld.rungs ||| Fld.rungAt) b.1 s := h0
  clear_value s t
  split
  · exact Keeps.step (State.setTk_keeps ..) rfl hs
  · split
    · exact Keeps.step (State.launchTk_keeps ..) rfl hs
    · split
      · exact Keeps.step (State.waitDrops_keeps ..) rfl hs
      · split
        · rename_i u e
          exact Keeps.step (State.launchTk_keeps ..) rfl (Keeps.step (State.grant_keeps e) rfl hs)
        · exact Keeps.step (State.waitDrops_keeps ..) rfl hs

theorem State.failTk_keeps (s k status cause) : Keeps (Fld.regs ||| Fld.hdr ||| Fld.log ||| Fld.out ||| Fld.irq ||| Fld.draws ||| Fld.tickets ||| Fld.jobs ||| Fld.rungs ||| Fld.rungAt) s (State.failTk s k status cause) := by
  unfold State.failTk
  refine Keeps.cut s (Keeps.refl _ s) fun h0 => ?_
  refine Keeps.step (State.failStep_keeps ..) rfl ?_
  assumption

theorem State.startTeardown_keeps (s c cause) : Keeps (Fld.regs ||| Fld.hdr ||| Fld.log ||| Fld.out ||| Fld.irq ||| Fld.draws ||| Fld.leases ||| Fld.tickets ||| Fld.jobs ||| Fld.ctxs ||| Fld.rungs ||| Fld.imports ||| Fld.ends ||| Fld.rungAt) s (State.startTeardown s c cause) := by
  unfold State.startTeardown
  refine Keeps.cut s (Keeps.refl _ s) fun h0 => ?_
  extract_lets -merge y0 y1 y2 y3 y4 y5 y6
  clear_value y0
  refine Keeps.cut (y1) ?_ fun h7 => ?_
  · unfold y1
    refine Keeps.ite ?_ ?_
    · refine Keeps.step (State.installFail_keeps ..) rfl ?_
      assumption
    · assumption
  clear_value y1
  refine Keeps.cut (y2) ?_ fun h8 => ?_
  · unfold y2
    refine Keeps.step (State.setF_keeps ..) rfl ?_
    assumption
  clear_value y2 y3
  refine Keeps.cut (y4) ?_ fun h9 => ?_
  · unfold y4
    refine Keeps.step (State.setCx_keeps ..) rfl ?_
    assumption
  clear_value y4
  refine Keeps.cut (y5) ?_ fun h10 => ?_
  · unfold y5
    refine Keeps.foldl ?_ ?_
    · intro t11 x12 h13
      refine Keeps.step (State.failStep_keeps ..) rfl ?_
      assumption
    assumption
  clear_value y5
  refine Keeps.cut (y6) ?_ fun h14 => ?_
  · unfold y6
    exact ((Keeps.set_imports _ h10 rfl) :)
  clear_value y6
  refine Keeps.ite ?_ ?_
  · assumption
  · refine Keeps.foldl ?_ ?_
    · intro t15 x16 h17
      refine Keeps.step (State.endJob_keeps ..) rfl ?_
      assumption
    assumption

theorem State.consumePoison_keeps (s isl ctx j) : Keeps (Fld.regs ||| Fld.hdr ||| Fld.log ||| Fld.out ||| Fld.irq ||| Fld.draws ||| Fld.leases ||| Fld.tickets ||| Fld.jobs ||| Fld.ctxs ||| Fld.rungs ||| Fld.imports ||| Fld.ends ||| Fld.rungAt) s (State.consumePoison s isl ctx j) := by
  unfold State.consumePoison
  refine Keeps.cut s (Keeps.refl _ s) fun h0 => ?_
  extract_lets -merge y0 y1 y2 y3 y4
  refine Keeps.cut (y0) ?_ fun h5 => ?_
  · unfold y0
    refine Keeps.step (State.incSat_keeps ..) rfl ?_
    assumption
  clear_value y0
  refine Keeps.cut (y1) ?_ fun h6 => ?_
  · unfold y1
    refine Keeps.step (State.raiseC_keeps ..) rfl ?_
    assumption
  clear_value y1
  refine Keeps.cut (y2) ?_ fun h7 => ?_
  · unfold y2
    refine Keeps.step (State.failStep_keeps ..) rfl ?_
    assumption
  clear_value y2 y3
  refine Keeps.cut (y4) ?_ fun h8 => ?_
  · unfold y4
    refine Keeps.step (State.setCx_keeps ..) rfl ?_
    assumption
  clear_value y4
  refine Keeps.ite ?_ ?_
  · assumption
  · refine Keeps.step (State.startTeardown_keeps ..) rfl ?_
    assumption

theorem State.grantPass_keeps (s : State) (p : Nat) : Keeps (Fld.regs ||| Fld.hdr ||| Fld.log ||| Fld.out ||| Fld.irq ||| Fld.draws ||| Fld.tickets ||| Fld.acct ||| Fld.rungs ||| Fld.rungAt) s (s.grantPass p) := by
  unfold State.grantPass
  exact Keeps.foldl_fst (fun t c x h => Keeps.step (State.visit_keeps (t, c) x) rfl h) (Keeps.refl _ s)

theorem State.tryLaunch_keeps (s k) : Keeps (Fld.regs ||| Fld.hdr ||| Fld.log ||| Fld.out ||| Fld.irq ||| Fld.draws ||| Fld.tickets ||| Fld.acct ||| Fld.rungs ||| Fld.rungAt) s (State.tryLaunch s k) := by
  unfold State.tryLaunch
  refine Keeps.cut s (Keeps.refl _ s) fun h0 => ?_
  extract_lets -merge y0
  clear_value y0
  refine Keeps.ite ?_ ?_
  · assumption
  · refine Keeps.step (State.grantPass_keeps ..) rfl ?_
    assumption

end Sys2Proof.Machine
end

