-- ==== Sys2Proof/Laws/Tile.lean ====
section
/-!
SUPPORT. What each function of Machine/Tile.lean may change, and that it keeps the invariant of State.
-/
set_option linter.unusedVariables false
namespace Sys2Proof.Machine

theorem State.updTx_keeps (s gt f) : Keeps (Fld.tiles) s (State.updTx s gt f) := by
  unfold State.updTx
  refine Keeps.cut s (Keeps.refl _ s) fun h0 => ?_
  exact ((Keeps.set_tiles _ h0 rfl) :)

theorem State.tileAct_keeps (s gt code) : Keeps (Fld.regs) s (State.tileAct s gt code) := by
  unfold State.tileAct
  refine Keeps.cut s (Keeps.refl _ s) fun h0 => ?_
  refine Keeps.step (State.setF_keeps ..) rfl ?_
  assumption

theorem State.setRow_keeps (s gt r x) : Keeps (Fld.rows) s (State.setRow s gt r x) := by
  unfold State.setRow
  refine Keeps.cut s (Keeps.refl _ s) fun h0 => ?_
  exact ((Keeps.set_rows _ h0 rfl) :)

theorem State.clearLate_keeps (s gt) : Keeps (Fld.regs) s (State.clearLate s gt) := by
  unfold State.clearLate
  refine Keeps.cut s (Keeps.refl _ s) fun h0 => ?_
  refine Keeps.ite ?_ ?_
  · refine Keeps.step (State.setB_keeps ..) rfl ?_
    assumption
  · assumption

theorem State.countValid_keeps (s gt) : Keeps (Fld.regs) s (State.countValid s gt) := by
  unfold State.countValid
  refine Keeps.cut s (Keeps.refl _ s) fun h0 => ?_
  extract_lets -merge y0
  clear_value y0
  refine Keeps.step (State.setB_keeps ..) rfl ?_
  refine Keeps.step (State.setF_keeps ..) rfl ?_
  assumption

theorem State.tileIdle_keeps (s gt) : Keeps (Fld.regs ||| Fld.tiles) s (State.tileIdle s gt) := by
  unfold State.tileIdle
  refine Keeps.cut s (Keeps.refl _ s) fun h0 => ?_
  extract_lets -merge y0
  refine Keeps.cut (y0) ?_ fun h1 => ?_
  · unfold y0
    refine Keeps.step (State.setF_keeps ..) rfl ?_
    assumption
  clear_value y0
  refine Keeps.ite ?_ ?_
  · refine Keeps.step (State.tileAct_keeps ..) rfl ?_
    refine Keeps.step (State.updTx_keeps ..) rfl ?_
    assumption
  · assumption

theorem State.releaseNow_keeps (s gt) : Keeps (Fld.regs ||| Fld.rows ||| Fld.tiles) s (State.releaseNow s gt) := by
  unfold State.releaseNow
  refine Keeps.cut s (Keeps.refl _ s) fun h0 => ?_
  extract_lets -merge y0 y1 y2 y3 y4 y5 y6
  refine Keeps.cut (y0) ?_ fun h7 => ?_
  · unfold y0
    exact ((Keeps.set_rows _ h0 rfl) :)
  clear_value y0
  refine Keeps.cut (y1) ?_ fun h8 => ?_
  · unfold y1
    refine Keeps.step (State.set64_keeps ..) rfl ?_
    assumption
  clear_value y1
  refine Keeps.cut (y2) ?_ fun h9 => ?_
  · unfold y2
    refine Keeps.step (State.setF_keeps ..) rfl ?_
    assumption
  clear_value y2
  refine Keeps.cut (y3) ?_ fun h10 => ?_
  · unfold y3
    refine Keeps.step (State.setB_keeps ..) rfl ?_
    assumption
  clear_value y3
  refine Keeps.cut (y4) ?_ fun h11 => ?_
  · unfold y4
    refine Keeps.ite ?_ ?_
    · assumption
    · refine Keeps.step (State.updTx_keeps ..) rfl ?_
      refine Keeps.step (State.setF_keeps ..) rfl ?_
      assumption
  clear_value y4
  refine Keeps.cut (y5) ?_ fun h12 => ?_
  · unfold y5
    refine Keeps.step (State.updTx_keeps ..) rfl ?_
    assumption
  clear_value y5
  refine Keeps.cut (y6) ?_ fun h13 => ?_
  · unfold y6
    split
    · rename_i a14 a15 a16
      refine Keeps.step (State.updTx_keeps ..) rfl ?_
      refine Keeps.step (State.setF_keeps ..) rfl ?_
      assumption
    · rename_i a17 a18
      assumption
  clear_value y6
  refine Keeps.step (State.setB_keeps ..) rfl ?_
  refine Keeps.step (State.countValid_keeps ..) rfl ?_
  assumption

theorem State.release_keeps (s gt) : Keeps (Fld.regs ||| Fld.rows ||| Fld.tiles) s (State.release s gt) := by
  unfold State.release
  refine Keeps.cut s (Keeps.refl _ s) fun h0 => ?_
  refine Keeps.ite ?_ ?_
  · refine Keeps.step (State.updTx_keeps ..) rfl ?_
    assumption
  · refine Keeps.step (State.releaseNow_keeps ..) rfl ?_
    assumption

theorem State.digXor_keeps (s gt v) : Keeps (Fld.regs) s (State.digXor s gt v) := by
  unfold State.digXor
  refine Keeps.cut s (Keeps.refl _ s) fun h0 => ?_
  refine Keeps.step (State.set64_keeps ..) rfl ?_
  assumption

theorem State.invalidate_keeps (s gt r fold) : Keeps (Fld.regs ||| Fld.rows) s (State.invalidate s gt r fold) := by
  unfold State.invalidate
  refine Keeps.cut s (Keeps.refl _ s) fun h0 => ?_
  extract_lets -merge y0 y1
  clear_value y0
  refine Keeps.cut (y1) ?_ fun h2 => ?_
  · unfold y1
    refine Keeps.ite ?_ ?_
    · refine Keeps.step (State.digXor_keeps ..) rfl ?_
      assumption
    · assumption
  clear_value y1
  refine Keeps.ite ?_ ?_
  · refine Keeps.step (State.clearLate_keeps ..) rfl ?_
    refine Keeps.step (State.countValid_keeps ..) rfl ?_
    refine Keeps.step (State.setRow_keeps ..) rfl ?_
    assumption
  · assumption

theorem State.fenceRelease_keeps (s gt) : Keeps (Fld.regs ||| Fld.rows ||| Fld.tiles) s (State.fenceRelease s gt) := by
  unfold State.fenceRelease
  refine Keeps.cut s (Keeps.refl _ s) fun h0 => ?_
  refine Keeps.ite ?_ ?_
  · assumption
  · refine Keeps.step (State.release_keeps ..) rfl ?_
    assumption

theorem State.rowWrite_keeps (s gt r d) : Keeps (Fld.regs ||| Fld.rows ||| Fld.tiles) s (State.rowWrite s gt r d) := by
  unfold State.rowWrite
  refine Keeps.cut s (Keeps.refl _ s) fun h0 => ?_
  extract_lets -merge y0 y1 y2 y3 y4 y5 y6 y7
  clear_value y0 y1 y2 y3
  refine Keeps.cut (y4) ?_ fun h8 => ?_
  · unfold y4
    refine Keeps.step (State.digXor_keeps ..) rfl ?_
    assumption
  clear_value y4
  refine Keeps.cut (y5) ?_ fun h9 => ?_
  · unfold y5
    refine Keeps.step (State.setRow_keeps ..) rfl ?_
    assumption
  clear_value y5
  refine Keeps.cut (y6) ?_ fun h10 => ?_
  · unfold y6
    refine Keeps.step (State.setF_keeps ..) rfl ?_
    assumption
  clear_value y6
  refine Keeps.cut (y7) ?_ fun h11 => ?_
  · unfold y7
    refine Keeps.step (State.updTx_keeps ..) rfl ?_
    assumption
  clear_value y7
  refine Keeps.step (State.clearLate_keeps ..) rfl ?_
  refine Keeps.step (State.countValid_keeps ..) rfl ?_
  refine Keeps.step (State.add64_keeps ..) rfl ?_
  assumption

theorem State.noteRead_keeps (s gt r rr src ctx) : Keeps (Fld.regs ||| Fld.hdr ||| Fld.log ||| Fld.out ||| Fld.irq ||| Fld.draws ||| Fld.rungs ||| Fld.rungAt) s (State.noteRead s gt r rr src ctx) := by
  unfold State.noteRead
  refine Keeps.cut s (Keeps.refl _ s) fun h0 => ?_
  extract_lets -merge y0
  refine Keeps.cut (y0) ?_ fun h1 => ?_
  · unfold y0
    refine Keeps.step (State.add64_keeps ..) rfl ?_
    assumption
  clear_value y0
  refine Keeps.ite ?_ ?_
  · refine Keeps.step (State.raise_keeps ..) rfl ?_
    assumption
  · assumption

theorem State.raiseUnlock_keeps (s gt code ctx) : Keeps (Fld.regs ||| Fld.hdr ||| Fld.log ||| Fld.out ||| Fld.irq ||| Fld.draws ||| Fld.rungs ||| Fld.rungAt) s (State.raiseUnlock s gt code ctx) := by
  unfold State.raiseUnlock
  refine Keeps.cut s (Keeps.refl _ s) fun h0 => ?_
  refine Keeps.step (State.raiseC_keeps ..) rfl ?_
  assumption

end Sys2Proof.Machine
end

