-- ==== Sys2Proof/Laws/Refresh.lean ====
section
/-!
SUPPORT. What each function of Machine/Refresh.lean may change, and that it keeps the invariant of State.
-/
set_option linter.unusedVariables false
namespace Sys2Proof.Machine

theorem State.setTrim_keeps (s gt bank i v) : Keeps (Fld.trims) s (State.setTrim s gt bank i v) := by
  unfold State.setTrim
  refine Keeps.cut s (Keeps.refl _ s) fun h0 => ?_
  exact ((Keeps.set_trims _ h0 rfl) :)

theorem State.decideRegime_keeps (s gt byWrite) : Keeps (Fld.tiles) s (State.decideRegime s gt byWrite) := by
  unfold State.decideRegime
  refine Keeps.cut s (Keeps.refl _ s) fun h0 => ?_
  refine Keeps.step (State.updTx_keeps ..) rfl ?_
  assumption

theorem State.writeGrid_keeps (s gt v) : Keeps (Fld.regs ||| Fld.tiles) s (State.writeGrid s gt v) := by
  unfold State.writeGrid
  refine Keeps.cut s (Keeps.refl _ s) fun h0 => ?_
  refine Keeps.ite ?_ ?_
  · assumption
  · refine Keeps.step (State.decideRegime_keeps ..) rfl ?_
    refine Keeps.step (State.setB_keeps ..) rfl ?_
    assumption

theorem State.applyMap_keeps (s gt) : Keeps (Fld.regs ||| Fld.tiles) s (State.applyMap s gt) := by
  unfold State.applyMap
  refine Keeps.cut s (Keeps.refl _ s) fun h0 => ?_
  refine Keeps.ite ?_ ?_
  · refine Keeps.step (State.setB_keeps ..) rfl ?_
    assumption
  · extract_lets -merge y0 y1 y2 y3 y4 y5 y6
    clear_value y0 y1 y2 y3
    refine Keeps.cut (y4) ?_ fun h7 => ?_
    · unfold y4
      refine Keeps.step (State.setB_keeps ..) rfl ?_
      assumption
    clear_value y4
    refine Keeps.cut (y5) ?_ fun h8 => ?_
    · unfold y5
      refine Keeps.step (State.setF_keeps ..) rfl ?_
      assumption
    clear_value y5
    refine Keeps.cut (y6) ?_ fun h9 => ?_
    · unfold y6
      refine Keeps.step (State.updTx_keeps ..) rfl ?_
      assumption
    clear_value y6
    refine Keeps.ite ?_ ?_
    · refine Keeps.step (State.updTx_keeps ..) rfl ?_
      assumption
    · refine Keeps.step (State.setB_keeps ..) rfl ?_
      refine Keeps.step (State.setB_keeps ..) rfl ?_
      assumption

theorem execGridWrite_keeps (rq gt v s) : KeepsO (Fld.regs ||| Fld.heldWrites ||| Fld.tiles) s (execGridWrite rq gt v s) := by
  unfold execGridWrite
  refine KeepsO.cut s (Keeps.refl _ s) fun h0 => ?_
  refine KeepsO.next ?_
  refine State.orHeld_hof ?_ rfl ?_
  · intro t0 x1
    refine Keeps.ite ?_ ?_
    · refine Keeps.step (State.writeGrid_keeps ..) rfl ?_
      assumption
    · assumption
  assumption

theorem State.closeTrim_keeps (s gt) : Keeps (Fld.regs) s (State.closeTrim s gt) := by
  unfold State.closeTrim
  refine Keeps.cut s (Keeps.refl _ s) fun h0 => ?_
  refine Keeps.ite ?_ ?_
  · refine Keeps.step (State.setB_keeps ..) rfl ?_
    refine Keeps.step (State.setB_keeps ..) rfl ?_
    assumption
  · assumption

theorem State.writePhase_keeps (s gt v) : Keeps (Fld.regs ||| Fld.tiles) s (State.writePhase s gt v) := by
  unfold State.writePhase
  refine Keeps.cut s (Keeps.refl _ s) fun h0 => ?_
  refine Keeps.ite ?_ ?_
  · assumption
  · refine Keeps.ite ?_ ?_
    · refine Keeps.step (State.setF_keeps ..) rfl ?_
      assumption
    · refine Keeps.step (State.updTx_keeps ..) rfl ?_
      assumption

theorem State.setOwed_keeps (s gt n) : Keeps (Fld.regs) s (State.setOwed s gt n) := by
  unfold State.setOwed
  refine Keeps.cut s (Keeps.refl _ s) fun h0 => ?_
  refine Keeps.step (State.setB_keeps ..) rfl ?_
  refine Keeps.step (State.setF_keeps ..) rfl ?_
  assumption

theorem execColmapApply_keeps (rq gt s) : KeepsO (Fld.regs ||| Fld.heldWrites ||| Fld.tiles) s (execColmapApply rq gt s) := by
  unfold execColmapApply
  refine KeepsO.cut s (Keeps.refl _ s) fun h0 => ?_
  refine KeepsO.next ?_
  refine State.orHeld_hof ?_ rfl ?_
  · intro t0 x1
    refine Keeps.ite ?_ ?_
    · refine Keeps.step (State.applyMap_keeps ..) rfl ?_
      assumption
    · assumption
  assumption

theorem execTunitLock_keeps (gt s) : KeepsO (Fld.regs ||| Fld.tiles) s (execTunitLock gt s) := by
  unfold execTunitLock
  refine KeepsO.cut s (Keeps.refl _ s) fun h0 => ?_
  refine KeepsO.next ?_
  refine Keeps.ite ?_ ?_
  · refine Keeps.step (State.updTx_keeps ..) rfl ?_
    refine Keeps.step (State.setB_keeps ..) rfl ?_
    assumption
  · assumption

theorem State.caughtUp_keeps (s gt) : Keeps (Fld.regs) s (State.caughtUp s gt) := by
  unfold State.caughtUp
  refine Keeps.cut s (Keeps.refl _ s) fun h0 => ?_
  refine Keeps.step (State.incSat_keeps ..) rfl ?_
  refine Keeps.step (State.setOwed_keeps ..) rfl ?_
  assumption

theorem execDigWriteRecompute_keeps (gt s) : KeepsO (Fld.regs ||| Fld.tiles) s (execDigWriteRecompute gt s) := by
  unfold execDigWriteRecompute
  refine KeepsO.cut s (Keeps.refl _ s) fun h0 => ?_
  refine KeepsO.next ?_
  refine Keeps.ite ?_ ?_
  · assumption
  · refine Keeps.step (State.set64_keeps ..) rfl ?_
    refine Keeps.step (State.updTx_keeps ..) rfl ?_
    assumption

theorem execReleaseApply_keeps (gt s) : KeepsO (Fld.regs ||| Fld.rows ||| Fld.tiles) s (execReleaseApply gt s) := by
  unfold execReleaseApply
  refine KeepsO.cut s (Keeps.refl _ s) fun h0 => ?_
  refine KeepsO.next ?_
  refine Keeps.ite ?_ ?_
  · refine Keeps.step (State.releaseNow_keeps ..) rfl ?_
    assumption
  · assumption

theorem execPhaseWrite_keeps (rq gt v s) : KeepsO (Fld.regs ||| Fld.heldWrites ||| Fld.tiles) s (execPhaseWrite rq gt v s) := by
  unfold execPhaseWrite
  refine KeepsO.cut s (Keeps.refl _ s) fun h0 => ?_
  refine KeepsO.next ?_
  refine State.orHeld_hof ?_ rfl ?_
  · intro t0 x1
    refine Keeps.ite ?_ ?_
    · refine Keeps.step (State.writePhase_keeps ..) rfl ?_
      assumption
    · assumption
  assumption

theorem State.lostSlot_keeps (s gt catchUp) : Keeps (Fld.regs) s (State.lostSlot s gt catchUp) := by
  unfold State.lostSlot
  refine Keeps.cut s (Keeps.refl _ s) fun h0 => ?_
  refine Keeps.ite ?_ ?_
  · assumption
  · refine Keeps.step (State.setOwed_keeps ..) rfl ?_
    assumption

theorem State.endPass_keeps (s gt) : Keeps (Fld.regs ||| Fld.hdr ||| Fld.tiles) s (State.endPass s gt) := by
  unfold State.endPass
  refine Keeps.cut s (Keeps.refl _ s) fun h0 => ?_
  extract_lets -merge y0 y1 y2 y3 y4 y5
  clear_value y0
  refine Keeps.cut (y1) ?_ fun h6 => ?_
  · unfold y1
    refine Keeps.step (State.set64_keeps ..) rfl ?_
    assumption
  clear_value y1
  refine Keeps.cut (y2) ?_ fun h7 => ?_
  · unfold y2
    refine Keeps.step (State.set64_keeps ..) rfl ?_
    assumption
  clear_value y2
  refine Keeps.cut (y3) ?_ fun h8 => ?_
  · unfold y3
    refine Keeps.step (State.setReg_keeps ..) rfl ?_
    assumption
  clear_value y3
  refine Keeps.cut (y4) ?_ fun h9 => ?_
  · unfold y4
    refine Keeps.step (State.setB_keeps ..) rfl ?_
    assumption
  clear_value y4
  refine Keeps.cut (y5) ?_ fun h10 => ?_
  · unfold y5
    split
    · rename_i a11 a12 a13
      refine Keeps.step (State.setF_keeps ..) rfl ?_
      assumption
    · rename_i a14 a15
      assumption
  clear_value y5
  refine Keeps.step (State.bumpSeq_keeps ..) rfl ?_
  refine Keeps.step (State.updTx_keeps ..) rfl ?_
  assumption

theorem State.advance_keeps (s gt) : Keeps (Fld.regs ||| Fld.hdr ||| Fld.tiles) s (State.advance s gt) := by
  unfold State.advance
  refine Keeps.cut s (Keeps.refl _ s) fun h0 => ?_
  extract_lets -merge y0 y1
  clear_value y0
  refine Keeps.cut (y1) ?_ fun h2 => ?_
  · unfold y1
    refine Keeps.step (State.setF_keeps ..) rfl ?_
    assumption
  clear_value y1
  refine Keeps.ite ?_ ?_
  · refine Keeps.step (State.endPass_keeps ..) rfl ?_
    assumption
  · assumption

theorem execRelease_keeps (rq gt s) : KeepsO (Fld.regs ||| Fld.heldWrites ||| Fld.rows ||| Fld.tiles) s (execRelease rq gt s) := by
  unfold execRelease
  refine KeepsO.cut s (Keeps.refl _ s) fun h0 => ?_
  refine KeepsO.next ?_
  refine State.orHeld_hof ?_ rfl ?_
  · intro t0 x1
    refine Keeps.ite ?_ ?_
    · refine Keeps.step (State.release_keeps ..) rfl ?_
      assumption
    · assumption
  assumption

theorem State.skipVisit_keeps (s gt r) : Keeps (Fld.regs ||| Fld.hdr ||| Fld.rows ||| Fld.tiles) s (State.skipVisit s gt r) := by
  unfold State.skipVisit
  refine Keeps.cut s (Keeps.refl _ s) fun h0 => ?_
  extract_lets -merge y0 y1
  clear_value y0
  refine Keeps.cut (y1) ?_ fun h2 => ?_
  · unfold y1
    refine Keeps.ite ?_ ?_
    · refine Keeps.step (State.updTx_keeps ..) rfl ?_
      refine Keeps.step (State.incSat_keeps ..) rfl ?_
      refine Keeps.step (State.setRow_keeps ..) rfl ?_
      assumption
    · assumption
  clear_value y1
  refine Keeps.step (State.advance_keeps ..) rfl ?_
  assumption

theorem State.trimRefuse_keeps (s gt i why) : Keeps (Fld.regs ||| Fld.hdr ||| Fld.log ||| Fld.out ||| Fld.irq ||| Fld.draws ||| Fld.rungs ||| Fld.rungAt) s (State.trimRefuse s gt i why) := by
  unfold State.trimRefuse
  refine Keeps.cut s (Keeps.refl _ s) fun h0 => ?_
  refine Keeps.step (State.raiseI_keeps ..) rfl ?_
  refine Keeps.step (State.setB_keeps ..) rfl ?_
  assumption

theorem State.tunitLost_keeps (s gt begun) : Keeps (Fld.regs ||| Fld.hdr ||| Fld.log ||| Fld.out ||| Fld.irq ||| Fld.draws ||| Fld.tickets ||| Fld.rungs ||| Fld.rows ||| Fld.tiles ||| Fld.rungAt) s (State.tunitLost s gt begun) := by
  unfold State.tunitLost
  refine Keeps.cut s (Keeps.refl _ s) fun h0 => ?_
  refine Keeps.ite ?_ ?_
  · assumption
  · extract_lets -merge y0 y1 y2 y3 y4
    clear_value y0
    refine Keeps.cut (y1) ?_ fun h5 => ?_
    · unfold y1
      refine Keeps.step (State.setB_keeps ..) rfl ?_
      assumption
    clear_value y1
    refine Keeps.cut (y2) ?_ fun h6 => ?_
    · unfold y2
      refine Keeps.step (State.updTx_keeps ..) rfl ?_
      assumption
    clear_value y2 y3
    refine Keeps.cut (y4) ?_ fun h7 => ?_
    · unfold y4
      refine Keeps.foldl ?_ ?_
      · intro t8 x9 h10
        extract_lets -merge y11 y12
        clear_value y11
        refine Keeps.cut (y12) ?_ fun h13 => ?_
        · unfold y12
          refine Keeps.step (State.setTk_keeps ..) rfl ?_
          assumption
        clear_value y12
        refine Keeps.ite ?_ ?_
        · refine Keeps.step (State.invalidate_keeps ..) rfl ?_
          assumption
        · assumption
      assumption
    clear_value y4
    refine Keeps.step (State.raiseUnlock_keeps ..) rfl ?_
    assumption

theorem State.restoreRow_keeps (s gt r lv t catchUp) : Keeps (Fld.regs ||| Fld.hdr ||| Fld.log ||| Fld.out ||| Fld.irq ||| Fld.draws ||| Fld.rungs ||| Fld.rows ||| Fld.tiles ||| Fld.rungAt) s (State.restoreRow s gt r lv t catchUp) := by
  unfold State.restoreRow
  refine Keeps.cut s (Keeps.refl _ s) fun h0 => ?_
  extract_lets -merge y0 y1 y2 y3 y4 y5 y6
  clear_value y0 y1
  refine Keeps.cut (y3) ?_ fun h7 => ?_
  · unfold y3
    refine Keeps.step (State.setRow_keeps ..) rfl ?_
    assumption
  clear_value y3
  refine Keeps.cut (y4) ?_ fun h8 => ?_
  · unfold y4
    refine Keeps.step (State.setB_keeps ..) rfl ?_
    refine Keeps.step (State.updTx_keeps ..) rfl ?_
    assumption
  clear_value y4
  refine Keeps.cut (y5) ?_ fun h9 => ?_
  · unfold y5
    refine Keeps.ite ?_ ?_
    · refine Keeps.step (State.raiseI_keeps ..) rfl ?_
      refine Keeps.step (State.incSat_keeps ..) rfl ?_
      assumption
    · assumption
  clear_value y5
  refine Keeps.cut (y6) ?_ fun h10 => ?_
  · unfold y6
    refine Keeps.step (State.clearLate_keeps ..) rfl ?_
    refine Keeps.ite ?_ ?_
    · refine Keeps.step (State.caughtUp_keeps ..) rfl ?_
      assumption
    · assumption
  clear_value y6
  refine Keeps.step (State.advance_keeps ..) rfl ?_
  assumption

theorem execTilDecayed_keeps (gt s) : KeepsO (Fld.regs ||| Fld.hdr ||| Fld.log ||| Fld.out ||| Fld.irq ||| Fld.draws ||| Fld.rungs ||| Fld.rungAt) s (execTilDecayed gt s) := by
  unfold execTilDecayed
  refine KeepsO.cut s (Keeps.refl _ s) fun h0 => ?_
  refine KeepsO.next ?_
  refine Keeps.ite ?_ ?_
  · refine Keeps.step (State.raiseI_keeps ..) rfl ?_
    refine Keeps.step (State.setB_keeps ..) rfl ?_
    assumption
  · assumption

theorem execTilColmapDone_keeps (gt s) : KeepsO (Fld.regs ||| Fld.hdr ||| Fld.log ||| Fld.out ||| Fld.irq ||| Fld.draws ||| Fld.rungs ||| Fld.tiles ||| Fld.rungAt) s (execTilColmapDone gt s) := by
  unfold execTilColmapDone
  refine KeepsO.cut s (Keeps.refl _ s) fun h0 => ?_
  refine KeepsO.next ?_
  extract_lets -merge y0 y1 y2 y3
  clear_value y0 y1
  refine Keeps.cut (y2) ?_ fun h4 => ?_
  · unfold y2
    refine Keeps.step (State.updTx_keeps ..) rfl ?_
    assumption
  clear_value y2
  refine Keeps.cut (y3) ?_ fun h5 => ?_
  · unfold y3
    refine Keeps.step (State.setB_keeps ..) rfl ?_
    refine Keeps.step (State.setB_keeps ..) rfl ?_
    assumption
  clear_value y3
  refine Keeps.ite ?_ ?_
  · assumption
  · refine Keeps.step (State.raiseI_keeps ..) rfl ?_
    refine Keeps.step (State.setF_keeps ..) rfl ?_
    assumption

theorem State.startSense_keeps (s gt catchUp) : Keeps (Fld.regs ||| Fld.hdr ||| Fld.log ||| Fld.out ||| Fld.irq ||| Fld.draws ||| Fld.rungs ||| Fld.tiles ||| Fld.rungAt) s (State.startSense s gt catchUp) := by
  unfold State.startSense
  refine Keeps.cut s (Keeps.refl _ s) fun h0 => ?_
  refine Keeps.ite ?_ ?_
  · refine Keeps.step (State.updTx_keeps ..) rfl ?_
    assumption
  · extract_lets -merge y0
    refine Keeps.cut (y0) ?_ fun h1 => ?_
    · unfold y0
      refine Keeps.step (State.tileAct_keeps ..) rfl ?_
      refine Keeps.step (State.updTx_keeps ..) rfl ?_
      assumption
    clear_value y0
    refine Keeps.ite ?_ ?_
    · assumption
    · refine Keeps.step (State.raiseUnlock_keeps ..) rfl ?_
      assumption

theorem execTermStoreEcc_keeps (gt r s) : KeepsO (Fld.regs ||| Fld.hdr ||| Fld.log ||| Fld.out ||| Fld.irq ||| Fld.draws ||| Fld.rungs ||| Fld.rows ||| Fld.tiles ||| Fld.rungAt) s (execTermStoreEcc gt r s) := by
  unfold execTermStoreEcc
  refine KeepsO.cut s (Keeps.refl _ s) fun h0 => ?_
  refine KeepsO.next ?_
  refine Keeps.ite ?_ ?_
  · assumption
  · extract_lets -merge y0 y1 y2
    refine Keeps.cut (y0) ?_ fun h3 => ?_
    · unfold y0
      refine Keeps.step (State.invalidate_keeps ..) rfl ?_
      assumption
    clear_value y0
    refine Keeps.cut (y1) ?_ fun h4 => ?_
    · unfold y1
      refine Keeps.step (State.setReg_keeps ..) rfl ?_
      assumption
    clear_value y1
    refine Keeps.cut (y2) ?_ fun h5 => ?_
    · unfold y2
      refine Keeps.step (State.updTx_keeps ..) rfl ?_
      assumption
    clear_value y2
    refine Keeps.step (State.raiseI_keeps ..) rfl ?_
    assumption

theorem State.writeTrim_keeps (s gt i v) : Keeps (Fld.regs ||| Fld.hdr ||| Fld.log ||| Fld.out ||| Fld.irq ||| Fld.draws ||| Fld.rungs ||| Fld.trims ||| Fld.rungAt) s (State.writeTrim s gt i v) := by
  unfold State.writeTrim
  refine Keeps.cut s (Keeps.refl _ s) fun h0 => ?_
  extract_lets -merge y0 y1 y2
  clear_value y0 y1
  refine Keeps.ite ?_ ?_
  · refine Keeps.step (State.trimRefuse_keeps ..) rfl ?_
    assumption
  · refine Keeps.ite ?_ ?_
    · refine Keeps.step (State.trimRefuse_keeps ..) rfl ?_
      assumption
    · refine Keeps.ite ?_ ?_
      · refine Keeps.step (State.trimRefuse_keeps ..) rfl ?_
        assumption
      · refine Keeps.ite ?_ ?_
        · refine Keeps.ite ?_ ?_
          · unfold y2
            refine Keeps.step (State.setTrim_keeps ..) rfl ?_
            refine Keeps.step (State.setTrim_keeps ..) rfl ?_
            assumption
          · assumption
        · refine Keeps.ite ?_ ?_
          · refine Keeps.foldl ?_ ?_
            · intro t3 x4 h5
              refine Keeps.step (State.setTrim_keeps ..) rfl ?_
              assumption
            assumption
          · assumption

theorem execTrimWinWrite_keeps (rq gt i v s) : KeepsO (Fld.regs ||| Fld.hdr ||| Fld.heldWrites ||| Fld.log ||| Fld.out ||| Fld.irq ||| Fld.draws ||| Fld.rungs ||| Fld.trims ||| Fld.rungAt) s (execTrimWinWrite rq gt i v s) := by
  unfold execTrimWinWrite
  refine KeepsO.cut s (Keeps.refl _ s) fun h0 => ?_
  refine KeepsO.next ?_
  refine State.orHeld_hof ?_ rfl ?_
  · intro t0 x1
    refine Keeps.ite ?_ ?_
    · refine Keeps.step (State.writeTrim_keeps ..) rfl ?_
      assumption
    · assumption
  assumption

theorem execRefreshSlot_keeps (gt s) : KeepsO (Fld.regs ||| Fld.hdr ||| Fld.log ||| Fld.out ||| Fld.irq ||| Fld.draws ||| Fld.rungs ||| Fld.rows ||| Fld.tiles ||| Fld.rungAt) s (execRefreshSlot gt s) := by
  unfold execRefreshSlot
  refine KeepsO.cut s (Keeps.refl _ s) fun h0 => ?_
  refine KeepsO.next ?_
  extract_lets -merge y0
  clear_value y0
  refine Keeps.ite ?_ ?_
  · assumption
  · refine Keeps.ite ?_ ?_
    · refine Keeps.step (State.skipVisit_keeps ..) rfl ?_
      assumption
    · refine Keeps.step (State.startSense_keeps ..) rfl ?_
      assumption

theorem execTilRfshLate_keeps (gt s) : KeepsO (Fld.regs ||| Fld.hdr ||| Fld.log ||| Fld.out ||| Fld.irq ||| Fld.draws ||| Fld.rungs ||| Fld.tiles ||| Fld.rungAt) s (execTilRfshLate gt s) := by
  unfold execTilRfshLate
  refine KeepsO.cut s (Keeps.refl _ s) fun h0 => ?_
  refine KeepsO.next ?_
  split
  · rename_i a0 a1
    assumption
  · rename_i a2 a3 a4 a5
    refine Keeps.ite ?_ ?_
    · assumption
    · extract_lets -merge y6 y7
      refine Keeps.cut (y6) ?_ fun h8 => ?_
      · unfold y6
        refine Keeps.step (State.setB_keeps ..) rfl ?_
        assumption
      clear_value y6
      refine Keeps.cut (y7) ?_ fun h9 => ?_
      · unfold y7
        refine Keeps.step (State.updTx_keeps ..) rfl ?_
        assumption
      clear_value y7
      refine Keeps.step (State.raiseI_keeps ..) rfl ?_
      assumption

theorem execRowRefreshDone_keeps (gt codes s) : KeepsO (Fld.regs ||| Fld.hdr ||| Fld.log ||| Fld.out ||| Fld.irq ||| Fld.draws ||| Fld.rungs ||| Fld.rows ||| Fld.tiles ||| Fld.rungAt) s (execRowRefreshDone gt codes s) := by
  unfold execRowRefreshDone
  refine KeepsO.cut s (Keeps.refl _ s) fun h0 => ?_
  refine KeepsO.next ?_
  extract_lets -merge y0 y1 y2 y3 y4 y5 y6 y7 y8 y9 y10 y11 y12 y13
  clear_value y0 y1 y2
  refine Keeps.cut (y3) ?_ fun h14 => ?_
  · unfold y3
    refine Keeps.step (State.updTx_keeps ..) rfl ?_
    assumption
  clear_value y3 y4 y5
  refine Keeps.cut (y6) ?_ fun h15 => ?_
  · unfold y6
    refine Keeps.step (State.incSat_keeps ..) rfl ?_
    assumption
  clear_value y6
  refine Keeps.cut (y7) ?_ fun h16 => ?_
  · unfold y7
    refine Keeps.step (State.add64_keeps ..) rfl ?_
    assumption
  clear_value y7 y8
  refine Keeps.cut (y9) ?_ fun h17 => ?_
  · unfold y9
    refine Keeps.ite ?_ ?_
    · refine Keeps.step (State.raiseI_keeps ..) rfl ?_
      refine Keeps.step (State.incSat_keeps ..) rfl ?_
      assumption
    · assumption
  clear_value y9
  refine Keeps.cut (y10) ?_ fun h18 => ?_
  · unfold y10
    refine Keeps.step (State.setReg_keeps ..) rfl ?_
    refine Keeps.step (State.incSat_keeps ..) rfl ?_
    assumption
  clear_value y10
  refine Keeps.cut (y11) ?_ fun h19 => ?_
  · unfold y11
    refine Keeps.step (State.updTx_keeps ..) rfl ?_
    assumption
  clear_value y11
  refine Keeps.cut (y12) ?_ fun h20 => ?_
  · unfold y12
    refine Keeps.ite ?_ ?_
    · refine Keeps.step (State.advance_keeps ..) rfl ?_
      assumption
    · refine Keeps.ite ?_ ?_
      · refine Keeps.step (State.lostSlot_keeps ..) rfl ?_
        assumption
      · refine Keeps.ite ?_ ?_
        · refine Keeps.step (State.restoreRow_keeps ..) rfl ?_
          assumption
        · refine Keeps.ite ?_ ?_
          · refine Keeps.step (State.restoreRow_keeps ..) rfl ?_
            refine Keeps.step (State.raiseI_keeps ..) rfl ?_
            assumption
          · refine Keeps.step (State.lostSlot_keeps ..) rfl ?_
            refine Keeps.step (State.updTx_keeps ..) rfl ?_
            assumption
  clear_value y12
  refine Keeps.cut (y13) ?_ fun h21 => ?_
  · unfold y13
    refine Keeps.step (State.tileIdle_keeps ..) rfl ?_
    assumption
  clear_value y13
  refine Keeps.ite ?_ ?_
  · assumption
  · refine Keeps.ite ?_ ?_
    · refine Keeps.step (State.releaseNow_keeps ..) rfl ?_
      assumption
    · assumption

theorem execCopyPassRowOp_keeps (gt devs s) : KeepsO (Fld.regs ||| Fld.hdr ||| Fld.log ||| Fld.out ||| Fld.irq ||| Fld.draws ||| Fld.acct ||| Fld.rungs ||| Fld.rows ||| Fld.tiles ||| Fld.rungAt) s (execCopyPassRowOp gt devs s) := by
  unfold execCopyPassRowOp
  refine KeepsO.cut s (Keeps.refl _ s) fun h0 => ?_
  refine KeepsO.next ?_
  extract_lets -merge y0
  clear_value y0
  refine Keeps.ite ?_ ?_
  · assumption
  · split
    · rename_i a1 a2
      assumption
    · rename_i a3 a4 a5
      split
      · rename_i a6 a7
        assumption
      · rename_i a8 a9 a10
        refine Keeps.cut (a9) ?_ fun h11 => ?_
        · refine Keeps.step (State.grant_keeps a10) rfl ?_
          assumption
        refine Keeps.ite ?_ ?_
        · refine Keeps.step (State.raiseUnlock_keeps ..) rfl ?_
          assumption
        · refine Keeps.ite ?_ ?_
          · extract_lets -merge y12 y13
            clear_value y12
            refine Keeps.cut (y13) ?_ fun h14 => ?_
            · unfold y13
              refine Keeps.step (State.noteRead_keeps ..) rfl ?_
              assumption
            clear_value y13
            refine Keeps.ite ?_ ?_
            · refine Keeps.step (State.updTx_keeps ..) rfl ?_
              assumption
            · refine Keeps.ite ?_ ?_
              · refine Keeps.step (State.updTx_keeps ..) rfl ?_
                assumption
              · refine Keeps.step (State.updTx_keeps ..) rfl ?_
                refine Keeps.step (State.invalidate_keeps ..) rfl ?_
                assumption
          · refine Keeps.step (State.updTx_keeps ..) rfl ?_
            refine Keeps.step (State.rowWrite_keeps ..) rfl ?_
            assumption

theorem execCatchupRefresh_keeps (gt s) : KeepsO (Fld.regs ||| Fld.hdr ||| Fld.log ||| Fld.out ||| Fld.irq ||| Fld.draws ||| Fld.acct ||| Fld.rungs ||| Fld.rows ||| Fld.tiles ||| Fld.rungAt) s (execCatchupRefresh gt s) := by
  unfold execCatchupRefresh
  refine KeepsO.cut s (Keeps.refl _ s) fun h0 => ?_
  refine KeepsO.next ?_
  extract_lets -merge y0 y1
  clear_value y0 y1
  refine Keeps.ite ?_ ?_
  · assumption
  · refine Keeps.ite ?_ ?_
    · refine Keeps.step (State.skipVisit_keeps ..) rfl ?_
      refine Keeps.step (State.caughtUp_keeps ..) rfl ?_
      assumption
    · split
      · rename_i a2 a3 a4
        refine Keeps.cut (a3) ?_ fun h5 => ?_
        · refine Keeps.step (State.grant_keeps a4) rfl ?_
          assumption
        refine Keeps.step (State.startSense_keeps ..) rfl ?_
        assumption
      · rename_i a6 a7
        assumption

end Sys2Proof.Machine
end

