-- ==== Sys2Proof/Laws/Hold.lean ====
section
/-!
SUPPORT. What each function of Machine/Hold.lean may change, and that it keeps the invariant of State.
-/
set_option linter.unusedVariables false
namespace Sys2Proof.Machine

theorem State.updCal_keeps (s f) : Keeps (Fld.cal) s (State.updCal s f) := by
  unfold State.updCal
  refine Keeps.cut s (Keeps.refl _ s) fun h0 => ?_
  exact ((Keeps.set_cal _ h0 rfl) :)

theorem State.setVfy_keeps (s gt w v) : Keeps (Fld.cal) s (State.setVfy s gt w v) := by
  unfold State.setVfy
  refine Keeps.cut s (Keeps.refl _ s) fun h0 => ?_
  refine Keeps.step (State.updCal_keeps ..) rfl ?_
  assumption

theorem State.fenceReprog_keeps (s gt rel) : Keeps (Fld.regs ||| Fld.tiles ||| Fld.rplChecks) s (State.fenceReprog s gt rel) := by
  unfold State.fenceReprog
  refine Keeps.cut s (Keeps.refl _ s) fun h0 => ?_
  extract_lets -merge y0 y1 y2 y3 y4
  clear_value y0 y1
  refine Keeps.cut (y2) ?_ fun h5 => ?_
  · unfold y2
    refine Keeps.step (State.updTx_keeps ..) rfl ?_
    assumption
  clear_value y2
  refine Keeps.cut (y3) ?_ fun h6 => ?_
  · unfold y3
    refine Keeps.step (State.setF_keeps ..) rfl ?_
    assumption
  clear_value y3
  refine Keeps.cut (y4) ?_ fun h7 => ?_
  · unfold y4
    refine Keeps.ite ?_ ?_
    · assumption
    · exact ((Keeps.set_rplChecks _ h6 rfl) :)
  clear_value y4
  refine Keeps.ite ?_ ?_
  · refine Keeps.step (State.updTx_keeps ..) rfl ?_
    assumption
  · assumption

theorem State.testHold_keeps (s isl u on) : Keeps (Fld.regs ||| Fld.tests) s (State.testHold s isl u on) := by
  unfold State.testHold
  refine Keeps.cut s (Keeps.refl _ s) fun h0 => ?_
  extract_lets -merge y0 y1 y2
  clear_value y0
  refine Keeps.cut (y1) ?_ fun h3 => ?_
  · unfold y1
    refine Keeps.step (State.setTest_keeps ..) rfl ?_
    assumption
  clear_value y1
  refine Keeps.cut (y2) ?_ fun h4 => ?_
  · unfold y2
    refine Keeps.ite ?_ ?_
    · refine Keeps.step (State.setB_keeps ..) rfl ?_
      refine Keeps.step (State.setF_keeps ..) rfl ?_
      assumption
    · refine Keeps.ite ?_ ?_
      · refine Keeps.step (State.setB_keeps ..) rfl ?_
        refine Keeps.step (State.setF_keeps ..) rfl ?_
        assumption
      · refine Keeps.step (State.setB_keeps ..) rfl ?_
        assumption
  clear_value y2
  refine Keeps.step (State.setF_keeps ..) rfl ?_
  assumption

theorem State.calTileDone_keeps (s gt st) : Keeps (Fld.regs ||| Fld.rows ||| Fld.tiles ||| Fld.cal) s (State.calTileDone s gt st) := by
  unfold State.calTileDone
  refine Keeps.cut s (Keeps.refl _ s) fun h0 => ?_
  extract_lets -merge y0 y1 y2 y3 y4 y5 y6
  clear_value y1
  refine Keeps.cut (y2) ?_ fun h7 => ?_
  · unfold y2
    refine Keeps.step (State.updCal_keeps ..) rfl ?_
    assumption
  clear_value y2
  refine Keeps.cut (y3) ?_ fun h8 => ?_
  · unfold y3
    refine Keeps.step (State.updTx_keeps ..) rfl ?_
    assumption
  clear_value y3
  refine Keeps.cut (y4) ?_ fun h9 => ?_
  · unfold y4
    refine Keeps.step (State.setVfy_keeps ..) rfl ?_
    assumption
  clear_value y4
  refine Keeps.cut (y5) ?_ fun h10 => ?_
  · unfold y5
    refine Keeps.step (State.incWrapF_keeps ..) rfl ?_
    assumption
  clear_value y5
  refine Keeps.cut (y6) ?_ fun h11 => ?_
  · unfold y6
    refine Keeps.step (State.setB_keeps ..) rfl ?_
    assumption
  clear_value y6
  refine Keeps.ite ?_ ?_
  · refine Keeps.ite ?_ ?_
    · refine Keeps.step (State.release_keeps ..) rfl ?_
      assumption
    · assumption
  · assumption

theorem State.testAbort_keeps (s isl u fence) : Keeps (Fld.regs ||| Fld.tiles ||| Fld.tests) s (State.testAbort s isl u fence) := by
  unfold State.testAbort
  refine Keeps.cut s (Keeps.refl _ s) fun h0 => ?_
  refine Keeps.ite ?_ ?_
  · extract_lets -merge y0 y1 y2
    refine Keeps.cut (y0) ?_ fun h3 => ?_
    · unfold y0
      refine Keeps.step (State.testHold_keeps ..) rfl ?_
      assumption
    clear_value y0
    refine Keeps.cut (y1) ?_ fun h4 => ?_
    · unfold y1
      refine Keeps.ite ?_ ?_
      · refine Keeps.step (State.updTx_keeps ..) rfl ?_
        assumption
      · assumption
    clear_value y1 y2
    refine Keeps.step (State.setTest_keeps ..) rfl ?_
    assumption
  · assumption

theorem State.calAbortRun_keeps (s err) : Keeps (Fld.regs ||| Fld.hdr ||| Fld.log ||| Fld.out ||| Fld.irq ||| Fld.draws ||| Fld.rungs ||| Fld.rows ||| Fld.tiles ||| Fld.cal ||| Fld.rungAt) s (State.calAbortRun s err) := by
  unfold State.calAbortRun
  refine Keeps.cut s (Keeps.refl _ s) fun h0 => ?_
  refine Keeps.ite ?_ ?_
  · assumption
  · extract_lets -merge y0 y1 y2
    refine Keeps.cut (y0) ?_ fun h3 => ?_
    · unfold y0
      refine Keeps.foldl ?_ ?_
      · intro t4 x5 h6
        refine Keeps.step (State.calTileDone_keeps ..) rfl ?_
        assumption
      assumption
    clear_value y0
    refine Keeps.cut (y1) ?_ fun h7 => ?_
    · unfold y1
      refine Keeps.step (State.setF_keeps ..) rfl ?_
      refine Keeps.step (State.setF_keeps ..) rfl ?_
      assumption
    clear_value y1
    refine Keeps.cut (y2) ?_ fun h8 => ?_
    · unfold y2
      refine Keeps.step (State.updCal_keeps ..) rfl ?_
      assumption
    clear_value y2
    refine Keeps.step (State.raise_keeps ..) rfl ?_
    assumption

theorem State.calCheckDone_keeps (s) : Keeps (Fld.regs ||| Fld.hdr ||| Fld.log ||| Fld.out ||| Fld.irq ||| Fld.draws ||| Fld.rungs ||| Fld.cal ||| Fld.rungAt) s (State.calCheckDone s) := by
  unfold State.calCheckDone
  refine Keeps.cut s (Keeps.refl _ s) fun h0 => ?_
  refine Keeps.ite ?_ ?_
  · assumption
  · extract_lets -merge y0
    refine Keeps.cut (y0) ?_ fun h1 => ?_
    · unfold y0
      refine Keeps.step (State.raise_keeps ..) rfl ?_
      refine Keeps.step (State.setF_keeps ..) rfl ?_
      assumption
    clear_value y0
    refine Keeps.ite ?_ ?_
    · refine Keeps.step (State.updCal_keeps ..) rfl ?_
      assumption
    · assumption

theorem State.checkCalTemp_keeps (s gt) : Keeps (Fld.regs ||| Fld.hdr ||| Fld.log ||| Fld.out ||| Fld.irq ||| Fld.draws ||| Fld.rungs ||| Fld.rungAt) s (State.checkCalTemp s gt) := by
  unfold State.checkCalTemp
  refine Keeps.cut s (Keeps.refl _ s) fun h0 => ?_
  extract_lets -merge y0 y1 y2 y3 y4 y5 y6
  clear_value y0
  refine Keeps.cut (y1) ?_ fun h7 => ?_
  · unfold y1
    refine Keeps.step (State.setF_keeps ..) rfl ?_
    assumption
  clear_value y1 y2 y3 y4 y5
  refine Keeps.cut (y6) ?_ fun h8 => ?_
  · unfold y6
    refine Keeps.step (State.setB_keeps ..) rfl ?_
    assumption
  clear_value y6
  refine Keeps.ite ?_ ?_
  · refine Keeps.step (State.raiseI_keeps ..) rfl ?_
    assumption
  · assumption

theorem State.calFence_keeps (s gt) : Keeps (Fld.regs ||| Fld.hdr ||| Fld.log ||| Fld.out ||| Fld.irq ||| Fld.draws ||| Fld.rungs ||| Fld.rows ||| Fld.tiles ||| Fld.cal ||| Fld.rungAt) s (State.calFence s gt) := by
  unfold State.calFence
  refine Keeps.cut s (Keeps.refl _ s) fun h0 => ?_
  refine Keeps.ite ?_ ?_
  · refine Keeps.step (State.calCheckDone_keeps ..) rfl ?_
    refine Keeps.step (State.calTileDone_keeps ..) rfl ?_
    assumption
  · assumption

theorem State.lockLost_keeps (s gt begun) : Keeps (Fld.regs ||| Fld.hdr ||| Fld.log ||| Fld.out ||| Fld.irq ||| Fld.draws ||| Fld.tickets ||| Fld.rungs ||| Fld.rows ||| Fld.tiles ||| Fld.tests ||| Fld.rungAt) s (State.lockLost s gt begun) := by
  unfold State.lockLost
  refine Keeps.cut s (Keeps.refl _ s) fun h0 => ?_
  refine Keeps.ite ?_ ?_
  · refine Keeps.step (State.testAbort_keeps ..) rfl ?_
    refine Keeps.step (State.tunitLost_keeps ..) rfl ?_
    assumption
  · assumption

theorem State.onIslFence_keeps (s isl) : Keeps (Fld.regs ||| Fld.hdr ||| Fld.log ||| Fld.out ||| Fld.irq ||| Fld.draws ||| Fld.rungs ||| Fld.rows ||| Fld.tiles ||| Fld.tests ||| Fld.cal ||| Fld.rplChecks ||| Fld.rungAt) s (State.onIslFence s isl) := by
  unfold State.onIslFence
  refine Keeps.cut s (Keeps.refl _ s) fun h0 => ?_
  extract_lets -merge y0
  refine Keeps.cut (y0) ?_ fun h1 => ?_
  · unfold y0
    refine Keeps.foldl ?_ ?_
    · intro t2 x3 h4
      refine Keeps.step (State.testAbort_keeps ..) rfl ?_
      assumption
    assumption
  clear_value y0
  refine Keeps.foldl ?_ ?_
  · intro t5 x6 h7
    refine Keeps.step (State.fenceReprog_keeps ..) rfl ?_
    refine Keeps.step (State.calFence_keeps ..) rfl ?_
    refine Keeps.step (State.testAbort_keeps ..) rfl ?_
    assumption
  assumption

theorem State.onTileFence_keeps (s gt) : Keeps (Fld.regs ||| Fld.hdr ||| Fld.log ||| Fld.out ||| Fld.irq ||| Fld.draws ||| Fld.rungs ||| Fld.rows ||| Fld.tiles ||| Fld.tests ||| Fld.cal ||| Fld.rplChecks ||| Fld.rungAt) s (State.onTileFence s gt) := by
  unfold State.onTileFence
  refine Keeps.cut s (Keeps.refl _ s) fun h0 => ?_
  refine Keeps.step (State.fenceRelease_keeps ..) rfl ?_
  refine Keeps.step (State.fenceReprog_keeps ..) rfl ?_
  refine Keeps.step (State.calFence_keeps ..) rfl ?_
  refine Keeps.step (State.testAbort_keeps ..) rfl ?_
  assumption

theorem execTilTunitUnlock_keeps (gt begun s) : KeepsO (Fld.regs ||| Fld.hdr ||| Fld.log ||| Fld.out ||| Fld.irq ||| Fld.draws ||| Fld.tickets ||| Fld.rungs ||| Fld.rows ||| Fld.tiles ||| Fld.tests ||| Fld.rungAt) s (execTilTunitUnlock gt begun s) := by
  unfold execTilTunitUnlock
  refine KeepsO.cut s (Keeps.refl _ s) fun h0 => ?_
  refine KeepsO.next ?_
  refine Keeps.step (State.lockLost_keeps ..) rfl ?_
  assumption

end Sys2Proof.Machine
end

