-- ==== Sys2Proof/Laws/Lagoon.lean ====
section
/-!
SUPPORT. What each function of Machine/Lagoon.lean may change, and that it keeps the invariant of State.
-/
set_option linter.unusedVariables false
namespace Sys2Proof.Machine

theorem State.lagReturn_keeps (s isl u) : Keeps (Fld.regs) s (State.lagReturn s isl u) := by
  unfold State.lagReturn
  refine Keeps.cut s (Keeps.refl _ s) fun h0 => ?_
  extract_lets -merge y0
  clear_value y0
  refine Keeps.ite ?_ ?_
  · refine Keeps.step (State.setF_keeps ..) rfl ?_
    refine Keeps.step (State.setF_keeps ..) rfl ?_
    assumption
  · assumption

theorem State.lagClean_keeps (s isl u) : Keeps (Fld.regs ||| Fld.hdr ||| Fld.log ||| Fld.out ||| Fld.irq ||| Fld.draws ||| Fld.rungs ||| Fld.rungAt) s (State.lagClean s isl u) := by
  unfold State.lagClean
  refine Keeps.cut s (Keeps.refl _ s) fun h0 => ?_
  extract_lets -merge y0 y1 y2 y3 y4
  clear_value y0 y1 y2 y3
  refine Keeps.cut (y4) ?_ fun h5 => ?_
  · unfold y4
    refine Keeps.step (State.setB_keeps ..) rfl ?_
    refine Keeps.step (State.setReg_keeps ..) rfl ?_
    assumption
  clear_value y4
  refine Keeps.ite ?_ ?_
  · assumption
  · refine Keeps.ite ?_ ?_
    · refine Keeps.step (State.setF_keeps ..) rfl ?_
      assumption
    · refine Keeps.step (State.raiseI_keeps ..) rfl ?_
      assumption

theorem State.fenceChange_keeps (s ty inst) : Keeps (Fld.regs ||| Fld.hdr ||| Fld.log ||| Fld.out ||| Fld.irq ||| Fld.draws ||| Fld.rungs ||| Fld.rows ||| Fld.tiles ||| Fld.tests ||| Fld.cal ||| Fld.rplChecks ||| Fld.rungAt) s (State.fenceChange s ty inst) := by
  unfold State.fenceChange
  refine Keeps.cut s (Keeps.refl _ s) fun h0 => ?_
  extract_lets -merge y0 y1
  clear_value y0
  refine Keeps.cut (y1) ?_ fun h2 => ?_
  · unfold y1
    refine State.updHd_hof ?_ rfl ?_
    · exact fun _ _ hx => hx
    assumption
  clear_value y1
  refine Keeps.ite ?_ ?_
  · assumption
  · refine Keeps.ite ?_ ?_
    · split
      · rename_i a3
        refine Keeps.step (State.onTileFence_keeps ..) rfl ?_
        assumption
      · rename_i a4
        refine Keeps.step (State.onIslFence_keeps ..) rfl ?_
        assumption
      · rename_i a5
        refine Keeps.step (State.prtSync_keeps ..) rfl ?_
        refine Keeps.foldl ?_ ?_
        · intro t6 x7 h8
          refine Keeps.step (State.onIslFence_keeps ..) rfl ?_
          assumption
        assumption
      · rename_i a9 a10 a11 a12
        assumption
    · split
      · rename_i a13
        refine Keeps.step (State.lagReturn_keeps ..) rfl ?_
        assumption
      · rename_i a14
        refine Keeps.step (State.lagReturn_keeps ..) rfl ?_
        assumption
      · rename_i a15
        refine Keeps.step (State.prtSync_keeps ..) rfl ?_
        assumption
      · rename_i a16 a17 a18 a19
        assumption

theorem State.fenceUnit_keeps (s isl u reason) : Keeps (Fld.regs ||| Fld.hdr ||| Fld.log ||| Fld.out ||| Fld.irq ||| Fld.draws ||| Fld.rungs ||| Fld.rows ||| Fld.tiles ||| Fld.tests ||| Fld.cal ||| Fld.rplChecks ||| Fld.rungAt) s (State.fenceUnit s isl u reason) := by
  unfold State.fenceUnit
  refine Keeps.cut s (Keeps.refl _ s) fun h0 => ?_
  extract_lets -merge y0
  refine Keeps.cut (y0) ?_ fun h1 => ?_
  · unfold y0
    refine Keeps.ite ?_ ?_
    · refine Keeps.step (State.onTileFence_keeps ..) rfl ?_
      refine Keeps.step (State.fenceDp_keeps ..) rfl ?_
      assumption
    · refine Keeps.step (State.onIslFence_keeps ..) rfl ?_
      refine Keeps.step (State.fenceDp_keeps ..) rfl ?_
      assumption
  clear_value y0
  refine Keeps.step (State.raiseI_keeps ..) rfl ?_
  assumption

theorem State.fenceEdge_keeps (s) : Keeps (Fld.regs ||| Fld.hdr ||| Fld.fencing ||| Fld.log ||| Fld.out ||| Fld.irq ||| Fld.draws ||| Fld.rungs ||| Fld.rows ||| Fld.tiles ||| Fld.tests ||| Fld.cal ||| Fld.rplChecks ||| Fld.rungAt) s (State.fenceEdge s) := by
  unfold State.fenceEdge
  refine Keeps.cut s (Keeps.refl _ s) fun h0 => ?_
  refine Keeps.foldl ?_ ?_
  · intro t0 x1 h2
    refine Keeps.step (State.fenceChange_keeps ..) rfl ?_
    assumption
  exact ((Keeps.set_fencing _ h0 rfl) :)

theorem State.lagCheck_keeps (s isl u) : Keeps (Fld.regs ||| Fld.hdr ||| Fld.log ||| Fld.out ||| Fld.irq ||| Fld.draws ||| Fld.rungs ||| Fld.rows ||| Fld.tiles ||| Fld.tests ||| Fld.cal ||| Fld.rplChecks ||| Fld.rungAt) s (State.lagCheck s isl u) := by
  unfold State.lagCheck
  refine Keeps.cut s (Keeps.refl _ s) fun h0 => ?_
  refine Keeps.ite ?_ ?_
  · refine Keeps.step (State.fenceUnit_keeps ..) rfl ?_
    assumption
  · assumption

theorem State.lagEnter_keeps (s isl u cause fails) : Keeps (Fld.regs ||| Fld.hdr ||| Fld.log ||| Fld.out ||| Fld.irq ||| Fld.draws ||| Fld.rungs ||| Fld.rows ||| Fld.tiles ||| Fld.tests ||| Fld.cal ||| Fld.rplChecks ||| Fld.rungAt) s (State.lagEnter s isl u cause fails) := by
  unfold State.lagEnter
  refine Keeps.cut s (Keeps.refl _ s) fun h0 => ?_
  extract_lets -merge y0 y1 y2 y3
  clear_value y0
  refine Keeps.cut (y1) ?_ fun h4 => ?_
  · unfold y1
    refine Keeps.step (State.setF_keeps ..) rfl ?_
    assumption
  clear_value y1
  refine Keeps.cut (y2) ?_ fun h5 => ?_
  · unfold y2
    refine Keeps.step (State.setReg_keeps ..) rfl ?_
    assumption
  clear_value y2
  refine Keeps.cut (y3) ?_ fun h6 => ?_
  · unfold y3
    refine Keeps.step (State.setB_keeps ..) rfl ?_
    assumption
  clear_value y3
  refine Keeps.ite ?_ ?_
  · refine Keeps.step (State.lagCheck_keeps ..) rfl ?_
    refine Keeps.step (State.incSatF_keeps ..) rfl ?_
    assumption
  · refine Keeps.step (State.lagCheck_keeps ..) rfl ?_
    refine Keeps.step (State.raiseI_keeps ..) rfl ?_
    assumption

theorem State.persistence_keeps (s gt cause) : Keeps (Fld.regs ||| Fld.hdr ||| Fld.log ||| Fld.out ||| Fld.irq ||| Fld.draws ||| Fld.rungs ||| Fld.rows ||| Fld.tiles ||| Fld.tests ||| Fld.cal ||| Fld.rplChecks ||| Fld.rungAt) s (State.persistence s gt cause) := by
  unfold State.persistence
  refine Keeps.cut s (Keeps.refl _ s) fun h0 => ?_
  extract_lets -merge y0 y1 y2
  clear_value y0 y1
  refine Keeps.cut (y2) ?_ fun h3 => ?_
  · unfold y2
    refine Keeps.ite ?_ ?_
    · refine Keeps.step (State.lagEnter_keeps ..) rfl ?_
      assumption
    · assumption
  clear_value y2
  refine Keeps.ite ?_ ?_
  · assumption
  · refine Keeps.step (State.updTx_keeps ..) rfl ?_
    assumption

end Sys2Proof.Machine
end

