-- ==== Sys2Proof/Laws/Operands.lean ====
section
/-!
SUPPORT. What each function of Machine/Operands.lean may change, and that it keeps the invariant of State.
-/
set_option linter.unusedVariables false
namespace Sys2Proof.Machine

theorem State.writeRowAt_keeps (s isl ctx adr data t side) : Keeps (Fld.basin ||| Fld.lines) s (State.writeRowAt s isl ctx adr data t side).1 := by
  unfold State.writeRowAt
  refine Keeps.cut s (Keeps.refl _ s) fun h0 => ?_
  extract_lets -merge y0
  clear_value y0
  refine Keeps.step (State.writeBytes_keeps ..) rfl ?_
  assumption

end Sys2Proof.Machine
end

