-- ==== Sys2Proof/Laws/Weir.lean ====
section
/-!
SUPPORT. What each function of Machine/Weir.lean may change, and that it keeps the invariant of State.
-/
set_option linter.unusedVariables false
namespace Sys2Proof.Machine

theorem State.weirClear_keeps (s isl) : Keeps (Fld.regs) s (State.weirClear s isl) := by
  unfold State.weirClear
  refine Keeps.cut s (Keeps.refl _ s) fun h0 => ?_
  refine Keeps.foldl ?_ ?_
  · intro t0 x1 h2
    refine Keeps.step (State.setReg_keeps ..) rfl ?_
    assumption
  assumption

theorem State.weirAdd_keeps (s isl ctx launch reg n) : Keeps (Fld.regs) s (State.weirAdd s isl ctx launch reg n) := by
  unfold State.weirAdd
  refine Keeps.cut s (Keeps.refl _ s) fun h0 => ?_
  refine Keeps.ite ?_ ?_
  · refine Keeps.step (State.incSat_keeps ..) rfl ?_
    assumption
  · assumption

theorem State.weirRestart_keeps (s isl) : Keeps (Fld.regs ||| Fld.weir) s (State.weirRestart s isl) := by
  unfold State.weirRestart
  refine Keeps.cut s (Keeps.refl _ s) fun h0 => ?_
  extract_lets -merge y0 y1 y2
  refine Keeps.cut (y0) ?_ fun h3 => ?_
  · unfold y0
    refine Keeps.step (State.weirClear_keeps ..) rfl ?_
    assumption
  clear_value y0 y1 y2
  exact ((Keeps.set_weir _ h3 rfl) :)

theorem State.weirPhase_keeps (s isl t ctx launch p counts) : Keeps (Fld.regs) s (State.weirPhase s isl t ctx launch p counts) := by
  unfold State.weirPhase
  refine Keeps.cut s (Keeps.refl _ s) fun h0 => ?_
  extract_lets -merge y0
  refine Keeps.cut (y0) ?_ fun h1 => ?_
  · unfold y0
    refine Keeps.step (State.weirAdd_keeps ..) rfl ?_
    assumption
  clear_value y0
  refine Keeps.foldl ?_ ?_
  · intro t2 x3 h4
    refine Keeps.step (State.weirAdd_keeps ..) rfl ?_
    assumption
  assumption

theorem State.weirPulse_keeps (s isl t ctx launch top counts) : Keeps (Fld.regs) s (State.weirPulse s isl t ctx launch top counts) := by
  unfold State.weirPulse
  refine Keeps.cut s (Keeps.refl _ s) fun h0 => ?_
  extract_lets -merge y0
  refine Keeps.cut (y0) ?_ fun h1 => ?_
  · unfold y0
    refine Keeps.step (State.weirAdd_keeps ..) rfl ?_
    assumption
  clear_value y0
  refine Keeps.foldl ?_ ?_
  · intro t2 x3 h4
    refine Keeps.step (State.weirAdd_keeps ..) rfl ?_
    assumption
  assumption

theorem State.writeWeirCtl_keeps (s isl v) : Keeps (Fld.regs ||| Fld.weir) s (State.writeWeirCtl s isl v) := by
  unfold State.writeWeirCtl
  refine Keeps.cut s (Keeps.refl _ s) fun h0 => ?_
  extract_lets -merge y0 y1 y2 y3
  clear_value y0 y1 y2
  refine Keeps.cut (y3) ?_ fun h4 => ?_
  · unfold y3
    refine Keeps.step (State.setReg_keeps ..) rfl ?_
    assumption
  clear_value y3
  refine Keeps.ite ?_ ?_
  · refine Keeps.step (State.weirRestart_keeps ..) rfl ?_
    assumption
  · assumption

theorem execWeirCtlWrite_keeps (rq isl v s) : KeepsO (Fld.regs ||| Fld.heldWrites ||| Fld.weir) s (execWeirCtlWrite rq isl v s) := by
  unfold execWeirCtlWrite
  refine KeepsO.cut s (Keeps.refl _ s) fun h0 => ?_
  refine KeepsO.next ?_
  refine State.orHeld_hof ?_ rfl ?_
  · intro t0 x1
    split
    · rename_i a2 a3
      refine Keeps.ite ?_ ?_
      · refine Keeps.step (State.writeWeirCtl_keeps ..) rfl ?_
        assumption
      · assumption
    · rename_i a4 a5
      refine Keeps.step (State.writeWeirCtl_keeps ..) rfl ?_
      assumption
    · rename_i a6
      refine Keeps.step (State.writeWeirCtl_keeps ..) rfl ?_
      assumption
    · rename_i a7
      assumption
  assumption

theorem State.raiseIsl_keeps (s isl n pl ctx) : Keeps (Fld.regs ||| Fld.hdr ||| Fld.log ||| Fld.out ||| Fld.irq ||| Fld.draws ||| Fld.rungs ||| Fld.rungAt) s (State.raiseIsl s isl n pl ctx) := by
  unfold State.raiseIsl
  refine Keeps.cut s (Keeps.refl _ s) fun h0 => ?_
  refine Keeps.step (State.raiseC_keeps ..) rfl ?_
  assumption

theorem State.noteLost_keeps (s isl ctx launch tile lost) : Keeps (Fld.regs ||| Fld.hdr ||| Fld.log ||| Fld.out ||| Fld.irq ||| Fld.draws ||| Fld.rungs ||| Fld.rungAt) s (State.noteLost s isl ctx launch tile lost) := by
  unfold State.noteLost
  refine Keeps.cut s (Keeps.refl _ s) fun h0 => ?_
  split
  · rename_i a0
    assumption
  · rename_i a1 a2 a3
    extract_lets -merge y4
    refine Keeps.cut (y4) ?_ fun h5 => ?_
    · unfold y4
      refine Keeps.step (State.weirAdd_keeps ..) rfl ?_
      assumption
    clear_value y4
    refine Keeps.step (State.raiseIsl_keeps ..) rfl ?_
    assumption

theorem State.weirLatch_keeps (s isl) : Keeps (Fld.regs ||| Fld.hdr ||| Fld.log ||| Fld.out ||| Fld.irq ||| Fld.draws ||| Fld.rungs ||| Fld.tests ||| Fld.rungAt) s (State.weirLatch s isl) := by
  unfold State.weirLatch
  refine Keeps.cut s (Keeps.refl _ s) fun h0 => ?_
  extract_lets -merge y0 y1 y2 y3 y4 y5 y6 y7 y8 y9 y10 y11 y12
  clear_value y0
  refine Keeps.cut (y1) ?_ fun h13 => ?_
  · unfold y1
    refine Keeps.foldl ?_ ?_
    · intro t14 x15 h16
      refine Keeps.step (State.setReg_keeps ..) rfl ?_
      refine Keeps.step (State.setReg_keeps ..) rfl ?_
      assumption
    assumption
  clear_value y1
  refine Keeps.cut (y2) ?_ fun h17 => ?_
  · unfold y2
    refine Keeps.step (State.set64_keeps ..) rfl ?_
    assumption
  clear_value y2 y3 y4
  refine Keeps.cut (y5) ?_ fun h18 => ?_
  · unfold y5
    refine Keeps.foldl ?_ ?_
    · intro t19 x20 h21
      refine Keeps.step (State.setReg_keeps ..) rfl ?_
      assumption
    assumption
  clear_value y5 y6 y7 y8
  refine Keeps.cut (y9) ?_ fun h22 => ?_
  · unfold y9
    refine Keeps.step (State.setF_keeps ..) rfl ?_
    assumption
  clear_value y9
  refine Keeps.cut (y10) ?_ fun h23 => ?_
  · unfold y10
    refine Keeps.step (State.bumpSeq_keeps ..) rfl ?_
    refine Keeps.step (State.incWrapF_keeps ..) rfl ?_
    assumption
  clear_value y10
  refine Keeps.cut (y11) ?_ fun h24 => ?_
  · unfold y11
    split
    · rename_i a25
      assumption
    · rename_i a26 a27 a28
      refine Keeps.step (State.raiseI_keeps ..) rfl ?_
      assumption
  clear_value y11
  refine Keeps.cut (y12) ?_ fun h29 => ?_
  · unfold y12
    refine Keeps.ite ?_ ?_
    · refine Keeps.step (State.raiseI_keeps ..) rfl ?_
      assumption
    · assumption
  clear_value y12
  refine Keeps.ite ?_ ?_
  · refine Keeps.step (State.trigTest_keeps ..) rfl ?_
    assumption
  · assumption

theorem State.noteListBad_keeps (s isl ctx tile cause cnt) : Keeps (Fld.regs ||| Fld.hdr ||| Fld.log ||| Fld.out ||| Fld.irq ||| Fld.draws ||| Fld.rungs ||| Fld.rungAt) s (State.noteListBad s isl ctx tile cause cnt) := by
  unfold State.noteListBad
  refine Keeps.cut s (Keeps.refl _ s) fun h0 => ?_
  extract_lets -merge y0
  refine Keeps.cut (y0) ?_ fun h1 => ?_
  · unfold y0
    refine Keeps.ite ?_ ?_
    · refine Keeps.step (State.incSat_keeps ..) rfl ?_
      assumption
    · assumption
  clear_value y0
  refine Keeps.step (State.raiseIsl_keeps ..) rfl ?_
  assumption

theorem execWeirWindowEnd_keeps (isl s) : KeepsO (Fld.regs ||| Fld.hdr ||| Fld.log ||| Fld.out ||| Fld.irq ||| Fld.draws ||| Fld.rungs ||| Fld.weir ||| Fld.tests ||| Fld.rungAt) s (execWeirWindowEnd isl s) := by
  unfold execWeirWindowEnd
  refine KeepsO.cut s (Keeps.refl _ s) fun h0 => ?_
  refine KeepsO.next ?_
  extract_lets -merge y0 y1 y2
  clear_value y0 y1
  refine Keeps.cut (y2) ?_ fun h3 => ?_
  · unfold y2
    exact ((Keeps.set_weir _ h0 rfl) :)
  clear_value y2
  refine Keeps.ite ?_ ?_
  · assumption
  · refine Keeps.ite ?_ ?_
    · assumption
    · refine Keeps.step (State.weirLatch_keeps ..) rfl ?_
      assumption

end Sys2Proof.Machine
end

