-- ==== Sys2Proof/Laws/Pulse.lean ====
section
/-!
SUPPORT. What each function of Machine/Pulse.lean may change, and that it keeps the invariant of State.
-/
set_option linter.unusedVariables false
namespace Sys2Proof.Machine

theorem State.ackSpill_keeps (s k t) : Keeps (Fld.acks) s (State.ackSpill s k t) := by
  unfold State.ackSpill
  refine Keeps.cut s (Keeps.refl _ s) fun h0 => ?_
  extract_lets -merge y0
  exact ((Keeps.set_acks _ h0 rfl) :)

theorem execFountainExpand_keeps (isl idx s) : KeepsO (Fld.tickets) s (execFountainExpand isl idx s) := by
  unfold execFountainExpand
  refine KeepsO.cut s (Keeps.refl _ s) fun h0 => ?_
  refine KeepsO.next ?_
  extract_lets -merge y0 y1
  clear_value y0 y1
  refine Keeps.ite ?_ ?_
  · assumption
  · refine Keeps.step (State.setTk_keeps ..) rfl ?_
    assumption

theorem execSpillRowRead_keeps (gt devs s) : KeepsO (Fld.regs ||| Fld.hdr ||| Fld.log ||| Fld.out ||| Fld.irq ||| Fld.draws ||| Fld.tickets ||| Fld.acct ||| Fld.rungs ||| Fld.rungAt) s (execSpillRowRead gt devs s) := by
  unfold execSpillRowRead
  refine KeepsO.cut s (Keeps.refl _ s) fun h0 => ?_
  refine KeepsO.next ?_
  split
  · rename_i a0 a1
    assumption
  · rename_i a2 a3 a4 a5
    extract_lets -merge y6 y7 y8 y9
    clear_value y6 y7 y8 y9
    refine Keeps.ite ?_ ?_
    · assumption
    · split
      · rename_i a10 a11
        assumption
      · rename_i a12 a13 a14
        split
        · rename_i a15 a16
          assumption
        · rename_i a17 a18 a19
          refine Keeps.cut (a18) ?_ fun h20 => ?_
          · refine Keeps.step (State.grantUnless_keeps a19) rfl ?_
            assumption
          extract_lets -merge y21 y22 y23
          clear_value y21 y22
          refine Keeps.cut (y23) ?_ fun h24 => ?_
          · unfold y23
            refine Keeps.step (State.noteLive_keeps ..) rfl ?_
            refine Keeps.step (State.setTk_keeps ..) rfl ?_
            assumption
          clear_value y23
          refine Keeps.ite ?_ ?_
          · assumption
          · refine Keeps.ite ?_ ?_
            · refine Keeps.step (State.raiseUnlock_keeps ..) rfl ?_
              refine Keeps.step (State.tileAct_keeps ..) rfl ?_
              assumption
            · refine Keeps.step (State.noteRead_keeps ..) rfl ?_
              refine Keeps.step (State.tileAct_keeps ..) rfl ?_
              assumption

theorem State.launchAndRun_hof {m : Nat} {s u : State} {isl idx : Nat} {p : Ticket → Bool} {f : State → Nat → Ticket → State}
    (hf : ∀ t k x, Keeps m s t → Keeps m s (f t k x)) (hm : Fld.sub (Fld.regs ||| Fld.hdr ||| Fld.log ||| Fld.out ||| Fld.irq ||| Fld.draws ||| Fld.tickets ||| Fld.acct ||| Fld.rungs ||| Fld.rungAt) m = true) (h : Keeps m s u) :
    Keeps m s (u.launchAndRun isl idx p f) := by
  have h1 : Keeps m s (u.tryLaunch (isl * 256 + idx)) := Keeps.step (State.tryLaunch_keeps ..) hm h
  exact Keeps.ite h (Keeps.ite h1 (hf _ _ _ h1))

theorem State.noteUse_keeps (s isl ctx j faults poison) : Keeps (Fld.regs ||| Fld.hdr ||| Fld.log ||| Fld.out ||| Fld.irq ||| Fld.draws ||| Fld.leases ||| Fld.tickets ||| Fld.jobs ||| Fld.ctxs ||| Fld.rungs ||| Fld.imports ||| Fld.ends ||| Fld.rungAt) s (State.noteUse s isl ctx j faults poison) := by
  unfold State.noteUse
  refine Keeps.cut s (Keeps.refl _ s) fun h0 => ?_
  extract_lets -merge y0
  refine Keeps.cut (y0) ?_ fun h1 => ?_
  · unfold y0
    refine Keeps.foldl ?_ ?_
    · intro t2 x3 h4
      refine Keeps.ite ?_ ?_
      · assumption
      · refine Keeps.step (State.failStep_keeps ..) rfl ?_
        refine Keeps.step (State.noteForeign_keeps ..) rfl ?_
        assumption
    assumption
  clear_value y0
  refine Keeps.ite ?_ ?_
  · refine Keeps.step (State.consumePoison_keeps ..) rfl ?_
    assumption
  · assumption

theorem execRowioWrite_keeps (isl idx s) : KeepsO (Fld.regs ||| Fld.hdr ||| Fld.log ||| Fld.out ||| Fld.irq ||| Fld.draws ||| Fld.leases ||| Fld.tickets ||| Fld.jobs ||| Fld.acct ||| Fld.ctxs ||| Fld.rungs ||| Fld.imports ||| Fld.ends ||| Fld.rungAt) s (execRowioWrite isl idx s) := by
  unfold execRowioWrite
  refine KeepsO.cut s (Keeps.refl _ s) fun h0 => ?_
  refine KeepsO.next ?_
  refine State.launchAndRun_hof ?_ rfl ?_
  · intro t0 x1 x2 x3
    extract_lets -merge y4 y5 y6 y7 y8 y9 y10
    clear_value y4
    refine Keeps.cut (y5) ?_ fun h11 => ?_
    · unfold y5
      refine Keeps.step (State.tileAct_keeps ..) rfl ?_
      assumption
    clear_value y5 y6
    refine Keeps.cut (y7) ?_ fun h12 => ?_
    · unfold y7
      refine Keeps.step (State.noteUse_keeps ..) rfl ?_
      assumption
    clear_value y7 y8 y9 y10
    refine Keeps.ite ?_ ?_
    · refine Keeps.step (State.raiseUnlock_keeps ..) rfl ?_
      refine Keeps.step (State.setTk_keeps ..) rfl ?_
      assumption
    · refine Keeps.ite ?_ ?_
      · refine Keeps.step (State.incSat_keeps ..) rfl ?_
        refine Keeps.step (State.setTk_keeps ..) rfl ?_
        assumption
      · refine Keeps.step (State.setTk_keeps ..) rfl ?_
        assumption
  assumption

theorem State.noteExpand_keeps (s isl t e) : Keeps (Fld.regs ||| Fld.hdr ||| Fld.log ||| Fld.out ||| Fld.irq ||| Fld.draws ||| Fld.leases ||| Fld.tickets ||| Fld.jobs ||| Fld.ctxs ||| Fld.rungs ||| Fld.imports ||| Fld.ends ||| Fld.rungAt) s (State.noteExpand s isl t e) := by
  unfold State.noteExpand
  refine Keeps.cut s (Keeps.refl _ s) fun h0 => ?_
  extract_lets -merge y0 y1
  refine Keeps.cut (y0) ?_ fun h2 => ?_
  · unfold y0
    refine Keeps.step (State.noteUse_keeps ..) rfl ?_
    assumption
  clear_value y0
  refine Keeps.cut (y1) ?_ fun h3 => ?_
  · unfold y1
    refine Keeps.ite ?_ ?_
    · assumption
    · refine Keeps.step (State.noteListBad_keeps ..) rfl ?_
      assumption
  clear_value y1
  refine Keeps.ite ?_ ?_
  · assumption
  · refine Keeps.step (State.weirAdd_keeps ..) rfl ?_
    assumption

theorem execRowioRead_keeps (isl idx devs s) : KeepsO (Fld.regs ||| Fld.hdr ||| Fld.log ||| Fld.out ||| Fld.irq ||| Fld.draws ||| Fld.tickets ||| Fld.acct ||| Fld.rungs ||| Fld.rungAt) s (execRowioRead isl idx devs s) := by
  unfold execRowioRead
  refine KeepsO.cut s (Keeps.refl _ s) fun h0 => ?_
  refine KeepsO.next ?_
  refine State.launchAndRun_hof ?_ rfl ?_
  · intro t0 x1 x2 x3
    extract_lets -merge y4 y5 y6 y7
    clear_value y4
    refine Keeps.cut (y5) ?_ fun h8 => ?_
    · unfold y5
      refine Keeps.step (State.tileAct_keeps ..) rfl ?_
      assumption
    clear_value y5
    refine Keeps.cut (y6) ?_ fun h9 => ?_
    · unfold y6
      refine Keeps.step (State.setF_keeps ..) rfl ?_
      refine Keeps.step (State.setF_keeps ..) rfl ?_
      assumption
    clear_value y6 y7
    refine Keeps.ite ?_ ?_
    · refine Keeps.step (State.raiseUnlock_keeps ..) rfl ?_
      refine Keeps.step (State.setTk_keeps ..) rfl ?_
      assumption
    · refine Keeps.step (State.noteRead_keeps ..) rfl ?_
      refine Keeps.step (State.setTk_keeps ..) rfl ?_
      assumption
  assumption

theorem State.runPulse_keeps (s k t errs) : Keeps (Fld.regs ||| Fld.hdr ||| Fld.log ||| Fld.out ||| Fld.irq ||| Fld.draws ||| Fld.leases ||| Fld.tickets ||| Fld.jobs ||| Fld.ctxs ||| Fld.rungs ||| Fld.imports ||| Fld.ends ||| Fld.rungAt) s (State.runPulse s k t errs) := by
  unfold State.runPulse
  refine Keeps.cut s (Keeps.refl _ s) fun h0 => ?_
  extract_lets -merge y0 y1 y2 y3 y4 y5 y6 y7 y8 y9
  clear_value y0 y1 y2
  refine Keeps.cut (y4) ?_ fun h10 => ?_
  · unfold y4
    refine Keeps.ite ?_ ?_
    · assumption
    · refine Keeps.step (State.noteExpand_keeps ..) rfl ?_
      assumption
  clear_value y4
  refine Keeps.cut (y6) ?_ fun h11 => ?_
  · unfold y6
    refine Keeps.step (State.tileAct_keeps ..) rfl ?_
    assumption
  clear_value y6 y7
  refine Keeps.cut (y8) ?_ fun h12 => ?_
  · unfold y8
    refine Keeps.step (State.incSat_keeps ..) rfl ?_
    assumption
  clear_value y8
  refine Keeps.cut (y9) ?_ fun h13 => ?_
  · unfold y9
    refine Keeps.ite ?_ ?_
    · assumption
    · refine Keeps.step (State.raiseC_keeps ..) rfl ?_
      assumption
  clear_value y9
  refine Keeps.ite ?_ ?_
  · refine Keeps.step (State.setTk_keeps ..) rfl ?_
    assumption
  · refine Keeps.ite ?_ ?_
    · refine Keeps.step (State.raiseUnlock_keeps ..) rfl ?_
      refine Keeps.step (State.setTk_keeps ..) rfl ?_
      assumption
    · refine Keeps.ite ?_ ?_
      · refine Keeps.step (State.setTk_keeps ..) rfl ?_
        assumption
      · refine Keeps.step (State.setTk_keeps ..) rfl ?_
        assumption

theorem State.ackRowRead_keeps (s k t) : Keeps (Fld.regs ||| Fld.hdr ||| Fld.log ||| Fld.out ||| Fld.irq ||| Fld.draws ||| Fld.leases ||| Fld.tickets ||| Fld.jobs ||| Fld.ctxs ||| Fld.basin ||| Fld.lines ||| Fld.rungs ||| Fld.imports ||| Fld.ends ||| Fld.rungAt) s (State.ackRowRead s k t) := by
  unfold State.ackRowRead
  refine Keeps.cut s (Keeps.refl _ s) fun h0 => ?_
  extract_lets -merge y0
  clear_value y0
  split
  · rename_i a1 a2 a3 a4
    refine Keeps.cut (a2) ?_ fun h5 => ?_
    · refine Keeps.of_fst a4 ?_
      refine Keeps.step (State.writeBytes_keeps ..) rfl ?_
      assumption
    refine Keeps.step (State.noteUse_keeps ..) rfl ?_
    assumption

theorem State.ackTile_keeps (s k t) : Keeps (Fld.regs ||| Fld.hdr ||| Fld.log ||| Fld.out ||| Fld.irq ||| Fld.draws ||| Fld.leases ||| Fld.tickets ||| Fld.acks ||| Fld.jobs ||| Fld.ctxs ||| Fld.basin ||| Fld.lines ||| Fld.rungs ||| Fld.rows ||| Fld.tiles ||| Fld.imports ||| Fld.ends ||| Fld.rungAt) s (State.ackTile s k t) := by
  unfold State.ackTile
  refine Keeps.cut s (Keeps.refl _ s) fun h0 => ?_
  extract_lets -merge y0 y1 y2 y3 y4 y5 y6
  clear_value y0
  refine Keeps.cut (y1) ?_ fun h7 => ?_
  · unfold y1
    refine Keeps.ite ?_ ?_
    · assumption
    · refine Keeps.step (State.tileIdle_keeps ..) rfl ?_
      assumption
  clear_value y1
  refine Keeps.cut (y3) ?_ fun h8 => ?_
  · unfold y3
    refine Keeps.ite ?_ ?_
    · refine Keeps.step (State.add64_keeps ..) rfl ?_
      assumption
    · assumption
  clear_value y3
  refine Keeps.cut (y4) ?_ fun h9 => ?_
  · unfold y4
    refine Keeps.ite ?_ ?_
    · refine Keeps.step (State.setReg_keeps ..) rfl ?_
      assumption
    · assumption
  clear_value y4
  refine Keeps.cut (y5) ?_ fun h10 => ?_
  · unfold y5
    refine Keeps.ite ?_ ?_
    · refine Keeps.step (State.updTx_keeps ..) rfl ?_
      assumption
    · assumption
  clear_value y5
  refine Keeps.cut (y6) ?_ fun h11 => ?_
  · unfold y6
    split
    · rename_i a12 a13
      refine Keeps.step (State.ackSpill_keeps ..) rfl ?_
      assumption
    · rename_i a14 a15
      refine Keeps.ite ?_ ?_
      · assumption
      · refine Keeps.step (State.ackRowRead_keeps ..) rfl ?_
        assumption
    · rename_i a16 a17
      refine Keeps.ite ?_ ?_
      · assumption
      · refine Keeps.step (State.rowWrite_keeps ..) rfl ?_
        assumption
    · rename_i a18 a19
      assumption
    · rename_i a20 a21
      assumption
    · rename_i a22 a23 a24 a25 a26 a27
      refine Keeps.ite ?_ ?_
      · assumption
      · exact ((Keeps.set_acks _ h10 rfl) :)
  clear_value y6
  refine Keeps.ite ?_ ?_
  · refine Keeps.step (State.releaseNow_keeps ..) rfl ?_
    assumption
  · assumption

theorem execTransposePhase_keeps (isl idx errs s) : KeepsO (Fld.regs ||| Fld.hdr ||| Fld.log ||| Fld.out ||| Fld.irq ||| Fld.draws ||| Fld.leases ||| Fld.tickets ||| Fld.jobs ||| Fld.acct ||| Fld.ctxs ||| Fld.rungs ||| Fld.imports ||| Fld.ends ||| Fld.rungAt) s (execTransposePhase isl idx errs s) := by
  unfold execTransposePhase
  refine KeepsO.cut s (Keeps.refl _ s) fun h0 => ?_
  refine KeepsO.next ?_
  refine State.launchAndRun_hof ?_ rfl ?_
  · intro t0 x1 x2 x3
    extract_lets -merge y4 y5
    refine Keeps.cut (y4) ?_ fun h6 => ?_
    · unfold y4
      refine Keeps.step (State.runPulse_keeps ..) rfl ?_
      assumption
    clear_value y4 y5
    refine Keeps.step (State.mapTk_keeps ..) rfl ?_
    assumption
  assumption

theorem execStandardPulse_keeps (isl idx errs s) : KeepsO (Fld.regs ||| Fld.hdr ||| Fld.log ||| Fld.out ||| Fld.irq ||| Fld.draws ||| Fld.leases ||| Fld.tickets ||| Fld.jobs ||| Fld.acct ||| Fld.ctxs ||| Fld.rungs ||| Fld.imports ||| Fld.ends ||| Fld.rungAt) s (execStandardPulse isl idx errs s) := by
  unfold execStandardPulse
  refine KeepsO.cut s (Keeps.refl _ s) fun h0 => ?_
  refine KeepsO.next ?_
  refine State.launchAndRun_hof ?_ rfl ?_
  · intro t0 x1 x2 x3
    refine Keeps.step (State.runPulse_keeps ..) rfl ?_
    assumption
  assumption

theorem execExtendedPulse_keeps (isl idx errs s) : KeepsO (Fld.regs ||| Fld.hdr ||| Fld.log ||| Fld.out ||| Fld.irq ||| Fld.draws ||| Fld.leases ||| Fld.tickets ||| Fld.jobs ||| Fld.acct ||| Fld.ctxs ||| Fld.rungs ||| Fld.imports ||| Fld.ends ||| Fld.rungAt) s (execExtendedPulse isl idx errs s) := by
  unfold execExtendedPulse
  refine KeepsO.cut s (Keeps.refl _ s) fun h0 => ?_
  refine KeepsO.next ?_
  refine State.launchAndRun_hof ?_ rfl ?_
  · intro t0 x1 x2 x3
    refine Keeps.step (State.runPulse_keeps ..) rfl ?_
    assumption
  assumption

end Sys2Proof.Machine
end

