-- ==== Sys2Proof/Laws/Rill.lean ====
section
/-!
SUPPORT. What each function of Machine/Rill.lean may change, and that it keeps the invariant of State.
-/
set_option linter.unusedVariables false
namespace Sys2Proof.Machine

theorem execRepeatPulse_keeps (isl s) : KeepsO (Fld.regs ||| Fld.tickets ||| Fld.acks) s (execRepeatPulse isl s) := by
  unfold execRepeatPulse
  refine KeepsO.cut s (Keeps.refl _ s) fun h0 => ?_
  refine KeepsO.next ?_
  split
  · rename_i a0 a1
    assumption
  · rename_i a2 a3 a4
    extract_lets -merge y5 y6 y7 y8 y9
    clear_value y5 y6 y8
    refine Keeps.cut (y9) ?_ fun h10 => ?_
    · unfold y9
      exact ((Keeps.set_acks _ h0 rfl) :)
    clear_value y9
    split
    · rename_i a11 a12 a13 a14 a15 a16 a17 a18
      refine Keeps.ite ?_ ?_
      · exact ((Keeps.set_acks _ h0 rfl) :)
      · extract_lets -merge y19 y20 y21 y22
        clear_value y19 y20
        refine Keeps.cut (y21) ?_ fun h23 => ?_
        · unfold y21
          refine Keeps.step (State.setTk_keeps ..) rfl ?_
          refine Keeps.step (State.setTk_keeps ..) rfl ?_
          assumption
        clear_value y21
        refine Keeps.cut (y22) ?_ fun h24 => ?_
        · unfold y22
          refine Keeps.step (State.mapTk_keeps ..) rfl ?_
          assumption
        clear_value y22
        refine Keeps.step (State.noteLive_keeps ..) rfl ?_
        assumption
    · rename_i a25 a26 a27 a28
      assumption

theorem State.askRepeat_keeps (s k t a) : Keeps (Fld.tickets ||| Fld.acks ||| Fld.nextRep) s (State.askRepeat s k t a) := by
  unfold State.askRepeat
  refine Keeps.cut s (Keeps.refl _ s) fun h0 => ?_
  extract_lets -merge y0 y1 y2 y3
  clear_value y0
  refine Keeps.cut (y1) ?_ fun h4 => ?_
  · unfold y1
    exact Keeps.step0 (n := Fld.acks ||| Fld.nextRep) h0 rfl (by constructor <;> first | exact fun e => absurd e (by decide) | exact fun _ => rfl) fun i => ⟨i.1, i.2.1, i.2.2.1, i.2.2.2⟩
  clear_value y1
  refine Keeps.cut (y2) ?_ fun h5 => ?_
  · unfold y2
    refine Keeps.step (State.mapTk_keeps ..) rfl ?_
    assumption
  clear_value y2 y3
  refine Keeps.step (State.setTk_keeps ..) rfl ?_
  assumption

theorem State.weirDeliver_keeps (s isl a) : Keeps (Fld.regs) s (State.weirDeliver s isl a) := by
  unfold State.weirDeliver
  refine Keeps.cut s (Keeps.refl _ s) fun h0 => ?_
  extract_lets -merge y0 y1 y2
  clear_value y0
  refine Keeps.cut (y1) ?_ fun h3 => ?_
  · unfold y1
    refine Keeps.ite ?_ ?_
    · assumption
    · refine Keeps.step (State.weirAdd_keeps ..) rfl ?_
      refine Keeps.step (State.weirAdd_keeps ..) rfl ?_
      assumption
  clear_value y1
  refine Keeps.cut (y2) ?_ fun h4 => ?_
  · unfold y2
    refine Keeps.step (State.weirAdd_keeps ..) rfl ?_
    assumption
  clear_value y2
  refine Keeps.ite ?_ ?_
  · refine Keeps.step (State.weirPhase_keeps ..) rfl ?_
    assumption
  · refine Keeps.step (State.weirPulse_keeps ..) rfl ?_
    assumption

theorem State.noteCompare_keeps (s a c) : Keeps (Fld.regs ||| Fld.hdr ||| Fld.log ||| Fld.out ||| Fld.irq ||| Fld.draws ||| Fld.rungs ||| Fld.tiles ||| Fld.rungAt) s (State.noteCompare s a c) := by
  unfold State.noteCompare
  refine Keeps.cut s (Keeps.refl _ s) fun h0 => ?_
  extract_lets -merge y0 y1 y2 y3 y4 y5 y6 y7 y8
  clear_value y0 y1
  refine Keeps.cut (y3) ?_ fun h9 => ?_
  · unfold y3
    refine Keeps.step (State.incSat_keeps ..) rfl ?_
    assumption
  clear_value y3
  refine Keeps.cut (y4) ?_ fun h10 => ?_
  · unfold y4
    refine Keeps.ite ?_ ?_
    · assumption
    · refine Keeps.step (State.updTx_keeps ..) rfl ?_
      assumption
  clear_value y4
  refine Keeps.cut (y5) ?_ fun h11 => ?_
  · unfold y5
    refine Keeps.step (State.incSat_keeps ..) rfl ?_
    assumption
  clear_value y5 y6
  refine Keeps.cut (y7) ?_ fun h12 => ?_
  · unfold y7
    refine Keeps.step (State.setReg_keeps ..) rfl ?_
    assumption
  clear_value y7
  refine Keeps.cut (y8) ?_ fun h13 => ?_
  · unfold y8
    refine Keeps.ite ?_ ?_
    · assumption
    · refine Keeps.step (State.raiseC_keeps ..) rfl ?_
      refine Keeps.step (State.incSat_keeps ..) rfl ?_
      assumption
  clear_value y8
  refine Keeps.ite ?_ ?_
  · assumption
  · refine Keeps.ite ?_ ?_
    · assumption
    · refine Keeps.step (State.raiseC_keeps ..) rfl ?_
      assumption

theorem State.runRop_hof {m : Nat} {s u : State} {isl idx ropc : Nat} {f : State → Nat → Ticket → State}
    (hf : ∀ t k x, Keeps m s t → Keeps m s (f t k x)) (hm : Fld.sub (Fld.regs ||| Fld.hdr ||| Fld.log ||| Fld.out ||| Fld.irq ||| Fld.draws ||| Fld.tickets ||| Fld.acct ||| Fld.rungs ||| Fld.rungAt) m = true) (h : Keeps m s u) :
    Keeps m s (u.runRop isl idx ropc f) := State.launchAndRun_hof hf hm h

theorem execCopyOp_keeps (isl idx s) : KeepsO (Fld.regs ||| Fld.hdr ||| Fld.log ||| Fld.out ||| Fld.irq ||| Fld.draws ||| Fld.leases ||| Fld.tickets ||| Fld.jobs ||| Fld.acct ||| Fld.ctxs ||| Fld.basin ||| Fld.lines ||| Fld.rungs ||| Fld.imports ||| Fld.ends ||| Fld.rungAt) s (execCopyOp isl idx s) := by
  unfold execCopyOp
  refine KeepsO.cut s (Keeps.refl _ s) fun h0 => ?_
  refine KeepsO.next ?_
  refine State.runRop_hof ?_ rfl ?_
  · intro t0 x1 x2 x3
    extract_lets -merge y4 y5 y6 y7 y8 y9 y10 y11 y12
    clear_value y4 y5 y6 y7 y8 y9
    refine Keeps.cut (y10) ?_ fun h13 => ?_
    · unfold y10
      refine Keeps.step (State.noteUse_keeps ..) rfl ?_
      assumption
    clear_value y10 y11 y12
    split
    · rename_i a14 a15 a16 a17
      refine Keeps.cut (a15) ?_ fun h18 => ?_
      · refine Keeps.of_fst a17 ?_
        refine Keeps.step (State.writeBytes_keeps ..) rfl ?_
        assumption
      extract_lets -merge y19 y20
      refine Keeps.cut (y19) ?_ fun h21 => ?_
      · unfold y19
        refine Keeps.step (State.noteUse_keeps ..) rfl ?_
        assumption
      clear_value y19 y20
      refine Keeps.step (State.setTk_keeps ..) rfl ?_
      assumption
  assumption

theorem State.deliverDyn_keeps (s k t a own) : Keeps (Fld.regs ||| Fld.hdr ||| Fld.log ||| Fld.out ||| Fld.irq ||| Fld.draws ||| Fld.leases ||| Fld.tickets ||| Fld.jobs ||| Fld.ctxs ||| Fld.basin ||| Fld.lines ||| Fld.rungs ||| Fld.imports ||| Fld.dyns ||| Fld.ends ||| Fld.rungAt) s (State.deliverDyn s k t a own) := by
  unfold State.deliverDyn
  refine Keeps.cut s (Keeps.refl _ s) fun h0 => ?_
  extract_lets -merge y0 y1 y2 y3 y4
  clear_value y0 y2 y3
  split
  · rename_i a5 a6 a7 a8
    refine Keeps.cut (a6) ?_ fun h9 => ?_
    · refine Keeps.of_fst a8 ?_
      refine Keeps.step (State.writeBytes_keeps ..) rfl ?_
      assumption
    split
    · rename_i a10 a11 a12 a13
      refine Keeps.cut (a11) ?_ fun h14 => ?_
      · refine Keeps.of_fst a13 ?_
        refine Keeps.step (State.writeBytes_keeps ..) rfl ?_
        assumption
      extract_lets -merge y15 y16 y17 y18 y19
      refine Keeps.cut (y15) ?_ fun h20 => ?_
      · unfold y15
        refine Keeps.step (State.noteUse_keeps ..) rfl ?_
        assumption
      clear_value y15
      refine Keeps.cut (y16) ?_ fun h21 => ?_
      · unfold y16
        exact ((Keeps.set_dyns _ h20 rfl) :)
      clear_value y16 y17
      refine Keeps.cut (y18) ?_ fun h22 => ?_
      · unfold y18
        refine Keeps.ite ?_ ?_
        · refine Keeps.step (State.setTk_keeps ..) rfl ?_
          assumption
        · assumption
      clear_value y18 y19
      refine Keeps.step (State.setTk_keeps ..) rfl ?_
      assumption

theorem State.finishRow_keeps (s k out data tl side) : Keeps (Fld.regs ||| Fld.hdr ||| Fld.log ||| Fld.out ||| Fld.irq ||| Fld.draws ||| Fld.leases ||| Fld.tickets ||| Fld.jobs ||| Fld.ctxs ||| Fld.basin ||| Fld.lines ||| Fld.rungs ||| Fld.imports ||| Fld.ends ||| Fld.rungAt) s (State.finishRow s k out data tl side) := by
  unfold State.finishRow
  refine Keeps.cut s (Keeps.refl _ s) fun h0 => ?_
  extract_lets -merge y0 y1
  clear_value y0 y1
  split
  · rename_i a2 a3 a4 a5
    refine Keeps.cut (a3) ?_ fun h6 => ?_
    · refine Keeps.of_fst a5 ?_
      refine Keeps.step (State.writeRowAt_keeps ..) rfl ?_
      assumption
    extract_lets -merge y7 y8
    refine Keeps.cut (y7) ?_ fun h9 => ?_
    · unfold y7
      refine Keeps.step (State.noteUse_keeps ..) rfl ?_
      assumption
    clear_value y7 y8
    refine Keeps.step (State.setTk_keeps ..) rfl ?_
    assumption

theorem State.noteLut_keeps (s k t b) : Keeps (Fld.regs ||| Fld.hdr ||| Fld.log ||| Fld.out ||| Fld.irq ||| Fld.draws ||| Fld.leases ||| Fld.tickets ||| Fld.jobs ||| Fld.ctxs ||| Fld.rungs ||| Fld.imports ||| Fld.ends ||| Fld.rungAt) s (State.noteLut s k t b) := by
  unfold State.noteLut
  refine Keeps.cut s (Keeps.refl _ s) fun h0 => ?_
  refine Keeps.step (State.noteUse_keeps ..) rfl ?_
  assumption

theorem execOutsel_keeps (isl idx s) : KeepsO (Fld.regs ||| Fld.hdr ||| Fld.log ||| Fld.out ||| Fld.irq ||| Fld.draws ||| Fld.leases ||| Fld.tickets ||| Fld.jobs ||| Fld.acct ||| Fld.ctxs ||| Fld.basin ||| Fld.lines ||| Fld.rungs ||| Fld.imports ||| Fld.ends ||| Fld.rungAt) s (execOutsel isl idx s) := by
  unfold execOutsel
  refine KeepsO.cut s (Keeps.refl _ s) fun h0 => ?_
  refine KeepsO.next ?_
  refine State.runRop_hof ?_ rfl ?_
  · intro t0 x1 x2 x3
    extract_lets -merge y4 y5 y6 y7 y8 y9 y10 y11 y12 y13 y14 y15
    clear_value y4 y5 y6 y7 y8 y9 y10 y11 y12
    refine Keeps.cut (y13) ?_ fun h16 => ?_
    · unfold y13
      refine Keeps.step (State.noteUse_keeps ..) rfl ?_
      assumption
    clear_value y13
    refine Keeps.cut (y14) ?_ fun h17 => ?_
    · unfold y14
      refine Keeps.ite ?_ ?_
      · assumption
      · refine Keeps.step (State.weirAdd_keeps ..) rfl ?_
        assumption
    clear_value y14 y15
    refine Keeps.step (State.finishRow_keeps ..) rfl ?_
    assumption
  assumption

theorem execQuant_keeps (isl idx s) : KeepsO (Fld.regs ||| Fld.hdr ||| Fld.log ||| Fld.out ||| Fld.irq ||| Fld.draws ||| Fld.leases ||| Fld.tickets ||| Fld.jobs ||| Fld.acct ||| Fld.ctxs ||| Fld.basin ||| Fld.lines ||| Fld.rungs ||| Fld.imports ||| Fld.ends ||| Fld.rungAt) s (execQuant isl idx s) := by
  unfold execQuant
  refine KeepsO.cut s (Keeps.refl _ s) fun h0 => ?_
  refine KeepsO.next ?_
  refine State.runRop_hof ?_ rfl ?_
  · intro t0 x1 x2 x3
    extract_lets -merge y4 y5 y6 y7 y8 y9 y10 y11
    clear_value y4 y5 y6 y7 y8
    refine Keeps.cut (y9) ?_ fun h12 => ?_
    · unfold y9
      refine Keeps.step (State.noteUse_keeps ..) rfl ?_
      assumption
    clear_value y9
    refine Keeps.cut (y10) ?_ fun h13 => ?_
    · unfold y10
      refine Keeps.ite ?_ ?_
      · assumption
      · refine Keeps.step (State.noteListBad_keeps ..) rfl ?_
        assumption
    clear_value y10 y11
    split
    · rename_i a14 a15 a16 a17 a18
      extract_lets -merge y19
      clear_value y19
      refine Keeps.step (State.finishRow_keeps ..) rfl ?_
      assumption
  assumption

theorem State.valueOp_keeps (s k t inputs out) : Keeps (Fld.regs ||| Fld.hdr ||| Fld.log ||| Fld.out ||| Fld.irq ||| Fld.draws ||| Fld.leases ||| Fld.tickets ||| Fld.jobs ||| Fld.ctxs ||| Fld.basin ||| Fld.lines ||| Fld.rungs ||| Fld.imports ||| Fld.ends ||| Fld.rungAt) s (State.valueOp s k t inputs out) := by
  unfold State.valueOp
  refine Keeps.cut s (Keeps.refl _ s) fun h0 => ?_
  extract_lets -merge y0 y1 y2
  clear_value y0
  refine Keeps.cut (y1) ?_ fun h3 => ?_
  · unfold y1
    refine Keeps.foldl ?_ ?_
    · intro t4 x5 h6
      refine Keeps.step (State.noteUse_keeps ..) rfl ?_
      assumption
    assumption
  clear_value y1 y2
  refine Keeps.step (State.finishRow_keeps ..) rfl ?_
  assumption

theorem execNormOp_keeps (isl idx s) : KeepsO (Fld.regs ||| Fld.hdr ||| Fld.log ||| Fld.out ||| Fld.irq ||| Fld.draws ||| Fld.leases ||| Fld.tickets ||| Fld.jobs ||| Fld.acct ||| Fld.ctxs ||| Fld.basin ||| Fld.lines ||| Fld.rungs ||| Fld.imports ||| Fld.ends ||| Fld.rungAt) s (execNormOp isl idx s) := by
  unfold execNormOp
  refine KeepsO.cut s (Keeps.refl _ s) fun h0 => ?_
  refine KeepsO.next ?_
  refine State.runRop_hof ?_ rfl ?_
  · intro t0 x1 x2 x3
    extract_lets -merge y4 y5
    clear_value y4 y5
    refine Keeps.step (State.valueOp_keeps ..) rfl ?_
    refine Keeps.step (State.noteLut_keeps ..) rfl ?_
    assumption
  assumption

theorem State.deliver_keeps (s k t a status) : Keeps (Fld.regs ||| Fld.hdr ||| Fld.log ||| Fld.out ||| Fld.irq ||| Fld.draws ||| Fld.leases ||| Fld.tickets ||| Fld.jobs ||| Fld.ctxs ||| Fld.basin ||| Fld.lines ||| Fld.rungs ||| Fld.imports ||| Fld.dyns ||| Fld.ends ||| Fld.rungAt) s (State.deliver s k t a status) := by
  unfold State.deliver
  refine Keeps.cut s (Keeps.refl _ s) fun h0 => ?_
  extract_lets -merge y0 y1 y2 y3 y4 y5 y6 y7 y8 y9 y10 y11 y12 y13 y14 y15
  clear_value y0 y1 y2 y3
  refine Keeps.cut (y4) ?_ fun h16 => ?_
  · unfold y4
    refine Keeps.step (State.noteLost_keeps ..) rfl ?_
    assumption
  clear_value y4
  refine Keeps.cut (y5) ?_ fun h17 => ?_
  · unfold y5
    refine Keeps.ite ?_ ?_
    · assumption
    · refine Keeps.step (State.weirDeliver_keeps ..) rfl ?_
      assumption
  clear_value y5 y6 y7 y8 y9 y10
  refine Keeps.cut (y11) ?_ fun h18 => ?_
  · unfold y11
    refine Keeps.ite ?_ ?_
    · refine Keeps.step (State.noteUse_keeps ..) rfl ?_
      assumption
    · assumption
  clear_value y11 y12 y13 y14 y15
  refine Keeps.ite ?_ ?_
  · refine Keeps.step (State.deliverDyn_keeps ..) rfl ?_
    assumption
  · refine Keeps.ite ?_ ?_
    · split
      · rename_i a19 a20 a21 a22
        refine Keeps.cut (a20) ?_ fun h23 => ?_
        · refine Keeps.of_fst a22 ?_
          refine Keeps.step (State.writeBytes_keeps ..) rfl ?_
          assumption
        extract_lets -merge y24 y25
        refine Keeps.cut (y24) ?_ fun h26 => ?_
        · unfold y24
          refine Keeps.step (State.noteUse_keeps ..) rfl ?_
          assumption
        clear_value y24 y25
        refine Keeps.step (State.setTk_keeps ..) rfl ?_
        assumption
    · refine Keeps.ite ?_ ?_
      · refine Keeps.step (State.finishRow_keeps ..) rfl ?_
        assumption
      · refine Keeps.step (State.finishRow_keeps ..) rfl ?_
        assumption

theorem execMulOp_keeps (isl idx s) : KeepsO (Fld.regs ||| Fld.hdr ||| Fld.log ||| Fld.out ||| Fld.irq ||| Fld.draws ||| Fld.leases ||| Fld.tickets ||| Fld.jobs ||| Fld.acct ||| Fld.ctxs ||| Fld.basin ||| Fld.lines ||| Fld.rungs ||| Fld.imports ||| Fld.ends ||| Fld.rungAt) s (execMulOp isl idx s) := by
  unfold execMulOp
  refine KeepsO.cut s (Keeps.refl _ s) fun h0 => ?_
  refine KeepsO.next ?_
  refine State.runRop_hof ?_ rfl ?_
  · intro t0 x1 x2 x3
    extract_lets -merge y4 y5
    clear_value y4 y5
    refine Keeps.step (State.valueOp_keeps ..) rfl ?_
    assumption
  assumption

theorem execSoftmax_keeps (isl idx s) : KeepsO (Fld.regs ||| Fld.hdr ||| Fld.log ||| Fld.out ||| Fld.irq ||| Fld.draws ||| Fld.leases ||| Fld.tickets ||| Fld.jobs ||| Fld.acct ||| Fld.ctxs ||| Fld.basin ||| Fld.lines ||| Fld.rungs ||| Fld.imports ||| Fld.ends ||| Fld.rungAt) s (execSoftmax isl idx s) := by
  unfold execSoftmax
  refine KeepsO.cut s (Keeps.refl _ s) fun h0 => ?_
  refine KeepsO.next ?_
  refine State.runRop_hof ?_ rfl ?_
  · intro t0 x1 x2 x3
    extract_lets -merge y4 y5
    clear_value y4 y5
    refine Keeps.step (State.valueOp_keeps ..) rfl ?_
    refine Keeps.step (State.noteLut_keeps ..) rfl ?_
    assumption
  assumption

theorem execActOp_keeps (isl idx s) : KeepsO (Fld.regs ||| Fld.hdr ||| Fld.log ||| Fld.out ||| Fld.irq ||| Fld.draws ||| Fld.leases ||| Fld.tickets ||| Fld.jobs ||| Fld.acct ||| Fld.ctxs ||| Fld.basin ||| Fld.lines ||| Fld.rungs ||| Fld.imports ||| Fld.ends ||| Fld.rungAt) s (execActOp isl idx s) := by
  unfold execActOp
  refine KeepsO.cut s (Keeps.refl _ s) fun h0 => ?_
  refine KeepsO.next ?_
  refine State.runRop_hof ?_ rfl ?_
  · intro t0 x1 x2 x3
    extract_lets -merge y4 y5
    clear_value y4 y5
    refine Keeps.step (State.valueOp_keeps ..) rfl ?_
    refine Keeps.step (State.noteLut_keeps ..) rfl ?_
    assumption
  assumption

theorem execAddOp_keeps (isl idx s) : KeepsO (Fld.regs ||| Fld.hdr ||| Fld.log ||| Fld.out ||| Fld.irq ||| Fld.draws ||| Fld.leases ||| Fld.tickets ||| Fld.jobs ||| Fld.acct ||| Fld.ctxs ||| Fld.basin ||| Fld.lines ||| Fld.rungs ||| Fld.imports ||| Fld.ends ||| Fld.rungAt) s (execAddOp isl idx s) := by
  unfold execAddOp
  refine KeepsO.cut s (Keeps.refl _ s) fun h0 => ?_
  refine KeepsO.next ?_
  refine State.runRop_hof ?_ rfl ?_
  · intro t0 x1 x2 x3
    extract_lets -merge y4 y5
    clear_value y4 y5
    refine Keeps.step (State.valueOp_keeps ..) rfl ?_
    assumption
  assumption

theorem State.dynPersist_keeps (s k t a) : Keeps (Fld.regs ||| Fld.hdr ||| Fld.log ||| Fld.out ||| Fld.irq ||| Fld.draws ||| Fld.tickets ||| Fld.rungs ||| Fld.rows ||| Fld.tiles ||| Fld.dyns ||| Fld.tests ||| Fld.cal ||| Fld.rplChecks ||| Fld.rungAt) s (State.dynPersist s k t a) := by
  unfold State.dynPersist
  refine Keeps.cut s (Keeps.refl _ s) fun h0 => ?_
  extract_lets -merge y0 y1 y2 y3 y4 y5 y6
  clear_value y0
  refine Keeps.cut (y1) ?_ fun h7 => ?_
  · unfold y1
    refine Keeps.step (State.raiseC_keeps ..) rfl ?_
    refine Keeps.step (State.incSat_keeps ..) rfl ?_
    assumption
  clear_value y1 y3
  refine Keeps.cut (y4) ?_ fun h8 => ?_
  · unfold y4
    exact ((Keeps.set_dyns _ h7 rfl) :)
  clear_value y4
  refine Keeps.cut (y5) ?_ fun h9 => ?_
  · unfold y5
    refine Keeps.ite ?_ ?_
    · refine Keeps.step (State.lagEnter_keeps ..) rfl ?_
      assumption
    · refine Keeps.step (State.fenceUnit_keeps ..) rfl ?_
      assumption
  clear_value y5 y6
  refine Keeps.step (State.setTk_keeps ..) rfl ?_
  assumption

theorem State.runDescale_keeps (s k t) : Keeps (Fld.regs ||| Fld.hdr ||| Fld.log ||| Fld.out ||| Fld.irq ||| Fld.draws ||| Fld.leases ||| Fld.tickets ||| Fld.acks ||| Fld.jobs ||| Fld.ctxs ||| Fld.basin ||| Fld.lines ||| Fld.rungs ||| Fld.rows ||| Fld.tiles ||| Fld.nextRep ||| Fld.imports ||| Fld.dyns ||| Fld.tests ||| Fld.cal ||| Fld.ends ||| Fld.rplChecks ||| Fld.rungAt) s (State.runDescale s k t) := by
  unfold State.runDescale
  refine Keeps.cut s (Keeps.refl _ s) fun h0 => ?_
  split
  · rename_i a0 a1
    assumption
  · rename_i a2 a3 a4
    extract_lets -merge y5 y6 y7 y8 y9 y10
    clear_value y5
    refine Keeps.cut (y6) ?_ fun h11 => ?_
    · unfold y6
      exact ((Keeps.set_acks _ h0 rfl) :)
    clear_value y6 y7
    refine Keeps.cut (y8) ?_ fun h12 => ?_
    · unfold y8
      refine Keeps.step (State.noteCompare_keeps ..) rfl ?_
      assumption
    clear_value y8 y9
    refine Keeps.cut (y10) ?_ fun h13 => ?_
    · unfold y10
      refine Keeps.ite ?_ ?_
      · assumption
      · refine Keeps.ite ?_ ?_
        · refine Keeps.step (State.incSat_keeps ..) rfl ?_
          assumption
        · refine Keeps.step (State.persistence_keeps ..) rfl ?_
          refine Keeps.step (State.raiseC_keeps ..) rfl ?_
          refine Keeps.step (State.incSat_keeps ..) rfl ?_
          assumption
    clear_value y10
    refine Keeps.ite ?_ ?_
    · refine Keeps.step (State.deliver_keeps ..) rfl ?_
      assumption
    · refine Keeps.ite ?_ ?_
      · refine Keeps.step (State.dynPersist_keeps ..) rfl ?_
        assumption
      · refine Keeps.ite ?_ ?_
        · refine Keeps.step (State.askRepeat_keeps ..) rfl ?_
          assumption
        · refine Keeps.step (State.deliver_keeps ..) rfl ?_
          assumption

theorem execDescale_keeps (isl idx s) : KeepsO (Fld.regs ||| Fld.hdr ||| Fld.log ||| Fld.out ||| Fld.irq ||| Fld.draws ||| Fld.leases ||| Fld.tickets ||| Fld.acks ||| Fld.jobs ||| Fld.acct ||| Fld.ctxs ||| Fld.basin ||| Fld.lines ||| Fld.rungs ||| Fld.rows ||| Fld.tiles ||| Fld.nextRep ||| Fld.imports ||| Fld.dyns ||| Fld.tests ||| Fld.cal ||| Fld.ends ||| Fld.rplChecks ||| Fld.rungAt) s (execDescale isl idx s) := by
  unfold execDescale
  refine KeepsO.cut s (Keeps.refl _ s) fun h0 => ?_
  refine KeepsO.next ?_
  refine State.runRop_hof ?_ rfl ?_
  · intro t0 x1 x2 x3
    refine Keeps.step (State.runDescale_keeps ..) rfl ?_
    assumption
  assumption

end Sys2Proof.Machine
end

