-- ==== Sys2Proof/Laws/Adapt.lean ====
section
/-!
SUPPORT. What each function of Machine/Adapt.lean may change, and that it keeps the invariant of State.
-/
set_option linter.unusedVariables false
namespace Sys2Proof.Machine

theorem State.ranTk_keeps (s k) : Keeps (Fld.tickets) s (State.ranTk s k) := by
  unfold State.ranTk
  refine Keeps.cut s (Keeps.refl _ s) fun h0 => ?_
  extract_lets -merge y0
  clear_value y0
  refine Keeps.step (State.setTk_keeps ..) rfl ?_
  assumption

theorem State.writeSlab_keeps (s isl ctx adr rows) : Keeps (Fld.basin ||| Fld.lines) s (State.writeSlab s isl ctx adr rows).1 := by
  unfold State.writeSlab
  refine Keeps.cut s (Keeps.refl _ s) fun h0 => ?_
  refine Keeps.foldl_fst ?_ ?_
  · intro t0 c1 x2 h3
    dsimp only
    refine Keeps.step (State.writeBytes_keeps ..) rfl ?_
    assumption
  assumption

theorem State.optCount_keeps (s isl ctx clamps) : Keeps (Fld.regs ||| Fld.hdr ||| Fld.log ||| Fld.out ||| Fld.irq ||| Fld.draws ||| Fld.rungs ||| Fld.rungAt) s (State.optCount s isl ctx clamps) := by
  unfold State.optCount
  refine Keeps.cut s (Keeps.refl _ s) fun h0 => ?_
  extract_lets -merge y0
  refine Keeps.cut (y0) ?_ fun h1 => ?_
  · unfold y0
    refine Keeps.step (State.add64_keeps ..) rfl ?_
    assumption
  clear_value y0
  refine Keeps.ite ?_ ?_
  · assumption
  · refine Keeps.step (State.raiseC_keeps ..) rfl ?_
    refine Keeps.step (State.incSat_keeps ..) rfl ?_
    assumption

theorem State.outerCount_keeps (s isl ctx esc sat) : Keeps (Fld.regs ||| Fld.hdr ||| Fld.log ||| Fld.out ||| Fld.irq ||| Fld.draws ||| Fld.rungs ||| Fld.rungAt) s (State.outerCount s isl ctx esc sat) := by
  unfold State.outerCount
  refine Keeps.cut s (Keeps.refl _ s) fun h0 => ?_
  extract_lets -merge y0
  refine Keeps.cut (y0) ?_ fun h1 => ?_
  · unfold y0
    refine Keeps.ite ?_ ?_
    · assumption
    · refine Keeps.step (State.incSat_keeps ..) rfl ?_
      assumption
  clear_value y0
  refine Keeps.ite ?_ ?_
  · assumption
  · refine Keeps.step (State.raiseC_keeps ..) rfl ?_
    refine Keeps.step (State.incSat_keeps ..) rfl ?_
    assumption

theorem State.putBand_keeps (s isl t frame levels) : Keeps (Fld.regs ||| Fld.hdr ||| Fld.log ||| Fld.out ||| Fld.irq ||| Fld.draws ||| Fld.leases ||| Fld.tickets ||| Fld.jobs ||| Fld.ctxs ||| Fld.basin ||| Fld.lines ||| Fld.rungs ||| Fld.imports ||| Fld.ends ||| Fld.rungAt) s (State.putBand s isl t frame levels) := by
  unfold State.putBand
  refine Keeps.cut s (Keeps.refl _ s) fun h0 => ?_
  split
  · rename_i a0 a1 a2 a3
    refine Keeps.cut (a1) ?_ fun h4 => ?_
    · refine Keeps.of_fst a3 ?_
      refine Keeps.step (State.writeBytes_keeps ..) rfl ?_
      assumption
    split
    · rename_i a5 a6 a7 a8
      refine Keeps.cut (a6) ?_ fun h9 => ?_
      · refine Keeps.of_fst a8 ?_
        refine Keeps.step (State.writeSlab_keeps ..) rfl ?_
        assumption
      refine Keeps.step (State.noteUse_keeps ..) rfl ?_
      assumption

theorem execOptstep_keeps (isl idx s) : KeepsO (Fld.regs ||| Fld.hdr ||| Fld.log ||| Fld.out ||| Fld.irq ||| Fld.draws ||| Fld.leases ||| Fld.tickets ||| Fld.jobs ||| Fld.acct ||| Fld.ctxs ||| Fld.basin ||| Fld.lines ||| Fld.rungs ||| Fld.imports ||| Fld.ends ||| Fld.rungAt) s (execOptstep isl idx s) := by
  unfold execOptstep
  refine KeepsO.cut s (Keeps.refl _ s) fun h0 => ?_
  refine KeepsO.next ?_
  refine State.runRop_hof ?_ rfl ?_
  · intro t0 x1 x2 x3
    extract_lets -merge y4 y5 y6 y7 y8 y9
    clear_value y4 y5 y6 y7
    refine Keeps.cut (y8) ?_ fun h10 => ?_
    · unfold y8
      refine Keeps.step (State.noteUse_keeps ..) rfl ?_
      assumption
    clear_value y8 y9
    refine Keeps.ite ?_ ?_
    · refine Keeps.step (State.ranTk_keeps ..) rfl ?_
      refine Keeps.step (State.raiseC_keeps ..) rfl ?_
      refine Keeps.step (State.incSat_keeps ..) rfl ?_
      assumption
    · refine Keeps.step (State.ranTk_keeps ..) rfl ?_
      refine Keeps.step (State.optCount_keeps ..) rfl ?_
      refine Keeps.step (State.putBand_keeps ..) rfl ?_
      assumption
  assumption

theorem execGquant_keeps (isl idx s) : KeepsO (Fld.regs ||| Fld.hdr ||| Fld.log ||| Fld.out ||| Fld.irq ||| Fld.draws ||| Fld.leases ||| Fld.tickets ||| Fld.jobs ||| Fld.acct ||| Fld.ctxs ||| Fld.basin ||| Fld.lines ||| Fld.rungs ||| Fld.imports ||| Fld.ends ||| Fld.rungAt) s (execGquant isl idx s) := by
  unfold execGquant
  refine KeepsO.cut s (Keeps.refl _ s) fun h0 => ?_
  refine KeepsO.next ?_
  refine State.runRop_hof ?_ rfl ?_
  · intro t0 x1 x2 x3
    extract_lets -merge y4 y5 y6 y7 y8 y9 y10 y11 y12 y13
    clear_value y4 y5 y6 y7 y8 y9 y10
    refine Keeps.cut (y11) ?_ fun h14 => ?_
    · unfold y11
      refine Keeps.step (State.noteUse_keeps ..) rfl ?_
      assumption
    clear_value y11
    refine Keeps.cut (y12) ?_ fun h15 => ?_
    · unfold y12
      refine Keeps.ite ?_ ?_
      · assumption
      · refine Keeps.step (State.raiseC_keeps ..) rfl ?_
        refine Keeps.step (State.incSat_keeps ..) rfl ?_
        assumption
    clear_value y12 y13
    refine Keeps.step (State.finishRow_keeps ..) rfl ?_
    assumption
  assumption

theorem State.putNoted_keeps (s isl t bs) : Keeps (Fld.regs ||| Fld.hdr ||| Fld.log ||| Fld.out ||| Fld.irq ||| Fld.draws ||| Fld.leases ||| Fld.tickets ||| Fld.jobs ||| Fld.ctxs ||| Fld.basin ||| Fld.lines ||| Fld.rungs ||| Fld.imports ||| Fld.ends ||| Fld.rungAt) s (State.putNoted s isl t bs) := by
  unfold State.putNoted
  refine Keeps.cut s (Keeps.refl _ s) fun h0 => ?_
  split
  · rename_i a0 a1 a2 a3
    refine Keeps.cut (a1) ?_ fun h4 => ?_
    · refine Keeps.of_fst a3 ?_
      refine Keeps.step (State.writeBytes_keeps ..) rfl ?_
      assumption
    refine Keeps.step (State.noteUse_keeps ..) rfl ?_
    assumption

theorem execOuter_keeps (isl idx s) : KeepsO (Fld.regs ||| Fld.hdr ||| Fld.log ||| Fld.out ||| Fld.irq ||| Fld.draws ||| Fld.leases ||| Fld.tickets ||| Fld.jobs ||| Fld.acct ||| Fld.ctxs ||| Fld.basin ||| Fld.lines ||| Fld.rungs ||| Fld.imports ||| Fld.ends ||| Fld.rungAt) s (execOuter isl idx s) := by
  unfold execOuter
  refine KeepsO.cut s (Keeps.refl _ s) fun h0 => ?_
  refine KeepsO.next ?_
  refine State.runRop_hof ?_ rfl ?_
  · intro t0 x1 x2 x3
    extract_lets -merge y4 y5 y6 y7 y8 y9 y10 y11 y12
    clear_value y4 y5 y6 y7 y8 y9 y10
    refine Keeps.cut (y11) ?_ fun h13 => ?_
    · unfold y11
      refine Keeps.step (State.noteUse_keeps ..) rfl ?_
      assumption
    clear_value y11
    refine Keeps.cut (y12) ?_ fun h14 => ?_
    · unfold y12
      refine Keeps.step (State.outerCount_keeps ..) rfl ?_
      assumption
    clear_value y12
    refine Keeps.step (State.ranTk_keeps ..) rfl ?_
    refine Keeps.step (State.putNoted_keeps ..) rfl ?_
    assumption
  assumption

end Sys2Proof.Machine
end

