-- ==== Sys2Proof/Laws/Plans.lean ====
section
/-!
SUPPORT. What each function of Machine/Plans.lean may change, and that it keeps the invariant of State.
-/
set_option linter.unusedVariables false
namespace Sys2Proof.Machine

theorem State.freeFrame_keeps (s : State) (f : Nat) :
    Keeps (Fld.frames ||| Fld.harbour ||| Fld.hbPoison ||| Fld.hbWritten ||| Fld.badSlots) s (s.freeFrame f) :=
  Keeps.step0 (n := Fld.frames ||| Fld.harbour ||| Fld.hbPoison ||| Fld.hbWritten ||| Fld.badSlots) (Keeps.refl _ s) rfl (by constructor <;> first | exact fun e => absurd e (by decide) | exact fun _ => rfl)
    fun i => ⟨i.1, Store.wf_filter _ i.2.1, i.2.2.1, i.2.2.2⟩

theorem State.setHarbour_keeps {m : Nat} {s u : State} (a : Nat) (bs : List Byte) (h : Keeps m s u) (hm : Fld.sub Fld.harbour m = true) :
    Keeps m s { u with harbour := putCells u.harbour a bs } := Keeps.set_harbour _ h (fun i => putCells_wf i a bs) hm

theorem State.unbind_keeps (s p) : Keeps (Fld.qps ||| Fld.landing) s (State.unbind s p) := by
  unfold State.unbind
  refine Keeps.cut s (Keeps.refl _ s) fun h0 => ?_
  extract_lets -merge y0 y1
  clear_value y0
  refine Keeps.cut (y1) ?_ fun h2 => ?_
  · unfold y1
    exact ((Keeps.set_landing _ h0 rfl) :)
  clear_value y1
  refine Keeps.foldl ?_ ?_
  · intro t3 x4 h5
    extract_lets -merge y6
    clear_value y6
    exact ((Keeps.set_qps _ h5 rfl) :)
  assumption

theorem State.unbackPos_keeps (s c pos) : Keeps (Fld.regs ||| Fld.ctxs ||| Fld.harbour ||| Fld.hbPoison ||| Fld.hbWritten ||| Fld.frames ||| Fld.badSlots) s (State.unbackPos s c pos) := by
  unfold State.unbackPos
  refine Keeps.cut s (Keeps.refl _ s) fun h0 => ?_
  extract_lets -merge y0 y1 y2
  clear_value y0 y1
  refine Keeps.cut (y2) ?_ fun h3 => ?_
  · unfold y2
    refine Keeps.step (State.setCx_keeps ..) rfl ?_
    refine Keeps.step (State.freeFrame_keeps ..) rfl ?_
    assumption
  clear_value y2
  refine Keeps.ite ?_ ?_
  · assumption
  · refine Keeps.step (State.setF_keeps ..) rfl ?_
    assumption

theorem State.hbFresh_keeps (s : State) (blk : Nat) : Keeps (Fld.harbour ||| Fld.hbWritten) s (s.hbFresh blk) := by
  unfold State.hbFresh
  generalize zeroBlock = z
  refine Keeps.ite ?_ (Keeps.refl _ s)
  exact Keeps.set_hbWritten _ (Keeps.set_harbour _ (Keeps.refl _ s) (fun i => putCells_wf i _ z) rfl) rfl

theorem State.countPlans_keeps (s c) : Keeps (Fld.regs) s (State.countPlans s c) := by
  unfold State.countPlans
  refine Keeps.cut s (Keeps.refl _ s) fun h0 => ?_
  refine Keeps.step (State.setF_keeps ..) rfl ?_
  assumption

theorem State.setHbPois_keeps (s blk line p) : Keeps (Fld.regs ||| Fld.hbPoison) s (State.setHbPois s blk line p) := by
  unfold State.setHbPois
  refine Keeps.cut s (Keeps.refl _ s) fun h0 => ?_
  extract_lets -merge y0
  refine Keeps.cut (y0) ?_ fun h1 => ?_
  · unfold y0
    refine Keeps.ite ?_ ?_
    · refine Keeps.step (State.incSat_keeps ..) rfl ?_
      assumption
    · assumption
  clear_value y0
  exact ((Keeps.set_hbPoison _ h1 rfl) :)

theorem State.backPos_keeps (s c pos f ty) : Keeps (Fld.regs ||| Fld.ctxs ||| Fld.frames) s (State.backPos s c pos f ty) := by
  unfold State.backPos
  refine Keeps.cut s (Keeps.refl _ s) fun h0 => ?_
  extract_lets -merge y0 y1 y2
  clear_value y0
  refine Keeps.cut (y1) ?_ fun h3 => ?_
  · unfold y1
    exact ((Keeps.set_frames _ h0 rfl) :)
  clear_value y1
  refine Keeps.cut (y2) ?_ fun h4 => ?_
  · unfold y2
    refine Keeps.step (State.setCx_keeps ..) rfl ?_
    assumption
  clear_value y2
  refine Keeps.step (State.incWrapF_keeps ..) rfl ?_
  assumption

theorem State.setOwner_keeps (s gt o) : Keeps (Fld.regs ||| Fld.tiles ||| Fld.owners) s (State.setOwner s gt o) := by
  unfold State.setOwner
  refine Keeps.cut s (Keeps.refl _ s) fun h0 => ?_
  extract_lets -merge y0 y1
  refine Keeps.cut (y0) ?_ fun h2 => ?_
  · unfold y0
    refine Keeps.step (State.updTx_keeps ..) rfl ?_
    assumption
  clear_value y0
  refine Keeps.cut (y1) ?_ fun h3 => ?_
  · unfold y1
    refine Keeps.ite ?_ ?_
    · assumption
    · refine Keeps.step (State.setF_keeps ..) rfl ?_
      assumption
  clear_value y1
  exact ((Keeps.set_owners _ h3 rfl) :)

theorem State.freeRsv_keeps (s p) : Keeps (Fld.acct) s (State.freeRsv s p) := by
  unfold State.freeRsv
  refine Keeps.cut s (Keeps.refl _ s) fun h0 => ?_
  extract_lets -merge y0
  clear_value y0
  refine Keeps.step (State.setAc_keeps ..) rfl ?_
  assumption

theorem State.hbCountRead_keeps (s blk n) : Keeps (Fld.regs) s (State.hbCountRead s blk n) := by
  unfold State.hbCountRead
  refine Keeps.cut s (Keeps.refl _ s) fun h0 => ?_
  refine Keeps.step (State.add64_keeps ..) rfl ?_
  assumption

theorem State.hbWriteLine_keeps (s : State) (blk line off : Nat) (bs : List Byte) (poison : Bool) :
    Keeps (Fld.regs ||| Fld.harbour ||| Fld.hbPoison ||| Fld.hbWritten) s (s.hbWriteLine blk line off bs poison) := by
  unfold State.hbWriteLine
  dsimp only
  refine Keeps.step (State.setHbPois_keeps ..) rfl (Keeps.step (State.add64_keeps ..) rfl (State.setHarbour_keeps _ _ ?_ rfl))
  exact Keeps.step (State.hbFresh_keeps ..) rfl (Keeps.refl _ s)

theorem State.hbWrite_keeps (s : State) (blk off : Nat) (bs : List Byte) (poison : Bool) (n : Nat) :
    Keeps (Fld.regs ||| Fld.harbour ||| Fld.hbPoison ||| Fld.hbWritten) s (s.hbWrite blk off bs poison n) := by
  induction n generalizing s off bs with
  | zero => exact Keeps.refl _ s
  | succ n ih =>
    simp only [State.hbWrite]
    exact Keeps.ite (Keeps.refl _ s) ((Keeps.step (State.hbWriteLine_keeps ..) rfl (Keeps.refl _ s)).trans (ih ..))

theorem State.releaseTile_keeps (s gt) : Keeps (Fld.regs ||| Fld.rows ||| Fld.tiles) s (State.releaseTile s gt) := by
  unfold State.releaseTile
  refine Keeps.cut s (Keeps.refl _ s) fun h0 => ?_
  refine Keeps.step (State.release_keeps ..) rfl ?_
  refine Keeps.step (State.setF_keeps ..) rfl ?_
  assumption

theorem State.unloadNow_keeps (s h) : Keeps (Fld.regs ||| Fld.leases ||| Fld.tickets ||| Fld.jobs ||| Fld.plans ||| Fld.acct ||| Fld.ctxs ||| Fld.qps ||| Fld.landing ||| Fld.rows ||| Fld.tiles ||| Fld.harbour ||| Fld.hbPoison ||| Fld.hbWritten ||| Fld.frames ||| Fld.badSlots ||| Fld.owners ||| Fld.runs ||| Fld.ends) s (State.unloadNow s h) := by
  unfold State.unloadNow
  refine Keeps.cut s (Keeps.refl _ s) fun h0 => ?_
  extract_lets -merge y0 y1 y2 y3 y4 y5 y6 y7 y8 y9
  clear_value y0 y1
  refine Keeps.cut (y2) ?_ fun h10 => ?_
  · unfold y2
    refine Keeps.foldl ?_ ?_
    · intro t11 x12 h13
      refine Keeps.step (State.releaseTile_keeps ..) rfl ?_
      refine Keeps.step (State.setOwner_keeps ..) rfl ?_
      assumption
    assumption
  clear_value y2
  refine Keeps.cut (y3) ?_ fun h14 => ?_
  · unfold y3
    refine Keeps.foldl ?_ ?_
    · intro t15 x16 h17
      refine Keeps.step (State.freeTk_keeps ..) rfl ?_
      assumption
    assumption
  clear_value y3
  refine Keeps.cut (y4) ?_ fun h18 => ?_
  · unfold y4
    exact Keeps.step0 (n := Fld.leases ||| Fld.runs) h14 rfl (by constructor <;> first | exact fun e => absurd e (by decide) | exact fun _ => rfl) fun i => ⟨i.1, i.2.1, i.2.2.1, i.2.2.2⟩
  clear_value y4
  refine Keeps.cut (y5) ?_ fun h19 => ?_
  · unfold y5
    refine Keeps.step (State.freeRsv_keeps ..) rfl ?_
    assumption
  clear_value y5
  refine Keeps.cut (y6) ?_ fun h20 => ?_
  · unfold y6
    refine Keeps.foldl ?_ ?_
    · intro t21 x22 h23
      refine Keeps.step (State.unbackPos_keeps ..) rfl ?_
      assumption
    assumption
  clear_value y6
  refine Keeps.cut (y7) ?_ fun h24 => ?_
  · unfold y7
    refine Keeps.step (State.unbind_keeps ..) rfl ?_
    assumption
  clear_value y7
  refine Keeps.cut (y8) ?_ fun h25 => ?_
  · unfold y8
    refine Keeps.foldl ?_ ?_
    · intro t26 x27 h28
      refine Keeps.step (State.setB_keeps ..) rfl ?_
      assumption
    assumption
  clear_value y8
  refine Keeps.cut (y9) ?_ fun h29 => ?_
  · unfold y9
    refine Keeps.step (State.countPlans_keeps ..) rfl ?_
    refine Keeps.step (State.setPlan_keeps ..) rfl ?_
    assumption
  clear_value y9
  refine Keeps.ite ?_ ?_
  · assumption
  · refine Keeps.foldl ?_ ?_
    · intro t30 x31 h32
      refine Keeps.ite ?_ ?_
      · refine Keeps.step (State.endJob_keeps ..) rfl ?_
        assumption
      · refine Keeps.ite ?_ ?_
        · refine Keeps.step (State.endJob_keeps ..) rfl ?_
          assumption
        · assumption
    assumption

theorem State.unload_keeps (s h) : Keeps (Fld.regs ||| Fld.leases ||| Fld.tickets ||| Fld.jobs ||| Fld.plans ||| Fld.acct ||| Fld.ctxs ||| Fld.qps ||| Fld.landing ||| Fld.rows ||| Fld.tiles ||| Fld.harbour ||| Fld.hbPoison ||| Fld.hbWritten ||| Fld.frames ||| Fld.badSlots ||| Fld.owners ||| Fld.runs ||| Fld.ends) s (State.unload s h) := by
  unfold State.unload
  refine Keeps.cut s (Keeps.refl _ s) fun h0 => ?_
  refine Keeps.ite ?_ ?_
  · extract_lets -merge y0
    clear_value y0
    refine Keeps.step (State.setPlan_keeps ..) rfl ?_
    assumption
  · refine Keeps.step (State.unloadNow_keeps ..) rfl ?_
    assumption

end Sys2Proof.Machine
end

