-- ==== Sys2Proof/Laws/Deps.lean ====
section
/-!
SUPPORT. What each function of Machine/Deps.lean may change, and that it keeps the invariant of State.
-/
set_option linter.unusedVariables false
namespace Sys2Proof.Machine

theorem State.enter_keeps (s isl idx t e) : Keeps (Fld.regs ||| Fld.tickets) s (State.enter s isl idx t e) := by
  unfold State.enter
  refine Keeps.cut s (Keeps.refl _ s) fun h0 => ?_
  extract_lets -merge y0 y1 y2 y3 y4 y5
  clear_value y0 y1
  refine Keeps.cut (y2) ?_ fun h6 => ?_
  · unfold y2
    refine Keeps.step (State.setTk_keeps ..) rfl ?_
    assumption
  clear_value y2 y3
  refine Keeps.cut (y4) ?_ fun h7 => ?_
  · unfold y4
    refine Keeps.step (State.mapTk_keeps ..) rfl ?_
    assumption
  clear_value y4
  refine Keeps.cut (y5) ?_ fun h8 => ?_
  · unfold y5
    refine Keeps.step (State.add64_keeps ..) rfl ?_
    refine Keeps.step (State.noteLive_keeps ..) rfl ?_
    assumption
  clear_value y5
  refine Keeps.step (State.setF_keeps ..) rfl ?_
  assumption

theorem State.applyRehome_keeps (s h) : Keeps (Fld.plans ||| Fld.basin ||| Fld.lines) s (State.applyRehome s h) := by
  unfold State.applyRehome
  refine Keeps.cut s (Keeps.refl _ s) fun h0 => ?_
  extract_lets -merge y0 y1 y2
  clear_value y0 y1
  refine Keeps.cut (y2) ?_ fun h3 => ?_
  · unfold y2
    refine Keeps.foldl ?_ ?_
    · intro t4 x5 h6
      extract_lets -merge y7 y8 y9
      clear_value y7 y8 y9
      refine Keeps.step (State.writeBytes_keeps ..) rfl ?_
      assumption
    assumption
  clear_value y2
  refine Keeps.ite ?_ ?_
  · assumption
  · refine Keeps.step (State.setPlan_keeps ..) rfl ?_
    assumption

end Sys2Proof.Machine
end

