-- ==== Sys2Proof/Laws/Strait.lean ====
section
/-!
SUPPORT. What each function of Machine/Strait.lean may change, and that it keeps the invariant of State.
-/
set_option linter.unusedVariables false
namespace Sys2Proof.Machine

theorem State.endStrait_keeps (s k t) : Keeps (Fld.leases) s (State.endStrait s k t) := by
  unfold State.endStrait
  refine Keeps.cut s (Keeps.refl _ s) fun h0 => ?_
  refine Keeps.ite ?_ ?_
  · exact ((Keeps.set_leases _ h0 rfl) :)
  · assumption

theorem State.invalidLine_keeps (s isl ctx line) : Keeps (Fld.lines) s (State.invalidLine s isl ctx line) := by
  unfold State.invalidLine
  refine Keeps.cut s (Keeps.refl _ s) fun h0 => ?_
  split
  · rename_i a0 a1
    assumption
  · rename_i a2 a3 a4
    refine Keeps.step (State.setLine_keeps ..) rfl ?_
    assumption

theorem State.moveLine_keeps (s src dst ctx a b) : Keeps (Fld.basin ||| Fld.lines) s (State.moveLine s src dst ctx a b).1 := by
  unfold State.moveLine
  refine Keeps.cut s (Keeps.refl _ s) fun h0 => ?_
  extract_lets -merge y0
  clear_value y0
  split
  · rename_i a1 a2 a3 a4
    refine Keeps.cut (a2) ?_ fun h5 => ?_
    · refine Keeps.of_fst a4 ?_
      refine Keeps.step (State.writeLine_keeps ..) rfl ?_
      assumption
    dsimp only
    assumption

theorem State.moveLines_keeps (s src dst ctx a b n badSrc badDst) : Keeps (Fld.basin ||| Fld.lines) s (State.moveLines s src dst ctx a b n badSrc badDst).1 := by
  unfold State.moveLines
  refine Keeps.cut s (Keeps.refl _ s) fun h0 => ?_
  refine Keeps.foldl_fst ?_ ?_
  · intro t0 c1 x2 h3
    dsimp only
    split
    · rename_i a4
      dsimp only
      assumption
    · rename_i a5
      split
      · rename_i a6
        dsimp only
        refine Keeps.step (State.invalidLine_keeps ..) rfl ?_
        assumption
      · rename_i a7
        dsimp only
        refine Keeps.step (State.moveLine_keeps ..) rfl ?_
        assumption
  assumption

theorem State.chkFail_keeps (s isl ctx j) : Keeps (Fld.regs ||| Fld.hdr ||| Fld.log ||| Fld.out ||| Fld.irq ||| Fld.draws ||| Fld.tickets ||| Fld.jobs ||| Fld.rungs ||| Fld.rungAt) s (State.chkFail s isl ctx j) := by
  unfold State.chkFail
  refine Keeps.cut s (Keeps.refl _ s) fun h0 => ?_
  refine Keeps.step (State.failStep_keeps ..) rfl ?_
  refine Keeps.step (State.raiseC_keeps ..) rfl ?_
  refine Keeps.step (State.incSat_keeps ..) rfl ?_
  assumption

theorem execSend_keeps (isl idx badSrc badDst s) : KeepsO (Fld.regs ||| Fld.hdr ||| Fld.log ||| Fld.out ||| Fld.irq ||| Fld.draws ||| Fld.leases ||| Fld.tickets ||| Fld.jobs ||| Fld.acct ||| Fld.ctxs ||| Fld.basin ||| Fld.lines ||| Fld.rungs ||| Fld.imports ||| Fld.ends ||| Fld.rungAt) s (execSend isl idx badSrc badDst s) := by
  unfold execSend
  refine KeepsO.cut s (Keeps.refl _ s) fun h0 => ?_
  refine KeepsO.next ?_
  refine State.launchAndRun_hof ?_ rfl ?_
  · intro t0 x1 x2 x3
    extract_lets -merge y4 y5 y6 y7 y8
    refine Keeps.cut (y4) ?_ fun h9 => ?_
    · unfold y4
      refine Keeps.step (State.lease_keeps ..) rfl ?_
      assumption
    clear_value y4 y5 y6 y7 y8
    refine Keeps.ite ?_ ?_
    · refine Keeps.step (State.setTk_keeps ..) rfl ?_
      assumption
    · split
      · rename_i a10 a11 a12 a13 a14
        refine Keeps.cut (a11) ?_ fun h15 => ?_
        · refine Keeps.of_fst a14 ?_
          refine Keeps.step (State.moveLines_keeps ..) rfl ?_
          assumption
        extract_lets -merge y16 y17 y18 y19 y20
        refine Keeps.cut (y16) ?_ fun h21 => ?_
        · unfold y16
          refine Keeps.step (State.noteUse_keeps ..) rfl ?_
          assumption
        clear_value y16
        refine Keeps.cut (y17) ?_ fun h22 => ?_
        · unfold y17
          refine Keeps.step (State.noteUse_keeps ..) rfl ?_
          assumption
        clear_value y17
        refine Keeps.cut (y18) ?_ fun h23 => ?_
        · unfold y18
          refine Keeps.foldl ?_ ?_
          · intro t24 x25 h26
            refine Keeps.step (State.chkFail_keeps ..) rfl ?_
            assumption
          assumption
        clear_value y18
        refine Keeps.cut (y19) ?_ fun h27 => ?_
        · unfold y19
          refine Keeps.foldl ?_ ?_
          · intro t28 x29 h30
            refine Keeps.step (State.chkFail_keeps ..) rfl ?_
            assumption
          assumption
        clear_value y19 y20
        refine Keeps.step (State.setTk_keeps ..) rfl ?_
        assumption
  assumption

end Sys2Proof.Machine
end

