-- ==== Sys2Proof/Laws/Ferry.lean ====
section
/-!
SUPPORT. What each function of Machine/Ferry.lean may change, and that it keeps the invariant of State.
-/
set_option linter.unusedVariables false
namespace Sys2Proof.Machine

theorem State.poisonRuns_keeps (s blk lines) : Keeps (Fld.runs) s (State.poisonRuns s blk lines) := by
  unfold State.poisonRuns
  refine Keeps.cut s (Keeps.refl _ s) fun h0 => ?_
  exact ((Keeps.set_runs _ h0 rfl) :)

theorem State.setRun_keeps (s r x) : Keeps (Fld.runs) s (State.setRun s r x) := by
  unfold State.setRun
  refine Keeps.cut s (Keeps.refl _ s) fun h0 => ?_
  exact ((Keeps.set_runs _ h0 rfl) :)

theorem State.loadScales_keeps (s gt tab) : Keeps (Fld.regs) s (State.loadScales s gt tab) := by
  unfold State.loadScales
  refine Keeps.cut s (Keeps.refl _ s) fun h0 => ?_
  extract_lets -merge y0
  refine Keeps.cut (y0) ?_ fun h1 => ?_
  · unfold y0
    refine Keeps.foldl ?_ ?_
    · intro t2 x3 h4
      refine Keeps.step (State.setReg_keeps ..) rfl ?_
      assumption
    assumption
  clear_value y0
  refine Keeps.foldl ?_ ?_
  · intro t5 x6 h7
    refine Keeps.step (State.setReg_keeps ..) rfl ?_
    assumption
  assumption

theorem State.latchFail_keeps (s x isl cause ctrl) : Keeps (Fld.regs) s (State.latchFail s x isl cause ctrl) := by
  unfold State.latchFail
  refine Keeps.cut s (Keeps.refl _ s) fun h0 => ?_
  extract_lets -merge y0
  refine Keeps.cut (y0) ?_ fun h1 => ?_
  · unfold y0
    refine Keeps.step (State.setReg_keeps ..) rfl ?_
    assumption
  clear_value y0
  refine Keeps.step (State.setReg_keeps ..) rfl ?_
  assumption

theorem State.ackMove_keeps (s k t) : Keeps (Fld.regs) s (State.ackMove s k t) := by
  unfold State.ackMove
  refine Keeps.cut s (Keeps.refl _ s) fun h0 => ?_
  refine Keeps.ite ?_ ?_
  · assumption
  · extract_lets -merge y0 y1 y2 y3 y4
    clear_value y0 y1 y3
    refine Keeps.foldl ?_ ?_
    · intro t5 x6 h7
      refine Keeps.ite ?_ ?_
      · assumption
      · refine Keeps.step (State.setF_keeps ..) rfl ?_
        assumption
    assumption

theorem State.reprogResult_keeps (s gt result src) : Keeps (Fld.regs ||| Fld.tiles) s (State.reprogResult s gt result src) := by
  unfold State.reprogResult
  refine Keeps.cut s (Keeps.refl _ s) fun h0 => ?_
  extract_lets -merge y0 y1 y2 y3
  clear_value y0 y1
  refine Keeps.cut (y2) ?_ fun h4 => ?_
  · unfold y2
    refine Keeps.step (State.updTx_keeps ..) rfl ?_
    assumption
  clear_value y2
  refine Keeps.cut (y3) ?_ fun h5 => ?_
  · unfold y3
    refine Keeps.step (State.setF_keeps ..) rfl ?_
    refine Keeps.step (State.setF_keeps ..) rfl ?_
    assumption
  clear_value y3
  refine Keeps.step (State.incSat_keeps ..) rfl ?_
  refine Keeps.step (State.setF_keeps ..) rfl ?_
  refine Keeps.step (State.setF_keeps ..) rfl ?_
  assumption

theorem execPatrolPass_keeps (h s) : KeepsO (Fld.regs ||| Fld.hbr) s (execPatrolPass h s) := by
  unfold execPatrolPass
  refine KeepsO.cut s (Keeps.refl _ s) fun h0 => ?_
  refine KeepsO.next ?_
  extract_lets -merge y0
  clear_value y0
  refine Keeps.ite ?_ ?_
  · assumption
  · refine Keeps.step (State.incWrapF_keeps ..) rfl ?_
    exact ((Keeps.set_hbr _ h0 rfl) :)

theorem State.countSlot_keeps (s x) : Keeps (Fld.regs) s (State.countSlot s x) := by
  unfold State.countSlot
  refine Keeps.cut s (Keeps.refl _ s) fun h0 => ?_
  extract_lets -merge y0
  refine Keeps.cut (y0) ?_ fun h1 => ?_
  · unfold y0
    refine Keeps.foldl ?_ ?_
    · intro t2 x3 h4
      refine Keeps.elim ?_ ?_
      · assumption
      · intro x5
        refine Keeps.step (State.hbCountRead_keeps ..) rfl ?_
        assumption
    assumption
  clear_value y0
  refine Keeps.step (State.add64_keeps ..) rfl ?_
  assumption

theorem State.stopRun_keeps (s r isl cause) : Keeps (Fld.regs ||| Fld.tickets ||| Fld.rows ||| Fld.tiles ||| Fld.runs) s (State.stopRun s r isl cause) := by
  unfold State.stopRun
  refine Keeps.cut s (Keeps.refl _ s) fun h0 => ?_
  extract_lets -merge y0 y1 y2
  clear_value y0
  refine Keeps.cut (y1) ?_ fun h3 => ?_
  · unfold y1
    refine Keeps.step (State.setRun_keeps ..) rfl ?_
    assumption
  clear_value y1
  refine Keeps.cut (y2) ?_ fun h4 => ?_
  · unfold y2
    refine Keeps.ite ?_ ?_
    · assumption
    · refine Keeps.foldl ?_ ?_
      · intro t5 x6 h7
        refine Keeps.ite ?_ ?_
        · assumption
        · refine Keeps.step (State.releaseTile_keeps ..) rfl ?_
          assumption
      assumption
  clear_value y2
  split
  · rename_i a8 a9 a10 a11
    refine Keeps.ite ?_ ?_
    · refine Keeps.step (State.setTk_keeps ..) rfl ?_
      assumption
    · assumption
  · rename_i a12 a13
    assumption

theorem State.dropRuns_keeps (s p) : Keeps (Fld.regs ||| Fld.rows ||| Fld.tiles ||| Fld.runs) s (State.dropRuns s p) := by
  unfold State.dropRuns
  refine Keeps.cut s (Keeps.refl _ s) fun h0 => ?_
  extract_lets -merge y0 y1
  clear_value y0
  refine Keeps.cut (y1) ?_ fun h2 => ?_
  · unfold y1
    refine Keeps.foldl ?_ ?_
    · intro t3 x4 h5
      refine Keeps.foldl ?_ ?_
      · intro t6 x7 h8
        split
        · rename_i a9 a10
          assumption
        · rename_i a11 a12 a13 a14
          refine Keeps.ite ?_ ?_
          · refine Keeps.foldl ?_ ?_
            · intro t15 x16 h17
              refine Keeps.ite ?_ ?_
              · assumption
              · refine Keeps.step (State.releaseTile_keeps ..) rfl ?_
                assumption
            assumption
          · assumption
      assumption
    assumption
  clear_value y1
  exact ((Keeps.set_runs _ h2 rfl) :)

theorem execHbrCeStorm_keeps (h s) : KeepsO (Fld.regs ||| Fld.hdr ||| Fld.log ||| Fld.out ||| Fld.irq ||| Fld.draws ||| Fld.rungs ||| Fld.rungAt) s (execHbrCeStorm h s) := by
  unfold execHbrCeStorm
  refine KeepsO.cut s (Keeps.refl _ s) fun h0 => ?_
  refine KeepsO.next ?_
  extract_lets -merge y0 y1 y2 y3
  clear_value y0 y1 y2
  refine Keeps.cut (y3) ?_ fun h4 => ?_
  · unfold y3
    refine Keeps.step (State.setB_keeps ..) rfl ?_
    assumption
  clear_value y3
  refine Keeps.ite ?_ ?_
  · refine Keeps.step (State.raise_keeps ..) rfl ?_
    assumption
  · assumption

theorem State.lineUe_keeps (s blk line src) : Keeps (Fld.regs ||| Fld.hdr ||| Fld.log ||| Fld.out ||| Fld.irq ||| Fld.draws ||| Fld.rungs ||| Fld.hbPoison ||| Fld.rungAt) s (State.lineUe s blk line src) := by
  unfold State.lineUe
  refine Keeps.cut s (Keeps.refl _ s) fun h0 => ?_
  extract_lets -merge y0 y1 y2 y3 y4
  clear_value y0
  refine Keeps.cut (y1) ?_ fun h5 => ?_
  · unfold y1
    refine Keeps.step (State.incSat_keeps ..) rfl ?_
    refine Keeps.step (State.setHbPois_keeps ..) rfl ?_
    assumption
  clear_value y1 y2
  refine Keeps.cut (y3) ?_ fun h6 => ?_
  · unfold y3
    refine Keeps.step (State.set64_keeps ..) rfl ?_
    assumption
  clear_value y3
  refine Keeps.cut (y4) ?_ fun h7 => ?_
  · unfold y4
    refine Keeps.step (State.setReg_keeps ..) rfl ?_
    assumption
  clear_value y4
  refine Keeps.step (State.raiseC_keeps ..) rfl ?_
  assumption

theorem State.noteChk_keeps (s blk ctx) : Keeps (Fld.regs ||| Fld.hdr ||| Fld.log ||| Fld.out ||| Fld.irq ||| Fld.draws ||| Fld.rungs ||| Fld.rungAt) s (State.noteChk s blk ctx) := by
  unfold State.noteChk
  refine Keeps.cut s (Keeps.refl _ s) fun h0 => ?_
  refine Keeps.step (State.raiseC_keeps ..) rfl ?_
  refine Keeps.step (State.incSat_keeps ..) rfl ?_
  assumption

theorem State.reprogEnd_keeps (s gt result src) : Keeps (Fld.regs ||| Fld.hdr ||| Fld.log ||| Fld.out ||| Fld.irq ||| Fld.draws ||| Fld.rungs ||| Fld.tiles ||| Fld.rungAt) s (State.reprogEnd s gt result src) := by
  unfold State.reprogEnd
  refine Keeps.cut s (Keeps.refl _ s) fun h0 => ?_
  refine Keeps.step (State.raiseI_keeps ..) rfl ?_
  refine Keeps.step (State.reprogResult_keeps ..) rfl ?_
  assumption

theorem execScrubPass_keeps (bad ms s) : KeepsO (Fld.regs ||| Fld.hdr ||| Fld.log ||| Fld.out ||| Fld.irq ||| Fld.draws ||| Fld.rungs ||| Fld.badSlots ||| Fld.scrubFrom ||| Fld.rungAt) s (execScrubPass bad ms s) := by
  unfold execScrubPass
  refine KeepsO.cut s (Keeps.refl _ s) fun h0 => ?_
  refine KeepsO.next ?_
  extract_lets -merge y0 y1 y2 y3 y4 y5 y6 y7
  clear_value y0 y1
  refine Keeps.cut (y2) ?_ fun h8 => ?_
  · unfold y2
    refine Keeps.foldl ?_ ?_
    · intro t9 x10 h11
      refine Keeps.foldl ?_ ?_
      · intro t12 x13 h14
        refine Keeps.step (State.hbCountRead_keeps ..) rfl ?_
        assumption
      assumption
    assumption
  clear_value y2
  refine Keeps.cut (y3) ?_ fun h15 => ?_
  · unfold y3
    refine Keeps.foldl ?_ ?_
    · intro t16 x17 h18
      extract_lets -merge y19
      refine Keeps.cut (y19) ?_ fun h20 => ?_
      · unfold y19
        refine Keeps.step (State.raiseC_keeps ..) rfl ?_
        refine Keeps.step (State.incSat_keeps ..) rfl ?_
        assumption
      clear_value y19
      refine Keeps.ite ?_ ?_
      · assumption
      · exact ((Keeps.set_badSlots _ h20 rfl) :)
    assumption
  clear_value y3
  refine Keeps.cut (y4) ?_ fun h21 => ?_
  · unfold y4
    exact ((Keeps.set_scrubFrom _ h15 rfl) :)
  clear_value y4
  refine Keeps.cut (y5) ?_ fun h22 => ?_
  · unfold y5
    refine Keeps.step (State.setReg_keeps ..) rfl ?_
    refine Keeps.step (State.setF_keeps ..) rfl ?_
    assumption
  clear_value y5
  refine Keeps.cut (y7) ?_ fun h23 => ?_
  · unfold y7
    refine Keeps.step (State.setB_keeps ..) rfl ?_
    assumption
  clear_value y7
  refine Keeps.ite ?_ ?_
  · assumption
  · refine Keeps.ite ?_ ?_
    · refine Keeps.step (State.raise_keeps ..) rfl ?_
      assumption
    · assumption

theorem State.ackFerry_keeps (s k t) : Keeps (Fld.regs ||| Fld.hdr ||| Fld.log ||| Fld.out ||| Fld.irq ||| Fld.draws ||| Fld.rungs ||| Fld.tiles ||| Fld.owners ||| Fld.runs ||| Fld.rungAt) s (State.ackFerry s k t) := by
  unfold State.ackFerry
  refine Keeps.cut s (Keeps.refl _ s) fun h0 => ?_
  split
  · rename_i a0 a1
    assumption
  · rename_i a2 a3 a4 a5
    extract_lets -merge y6 y7 y8 y9 y10 y11 y12 y13
    clear_value y6 y7 y8
    refine Keeps.cut (y9) ?_ fun h14 => ?_
    · unfold y9
      refine Keeps.ite ?_ ?_
      · refine Keeps.foldl ?_ ?_
        · intro t15 x16 h17
          refine Keeps.step (State.updTx_keeps ..) rfl ?_
          assumption
        assumption
      · assumption
    clear_value y9
    refine Keeps.cut (y10) ?_ fun h18 => ?_
    · unfold y10
      refine Keeps.ite ?_ ?_
      · refine Keeps.step (State.latchFail_keeps ..) rfl ?_
        assumption
      · assumption
    clear_value y10
    refine Keeps.cut (y11) ?_ fun h19 => ?_
    · unfold y11
      exact ((Keeps.set_runs _ h18 rfl) :)
    clear_value y11 y12
    refine Keeps.cut (y13) ?_ fun h20 => ?_
    · unfold y13
      refine Keeps.step (State.updTx_keeps ..) rfl ?_
      assumption
    clear_value y13
    refine Keeps.ite ?_ ?_
    · assumption
    · refine Keeps.ite ?_ ?_
      · assumption
      · refine Keeps.ite ?_ ?_
        · refine Keeps.ite ?_ ?_
          · assumption
          · refine Keeps.step (State.setOwner_keeps ..) rfl ?_
            assumption
        · refine Keeps.ite ?_ ?_
          · refine Keeps.step (State.updTx_keeps ..) rfl ?_
            assumption
          · refine Keeps.step (State.reprogEnd_keeps ..) rfl ?_
            assumption

theorem State.blocksIn_keeps (s isl t line n bad) : Keeps (Fld.regs ||| Fld.hdr ||| Fld.log ||| Fld.out ||| Fld.irq ||| Fld.draws ||| Fld.basin ||| Fld.lines ||| Fld.rungs ||| Fld.rungAt) s (State.blocksIn s isl t line n bad).1 := by
  unfold State.blocksIn
  refine Keeps.cut s (Keeps.refl _ s) fun h0 => ?_
  refine Keeps.foldl_fst ?_ ?_
  · intro t0 c1 x2 h3
    dsimp only
    split
    · rename_i a4 a5
      dsimp only
      assumption
    · rename_i a6 a7 a8
      refine Keeps.foldl_fst ?_ ?_
      · intro t9 c10 x11 h12
        dsimp only
        refine Keeps.step (State.writeLine_keeps ..) rfl ?_
        assumption
      refine Keeps.ite ?_ ?_
      · refine Keeps.step (State.noteChk_keeps ..) rfl ?_
        refine Keeps.step (State.hbCountRead_keeps ..) rfl ?_
        assumption
      · refine Keeps.step (State.hbCountRead_keeps ..) rfl ?_
        assumption
  assumption

theorem execHarbourReadDone_keeps (blk ce ue chk src s) : KeepsO (Fld.regs ||| Fld.hdr ||| Fld.log ||| Fld.out ||| Fld.irq ||| Fld.draws ||| Fld.rungs ||| Fld.hbPoison ||| Fld.runs ||| Fld.hbr ||| Fld.rungAt) s (execHarbourReadDone blk ce ue chk src s) := by
  unfold execHarbourReadDone
  refine KeepsO.cut s (Keeps.refl _ s) fun h0 => ?_
  refine KeepsO.next ?_
  refine Keeps.ite ?_ ?_
  · assumption
  · extract_lets -merge y0 y1 y2 y3 y4 y5
    clear_value y0 y1
    refine Keeps.cut (y2) ?_ fun h6 => ?_
    · unfold y2
      exact ((Keeps.set_hbr _ h0 rfl) :)
    clear_value y2
    refine Keeps.cut (y3) ?_ fun h7 => ?_
    · unfold y3
      refine Keeps.ite ?_ ?_
      · assumption
      · refine Keeps.step (State.raiseC_keeps ..) rfl ?_
        refine Keeps.step (State.incSat_keeps ..) rfl ?_
        assumption
    clear_value y3
    refine Keeps.cut (y4) ?_ fun h8 => ?_
    · unfold y4
      refine Keeps.foldl ?_ ?_
      · intro t9 x10 h11
        refine Keeps.step (State.lineUe_keeps ..) rfl ?_
        assumption
      assumption
    clear_value y4
    refine Keeps.cut (y5) ?_ fun h12 => ?_
    · unfold y5
      refine Keeps.ite ?_ ?_
      · refine Keeps.step (State.noteChk_keeps ..) rfl ?_
        assumption
      · assumption
    clear_value y5
    refine Keeps.ite ?_ ?_
    · refine Keeps.step (State.poisonRuns_keeps ..) rfl ?_
      assumption
    · assumption

theorem State.failRunStep_keeps (s x isl cause) : Keeps (Fld.regs ||| Fld.hdr ||| Fld.log ||| Fld.out ||| Fld.irq ||| Fld.draws ||| Fld.leases ||| Fld.tickets ||| Fld.jobs ||| Fld.ctxs ||| Fld.rungs ||| Fld.imports ||| Fld.ends ||| Fld.rungAt) s (State.failRunStep s x isl cause) := by
  unfold State.failRunStep
  refine Keeps.cut s (Keeps.refl _ s) fun h0 => ?_
  refine Keeps.ite ?_ ?_
  · refine Keeps.step (State.consumePoison_keeps ..) rfl ?_
    assumption
  · refine Keeps.ite ?_ ?_
    · assumption
    · refine Keeps.step (State.failStep_keeps ..) rfl ?_
      assumption

theorem State.failCtrl_keeps (s r cause) : Keeps (Fld.regs ||| Fld.hdr ||| Fld.log ||| Fld.out ||| Fld.irq ||| Fld.draws ||| Fld.leases ||| Fld.tickets ||| Fld.jobs ||| Fld.ctxs ||| Fld.rungs ||| Fld.rows ||| Fld.tiles ||| Fld.runs ||| Fld.imports ||| Fld.ends ||| Fld.rungAt) s (State.failCtrl s r cause) := by
  unfold State.failCtrl
  refine Keeps.cut s (Keeps.refl _ s) fun h0 => ?_
  extract_lets -merge y0 y1
  clear_value y0
  refine Keeps.cut (y1) ?_ fun h2 => ?_
  · unfold y1
    refine Keeps.foldl ?_ ?_
    · intro t3 x4 h5
      refine Keeps.ite ?_ ?_
      · assumption
      · refine Keeps.step (State.stopRun_keeps ..) rfl ?_
        assumption
    assumption
  clear_value y1
  refine Keeps.step (State.failRunStep_keeps ..) rfl ?_
  refine Keeps.step (State.latchFail_keeps ..) rfl ?_
  assumption

theorem State.failPort_keeps (s r isl cause) : Keeps (Fld.regs ||| Fld.hdr ||| Fld.log ||| Fld.out ||| Fld.irq ||| Fld.draws ||| Fld.leases ||| Fld.tickets ||| Fld.jobs ||| Fld.ctxs ||| Fld.rungs ||| Fld.rows ||| Fld.tiles ||| Fld.runs ||| Fld.refetch ||| Fld.imports ||| Fld.ends ||| Fld.rungAt) s (State.failPort s r isl cause) := by
  unfold State.failPort
  refine Keeps.cut s (Keeps.refl _ s) fun h0 => ?_
  extract_lets -merge y0 y1 y2 y3 y4
  clear_value y0 y1
  refine Keeps.cut (y2) ?_ fun h5 => ?_
  · unfold y2
    refine Keeps.ite ?_ ?_
    · exact ((Keeps.set_refetch _ h0 rfl) :)
    · assumption
  clear_value y2
  refine Keeps.cut (y3) ?_ fun h6 => ?_
  · unfold y3
    refine Keeps.step (State.latchFail_keeps ..) rfl ?_
    refine Keeps.step (State.stopRun_keeps ..) rfl ?_
    assumption
  clear_value y3
  refine Keeps.cut (y4) ?_ fun h7 => ?_
  · unfold y4
    refine Keeps.ite ?_ ?_
    · refine Keeps.step (State.raiseC_keeps ..) rfl ?_
      refine Keeps.step (State.incSat_keeps ..) rfl ?_
      assumption
    · refine Keeps.ite ?_ ?_
      · refine Keeps.step (State.raiseC_keeps ..) rfl ?_
        refine Keeps.step (State.incSat_keeps ..) rfl ?_
        assumption
      · assumption
  clear_value y4
  refine Keeps.ite ?_ ?_
  · assumption
  · refine Keeps.step (State.failRunStep_keeps ..) rfl ?_
    assumption

theorem State.blocksOut_keeps (s isl t line n bad) : Keeps (Fld.regs ||| Fld.hdr ||| Fld.log ||| Fld.out ||| Fld.irq ||| Fld.draws ||| Fld.tickets ||| Fld.jobs ||| Fld.rungs ||| Fld.harbour ||| Fld.hbPoison ||| Fld.hbWritten ||| Fld.rungAt) s (State.blocksOut s isl t line n bad).1 := by
  unfold State.blocksOut
  refine Keeps.cut s (Keeps.refl _ s) fun h0 => ?_
  refine Keeps.foldl_fst ?_ ?_
  · intro t0 c1 x2 h3
    dsimp only
    split
    · rename_i a4 a5
      dsimp only
      assumption
    · rename_i a6 a7 a8
      split
      · rename_i a9
        dsimp only
        refine Keeps.step (State.chkFail_keeps ..) rfl ?_
        assumption
      · rename_i a10
        refine Keeps.foldl_fst ?_ ?_
        · intro t11 c12 x13 h14
          dsimp only
          refine Keeps.step (State.hbWriteLine_keeps ..) rfl ?_
          assumption
        assumption
  assumption

theorem execFerryDelivery_keeps (r isl n s) : KeepsO (Fld.regs ||| Fld.hdr ||| Fld.log ||| Fld.out ||| Fld.irq ||| Fld.draws ||| Fld.leases ||| Fld.tickets ||| Fld.jobs ||| Fld.ctxs ||| Fld.rungs ||| Fld.rows ||| Fld.tiles ||| Fld.runs ||| Fld.refetch ||| Fld.imports ||| Fld.ends ||| Fld.rungAt) s (execFerryDelivery r isl n s) := by
  unfold execFerryDelivery
  refine KeepsO.cut s (Keeps.refl _ s) fun h0 => ?_
  refine KeepsO.next ?_
  extract_lets -merge y0 y1 y2 y3
  clear_value y0 y1 y2
  refine Keeps.cut (y3) ?_ fun h4 => ?_
  · unfold y3
    refine Keeps.step (State.setRun_keeps ..) rfl ?_
    assumption
  clear_value y3
  refine Keeps.ite ?_ ?_
  · assumption
  · refine Keeps.ite ?_ ?_
    · refine Keeps.step (State.failPort_keeps ..) rfl ?_
      assumption
    · refine Keeps.ite ?_ ?_
      · assumption
      · refine Keeps.ite ?_ ?_
        · assumption
        · refine Keeps.ite ?_ ?_
          · refine Keeps.step (State.failPort_keeps ..) rfl ?_
            assumption
          · refine Keeps.ite ?_ ?_
            · refine Keeps.step (State.failPort_keeps ..) rfl ?_
              assumption
            · assumption

theorem State.finishRun_keeps (s r isl) : Keeps (Fld.regs ||| Fld.hdr ||| Fld.log ||| Fld.out ||| Fld.irq ||| Fld.draws ||| Fld.leases ||| Fld.tickets ||| Fld.jobs ||| Fld.ctxs ||| Fld.rungs ||| Fld.rows ||| Fld.tiles ||| Fld.runs ||| Fld.refetch ||| Fld.imports ||| Fld.ends ||| Fld.rungAt) s (State.finishRun s r isl) := by
  unfold State.finishRun
  refine Keeps.cut s (Keeps.refl _ s) fun h0 => ?_
  extract_lets -merge y0 y1 y2
  clear_value y0 y1
  refine Keeps.cut (y2) ?_ fun h3 => ?_
  · unfold y2
    split
    · rename_i a4 a5
      extract_lets -merge y6
      clear_value y6
      refine Keeps.foldl ?_ ?_
      · intro t7 x8 h9
        refine Keeps.step (State.loadScales_keeps ..) rfl ?_
        assumption
      assumption
    · rename_i a10
      assumption
  clear_value y2
  refine Keeps.ite ?_ ?_
  · assumption
  · refine Keeps.ite ?_ ?_
    · refine Keeps.step (State.failPort_keeps ..) rfl ?_
      assumption
    · split
      · rename_i a11 a12 a13 a14
        refine Keeps.step (State.setTk_keeps ..) rfl ?_
        assumption
      · rename_i a15 a16
        assumption

theorem execWriteTiles_keeps (isl idx s) : KeepsO (Fld.regs ||| Fld.hdr ||| Fld.log ||| Fld.out ||| Fld.irq ||| Fld.draws ||| Fld.tickets ||| Fld.acct ||| Fld.rungs ||| Fld.rungAt) s (execWriteTiles isl idx s) := by
  unfold execWriteTiles
  refine KeepsO.cut s (Keeps.refl _ s) fun h0 => ?_
  refine KeepsO.next ?_
  refine State.launchAndRun_hof ?_ rfl ?_
  · intro t0 x1 x2 x3
    split
    · rename_i a4 a5 a6 a7
      refine Keeps.ite ?_ ?_
      · refine Keeps.step (State.setTk_keeps ..) rfl ?_
        assumption
      · assumption
    · rename_i a8 a9
      assumption
  assumption

theorem execHbToBasin_keeps (isl idx bad s) : KeepsO (Fld.regs ||| Fld.hdr ||| Fld.log ||| Fld.out ||| Fld.irq ||| Fld.draws ||| Fld.leases ||| Fld.tickets ||| Fld.jobs ||| Fld.acct ||| Fld.ctxs ||| Fld.basin ||| Fld.lines ||| Fld.rungs ||| Fld.imports ||| Fld.ends ||| Fld.rungAt) s (execHbToBasin isl idx bad s) := by
  unfold execHbToBasin
  refine KeepsO.cut s (Keeps.refl _ s) fun h0 => ?_
  refine KeepsO.next ?_
  refine State.launchAndRun_hof ?_ rfl ?_
  · intro t0 x1 x2 x3
    extract_lets -merge y4
    clear_value y4
    split
    · rename_i a5 a6 a7 a8
      refine Keeps.cut (a6) ?_ fun h9 => ?_
      · refine Keeps.of_fst a8 ?_
        refine Keeps.step (State.blocksIn_keeps ..) rfl ?_
        assumption
      extract_lets -merge y10 y11 y12
      refine Keeps.cut (y10) ?_ fun h13 => ?_
      · unfold y10
        refine Keeps.step (State.add64_keeps ..) rfl ?_
        assumption
      clear_value y10
      refine Keeps.cut (y11) ?_ fun h14 => ?_
      · unfold y11
        refine Keeps.step (State.noteUse_keeps ..) rfl ?_
        assumption
      clear_value y11 y12
      refine Keeps.step (State.setTk_keeps ..) rfl ?_
      assumption
  assumption

theorem execBasinToHb_keeps (isl idx bad s) : KeepsO (Fld.regs ||| Fld.hdr ||| Fld.log ||| Fld.out ||| Fld.irq ||| Fld.draws ||| Fld.leases ||| Fld.tickets ||| Fld.jobs ||| Fld.acct ||| Fld.ctxs ||| Fld.rungs ||| Fld.harbour ||| Fld.hbPoison ||| Fld.hbWritten ||| Fld.imports ||| Fld.ends ||| Fld.rungAt) s (execBasinToHb isl idx bad s) := by
  unfold execBasinToHb
  refine KeepsO.cut s (Keeps.refl _ s) fun h0 => ?_
  refine KeepsO.next ?_
  refine State.launchAndRun_hof ?_ rfl ?_
  · intro t0 x1 x2 x3
    split
    · rename_i a4 a5 a6 a7
      refine Keeps.cut (a5) ?_ fun h8 => ?_
      · refine Keeps.of_fst a7 ?_
        refine Keeps.step (State.blocksOut_keeps ..) rfl ?_
        assumption
      extract_lets -merge y9 y10
      refine Keeps.cut (y9) ?_ fun h11 => ?_
      · unfold y9
        refine Keeps.step (State.noteUse_keeps ..) rfl ?_
        assumption
      clear_value y9 y10
      refine Keeps.step (State.setTk_keeps ..) rfl ?_
      assumption
  assumption

theorem execFerryRowWrite_keeps (isl idx plain s) : KeepsO (Fld.regs ||| Fld.hdr ||| Fld.log ||| Fld.out ||| Fld.irq ||| Fld.draws ||| Fld.leases ||| Fld.tickets ||| Fld.jobs ||| Fld.acct ||| Fld.ctxs ||| Fld.rungs ||| Fld.rows ||| Fld.tiles ||| Fld.runs ||| Fld.refetch ||| Fld.imports ||| Fld.ends ||| Fld.rungAt) s (execFerryRowWrite isl idx plain s) := by
  unfold execFerryRowWrite
  refine KeepsO.cut s (Keeps.refl _ s) fun h0 => ?_
  refine KeepsO.next ?_
  extract_lets -merge y0 y1
  clear_value y0 y1
  split
  · rename_i a2 a3
    assumption
  · rename_i a4 a5 a6 a7
    extract_lets -merge y8 y9 y10 y11 y12
    clear_value y8 y9 y10 y11 y12
    refine Keeps.ite ?_ ?_
    · assumption
    · split
      · rename_i a13 a14 a15
        refine Keeps.step (State.failPort_keeps ..) rfl ?_
        refine Keeps.step (State.raiseUnlock_keeps ..) rfl ?_
        refine Keeps.step (State.setRun_keeps ..) rfl ?_
        assumption
      · rename_i a16 a17
        split
        · rename_i a18 a19
          assumption
        · rename_i a20 a21 a22
          refine Keeps.cut (a21) ?_ fun h23 => ?_
          · refine Keeps.step (State.grant_keeps a22) rfl ?_
            assumption
          extract_lets -merge y24 y25 y26 y27
          clear_value y24
          refine Keeps.cut (y25) ?_ fun h28 => ?_
          · unfold y25
            refine Keeps.ite ?_ ?_
            · refine Keeps.step (State.add64_keeps ..) rfl ?_
              assumption
            · assumption
          clear_value y25
          refine Keeps.cut (y26) ?_ fun h29 => ?_
          · unfold y26
            refine Keeps.foldl ?_ ?_
            · intro t30 x31 h32
              extract_lets -merge y33
              refine Keeps.cut (y33) ?_ fun h34 => ?_
              · unfold y33
                refine Keeps.ite ?_ ?_
                · assumption
                · refine Keeps.step (State.setF_keeps ..) rfl ?_
                  assumption
              clear_value y33
              refine Keeps.step (State.rowWrite_keeps ..) rfl ?_
              assumption
            assumption
          clear_value y26
          refine Keeps.cut (y27) ?_ fun h35 => ?_
          · unfold y27
            refine Keeps.step (State.setRun_keeps ..) rfl ?_
            assumption
          clear_value y27
          refine Keeps.ite ?_ ?_
          · refine Keeps.step (State.failPort_keeps ..) rfl ?_
            refine Keeps.step (State.setRun_keeps ..) rfl ?_
            assumption
          · refine Keeps.step (State.finishRun_keeps ..) rfl ?_
            assumption

theorem execFerryFetch_keeps (j h cmd data ok s) : KeepsO (Fld.regs ||| Fld.hdr ||| Fld.log ||| Fld.out ||| Fld.irq ||| Fld.draws ||| Fld.leases ||| Fld.tickets ||| Fld.jobs ||| Fld.ctxs ||| Fld.rungs ||| Fld.rows ||| Fld.tiles ||| Fld.badSlots ||| Fld.runs ||| Fld.nextRun ||| Fld.refetch ||| Fld.imports ||| Fld.ends ||| Fld.rungAt) s (execFerryFetch j h cmd data ok s) := by
  unfold execFerryFetch
  refine KeepsO.cut s (Keeps.refl _ s) fun h0 => ?_
  refine KeepsO.next ?_
  extract_lets -merge y0 y1 y2
  clear_value y0 y1
  refine Keeps.cut (y2) ?_ fun h3 => ?_
  · unfold y2
    exact ((Keeps.set_nextRun _ h0 rfl) :)
  clear_value y2
  split
  · rename_i a4 a5 a6
    extract_lets -merge y7 y8 y9
    refine Keeps.cut (y7) ?_ fun h10 => ?_
    · unfold y7
      exact ((Keeps.set_refetch _ h0 rfl) :)
    clear_value y7
    refine Keeps.cut (y8) ?_ fun h11 => ?_
    · unfold y8
      refine Keeps.foldl ?_ ?_
      · intro t12 x13 h14
        refine Keeps.step (State.hbCountRead_keeps ..) rfl ?_
        assumption
      assumption
    clear_value y8
    refine Keeps.cut (y9) ?_ fun h15 => ?_
    · unfold y9
      refine Keeps.step (State.add64_keeps ..) rfl ?_
      assumption
    clear_value y9
    refine Keeps.ite ?_ ?_
    · assumption
    · exact ((Keeps.set_badSlots _ h15 rfl) :)
  · rename_i a16 a17
    split
    · rename_i a18 a19
      assumption
    · rename_i a20 a21 a22 a23
      refine Keeps.ite ?_ ?_
      · assumption
      · refine Keeps.ite ?_ ?_
        · refine Keeps.step (State.setRun_keeps ..) rfl ?_
          refine Keeps.step (State.add64_keeps ..) rfl ?_
          assumption
        · refine Keeps.ite ?_ ?_
          · refine Keeps.step (State.failCtrl_keeps ..) rfl ?_
            refine Keeps.step (State.setRun_keeps ..) rfl ?_
            assumption
          · extract_lets -merge y24
            clear_value y24
            refine Keeps.step (State.setRun_keeps ..) rfl ?_
            refine Keeps.step (State.countSlot_keeps ..) rfl ?_
            assumption

theorem execFerryVerify_keeps (isl idx tagOk digestOk s) : KeepsO (Fld.regs ||| Fld.hdr ||| Fld.log ||| Fld.out ||| Fld.irq ||| Fld.draws ||| Fld.leases ||| Fld.tickets ||| Fld.jobs ||| Fld.ctxs ||| Fld.rungs ||| Fld.rows ||| Fld.tiles ||| Fld.runs ||| Fld.refetch ||| Fld.imports ||| Fld.ends ||| Fld.rungAt) s (execFerryVerify isl idx tagOk digestOk s) := by
  unfold execFerryVerify
  refine KeepsO.cut s (Keeps.refl _ s) fun h0 => ?_
  refine KeepsO.next ?_
  extract_lets -merge y0
  clear_value y0
  split
  · rename_i a1 a2
    assumption
  · rename_i a3 a4 a5 a6
    refine Keeps.ite ?_ ?_
    · assumption
    · refine Keeps.ite ?_ ?_
      · refine Keeps.step (State.failPort_keeps ..) rfl ?_
        assumption
      · refine Keeps.ite ?_ ?_
        · refine Keeps.step (State.failPort_keeps ..) rfl ?_
          assumption
        · refine Keeps.step (State.finishRun_keeps ..) rfl ?_
          refine Keeps.step (State.setRun_keeps ..) rfl ?_
          assumption

theorem execFryCistErr_keeps (r s) : KeepsO (Fld.regs ||| Fld.hdr ||| Fld.log ||| Fld.out ||| Fld.irq ||| Fld.draws ||| Fld.leases ||| Fld.tickets ||| Fld.jobs ||| Fld.ctxs ||| Fld.rungs ||| Fld.rows ||| Fld.tiles ||| Fld.runs ||| Fld.imports ||| Fld.ends ||| Fld.rungAt) s (execFryCistErr r s) := by
  unfold execFryCistErr
  refine KeepsO.cut s (Keeps.refl _ s) fun h0 => ?_
  refine KeepsO.next ?_
  extract_lets -merge y0
  clear_value y0
  refine Keeps.ite ?_ ?_
  · assumption
  · refine Keeps.step (State.failCtrl_keeps ..) rfl ?_
    refine Keeps.step (State.raiseC_keeps ..) rfl ?_
    refine Keeps.step (State.incSat_keeps ..) rfl ?_
    assumption

end Sys2Proof.Machine
end

