-- ==== Sys2Proof/Laws/Swap.lean ====
section
/-!
SUPPORT. What each function of Machine/Swap.lean may change, and that it keeps the invariant of State.
-/
set_option linter.unusedVariables false
namespace Sys2Proof.Machine

theorem State.dropOnce_keeps (s h) : Keeps (Fld.runs) s (State.dropOnce s h) := by
  unfold State.dropOnce
  refine Keeps.cut s (Keeps.refl _ s) fun h0 => ?_
  exact ((Keeps.set_runs _ h0 rfl) :)

theorem State.movePlan_keeps (s h h') : Keeps (Fld.jobs) s (State.movePlan s h h') := by
  unfold State.movePlan
  refine Keeps.cut s (Keeps.refl _ s) fun h0 => ?_
  refine Keeps.ite ?_ ?_
  · assumption
  · exact ((Keeps.set_jobs _ h0 rfl) :)

theorem State.endSwap_keeps (s w failed) : Keeps (Fld.regs ||| Fld.swaps) s (State.endSwap s w failed) := by
  unfold State.endSwap
  refine Keeps.cut s (Keeps.refl _ s) fun h0 => ?_
  refine Keeps.step (State.setB_keeps ..) rfl ?_
  refine Keeps.step (State.setF_keeps ..) rfl ?_
  exact ((Keeps.set_swaps _ h0 rfl) :)

theorem State.noteSwap_keeps (s w) : Keeps (Fld.regs) s (State.noteSwap s w) := by
  unfold State.noteSwap
  refine Keeps.cut s (Keeps.refl _ s) fun h0 => ?_
  refine Keeps.step (State.setReg_keeps ..) rfl ?_
  assumption

theorem State.startSwap_keeps (s c old new j) : Keeps (Fld.regs ||| Fld.ctxs ||| Fld.swaps) s (State.startSwap s c old new j) := by
  unfold State.startSwap
  refine Keeps.cut s (Keeps.refl _ s) fun h0 => ?_
  extract_lets -merge y0 y1 y2
  clear_value y0
  refine Keeps.cut (y1) ?_ fun h3 => ?_
  · unfold y1
    exact ((Keeps.set_swaps _ h0 rfl) :)
  clear_value y1 y2
  refine Keeps.step (State.noteSwap_keeps ..) rfl ?_
  refine Keeps.step (State.setCx_keeps ..) rfl ?_
  assumption

theorem State.setSwap_keeps (s w) : Keeps (Fld.regs ||| Fld.swaps) s (State.setSwap s w) := by
  unfold State.setSwap
  refine Keeps.cut s (Keeps.refl _ s) fun h0 => ?_
  refine Keeps.step (State.noteSwap_keeps ..) rfl ?_
  exact ((Keeps.set_swaps _ h0 rfl) :)

theorem State.openGate_keeps (s c) : Keeps (Fld.ctxs) s (State.openGate s c) := by
  unfold State.openGate
  refine Keeps.cut s (Keeps.refl _ s) fun h0 => ?_
  refine Keeps.ite ?_ ?_
  · assumption
  · extract_lets -merge y0
    clear_value y0
    refine Keeps.step (State.setCx_keeps ..) rfl ?_
    assumption

theorem State.swapJob_keeps (s w status) : Keeps (Fld.jobs ||| Fld.ends) s (State.swapJob s w status) := by
  unfold State.swapJob
  refine Keeps.cut s (Keeps.refl _ s) fun h0 => ?_
  refine Keeps.ite ?_ ?_
  · assumption
  · refine Keeps.step (State.endJob_keeps ..) rfl ?_
    assumption

theorem State.swapOpen_keeps (s w) : Keeps (Fld.regs ||| Fld.jobs ||| Fld.plans ||| Fld.ctxs ||| Fld.swaps) s (State.swapOpen s w) := by
  unfold State.swapOpen
  refine Keeps.cut s (Keeps.refl _ s) fun h0 => ?_
  extract_lets -merge y0 y1 y2 y3 y4
  refine Keeps.cut (y0) ?_ fun h5 => ?_
  · unfold y0
    refine Keeps.step (State.setReg_keeps ..) rfl ?_
    assumption
  clear_value y0
  refine Keeps.cut (y1) ?_ fun h6 => ?_
  · unfold y1
    refine Keeps.step (State.movePlan_keeps ..) rfl ?_
    assumption
  clear_value y1 y2 y3
  refine Keeps.cut (y4) ?_ fun h7 => ?_
  · unfold y4
    refine Keeps.ite ?_ ?_
    · split
      · rename_i a8 a9 a10
        refine Keeps.step (State.setPlan_keeps ..) rfl ?_
        assumption
      · rename_i a11 a12
        assumption
    · assumption
  clear_value y4
  refine Keeps.step (State.setSwap_keeps ..) rfl ?_
  refine Keeps.step (State.openGate_keeps ..) rfl ?_
  assumption

theorem State.enterOnce_keeps (s c) : Keeps (Fld.regs ||| Fld.tickets ||| Fld.swaps) s (State.enterOnce s c) := by
  unfold State.enterOnce
  refine Keeps.cut s (Keeps.refl _ s) fun h0 => ?_
  split
  · rename_i a0 a1
    assumption
  · rename_i a2 a3 a4
    extract_lets -merge y5
    clear_value y5
    split
    · rename_i a6 a7 a8 a9
      refine Keeps.cut (a7) ?_ fun h10 => ?_
      · refine Keeps.of_fst a9 ?_
        refine Keeps.foldl_fst ?_ ?_
        · intro t11 c12 x13 h14
          dsimp only
          split
          · rename_i a15 a16
            dsimp only
            assumption
          · rename_i a17 a18 a19
            dsimp only
            refine Keeps.step (State.enter_keeps ..) rfl ?_
            assumption
        assumption
      refine Keeps.step (State.setSwap_keeps ..) rfl ?_
      assumption

theorem State.beginLayer_keeps (s w) : Keeps (Fld.regs ||| Fld.tickets ||| Fld.swaps) s (State.beginLayer s w) := by
  unfold State.beginLayer
  refine Keeps.cut s (Keeps.refl _ s) fun h0 => ?_
  extract_lets -merge y0 y1
  clear_value y0 y1
  refine Keeps.step (State.enterOnce_keeps ..) rfl ?_
  refine Keeps.step (State.setSwap_keeps ..) rfl ?_
  assumption

theorem execFrySwapDone_keeps (c s) : KeepsO (Fld.regs ||| Fld.hdr ||| Fld.log ||| Fld.out ||| Fld.irq ||| Fld.draws ||| Fld.leases ||| Fld.tickets ||| Fld.jobs ||| Fld.plans ||| Fld.acct ||| Fld.ctxs ||| Fld.qps ||| Fld.landing ||| Fld.rungs ||| Fld.rows ||| Fld.tiles ||| Fld.harbour ||| Fld.hbPoison ||| Fld.hbWritten ||| Fld.frames ||| Fld.badSlots ||| Fld.owners ||| Fld.runs ||| Fld.swaps ||| Fld.ends ||| Fld.rungAt) s (execFrySwapDone c s) := by
  unfold execFrySwapDone
  refine KeepsO.cut s (Keeps.refl _ s) fun h0 => ?_
  refine KeepsO.next ?_
  split
  · rename_i a0 a1
    assumption
  · rename_i a2 a3 a4
    extract_lets -merge y5 y6 y7 y8
    clear_value y5
    refine Keeps.cut (y6) ?_ fun h9 => ?_
    · unfold y6
      refine Keeps.ite ?_ ?_
      · refine Keeps.step (State.swapOpen_keeps ..) rfl ?_
        assumption
      · assumption
    clear_value y6
    refine Keeps.cut (y7) ?_ fun h10 => ?_
    · unfold y7
      refine Keeps.step (State.endSwap_keeps ..) rfl ?_
      assumption
    clear_value y7
    refine Keeps.cut (y8) ?_ fun h11 => ?_
    · unfold y8
      refine Keeps.ite ?_ ?_
      · assumption
      · refine Keeps.step (State.unloadNow_keeps ..) rfl ?_
        assumption
    clear_value y8
    refine Keeps.ite ?_ ?_
    · assumption
    · refine Keeps.step (State.raiseC_keeps ..) rfl ?_
      refine Keeps.step (State.swapJob_keeps ..) rfl ?_
      assumption

theorem State.swapLost_keeps (s w) : Keeps (Fld.regs ||| Fld.hdr ||| Fld.log ||| Fld.out ||| Fld.irq ||| Fld.draws ||| Fld.leases ||| Fld.tickets ||| Fld.jobs ||| Fld.plans ||| Fld.acct ||| Fld.ctxs ||| Fld.qps ||| Fld.landing ||| Fld.rungs ||| Fld.rows ||| Fld.tiles ||| Fld.harbour ||| Fld.hbPoison ||| Fld.hbWritten ||| Fld.frames ||| Fld.badSlots ||| Fld.owners ||| Fld.runs ||| Fld.swaps ||| Fld.ends ||| Fld.rungAt) s (State.swapLost s w) := by
  unfold State.swapLost
  refine Keeps.cut s (Keeps.refl _ s) fun h0 => ?_
  extract_lets -merge y0 y1 y2 y3
  refine Keeps.cut (y0) ?_ fun h4 => ?_
  · unfold y0
    refine Keeps.step (State.setReg_keeps ..) rfl ?_
    assumption
  clear_value y0
  refine Keeps.cut (y1) ?_ fun h5 => ?_
  · unfold y1
    refine Keeps.foldl ?_ ?_
    · intro t6 x7 h8
      refine Keeps.step (State.endJob_keeps ..) rfl ?_
      assumption
    assumption
  clear_value y1
  refine Keeps.cut (y2) ?_ fun h9 => ?_
  · unfold y2
    refine Keeps.step (State.unloadNow_keeps ..) rfl ?_
    refine Keeps.step (State.unloadNow_keeps ..) rfl ?_
    refine Keeps.step (State.endSwap_keeps ..) rfl ?_
    assumption
  clear_value y2
  refine Keeps.cut (y3) ?_ fun h10 => ?_
  · unfold y3
    refine Keeps.step (State.swapJob_keeps ..) rfl ?_
    refine Keeps.step (State.openGate_keeps ..) rfl ?_
    assumption
  clear_value y3
  refine Keeps.step (State.raiseC_keeps ..) rfl ?_
  assumption

theorem State.swapFailed_keeps (s w) : Keeps (Fld.regs ||| Fld.hdr ||| Fld.log ||| Fld.out ||| Fld.irq ||| Fld.draws ||| Fld.leases ||| Fld.tickets ||| Fld.jobs ||| Fld.plans ||| Fld.acct ||| Fld.ctxs ||| Fld.qps ||| Fld.landing ||| Fld.rungs ||| Fld.rows ||| Fld.tiles ||| Fld.harbour ||| Fld.hbPoison ||| Fld.hbWritten ||| Fld.frames ||| Fld.badSlots ||| Fld.owners ||| Fld.runs ||| Fld.swaps ||| Fld.ends ||| Fld.rungAt) s (State.swapFailed s w) := by
  unfold State.swapFailed
  refine Keeps.cut s (Keeps.refl _ s) fun h0 => ?_
  extract_lets -merge y0 y1 y2
  refine Keeps.cut (y0) ?_ fun h3 => ?_
  · unfold y0
    refine Keeps.step (State.movePlan_keeps ..) rfl ?_
    assumption
  clear_value y0
  refine Keeps.cut (y1) ?_ fun h4 => ?_
  · unfold y1
    refine Keeps.step (State.unloadNow_keeps ..) rfl ?_
    refine Keeps.step (State.endSwap_keeps ..) rfl ?_
    assumption
  clear_value y1
  refine Keeps.cut (y2) ?_ fun h5 => ?_
  · unfold y2
    refine Keeps.step (State.swapJob_keeps ..) rfl ?_
    refine Keeps.step (State.openGate_keeps ..) rfl ?_
    assumption
  clear_value y2
  refine Keeps.step (State.raiseC_keeps ..) rfl ?_
  assumption

theorem State.rollBack_keeps (s w) : Keeps (Fld.regs ||| Fld.hdr ||| Fld.log ||| Fld.out ||| Fld.irq ||| Fld.draws ||| Fld.leases ||| Fld.tickets ||| Fld.jobs ||| Fld.plans ||| Fld.acct ||| Fld.ctxs ||| Fld.qps ||| Fld.landing ||| Fld.rungs ||| Fld.rows ||| Fld.tiles ||| Fld.harbour ||| Fld.hbPoison ||| Fld.hbWritten ||| Fld.frames ||| Fld.badSlots ||| Fld.owners ||| Fld.runs ||| Fld.swaps ||| Fld.ends ||| Fld.rungAt) s (State.rollBack s w) := by
  unfold State.rollBack
  refine Keeps.cut s (Keeps.refl _ s) fun h0 => ?_
  extract_lets -merge y0 y1 y2 y3 y4
  clear_value y0
  refine Keeps.cut (y1) ?_ fun h5 => ?_
  · unfold y1
    refine Keeps.step (State.setCx_keeps ..) rfl ?_
    assumption
  clear_value y1
  refine Keeps.cut (y2) ?_ fun h6 => ?_
  · unfold y2
    refine Keeps.foldl ?_ ?_
    · intro t7 x8 h9
      refine Keeps.step (State.failStep_keeps ..) rfl ?_
      assumption
    assumption
  clear_value y2 y3
  refine Keeps.cut (y4) ?_ fun h10 => ?_
  · unfold y4
    refine Keeps.step (State.setSwap_keeps ..) rfl ?_
    assumption
  clear_value y4
  refine Keeps.ite ?_ ?_
  · refine Keeps.step (State.swapFailed_keeps ..) rfl ?_
    assumption
  · assumption

theorem State.layerEnd_keeps (s w) : Keeps (Fld.regs ||| Fld.hdr ||| Fld.log ||| Fld.out ||| Fld.irq ||| Fld.draws ||| Fld.leases ||| Fld.tickets ||| Fld.jobs ||| Fld.plans ||| Fld.acct ||| Fld.ctxs ||| Fld.qps ||| Fld.landing ||| Fld.rungs ||| Fld.rows ||| Fld.tiles ||| Fld.harbour ||| Fld.hbPoison ||| Fld.hbWritten ||| Fld.frames ||| Fld.badSlots ||| Fld.owners ||| Fld.runs ||| Fld.swaps ||| Fld.ends ||| Fld.rungAt) s (State.layerEnd s w) := by
  unfold State.layerEnd
  refine Keeps.cut s (Keeps.refl _ s) fun h0 => ?_
  extract_lets -merge y0 y1 y2 y3 y4 y5
  clear_value y0
  refine Keeps.cut (y1) ?_ fun h6 => ?_
  · unfold y1
    refine Keeps.step (State.dropOnce_keeps ..) rfl ?_
    assumption
  clear_value y1 y2 y3
  refine Keeps.cut (y4) ?_ fun h7 => ?_
  · unfold y4
    refine Keeps.ite ?_ ?_
    · refine Keeps.step (State.swapOpen_keeps ..) rfl ?_
      assumption
    · assumption
  clear_value y4 y5
  refine Keeps.ite ?_ ?_
  · refine Keeps.ite ?_ ?_
    · refine Keeps.step (State.enterOnce_keeps ..) rfl ?_
      refine Keeps.step (State.setSwap_keeps ..) rfl ?_
      assumption
    · refine Keeps.ite ?_ ?_
      · refine Keeps.step (State.swapLost_keeps ..) rfl ?_
        assumption
      · refine Keeps.step (State.rollBack_keeps ..) rfl ?_
        assumption
  · refine Keeps.ite ?_ ?_
    · refine Keeps.ite ?_ ?_
      · refine Keeps.step (State.setSwap_keeps ..) rfl ?_
        assumption
      · refine Keeps.step (State.swapFailed_keeps ..) rfl ?_
        assumption
    · refine Keeps.step (State.setSwap_keeps ..) rfl ?_
      assumption

theorem State.swapAck_keeps (s c) : Keeps (Fld.regs ||| Fld.hdr ||| Fld.log ||| Fld.out ||| Fld.irq ||| Fld.draws ||| Fld.leases ||| Fld.tickets ||| Fld.jobs ||| Fld.plans ||| Fld.acct ||| Fld.ctxs ||| Fld.qps ||| Fld.landing ||| Fld.rungs ||| Fld.rows ||| Fld.tiles ||| Fld.harbour ||| Fld.hbPoison ||| Fld.hbWritten ||| Fld.frames ||| Fld.badSlots ||| Fld.owners ||| Fld.runs ||| Fld.swaps ||| Fld.ends ||| Fld.rungAt) s (State.swapAck s c) := by
  unfold State.swapAck
  refine Keeps.cut s (Keeps.refl _ s) fun h0 => ?_
  extract_lets -merge y0
  refine Keeps.cut (y0) ?_ fun h1 => ?_
  · unfold y0
    refine Keeps.step (State.enterOnce_keeps ..) rfl ?_
    assumption
  clear_value y0
  split
  · rename_i a2 a3
    assumption
  · rename_i a4 a5 a6
    refine Keeps.ite ?_ ?_
    · refine Keeps.step (State.layerEnd_keeps ..) rfl ?_
      assumption
    · assumption

theorem execSwapLayerRewrite_keeps (c s) : KeepsO (Fld.regs ||| Fld.hdr ||| Fld.log ||| Fld.out ||| Fld.irq ||| Fld.draws ||| Fld.leases ||| Fld.tickets ||| Fld.jobs ||| Fld.plans ||| Fld.acct ||| Fld.ctxs ||| Fld.qps ||| Fld.landing ||| Fld.rungs ||| Fld.rows ||| Fld.tiles ||| Fld.harbour ||| Fld.hbPoison ||| Fld.hbWritten ||| Fld.frames ||| Fld.badSlots ||| Fld.owners ||| Fld.runs ||| Fld.swaps ||| Fld.ends ||| Fld.rungAt) s (execSwapLayerRewrite c s) := by
  unfold execSwapLayerRewrite
  refine KeepsO.cut s (Keeps.refl _ s) fun h0 => ?_
  refine KeepsO.next ?_
  split
  · rename_i a0 a1
    assumption
  · rename_i a2 a3 a4
    extract_lets -merge y5
    clear_value y5
    refine Keeps.ite ?_ ?_
    · refine Keeps.step (State.swapAck_keeps ..) rfl ?_
      assumption
    · refine Keeps.ite ?_ ?_
      · refine Keeps.ite ?_ ?_
        · refine Keeps.step (State.swapAck_keeps ..) rfl ?_
          refine Keeps.step (State.beginLayer_keeps ..) rfl ?_
          assumption
        · assumption
      · refine Keeps.ite ?_ ?_
        · refine Keeps.ite ?_ ?_
          · refine Keeps.step (State.swapOpen_keeps ..) rfl ?_
            assumption
          · assumption
        · refine Keeps.ite ?_ ?_
          · refine Keeps.step (State.swapAck_keeps ..) rfl ?_
            refine Keeps.step (State.beginLayer_keeps ..) rfl ?_
            assumption
          · assumption

end Sys2Proof.Machine
end

