-- ==== Sys2Proof/Laws/Steps.lean ====
section
/-!
SUPPORT. What each function of Machine/Steps.lean may change, and that it keeps the invariant of State.
-/
set_option linter.unusedVariables false
namespace Sys2Proof.Machine

theorem State.measure_keeps (s isl t early) : Keeps (Fld.tide ||| Fld.slu) s (State.measure s isl t early) := by
  unfold State.measure
  refine Keeps.cut s (Keeps.refl _ s) fun h0 => ?_
  split
  · rename_i a0 a1
    assumption
  · rename_i a2 a3 a4
    refine Keeps.ite ?_ ?_
    · assumption
    · extract_lets -merge y5 y6 y7 y8 y9
      clear_value y5 y6 y7
      refine Keeps.cut (y8) ?_ fun h10 => ?_
      · unfold y8
        exact ((Keeps.set_tide _ h0 rfl) :)
      clear_value y8 y9
      refine Keeps.ite ?_ ?_
      · exact ((Keeps.set_slu _ h10 rfl) :)
      · assumption

theorem State.renewPlan_keeps (s h) : Keeps (Fld.leases) s (State.renewPlan s h) := by
  unfold State.renewPlan
  refine Keeps.cut s (Keeps.refl _ s) fun h0 => ?_
  exact ((Keeps.set_leases _ h0 rfl) :)

theorem State.dynCount_keeps (s isl) : Keeps (Fld.regs) s (State.dynCount s isl) := by
  unfold State.dynCount
  refine Keeps.cut s (Keeps.refl _ s) fun h0 => ?_
  extract_lets -merge y0
  clear_value y0
  refine Keeps.ite ?_ ?_
  · assumption
  · refine Keeps.foldl ?_ ?_
    · intro t1 x2 h3
      refine Keeps.step (State.setB_keeps ..) rfl ?_
      assumption
    refine Keeps.step (State.setF_keeps ..) rfl ?_
    assumption

theorem State.marker_keeps (s) : Keeps (Fld.out ||| Fld.tide) s (State.marker s) := by
  unfold State.marker
  refine Keeps.cut s (Keeps.refl _ s) fun h0 => ?_
  extract_lets -merge y0 y1
  clear_value y0 y1
  refine Keeps.ite ?_ ?_
  · refine Keeps.step (State.emit_keeps ..) rfl ?_
    exact ((Keeps.set_tide _ h0 rfl) :)
  · assumption

theorem State.bindArmed_keeps (s h j origin) : Keeps (Fld.tickets ||| Fld.jobs) s (State.bindArmed s h j origin) := by
  unfold State.bindArmed
  refine Keeps.cut s (Keeps.refl _ s) fun h0 => ?_
  extract_lets -merge y0 y1
  clear_value y0
  refine Keeps.cut (y1) ?_ fun h2 => ?_
  · unfold y1
    refine Keeps.foldl ?_ ?_
    · intro t3 x4 h5
      refine Keeps.ite ?_ ?_
      · split
        · rename_i a6 a7 a8
          refine Keeps.step (State.setJob_keeps ..) rfl ?_
          assumption
        · rename_i a9 a10
          assumption
      · assumption
    assumption
  clear_value y1
  refine Keeps.step (State.mapTk_keeps ..) rfl ?_
  assumption

theorem State.dynCall_keeps (s isl idx) : Keeps (Fld.regs ||| Fld.tickets ||| Fld.acct) s (State.dynCall s isl idx) := by
  unfold State.dynCall
  refine Keeps.cut s (Keeps.refl _ s) fun h0 => ?_
  extract_lets -merge y0 y1 y2 y3 y4 y5 y6 y7
  clear_value y0 y1 y2 y3
  refine Keeps.cut (y4) ?_ fun h8 => ?_
  · unfold y4
    refine Keeps.step (State.incSat_keeps ..) rfl ?_
    assumption
  clear_value y4 y5
  refine Keeps.cut (y6) ?_ fun h9 => ?_
  · unfold y6
    refine Keeps.step (State.setAc_keeps ..) rfl ?_
    assumption
  clear_value y6 y7
  refine Keeps.step (State.setTk_keeps ..) rfl ?_
  assumption

theorem State.capture_keeps (s isl ctx step) : Keeps (Fld.regs ||| Fld.hdr) s (State.capture s isl ctx step) := by
  unfold State.capture
  refine Keeps.cut s (Keeps.refl _ s) fun h0 => ?_
  extract_lets -merge y0 y1 y2 y3 y4 y5 y6 y7
  clear_value y0 y2
  refine Keeps.cut (y4) ?_ fun h8 => ?_
  · unfold y4
    refine Keeps.step (State.set64_keeps ..) rfl ?_
    assumption
  clear_value y4
  refine Keeps.cut (y5) ?_ fun h9 => ?_
  · unfold y5
    refine Keeps.step (State.set64_keeps ..) rfl ?_
    assumption
  clear_value y5
  refine Keeps.cut (y6) ?_ fun h10 => ?_
  · unfold y6
    refine Keeps.step (State.setReg_keeps ..) rfl ?_
    assumption
  clear_value y6
  refine Keeps.cut (y7) ?_ fun h11 => ?_
  · unfold y7
    refine Keeps.step (State.setReg_keeps ..) rfl ?_
    assumption
  clear_value y7
  refine Keeps.step (State.bumpSeq_keeps ..) rfl ?_
  refine Keeps.step (State.setF_keeps ..) rfl ?_
  assumption

theorem State.frameLine_keeps (s jb line b) : Keeps (Fld.regs ||| Fld.harbour ||| Fld.hbPoison ||| Fld.hbWritten) s (State.frameLine s jb line b) := by
  unfold State.frameLine
  refine Keeps.cut s (Keeps.refl _ s) fun h0 => ?_
  refine Keeps.ite ?_ ?_
  · split
    · rename_i a0 a1 a2
      refine Keeps.step (State.hbWriteLine_keeps ..) rfl ?_
      assumption
    · rename_i a3 a4
      assumption
  · assumption

theorem State.arm_keeps (s h) : Keeps (Fld.regs ||| Fld.tickets) s (State.arm s h) := by
  unfold State.arm
  refine Keeps.cut s (Keeps.refl _ s) fun h0 => ?_
  extract_lets -merge y0
  clear_value y0
  refine Keeps.foldl ?_ ?_
  · intro t1 x2 h3
    refine Keeps.foldl ?_ ?_
    · intro t4 x5 h6
      split
      · rename_i a7 a8
        assumption
      · rename_i a9 a10 a11
        extract_lets -merge y12
        clear_value y12
        refine Keeps.step (State.enter_keeps ..) rfl ?_
        assumption
    assumption
  assumption

theorem State.dynReturn_keeps (s gt) : Keeps (Fld.regs ||| Fld.leases ||| Fld.rows ||| Fld.tiles) s (State.dynReturn s gt) := by
  unfold State.dynReturn
  refine Keeps.cut s (Keeps.refl _ s) fun h0 => ?_
  extract_lets -merge y0 y1
  refine Keeps.cut (y0) ?_ fun h2 => ?_
  · unfold y0
    exact ((Keeps.set_leases _ h0 rfl) :)
  clear_value y0
  refine Keeps.cut (y1) ?_ fun h3 => ?_
  · unfold y1
    refine Keeps.step (State.setF_keeps ..) rfl ?_
    assumption
  clear_value y1
  refine Keeps.step (State.release_keeps ..) rfl ?_
  refine Keeps.step (State.dynCount_keeps ..) rfl ?_
  assumption

theorem State.dynEnd_keeps (s k) : Keeps (Fld.regs ||| Fld.leases ||| Fld.rows ||| Fld.tiles ||| Fld.dyns) s (State.dynEnd s k) := by
  unfold State.dynEnd
  refine Keeps.cut s (Keeps.refl _ s) fun h0 => ?_
  extract_lets -merge y0 y1 y2
  clear_value y0
  refine Keeps.cut (y1) ?_ fun h3 => ?_
  · unfold y1
    refine Keeps.foldl ?_ ?_
    · intro t4 x5 h6
      refine Keeps.step (State.dynReturn_keeps ..) rfl ?_
      assumption
    assumption
  clear_value y1
  refine Keeps.cut (y2) ?_ fun h7 => ?_
  · unfold y2
    exact ((Keeps.set_dyns _ h3 rfl) :)
  clear_value y2
  refine Keeps.step (State.setB_keeps ..) rfl ?_
  assumption

theorem execStepOrigin_keeps (j s) : KeepsO (Fld.regs ||| Fld.out ||| Fld.leases ||| Fld.tide ||| Fld.tickets ||| Fld.jobs ||| Fld.plans ||| Fld.qps ||| Fld.harbour ||| Fld.hbPoison ||| Fld.hbWritten) s (execStepOrigin j s) := by
  unfold execStepOrigin
  refine KeepsO.cut s (Keeps.refl _ s) fun h0 => ?_
  refine KeepsO.next ?_
  refine Keeps.ite ?_ ?_
  · assumption
  · extract_lets -merge y0 y1 y2 y3 y4 y5 y6 y7 y8 y9 y10 y11
    clear_value y0 y1 y2 y3 y4
    refine Keeps.cut (y5) ?_ fun h12 => ?_
    · unfold y5
      refine Keeps.ite ?_ ?_
      · exact ((Keeps.set_qps _ h0 rfl) :)
      · assumption
    clear_value y5 y6
    refine Keeps.cut (y7) ?_ fun h13 => ?_
    · unfold y7
      refine Keeps.step (State.setJob_keeps ..) rfl ?_
      assumption
    clear_value y7
    refine Keeps.cut (y8) ?_ fun h14 => ?_
    · unfold y8
      refine Keeps.step (State.setPlan_keeps ..) rfl ?_
      assumption
    clear_value y8
    refine Keeps.cut (y9) ?_ fun h15 => ?_
    · unfold y9
      refine Keeps.step (State.renewPlan_keeps ..) rfl ?_
      assumption
    clear_value y9
    refine Keeps.cut (y10) ?_ fun h16 => ?_
    · unfold y10
      refine Keeps.step (State.frameLine_keeps ..) rfl ?_
      assumption
    clear_value y10
    refine Keeps.cut (y11) ?_ fun h17 => ?_
    · unfold y11
      refine Keeps.ite ?_ ?_
      · refine Keeps.step (State.marker_keeps ..) rfl ?_
        assumption
      · assumption
    clear_value y11
    refine Keeps.ite ?_ ?_
    · refine Keeps.step (State.arm_keeps ..) rfl ?_
      refine Keeps.step (State.bindArmed_keeps ..) rfl ?_
      assumption
    · assumption

theorem State.engineRecover_keeps (s isl cause eng) : Keeps (Fld.regs ||| Fld.hdr ||| Fld.log ||| Fld.out ||| Fld.irq ||| Fld.draws ||| Fld.rungs ||| Fld.rungAt) s (State.engineRecover s isl cause eng) := by
  unfold State.engineRecover
  refine Keeps.cut s (Keeps.refl _ s) fun h0 => ?_
  refine Keeps.ite ?_ ?_
  · assumption
  · refine Keeps.step (State.startRung_keeps ..) rfl ?_
    refine Keeps.step (State.setF_keeps ..) rfl ?_
    assumption

theorem State.missOne_keeps (s k) : Keeps (Fld.regs ||| Fld.hdr ||| Fld.log ||| Fld.out ||| Fld.irq ||| Fld.draws ||| Fld.tickets ||| Fld.rungs ||| Fld.rungAt) s (State.missOne s k) := by
  unfold State.missOne
  refine Keeps.cut s (Keeps.refl _ s) fun h0 => ?_
  extract_lets -merge y0 y1 y2 y3 y4
  clear_value y0
  refine Keeps.cut (y1) ?_ fun h5 => ?_
  · unfold y1
    refine Keeps.step (State.setTk_keeps ..) rfl ?_
    assumption
  clear_value y1
  refine Keeps.cut (y2) ?_ fun h6 => ?_
  · unfold y2
    refine Keeps.step (State.incSat_keeps ..) rfl ?_
    assumption
  clear_value y2
  refine Keeps.cut (y3) ?_ fun h7 => ?_
  · unfold y3
    refine Keeps.step (State.setReg_keeps ..) rfl ?_
    assumption
  clear_value y3
  refine Keeps.cut (y4) ?_ fun h8 => ?_
  · unfold y4
    refine Keeps.step (State.set64_keeps ..) rfl ?_
    assumption
  clear_value y4
  refine Keeps.step (State.raiseC_keeps ..) rfl ?_
  assumption

theorem execTideMiss_keeps (isl idx s) : KeepsO (Fld.regs ||| Fld.hdr ||| Fld.log ||| Fld.out ||| Fld.irq ||| Fld.draws ||| Fld.tickets ||| Fld.jobs ||| Fld.plans ||| Fld.rungs ||| Fld.rungAt) s (execTideMiss isl idx s) := by
  unfold execTideMiss
  refine KeepsO.cut s (Keeps.refl _ s) fun h0 => ?_
  refine KeepsO.next ?_
  extract_lets -merge y0 y1 y2 y3 y4 y5
  clear_value y0 y1 y2
  refine Keeps.cut (y3) ?_ fun h6 => ?_
  · unfold y3
    refine Keeps.foldl ?_ ?_
    · intro t7 x8 h9
      refine Keeps.step (State.missOne_keeps ..) rfl ?_
      assumption
    assumption
  clear_value y3 y4 y5
  refine Keeps.ite ?_ ?_
  · assumption
  · refine Keeps.ite ?_ ?_
    · refine Keeps.step (State.mapTk_keeps ..) rfl ?_
      assumption
    · refine Keeps.ite ?_ ?_
      · refine Keeps.step (State.failStep_keeps ..) rfl ?_
        assumption
      · refine Keeps.ite ?_ ?_
        · refine Keeps.ite ?_ ?_
          · refine Keeps.step (State.slipStep_keeps ..) rfl ?_
            assumption
          · refine Keeps.step (State.failStep_keeps ..) rfl ?_
            assumption
        · refine Keeps.step (State.failStep_keeps ..) rfl ?_
          assumption

theorem State.failLive_keeps (s isl p) : Keeps (Fld.regs ||| Fld.hdr ||| Fld.log ||| Fld.out ||| Fld.irq ||| Fld.draws ||| Fld.tickets ||| Fld.jobs ||| Fld.rungs ||| Fld.rungAt) s (State.failLive s isl p) := by
  unfold State.failLive
  refine Keeps.cut s (Keeps.refl _ s) fun h0 => ?_
  refine Keeps.foldl ?_ ?_
  · intro t0 x1 h2
    refine Keeps.step (State.failStep_keeps ..) rfl ?_
    assumption
  assumption

theorem State.failUnit_keeps (s k t) : Keeps (Fld.regs ||| Fld.hdr ||| Fld.log ||| Fld.out ||| Fld.irq ||| Fld.draws ||| Fld.tickets ||| Fld.jobs ||| Fld.rungs ||| Fld.rungAt) s (State.failUnit s k t) := by
  unfold State.failUnit
  refine Keeps.cut s (Keeps.refl _ s) fun h0 => ?_
  refine Keeps.step (State.failLive_keeps ..) rfl ?_
  assumption

theorem State.endStep_keeps (s j) : Keeps (Fld.regs ||| Fld.hdr ||| Fld.log ||| Fld.out ||| Fld.irq ||| Fld.draws ||| Fld.leases ||| Fld.tickets ||| Fld.acks ||| Fld.jobs ||| Fld.plans ||| Fld.acct ||| Fld.ctxs ||| Fld.qps ||| Fld.landing ||| Fld.rungs ||| Fld.rows ||| Fld.tiles ||| Fld.harbour ||| Fld.hbPoison ||| Fld.hbWritten ||| Fld.frames ||| Fld.badSlots ||| Fld.owners ||| Fld.runs ||| Fld.tests ||| Fld.cal ||| Fld.ends ||| Fld.rplChecks ||| Fld.rungAt) s (State.endStep s j) := by
  unfold State.endStep
  refine Keeps.cut s (Keeps.refl _ s) fun h0 => ?_
  extract_lets -merge y0 y1 y2 y3 y4 y5 y6 y7 y8 y9 y10 y11
  clear_value y0 y1
  refine Keeps.cut (y2) ?_ fun h12 => ?_
  · unfold y2
    refine Keeps.step (State.setJob_keeps ..) rfl ?_
    assumption
  clear_value y2
  refine Keeps.cut (y3) ?_ fun h13 => ?_
  · unfold y3
    exact Keeps.step0 (n := Fld.acks ||| Fld.runs) h12 rfl (by constructor <;> first | exact fun e => absurd e (by decide) | exact fun _ => rfl) fun i => ⟨i.1, i.2.1, i.2.2.1, i.2.2.2⟩
  clear_value y3
  refine Keeps.cut (y4) ?_ fun h14 => ?_
  · unfold y4
    refine Keeps.ite ?_ ?_
    · assumption
    · refine Keeps.step (State.frameLine_keeps ..) rfl ?_
      assumption
  clear_value y4 y6 y7
  refine Keeps.cut (y8) ?_ fun h15 => ?_
  · unfold y8
    refine Keeps.ite ?_ ?_
    · refine Keeps.step (State.setPlan_keeps ..) rfl ?_
      assumption
    · assumption
  clear_value y8
  refine Keeps.cut (y9) ?_ fun h16 => ?_
  · unfold y9
    refine Keeps.ite ?_ ?_
    · refine Keeps.foldl ?_ ?_
      · intro t17 x18 h19
        extract_lets -merge y20
        clear_value y20
        refine Keeps.step (State.set64_keeps ..) rfl ?_
        assumption
      assumption
    · assumption
  clear_value y9
  refine Keeps.cut (y10) ?_ fun h21 => ?_
  · unfold y10
    refine Keeps.foldl ?_ ?_
    · intro t22 x23 h24
      extract_lets -merge y25
      refine Keeps.cut (y25) ?_ fun h26 => ?_
      · unfold y25
        refine Keeps.ite ?_ ?_
        · refine Keeps.step (State.capture_keeps ..) rfl ?_
          assumption
        · assumption
      clear_value y25
      refine Keeps.ite ?_ ?_
      · refine Keeps.step (State.fenceUnit_keeps ..) rfl ?_
        assumption
      · assumption
    assumption
  clear_value y10
  refine Keeps.cut (y11) ?_ fun h27 => ?_
  · unfold y11
    refine Keeps.ite ?_ ?_
    · refine Keeps.step (State.endJob_keeps ..) rfl ?_
      assumption
    · assumption
  clear_value y11
  refine Keeps.ite ?_ ?_
  · refine Keeps.step (State.unloadNow_keeps ..) rfl ?_
    assumption
  · assumption

theorem State.checkEnd_keeps (s j) : Keeps (Fld.regs ||| Fld.hdr ||| Fld.log ||| Fld.out ||| Fld.irq ||| Fld.draws ||| Fld.leases ||| Fld.tickets ||| Fld.acks ||| Fld.jobs ||| Fld.plans ||| Fld.acct ||| Fld.ctxs ||| Fld.qps ||| Fld.landing ||| Fld.rungs ||| Fld.rows ||| Fld.tiles ||| Fld.harbour ||| Fld.hbPoison ||| Fld.hbWritten ||| Fld.frames ||| Fld.badSlots ||| Fld.owners ||| Fld.runs ||| Fld.tests ||| Fld.cal ||| Fld.ends ||| Fld.rplChecks ||| Fld.rungAt) s (State.checkEnd s j) := by
  unfold State.checkEnd
  refine Keeps.cut s (Keeps.refl _ s) fun h0 => ?_
  extract_lets -merge y0
  clear_value y0
  refine Keeps.ite ?_ ?_
  · assumption
  · refine Keeps.step (State.endStep_keeps ..) rfl ?_
    assumption

theorem execTicketIssue_keeps (isl s) : KeepsO (Fld.regs ||| Fld.hdr ||| Fld.log ||| Fld.out ||| Fld.irq ||| Fld.draws ||| Fld.leases ||| Fld.tickets ||| Fld.acks ||| Fld.jobs ||| Fld.plans ||| Fld.acct ||| Fld.ctxs ||| Fld.basin ||| Fld.lines ||| Fld.qps ||| Fld.landing ||| Fld.rungs ||| Fld.rows ||| Fld.tiles ||| Fld.harbour ||| Fld.hbPoison ||| Fld.hbWritten ||| Fld.frames ||| Fld.badSlots ||| Fld.owners ||| Fld.runs ||| Fld.tests ||| Fld.cal ||| Fld.ends ||| Fld.rplChecks ||| Fld.rungAt) s (execTicketIssue isl s) := by
  unfold execTicketIssue
  refine KeepsO.cut s (Keeps.refl _ s) fun h0 => ?_
  refine KeepsO.next ?_
  split
  · rename_i a0 a1
    assumption
  · rename_i a2 a3 a4 a5 a6
    extract_lets -merge y7 y8 y9 y10 y11 y12
    clear_value y7
    refine Keeps.cut (y8) ?_ fun h13 => ?_
    · unfold y8
      refine Keeps.step (State.applyRehome_keeps ..) rfl ?_
      assumption
    clear_value y8 y10 y11
    refine Keeps.cut (y12) ?_ fun h14 => ?_
    · unfold y12
      refine Keeps.step (State.setJob_keeps ..) rfl ?_
      assumption
    clear_value y12
    split
    · rename_i a15 a16 a17
      extract_lets -merge y18
      refine Keeps.cut (y18) ?_ fun h19 => ?_
      · unfold y18
        refine Keeps.step (State.setReg_keeps ..) rfl ?_
        assumption
      clear_value y18
      refine Keeps.step (State.checkEnd_keeps ..) rfl ?_
      refine Keeps.step (State.failStep_keeps ..) rfl ?_
      refine Keeps.step (State.raiseC_keeps ..) rfl ?_
      assumption
    · rename_i a20 a21
      split
      · rename_i a22 a23
        refine Keeps.step (State.setB_keeps ..) rfl ?_
        assumption
      · rename_i a24 a25 a26
        extract_lets -merge y27 y28
        refine Keeps.cut (y27) ?_ fun h29 => ?_
        · unfold y27
          refine Keeps.step (State.setB_keeps ..) rfl ?_
          refine Keeps.step (State.enter_keeps ..) rfl ?_
          assumption
        clear_value y27
        refine Keeps.cut (y28) ?_ fun h30 => ?_
        · unfold y28
          refine Keeps.ite ?_ ?_
          · refine Keeps.step (State.dynCall_keeps ..) rfl ?_
            assumption
          · assumption
        clear_value y28
        refine Keeps.ite ?_ ?_
        · refine Keeps.step (State.raiseC_keeps ..) rfl ?_
          assumption
        · assumption

theorem execActionAck_keeps (isl idx early s) : KeepsO (Fld.regs ||| Fld.hdr ||| Fld.log ||| Fld.out ||| Fld.irq ||| Fld.draws ||| Fld.leases ||| Fld.tide ||| Fld.tickets ||| Fld.acks ||| Fld.jobs ||| Fld.plans ||| Fld.acct ||| Fld.slu ||| Fld.ctxs ||| Fld.basin ||| Fld.lines ||| Fld.qps ||| Fld.landing ||| Fld.rungs ||| Fld.rows ||| Fld.tiles ||| Fld.harbour ||| Fld.hbPoison ||| Fld.hbWritten ||| Fld.frames ||| Fld.badSlots ||| Fld.owners ||| Fld.runs ||| Fld.swaps ||| Fld.imports ||| Fld.dyns ||| Fld.tests ||| Fld.cal ||| Fld.ends ||| Fld.rplChecks ||| Fld.rungAt) s (execActionAck isl idx early s) := by
  unfold execActionAck
  refine KeepsO.cut s (Keeps.refl _ s) fun h0 => ?_
  refine KeepsO.next ?_
  extract_lets -merge y0 y1 y2 y3 y4 y5 y6
  clear_value y0 y1
  refine Keeps.cut (y2) ?_ fun h7 => ?_
  · unfold y2
    refine Keeps.step (State.measure_keeps ..) rfl ?_
    assumption
  clear_value y2
  refine Keeps.cut (y3) ?_ fun h8 => ?_
  · unfold y3
    refine Keeps.ite ?_ ?_
    · refine Keeps.step (State.failStep_keeps ..) rfl ?_
      assumption
    · assumption
  clear_value y3 y4
  refine Keeps.cut (y5) ?_ fun h9 => ?_
  · unfold y5
    refine Keeps.ite ?_ ?_
    · refine Keeps.step (State.ackTile_keeps ..) rfl ?_
      assumption
    · refine Keeps.ite ?_ ?_
      · refine Keeps.step (State.dynEnd_keeps ..) rfl ?_
        assumption
      · refine Keeps.ite ?_ ?_
        · refine Keeps.ite ?_ ?_
          · refine Keeps.step (State.ackMove_keeps ..) rfl ?_
            assumption
          · refine Keeps.step (State.ackFerry_keeps ..) rfl ?_
            assumption
        · assumption
  clear_value y5
  refine Keeps.cut (y6) ?_ fun h10 => ?_
  · unfold y6
    refine Keeps.step (State.checkEnd_keeps ..) rfl ?_
    refine Keeps.step (State.freeTk_keeps ..) rfl ?_
    refine Keeps.step (State.endStrait_keeps ..) rfl ?_
    assumption
  clear_value y6
  refine Keeps.ite ?_ ?_
  · assumption
  · refine Keeps.ite ?_ ?_
    · refine Keeps.step (State.swapAck_keeps ..) rfl ?_
      assumption
    · assumption

theorem State.hungFree_keeps (s k t) : Keeps (Fld.regs ||| Fld.hdr ||| Fld.log ||| Fld.out ||| Fld.irq ||| Fld.draws ||| Fld.leases ||| Fld.tickets ||| Fld.acks ||| Fld.jobs ||| Fld.plans ||| Fld.acct ||| Fld.ctxs ||| Fld.qps ||| Fld.landing ||| Fld.rungs ||| Fld.rows ||| Fld.tiles ||| Fld.harbour ||| Fld.hbPoison ||| Fld.hbWritten ||| Fld.frames ||| Fld.badSlots ||| Fld.owners ||| Fld.runs ||| Fld.dyns ||| Fld.tests ||| Fld.cal ||| Fld.ends ||| Fld.rplChecks ||| Fld.rungAt) s (State.hungFree s k t) := by
  unfold State.hungFree
  refine Keeps.cut s (Keeps.refl _ s) fun h0 => ?_
  extract_lets -merge y0 y1 y2 y3 y4 y5 y6
  clear_value y0
  refine Keeps.cut (y1) ?_ fun h7 => ?_
  · unfold y1
    refine Keeps.step (State.failUnit_keeps ..) rfl ?_
    assumption
  clear_value y1
  refine Keeps.cut (y2) ?_ fun h8 => ?_
  · unfold y2
    refine Keeps.step (State.freeTk_keeps ..) rfl ?_
    refine Keeps.step (State.endStrait_keeps ..) rfl ?_
    refine Keeps.step (State.dynEnd_keeps ..) rfl ?_
    assumption
  clear_value y2
  refine Keeps.cut (y3) ?_ fun h9 => ?_
  · unfold y3
    refine Keeps.step (State.incSat_keeps ..) rfl ?_
    assumption
  clear_value y3
  refine Keeps.cut (y4) ?_ fun h10 => ?_
  · unfold y4
    refine Keeps.step (State.raiseC_keeps ..) rfl ?_
    assumption
  clear_value y4
  refine Keeps.cut (y5) ?_ fun h11 => ?_
  · unfold y5
    refine Keeps.step (State.raiseI_keeps ..) rfl ?_
    assumption
  clear_value y5
  refine Keeps.cut (y6) ?_ fun h12 => ?_
  · unfold y6
    split
    · rename_i a13 a14
      refine Keeps.step (State.fenceUnit_keeps ..) rfl ?_
      refine Keeps.step (State.setF_keeps ..) rfl ?_
      assumption
    · rename_i a15 a16
      refine Keeps.step (State.engineRecover_keeps ..) rfl ?_
      assumption
    · rename_i a17 a18
      refine Keeps.step (State.engineRecover_keeps ..) rfl ?_
      assumption
    · rename_i a19 a20
      split
      · rename_i a21 a22 a23 a24
        extract_lets -merge y25 y26
        refine Keeps.cut (y25) ?_ fun h27 => ?_
        · unfold y25
          refine Keeps.step (State.stopRun_keeps ..) rfl ?_
          assumption
        clear_value y25
        refine Keeps.cut (y26) ?_ fun h28 => ?_
        · unfold y26
          exact ((Keeps.set_runs _ h27 rfl) :)
        clear_value y26
        refine Keeps.ite ?_ ?_
        · assumption
        · refine Keeps.ite ?_ ?_
          · refine Keeps.step (State.reprogEnd_keeps ..) rfl ?_
            assumption
          · assumption
      · rename_i a29 a30
        assumption
    · rename_i a31 a32 a33 a34 a35
      refine Keeps.step (State.engineRecover_keeps ..) rfl ?_
      assumption
  clear_value y6
  refine Keeps.step (State.checkEnd_keeps ..) rfl ?_
  assumption

theorem execTideHang_keeps (isl idx s) : KeepsO (Fld.regs ||| Fld.hdr ||| Fld.log ||| Fld.out ||| Fld.irq ||| Fld.draws ||| Fld.leases ||| Fld.tickets ||| Fld.acks ||| Fld.jobs ||| Fld.plans ||| Fld.acct ||| Fld.ctxs ||| Fld.qps ||| Fld.landing ||| Fld.rungs ||| Fld.rows ||| Fld.tiles ||| Fld.harbour ||| Fld.hbPoison ||| Fld.hbWritten ||| Fld.frames ||| Fld.badSlots ||| Fld.owners ||| Fld.runs ||| Fld.dyns ||| Fld.tests ||| Fld.cal ||| Fld.ends ||| Fld.rplChecks ||| Fld.rungAt) s (execTideHang isl idx s) := by
  unfold execTideHang
  refine KeepsO.cut s (Keeps.refl _ s) fun h0 => ?_
  refine KeepsO.next ?_
  extract_lets -merge y0 y1 y2 y3 y4
  clear_value y0 y1 y2
  refine Keeps.cut (y3) ?_ fun h5 => ?_
  · unfold y3
    refine Keeps.step (State.incSat_keeps ..) rfl ?_
    assumption
  clear_value y3
  refine Keeps.cut (y4) ?_ fun h6 => ?_
  · unfold y4
    refine Keeps.step (State.raiseC_keeps ..) rfl ?_
    assumption
  clear_value y4
  refine Keeps.ite ?_ ?_
  · assumption
  · refine Keeps.step (State.hungFree_keeps ..) rfl ?_
    assumption

end Sys2Proof.Machine
end

