-- ==== Sys2Proof/Laws/Tide.lean ====
section
/-!
SUPPORT. What each function of Machine/Tide.lean may change, and that it keeps the invariant of State.
-/
set_option linter.unusedVariables false
namespace Sys2Proof.Machine

theorem State.rungProbe_keeps (s isl answered) : Keeps (Fld.rungs) s (State.rungProbe s isl answered) := by
  unfold State.rungProbe
  refine Keeps.cut s (Keeps.refl _ s) fun h0 => ?_
  exact ((Keeps.set_rungs _ h0 rfl) :)

theorem State.plainWrite_keeps (s a v) : Keeps (Fld.regs) s (State.plainWrite s a v) := by
  unfold State.plainWrite
  refine Keeps.cut s (Keeps.refl _ s) fun h0 => ?_
  refine Keeps.step (State.setReg_keeps ..) rfl ?_
  assumption

theorem State.writeTktSel_keeps (s v) : Keeps (Fld.regs) s (State.writeTktSel s v) := by
  unfold State.writeTktSel
  refine Keeps.cut s (Keeps.refl _ s) fun h0 => ?_
  extract_lets -merge y0 y1 y2
  refine Keeps.cut (y0) ?_ fun h3 => ?_
  · unfold y0
    refine Keeps.step (State.plainWrite_keeps ..) rfl ?_
    assumption
  clear_value y0 y1 y2
  refine Keeps.foldl ?_ ?_
  · intro t4 x5 h6
    extract_lets -merge y7
    clear_value y7
    refine Keeps.foldl ?_ ?_
    · intro t8 x9 h10
      refine Keeps.step (State.setReg_keeps ..) rfl ?_
      assumption
    assumption
  assumption

theorem State.freezeTick_keeps (s) : Keeps (Fld.leases ||| Fld.tickets ||| Fld.wd) s (State.freezeTick s) := by
  unfold State.freezeTick
  refine Keeps.cut s (Keeps.refl _ s) fun h0 => ?_
  refine Keeps.ite ?_ ?_
  · exact Keeps.step0 (n := Fld.leases ||| Fld.tickets ||| Fld.wd) h0 rfl (by constructor <;> first | exact fun e => absurd e (by decide) | exact fun _ => rfl) fun i => ⟨i.1, i.2.1, i.2.2.1, i.2.2.2⟩
  · assumption

theorem State.writeSlkCtl_keeps (s v) : Keeps (Fld.regs ||| Fld.tide) s (State.writeSlkCtl s v) := by
  unfold State.writeSlkCtl
  refine Keeps.cut s (Keeps.refl _ s) fun h0 => ?_
  extract_lets -merge y0 y1 y2 y3
  clear_value y0
  refine Keeps.cut (y1) ?_ fun h4 => ?_
  · unfold y1
    refine Keeps.step (State.plainWrite_keeps ..) rfl ?_
    assumption
  clear_value y1
  refine Keeps.cut (y2) ?_ fun h5 => ?_
  · unfold y2
    refine Keeps.foldl ?_ ?_
    · intro t6 x7 h8
      refine Keeps.step (State.setReg_keeps ..) rfl ?_
      assumption
    assumption
  clear_value y2 y3
  refine Keeps.ite ?_ ?_
  · assumption
  · exact ((Keeps.set_tide _ h5 rfl) :)

theorem execTktSelWrite_keeps (rq v s) : KeepsO (Fld.regs ||| Fld.heldWrites) s (execTktSelWrite rq v s) := by
  unfold execTktSelWrite
  refine KeepsO.cut s (Keeps.refl _ s) fun h0 => ?_
  refine KeepsO.next ?_
  refine State.orHeld_hof ?_ rfl ?_
  · intro t0 x1
    refine Keeps.ite ?_ ?_
    · refine Keeps.step (State.writeTktSel_keeps ..) rfl ?_
      assumption
    · assumption
  assumption

theorem State.powerEdge_keeps (s) : Keeps (Fld.grantWas ||| Fld.power) s (State.powerEdge s) := by
  unfold State.powerEdge
  refine Keeps.cut s (Keeps.refl _ s) fun h0 => ?_
  refine Keeps.ite ?_ ?_
  · assumption
  · exact Keeps.step0 (n := Fld.grantWas ||| Fld.power) h0 rfl (by constructor <;> first | exact fun e => absurd e (by decide) | exact fun _ => rfl) fun i => ⟨i.1, i.2.1, i.2.2.1, i.2.2.2⟩

theorem execSlackWindowEnd_keeps (s) : KeepsO (Fld.regs ||| Fld.tide) s (execSlackWindowEnd s) := by
  unfold execSlackWindowEnd
  refine KeepsO.cut s (Keeps.refl _ s) fun h0 => ?_
  refine KeepsO.next ?_
  refine Keeps.ite ?_ ?_
  · assumption
  · extract_lets -merge y0 y1 y2
    clear_value y0
    refine Keeps.cut (y1) ?_ fun h3 => ?_
    · unfold y1
      refine Keeps.ite ?_ ?_
      · assumption
      · refine Keeps.foldl ?_ ?_
        · intro t4 x5 h6
          extract_lets -merge y7
          clear_value y7
          refine Keeps.step (State.setReg_keeps ..) rfl ?_
          assumption
        assumption
    clear_value y1 y2
    exact ((Keeps.set_tide _ h3 rfl) :)

theorem execSlkCtlWrite_keeps (rq v s) : KeepsO (Fld.regs ||| Fld.heldWrites ||| Fld.tide) s (execSlkCtlWrite rq v s) := by
  unfold execSlkCtlWrite
  refine KeepsO.cut s (Keeps.refl _ s) fun h0 => ?_
  refine KeepsO.next ?_
  refine State.orHeld_hof ?_ rfl ?_
  · intro t0 x1
    refine Keeps.ite ?_ ?_
    · refine Keeps.step (State.writeSlkCtl_keeps ..) rfl ?_
      assumption
    · assumption
  assumption

theorem execTidePllLock_keeps (s) : KeepsO (Fld.regs ||| Fld.count ||| Fld.tide) s (execTidePllLock s) := by
  unfold execTidePllLock
  refine KeepsO.cut s (Keeps.refl _ s) fun h0 => ?_
  refine KeepsO.next ?_
  refine Keeps.ite ?_ ?_
  · assumption
  · extract_lets -merge y0 y1 y2
    clear_value y0
    refine Keeps.cut (y1) ?_ fun h3 => ?_
    · unfold y1
      exact ((Keeps.set_tide _ h0 rfl) :)
    clear_value y1
    refine Keeps.cut (y2) ?_ fun h4 => ?_
    · unfold y2
      refine Keeps.ite ?_ ?_
      · assumption
      · exact ((Keeps.set_count _ h3 rfl) :)
    clear_value y2
    refine Keeps.step (State.setB_keeps ..) rfl ?_
    refine Keeps.step (State.setB_keeps ..) rfl ?_
    refine Keeps.step (State.setB_keeps ..) rfl ?_
    assumption

theorem State.writePpsCtl_keeps (s v) : Keeps (Fld.regs ||| Fld.tide) s (State.writePpsCtl s v) := by
  unfold State.writePpsCtl
  refine Keeps.cut s (Keeps.refl _ s) fun h0 => ?_
  extract_lets -merge y0 y1 y2 y3 y4 y5 y6 y7
  clear_value y0 y1
  refine Keeps.cut (y2) ?_ fun h8 => ?_
  · unfold y2
    refine Keeps.step (State.plainWrite_keeps ..) rfl ?_
    assumption
  clear_value y2 y3
  refine Keeps.cut (y4) ?_ fun h9 => ?_
  · unfold y4
    refine Keeps.step (State.setF_keeps ..) rfl ?_
    assumption
  clear_value y4 y5
  refine Keeps.cut (y6) ?_ fun h10 => ?_
  · unfold y6
    exact ((Keeps.set_tide _ h9 rfl) :)
  clear_value y6 y7
  refine Keeps.ite ?_ ?_
  · exact ((Keeps.set_tide _ h10 rfl) :)
  · assumption

theorem execTideOutMarker_keeps (s) : KeepsO (Fld.out ||| Fld.tide) s (execTideOutMarker s) := by
  unfold execTideOutMarker
  refine KeepsO.cut s (Keeps.refl _ s) fun h0 => ?_
  refine KeepsO.next ?_
  refine Keeps.ite ?_ ?_
  · refine Keeps.step (State.marker_keeps ..) rfl ?_
    assumption
  · assumption

theorem execRefclkReturn_keeps (s) : KeepsO (Fld.regs ||| Fld.tide) s (execRefclkReturn s) := by
  unfold execRefclkReturn
  refine KeepsO.cut s (Keeps.refl _ s) fun h0 => ?_
  refine KeepsO.next ?_
  refine Keeps.ite ?_ ?_
  · assumption
  · extract_lets -merge y0
    clear_value y0
    refine Keeps.step (State.setB_keeps ..) rfl ?_
    refine Keeps.step (State.setB_keeps ..) rfl ?_
    exact ((Keeps.set_tide _ h0 rfl) :)

theorem execPpsCtlWrite_keeps (rq v s) : KeepsO (Fld.regs ||| Fld.heldWrites ||| Fld.tide) s (execPpsCtlWrite rq v s) := by
  unfold execPpsCtlWrite
  refine KeepsO.cut s (Keeps.refl _ s) fun h0 => ?_
  refine KeepsO.next ?_
  refine State.orHeld_hof ?_ rfl ?_
  · intro t0 x1
    refine Keeps.ite ?_ ?_
    · refine Keeps.step (State.writePpsCtl_keeps ..) rfl ?_
      assumption
    · assumption
  assumption

theorem State.writePpsBase_keeps (s v) : Keeps (Fld.regs ||| Fld.tide) s (State.writePpsBase s v) := by
  unfold State.writePpsBase
  refine Keeps.cut s (Keeps.refl _ s) fun h0 => ?_
  refine Keeps.ite ?_ ?_
  · extract_lets -merge y0
    clear_value y0
    refine Keeps.step (State.setB_keeps ..) rfl ?_
    exact ((Keeps.set_tide _ h0 rfl) :)
  · refine Keeps.step (State.set64_keeps ..) rfl ?_
    assumption

theorem State.countService_keeps (s) : Keeps (Fld.regs) s (State.countService s) := by
  unfold State.countService
  refine Keeps.cut s (Keeps.refl _ s) fun h0 => ?_
  refine Keeps.foldl ?_ ?_
  · intro t0 x1 h2
    extract_lets -merge y3
    refine Keeps.cut (y3) ?_ fun h4 => ?_
    · unfold y3
      refine Keeps.ite ?_ ?_
      · refine Keeps.step (State.add64_keeps ..) rfl ?_
        assumption
      · assumption
    clear_value y3
    refine Keeps.ite ?_ ?_
    · refine Keeps.step (State.add64_keeps ..) rfl ?_
      assumption
    · assumption
  assumption

theorem execPpsBaseWrite_keeps (rq v s) : KeepsO (Fld.regs ||| Fld.heldWrites ||| Fld.tide) s (execPpsBaseWrite rq v s) := by
  unfold execPpsBaseWrite
  refine KeepsO.cut s (Keeps.refl _ s) fun h0 => ?_
  refine KeepsO.next ?_
  refine Keeps.ite ?_ ?_
  · refine State.orHeld_hof ?_ rfl ?_
    · intro t0 x1
      dsimp only [id]
      assumption
    refine State.orHeld_hof ?_ rfl ?_
    · intro t2 x3
      dsimp only [id]
      assumption
    assumption
  · refine Keeps.ite ?_ ?_
    · refine Keeps.step (State.writePpsBase_keeps ..) rfl ?_
      assumption
    · assumption

theorem execTidePpsLost_keeps (s) : KeepsO (Fld.regs ||| Fld.hdr ||| Fld.log ||| Fld.out ||| Fld.irq ||| Fld.draws ||| Fld.tide ||| Fld.rungs ||| Fld.rungAt) s (execTidePpsLost s) := by
  unfold execTidePpsLost
  refine KeepsO.cut s (Keeps.refl _ s) fun h0 => ?_
  refine KeepsO.next ?_
  extract_lets -merge y0 y1 y2
  clear_value y0
  refine Keeps.cut (y1) ?_ fun h3 => ?_
  · unfold y1
    refine Keeps.step (State.setB_keeps ..) rfl ?_
    refine Keeps.step (State.setB_keeps ..) rfl ?_
    refine Keeps.step (State.setB_keeps ..) rfl ?_
    assumption
  clear_value y1 y2
  refine Keeps.ite ?_ ?_
  · assumption
  · refine Keeps.step (State.raise_keeps ..) rfl ?_
    exact ((Keeps.set_tide _ h3 rfl) :)

theorem State.ppsLock_keeps (s err) : Keeps (Fld.regs ||| Fld.hdr ||| Fld.log ||| Fld.out ||| Fld.irq ||| Fld.draws ||| Fld.tide ||| Fld.rungs ||| Fld.rungAt) s (State.ppsLock s err) := by
  unfold State.ppsLock
  refine Keeps.cut s (Keeps.refl _ s) fun h0 => ?_
  refine Keeps.ite ?_ ?_
  · extract_lets -merge y0 y1 y2
    clear_value y0 y1
    refine Keeps.cut (y2) ?_ fun h3 => ?_
    · unfold y2
      exact ((Keeps.set_tide _ h0 rfl) :)
    clear_value y2
    refine Keeps.ite ?_ ?_
    · refine Keeps.step (State.raise_keeps ..) rfl ?_
      refine Keeps.step (State.setB_keeps ..) rfl ?_
      assumption
    · assumption
  · extract_lets -merge y4
    clear_value y4
    refine Keeps.step (State.setB_keeps ..) rfl ?_
    exact ((Keeps.set_tide _ h0 rfl) :)

theorem execPpsEdge_keeps (falling ns trim s) : KeepsO (Fld.regs ||| Fld.hdr ||| Fld.log ||| Fld.out ||| Fld.irq ||| Fld.draws ||| Fld.tide ||| Fld.rungs ||| Fld.rungAt) s (execPpsEdge falling ns trim s) := by
  unfold execPpsEdge
  refine KeepsO.cut s (Keeps.refl _ s) fun h0 => ?_
  refine KeepsO.next ?_
  extract_lets -merge y0 y1 y2 y3 y4 y5 y6 y7 y8 y9 y10 y11 y12 y13
  clear_value y0 y1 y2 y4
  refine Keeps.cut (y5) ?_ fun h14 => ?_
  · unfold y5
    refine Keeps.ite ?_ ?_
    · refine Keeps.step (State.setF_keeps ..) rfl ?_
      refine Keeps.step (State.set64_keeps ..) rfl ?_
      assumption
    · split
      · rename_i a15 a16 a17
        refine Keeps.step (State.set64_keeps ..) rfl ?_
        exact ((Keeps.set_tide _ h0 rfl) :)
      · rename_i a18 a19
        assumption
  clear_value y5 y6
  refine Keeps.cut (y7) ?_ fun h20 => ?_
  · unfold y7
    refine Keeps.step (State.set64_keeps ..) rfl ?_
    assumption
  clear_value y7
  refine Keeps.cut (y8) ?_ fun h21 => ?_
  · unfold y8
    refine Keeps.step (State.setF_keeps ..) rfl ?_
    assumption
  clear_value y8
  refine Keeps.cut (y9) ?_ fun h22 => ?_
  · unfold y9
    refine Keeps.step (State.setB_keeps ..) rfl ?_
    refine Keeps.step (State.setB_keeps ..) rfl ?_
    refine Keeps.step (State.incWrapF_keeps ..) rfl ?_
    assumption
  clear_value y9 y10
  refine Keeps.cut (y11) ?_ fun h23 => ?_
  · unfold y11
    refine Keeps.ite ?_ ?_
    · refine Keeps.step (State.setB_keeps ..) rfl ?_
      refine Keeps.step (State.setF_keeps ..) rfl ?_
      assumption
    · assumption
  clear_value y11 y12
  refine Keeps.cut (y13) ?_ fun h24 => ?_
  · unfold y13
    exact ((Keeps.set_tide _ h23 rfl) :)
  clear_value y13
  refine Keeps.ite ?_ ?_
  · assumption
  · refine Keeps.step (State.ppsLock_keeps ..) rfl ?_
    assumption

theorem State.probe_keeps (s isl answered) : Keeps (Fld.regs ||| Fld.hdr ||| Fld.log ||| Fld.out ||| Fld.irq ||| Fld.draws ||| Fld.rungs ||| Fld.rungAt) s (State.probe s isl answered) := by
  unfold State.probe
  refine Keeps.cut s (Keeps.refl _ s) fun h0 => ?_
  refine Keeps.ite ?_ ?_
  · assumption
  · refine Keeps.ite ?_ ?_
    · refine Keeps.step (State.rungProbe_keeps ..) rfl ?_
      assumption
    · refine Keeps.ite ?_ ?_
      · refine Keeps.step (State.setF_keeps ..) rfl ?_
        refine Keeps.step (State.incWrapF_keeps ..) rfl ?_
        assumption
      · extract_lets -merge y0
        refine Keeps.cut (y0) ?_ fun h1 => ?_
        · unfold y0
          refine Keeps.step (State.incSat_keeps ..) rfl ?_
          refine Keeps.step (State.incSatF_keeps ..) rfl ?_
          assumption
        clear_value y0
        refine Keeps.ite ?_ ?_
        · refine Keeps.step (State.engineRecover_keeps ..) rfl ?_
          refine Keeps.step (State.raiseI_keeps ..) rfl ?_
          assumption
        · assumption

theorem State.desync_keeps (s isl) : Keeps (Fld.regs ||| Fld.hdr ||| Fld.log ||| Fld.out ||| Fld.irq ||| Fld.draws ||| Fld.tickets ||| Fld.jobs ||| Fld.rungs ||| Fld.rungAt) s (State.desync s isl) := by
  unfold State.desync
  refine Keeps.cut s (Keeps.refl _ s) fun h0 => ?_
  extract_lets -merge y0 y1 y2
  refine Keeps.cut (y0) ?_ fun h3 => ?_
  · unfold y0
    refine Keeps.step (State.setF_keeps ..) rfl ?_
    assumption
  clear_value y0
  refine Keeps.cut (y1) ?_ fun h4 => ?_
  · unfold y1
    refine Keeps.step (State.raise_keeps ..) rfl ?_
    assumption
  clear_value y1
  refine Keeps.cut (y2) ?_ fun h5 => ?_
  · unfold y2
    refine Keeps.step (State.failLive_keeps ..) rfl ?_
    assumption
  clear_value y2
  refine Keeps.step (State.engineRecover_keeps ..) rfl ?_
  assumption

theorem execResyncWord_keeps (bad silent s) : KeepsO (Fld.regs ||| Fld.hdr ||| Fld.log ||| Fld.out ||| Fld.irq ||| Fld.draws ||| Fld.tickets ||| Fld.jobs ||| Fld.rungs ||| Fld.rungAt) s (execResyncWord bad silent s) := by
  unfold execResyncWord
  refine KeepsO.cut s (Keeps.refl _ s) fun h0 => ?_
  refine KeepsO.next ?_
  refine Keeps.ite ?_ ?_
  · assumption
  · extract_lets -merge y0
    refine Keeps.cut (y0) ?_ fun h1 => ?_
    · unfold y0
      refine Keeps.ite ?_ ?_
      · refine Keeps.foldl ?_ ?_
        · intro t2 x3 h4
          refine Keeps.step (State.desync_keeps ..) rfl ?_
          assumption
        assumption
      · assumption
    clear_value y0
    refine Keeps.foldl ?_ ?_
    · intro t5 x6 h7
      refine Keeps.step (State.probe_keeps ..) rfl ?_
      assumption
    assumption

theorem State.freeRetired_keeps (s) : Keeps (Fld.regs ||| Fld.hdr ||| Fld.log ||| Fld.out ||| Fld.irq ||| Fld.draws ||| Fld.leases ||| Fld.tickets ||| Fld.acks ||| Fld.jobs ||| Fld.plans ||| Fld.acct ||| Fld.ctxs ||| Fld.qps ||| Fld.landing ||| Fld.rungs ||| Fld.rows ||| Fld.tiles ||| Fld.harbour ||| Fld.hbPoison ||| Fld.hbWritten ||| Fld.frames ||| Fld.badSlots ||| Fld.owners ||| Fld.runs ||| Fld.dyns ||| Fld.tests ||| Fld.cal ||| Fld.ends ||| Fld.rplChecks ||| Fld.rungAt) s (State.freeRetired s) := by
  unfold State.freeRetired
  refine Keeps.cut s (Keeps.refl _ s) fun h0 => ?_
  refine Keeps.foldl ?_ ?_
  · intro t0 x1 h2
    refine Keeps.step (State.checkEnd_keeps ..) rfl ?_
    refine Keeps.step (State.freeTk_keeps ..) rfl ?_
    refine Keeps.step (State.dynEnd_keeps ..) rfl ?_
    assumption
  assumption

theorem execTideTick_keeps (s) : KeepsO (Fld.regs ||| Fld.hdr ||| Fld.fencing ||| Fld.log ||| Fld.out ||| Fld.irq ||| Fld.draws ||| Fld.leases ||| Fld.count ||| Fld.tickets ||| Fld.acks ||| Fld.jobs ||| Fld.plans ||| Fld.acct ||| Fld.ctxs ||| Fld.qps ||| Fld.landing ||| Fld.rungs ||| Fld.rows ||| Fld.tiles ||| Fld.harbour ||| Fld.hbPoison ||| Fld.hbWritten ||| Fld.frames ||| Fld.badSlots ||| Fld.owners ||| Fld.runs ||| Fld.dyns ||| Fld.tests ||| Fld.cal ||| Fld.ends ||| Fld.rplChecks ||| Fld.wd ||| Fld.rungAt ||| Fld.grantWas ||| Fld.power) s (execTideTick s) := by
  unfold execTideTick
  refine KeepsO.cut s (Keeps.refl _ s) fun h0 => ?_
  refine KeepsO.next ?_
  refine Keeps.ite ?_ ?_
  · refine Keeps.step (State.powerEdge_keeps ..) rfl ?_
    refine Keeps.step (State.fenceEdge_keeps ..) rfl ?_
    refine Keeps.step (State.freeRetired_keeps ..) rfl ?_
    refine Keeps.step (State.countService_keeps ..) rfl ?_
    refine Keeps.step (State.freezeTick_keeps ..) rfl ?_
    exact ((Keeps.set_count _ h0 rfl) :)
  · assumption

end Sys2Proof.Machine
end

