-- ==== Sys2Proof/Laws/Calib.lean ====
section
/-!
SUPPORT. What each function of Machine/Calib.lean may change, and that it keeps the invariant of State.
-/
set_option linter.unusedVariables false
namespace Sys2Proof.Machine

theorem State.stepBandgaps_keeps (s) : Keeps (Fld.cal) s (State.stepBandgaps s) := by
  unfold State.stepBandgaps
  refine Keeps.cut s (Keeps.refl _ s) fun h0 => ?_
  refine Keeps.step (State.updCal_keeps ..) rfl ?_
  assumption

theorem State.copyBank_keeps (s gt) : Keeps (Fld.trims) s (State.copyBank s gt) := by
  unfold State.copyBank
  refine Keeps.cut s (Keeps.refl _ s) fun h0 => ?_
  extract_lets -merge y0
  clear_value y0
  refine Keeps.foldl ?_ ?_
  · intro t1 x2 h3
    refine Keeps.step (State.setTrim_keeps ..) rfl ?_
    assumption
  assumption

theorem State.startRun_keeps (s kind tiles) : Keeps (Fld.regs ||| Fld.cal) s (State.startRun s kind tiles) := by
  unfold State.startRun
  refine Keeps.cut s (Keeps.refl _ s) fun h0 => ?_
  extract_lets -merge y0 y1
  refine Keeps.cut (y0) ?_ fun h2 => ?_
  · unfold y0
    refine Keeps.step (State.setReg_keeps ..) rfl ?_
    assumption
  clear_value y0
  refine Keeps.cut (y1) ?_ fun h3 => ?_
  · unfold y1
    refine Keeps.step (State.setReg_keeps ..) rfl ?_
    assumption
  clear_value y1
  refine Keeps.step (State.updCal_keeps ..) rfl ?_
  assumption

theorem State.loadSnapshot_keeps (s b) : Keeps (Fld.regs ||| Fld.trims ||| Fld.cal) s (State.loadSnapshot s b) := by
  unfold State.loadSnapshot
  refine Keeps.cut s (Keeps.refl _ s) fun h0 => ?_
  extract_lets -merge y0
  refine Keeps.cut (y0) ?_ fun h1 => ?_
  · unfold y0
    refine Keeps.step (State.updCal_keeps ..) rfl ?_
    assumption
  clear_value y0
  refine Keeps.foldl ?_ ?_
  · intro t2 x3 h4
    extract_lets -merge y5 y6 y7
    clear_value y5 y6
    refine Keeps.cut (y7) ?_ fun h8 => ?_
    · unfold y7
      refine Keeps.foldl ?_ ?_
      · intro t9 x10 h11
        refine Keeps.step (State.setTrim_keeps ..) rfl ?_
        assumption
      assumption
    clear_value y7
    refine Keeps.step (State.setF_keeps ..) rfl ?_
    assumption
  assumption

theorem State.switchBank_keeps (s gt) : Keeps (Fld.regs) s (State.switchBank s gt) := by
  unfold State.switchBank
  refine Keeps.cut s (Keeps.refl _ s) fun h0 => ?_
  extract_lets -merge y0 y1
  refine Keeps.cut (y0) ?_ fun h2 => ?_
  · unfold y0
    refine Keeps.step (State.setB_keeps ..) rfl ?_
    assumption
  clear_value y0
  refine Keeps.cut (y1) ?_ fun h3 => ?_
  · unfold y1
    refine Keeps.step (State.setB_keeps ..) rfl ?_
    refine Keeps.step (State.setF_keeps ..) rfl ?_
    assumption
  clear_value y1
  refine Keeps.step (State.closeTrim_keeps ..) rfl ?_
  assumption

theorem State.calNote_keeps (s scope target) : Keeps (Fld.regs) s (State.calNote s scope target) := by
  unfold State.calNote
  refine Keeps.cut s (Keeps.refl _ s) fun h0 => ?_
  refine Keeps.step (State.setF_keeps ..) rfl ?_
  refine Keeps.step (State.setF_keeps ..) rfl ?_
  assumption

theorem State.commitTiles_keeps (s tiles) : Keeps (Fld.regs ||| Fld.cal) s (State.commitTiles s tiles) := by
  unfold State.commitTiles
  refine Keeps.cut s (Keeps.refl _ s) fun h0 => ?_
  extract_lets -merge y0
  refine Keeps.cut (y0) ?_ fun h1 => ?_
  · unfold y0
    refine Keeps.step (State.updCal_keeps ..) rfl ?_
    assumption
  clear_value y0
  refine Keeps.foldl ?_ ?_
  · intro t2 x3 h4
    refine Keeps.step (State.switchBank_keeps ..) rfl ?_
    assumption
  assumption

theorem State.stampCommit_keeps (s) : Keeps (Fld.regs) s (State.stampCommit s) := by
  unfold State.stampCommit
  refine Keeps.cut s (Keeps.refl _ s) fun h0 => ?_
  refine Keeps.step (State.set64_keeps ..) rfl ?_
  assumption

theorem State.flashErr_keeps (s) : Keeps (Fld.regs ||| Fld.hdr ||| Fld.log ||| Fld.out ||| Fld.irq ||| Fld.draws ||| Fld.rungs ||| Fld.rungAt) s (State.flashErr s) := by
  unfold State.flashErr
  refine Keeps.cut s (Keeps.refl _ s) fun h0 => ?_
  refine Keeps.step (State.raise_keeps ..) rfl ?_
  refine Keeps.step (State.incSat_keeps ..) rfl ?_
  assumption

theorem State.calRefuse_keeps (s err) : Keeps (Fld.regs ||| Fld.hdr ||| Fld.log ||| Fld.out ||| Fld.irq ||| Fld.draws ||| Fld.rungs ||| Fld.rungAt) s (State.calRefuse s err) := by
  unfold State.calRefuse
  refine Keeps.cut s (Keeps.refl _ s) fun h0 => ?_
  refine Keeps.step (State.raise_keeps ..) rfl ?_
  refine Keeps.step (State.setF_keeps ..) rfl ?_
  assumption

theorem State.storeVfy_keeps (s gt carried ofs gain row ofsCol gainCol rowWorst side bg) : Keeps (Fld.regs ||| Fld.hdr ||| Fld.log ||| Fld.out ||| Fld.irq ||| Fld.draws ||| Fld.rungs ||| Fld.cal ||| Fld.rungAt) s (State.storeVfy s gt carried ofs gain row ofsCol gainCol rowWorst side bg) := by
  unfold State.storeVfy
  refine Keeps.cut s (Keeps.refl _ s) fun h0 => ?_
  extract_lets -merge y0 y1 y2 y3 y4 y5 y6 y7 y8 y9 y10 y11
  clear_value y0 y1 y2
  refine Keeps.cut (y3) ?_ fun h12 => ?_
  · unfold y3
    refine Keeps.step (State.setVfy_keeps ..) rfl ?_
    assumption
  clear_value y3
  refine Keeps.cut (y4) ?_ fun h13 => ?_
  · unfold y4
    refine Keeps.step (State.setVfy_keeps ..) rfl ?_
    assumption
  clear_value y4
  refine Keeps.cut (y5) ?_ fun h14 => ?_
  · unfold y5
    refine Keeps.step (State.setVfy_keeps ..) rfl ?_
    assumption
  clear_value y5
  refine Keeps.cut (y6) ?_ fun h15 => ?_
  · unfold y6
    refine Keeps.step (State.setVfy_keeps ..) rfl ?_
    assumption
  clear_value y6
  refine Keeps.cut (y7) ?_ fun h16 => ?_
  · unfold y7
    refine Keeps.step (State.setVfy_keeps ..) rfl ?_
    assumption
  clear_value y7
  refine Keeps.cut (y8) ?_ fun h17 => ?_
  · unfold y8
    refine Keeps.step (State.setVfy_keeps ..) rfl ?_
    assumption
  clear_value y8
  refine Keeps.cut (y9) ?_ fun h18 => ?_
  · unfold y9
    refine Keeps.step (State.setVfy_keeps ..) rfl ?_
    assumption
  clear_value y9
  refine Keeps.cut (y10) ?_ fun h19 => ?_
  · unfold y10
    refine Keeps.step (State.setVfy_keeps ..) rfl ?_
    assumption
  clear_value y10
  refine Keeps.cut (y11) ?_ fun h20 => ?_
  · unfold y11
    refine Keeps.step (State.updCal_keeps ..) rfl ?_
    assumption
  clear_value y11
  refine Keeps.ite ?_ ?_
  · refine Keeps.step (State.raise_keeps ..) rfl ?_
    assumption
  · assumption

theorem execCalCommitted_keeps (s) : KeepsO (Fld.regs ||| Fld.hdr ||| Fld.log ||| Fld.out ||| Fld.irq ||| Fld.draws ||| Fld.rungs ||| Fld.cal ||| Fld.rungAt) s (execCalCommitted s) := by
  unfold execCalCommitted
  refine KeepsO.cut s (Keeps.refl _ s) fun h0 => ?_
  refine KeepsO.next ?_
  split
  · rename_i a0 a1
    assumption
  · rename_i a2 a3 a4 a5
    refine Keeps.ite ?_ ?_
    · assumption
    · extract_lets -merge y6 y7 y8 y9 y10 y11 y12 y13
      clear_value y6
      refine Keeps.cut (y7) ?_ fun h14 => ?_
      · unfold y7
        refine Keeps.step (State.updCal_keeps ..) rfl ?_
        assumption
      clear_value y7
      refine Keeps.cut (y8) ?_ fun h15 => ?_
      · unfold y8
        refine Keeps.foldl ?_ ?_
        · intro t16 x17 h18
          refine Keeps.step (State.setF_keeps ..) rfl ?_
          refine Keeps.step (State.setB_keeps ..) rfl ?_
          assumption
        assumption
      clear_value y8
      refine Keeps.cut (y9) ?_ fun h19 => ?_
      · unfold y9
        refine Keeps.step (State.updCal_keeps ..) rfl ?_
        assumption
      clear_value y9
      refine Keeps.cut (y10) ?_ fun h20 => ?_
      · unfold y10
        refine Keeps.ite ?_ ?_
        · refine Keeps.step (State.commitTiles_keeps ..) rfl ?_
          assumption
        · refine Keeps.step (State.commitTiles_keeps ..) rfl ?_
          assumption
      clear_value y10
      refine Keeps.cut (y11) ?_ fun h21 => ?_
      · unfold y11
        refine Keeps.ite ?_ ?_
        · refine Keeps.step (State.stepBandgaps_keeps ..) rfl ?_
          assumption
        · assumption
      clear_value y11
      refine Keeps.cut (y12) ?_ fun h22 => ?_
      · unfold y12
        refine Keeps.ite ?_ ?_
        · refine Keeps.step (State.setB_keeps ..) rfl ?_
          assumption
        · assumption
      clear_value y12
      refine Keeps.cut (y13) ?_ fun h23 => ?_
      · unfold y13
        refine Keeps.step (State.updCal_keeps ..) rfl ?_
        assumption
      clear_value y13
      refine Keeps.ite ?_ ?_
      · refine Keeps.step (State.raise_keeps ..) rfl ?_
        refine Keeps.step (State.stampCommit_keeps ..) rfl ?_
        refine Keeps.step (State.setF_keeps ..) rfl ?_
        assumption
      · refine Keeps.step (State.raise_keeps ..) rfl ?_
        refine Keeps.step (State.stampCommit_keeps ..) rfl ?_
        refine Keeps.step (State.setB_keeps ..) rfl ?_
        refine Keeps.step (State.setF_keeps ..) rfl ?_
        assumption

theorem execSnapshotWriteDone_keeps (ok s) : KeepsO (Fld.regs ||| Fld.hdr ||| Fld.log ||| Fld.out ||| Fld.irq ||| Fld.draws ||| Fld.leases ||| Fld.rungs ||| Fld.flash ||| Fld.flashq ||| Fld.rungAt) s (execSnapshotWriteDone ok s) := by
  unfold execSnapshotWriteDone
  refine KeepsO.cut s (Keeps.refl _ s) fun h0 => ?_
  refine KeepsO.next ?_
  split
  · rename_i a0 a1
    assumption
  · rename_i a2 a3 a4 a5
    refine Keeps.ite ?_ ?_
    · assumption
    · extract_lets -merge y6 y7 y8 y9
      refine Keeps.cut (y6) ?_ fun h10 => ?_
      · unfold y6
        refine Keeps.step (State.setB_keeps ..) rfl ?_
        assumption
      clear_value y6
      refine Keeps.cut (y7) ?_ fun h11 => ?_
      · unfold y7
        refine Keeps.step (State.flashFinish_keeps ..) rfl ?_
        assumption
      clear_value y7
      refine Keeps.cut (y8) ?_ fun h12 => ?_
      · unfold y8
        refine Keeps.step (State.setF_keeps ..) rfl ?_
        assumption
      clear_value y8
      refine Keeps.cut (y9) ?_ fun h13 => ?_
      · unfold y9
        refine Keeps.step (State.flashErr_keeps ..) rfl ?_
        assumption
      clear_value y9
      refine Keeps.ite ?_ ?_
      · refine Keeps.step (State.flashNext_keeps ..) rfl ?_
        refine Keeps.step (State.setB_keeps ..) rfl ?_
        refine Keeps.step (State.setB_keeps ..) rfl ?_
        assumption
      · refine Keeps.step (State.raise_keeps ..) rfl ?_
        refine Keeps.step (State.flashNext_keeps ..) rfl ?_
        refine Keeps.step (State.setB_keeps ..) rfl ?_
        refine Keeps.step (State.flashTear_keeps ..) rfl ?_
        assumption

theorem State.calCmd_hof {m : Nat} {s u : State} {rq : Requester} {scope target : Nat} {f : State → State}
    (hf : ∀ t, Keeps m s t → Keeps m s (f t)) (hm : Fld.sub (Fld.regs ||| Fld.hdr ||| Fld.log ||| Fld.out ||| Fld.irq ||| Fld.draws ||| Fld.rungs ||| Fld.rungAt) m = true) (h : Keeps m s u) :
    Keeps m s (u.calCmd rq scope target f) := by
  have h1 : Keeps m s (u.calNote scope target) := Keeps.step (State.calNote_keeps ..) (Fld.sub_trans rfl hm) h
  exact Keeps.ite h (Keeps.ite (Keeps.step (State.calRefuse_keeps ..) (Fld.sub_trans rfl hm) h1) (hf _ h1))

theorem execCalUnlockTimeout_keeps (gt s) : KeepsO (Fld.regs ||| Fld.hdr ||| Fld.log ||| Fld.out ||| Fld.irq ||| Fld.draws ||| Fld.rungs ||| Fld.rows ||| Fld.tiles ||| Fld.cal ||| Fld.rungAt) s (execCalUnlockTimeout gt s) := by
  unfold execCalUnlockTimeout
  refine KeepsO.cut s (Keeps.refl _ s) fun h0 => ?_
  refine KeepsO.next ?_
  split
  · rename_i a0 a1
    assumption
  · rename_i a2 a3 a4
    refine Keeps.ite ?_ ?_
    · refine Keeps.step (State.calCheckDone_keeps ..) rfl ?_
      refine Keeps.step (State.calTileDone_keeps ..) rfl ?_
      assumption
    · assumption

theorem execVrefSample_keeps (uv dev s) : KeepsO (Fld.regs ||| Fld.hdr ||| Fld.log ||| Fld.out ||| Fld.irq ||| Fld.draws ||| Fld.rungs ||| Fld.rows ||| Fld.tiles ||| Fld.cal ||| Fld.rungAt) s (execVrefSample uv dev s) := by
  unfold execVrefSample
  refine KeepsO.cut s (Keeps.refl _ s) fun h0 => ?_
  refine KeepsO.next ?_
  extract_lets -merge y0 y1 y2 y3 y4 y5 y6
  clear_value y0 y1
  refine Keeps.cut (y2) ?_ fun h7 => ?_
  · unfold y2
    refine Keeps.step (State.updCal_keeps ..) rfl ?_
    assumption
  clear_value y2
  refine Keeps.cut (y3) ?_ fun h8 => ?_
  · unfold y3
    refine Keeps.step (State.setF_keeps ..) rfl ?_
    assumption
  clear_value y3 y4 y5
  refine Keeps.cut (y6) ?_ fun h9 => ?_
  · unfold y6
    refine Keeps.step (State.setB_keeps ..) rfl ?_
    assumption
  clear_value y6
  refine Keeps.ite ?_ ?_
  · refine Keeps.step (State.calAbortRun_keeps ..) rfl ?_
    assumption
  · assumption

theorem execCalRevert_keeps (rq scope target s) : KeepsO (Fld.regs ||| Fld.hdr ||| Fld.heldWrites ||| Fld.log ||| Fld.out ||| Fld.irq ||| Fld.draws ||| Fld.rungs ||| Fld.cal ||| Fld.rungAt) s (execCalRevert rq scope target s) := by
  unfold execCalRevert
  refine KeepsO.cut s (Keeps.refl _ s) fun h0 => ?_
  refine KeepsO.next ?_
  refine State.orHeld_hof ?_ rfl ?_
  · intro t0 x1
    refine State.calCmd_hof ?_ rfl ?_
    · intro t2 x3
      refine Keeps.ite ?_ ?_
      · refine Keeps.step (State.calRefuse_keeps ..) rfl ?_
        assumption
      · refine Keeps.step (State.updCal_keeps ..) rfl ?_
        refine Keeps.step (State.setB_keeps ..) rfl ?_
        assumption
    assumption
  assumption

theorem execCalAction_keeps (gt kind row devs s) : KeepsO (Fld.regs ||| Fld.hdr ||| Fld.log ||| Fld.out ||| Fld.irq ||| Fld.draws ||| Fld.acct ||| Fld.rungs ||| Fld.rows ||| Fld.tiles ||| Fld.rungAt) s (execCalAction gt kind row devs s) := by
  unfold execCalAction
  refine KeepsO.cut s (Keeps.refl _ s) fun h0 => ?_
  refine KeepsO.next ?_
  extract_lets -merge y0
  clear_value y0
  refine Keeps.ite ?_ ?_
  · assumption
  · split
    · rename_i a1 a2
      assumption
    · rename_i a3 a4 a5
      refine Keeps.cut (a4) ?_ fun h6 => ?_
      · refine Keeps.step (State.grant_keeps a5) rfl ?_
        assumption
      refine Keeps.ite ?_ ?_
      · extract_lets -merge y7
        refine Keeps.cut (y7) ?_ fun h8 => ?_
        · unfold y7
          refine Keeps.step (State.updTx_keeps ..) rfl ?_
          assumption
        clear_value y7
        refine Keeps.step (State.raiseUnlock_keeps ..) rfl ?_
        assumption
      · extract_lets -merge y9
        refine Keeps.cut (y9) ?_ fun h10 => ?_
        · unfold y9
          refine Keeps.step (State.updTx_keeps ..) rfl ?_
          assumption
        clear_value y9
        split
        · rename_i a11 a12
          refine Keeps.step (State.noteRead_keeps ..) rfl ?_
          assumption
        · rename_i a13 a14
          refine Keeps.step (State.rowWrite_keeps ..) rfl ?_
          assumption
        · rename_i a15 a16
          refine Keeps.step (State.add64_keeps ..) rfl ?_
          assumption
        · rename_i a17 a18 a19 a20
          assumption

theorem execCalSnapshot_keeps (rq scope target s) : KeepsO (Fld.regs ||| Fld.hdr ||| Fld.heldWrites ||| Fld.log ||| Fld.out ||| Fld.irq ||| Fld.draws ||| Fld.leases ||| Fld.rungs ||| Fld.flash ||| Fld.flashq ||| Fld.rungAt) s (execCalSnapshot rq scope target s) := by
  unfold execCalSnapshot
  refine KeepsO.cut s (Keeps.refl _ s) fun h0 => ?_
  refine KeepsO.next ?_
  refine State.orHeld_hof ?_ rfl ?_
  · intro t0 x1
    refine State.calCmd_hof ?_ rfl ?_
    · intro t2 x3
      refine Keeps.ite ?_ ?_
      · refine Keeps.step (State.calRefuse_keeps ..) rfl ?_
        assumption
      · refine Keeps.step (State.flashAsk_keeps ..) rfl ?_
        refine Keeps.step (State.setB_keeps ..) rfl ?_
        assumption
    assumption
  assumption

theorem execCalTileEnd_keeps (gt cols rows ofs gain row ofsCol gainCol rowWorst side bg s) : KeepsO (Fld.regs ||| Fld.hdr ||| Fld.log ||| Fld.out ||| Fld.irq ||| Fld.draws ||| Fld.rungs ||| Fld.rows ||| Fld.tiles ||| Fld.trims ||| Fld.cal ||| Fld.rungAt) s (execCalTileEnd gt cols rows ofs gain row ofsCol gainCol rowWorst side bg s) := by
  unfold execCalTileEnd
  refine KeepsO.cut s (Keeps.refl _ s) fun h0 => ?_
  refine KeepsO.next ?_
  refine Keeps.ite ?_ ?_
  · assumption
  · extract_lets -merge y0 y1 y2 y3 y4 y5
    clear_value y0 y1
    refine Keeps.cut (y2) ?_ fun h6 => ?_
    · unfold y2
      refine Keeps.foldl ?_ ?_
      · intro t7 x8 h9
        refine Keeps.step (State.setTrim_keeps ..) rfl ?_
        assumption
      assumption
    clear_value y2
    refine Keeps.cut (y3) ?_ fun h10 => ?_
    · unfold y3
      refine Keeps.foldl ?_ ?_
      · intro t11 x12 h13
        refine Keeps.step (State.setTrim_keeps ..) rfl ?_
        assumption
      assumption
    clear_value y3 y4
    refine Keeps.cut (y5) ?_ fun h14 => ?_
    · unfold y5
      refine Keeps.step (State.storeVfy_keeps ..) rfl ?_
      assumption
    clear_value y5
    refine Keeps.step (State.calCheckDone_keeps ..) rfl ?_
    refine Keeps.step (State.calTileDone_keeps ..) rfl ?_
    assumption

theorem execRunCal_keeps (rq scope target s) : KeepsO (Fld.regs ||| Fld.hdr ||| Fld.heldWrites ||| Fld.log ||| Fld.out ||| Fld.irq ||| Fld.draws ||| Fld.rungs ||| Fld.cal ||| Fld.rungAt) s (execRunCal rq scope target s) := by
  unfold execRunCal
  refine KeepsO.cut s (Keeps.refl _ s) fun h0 => ?_
  refine KeepsO.next ?_
  refine State.orHeld_hof ?_ rfl ?_
  · intro t0 x1
    refine State.calCmd_hof ?_ rfl ?_
    · intro t2 x3
      extract_lets -merge y4
      clear_value y4
      refine Keeps.ite ?_ ?_
      · refine Keeps.step (State.calRefuse_keeps ..) rfl ?_
        assumption
      · refine Keeps.ite ?_ ?_
        · refine Keeps.step (State.calRefuse_keeps ..) rfl ?_
          assumption
        · refine Keeps.ite ?_ ?_
          · refine Keeps.step (State.calRefuse_keeps ..) rfl ?_
            assumption
          · refine Keeps.step (State.startRun_keeps ..) rfl ?_
            assumption
    assumption
  assumption

theorem execCalTileStart_keeps (gt s) : KeepsO (Fld.regs ||| Fld.hdr ||| Fld.log ||| Fld.out ||| Fld.irq ||| Fld.draws ||| Fld.rungs ||| Fld.rows ||| Fld.tiles ||| Fld.trims ||| Fld.cal ||| Fld.rungAt) s (execCalTileStart gt s) := by
  unfold execCalTileStart
  refine KeepsO.cut s (Keeps.refl _ s) fun h0 => ?_
  refine KeepsO.next ?_
  extract_lets -merge y0 y1 y2 y3 y4 y5
  clear_value y0 y1
  refine Keeps.cut (y2) ?_ fun h6 => ?_
  · unfold y2
    refine Keeps.step (State.copyBank_keeps ..) rfl ?_
    assumption
  clear_value y2 y3
  refine Keeps.cut (y4) ?_ fun h7 => ?_
  · unfold y4
    refine Keeps.step (State.updCal_keeps ..) rfl ?_
    assumption
  clear_value y4
  refine Keeps.cut (y5) ?_ fun h8 => ?_
  · unfold y5
    refine Keeps.step (State.updTx_keeps ..) rfl ?_
    assumption
  clear_value y5
  refine Keeps.ite ?_ ?_
  · assumption
  · refine Keeps.ite ?_ ?_
    · refine Keeps.step (State.calCheckDone_keeps ..) rfl ?_
      refine Keeps.step (State.calTileDone_keeps ..) rfl ?_
      assumption
    · refine Keeps.ite ?_ ?_
      · refine Keeps.ite ?_ ?_
        · refine Keeps.step (State.updCal_keeps ..) rfl ?_
          assumption
        · refine Keeps.step (State.calCheckDone_keeps ..) rfl ?_
          refine Keeps.step (State.calTileDone_keeps ..) rfl ?_
          assumption
      · refine Keeps.ite ?_ ?_
        · refine Keeps.step (State.calCheckDone_keeps ..) rfl ?_
          refine Keeps.step (State.calTileDone_keeps ..) rfl ?_
          refine Keeps.step (State.setF_keeps ..) rfl ?_
          assumption
        · refine Keeps.ite ?_ ?_
          · refine Keeps.step (State.setB_keeps ..) rfl ?_
            assumption
          · assumption

theorem execCalAbort_keeps (rq scope target s) : KeepsO (Fld.regs ||| Fld.hdr ||| Fld.heldWrites ||| Fld.log ||| Fld.out ||| Fld.irq ||| Fld.draws ||| Fld.rungs ||| Fld.rows ||| Fld.tiles ||| Fld.cal ||| Fld.rungAt) s (execCalAbort rq scope target s) := by
  unfold execCalAbort
  refine KeepsO.cut s (Keeps.refl _ s) fun h0 => ?_
  refine KeepsO.next ?_
  refine State.orHeld_hof ?_ rfl ?_
  · intro t0 x1
    refine State.calCmd_hof ?_ rfl ?_
    · intro t2 x3
      refine Keeps.step (State.calAbortRun_keeps ..) rfl ?_
      assumption
    assumption
  assumption

theorem execCalCommit_keeps (rq scope target s) : KeepsO (Fld.regs ||| Fld.hdr ||| Fld.heldWrites ||| Fld.log ||| Fld.out ||| Fld.irq ||| Fld.draws ||| Fld.rungs ||| Fld.cal ||| Fld.rungAt) s (execCalCommit rq scope target s) := by
  unfold execCalCommit
  refine KeepsO.cut s (Keeps.refl _ s) fun h0 => ?_
  refine KeepsO.next ?_
  refine State.orHeld_hof ?_ rfl ?_
  · intro t0 x1
    refine State.calCmd_hof ?_ rfl ?_
    · intro t2 x3
      extract_lets -merge y4 y5 y6
      clear_value y4 y5 y6
      refine Keeps.ite ?_ ?_
      · refine Keeps.step (State.calRefuse_keeps ..) rfl ?_
        assumption
      · refine Keeps.ite ?_ ?_
        · refine Keeps.step (State.updCal_keeps ..) rfl ?_
          assumption
        · refine Keeps.ite ?_ ?_
          · refine Keeps.step (State.calRefuse_keeps ..) rfl ?_
            assumption
          · refine Keeps.step (State.updCal_keeps ..) rfl ?_
            assumption
    assumption
  assumption

end Sys2Proof.Machine
end

