-- ==== Sys2Proof/Laws/Dyn.lean ====
section
/-!
SUPPORT. What each function of Machine/Dyn.lean may change, and that it keeps the invariant of State.
-/
set_option linter.unusedVariables false
namespace Sys2Proof.Machine

theorem State.dynFix_keeps (s k) : Keeps (Fld.tickets ||| Fld.dyns) s (State.dynFix s k) := by
  unfold State.dynFix
  refine Keeps.cut s (Keeps.refl _ s) fun h0 => ?_
  extract_lets -merge y0 y1
  clear_value y0 y1
  split
  · rename_i a2 a3
    assumption
  · rename_i a4 a5 a6
    extract_lets -merge y7 y8 y9 y10 y11 y12 y13 y14
    clear_value y7 y8 y9 y10 y11 y12
    refine Keeps.cut (y13) ?_ fun h15 => ?_
    · unfold y13
      exact ((Keeps.set_dyns _ h0 rfl) :)
    clear_value y13 y14
    refine Keeps.ite ?_ ?_
    · refine Keeps.step (State.setTk_keeps ..) rfl ?_
      assumption
    · assumption

theorem State.updDyn_keeps (s k f) : Keeps (Fld.dyns) s (State.updDyn s k f) := by
  unfold State.updDyn
  refine Keeps.cut s (Keeps.refl _ s) fun h0 => ?_
  exact ((Keeps.set_dyns _ h0 rfl) :)

theorem State.dynScales_keeps (s gt gstep u) : Keeps (Fld.regs) s (State.dynScales s gt gstep u) := by
  unfold State.dynScales
  refine Keeps.cut s (Keeps.refl _ s) fun h0 => ?_
  extract_lets -merge y0 y1
  refine Keeps.cut (y1) ?_ fun h2 => ?_
  · unfold y1
    refine Keeps.foldl ?_ ?_
    · intro t3 x4 h5
      refine Keeps.step (State.setReg_keeps ..) rfl ?_
      assumption
    assumption
  clear_value y1
  refine Keeps.foldl ?_ ?_
  · intro t6 x7 h8
    refine Keeps.step (State.setReg_keeps ..) rfl ?_
    assumption
  assumption

theorem State.dynLease_keeps (s k t tiles t0 reason) : Keeps (Fld.regs ||| Fld.leases ||| Fld.rows ||| Fld.tiles ||| Fld.dyns) s (State.dynLease s k t tiles t0 reason) := by
  unfold State.dynLease
  refine Keeps.cut s (Keeps.refl _ s) fun h0 => ?_
  extract_lets -merge y0 y1 y2 y3 y4 y5
  clear_value y0 y1
  refine Keeps.cut (y2) ?_ fun h6 => ?_
  · unfold y2
    refine Keeps.foldl ?_ ?_
    · intro t7 x8 h9
      extract_lets -merge y10 y11
      clear_value y10
      refine Keeps.cut (y11) ?_ fun h12 => ?_
      · unfold y11
        refine Keeps.step (State.lease_keeps ..) rfl ?_
        assumption
      clear_value y11
      refine Keeps.step (State.release_keeps ..) rfl ?_
      refine Keeps.step (State.setF_keeps ..) rfl ?_
      assumption
    assumption
  clear_value y2 y3 y4
  refine Keeps.cut (y5) ?_ fun h13 => ?_
  · unfold y5
    exact ((Keeps.set_dyns _ h6 rfl) :)
  clear_value y5
  refine Keeps.step (State.setB_keeps ..) rfl ?_
  assumption

theorem execDynWait_keeps (isl idx s) : KeepsO (Fld.regs ||| Fld.hdr ||| Fld.log ||| Fld.out ||| Fld.irq ||| Fld.draws ||| Fld.leases ||| Fld.rungs ||| Fld.rows ||| Fld.tiles ||| Fld.dyns ||| Fld.rungAt) s (execDynWait isl idx s) := by
  unfold execDynWait
  refine KeepsO.cut s (Keeps.refl _ s) fun h0 => ?_
  refine KeepsO.next ?_
  extract_lets -merge y0 y1 y2 y3 y4
  clear_value y0 y1 y3 y4
  split
  · rename_i a5 a6
    assumption
  · rename_i a7 a8 a9 a10
    refine Keeps.ite ?_ ?_
    · assumption
    · extract_lets -merge y11
      refine Keeps.cut (y11) ?_ fun h12 => ?_
      · unfold y11
        refine Keeps.step (State.dynLease_keeps ..) rfl ?_
        assumption
      clear_value y11
      refine Keeps.step (State.raiseC_keeps ..) rfl ?_
      refine Keeps.step (State.incSat_keeps ..) rfl ?_
      assumption

theorem State.dynRecord_keeps (s k t tt reason tiles dd) : Keeps (Fld.regs ||| Fld.hdr ||| Fld.log ||| Fld.out ||| Fld.irq ||| Fld.draws ||| Fld.rungs ||| Fld.rungAt) s (State.dynRecord s k t tt reason tiles dd) := by
  unfold State.dynRecord
  refine Keeps.cut s (Keeps.refl _ s) fun h0 => ?_
  extract_lets -merge y0 y1 y2 y3 y4 y5 y6
  clear_value y0 y1 y2
  refine Keeps.cut (y3) ?_ fun h7 => ?_
  · unfold y3
    refine Keeps.step (State.setReg_keeps ..) rfl ?_
    assumption
  clear_value y3
  refine Keeps.cut (y4) ?_ fun h8 => ?_
  · unfold y4
    refine Keeps.step (State.setReg_keeps ..) rfl ?_
    assumption
  clear_value y4 y5
  refine Keeps.cut (y6) ?_ fun h9 => ?_
  · unfold y6
    refine Keeps.step (State.logRaise_keeps ..) rfl ?_
    assumption
  clear_value y6
  refine Keeps.ite ?_ ?_
  · refine Keeps.step (State.raiseC_keeps ..) rfl ?_
    refine Keeps.step (State.incSat_keeps ..) rfl ?_
    assumption
  · assumption

theorem execDynDefault_keeps (isl idx s) : KeepsO (Fld.regs ||| Fld.hdr ||| Fld.log ||| Fld.out ||| Fld.irq ||| Fld.draws ||| Fld.leases ||| Fld.rungs ||| Fld.rows ||| Fld.tiles ||| Fld.dyns ||| Fld.rungAt) s (execDynDefault isl idx s) := by
  unfold execDynDefault
  refine KeepsO.cut s (Keeps.refl _ s) fun h0 => ?_
  refine KeepsO.next ?_
  extract_lets -merge y0 y1 y2 y3 y4 y5 y6 y7 y8
  clear_value y0 y1 y2 y3 y4
  refine Keeps.cut (y5) ?_ fun h9 => ?_
  · unfold y5
    refine Keeps.step (State.raiseC_keeps ..) rfl ?_
    refine Keeps.step (State.incSat_keeps ..) rfl ?_
    assumption
  clear_value y5
  refine Keeps.cut (y6) ?_ fun h10 => ?_
  · unfold y6
    exact ((Keeps.set_dyns _ h9 rfl) :)
  clear_value y6 y7
  refine Keeps.cut (y8) ?_ fun h11 => ?_
  · unfold y8
    refine Keeps.step (State.dynLease_keeps ..) rfl ?_
    assumption
  clear_value y8
  refine Keeps.ite ?_ ?_
  · assumption
  · refine Keeps.ite ?_ ?_
    · refine Keeps.step (State.dynRecord_keeps ..) rfl ?_
      assumption
    · refine Keeps.step (State.dynRecord_keeps ..) rfl ?_
      assumption

theorem execDynDecision_keeps (isl idx s) : KeepsO (Fld.regs ||| Fld.hdr ||| Fld.log ||| Fld.out ||| Fld.irq ||| Fld.draws ||| Fld.leases ||| Fld.rungs ||| Fld.rows ||| Fld.tiles ||| Fld.dyns ||| Fld.rungAt) s (execDynDecision isl idx s) := by
  unfold execDynDecision
  refine KeepsO.cut s (Keeps.refl _ s) fun h0 => ?_
  refine KeepsO.next ?_
  extract_lets -merge y0 y1 y2 y3 y4 y5 y6 y7
  clear_value y0 y1 y2 y3 y4
  refine Keeps.cut (y5) ?_ fun h8 => ?_
  · unfold y5
    exact ((Keeps.set_dyns _ h0 rfl) :)
  clear_value y5 y6
  refine Keeps.cut (y7) ?_ fun h9 => ?_
  · unfold y7
    refine Keeps.step (State.dynLease_keeps ..) rfl ?_
    assumption
  clear_value y7
  refine Keeps.ite ?_ ?_
  · assumption
  · refine Keeps.ite ?_ ?_
    · refine Keeps.step (State.dynRecord_keeps ..) rfl ?_
      assumption
    · refine Keeps.step (State.dynRecord_keeps ..) rfl ?_
      assumption

theorem execDynSubRowWrite_keeps (isl idx q s) : KeepsO (Fld.regs ||| Fld.hdr ||| Fld.log ||| Fld.out ||| Fld.irq ||| Fld.draws ||| Fld.leases ||| Fld.tickets ||| Fld.jobs ||| Fld.acct ||| Fld.ctxs ||| Fld.rungs ||| Fld.rows ||| Fld.tiles ||| Fld.imports ||| Fld.dyns ||| Fld.ends ||| Fld.rungAt) s (execDynSubRowWrite isl idx q s) := by
  unfold execDynSubRowWrite
  refine KeepsO.cut s (Keeps.refl _ s) fun h0 => ?_
  refine KeepsO.next ?_
  extract_lets -merge y0 y1 y2 y3
  clear_value y0
  refine Keeps.cut (y1) ?_ fun h4 => ?_
  · unfold y1
    refine Keeps.step (State.dynFix_keeps ..) rfl ?_
    assumption
  clear_value y1 y2 y3
  refine Keeps.ite ?_ ?_
  · assumption
  · split
    · rename_i a5 a6
      assumption
    · rename_i a7 a8 a9
      extract_lets -merge y10 y11 y12 y13
      clear_value y10 y11 y12
      split
      · rename_i a14 a15 a16 a17 a18 a19
        refine Keeps.ite ?_ ?_
        · assumption
        · refine Keeps.ite ?_ ?_
          · refine Keeps.step (State.raiseUnlock_keeps ..) rfl ?_
            assumption
          · split
            · rename_i a20 a21
              assumption
            · rename_i a22 a23 a24
              refine Keeps.cut (a23) ?_ fun h25 => ?_
              · refine Keeps.step (State.grant_keeps a24) rfl ?_
                assumption
              extract_lets -merge y26 y27 y28 y29 y30 y31
              clear_value y26
              refine Keeps.cut (y27) ?_ fun h32 => ?_
              · unfold y27
                refine Keeps.ite ?_ ?_
                · refine Keeps.step (State.noteLive_keeps ..) rfl ?_
                  refine Keeps.step (State.setTk_keeps ..) rfl ?_
                  assumption
                · assumption
              clear_value y27 y28
              refine Keeps.cut (y29) ?_ fun h33 => ?_
              · unfold y29
                refine Keeps.step (State.noteUse_keeps ..) rfl ?_
                assumption
              clear_value y29
              refine Keeps.cut (y30) ?_ fun h34 => ?_
              · unfold y30
                refine Keeps.step (State.rowWrite_keeps ..) rfl ?_
                assumption
              clear_value y30
              refine Keeps.cut (y31) ?_ fun h35 => ?_
              · unfold y31
                refine Keeps.ite ?_ ?_
                · refine Keeps.step (State.freeTk_keeps ..) rfl ?_
                  refine Keeps.step (State.dynScales_keeps ..) rfl ?_
                  assumption
                · assumption
              clear_value y31
              refine Keeps.step (State.updDyn_keeps ..) rfl ?_
              assumption
      · rename_i a36 a37 a38
        assumption

theorem execDynPrepare_keeps (isl idx q s) : KeepsO (Fld.regs ||| Fld.hdr ||| Fld.log ||| Fld.out ||| Fld.irq ||| Fld.draws ||| Fld.leases ||| Fld.tickets ||| Fld.jobs ||| Fld.ctxs ||| Fld.basin ||| Fld.lines ||| Fld.rungs ||| Fld.imports ||| Fld.dyns ||| Fld.ends ||| Fld.rungAt) s (execDynPrepare isl idx q s) := by
  unfold execDynPrepare
  refine KeepsO.cut s (Keeps.refl _ s) fun h0 => ?_
  refine KeepsO.next ?_
  extract_lets -merge y0 y1 y2 y3 y4
  clear_value y0
  refine Keeps.cut (y1) ?_ fun h5 => ?_
  · unfold y1
    refine Keeps.step (State.dynFix_keeps ..) rfl ?_
    assumption
  clear_value y1 y2 y3 y4
  refine Keeps.ite ?_ ?_
  · assumption
  · split
    · rename_i a6 a7
      assumption
    · rename_i a8 a9 a10
      split
      · rename_i a11 a12
        assumption
      · rename_i a13 a14 a15 a16
        extract_lets -merge y17 y18 y19 y20 y21 y22 y23 y24
        clear_value y17 y18 y19 y20 y21
        refine Keeps.cut (y22) ?_ fun h25 => ?_
        · unfold y22
          refine Keeps.foldl ?_ ?_
          · intro t26 x27 h28
            refine Keeps.step (State.noteUse_keeps ..) rfl ?_
            assumption
          assumption
        clear_value y22
        refine Keeps.cut (y23) ?_ fun h29 => ?_
        · unfold y23
          refine Keeps.ite ?_ ?_
          · refine Keeps.foldl ?_ ?_
            · intro t30 x31 h32
              extract_lets -merge y33
              clear_value y33
              refine Keeps.step (State.writeBytes_keeps ..) rfl ?_
              assumption
            assumption
          · assumption
        clear_value y23 y24
        refine Keeps.ite ?_ ?_
        · assumption
        · refine Keeps.step (State.updDyn_keeps ..) rfl ?_
          assumption

theorem execDynSubPulse_keeps (isl idx q errs s) : KeepsO (Fld.regs ||| Fld.hdr ||| Fld.log ||| Fld.out ||| Fld.irq ||| Fld.draws ||| Fld.leases ||| Fld.tickets ||| Fld.jobs ||| Fld.acct ||| Fld.ctxs ||| Fld.rungs ||| Fld.imports ||| Fld.dyns ||| Fld.ends ||| Fld.rungAt) s (execDynSubPulse isl idx q errs s) := by
  unfold execDynSubPulse
  refine KeepsO.cut s (Keeps.refl _ s) fun h0 => ?_
  refine KeepsO.next ?_
  extract_lets -merge y0 y1 y2 y3 y4 y5
  clear_value y0
  refine Keeps.cut (y1) ?_ fun h6 => ?_
  · unfold y1
    refine Keeps.step (State.dynFix_keeps ..) rfl ?_
    assumption
  clear_value y1 y2 y3 y4 y5
  refine Keeps.ite ?_ ?_
  · assumption
  · split
    · rename_i a7 a8
      assumption
    · rename_i a9 a10 a11
      extract_lets -merge y12 y13 y14 y15 y16
      clear_value y12 y13 y14 y15 y16
      split
      · rename_i a17 a18 a19 a20 a21 a22 a23
        refine Keeps.ite ?_ ?_
        · assumption
        · split
          · rename_i a24 a25
            assumption
          · rename_i a26 a27 a28
            refine Keeps.cut (a27) ?_ fun h29 => ?_
            · refine Keeps.step (State.grant_keeps a28) rfl ?_
              assumption
            extract_lets -merge y30 y31 y32 y33 y34 y35 y36 y37
            clear_value y30 y31 y32 y33 y34 y35
            refine Keeps.cut (y36) ?_ fun h38 => ?_
            · unfold y36
              refine Keeps.step (State.setTk_keeps ..) rfl ?_
              refine Keeps.step (State.setTk_keeps ..) rfl ?_
              assumption
            clear_value y36
            refine Keeps.cut (y37) ?_ fun h39 => ?_
            · unfold y37
              refine Keeps.step (State.runPulse_keeps ..) rfl ?_
              refine Keeps.step (State.noteLive_keeps ..) rfl ?_
              assumption
            clear_value y37
            refine Keeps.step (State.updDyn_keeps ..) rfl ?_
            assumption
      · rename_i a40 a41 a42 a43
        assumption

theorem State.dynRevoke_keeps (s gt) : Keeps (Fld.regs ||| Fld.hdr ||| Fld.log ||| Fld.out ||| Fld.irq ||| Fld.draws ||| Fld.leases ||| Fld.tickets ||| Fld.acks ||| Fld.jobs ||| Fld.plans ||| Fld.acct ||| Fld.ctxs ||| Fld.qps ||| Fld.landing ||| Fld.rungs ||| Fld.rows ||| Fld.tiles ||| Fld.harbour ||| Fld.hbPoison ||| Fld.hbWritten ||| Fld.frames ||| Fld.badSlots ||| Fld.owners ||| Fld.runs ||| Fld.dyns ||| Fld.tests ||| Fld.cal ||| Fld.ends ||| Fld.rplChecks ||| Fld.lost ||| Fld.rungAt) s (State.dynRevoke s gt) := by
  unfold State.dynRevoke
  refine Keeps.cut s (Keeps.refl _ s) fun h0 => ?_
  extract_lets -merge y0 y1
  clear_value y0
  refine Keeps.cut (y1) ?_ fun h2 => ?_
  · unfold y1
    refine Keeps.step (State.revoke_keeps ..) rfl ?_
    assumption
  clear_value y1
  split
  · rename_i a3 a4
    assumption
  · rename_i a5 a6 a7 a8
    extract_lets -merge y9 y10 y11 y12 y13
    clear_value y9
    refine Keeps.cut (y10) ?_ fun h14 => ?_
    · unfold y10
      refine Keeps.step (State.raiseC_keeps ..) rfl ?_
      assumption
    clear_value y10
    refine Keeps.cut (y11) ?_ fun h15 => ?_
    · unfold y11
      refine Keeps.step (State.failStep_keeps ..) rfl ?_
      assumption
    clear_value y11 y12
    refine Keeps.cut (y13) ?_ fun h16 => ?_
    · unfold y13
      refine Keeps.foldl ?_ ?_
      · intro t17 x18 h19
        refine Keeps.step (State.freeTk_keeps ..) rfl ?_
        assumption
      assumption
    clear_value y13
    refine Keeps.step (State.checkEnd_keeps ..) rfl ?_
    refine Keeps.step (State.freeTk_keeps ..) rfl ?_
    refine Keeps.step (State.dynEnd_keeps ..) rfl ?_
    assumption

theorem execDynRevoked_keeps (gt s) : KeepsO (Fld.regs ||| Fld.hdr ||| Fld.log ||| Fld.out ||| Fld.irq ||| Fld.draws ||| Fld.leases ||| Fld.tickets ||| Fld.acks ||| Fld.jobs ||| Fld.plans ||| Fld.acct ||| Fld.ctxs ||| Fld.qps ||| Fld.landing ||| Fld.rungs ||| Fld.rows ||| Fld.tiles ||| Fld.harbour ||| Fld.hbPoison ||| Fld.hbWritten ||| Fld.frames ||| Fld.badSlots ||| Fld.owners ||| Fld.runs ||| Fld.dyns ||| Fld.tests ||| Fld.cal ||| Fld.ends ||| Fld.rplChecks ||| Fld.lost ||| Fld.rungAt) s (execDynRevoked gt s) := by
  unfold execDynRevoked
  refine KeepsO.cut s (Keeps.refl _ s) fun h0 => ?_
  refine KeepsO.next ?_
  refine Keeps.ite ?_ ?_
  · refine Keeps.step (State.dynRevoke_keeps ..) rfl ?_
    assumption
  · assumption

end Sys2Proof.Machine
end

