-- ==== Sys2Proof/Laws/Replica.lean ====
section
/-!
SUPPORT. What each function of Machine/Replica.lean may change, and that it keeps the invariant of State.
-/
set_option linter.unusedVariables false
namespace Sys2Proof.Machine

theorem State.rplLast_keeps (s isls v) : Keeps (Fld.regs) s (State.rplLast s isls v) := by
  unfold State.rplLast
  refine Keeps.cut s (Keeps.refl _ s) fun h0 => ?_
  refine Keeps.foldl ?_ ?_
  · intro t0 x1 h2
    refine Keeps.step (State.setF_keeps ..) rfl ?_
    assumption
  assumption

theorem State.noteMismatch_keeps (s isls who ctx) : Keeps (Fld.regs ||| Fld.hdr ||| Fld.log ||| Fld.out ||| Fld.irq ||| Fld.draws ||| Fld.rungs ||| Fld.tests ||| Fld.rungAt) s (State.noteMismatch s isls who ctx) := by
  unfold State.noteMismatch
  refine Keeps.cut s (Keeps.refl _ s) fun h0 => ?_
  extract_lets -merge y0
  refine Keeps.cut (y0) ?_ fun h1 => ?_
  · unfold y0
    refine Keeps.foldl ?_ ?_
    · intro t2 x3 h4
      refine Keeps.step (State.incSat_keeps ..) rfl ?_
      assumption
    assumption
  clear_value y0
  refine Keeps.foldl ?_ ?_
  · intro t5 x6 h7
    refine Keeps.step (State.trigTest_keeps ..) rfl ?_
    assumption
  refine Keeps.step (State.raiseC_keeps ..) rfl ?_
  assumption

theorem State.goalsAgain_keeps (s) : Keeps (Fld.regs ||| Fld.hdr ||| Fld.log ||| Fld.out ||| Fld.irq ||| Fld.draws ||| Fld.rungs ||| Fld.rungAt) s (State.goalsAgain s) := by
  unfold State.goalsAgain
  refine Keeps.cut s (Keeps.refl _ s) fun h0 => ?_
  refine Keeps.foldl ?_ ?_
  · intro t0 x1 h2
    extract_lets -merge y3
    clear_value y3
    refine Keeps.foldl ?_ ?_
    · intro t4 x5 h6
      extract_lets -merge y7 y8
      clear_value y7
      refine Keeps.cut (y8) ?_ fun h9 => ?_
      · unfold y8
        refine Keeps.step (State.setB_keeps ..) rfl ?_
        assumption
      clear_value y8
      refine Keeps.ite ?_ ?_
      · refine Keeps.step (State.raiseI_keeps ..) rfl ?_
        assumption
      · assumption
    assumption
  assumption

theorem State.setReplicas_keeps (s p) : Keeps (Fld.regs ||| Fld.hdr ||| Fld.log ||| Fld.out ||| Fld.irq ||| Fld.draws ||| Fld.rungs ||| Fld.rungAt) s (State.setReplicas s p) := by
  unfold State.setReplicas
  refine Keeps.cut s (Keeps.refl _ s) fun h0 => ?_
  extract_lets -merge y0 y1 y2 y3 y4
  clear_value y0 y1 y2 y3 y4
  refine Keeps.ite ?_ ?_
  · assumption
  · refine Keeps.foldl ?_ ?_
    · intro t5 x6 h7
      extract_lets -merge y8 y9 y10
      clear_value y8
      refine Keeps.cut (y9) ?_ fun h11 => ?_
      · unfold y9
        refine Keeps.step (State.setReg_keeps ..) rfl ?_
        assumption
      clear_value y9
      refine Keeps.cut (y10) ?_ fun h12 => ?_
      · unfold y10
        refine Keeps.step (State.setReg_keeps ..) rfl ?_
        assumption
      clear_value y10
      refine Keeps.ite ?_ ?_
      · refine Keeps.step (State.raiseI_keeps ..) rfl ?_
        assumption
      · assumption
    assumption

theorem execTilRfshRegime_keeps (gt s) : KeepsO (Fld.regs ||| Fld.hdr ||| Fld.log ||| Fld.out ||| Fld.irq ||| Fld.draws ||| Fld.rungs ||| Fld.tiles ||| Fld.rungAt) s (execTilRfshRegime gt s) := by
  unfold execTilRfshRegime
  refine KeepsO.cut s (Keeps.refl _ s) fun h0 => ?_
  refine KeepsO.next ?_
  split
  · rename_i a0 a1
    assumption
  · rename_i a2 a3 a4 a5 a6
    refine Keeps.ite ?_ ?_
    · assumption
    · extract_lets -merge y7 y8 y9
      clear_value y7
      refine Keeps.cut (y8) ?_ fun h10 => ?_
      · unfold y8
        refine Keeps.step (State.setB_keeps ..) rfl ?_
        refine Keeps.step (State.updTx_keeps ..) rfl ?_
        assumption
      clear_value y8
      refine Keeps.cut (y9) ?_ fun h11 => ?_
      · unfold y9
        refine Keeps.step (State.clearLate_keeps ..) rfl ?_
        assumption
      clear_value y9
      refine Keeps.ite ?_ ?_
      · assumption
      · refine Keeps.step (State.goalsAgain_keeps ..) rfl ?_
        refine Keeps.step (State.raiseI_keeps ..) rfl ?_
        assumption

theorem State.expelRep_keeps (s h k) : Keeps (Fld.regs ||| Fld.hdr ||| Fld.log ||| Fld.out ||| Fld.irq ||| Fld.draws ||| Fld.rungs ||| Fld.rows ||| Fld.tiles ||| Fld.tests ||| Fld.cal ||| Fld.rplChecks ||| Fld.rungAt) s (State.expelRep s h k) := by
  unfold State.expelRep
  refine Keeps.cut s (Keeps.refl _ s) fun h0 => ?_
  extract_lets -merge y0 y1 y2
  clear_value y0
  refine Keeps.cut (y1) ?_ fun h3 => ?_
  · unfold y1
    refine Keeps.foldl ?_ ?_
    · intro t4 x5 h6
      refine Keeps.step (State.setB_keeps ..) rfl ?_
      refine Keeps.step (State.setB_keeps ..) rfl ?_
      assumption
    assumption
  clear_value y1
  refine Keeps.cut (y2) ?_ fun h7 => ?_
  · unfold y2
    refine Keeps.step (State.raiseC_keeps ..) rfl ?_
    refine Keeps.step (State.rplLast_keeps ..) rfl ?_
    assumption
  clear_value y2
  refine Keeps.ite ?_ ?_
  · assumption
  · refine Keeps.foldl ?_ ?_
    · intro t8 x9 h10
      refine Keeps.ite ?_ ?_
      · assumption
      · refine Keeps.step (State.fenceUnit_keeps ..) rfl ?_
        assumption
    assumption

theorem State.checkTiles_keeps (s h odd) : Keeps (Fld.regs ||| Fld.hdr ||| Fld.log ||| Fld.out ||| Fld.irq ||| Fld.draws ||| Fld.rungs ||| Fld.rows ||| Fld.tiles ||| Fld.tests ||| Fld.cal ||| Fld.rplChecks ||| Fld.rungAt) s (State.checkTiles s h odd) := by
  unfold State.checkTiles
  refine Keeps.cut s (Keeps.refl _ s) fun h0 => ?_
  extract_lets -merge y0 y1 y2 y3 y4 y5
  clear_value y0
  refine Keeps.cut (y1) ?_ fun h6 => ?_
  · unfold y1
    exact ((Keeps.set_rplChecks _ h0 rfl) :)
  clear_value y1 y2 y3
  refine Keeps.cut (y4) ?_ fun h7 => ?_
  · unfold y4
    refine Keeps.foldl ?_ ?_
    · intro t8 x9 h10
      refine Keeps.step (State.fenceUnit_keeps ..) rfl ?_
      assumption
    assumption
  clear_value y4
  refine Keeps.cut (y5) ?_ fun h11 => ?_
  · unfold y5
    refine Keeps.foldl ?_ ?_
    · intro t12 x13 h14
      refine Keeps.step (State.updTx_keeps ..) rfl ?_
      assumption
    assumption
  clear_value y5
  refine Keeps.ite ?_ ?_
  · assumption
  · exact ((Keeps.set_rplChecks _ h11 rfl) :)

theorem State.compareSet_keeps (s h pi) : Keeps (Fld.regs ||| Fld.hdr ||| Fld.log ||| Fld.out ||| Fld.irq ||| Fld.draws ||| Fld.rungs ||| Fld.rows ||| Fld.tiles ||| Fld.tests ||| Fld.cal ||| Fld.rplChecks ||| Fld.rungAt) s (State.compareSet s h pi).1 := by
  unfold State.compareSet
  refine Keeps.cut s (Keeps.refl _ s) fun h0 => ?_
  extract_lets -merge y0 y1 y2 y3 y4 y5
  clear_value y0 y1 y2 y3 y4
  refine Keeps.cut (y5) ?_ fun h6 => ?_
  · unfold y5
    refine Keeps.foldl ?_ ?_
    · intro t7 x8 h9
      refine Keeps.step (State.incSat_keeps ..) rfl ?_
      assumption
    assumption
  clear_value y5
  split
  · rename_i a10 a11
    dsimp only
    refine Keeps.step (State.rplLast_keeps ..) rfl ?_
    assumption
  · rename_i a12 a13 a14
    dsimp only
    refine Keeps.step (State.expelRep_keeps ..) rfl ?_
    refine Keeps.step (State.rplLast_keeps ..) rfl ?_
    refine Keeps.step (State.noteMismatch_keeps ..) rfl ?_
    assumption
  · rename_i a15 a16
    dsimp only
    refine Keeps.step (State.rplLast_keeps ..) rfl ?_
    refine Keeps.step (State.noteMismatch_keeps ..) rfl ?_
    assumption

theorem execRplExpel_keeps (isl s) : KeepsO (Fld.regs ||| Fld.hdr ||| Fld.log ||| Fld.out ||| Fld.irq ||| Fld.draws ||| Fld.rungs ||| Fld.rows ||| Fld.tiles ||| Fld.tests ||| Fld.cal ||| Fld.rplChecks ||| Fld.rungAt) s (execRplExpel isl s) := by
  unfold execRplExpel
  refine KeepsO.cut s (Keeps.refl _ s) fun h0 => ?_
  refine KeepsO.next ?_
  refine Keeps.ite ?_ ?_
  · assumption
  · split
    · rename_i a0 a1
      assumption
    · rename_i a2 a3 a4 a5
      refine Keeps.step (State.expelRep_keeps ..) rfl ?_
      assumption

theorem execReplicaCompare_keeps (h s) : KeepsO (Fld.regs ||| Fld.hdr ||| Fld.log ||| Fld.out ||| Fld.irq ||| Fld.draws ||| Fld.plans ||| Fld.rungs ||| Fld.rows ||| Fld.tiles ||| Fld.tests ||| Fld.cal ||| Fld.rplChecks ||| Fld.rungAt) s (execReplicaCompare h s) := by
  unfold execReplicaCompare
  refine KeepsO.cut s (Keeps.refl _ s) fun h0 => ?_
  refine KeepsO.next ?_
  extract_lets -merge y0 y1 y2
  clear_value y0
  refine Keeps.cut (y1) ?_ fun h3 => ?_
  · unfold y1
    refine Keeps.step (State.setPlan_keeps ..) rfl ?_
    assumption
  clear_value y1
  refine Keeps.cut (y2.1) ?_ fun h4 => ?_
  · unfold y2
    refine Keeps.foldl_fst ?_ ?_
    · intro t5 c6 x7 h8
      dsimp only
      refine Keeps.step (State.compareSet_keeps ..) rfl ?_
      assumption
    assumption
  clear_value y2
  refine Keeps.ite ?_ ?_
  · assumption
  · refine Keeps.step (State.checkTiles_keeps ..) rfl ?_
    exact h4

theorem execOutputCompare_keeps (j s) : KeepsO (Fld.regs ||| Fld.hdr ||| Fld.log ||| Fld.out ||| Fld.irq ||| Fld.draws ||| Fld.jobs ||| Fld.rungs ||| Fld.rows ||| Fld.tiles ||| Fld.tests ||| Fld.cal ||| Fld.ends ||| Fld.rplChecks ||| Fld.rungAt) s (execOutputCompare j s) := by
  unfold execOutputCompare
  refine KeepsO.cut s (Keeps.refl _ s) fun h0 => ?_
  refine KeepsO.next ?_
  extract_lets -merge y0 y1 y2 y3 y4 y5 y6 y7 y8 y9 y10 y11
  clear_value y0 y1 y3 y4 y5
  refine Keeps.cut (y6) ?_ fun h12 => ?_
  · unfold y6
    refine Keeps.foldl ?_ ?_
    · intro t13 x14 h15
      refine Keeps.step (State.incSat_keeps ..) rfl ?_
      assumption
    assumption
  clear_value y6
  refine Keeps.cut (y8) ?_ fun h16 => ?_
  · unfold y8
    refine Keeps.step (State.rplLast_keeps ..) rfl ?_
    refine Keeps.step (State.noteMismatch_keeps ..) rfl ?_
    assumption
  clear_value y8
  refine Keeps.cut (y9) ?_ fun h17 => ?_
  · unfold y9
    refine Keeps.foldl ?_ ?_
    · intro t18 x19 h20
      refine Keeps.foldl ?_ ?_
      · intro t21 x22 h23
        refine Keeps.step (State.lagEnter_keeps ..) rfl ?_
        assumption
      assumption
    assumption
  clear_value y9 y10
  refine Keeps.ite ?_ ?_
  · assumption
  · split
    · rename_i a24 a25
      unfold y7
      extract_lets -merge y26
      clear_value y26
      refine Keeps.step (State.setJob_keeps ..) rfl ?_
      refine Keeps.step (State.rplLast_keeps ..) rfl ?_
      assumption
    · rename_i a27 a28 a29
      extract_lets -merge y30
      refine Keeps.cut (y30) ?_ fun h31 => ?_
      · unfold y30
        refine Keeps.step (State.expelRep_keeps ..) rfl ?_
        refine Keeps.step (State.noteMismatch_keeps ..) rfl ?_
        assumption
      clear_value y30
      unfold y7
      extract_lets -merge y32
      clear_value y32
      refine Keeps.step (State.setJob_keeps ..) rfl ?_
      refine Keeps.step (State.rplLast_keeps ..) rfl ?_
      assumption
    · rename_i a33 a34
      refine Keeps.ite ?_ ?_
      · refine Keeps.step (State.endJob_keeps ..) rfl ?_
        refine Keeps.step (State.setJob_keeps ..) rfl ?_
        assumption
      · refine Keeps.step (State.setJob_keeps ..) rfl ?_
        assumption

theorem State.rplVerified_keeps (s gt clean) : Keeps (Fld.regs ||| Fld.hdr ||| Fld.log ||| Fld.out ||| Fld.irq ||| Fld.draws ||| Fld.rungs ||| Fld.rows ||| Fld.tiles ||| Fld.tests ||| Fld.cal ||| Fld.rplChecks ||| Fld.rungAt) s (State.rplVerified s gt clean) := by
  unfold State.rplVerified
  refine Keeps.cut s (Keeps.refl _ s) fun h0 => ?_
  extract_lets -merge y0 y1 y2
  refine Keeps.cut (y0) ?_ fun h3 => ?_
  · unfold y0
    refine Keeps.step (State.updTx_keeps ..) rfl ?_
    assumption
  clear_value y0
  refine Keeps.cut (y2) ?_ fun h4 => ?_
  · unfold y2
    refine Keeps.ite ?_ ?_
    · assumption
    · refine Keeps.step (State.lagEnter_keeps ..) rfl ?_
      unfold y1
      refine Keeps.step (State.updTx_keeps ..) rfl ?_
      assumption
  clear_value y2
  split
  · rename_i a5 a6
    assumption
  · rename_i a7 a8 a9
    extract_lets -merge y10 y11 y12
    clear_value y10 y11
    refine Keeps.cut (y12) ?_ fun h13 => ?_
    · unfold y12
      exact ((Keeps.set_rplChecks _ h4 rfl) :)
    clear_value y12
    refine Keeps.ite ?_ ?_
    · refine Keeps.foldl ?_ ?_
      · intro t14 x15 h16
        unfold y1
        refine Keeps.step (State.updTx_keeps ..) rfl ?_
        assumption
      assumption
    · assumption

end Sys2Proof.Machine
end

