-- ==== Sys2Proof/Laws/Sluice.lean ====
section
/-!
SUPPORT. What each function of Machine/Sluice.lean may change, and that it keeps the invariant of State.
-/
set_option linter.unusedVariables false
namespace Sys2Proof.Machine

theorem State.writeAvsCtl_keeps (s v) : Keeps (Fld.regs ||| Fld.slu) s (State.writeAvsCtl s v) := by
  unfold State.writeAvsCtl
  refine Keeps.cut s (Keeps.refl _ s) fun h0 => ?_
  extract_lets -merge y0 y1 y2
  clear_value y0
  refine Keeps.cut (y1) ?_ fun h3 => ?_
  · unfold y1
    refine Keeps.step (State.plainWrite_keeps ..) rfl ?_
    assumption
  clear_value y1 y2
  refine Keeps.ite ?_ ?_
  · refine Keeps.step (State.setB_keeps ..) rfl ?_
    exact ((Keeps.set_slu _ h3 rfl) :)
  · assumption

theorem State.countStretch_keeps (s) : Keeps (Fld.regs) s (State.countStretch s) := by
  unfold State.countStretch
  refine Keeps.cut s (Keeps.refl _ s) fun h0 => ?_
  refine Keeps.foldl ?_ ?_
  · intro t0 x1 h2
    refine Keeps.step (State.incSat_keeps ..) rfl ?_
    assumption
  assumption

theorem State.windowStart_keeps (s) : Keeps (Fld.acct ||| Fld.slu) s (State.windowStart s) := by
  unfold State.windowStart
  refine Keeps.cut s (Keeps.refl _ s) fun h0 => ?_
  refine Keeps.ite ?_ ?_
  · assumption
  · extract_lets -merge y0 y1
    clear_value y0
    refine Keeps.cut (y1) ?_ fun h2 => ?_
    · unfold y1
      exact ((Keeps.set_slu _ h0 rfl) :)
    clear_value y1
    refine Keeps.foldl ?_ ?_
    · intro t3 x4 h5
      extract_lets -merge y6
      clear_value y6
      refine Keeps.step (State.setAc_keeps ..) rfl ?_
      assumption
    assumption

theorem execCapWindowEnd_keeps (s) : KeepsO (Fld.acct ||| Fld.slu) s (execCapWindowEnd s) := by
  unfold execCapWindowEnd
  refine KeepsO.cut s (Keeps.refl _ s) fun h0 => ?_
  refine KeepsO.next ?_
  refine Keeps.step (State.windowStart_keeps ..) rfl ?_
  assumption

theorem State.writeSluCtl_keeps (s v) : Keeps (Fld.regs ||| Fld.acct ||| Fld.slu) s (State.writeSluCtl s v) := by
  unfold State.writeSluCtl
  refine Keeps.cut s (Keeps.refl _ s) fun h0 => ?_
  extract_lets -merge y0 y1 y2 y3
  clear_value y0
  refine Keeps.cut (y1) ?_ fun h4 => ?_
  · unfold y1
    refine Keeps.step (State.plainWrite_keeps ..) rfl ?_
    assumption
  clear_value y1 y2
  refine Keeps.cut (y3) ?_ fun h5 => ?_
  · unfold y3
    exact ((Keeps.set_slu _ h4 rfl) :)
  clear_value y3
  refine Keeps.ite ?_ ?_
  · assumption
  · refine Keeps.foldl ?_ ?_
    · intro t6 x7 h8
      extract_lets -merge y9
      clear_value y9
      refine Keeps.step (State.setAc_keeps ..) rfl ?_
      assumption
    assumption

theorem execAvsCtlWrite_keeps (rq v s) : KeepsO (Fld.regs ||| Fld.heldWrites ||| Fld.slu) s (execAvsCtlWrite rq v s) := by
  unfold execAvsCtlWrite
  refine KeepsO.cut s (Keeps.refl _ s) fun h0 => ?_
  refine KeepsO.next ?_
  refine State.orHeld_hof ?_ rfl ?_
  · intro t0 x1
    refine Keeps.ite ?_ ?_
    · refine Keeps.step (State.writeAvsCtl_keeps ..) rfl ?_
      assumption
    · assumption
  assumption

theorem execCapWinWrite_keeps (rq v s) : KeepsO (Fld.regs ||| Fld.heldWrites ||| Fld.acct ||| Fld.slu) s (execCapWinWrite rq v s) := by
  unfold execCapWinWrite
  refine KeepsO.cut s (Keeps.refl _ s) fun h0 => ?_
  refine KeepsO.next ?_
  refine State.orHeld_hof ?_ rfl ?_
  · intro t0 x1
    refine Keeps.ite ?_ ?_
    · refine Keeps.step (State.writeSluCtl_keeps ..) rfl ?_
      assumption
    · assumption
  assumption

theorem State.recalcPart_keeps (s mv p) : Keeps (Fld.regs ||| Fld.hdr ||| Fld.log ||| Fld.out ||| Fld.irq ||| Fld.draws ||| Fld.acct ||| Fld.rungs ||| Fld.rungAt) s (State.recalcPart s mv p) := by
  unfold State.recalcPart
  refine Keeps.cut s (Keeps.refl _ s) fun h0 => ?_
  extract_lets -merge y0 y1 y2 y3 y4 y5 y6 y7 y8 y9
  clear_value y0 y1 y2 y3 y4 y5 y6 y7 y8 y9
  split
  · rename_i a10 a11 a12 a13
    split
    · rename_i a14 a15 a16 a17
      extract_lets -merge y18 y19
      refine Keeps.cut (y18) ?_ fun h20 => ?_
      · unfold y18
        refine Keeps.step (State.setAc_keeps ..) rfl ?_
        assumption
      clear_value y18
      refine Keeps.cut (y19) ?_ fun h21 => ?_
      · unfold y19
        refine Keeps.step (State.setB_keeps ..) rfl ?_
        refine Keeps.step (State.setB_keeps ..) rfl ?_
        refine Keeps.step (State.setB_keeps ..) rfl ?_
        assumption
      clear_value y19
      refine Keeps.ite ?_ ?_
      · refine Keeps.step (State.raise_keeps ..) rfl ?_
        assumption
      · assumption

theorem State.recalc_keeps (s) : Keeps (Fld.regs ||| Fld.hdr ||| Fld.log ||| Fld.out ||| Fld.irq ||| Fld.draws ||| Fld.acct ||| Fld.rungs ||| Fld.rungAt) s (State.recalc s) := by
  unfold State.recalc
  refine Keeps.cut s (Keeps.refl _ s) fun h0 => ?_
  extract_lets -merge y0 y1
  clear_value y0
  refine Keeps.cut (y1) ?_ fun h2 => ?_
  · unfold y1
    refine Keeps.step (State.setReg_keeps ..) rfl ?_
    assumption
  clear_value y1
  refine Keeps.foldl ?_ ?_
  · intro t3 x4 h5
    refine Keeps.step (State.recalcPart_keeps ..) rfl ?_
    assumption
  assumption

theorem State.settle_keeps (s) : Keeps (Fld.regs ||| Fld.hdr ||| Fld.log ||| Fld.out ||| Fld.irq ||| Fld.draws ||| Fld.acct ||| Fld.slu ||| Fld.rungs ||| Fld.rungAt) s (State.settle s) := by
  unfold State.settle
  refine Keeps.cut s (Keeps.refl _ s) fun h0 => ?_
  extract_lets -merge y0
  clear_value y0
  refine Keeps.step (State.recalc_keeps ..) rfl ?_
  refine Keeps.step (State.setB_keeps ..) rfl ?_
  exact ((Keeps.set_slu _ h0 rfl) :)

theorem State.writeCap_keeps (s a v) : Keeps (Fld.regs ||| Fld.hdr ||| Fld.log ||| Fld.out ||| Fld.irq ||| Fld.draws ||| Fld.acct ||| Fld.rungs ||| Fld.rungAt) s (State.writeCap s a v) := by
  unfold State.writeCap
  refine Keeps.cut s (Keeps.refl _ s) fun h0 => ?_
  refine Keeps.step (State.raise_keeps ..) rfl ?_
  refine Keeps.step (State.recalc_keeps ..) rfl ?_
  refine Keeps.step (State.plainWrite_keeps ..) rfl ?_
  assumption

theorem State.sendVoltage_keeps (s mv) : Keeps (Fld.regs ||| Fld.hdr ||| Fld.log ||| Fld.out ||| Fld.irq ||| Fld.draws ||| Fld.acct ||| Fld.slu ||| Fld.rungs ||| Fld.rungAt) s (State.sendVoltage s mv) := by
  unfold State.sendVoltage
  refine Keeps.cut s (Keeps.refl _ s) fun h0 => ?_
  extract_lets -merge y0 y1 y2
  refine Keeps.cut (y0) ?_ fun h3 => ?_
  · unfold y0
    refine Keeps.step (State.setF_keeps ..) rfl ?_
    assumption
  clear_value y0
  refine Keeps.cut (y1) ?_ fun h4 => ?_
  · unfold y1
    refine Keeps.step (State.setB_keeps ..) rfl ?_
    refine Keeps.step (State.setB_keeps ..) rfl ?_
    assumption
  clear_value y1 y2
  refine Keeps.step (State.emit_keeps ..) rfl ?_
  refine Keeps.step (State.recalc_keeps ..) rfl ?_
  exact ((Keeps.set_slu _ h4 rfl) :)

theorem execAvsReadback_keeps (mv s) : KeepsO (Fld.regs ||| Fld.hdr ||| Fld.log ||| Fld.out ||| Fld.irq ||| Fld.draws ||| Fld.acct ||| Fld.slu ||| Fld.rungs ||| Fld.rungAt) s (execAvsReadback mv s) := by
  unfold execAvsReadback
  refine KeepsO.cut s (Keeps.refl _ s) fun h0 => ?_
  refine KeepsO.next ?_
  refine Keeps.ite ?_ ?_
  · assumption
  · extract_lets -merge y0 y1 y2
    refine Keeps.cut (y0) ?_ fun h3 => ?_
    · unfold y0
      refine Keeps.step (State.setF_keeps ..) rfl ?_
      assumption
    clear_value y0 y1 y2
    refine Keeps.ite ?_ ?_
    · refine Keeps.step (State.settle_keeps ..) rfl ?_
      assumption
    · refine Keeps.ite ?_ ?_
      · refine Keeps.step (State.recalc_keeps ..) rfl ?_
        exact ((Keeps.set_slu _ h3 rfl) :)
      · assumption

theorem State.raiseVoltage_keeps (s mv) : Keeps (Fld.regs ||| Fld.hdr ||| Fld.log ||| Fld.out ||| Fld.irq ||| Fld.draws ||| Fld.acct ||| Fld.slu ||| Fld.rungs ||| Fld.rungAt) s (State.raiseVoltage s mv) := by
  unfold State.raiseVoltage
  refine Keeps.cut s (Keeps.refl _ s) fun h0 => ?_
  extract_lets -merge y0
  clear_value y0
  refine Keeps.ite ?_ ?_
  · refine Keeps.step (State.raise_keeps ..) rfl ?_
    refine Keeps.step (State.incSatF_keeps ..) rfl ?_
    refine Keeps.step (State.setB_keeps ..) rfl ?_
    assumption
  · refine Keeps.step (State.sendVoltage_keeps ..) rfl ?_
    refine Keeps.step (State.incSatF_keeps ..) rfl ?_
    assumption

theorem execSluiceTick_keeps (s) : KeepsO (Fld.regs ||| Fld.hdr ||| Fld.log ||| Fld.out ||| Fld.irq ||| Fld.draws ||| Fld.tickets ||| Fld.acct ||| Fld.slu ||| Fld.rungs ||| Fld.rungAt) s (execSluiceTick s) := by
  unfold execSluiceTick
  refine KeepsO.cut s (Keeps.refl _ s) fun h0 => ?_
  refine KeepsO.next ?_
  extract_lets -merge y0 y1 y2 y3 y4 y5
  clear_value y0 y1
  refine Keeps.cut (y2) ?_ fun h6 => ?_
  · unfold y2
    refine Keeps.foldl ?_ ?_
    · intro t7 x8 h9
      refine Keeps.step (State.setAc_keeps ..) rfl ?_
      assumption
    assumption
  clear_value y2 y3
  refine Keeps.cut (y4) ?_ fun h10 => ?_
  · unfold y4
    refine Keeps.ite ?_ ?_
    · exact ((Keeps.set_slu _ h6 rfl) :)
    · assumption
  clear_value y4
  refine Keeps.cut (y5) ?_ fun h11 => ?_
  · unfold y5
    refine Keeps.foldl ?_ ?_
    · intro t12 x13 h14
      refine Keeps.step (State.grantPass_keeps ..) rfl ?_
      assumption
    refine Keeps.step (State.windowStart_keeps ..) rfl ?_
    assumption
  clear_value y5
  refine Keeps.ite ?_ ?_
  · refine Keeps.step (State.countStretch_keeps ..) rfl ?_
    assumption
  · assumption

theorem execSluiceAvsFault_keeps (s) : KeepsO (Fld.regs ||| Fld.hdr ||| Fld.log ||| Fld.out ||| Fld.irq ||| Fld.draws ||| Fld.acct ||| Fld.slu ||| Fld.rungs ||| Fld.rungAt) s (execSluiceAvsFault s) := by
  unfold execSluiceAvsFault
  refine KeepsO.cut s (Keeps.refl _ s) fun h0 => ?_
  refine KeepsO.next ?_
  split
  · rename_i a0 a1
    assumption
  · rename_i a2 a3 a4
    refine Keeps.ite ?_ ?_
    · assumption
    · refine Keeps.ite ?_ ?_
      · extract_lets -merge y5
        clear_value y5
        refine Keeps.step (State.emit_keeps ..) rfl ?_
        exact ((Keeps.set_slu _ h0 rfl) :)
      · extract_lets -merge y6 y7 y8 y9
        refine Keeps.cut (y6) ?_ fun h10 => ?_
        · unfold y6
          refine Keeps.step (State.setF_keeps ..) rfl ?_
          assumption
        clear_value y6 y7
        refine Keeps.cut (y8) ?_ fun h11 => ?_
        · unfold y8
          refine Keeps.step (State.settle_keeps ..) rfl ?_
          exact ((Keeps.set_slu _ h10 rfl) :)
        clear_value y8
        refine Keeps.cut (y9) ?_ fun h12 => ?_
        · unfold y9
          refine Keeps.step (State.incSatF_keeps ..) rfl ?_
          refine Keeps.step (State.setB_keeps ..) rfl ?_
          assumption
        clear_value y9
        refine Keeps.step (State.raise_keeps ..) rfl ?_
        assumption

theorem execCapWrite_keeps (rq which v s) : KeepsO (Fld.regs ||| Fld.hdr ||| Fld.heldWrites ||| Fld.log ||| Fld.out ||| Fld.irq ||| Fld.draws ||| Fld.acct ||| Fld.rungs ||| Fld.rungAt) s (execCapWrite rq which v s) := by
  unfold execCapWrite
  refine KeepsO.cut s (Keeps.refl _ s) fun h0 => ?_
  refine KeepsO.next ?_
  refine State.orHeld_hof ?_ rfl ?_
  · intro t0 x1
    refine Keeps.ite ?_ ?_
    · refine Keeps.step (State.writeCap_keeps ..) rfl ?_
      assumption
    · assumption
  assumption

theorem State.avsDecide_keeps (s sl) : Keeps (Fld.regs ||| Fld.hdr ||| Fld.log ||| Fld.out ||| Fld.irq ||| Fld.draws ||| Fld.acct ||| Fld.slu ||| Fld.rungs ||| Fld.rungAt) s (State.avsDecide s sl) := by
  unfold State.avsDecide
  refine Keeps.cut s (Keeps.refl _ s) fun h0 => ?_
  extract_lets -merge y0 y1 y2 y3 y4 y5 y6 y7 y8 y9 y10 y11
  clear_value y0 y1 y2 y3 y4 y6 y7
  refine Keeps.cut (y8) ?_ fun h12 => ?_
  · unfold y8
    exact ((Keeps.set_slu _ h0 rfl) :)
  clear_value y8 y9 y10 y11
  refine Keeps.ite ?_ ?_
  · assumption
  · refine Keeps.ite ?_ ?_
    · refine Keeps.ite ?_ ?_
      · refine Keeps.step (State.raiseVoltage_keeps ..) rfl ?_
        assumption
      · assumption
    · refine Keeps.ite ?_ ?_
      · assumption
      · refine Keeps.ite ?_ ?_
        · refine Keeps.ite ?_ ?_
          · refine Keeps.step (State.raiseVoltage_keeps ..) rfl ?_
            assumption
          · assumption
        · refine Keeps.ite ?_ ?_
          · refine Keeps.ite ?_ ?_
            · refine Keeps.step (State.sendVoltage_keeps ..) rfl ?_
              refine Keeps.step (State.incSatF_keeps ..) rfl ?_
              exact ((Keeps.set_slu _ h12 rfl) :)
            · assumption
          · assumption

theorem execAvsWindowEnd_keeps (s) : KeepsO (Fld.regs ||| Fld.hdr ||| Fld.log ||| Fld.out ||| Fld.irq ||| Fld.draws ||| Fld.acct ||| Fld.slu ||| Fld.rungs ||| Fld.rungAt) s (execAvsWindowEnd s) := by
  unfold execAvsWindowEnd
  refine KeepsO.cut s (Keeps.refl _ s) fun h0 => ?_
  refine KeepsO.next ?_
  refine Keeps.ite ?_ ?_
  · assumption
  · extract_lets -merge y0 y1 y2 y3
    clear_value y0
    refine Keeps.cut (y1) ?_ fun h4 => ?_
    · unfold y1
      refine Keeps.step (State.setF_keeps ..) rfl ?_
      assumption
    clear_value y1 y2
    refine Keeps.cut (y3) ?_ fun h5 => ?_
    · unfold y3
      exact ((Keeps.set_slu _ h4 rfl) :)
    clear_value y3
    refine Keeps.ite ?_ ?_
    · assumption
    · refine Keeps.step (State.avsDecide_keeps ..) rfl ?_
      assumption

end Sys2Proof.Machine
end

