-- ==== Sys2Proof/Laws/Load.lean ====
section
/-!
SUPPORT. What each function of Machine/Load.lean may change, and that it keeps the invariant of State.
-/
set_option linter.unusedVariables false
namespace Sys2Proof.Machine

theorem State.setAdapted_keeps (s p) : Keeps (Fld.regs) s (State.setAdapted s p) := by
  unfold State.setAdapted
  refine Keeps.cut s (Keeps.refl _ s) fun h0 => ?_
  refine Keeps.foldl ?_ ?_
  · intro t0 x1 h2
    refine Keeps.foldl ?_ ?_
    · intro t3 x4 h5
      refine Keeps.step (State.setReg_keeps ..) rfl ?_
      refine Keeps.step (State.setF_keeps ..) rfl ?_
      assumption
    assumption
  assumption

theorem State.takeEntry_keeps (s j) : Keeps (Fld.jobs) s (State.takeEntry s j) := by
  unfold State.takeEntry
  refine Keeps.cut s (Keeps.refl _ s) fun h0 => ?_
  extract_lets -merge y0
  clear_value y0
  refine Keeps.step (State.setJob_keeps ..) rfl ?_
  assumption

theorem State.dropImport_keeps (s m) : Keeps (Fld.regs ||| Fld.ctxs ||| Fld.harbour ||| Fld.hbPoison ||| Fld.hbWritten ||| Fld.frames ||| Fld.badSlots ||| Fld.imports) s (State.dropImport s m) := by
  unfold State.dropImport
  refine Keeps.cut s (Keeps.refl _ s) fun h0 => ?_
  extract_lets -merge y0
  refine Keeps.cut (y0) ?_ fun h1 => ?_
  · unfold y0
    refine Keeps.foldl ?_ ?_
    · intro t2 x3 h4
      refine Keeps.step (State.unbackPos_keeps ..) rfl ?_
      assumption
    assumption
  clear_value y0
  exact ((Keeps.set_imports _ h1 rfl) :)

theorem State.backAll_keeps {s t : State} {c ty : Nat} {l r : List Nat} (h : s.backAll c ty l = some (t, r)) : Keeps (Fld.regs ||| Fld.ctxs ||| Fld.frames) s t := by
  induction l generalizing s t r with
  | nil => cases h; exact Keeps.refl _ s
  | cons p l ih =>
    rw [State.backAll] at h
    split at h
    · cases h
    · split at h
      · split at h
        · exact ih h
        · cases h
      · rw [Option.bind_eq_some_iff] at h
        obtain ⟨f, -, h⟩ := h
        simp only [Option.map_eq_some_iff] at h
        obtain ⟨⟨u, k⟩, hu, e⟩ := h
        cases e
        exact (Keeps.step (State.backPos_keeps ..) rfl (Keeps.refl _ s)).trans (ih hu)

theorem execRunJob_keeps (j s) : KeepsO (Fld.jobs ||| Fld.ends) s (execRunJob j s) := by
  unfold execRunJob
  refine KeepsO.cut s (Keeps.refl _ s) fun h0 => ?_
  refine KeepsO.next ?_
  refine Keeps.ite ?_ ?_
  · assumption
  · extract_lets -merge y0 y1 y2 y3
    refine Keeps.cut (y0) ?_ fun h4 => ?_
    · unfold y0
      refine Keeps.step (State.takeEntry_keeps ..) rfl ?_
      assumption
    clear_value y0 y1
    refine Keeps.cut (y2) ?_ fun h5 => ?_
    · unfold y2
      refine Keeps.step (State.setJob_keeps ..) rfl ?_
      assumption
    clear_value y2 y3
    refine Keeps.ite ?_ ?_
    · refine Keeps.step (State.endJob_keeps ..) rfl ?_
      assumption
    · refine Keeps.ite ?_ ?_
      · refine Keeps.step (State.endJob_keeps ..) rfl ?_
        assumption
      · refine Keeps.ite ?_ ?_
        · refine Keeps.step (State.setJob_keeps ..) rfl ?_
          assumption
        · assumption

theorem execSwapPlan_keeps (j s) : KeepsO (Fld.regs ||| Fld.jobs ||| Fld.ctxs ||| Fld.swaps ||| Fld.ends) s (execSwapPlan j s) := by
  unfold execSwapPlan
  refine KeepsO.cut s (Keeps.refl _ s) fun h0 => ?_
  refine KeepsO.next ?_
  refine Keeps.ite ?_ ?_
  · assumption
  · extract_lets -merge y0 y1
    refine Keeps.cut (y0) ?_ fun h2 => ?_
    · unfold y0
      refine Keeps.step (State.takeEntry_keeps ..) rfl ?_
      assumption
    clear_value y0 y1
    refine Keeps.ite ?_ ?_
    · refine Keeps.step (State.endJob_keeps ..) rfl ?_
      assumption
    · refine Keeps.ite ?_ ?_
      · refine Keeps.step (State.endJob_keeps ..) rfl ?_
        assumption
      · refine Keeps.step (State.startSwap_keeps ..) rfl ?_
        assumption

theorem execNopJob_keeps (j s) : KeepsO (Fld.jobs ||| Fld.ends) s (execNopJob j s) := by
  unfold execNopJob
  refine KeepsO.cut s (Keeps.refl _ s) fun h0 => ?_
  refine KeepsO.next ?_
  refine Keeps.ite ?_ ?_
  · refine Keeps.step (State.endJob_keeps ..) rfl ?_
    refine Keeps.step (State.takeEntry_keeps ..) rfl ?_
    assumption
  · assumption

theorem execCistReg_keeps (j s) : KeepsO (Fld.regs ||| Fld.jobs ||| Fld.ends) s (execCistReg j s) := by
  unfold execCistReg
  refine KeepsO.cut s (Keeps.refl _ s) fun h0 => ?_
  refine KeepsO.next ?_
  refine Keeps.ite ?_ ?_
  · assumption
  · extract_lets -merge y0 y1 y2 y3
    refine Keeps.cut (y0) ?_ fun h4 => ?_
    · unfold y0
      refine Keeps.step (State.takeEntry_keeps ..) rfl ?_
      assumption
    clear_value y0 y1
    refine Keeps.cut (y2) ?_ fun h5 => ?_
    · unfold y2
      refine Keeps.step (State.set64_keeps ..) rfl ?_
      assumption
    clear_value y2
    refine Keeps.cut (y3) ?_ fun h6 => ?_
    · unfold y3
      refine Keeps.step (State.setReg_keeps ..) rfl ?_
      assumption
    clear_value y3
    refine Keeps.ite ?_ ?_
    · refine Keeps.step (State.endJob_keeps ..) rfl ?_
      assumption
    · refine Keeps.step (State.endJob_keeps ..) rfl ?_
      refine Keeps.step (State.setReg_keeps ..) rfl ?_
      assumption

theorem State.putWindow_keeps (s c blk bs) : Keeps (Fld.regs ||| Fld.harbour ||| Fld.hbPoison ||| Fld.hbWritten) s (State.putWindow s c blk bs) := by
  unfold State.putWindow
  refine Keeps.cut s (Keeps.refl _ s) fun h0 => ?_
  refine Keeps.foldl ?_ ?_
  · intro t0 x1 h2
    split
    · rename_i a3 a4
      assumption
    · rename_i a5 a6 a7
      refine Keeps.step (State.hbWrite_keeps ..) rfl ?_
      assumption
  assumption

theorem State.putShard_keeps {s t : State} {m : Import} {e : List Byte} {i : Nat} {data : List Byte} {k : Nat}
    (h : s.putShard m e i data k = some t) : Keeps (Fld.regs ||| Fld.harbour ||| Fld.hbPoison ||| Fld.hbWritten ||| Fld.badSlots) s t := by
  unfold State.putShard at h
  dsimp only at h
  split at h
  · cases h
  · revert h
    generalize padTo _ _ = d
    intro h
    cases h
    exact Keeps.set_badSlots _ (Keeps.step (State.putWindow_keeps ..) rfl (Keeps.refl _ s)) rfl

theorem State.rehomeEntry_keeps (s h isl wti tile) : Keeps (Fld.plans ||| Fld.basin ||| Fld.lines) s (State.rehomeEntry s h isl wti tile) := by
  unfold State.rehomeEntry
  refine Keeps.cut s (Keeps.refl _ s) fun h0 => ?_
  extract_lets -merge y0
  clear_value y0
  refine Keeps.step (State.applyRehome_keeps ..) rfl ?_
  refine Keeps.step (State.setPlan_keeps ..) rfl ?_
  assumption

theorem execTileAssignWrite_keeps (n h isl wti tile s) : KeepsO (Fld.plans ||| Fld.basin ||| Fld.lines) s (execTileAssignWrite n h isl wti tile s) := by
  unfold execTileAssignWrite
  refine KeepsO.cut s (Keeps.refl _ s) fun h0 => ?_
  refine KeepsO.next ?_
  refine Keeps.ite ?_ ?_
  · assumption
  · refine Keeps.step (State.rehomeEntry_keeps ..) rfl ?_
    assumption

theorem State.putShards_keeps {s t : State} {m : Import} {e : List Byte} {i : Nat} {data : List Byte} (h : s.putShards m e i data = some t) :
    Keeps (Fld.regs ||| Fld.harbour ||| Fld.hbPoison ||| Fld.hbWritten ||| Fld.badSlots) s t := by
  unfold State.putShards at h
  revert h
  generalize List.range (leAt e 16 4 / 393344) = l
  suffices hs : ∀ (o : Option State), (∀ u, o = some u → Keeps (Fld.regs ||| Fld.harbour ||| Fld.hbPoison ||| Fld.hbWritten ||| Fld.badSlots) s u) → ∀ u, l.foldl (fun (o : Option State) k =>
    o.bind fun s => s.putShard m e i data k) o = some u → Keeps (Fld.regs ||| Fld.harbour ||| Fld.hbPoison ||| Fld.hbWritten ||| Fld.badSlots) s u from
    fun h => hs (some s) (fun u e => by cases e; exact Keeps.refl _ s) t h
  induction l with
  | nil => exact fun o ho u e => ho u e
  | cons k l ih =>
    intro o ho u e
    refine ih _ ?_ u e
    intro w hw
    cases o with
    | none => cases hw
    | some v => exact Keeps.step (State.putShard_keeps hw) rfl (ho v rfl)

theorem execUnloadPlan_keeps (j s) : KeepsO (Fld.regs ||| Fld.leases ||| Fld.tickets ||| Fld.jobs ||| Fld.plans ||| Fld.acct ||| Fld.ctxs ||| Fld.qps ||| Fld.landing ||| Fld.rows ||| Fld.tiles ||| Fld.harbour ||| Fld.hbPoison ||| Fld.hbWritten ||| Fld.frames ||| Fld.badSlots ||| Fld.owners ||| Fld.runs ||| Fld.ends) s (execUnloadPlan j s) := by
  unfold execUnloadPlan
  refine KeepsO.cut s (Keeps.refl _ s) fun h0 => ?_
  refine KeepsO.next ?_
  refine Keeps.ite ?_ ?_
  · assumption
  · extract_lets -merge y0
    refine Keeps.cut (y0) ?_ fun h1 => ?_
    · unfold y0
      refine Keeps.step (State.takeEntry_keeps ..) rfl ?_
      assumption
    clear_value y0
    refine Keeps.ite ?_ ?_
    · refine Keeps.step (State.unload_keeps ..) rfl ?_
      assumption
    · refine Keeps.step (State.endJob_keeps ..) rfl ?_
      assumption

theorem State.fillWindow_keeps {s t : State} {m : Import} {e : List Byte} {i : Nat} {data : List Byte} (h : s.fillWindow m e i data = some t) :
    Keeps (Fld.regs ||| Fld.harbour ||| Fld.hbPoison ||| Fld.hbWritten ||| Fld.badSlots) s t := by
  unfold State.fillWindow at h
  split at h
  · cases h; exact Keeps.step (State.putWindow_keeps ..) rfl (Keeps.refl _ s)
  · exact Keeps.step (State.putShards_keeps h) rfl (Keeps.refl _ s)

theorem State.logLoad_keeps (s c rep) : Keeps (Fld.regs ||| Fld.hdr ||| Fld.log ||| Fld.out ||| Fld.irq ||| Fld.draws ||| Fld.rungs ||| Fld.rungAt) s (State.logLoad s c rep) := by
  unfold State.logLoad
  refine Keeps.cut s (Keeps.refl _ s) fun h0 => ?_
  refine Keeps.step (State.raiseC_keeps ..) rfl ?_
  assumption

theorem State.rejectLoad_keeps (s j e) : Keeps (Fld.regs ||| Fld.hdr ||| Fld.log ||| Fld.out ||| Fld.irq ||| Fld.draws ||| Fld.jobs ||| Fld.rungs ||| Fld.ends ||| Fld.rungAt) s (State.rejectLoad s j e) := by
  unfold State.rejectLoad
  refine Keeps.cut s (Keeps.refl _ s) fun h0 => ?_
  extract_lets -merge y0 y1 y2
  clear_value y0 y1
  refine Keeps.cut (y2) ?_ fun h3 => ?_
  · unfold y2
    refine Keeps.step (State.setJob_keeps ..) rfl ?_
    assumption
  clear_value y2
  refine Keeps.step (State.endJob_keeps ..) rfl ?_
  refine Keeps.step (State.logLoad_keeps ..) rfl ?_
  assumption

theorem State.failImport_keeps (s m e) : Keeps (Fld.regs ||| Fld.hdr ||| Fld.log ||| Fld.out ||| Fld.irq ||| Fld.draws ||| Fld.jobs ||| Fld.ctxs ||| Fld.rungs ||| Fld.harbour ||| Fld.hbPoison ||| Fld.hbWritten ||| Fld.frames ||| Fld.badSlots ||| Fld.imports ||| Fld.ends ||| Fld.rungAt) s (State.failImport s m e) := by
  unfold State.failImport
  refine Keeps.cut s (Keeps.refl _ s) fun h0 => ?_
  refine Keeps.step (State.rejectLoad_keeps ..) rfl ?_
  refine Keeps.step (State.dropImport_keeps ..) rfl ?_
  assumption

theorem State.dmaErr_keeps (s fn) : Keeps (Fld.regs ||| Fld.hdr ||| Fld.log ||| Fld.out ||| Fld.irq ||| Fld.draws ||| Fld.rungs ||| Fld.rungAt) s (State.dmaErr s fn) := by
  unfold State.dmaErr
  refine Keeps.cut s (Keeps.refl _ s) fun h0 => ?_
  refine Keeps.step (State.raiseC_keeps ..) rfl ?_
  refine Keeps.step (State.incSat_keeps ..) rfl ?_
  assumption

theorem State.acceptPlan_keeps (s m) : Keeps (Fld.regs ||| Fld.hdr ||| Fld.log ||| Fld.out ||| Fld.irq ||| Fld.draws ||| Fld.leases ||| Fld.jobs ||| Fld.plans ||| Fld.nextPlan ||| Fld.acct ||| Fld.ctxs ||| Fld.rungs ||| Fld.tiles ||| Fld.owners ||| Fld.swaps ||| Fld.ends ||| Fld.rungAt) s (State.acceptPlan s m) := by
  unfold State.acceptPlan
  refine Keeps.cut s (Keeps.refl _ s) fun h0 => ?_
  extract_lets -merge y0 y1 y2 y3 y4 y5 y6 y7 y8 y9 y10 y11 y12 y13 y14 y15 y16 y17
  clear_value y0 y1 y2 y3 y4 y5
  refine Keeps.cut (y6) ?_ fun h18 => ?_
  · unfold y6
    refine Keeps.step (State.setReplicas_keeps ..) rfl ?_
    exact ((Keeps.set_nextPlan _ h0 rfl) :)
  clear_value y6
  refine Keeps.cut (y7) ?_ fun h19 => ?_
  · unfold y7
    refine Keeps.step (State.setAdapted_keeps ..) rfl ?_
    assumption
  clear_value y7
  refine Keeps.cut (y8) ?_ fun h20 => ?_
  · unfold y8
    refine Keeps.step (State.countPlans_keeps ..) rfl ?_
    refine Keeps.step (State.setPlan_keeps ..) rfl ?_
    assumption
  clear_value y8
  refine Keeps.cut (y9) ?_ fun h21 => ?_
  · unfold y9
    refine Keeps.foldl ?_ ?_
    · intro t22 x23 h24
      refine Keeps.step (State.lease_keeps ..) rfl ?_
      assumption
    assumption
  clear_value y9
  refine Keeps.cut (y10) ?_ fun h25 => ?_
  · unfold y10
    refine Keeps.step (State.lease_keeps ..) rfl ?_
    assumption
  clear_value y10 y11
  refine Keeps.cut (y12) ?_ fun h26 => ?_
  · unfold y12
    refine Keeps.step (State.setAc_keeps ..) rfl ?_
    assumption
  clear_value y12
  refine Keeps.cut (y13) ?_ fun h27 => ?_
  · unfold y13
    refine Keeps.foldl ?_ ?_
    · intro t28 x29 h30
      refine Keeps.step (State.setOwner_keeps ..) rfl ?_
      assumption
    assumption
  clear_value y13 y14 y15
  refine Keeps.cut (y16) ?_ fun h31 => ?_
  · unfold y16
    refine Keeps.step (State.setJob_keeps ..) rfl ?_
    assumption
  clear_value y16
  refine Keeps.cut (y17) ?_ fun h32 => ?_
  · unfold y17
    refine Keeps.step (State.endJob_keeps ..) rfl ?_
    refine Keeps.step (State.logLoad_keeps ..) rfl ?_
    assumption
  clear_value y17
  refine Keeps.ite ?_ ?_
  · refine Keeps.step (State.startSwap_keeps ..) rfl ?_
    assumption
  · assumption

theorem State.placeLines_keeps (s m e data) : Keeps (Fld.regs ||| Fld.hdr ||| Fld.log ||| Fld.out ||| Fld.irq ||| Fld.draws ||| Fld.basin ||| Fld.lines ||| Fld.rungs ||| Fld.rungAt) s (State.placeLines s m e data) := by
  unfold State.placeLines
  refine Keeps.cut s (Keeps.refl _ s) fun h0 => ?_
  refine Keeps.ite ?_ ?_
  · assumption
  · extract_lets -merge y0
    clear_value y0
    split
    · rename_i a1 a2 a3 a4
      refine Keeps.cut (a2) ?_ fun h5 => ?_
      · refine Keeps.of_fst a4 ?_
        refine Keeps.step (State.writeBytes_keeps ..) rfl ?_
        assumption
      refine Keeps.step (State.noteForeign_keeps ..) rfl ?_
      assumption

theorem State.placeSection_keeps {s t : State} {m m' : Import} {i : Nat} {data : List Byte} (h : s.placeSection m i data = .ok (t, m')) :
    Keeps (Fld.regs ||| Fld.hdr ||| Fld.log ||| Fld.out ||| Fld.irq ||| Fld.draws ||| Fld.ctxs ||| Fld.basin ||| Fld.lines ||| Fld.rungs ||| Fld.harbour ||| Fld.hbPoison ||| Fld.hbWritten ||| Fld.frames ||| Fld.badSlots ||| Fld.rungAt) s t := by
  unfold State.placeSection at h
  extract_lets e ty d at h
  clear_value e ty d
  split at h
  · cases h; exact Keeps.step (State.placeLines_keeps ..) rfl (Keeps.refl _ s)
  · split at h
    · cases h; exact Keeps.refl _ s
    · split at h
      · split at h
        · cases h
        · rename_i s1 l1 e1
          have h1 : Keeps (Fld.regs ||| Fld.hdr ||| Fld.log ||| Fld.out ||| Fld.irq ||| Fld.draws ||| Fld.ctxs ||| Fld.basin ||| Fld.lines ||| Fld.rungs ||| Fld.harbour ||| Fld.hbPoison ||| Fld.hbWritten ||| Fld.frames ||| Fld.badSlots ||| Fld.rungAt) s s1 := (State.backAll_keeps e1).mono rfl
          dsimp only at h
          split at h
          · cases h
          · rename_i s2 e2
            cases h
            exact Keeps.step (State.fillWindow_keeps e2) rfl h1
      · split at h
        · cases h; exact Keeps.step (State.add64_keeps ..) rfl (Keeps.refl _ s)
        · cases h

theorem execLoadPlan_keeps (j manifest sigOk dmaOk s) : KeepsO (Fld.regs ||| Fld.hdr ||| Fld.log ||| Fld.out ||| Fld.irq ||| Fld.draws ||| Fld.jobs ||| Fld.rungs ||| Fld.imports ||| Fld.ends ||| Fld.rungAt) s (execLoadPlan j manifest sigOk dmaOk s) := by
  unfold execLoadPlan
  refine KeepsO.cut s (Keeps.refl _ s) fun h0 => ?_
  refine KeepsO.next ?_
  refine Keeps.ite ?_ ?_
  · assumption
  · extract_lets -merge y0 y1 y2
    refine Keeps.cut (y0) ?_ fun h3 => ?_
    · unfold y0
      refine Keeps.step (State.takeEntry_keeps ..) rfl ?_
      assumption
    clear_value y0 y1 y2
    refine Keeps.ite ?_ ?_
    · refine Keeps.step (State.endJob_keeps ..) rfl ?_
      refine Keeps.step (State.dmaErr_keeps ..) rfl ?_
      assumption
    · refine Keeps.ite ?_ ?_
      · refine Keeps.step (State.rejectLoad_keeps ..) rfl ?_
        assumption
      · refine Keeps.ite ?_ ?_
        · refine Keeps.step (State.rejectLoad_keeps ..) rfl ?_
          assumption
        · refine Keeps.ite ?_ ?_
          · refine Keeps.step (State.rejectLoad_keeps ..) rfl ?_
            assumption
          · exact ((Keeps.set_imports _ h3 rfl) :)

theorem State.endImport_keeps (s m) : Keeps (Fld.regs ||| Fld.hdr ||| Fld.log ||| Fld.out ||| Fld.irq ||| Fld.draws ||| Fld.leases ||| Fld.jobs ||| Fld.plans ||| Fld.nextPlan ||| Fld.acct ||| Fld.ctxs ||| Fld.rungs ||| Fld.tiles ||| Fld.harbour ||| Fld.hbPoison ||| Fld.hbWritten ||| Fld.frames ||| Fld.badSlots ||| Fld.owners ||| Fld.swaps ||| Fld.imports ||| Fld.ends ||| Fld.rungAt) s (State.endImport s m) := by
  unfold State.endImport
  refine Keeps.cut s (Keeps.refl _ s) fun h0 => ?_
  extract_lets -merge y0 y1
  refine Keeps.cut (y0) ?_ fun h2 => ?_
  · unfold y0
    exact ((Keeps.set_imports _ h0 rfl) :)
  clear_value y0
  refine Keeps.cut (y1) ?_ fun h3 => ?_
  · unfold y1
    refine Keeps.step (State.raiseC_keeps ..) rfl ?_
    assumption
  clear_value y1
  split
  · rename_i a4 a5 a6
    refine Keeps.step (State.failImport_keeps ..) rfl ?_
    assumption
  · rename_i a7 a8
    refine Keeps.step (State.acceptPlan_keeps ..) rfl ?_
    assumption

theorem execImportSection_keeps (j data ok dmaOk s) : KeepsO (Fld.regs ||| Fld.hdr ||| Fld.log ||| Fld.out ||| Fld.irq ||| Fld.draws ||| Fld.leases ||| Fld.jobs ||| Fld.plans ||| Fld.nextPlan ||| Fld.acct ||| Fld.ctxs ||| Fld.basin ||| Fld.lines ||| Fld.rungs ||| Fld.tiles ||| Fld.harbour ||| Fld.hbPoison ||| Fld.hbWritten ||| Fld.frames ||| Fld.badSlots ||| Fld.owners ||| Fld.swaps ||| Fld.imports ||| Fld.ends ||| Fld.rungAt) s (execImportSection j data ok dmaOk s) := by
  unfold execImportSection
  refine KeepsO.cut s (Keeps.refl _ s) fun h0 => ?_
  refine KeepsO.next ?_
  split
  · rename_i a0 a1
    assumption
  · rename_i a2 a3 a4
    refine Keeps.ite ?_ ?_
    · refine Keeps.step (State.endJob_keeps ..) rfl ?_
      refine Keeps.step (State.dmaErr_keeps ..) rfl ?_
      refine Keeps.step (State.dropImport_keeps ..) rfl ?_
      assumption
    · refine Keeps.ite ?_ ?_
      · refine Keeps.step (State.failImport_keeps ..) rfl ?_
        assumption
      · split
        · rename_i a5 a6 a7
          refine Keeps.step (State.failImport_keeps ..) rfl ?_
          assumption
        · rename_i a8 a9 a10 a11
          refine Keeps.cut (a9) ?_ fun h12 => ?_
          · refine Keeps.step (State.placeSection_keeps a11) rfl ?_
            assumption
          extract_lets -merge y13
          clear_value y13
          refine Keeps.ite ?_ ?_
          · exact ((Keeps.set_imports _ h12 rfl) :)
          · refine Keeps.step (State.endImport_keeps ..) rfl ?_
            assumption

end Sys2Proof.Machine
end

