-- ==== Sys2Proof/Laws/Reprog.lean ====
section
/-!
SUPPORT. What each function of Machine/Reprog.lean may change, and that it keeps the invariant of State.
-/
set_option linter.unusedVariables false
namespace Sys2Proof.Machine

theorem State.reprogIssue_keeps (s gt idx ctx) : Keeps (Fld.regs ||| Fld.tickets) s (State.reprogIssue s gt idx ctx) := by
  unfold State.reprogIssue
  refine Keeps.cut s (Keeps.refl _ s) fun h0 => ?_
  extract_lets -merge y0
  clear_value y0
  refine Keeps.step (State.noteLive_keeps ..) rfl ?_
  refine Keeps.step (State.setTk_keeps ..) rfl ?_
  assumption

theorem execBasinLineUe_keeps (isl line s) : KeepsO (Fld.regs ||| Fld.hdr ||| Fld.log ||| Fld.out ||| Fld.irq ||| Fld.draws ||| Fld.lines ||| Fld.rungs ||| Fld.rungAt) s (execBasinLineUe isl line s) := by
  unfold execBasinLineUe
  refine KeepsO.cut s (Keeps.refl _ s) fun h0 => ?_
  refine KeepsO.next ?_
  extract_lets -merge y0 y1
  clear_value y0
  refine Keeps.cut (y1) ?_ fun h2 => ?_
  · unfold y1
    refine Keeps.step (State.incSat_keeps ..) rfl ?_
    refine Keeps.step (State.setLine_keeps ..) rfl ?_
    assumption
  clear_value y1
  refine Keeps.ite ?_ ?_
  · assumption
  · refine Keeps.step (State.raiseI_keeps ..) rfl ?_
    assumption

theorem State.reprogBegin_keeps (s gt) : Keeps (Fld.regs ||| Fld.hdr ||| Fld.log ||| Fld.out ||| Fld.irq ||| Fld.draws ||| Fld.rungs ||| Fld.rows ||| Fld.tiles ||| Fld.cal ||| Fld.rungAt) s (State.reprogBegin s gt) := by
  unfold State.reprogBegin
  refine Keeps.cut s (Keeps.refl _ s) fun h0 => ?_
  extract_lets -merge y0 y1 y2
  clear_value y0
  refine Keeps.cut (y1) ?_ fun h3 => ?_
  · unfold y1
    refine Keeps.step (State.calFence_keeps ..) rfl ?_
    assumption
  clear_value y1
  refine Keeps.cut (y2) ?_ fun h4 => ?_
  · unfold y2
    refine Keeps.step (State.updTx_keeps ..) rfl ?_
    assumption
  clear_value y2
  refine Keeps.step (State.setF_keeps ..) rfl ?_
  assumption

theorem execReprogramStart_keeps (gt s) : KeepsO (Fld.regs ||| Fld.hdr ||| Fld.log ||| Fld.out ||| Fld.irq ||| Fld.draws ||| Fld.tickets ||| Fld.rungs ||| Fld.rows ||| Fld.tiles ||| Fld.runs ||| Fld.nextRun ||| Fld.cal ||| Fld.rungAt) s (execReprogramStart gt s) := by
  unfold execReprogramStart
  refine KeepsO.cut s (Keeps.refl _ s) fun h0 => ?_
  refine KeepsO.next ?_
  extract_lets -merge y0 y1
  clear_value y0 y1
  refine Keeps.ite ?_ ?_
  · assumption
  · refine Keeps.ite ?_ ?_
    · split
      · rename_i a2 a3
        assumption
      · rename_i a4 a5 a6
        extract_lets -merge y7 y8
        refine Keeps.cut (y7) ?_ fun h9 => ?_
        · unfold y7
          refine Keeps.step (State.reprogIssue_keeps ..) rfl ?_
          refine Keeps.step (State.reprogBegin_keeps ..) rfl ?_
          assumption
        clear_value y7 y8
        refine Keeps.step (State.setRun_keeps ..) rfl ?_
        exact ((Keeps.set_nextRun _ h9 rfl) :)
    · split
      · rename_i a10 a11 a12
        split
        · rename_i a13 a14
          assumption
        · rename_i a15 a16 a17
          refine Keeps.step (State.reprogIssue_keeps ..) rfl ?_
          refine Keeps.step (State.reprogBegin_keeps ..) rfl ?_
          assumption
      · rename_i a18 a19
        refine Keeps.step (State.releaseTile_keeps ..) rfl ?_
        refine Keeps.step (State.reprogResult_keeps ..) rfl ?_
        refine Keeps.step (State.reprogBegin_keeps ..) rfl ?_
        assumption

theorem execNearMissWindowEnd_keeps (gt s) : KeepsO (Fld.regs ||| Fld.hdr ||| Fld.log ||| Fld.out ||| Fld.irq ||| Fld.draws ||| Fld.rungs ||| Fld.rows ||| Fld.tiles ||| Fld.tests ||| Fld.cal ||| Fld.rplChecks ||| Fld.rungAt) s (execNearMissWindowEnd gt s) := by
  unfold execNearMissWindowEnd
  refine KeepsO.cut s (Keeps.refl _ s) fun h0 => ?_
  refine KeepsO.next ?_
  extract_lets -merge y0 y1 y2 y3
  clear_value y0 y1 y2
  refine Keeps.cut (y3) ?_ fun h4 => ?_
  · unfold y3
    refine Keeps.step (State.updTx_keeps ..) rfl ?_
    assumption
  clear_value y3
  refine Keeps.ite ?_ ?_
  · assumption
  · refine Keeps.ite ?_ ?_
    · assumption
    · refine Keeps.step (State.lagEnter_keeps ..) rfl ?_
      refine Keeps.step (State.trigTest_keeps ..) rfl ?_
      refine Keeps.step (State.raiseI_keeps ..) rfl ?_
      assumption

theorem State.reprogVerified_keeps (s gt) : Keeps (Fld.regs ||| Fld.hdr ||| Fld.log ||| Fld.out ||| Fld.irq ||| Fld.draws ||| Fld.rungs ||| Fld.rows ||| Fld.tiles ||| Fld.tests ||| Fld.cal ||| Fld.rplChecks ||| Fld.rungAt) s (State.reprogVerified s gt) := by
  unfold State.reprogVerified
  refine Keeps.cut s (Keeps.refl _ s) fun h0 => ?_
  extract_lets -merge y0 y1 y2
  clear_value y0 y1
  refine Keeps.cut (y2) ?_ fun h3 => ?_
  · unfold y2
    refine Keeps.step (State.reprogEnd_keeps ..) rfl ?_
    assumption
  clear_value y2
  refine Keeps.ite ?_ ?_
  · refine Keeps.step (State.rplVerified_keeps ..) rfl ?_
    assumption
  · refine Keeps.ite ?_ ?_
    · refine Keeps.step (State.fenceUnit_keeps ..) rfl ?_
      refine Keeps.step (State.reprogResult_keeps ..) rfl ?_
      assumption
    · refine Keeps.ite ?_ ?_
      · refine Keeps.step (State.lagEnter_keeps ..) rfl ?_
        assumption
      · assumption

theorem execReprogramVerify_keeps (gt devs s) : KeepsO (Fld.regs ||| Fld.hdr ||| Fld.log ||| Fld.out ||| Fld.irq ||| Fld.draws ||| Fld.acct ||| Fld.rungs ||| Fld.rows ||| Fld.tiles ||| Fld.tests ||| Fld.cal ||| Fld.rplChecks ||| Fld.rungAt) s (execReprogramVerify gt devs s) := by
  unfold execReprogramVerify
  refine KeepsO.cut s (Keeps.refl _ s) fun h0 => ?_
  refine KeepsO.next ?_
  extract_lets -merge y0 y1 y2
  clear_value y0 y1 y2
  refine Keeps.ite ?_ ?_
  · assumption
  · split
    · rename_i a3 a4
      assumption
    · rename_i a5 a6 a7
      refine Keeps.cut (a6) ?_ fun h8 => ?_
      · refine Keeps.step (State.grant_keeps a7) rfl ?_
        assumption
      extract_lets -merge y9 y10 y11 y12
      clear_value y9
      refine Keeps.cut (y10) ?_ fun h13 => ?_
      · unfold y10
        refine Keeps.step (State.noteRead_keeps ..) rfl ?_
        assumption
      clear_value y10 y11
      refine Keeps.cut (y12) ?_ fun h14 => ?_
      · unfold y12
        refine Keeps.step (State.updTx_keeps ..) rfl ?_
        assumption
      clear_value y12
      refine Keeps.ite ?_ ?_
      · assumption
      · refine Keeps.step (State.reprogVerified_keeps ..) rfl ?_
        assumption

end Sys2Proof.Machine
end

