-- ==== Sys2Proof/Laws/FieldTest.lean ====
section
/-!
SUPPORT. What each function of Machine/FieldTest.lean may change, and that it keeps the invariant of State.
-/
set_option linter.unusedVariables false
namespace Sys2Proof.Machine

theorem State.clearOverdue_keeps (s isl u) : Keeps (Fld.regs) s (State.clearOverdue s isl u) := by
  unfold State.clearOverdue
  refine Keeps.cut s (Keeps.refl _ s) fun h0 => ?_
  refine Keeps.ite ?_ ?_
  · refine Keeps.step (State.setF_keeps ..) rfl ?_
    refine Keeps.step (State.setB_keeps ..) rfl ?_
    assumption
  · assumption

theorem State.pausePlan_keeps (s h p) : Keeps (Fld.tickets ||| Fld.jobs ||| Fld.plans) s (State.pausePlan s h p) := by
  unfold State.pausePlan
  refine Keeps.cut s (Keeps.refl _ s) fun h0 => ?_
  extract_lets -merge y0 y1
  refine Keeps.cut (y0) ?_ fun h2 => ?_
  · unfold y0
    refine Keeps.foldl ?_ ?_
    · intro t3 x4 h5
      extract_lets -merge y6 y7
      refine Keeps.cut (y6) ?_ fun h8 => ?_
      · unfold y6
        refine Keeps.step (State.mapTk_keeps ..) rfl ?_
        assumption
      clear_value y6 y7
      refine Keeps.step (State.setJob_keeps ..) rfl ?_
      assumption
    assumption
  clear_value y0 y1
  refine Keeps.step (State.setPlan_keeps ..) rfl ?_
  assumption

theorem State.tstErr_keeps (s e) : Keeps (Fld.regs) s (State.tstErr s e) := by
  unfold State.tstErr
  refine Keeps.cut s (Keeps.refl _ s) fun h0 => ?_
  refine Keeps.step (State.setF_keeps ..) rfl ?_
  assumption

theorem State.deferBit_keeps (s isl u b) : Keeps (Fld.regs) s (State.deferBit s isl u b) := by
  unfold State.deferBit
  refine Keeps.cut s (Keeps.refl _ s) fun h0 => ?_
  refine Keeps.ite ?_ ?_
  · refine Keeps.step (State.setB_keeps ..) rfl ?_
    assumption
  · assumption

theorem execTestTile_keeps (rq target s) : KeepsO (Fld.regs ||| Fld.heldWrites ||| Fld.tests) s (execTestTile rq target s) := by
  unfold execTestTile
  refine KeepsO.cut s (Keeps.refl _ s) fun h0 => ?_
  refine KeepsO.next ?_
  refine State.orHeld_hof ?_ rfl ?_
  · intro t0 x1
    refine Keeps.ite ?_ ?_
    · assumption
    · refine Keeps.ite ?_ ?_
      · refine Keeps.step (State.tstErr_keeps ..) rfl ?_
        assumption
      · extract_lets -merge y2 y3 y4
        clear_value y2 y3 y4
        refine Keeps.step (State.tstErr_keeps ..) rfl ?_
        refine Keeps.step (State.setTest_keeps ..) rfl ?_
        assumption
  assumption

theorem State.rehomeWrite_keeps (s isl u spare idx) : Keeps (Fld.regs ||| Fld.tickets ||| Fld.tiles ||| Fld.owners ||| Fld.runs ||| Fld.nextRun) s (State.rehomeWrite s isl u spare idx) := by
  unfold State.rehomeWrite
  refine Keeps.cut s (Keeps.refl _ s) fun h0 => ?_
  extract_lets -merge y0 y1 y2 y3 y4 y5 y6 y7 y8
  clear_value y0 y1 y2 y3 y4
  refine Keeps.cut (y5) ?_ fun h9 => ?_
  · unfold y5
    refine Keeps.step (State.setOwner_keeps ..) rfl ?_
    assumption
  clear_value y5
  refine Keeps.cut (y6) ?_ fun h10 => ?_
  · unfold y6
    refine Keeps.step (State.updTx_keeps ..) rfl ?_
    assumption
  clear_value y6
  refine Keeps.cut (y7) ?_ fun h11 => ?_
  · unfold y7
    refine Keeps.step (State.reprogIssue_keeps ..) rfl ?_
    assumption
  clear_value y7 y8
  refine Keeps.ite ?_ ?_
  · refine Keeps.step (State.setRun_keeps ..) rfl ?_
    exact ((Keeps.set_nextRun _ h11 rfl) :)
  · assumption

theorem State.latchTest_keeps (s isl u outcome) : Keeps (Fld.regs) s (State.latchTest s isl u outcome) := by
  unfold State.latchTest
  refine Keeps.cut s (Keeps.refl _ s) fun h0 => ?_
  extract_lets -merge y0
  refine Keeps.cut (y0) ?_ fun h1 => ?_
  · unfold y0
    refine Keeps.step (State.setReg_keeps ..) rfl ?_
    assumption
  clear_value y0
  refine Keeps.step (State.set64_keeps ..) rfl ?_
  assumption

theorem execTestIsland_keeps (rq target s) : KeepsO (Fld.regs ||| Fld.heldWrites ||| Fld.tests) s (execTestIsland rq target s) := by
  unfold execTestIsland
  refine KeepsO.cut s (Keeps.refl _ s) fun h0 => ?_
  refine KeepsO.next ?_
  refine State.orHeld_hof ?_ rfl ?_
  · intro t0 x1
    refine Keeps.ite ?_ ?_
    · assumption
    · refine Keeps.ite ?_ ?_
      · refine Keeps.step (State.tstErr_keeps ..) rfl ?_
        assumption
      · refine Keeps.ite ?_ ?_
        · refine Keeps.step (State.tstErr_keeps ..) rfl ?_
          assumption
        · refine Keeps.step (State.tstErr_keeps ..) rfl ?_
          refine Keeps.step (State.askIslTest_keeps ..) rfl ?_
          assumption
  assumption

theorem State.wipeTile_keeps (s isl u) : Keeps (Fld.regs ||| Fld.rows ||| Fld.tiles ||| Fld.owners) s (State.wipeTile s isl u) := by
  unfold State.wipeTile
  refine Keeps.cut s (Keeps.refl _ s) fun h0 => ?_
  extract_lets -merge y0 y1 y2 y3 y4 y5
  clear_value y0
  refine Keeps.cut (y1) ?_ fun h6 => ?_
  · unfold y1
    refine Keeps.ite ?_ ?_
    · refine Keeps.step (State.setOwner_keeps ..) rfl ?_
      assumption
    · assumption
  clear_value y1
  refine Keeps.cut (y2) ?_ fun h7 => ?_
  · unfold y2
    exact ((Keeps.set_rows _ h6 rfl) :)
  clear_value y2
  refine Keeps.cut (y3) ?_ fun h8 => ?_
  · unfold y3
    refine Keeps.step (State.set64_keeps ..) rfl ?_
    assumption
  clear_value y3
  refine Keeps.cut (y4) ?_ fun h9 => ?_
  · unfold y4
    refine Keeps.step (State.setF_keeps ..) rfl ?_
    assumption
  clear_value y4
  refine Keeps.cut (y5) ?_ fun h10 => ?_
  · unfold y5
    refine Keeps.step (State.updTx_keeps ..) rfl ?_
    assumption
  clear_value y5
  refine Keeps.step (State.setB_keeps ..) rfl ?_
  refine Keeps.step (State.countValid_keeps ..) rfl ?_
  assumption

theorem State.testEnd_keeps (s isl u) : Keeps (Fld.regs ||| Fld.tests) s (State.testEnd s isl u) := by
  unfold State.testEnd
  refine Keeps.cut s (Keeps.refl _ s) fun h0 => ?_
  extract_lets -merge y0 y1 y2 y3 y4 y5 y6
  refine Keeps.cut (y0) ?_ fun h7 => ?_
  · unfold y0
    refine Keeps.step (State.testHold_keeps ..) rfl ?_
    assumption
  clear_value y0 y1
  refine Keeps.cut (y2) ?_ fun h8 => ?_
  · unfold y2
    refine Keeps.step (State.setTest_keeps ..) rfl ?_
    assumption
  clear_value y2
  refine Keeps.cut (y3) ?_ fun h9 => ?_
  · unfold y3
    refine Keeps.step (State.setB_keeps ..) rfl ?_
    refine Keeps.step (State.clearOverdue_keeps ..) rfl ?_
    assumption
  clear_value y3 y4
  refine Keeps.cut (y5) ?_ fun h10 => ?_
  · unfold y5
    refine Keeps.step (State.testHold_keeps ..) rfl ?_
    assumption
  clear_value y5 y6
  refine Keeps.ite ?_ ?_
  · assumption
  · refine Keeps.ite ?_ ?_
    · refine Keeps.step (State.incSat_keeps ..) rfl ?_
      refine Keeps.step (State.setTest_keeps ..) rfl ?_
      assumption
    · split
      · rename_i a11 a12 a13
        refine Keeps.step (State.setF_keeps ..) rfl ?_
        assumption
      · rename_i a14 a15
        refine Keeps.step (State.setF_keeps ..) rfl ?_
        assumption

theorem execRehomeSwitch_keeps (isl u s) : KeepsO (Fld.regs ||| Fld.plans ||| Fld.basin ||| Fld.lines ||| Fld.tiles ||| Fld.tests) s (execRehomeSwitch isl u s) := by
  unfold execRehomeSwitch
  refine KeepsO.cut s (Keeps.refl _ s) fun h0 => ?_
  refine KeepsO.next ?_
  extract_lets -merge y0 y1 y2 y3 y4 y5 y6 y7
  clear_value y0 y1 y2
  refine Keeps.cut (y3) ?_ fun h8 => ?_
  · unfold y3
    refine Keeps.step (State.setTest_keeps ..) rfl ?_
    assumption
  clear_value y3
  refine Keeps.cut (y4) ?_ fun h9 => ?_
  · unfold y4
    refine Keeps.step (State.updTx_keeps ..) rfl ?_
    assumption
  clear_value y4
  refine Keeps.cut (y5) ?_ fun h10 => ?_
  · unfold y5
    refine Keeps.step (State.setB_keeps ..) rfl ?_
    refine Keeps.step (State.setB_keeps ..) rfl ?_
    assumption
  clear_value y5
  refine Keeps.cut (y6) ?_ fun h11 => ?_
  · unfold y6
    refine Keeps.ite ?_ ?_
    · refine Keeps.step (State.setReg_keeps ..) rfl ?_
      assumption
    · assumption
  clear_value y6
  refine Keeps.cut (y7) ?_ fun h12 => ?_
  · unfold y7
    refine Keeps.foldl ?_ ?_
    · intro t13 x14 h15
      refine Keeps.foldl ?_ ?_
      · intro t16 x17 h18
        refine Keeps.step (State.rehomeEntry_keeps ..) rfl ?_
        assumption
      assumption
    assumption
  clear_value y7
  refine Keeps.ite ?_ ?_
  · assumption
  · refine Keeps.step (State.incSat_keeps ..) rfl ?_
    assumption

theorem State.raiseT_keeps (s n isl u outcome k) : Keeps (Fld.regs ||| Fld.hdr ||| Fld.log ||| Fld.out ||| Fld.irq ||| Fld.draws ||| Fld.rungs ||| Fld.rungAt) s (State.raiseT s n isl u outcome k) := by
  unfold State.raiseT
  refine Keeps.cut s (Keeps.refl _ s) fun h0 => ?_
  refine Keeps.step (State.raise_keeps ..) rfl ?_
  assumption

theorem State.markOverdue_keeps (s isl u) : Keeps (Fld.regs ||| Fld.hdr ||| Fld.log ||| Fld.out ||| Fld.irq ||| Fld.draws ||| Fld.rungs ||| Fld.rungAt) s (State.markOverdue s isl u) := by
  unfold State.markOverdue
  refine Keeps.cut s (Keeps.refl _ s) fun h0 => ?_
  refine Keeps.ite ?_ ?_
  · assumption
  · extract_lets -merge y0
    refine Keeps.cut (y0) ?_ fun h1 => ?_
    · unfold y0
      refine Keeps.step (State.setB_keeps ..) rfl ?_
      assumption
    clear_value y0
    refine Keeps.step (State.raiseT_keeps ..) rfl ?_
    refine Keeps.step (State.setF_keeps ..) rfl ?_
    assumption

theorem State.deferEnd_keeps (s isl u) : Keeps (Fld.regs ||| Fld.hdr ||| Fld.log ||| Fld.out ||| Fld.irq ||| Fld.draws ||| Fld.rungs ||| Fld.tests ||| Fld.rungAt) s (State.deferEnd s isl u) := by
  unfold State.deferEnd
  refine Keeps.cut s (Keeps.refl _ s) fun h0 => ?_
  extract_lets -merge y0 y1 y2
  clear_value y0 y1
  refine Keeps.cut (y2) ?_ fun h3 => ?_
  · unfold y2
    refine Keeps.step (State.setTest_keeps ..) rfl ?_
    assumption
  clear_value y2
  refine Keeps.ite ?_ ?_
  · assumption
  · refine Keeps.step (State.raiseT_keeps ..) rfl ?_
    refine Keeps.step (State.deferBit_keeps ..) rfl ?_
    assumption

theorem State.deferBegin_keeps (s isl u) : Keeps (Fld.regs ||| Fld.hdr ||| Fld.log ||| Fld.out ||| Fld.irq ||| Fld.draws ||| Fld.rungs ||| Fld.tests ||| Fld.rungAt) s (State.deferBegin s isl u) := by
  unfold State.deferBegin
  refine Keeps.cut s (Keeps.refl _ s) fun h0 => ?_
  extract_lets -merge y0 y1
  clear_value y0
  refine Keeps.cut (y1) ?_ fun h2 => ?_
  · unfold y1
    refine Keeps.step (State.setTest_keeps ..) rfl ?_
    assumption
  clear_value y1
  refine Keeps.step (State.raiseT_keeps ..) rfl ?_
  refine Keeps.step (State.incSat_keeps ..) rfl ?_
  refine Keeps.step (State.deferBit_keeps ..) rfl ?_
  assumption

theorem execTstPreempt_keeps (isl u h s) : KeepsO (Fld.regs ||| Fld.hdr ||| Fld.log ||| Fld.out ||| Fld.irq ||| Fld.draws ||| Fld.tickets ||| Fld.jobs ||| Fld.plans ||| Fld.rungs ||| Fld.rungAt) s (execTstPreempt isl u h s) := by
  unfold execTstPreempt
  refine KeepsO.cut s (Keeps.refl _ s) fun h0 => ?_
  refine KeepsO.next ?_
  extract_lets -merge y0 y1
  clear_value y0
  refine Keeps.cut (y1) ?_ fun h2 => ?_
  · unfold y1
    refine Keeps.step (State.setB_keeps ..) rfl ?_
    refine Keeps.step (State.pausePlan_keeps ..) rfl ?_
    assumption
  clear_value y1
  refine Keeps.ite ?_ ?_
  · assumption
  · refine Keeps.step (State.raiseT_keeps ..) rfl ?_
    refine Keeps.step (State.incSat_keeps ..) rfl ?_
    assumption

theorem execTestDue_keeps (isl u s) : KeepsO (Fld.regs ||| Fld.hdr ||| Fld.log ||| Fld.out ||| Fld.irq ||| Fld.draws ||| Fld.rungs ||| Fld.tests ||| Fld.rungAt) s (execTestDue isl u s) := by
  unfold execTestDue
  refine KeepsO.cut s (Keeps.refl _ s) fun h0 => ?_
  refine KeepsO.next ?_
  refine Keeps.ite ?_ ?_
  · assumption
  · extract_lets -merge y0
    clear_value y0
    refine Keeps.ite ?_ ?_
    · assumption
    · refine Keeps.step (State.deferBegin_keeps ..) rfl ?_
      assumption

theorem execTestDeferBound_keeps (isl u s) : KeepsO (Fld.regs ||| Fld.hdr ||| Fld.log ||| Fld.out ||| Fld.irq ||| Fld.draws ||| Fld.tickets ||| Fld.rungs ||| Fld.tiles ||| Fld.owners ||| Fld.runs ||| Fld.nextRun ||| Fld.tests ||| Fld.rungAt) s (execTestDeferBound isl u s) := by
  unfold execTestDeferBound
  refine KeepsO.cut s (Keeps.refl _ s) fun h0 => ?_
  refine KeepsO.next ?_
  extract_lets -merge y0 y1 y2 y3
  clear_value y0 y1
  refine Keeps.ite ?_ ?_
  · assumption
  · refine Keeps.ite ?_ ?_
    · unfold y2
      extract_lets -merge y4
      refine Keeps.cut (y4) ?_ fun h5 => ?_
      · unfold y4
        refine Keeps.step (State.setTest_keeps ..) rfl ?_
        assumption
      clear_value y4
      refine Keeps.ite ?_ ?_
      · refine Keeps.foldl ?_ ?_
        · intro t6 x7 h8
          refine Keeps.step (State.markOverdue_keeps ..) rfl ?_
          assumption
        assumption
      · refine Keeps.step (State.markOverdue_keeps ..) rfl ?_
        assumption
    · refine Keeps.ite ?_ ?_
      · unfold y3
        refine Keeps.ite ?_ ?_
        · refine Keeps.step (State.setTest_keeps ..) rfl ?_
          assumption
        · unfold y2
          extract_lets -merge y9
          refine Keeps.cut (y9) ?_ fun h10 => ?_
          · unfold y9
            refine Keeps.step (State.setTest_keeps ..) rfl ?_
            assumption
          clear_value y9
          refine Keeps.ite ?_ ?_
          · refine Keeps.foldl ?_ ?_
            · intro t11 x12 h13
              refine Keeps.step (State.markOverdue_keeps ..) rfl ?_
              assumption
            assumption
          · refine Keeps.step (State.markOverdue_keeps ..) rfl ?_
            assumption
      · split
        · rename_i a14 a15
          unfold y3
          refine Keeps.ite ?_ ?_
          · refine Keeps.step (State.setTest_keeps ..) rfl ?_
            assumption
          · unfold y2
            extract_lets -merge y16
            refine Keeps.cut (y16) ?_ fun h17 => ?_
            · unfold y16
              refine Keeps.step (State.setTest_keeps ..) rfl ?_
              assumption
            clear_value y16
            refine Keeps.ite ?_ ?_
            · refine Keeps.foldl ?_ ?_
              · intro t18 x19 h20
                refine Keeps.step (State.markOverdue_keeps ..) rfl ?_
                assumption
              assumption
            · refine Keeps.step (State.markOverdue_keeps ..) rfl ?_
              assumption
        · rename_i a21 a22 a23
          refine Keeps.ite ?_ ?_
          · unfold y3
            refine Keeps.ite ?_ ?_
            · refine Keeps.step (State.setTest_keeps ..) rfl ?_
              assumption
            · unfold y2
              extract_lets -merge y24
              refine Keeps.cut (y24) ?_ fun h25 => ?_
              · unfold y24
                refine Keeps.step (State.setTest_keeps ..) rfl ?_
                assumption
              clear_value y24
              refine Keeps.ite ?_ ?_
              · refine Keeps.foldl ?_ ?_
                · intro t26 x27 h28
                  refine Keeps.step (State.markOverdue_keeps ..) rfl ?_
                  assumption
                assumption
              · refine Keeps.step (State.markOverdue_keeps ..) rfl ?_
                assumption
          · refine Keeps.ite ?_ ?_
            · refine Keeps.step (State.setOwner_keeps ..) rfl ?_
              refine Keeps.step (State.setTest_keeps ..) rfl ?_
              assumption
            · split
              · rename_i a29 a30
                assumption
              · rename_i a31 a32 a33
                refine Keeps.step (State.rehomeWrite_keeps ..) rfl ?_
                refine Keeps.step (State.setTest_keeps ..) rfl ?_
                assumption

theorem execTstPatUpdate_keeps (s) : KeepsO (Fld.regs ||| Fld.hdr ||| Fld.log ||| Fld.out ||| Fld.irq ||| Fld.draws ||| Fld.rungs ||| Fld.rungAt) s (execTstPatUpdate s) := by
  unfold execTstPatUpdate
  refine KeepsO.cut s (Keeps.refl _ s) fun h0 => ?_
  refine KeepsO.next ?_
  refine Keeps.ite ?_ ?_
  · assumption
  · extract_lets -merge y0 y1 y2
    clear_value y0
    refine Keeps.cut (y1) ?_ fun h3 => ?_
    · unfold y1
      refine Keeps.step (State.setB_keeps ..) rfl ?_
      refine Keeps.step (State.setF_keeps ..) rfl ?_
      refine Keeps.step (State.setF_keeps ..) rfl ?_
      assumption
    clear_value y1
    refine Keeps.cut (y2) ?_ fun h4 => ?_
    · unfold y2
      refine Keeps.step (State.setReg_keeps ..) rfl ?_
      refine Keeps.step (State.setB_keeps ..) rfl ?_
      assumption
    clear_value y2
    refine Keeps.step (State.raise_keeps ..) rfl ?_
    assumption

theorem State.testBegin_keeps (s isl u) : Keeps (Fld.regs ||| Fld.hdr ||| Fld.log ||| Fld.out ||| Fld.irq ||| Fld.draws ||| Fld.rungs ||| Fld.rows ||| Fld.tiles ||| Fld.owners ||| Fld.tests ||| Fld.rungAt) s (State.testBegin s isl u) := by
  unfold State.testBegin
  refine Keeps.cut s (Keeps.refl _ s) fun h0 => ?_
  extract_lets -merge y0 y1 y2
  refine Keeps.cut (y0) ?_ fun h3 => ?_
  · unfold y0
    refine Keeps.step (State.testHold_keeps ..) rfl ?_
    refine Keeps.step (State.deferEnd_keeps ..) rfl ?_
    assumption
  clear_value y0 y1
  refine Keeps.cut (y2) ?_ fun h4 => ?_
  · unfold y2
    refine Keeps.step (State.setTest_keeps ..) rfl ?_
    assumption
  clear_value y2
  refine Keeps.ite ?_ ?_
  · refine Keeps.step (State.wipeTile_keeps ..) rfl ?_
    assumption
  · assumption

theorem execTestStart_keeps (isl u s) : KeepsO (Fld.regs ||| Fld.hdr ||| Fld.log ||| Fld.out ||| Fld.irq ||| Fld.draws ||| Fld.rungs ||| Fld.rows ||| Fld.tiles ||| Fld.owners ||| Fld.tests ||| Fld.rungAt) s (execTestStart isl u s) := by
  unfold execTestStart
  refine KeepsO.cut s (Keeps.refl _ s) fun h0 => ?_
  refine KeepsO.next ?_
  refine Keeps.ite ?_ ?_
  · refine Keeps.step (State.testBegin_keeps ..) rfl ?_
    assumption
  · assumption

theorem execTstIsland_keeps (isl s) : KeepsO (Fld.regs ||| Fld.hdr ||| Fld.log ||| Fld.out ||| Fld.irq ||| Fld.draws ||| Fld.rungs ||| Fld.rows ||| Fld.tiles ||| Fld.owners ||| Fld.tests ||| Fld.rungAt) s (execTstIsland isl s) := by
  unfold execTstIsland
  refine KeepsO.cut s (Keeps.refl _ s) fun h0 => ?_
  refine KeepsO.next ?_
  refine Keeps.ite ?_ ?_
  · assumption
  · extract_lets -merge y0 y1
    refine Keeps.cut (y0) ?_ fun h2 => ?_
    · unfold y0
      refine Keeps.foldl ?_ ?_
      · intro t3 x4 h5
        refine Keeps.step (State.testBegin_keeps ..) rfl ?_
        assumption
      assumption
    clear_value y0
    refine Keeps.cut (y1) ?_ fun h6 => ?_
    · unfold y1
      refine Keeps.step (State.setF_keeps ..) rfl ?_
      assumption
    clear_value y1
    refine Keeps.step (State.raiseT_keeps ..) rfl ?_
    assumption

theorem State.restoreTile_keeps (s isl u data ok) : Keeps (Fld.regs ||| Fld.hdr ||| Fld.log ||| Fld.out ||| Fld.irq ||| Fld.draws ||| Fld.leases ||| Fld.tickets ||| Fld.jobs ||| Fld.ctxs ||| Fld.rungs ||| Fld.rows ||| Fld.tiles ||| Fld.imports ||| Fld.ends ||| Fld.rungAt) s (State.restoreTile s isl u data ok) := by
  unfold State.restoreTile
  refine Keeps.cut s (Keeps.refl _ s) fun h0 => ?_
  extract_lets -merge y0 y1 y2
  clear_value y0
  refine Keeps.cut (y1) ?_ fun h3 => ?_
  · unfold y1
    refine Keeps.step (State.setOwed_keeps ..) rfl ?_
    assumption
  clear_value y1 y2
  split
  · rename_i a4 a5 a6
    refine Keeps.step (State.releaseTile_keeps ..) rfl ?_
    assumption
  · rename_i a7 a8 a9 a10
    refine Keeps.ite ?_ ?_
    · refine Keeps.ite ?_ ?_
      · refine Keeps.step (State.releaseTile_keeps ..) rfl ?_
        refine Keeps.step (State.consumePoison_keeps ..) rfl ?_
        assumption
      · refine Keeps.foldl ?_ ?_
        · intro t11 x12 h13
          refine Keeps.step (State.rowWrite_keeps ..) rfl ?_
          assumption
        assumption
    · split
      · rename_i a14 a15
        refine Keeps.step (State.releaseTile_keeps ..) rfl ?_
        assumption
      · rename_i a16 a17 a18
        extract_lets -merge y19 y20 y21
        clear_value y19 y20
        refine Keeps.cut (y21) ?_ fun h22 => ?_
        · unfold y21
          refine Keeps.ite ?_ ?_
          · refine Keeps.step (State.add64_keeps ..) rfl ?_
            assumption
          · refine Keeps.step (State.countSlot_keeps ..) rfl ?_
            assumption
        clear_value y21
        refine Keeps.ite ?_ ?_
        · refine Keeps.step (State.releaseTile_keeps ..) rfl ?_
          refine Keeps.step (State.consumePoison_keeps ..) rfl ?_
          assumption
        · refine Keeps.ite ?_ ?_
          · refine Keeps.step (State.releaseTile_keeps ..) rfl ?_
            assumption
          · refine Keeps.foldl ?_ ?_
            · intro t23 x24 h25
              refine Keeps.step (State.rowWrite_keeps ..) rfl ?_
              assumption
            assumption

theorem execTestComplete_keeps (isl u pass data ok s) : KeepsO (Fld.regs ||| Fld.hdr ||| Fld.log ||| Fld.out ||| Fld.irq ||| Fld.draws ||| Fld.leases ||| Fld.tickets ||| Fld.jobs ||| Fld.ctxs ||| Fld.rungs ||| Fld.rows ||| Fld.tiles ||| Fld.imports ||| Fld.tests ||| Fld.cal ||| Fld.ends ||| Fld.rplChecks ||| Fld.rungAt) s (execTestComplete isl u pass data ok s) := by
  unfold execTestComplete
  refine KeepsO.cut s (Keeps.refl _ s) fun h0 => ?_
  refine KeepsO.next ?_
  extract_lets -merge y0 y1 y2 y3 y4 y5 y6 y7
  clear_value y0 y1 y2
  refine Keeps.cut (y3) ?_ fun h8 => ?_
  · unfold y3
    refine Keeps.ite ?_ ?_
    · refine Keeps.step (State.restoreTile_keeps ..) rfl ?_
      assumption
    · assumption
  clear_value y3
  refine Keeps.cut (y4) ?_ fun h9 => ?_
  · unfold y4
    refine Keeps.step (State.testEnd_keeps ..) rfl ?_
    assumption
  clear_value y4
  refine Keeps.cut (y5) ?_ fun h10 => ?_
  · unfold y5
    refine Keeps.step (State.latchTest_keeps ..) rfl ?_
    refine Keeps.step (State.incSat_keeps ..) rfl ?_
    refine Keeps.step (State.incSat_keeps ..) rfl ?_
    assumption
  clear_value y5 y6
  refine Keeps.cut (y7) ?_ fun h11 => ?_
  · unfold y7
    refine Keeps.step (State.raiseT_keeps ..) rfl ?_
    refine Keeps.step (State.latchTest_keeps ..) rfl ?_
    refine Keeps.step (State.incSat_keeps ..) rfl ?_
    assumption
  clear_value y7
  refine Keeps.ite ?_ ?_
  · assumption
  · refine Keeps.ite ?_ ?_
    · refine Keeps.step (State.setTest_keeps ..) rfl ?_
      assumption
    · refine Keeps.ite ?_ ?_
      · refine Keeps.step (State.lagClean_keeps ..) rfl ?_
        refine Keeps.step (State.incSat_keeps ..) rfl ?_
        assumption
      · refine Keeps.ite ?_ ?_
        · refine Keeps.step (State.raiseT_keeps ..) rfl ?_
          refine Keeps.step (State.lagEnter_keeps ..) rfl ?_
          assumption
        · refine Keeps.ite ?_ ?_
          · refine Keeps.step (State.lagEnter_keeps ..) rfl ?_
            assumption
          · refine Keeps.step (State.fenceUnit_keeps ..) rfl ?_
            assumption

end Sys2Proof.Machine
end

