-- ==== Sys2Proof/Laws/Context.lean ====
section
/-!
SUPPORT. What each function of Machine/Context.lean may change, and that it keeps the invariant of State.
-/
set_option linter.unusedVariables false
namespace Sys2Proof.Machine

theorem State.dropQueues_keeps (s fn) : Keeps (Fld.qps ||| Fld.landing) s (State.dropQueues s fn) := by
  unfold State.dropQueues
  refine Keeps.cut s (Keeps.refl _ s) fun h0 => ?_
  extract_lets -merge y0
  refine Keeps.cut (y0) ?_ fun h1 => ?_
  · unfold y0
    refine Keeps.step (State.unbind_keeps ..) rfl ?_
    assumption
  clear_value y0
  exact ((Keeps.set_qps _ h1 rfl) :)

theorem State.dropTags_keeps (s c) : Keeps (Fld.lines ||| Fld.tags) s (State.dropTags s c) := by
  unfold State.dropTags
  refine Keeps.cut s (Keeps.refl _ s) fun h0 => ?_
  refine Keeps.foldl ?_ ?_
  · intro t0 x1 h2
    refine Keeps.step (State.setTag_keeps ..) rfl ?_
    assumption
  assumption

theorem State.tagPages_keeps (s isl c n) : Keeps (Fld.lines ||| Fld.tags) s (State.tagPages s isl c n) := by
  unfold State.tagPages
  refine Keeps.cut s (Keeps.refl _ s) fun h0 => ?_
  refine Keeps.foldl ?_ ?_
  · intro t0 x1 h2
    refine Keeps.step (State.setTag_keeps ..) rfl ?_
    assumption
  assumption

theorem State.writeKeys_keeps (s m arg) : Keeps (Fld.regs ||| Fld.leases ||| Fld.flash ||| Fld.flashq) s (State.writeKeys s m arg) := by
  unfold State.writeKeys
  refine Keeps.cut s (Keeps.refl _ s) fun h0 => ?_
  refine Keeps.step (State.flashAsk_keeps ..) rfl ?_
  refine Keeps.step (State.setF_keeps ..) rfl ?_
  assumption

theorem execVaultLeaseGrant_keeps (s) : KeepsO (Fld.leases ||| Fld.ctxs) s (execVaultLeaseGrant s) := by
  unfold execVaultLeaseGrant
  refine KeepsO.cut s (Keeps.refl _ s) fun h0 => ?_
  refine KeepsO.next ?_
  refine Keeps.ite ?_ ?_
  · assumption
  · split
    · rename_i a0 a1
      assumption
    · rename_i a2 a3 a4
      extract_lets -merge y5
      clear_value y5
      refine Keeps.step (State.lease_keeps ..) rfl ?_
      refine Keeps.step (State.setCx_keeps ..) rfl ?_
      assumption

theorem execRevokeKey_keeps (rq k s) : KeepsO (Fld.regs ||| Fld.heldWrites ||| Fld.leases ||| Fld.flash ||| Fld.flashq) s (execRevokeKey rq k s) := by
  unfold execRevokeKey
  refine KeepsO.cut s (Keeps.refl _ s) fun h0 => ?_
  refine KeepsO.next ?_
  refine State.orHeld_hof ?_ rfl ?_
  · intro t0 x1
    extract_lets -merge y2
    clear_value y2
    refine Keeps.ite ?_ ?_
    · assumption
    · refine Keeps.ite ?_ ?_
      · refine Keeps.step (State.setF_keeps ..) rfl ?_
        assumption
      · refine Keeps.step (State.writeKeys_keeps ..) rfl ?_
        assumption
  assumption

theorem State.dropHarbour_keeps (s : State) (c : Nat) : Keeps (Fld.regs ||| Fld.ctxs ||| Fld.ovf ||| Fld.harbour ||| Fld.hbPoison ||| Fld.hbWritten ||| Fld.frames ||| Fld.badSlots) s (s.dropHarbour c) := by
  unfold State.dropHarbour
  dsimp only
  refine Keeps.step0 (n := Fld.harbour ||| Fld.hbPoison ||| Fld.hbWritten ||| Fld.ovf)
    (Keeps.foldl (u := s) (fun t x h => Keeps.step (State.unbackPos_keeps ..) rfl h) (Keeps.refl _ s)) rfl
    (by constructor <;> first | exact fun e => absurd e (by decide) | exact fun _ => rfl)
    fun i => ⟨i.1, Store.wf_filter _ i.2.1, i.2.2.1, i.2.2.2⟩

theorem State.ctxErr_keeps (s c e) : Keeps (Fld.regs) s (State.ctxErr s c e) := by
  unfold State.ctxErr
  refine Keeps.cut s (Keeps.refl _ s) fun h0 => ?_
  refine Keeps.step (State.setF_keeps ..) rfl ?_
  assumption

theorem execCtxBack_keeps (rq c n s) : KeepsO (Fld.regs ||| Fld.heldWrites ||| Fld.ctxs ||| Fld.frames) s (execCtxBack rq c n s) := by
  unfold execCtxBack
  refine KeepsO.cut s (Keeps.refl _ s) fun h0 => ?_
  refine KeepsO.next ?_
  refine State.orHeld_hof ?_ rfl ?_
  · intro t0 x1
    extract_lets -merge y2 y3 y4 y5
    clear_value y2 y3 y4 y5
    refine Keeps.ite ?_ ?_
    · assumption
    · refine Keeps.ite ?_ ?_
      · refine Keeps.step (State.ctxErr_keeps ..) rfl ?_
        assumption
      · refine Keeps.ite ?_ ?_
        · refine Keeps.step (State.ctxErr_keeps ..) rfl ?_
          assumption
        · refine Keeps.ite ?_ ?_
          · refine Keeps.step (State.ctxErr_keeps ..) rfl ?_
            assumption
          · refine Keeps.step (State.ctxErr_keeps ..) rfl ?_
            refine Keeps.foldl ?_ ?_
            · intro t6 x7 h8
              refine Keeps.step (State.backPos_keeps ..) rfl ?_
              assumption
            assumption
  assumption

theorem State.setSlot_keeps (s c b) : Keeps (Fld.regs) s (State.setSlot s c b) := by
  unfold State.setSlot
  refine Keeps.cut s (Keeps.refl _ s) fun h0 => ?_
  refine Keeps.ite ?_ ?_
  · refine Keeps.step (State.setB_keeps ..) rfl ?_
    assumption
  · refine Keeps.step (State.setB_keeps ..) rfl ?_
    assumption

theorem execRegKey_keeps (rq k onCurve s) : KeepsO (Fld.regs ||| Fld.heldWrites ||| Fld.leases ||| Fld.flash ||| Fld.flashq) s (execRegKey rq k onCurve s) := by
  unfold execRegKey
  refine KeepsO.cut s (Keeps.refl _ s) fun h0 => ?_
  refine KeepsO.next ?_
  refine State.orHeld_hof ?_ rfl ?_
  · intro t0 x1
    extract_lets -merge y2
    clear_value y2
    refine Keeps.ite ?_ ?_
    · assumption
    · refine Keeps.ite ?_ ?_
      · refine Keeps.step (State.setF_keeps ..) rfl ?_
        assumption
      · refine Keeps.ite ?_ ?_
        · refine Keeps.step (State.setF_keeps ..) rfl ?_
          assumption
        · refine Keeps.step (State.writeKeys_keeps ..) rfl ?_
          assumption
  assumption

theorem execInstallKey_keeps (rq c s) : KeepsO (Fld.regs ||| Fld.heldWrites ||| Fld.ctxs) s (execInstallKey rq c s) := by
  unfold execInstallKey
  refine KeepsO.cut s (Keeps.refl _ s) fun h0 => ?_
  refine KeepsO.next ?_
  refine State.orHeld_hof ?_ rfl ?_
  · intro t0 x1
    refine Keeps.ite ?_ ?_
    · assumption
    · refine Keeps.ite ?_ ?_
      · refine Keeps.step (State.ctxErr_keeps ..) rfl ?_
        assumption
      · refine Keeps.ite ?_ ?_
        · assumption
        · extract_lets -merge y2
          clear_value y2
          refine Keeps.step (State.ctxErr_keeps ..) rfl ?_
          refine Keeps.step (State.setCx_keeps ..) rfl ?_
          assumption
  assumption

theorem State.dropWork_keeps (s c) : Keeps (Fld.regs ||| Fld.leases ||| Fld.tickets ||| Fld.jobs ||| Fld.plans ||| Fld.acct ||| Fld.ctxs ||| Fld.qps ||| Fld.landing ||| Fld.rows ||| Fld.tiles ||| Fld.harbour ||| Fld.hbPoison ||| Fld.hbWritten ||| Fld.frames ||| Fld.badSlots ||| Fld.owners ||| Fld.runs ||| Fld.refetch ||| Fld.swaps ||| Fld.ends) s (State.dropWork s c) := by
  unfold State.dropWork
  refine Keeps.cut s (Keeps.refl _ s) fun h0 => ?_
  extract_lets -merge y0 y1 y2
  refine Keeps.cut (y0) ?_ fun h3 => ?_
  · unfold y0
    refine Keeps.step (State.dropRuns_keeps ..) rfl ?_
    assumption
  clear_value y0
  refine Keeps.cut (y1) ?_ fun h4 => ?_
  · unfold y1
    exact Keeps.step0 (n := Fld.refetch ||| Fld.swaps) h3 rfl (by constructor <;> first | exact fun e => absurd e (by decide) | exact fun _ => rfl) fun i => ⟨i.1, i.2.1, i.2.2.1, i.2.2.2⟩
  clear_value y1
  refine Keeps.cut (y2) ?_ fun h5 => ?_
  · unfold y2
    refine Keeps.foldl ?_ ?_
    · intro t6 x7 h8
      refine Keeps.step (State.dynReturn_keeps ..) rfl ?_
      assumption
    assumption
  clear_value y2
  refine Keeps.foldl ?_ ?_
  · intro t9 x10 h11
    refine Keeps.step (State.unloadNow_keeps ..) rfl ?_
    assumption
  assumption

theorem State.unlockStep_keeps (s) : Keeps (Fld.regs ||| Fld.hdr ||| Fld.log ||| Fld.out ||| Fld.irq ||| Fld.draws ||| Fld.rungs ||| Fld.rungAt ||| Fld.tap) s (State.unlockStep s) := by
  unfold State.unlockStep
  refine Keeps.cut s (Keeps.refl _ s) fun h0 => ?_
  refine Keeps.ite ?_ ?_
  · assumption
  · split
    · rename_i a0 a1 a2 a3
      refine Keeps.cut (a2) ?_ fun h4 => ?_
      · refine Keeps.of_snd a3 ?_
        refine Keeps.step (State.nextDraw_keeps ..) rfl ?_
        assumption
      extract_lets -merge y5 y6
      refine Keeps.cut (y5) ?_ fun h7 => ?_
      · unfold y5
        refine Keeps.step (State.set64_keeps ..) rfl ?_
        refine Keeps.step (State.setF_keeps ..) rfl ?_
        assumption
      clear_value y5 y6
      refine Keeps.step (State.raise_keeps ..) rfl ?_
      exact ((Keeps.set_tap _ h7 rfl) :)

theorem execCtxCreate_keeps (rq c s) : KeepsO (Fld.regs ||| Fld.hdr ||| Fld.heldWrites ||| Fld.log ||| Fld.out ||| Fld.irq ||| Fld.draws ||| Fld.ctxs ||| Fld.lines ||| Fld.tags ||| Fld.rungs ||| Fld.rungAt) s (execCtxCreate rq c s) := by
  unfold execCtxCreate
  refine KeepsO.cut s (Keeps.refl _ s) fun h0 => ?_
  refine KeepsO.next ?_
  refine State.orHeld_hof ?_ rfl ?_
  · intro t0 x1
    refine Keeps.ite ?_ ?_
    · assumption
    · split
      · rename_i a2 a3 a4
        refine Keeps.step (State.ctxErr_keeps ..) rfl ?_
        assumption
      · rename_i a5 a6
        extract_lets -merge y7 y8 y9 y10 y11
        clear_value y7 y8
        refine Keeps.cut (y9) ?_ fun h12 => ?_
        · unfold y9
          refine Keeps.foldl ?_ ?_
          · intro t13 x14 h15
            refine Keeps.step (State.tagPages_keeps ..) rfl ?_
            assumption
          assumption
        clear_value y9
        refine Keeps.cut (y10) ?_ fun h16 => ?_
        · unfold y10
          refine Keeps.step (State.setCx_keeps ..) rfl ?_
          assumption
        clear_value y10
        refine Keeps.cut (y11) ?_ fun h17 => ?_
        · unfold y11
          refine Keeps.step (State.setF_keeps ..) rfl ?_
          assumption
        clear_value y11
        refine Keeps.step (State.raiseC_keeps ..) rfl ?_
        refine Keeps.step (State.newChallenge_keeps ..) rfl ?_
        assumption
  assumption

theorem State.keysWritten_keeps (s w ok) : Keeps (Fld.regs ||| Fld.hdr ||| Fld.log ||| Fld.out ||| Fld.irq ||| Fld.draws ||| Fld.rungs ||| Fld.ownerKeys ||| Fld.rungAt) s (State.keysWritten s w ok) := by
  unfold State.keysWritten
  refine Keeps.cut s (Keeps.refl _ s) fun h0 => ?_
  refine Keeps.ite ?_ ?_
  · refine Keeps.step (State.setF_keeps ..) rfl ?_
    assumption
  · extract_lets -merge y0
    refine Keeps.cut (y0) ?_ fun h1 => ?_
    · unfold y0
      exact ((Keeps.set_ownerKeys _ h0 rfl) :)
    clear_value y0
    refine Keeps.step (State.raise_keeps ..) rfl ?_
    assumption

theorem execTeardownDone_keeps (c zero s) : KeepsO (Fld.regs ||| Fld.hdr ||| Fld.log ||| Fld.out ||| Fld.irq ||| Fld.draws ||| Fld.leases ||| Fld.tickets ||| Fld.jobs ||| Fld.plans ||| Fld.acct ||| Fld.ctxs ||| Fld.lines ||| Fld.tags ||| Fld.qps ||| Fld.ovf ||| Fld.landing ||| Fld.rungs ||| Fld.rows ||| Fld.tiles ||| Fld.harbour ||| Fld.hbPoison ||| Fld.hbWritten ||| Fld.frames ||| Fld.badSlots ||| Fld.owners ||| Fld.runs ||| Fld.refetch ||| Fld.swaps ||| Fld.ends ||| Fld.rungAt ||| Fld.tap) s (execTeardownDone c zero s) := by
  unfold execTeardownDone
  refine KeepsO.cut s (Keeps.refl _ s) fun h0 => ?_
  refine KeepsO.next ?_
  refine Keeps.ite ?_ ?_
  · assumption
  · extract_lets -merge y0 y1 y2 y3 y4 y5 y6 y7 y8
    refine Keeps.cut (y0) ?_ fun h9 => ?_
    · unfold y0
      refine Keeps.step (State.dropWork_keeps ..) rfl ?_
      assumption
    clear_value y0
    refine Keeps.cut (y1) ?_ fun h10 => ?_
    · unfold y1
      refine Keeps.step (State.dropHarbour_keeps ..) rfl ?_
      refine Keeps.step (State.setSlot_keeps ..) rfl ?_
      assumption
    clear_value y1
    refine Keeps.cut (y2) ?_ fun h11 => ?_
    · unfold y2
      refine Keeps.step (State.dropQueues_keeps ..) rfl ?_
      refine Keeps.step (State.dropTags_keeps ..) rfl ?_
      assumption
    clear_value y2
    refine Keeps.cut (y3) ?_ fun h12 => ?_
    · unfold y3
      exact ((Keeps.set_jobs _ h11 rfl) :)
    clear_value y3
    refine Keeps.cut (y4) ?_ fun h13 => ?_
    · unfold y4
      refine Keeps.step (State.setReg_keeps ..) rfl ?_
      assumption
    clear_value y4
    refine Keeps.cut (y5) ?_ fun h14 => ?_
    · unfold y5
      refine Keeps.step (State.raiseC_keeps ..) rfl ?_
      assumption
    clear_value y5 y6
    refine Keeps.cut (y7) ?_ fun h15 => ?_
    · unfold y7
      refine Keeps.step (State.setF_keeps ..) rfl ?_
      assumption
    clear_value y7
    refine Keeps.cut (y8) ?_ fun h16 => ?_
    · unfold y8
      refine Keeps.step (State.setF_keeps ..) rfl ?_
      refine Keeps.step (State.setF_keeps ..) rfl ?_
      assumption
    clear_value y8
    refine Keeps.ite ?_ ?_
    · refine Keeps.step (State.raiseC_keeps ..) rfl ?_
      assumption
    · refine Keeps.step (State.unlockStep_keeps ..) rfl ?_
      refine Keeps.step (State.setCx_keeps ..) rfl ?_
      assumption

theorem execCtxKeyOk_keeps (c blob dmaOk sigOk keyUnwraps s) : KeepsO (Fld.regs ||| Fld.hdr ||| Fld.log ||| Fld.out ||| Fld.irq ||| Fld.draws ||| Fld.leases ||| Fld.ctxs ||| Fld.rungs ||| Fld.rungAt) s (execCtxKeyOk c blob dmaOk sigOk keyUnwraps s) := by
  unfold execCtxKeyOk
  refine KeepsO.cut s (Keeps.refl _ s) fun h0 => ?_
  refine KeepsO.next ?_
  refine Keeps.ite ?_ ?_
  · assumption
  · refine Keeps.ite ?_ ?_
    · refine Keeps.step (State.installFail_keeps ..) rfl ?_
      refine Keeps.step (State.dmaErr_keeps ..) rfl ?_
      assumption
    · split
      · rename_i a0 a1 a2
        refine Keeps.step (State.installFail_keeps ..) rfl ?_
        assumption
      · rename_i a3 a4
        refine Keeps.ite ?_ ?_
        · refine Keeps.step (State.installFail_keeps ..) rfl ?_
          assumption
        · refine Keeps.ite ?_ ?_
          · refine Keeps.step (State.installFail_keeps ..) rfl ?_
            assumption
          · extract_lets -merge y5 y6
            refine Keeps.cut (y5) ?_ fun h7 => ?_
            · unfold y5
              exact ((Keeps.set_leases _ h0 rfl) :)
            clear_value y5
            refine Keeps.cut (y6) ?_ fun h8 => ?_
            · unfold y6
              refine Keeps.step (State.ctxErr_keeps ..) rfl ?_
              refine Keeps.step (State.setF_keeps ..) rfl ?_
              refine Keeps.step (State.setSlot_keeps ..) rfl ?_
              assumption
            clear_value y6
            refine Keeps.step (State.raiseC_keeps ..) rfl ?_
            refine Keeps.step (State.newChallenge_keeps ..) rfl ?_
            assumption

theorem State.forceZero_keeps (s c) : Keeps (Fld.regs ||| Fld.hdr ||| Fld.log ||| Fld.out ||| Fld.irq ||| Fld.draws ||| Fld.leases ||| Fld.tickets ||| Fld.jobs ||| Fld.ctxs ||| Fld.rungs ||| Fld.imports ||| Fld.ends ||| Fld.rungAt) s (State.forceZero s c) := by
  unfold State.forceZero
  refine Keeps.cut s (Keeps.refl _ s) fun h0 => ?_
  extract_lets -merge y0
  refine Keeps.cut (y0) ?_ fun h1 => ?_
  · unfold y0
    refine Keeps.step (State.raiseC_keeps ..) rfl ?_
    refine Keeps.step (State.incSat_keeps ..) rfl ?_
    assumption
  clear_value y0
  refine Keeps.step (State.setSlot_keeps ..) rfl ?_
  refine Keeps.step (State.startTeardown_keeps ..) rfl ?_
  assumption

theorem execVfOff_keeps (n s) : KeepsO (Fld.regs ||| Fld.hdr ||| Fld.log ||| Fld.out ||| Fld.irq ||| Fld.draws ||| Fld.leases ||| Fld.tickets ||| Fld.jobs ||| Fld.ctxs ||| Fld.rungs ||| Fld.imports ||| Fld.ends ||| Fld.rungAt) s (execVfOff n s) := by
  unfold execVfOff
  refine KeepsO.cut s (Keeps.refl _ s) fun h0 => ?_
  refine KeepsO.next ?_
  refine Keeps.foldl ?_ ?_
  · intro t0 x1 h2
    refine Keeps.ite ?_ ?_
    · refine Keeps.step (State.startTeardown_keeps ..) rfl ?_
      assumption
    · assumption
  assumption

theorem execCtxDestroy_keeps (rq c s) : KeepsO (Fld.regs ||| Fld.hdr ||| Fld.heldWrites ||| Fld.log ||| Fld.out ||| Fld.irq ||| Fld.draws ||| Fld.leases ||| Fld.tickets ||| Fld.jobs ||| Fld.ctxs ||| Fld.rungs ||| Fld.imports ||| Fld.ends ||| Fld.rungAt) s (execCtxDestroy rq c s) := by
  unfold execCtxDestroy
  refine KeepsO.cut s (Keeps.refl _ s) fun h0 => ?_
  refine KeepsO.next ?_
  refine State.orHeld_hof ?_ rfl ?_
  · intro t0 x1
    refine Keeps.ite ?_ ?_
    · assumption
    · refine Keeps.ite ?_ ?_
      · refine Keeps.step (State.ctxErr_keeps ..) rfl ?_
        assumption
      · refine Keeps.step (State.startTeardown_keeps ..) rfl ?_
        assumption
  assumption

theorem execZeroise_keeps (rq c s) : KeepsO (Fld.regs ||| Fld.hdr ||| Fld.heldWrites ||| Fld.log ||| Fld.out ||| Fld.irq ||| Fld.draws ||| Fld.leases ||| Fld.tickets ||| Fld.jobs ||| Fld.ctxs ||| Fld.rungs ||| Fld.imports ||| Fld.ends ||| Fld.rungAt) s (execZeroise rq c s) := by
  unfold execZeroise
  refine KeepsO.cut s (Keeps.refl _ s) fun h0 => ?_
  refine KeepsO.next ?_
  refine State.orHeld_hof ?_ rfl ?_
  · intro t0 x1
    refine Keeps.ite ?_ ?_
    · refine Keeps.step (State.forceZero_keeps ..) rfl ?_
      assumption
    · assumption
  assumption

end Sys2Proof.Machine
end

