-- ==== Sys2Proof/Laws/Host.lean ====
section
/-!
SUPPORT. What each function of Machine/Host.lean may change, and that it keeps the invariant of State.
-/
set_option linter.unusedVariables false
namespace Sys2Proof.Machine

theorem State.setOv_keeps (s c x) : Keeps (Fld.ovf) s (State.setOv s c x) := by
  unfold State.setOv
  refine Keeps.cut s (Keeps.refl _ s) fun h0 => ?_
  exact ((Keeps.set_ovf _ h0 rfl) :)

theorem State.irqOf_keeps (s f q wants) : Keeps (Fld.out) s (State.irqOf s f q wants) := by
  unfold State.irqOf
  refine Keeps.cut s (Keeps.refl _ s) fun h0 => ?_
  extract_lets -merge y0
  clear_value y0
  refine Keeps.ite ?_ ?_
  · refine Keeps.step (State.emit_keeps ..) rfl ?_
    assumption
  · assumption

theorem State.setLand_keeps (s isl l) : Keeps (Fld.landing) s (State.setLand s isl l) := by
  unfold State.setLand
  refine Keeps.cut s (Keeps.refl _ s) fun h0 => ?_
  exact ((Keeps.set_landing _ h0 rfl) :)

theorem execPushPayloadWrite_keeps (f q off bytes s) : KeepsO (Fld.landing) s (execPushPayloadWrite f q off bytes s) := by
  unfold execPushPayloadWrite
  refine KeepsO.cut s (Keeps.refl _ s) fun h0 => ?_
  refine KeepsO.next ?_
  split
  · rename_i a0 a1
    assumption
  · rename_i a2 a3 a4 a5
    refine Keeps.ite ?_ ?_
    · assumption
    · extract_lets -merge y6
      clear_value y6
      refine Keeps.step (State.setLand_keeps ..) rfl ?_
      assumption

theorem State.setQp_keeps (s f q x) : Keeps (Fld.qps) s (State.setQp s f q x) := by
  unfold State.setQp
  refine Keeps.cut s (Keeps.refl _ s) fun h0 => ?_
  exact ((Keeps.set_qps _ h0 rfl) :)

theorem State.newJob_keeps (s jb) : Keeps (Fld.jobs ||| Fld.nextJob) s (State.newJob s jb).2 := by
  unfold State.newJob
  refine Keeps.cut s (Keeps.refl _ s) fun h0 => ?_
  dsimp only
  refine Keeps.step (State.setJob_keeps ..) rfl ?_
  exact ((Keeps.set_nextJob _ h0 rfl) :)

theorem State.easeOvf_keeps (s c) : Keeps (Fld.ovf) s (State.easeOvf s c) := by
  unfold State.easeOvf
  refine Keeps.cut s (Keeps.refl _ s) fun h0 => ?_
  extract_lets -merge y0
  clear_value y0
  refine Keeps.step (State.setOv_keeps ..) rfl ?_
  assumption

theorem State.silence_keeps (s j) : Keeps (Fld.jobs ||| Fld.ends) s (State.silence s j) := by
  unfold State.silence
  refine Keeps.cut s (Keeps.refl _ s) fun h0 => ?_
  extract_lets -merge y0 y1
  clear_value y0
  refine Keeps.cut (y1) ?_ fun h2 => ?_
  · unfold y1
    refine Keeps.step (State.setJob_keeps ..) rfl ?_
    assumption
  clear_value y1
  refine Keeps.ite ?_ ?_
  · refine Keeps.step (State.setJob_keeps ..) rfl ?_
    assumption
  · exact ((Keeps.set_ends _ h2 rfl) :)

theorem State.deletePair_keeps (s f q) : Keeps (Fld.tickets ||| Fld.plans ||| Fld.qps ||| Fld.ovf ||| Fld.landing) s (State.deletePair s f q) := by
  unfold State.deletePair
  refine Keeps.cut s (Keeps.refl _ s) fun h0 => ?_
  extract_lets -merge y0 y1 y2 y3 y4 y5
  clear_value y0
  refine Keeps.cut (y1) ?_ fun h6 => ?_
  · unfold y1
    refine Keeps.step (State.mapTk_keeps ..) rfl ?_
    assumption
  clear_value y1 y2
  refine Keeps.cut (y3) ?_ fun h7 => ?_
  · unfold y3
    refine Keeps.ite ?_ ?_
    · refine Keeps.step (State.setPlan_keeps ..) rfl ?_
      refine Keeps.step (State.unbind_keeps ..) rfl ?_
      assumption
    · assumption
  clear_value y3 y4
  refine Keeps.cut (y5) ?_ fun h8 => ?_
  · unfold y5
    refine Keeps.step (State.setOv_keeps ..) rfl ?_
    assumption
  clear_value y5
  refine Keeps.step (State.easeOvf_keeps ..) rfl ?_
  refine Keeps.step (State.setQp_keeps ..) rfl ?_
  assumption

theorem State.writeCq_keeps (s f q e spilled) : Keeps (Fld.out ||| Fld.qps) s (State.writeCq s f q e spilled) := by
  unfold State.writeCq
  refine Keeps.cut s (Keeps.refl _ s) fun h0 => ?_
  extract_lets -merge y0 y1 y2 y3 y4
  clear_value y0 y1 y2
  refine Keeps.cut (y4) ?_ fun h5 => ?_
  · unfold y4
    refine Keeps.step (State.setQp_keeps ..) rfl ?_
    assumption
  clear_value y4
  refine Keeps.step (State.emit_keeps ..) rfl ?_
  assumption

theorem State.drain_keeps (s : State) (f q n : Nat) : Keeps (Fld.out ||| Fld.qps ||| Fld.ovf) s (s.drain f q n) := by
  induction n generalizing s with
  | zero => exact Keeps.refl _ s
  | succ n ih =>
    simp only [State.drain]
    split
    · exact Keeps.refl _ s
    · refine Keeps.ite (Keeps.refl _ s) (Keeps.trans ?_ (ih _))
      refine Keeps.step (State.easeOvf_keeps ..) rfl (Keeps.step (State.setOv_keeps ..) rfl ?_)
      exact Keeps.step (State.irqOf_keeps ..) rfl (Keeps.step (State.writeCq_keeps ..) rfl (Keeps.step (State.setQp_keeps ..) rfl (Keeps.refl _ s)))

theorem State.checkDrain_keeps (s f q) : Keeps (Fld.tickets ||| Fld.plans ||| Fld.qps ||| Fld.ovf ||| Fld.landing) s (State.checkDrain s f q) := by
  unfold State.checkDrain
  refine Keeps.cut s (Keeps.refl _ s) fun h0 => ?_
  refine Keeps.ite ?_ ?_
  · refine Keeps.step (State.deletePair_keeps ..) rfl ?_
    assumption
  · assumption

theorem execQDelete_keeps (rq via s) : KeepsO (Fld.heldWrites ||| Fld.tickets ||| Fld.plans ||| Fld.qps ||| Fld.ovf ||| Fld.landing) s (execQDelete rq via s) := by
  unfold execQDelete
  refine KeepsO.cut s (Keeps.refl _ s) fun h0 => ?_
  refine KeepsO.next ?_
  refine State.orHeld_hof ?_ rfl ?_
  · intro t0 x1
    split
    · rename_i a2 a3
      assumption
    · rename_i a4 a5 a6
      extract_lets -merge y7 y8
      clear_value y7 y8
      refine Keeps.ite ?_ ?_
      · refine Keeps.step (State.setQp_keeps ..) rfl ?_
        assumption
      · refine Keeps.step (State.checkDrain_keeps ..) rfl ?_
        refine Keeps.step (State.setQp_keeps ..) rfl ?_
        assumption
  assumption

theorem execCqHead_keeps (f q v s) : KeepsO (Fld.out ||| Fld.qps ||| Fld.ovf) s (execCqHead f q v s) := by
  unfold execCqHead
  refine KeepsO.cut s (Keeps.refl _ s) fun h0 => ?_
  refine KeepsO.next ?_
  extract_lets -merge y0 y1
  clear_value y0 y1
  refine Keeps.ite ?_ ?_
  · assumption
  · refine Keeps.ite ?_ ?_
    · refine Keeps.step (State.setQp_keeps ..) rfl ?_
      assumption
    · refine Keeps.step (State.drain_keeps ..) rfl ?_
      refine Keeps.step (State.setQp_keeps ..) rfl ?_
      assumption

theorem State.bindFast_keeps (s f q h) : Keeps (Fld.regs ||| Fld.tickets ||| Fld.plans ||| Fld.qps ||| Fld.landing) s (State.bindFast s f q h) := by
  unfold State.bindFast
  refine Keeps.cut s (Keeps.refl _ s) fun h0 => ?_
  extract_lets -merge y0 y1 y2 y3 y4 y5 y6
  clear_value y0 y1 y2
  refine Keeps.cut (y3) ?_ fun h7 => ?_
  · unfold y3
    refine Keeps.step (State.setPlan_keeps ..) rfl ?_
    assumption
  clear_value y3
  refine Keeps.cut (y4) ?_ fun h8 => ?_
  · unfold y4
    exact ((Keeps.set_landing _ h7 rfl) :)
  clear_value y4 y5
  refine Keeps.cut (y6) ?_ fun h9 => ?_
  · unfold y6
    refine Keeps.step (State.setQp_keeps ..) rfl ?_
    assumption
  clear_value y6
  refine Keeps.step (State.arm_keeps ..) rfl ?_
  assumption

theorem State.createPair_keeps (s f) : Keeps (Fld.regs ||| Fld.tickets ||| Fld.plans ||| Fld.qps ||| Fld.landing) s (State.createPair s f) := by
  unfold State.createPair
  refine Keeps.cut s (Keeps.refl _ s) fun h0 => ?_
  extract_lets -merge y0 y1 y2 y3 y4
  clear_value y1 y2 y3
  refine Keeps.cut (y4) ?_ fun h5 => ?_
  · unfold y4
    refine Keeps.step (State.setQp_keeps ..) rfl ?_
    assumption
  clear_value y4
  split
  · rename_i a6 a7 a8
    refine Keeps.step (State.setQp_keeps ..) rfl ?_
    assumption
  · rename_i a9 a10
    refine Keeps.ite ?_ ?_
    · refine Keeps.step (State.bindFast_keeps ..) rfl ?_
      assumption
    · assumption

theorem State.finishJob_keeps (s j) : Keeps (Fld.regs ||| Fld.tickets ||| Fld.jobs ||| Fld.plans ||| Fld.qps ||| Fld.ovf ||| Fld.landing ||| Fld.ends) s (State.finishJob s j) := by
  unfold State.finishJob
  refine Keeps.cut s (Keeps.refl _ s) fun h0 => ?_
  extract_lets -merge y0 y1 y2
  clear_value y0
  refine Keeps.cut (y1) ?_ fun h3 => ?_
  · unfold y1
    refine Keeps.step (State.setJob_keeps ..) rfl ?_
    assumption
  clear_value y1
  refine Keeps.cut (y2) ?_ fun h4 => ?_
  · unfold y2
    exact ((Keeps.set_ends _ h3 rfl) :)
  clear_value y2
  refine Keeps.step (State.checkDrain_keeps ..) rfl ?_
  refine Keeps.step (State.add64_keeps ..) rfl ?_
  assumption

theorem State.bar2Put_keeps (s : State) (c a : Nat) (bs : List Byte) (n : Nat) : Keeps (Fld.regs ||| Fld.harbour ||| Fld.hbPoison ||| Fld.hbWritten) s (s.bar2Put c a bs n) := by
  induction n generalizing s a bs with
  | zero => exact Keeps.refl _ s
  | succ n ih =>
    simp only [State.bar2Put]
    refine Keeps.ite (Keeps.refl _ s) (Keeps.trans (Keeps.ite ?_ (Keeps.refl _ s)) (ih ..))
    split
    · exact Keeps.step (State.hbWrite_keeps ..) rfl (Keeps.refl _ s)
    · exact Keeps.refl _ s

theorem execCompletionWrite_keeps (j s) : KeepsO (Fld.regs ||| Fld.out ||| Fld.tickets ||| Fld.jobs ||| Fld.plans ||| Fld.qps ||| Fld.ovf ||| Fld.landing ||| Fld.ends) s (execCompletionWrite j s) := by
  unfold execCompletionWrite
  refine KeepsO.cut s (Keeps.refl _ s) fun h0 => ?_
  refine KeepsO.next ?_
  extract_lets -merge y0 y1 y2 y3 y4 y5 y6 y7
  clear_value y0
  refine Keeps.cut (y1) ?_ fun h8 => ?_
  · unfold y1
    refine Keeps.step (State.setJob_keeps ..) rfl ?_
    assumption
  clear_value y1 y2 y3 y4
  refine Keeps.cut (y5) ?_ fun h9 => ?_
  · unfold y5
    refine Keeps.ite ?_ ?_
    · refine Keeps.step (State.easeOvf_keeps ..) rfl ?_
      refine Keeps.step (State.setOv_keeps ..) rfl ?_
      assumption
    · refine Keeps.step (State.setQp_keeps ..) rfl ?_
      assumption
  clear_value y5 y6
  refine Keeps.cut (y7) ?_ fun h10 => ?_
  · unfold y7
    split
    · rename_i a11 a12
      refine Keeps.step (State.irqOf_keeps ..) rfl ?_
      refine Keeps.step (State.writeCq_keeps ..) rfl ?_
      assumption
    · rename_i a13 a14 a15 a16
      extract_lets -merge y17
      refine Keeps.cut (y17) ?_ fun h18 => ?_
      · unfold y17
        refine Keeps.step (State.setQp_keeps ..) rfl ?_
        assumption
      clear_value y17
      refine Keeps.step (State.irqOf_keeps ..) rfl ?_
      refine Keeps.step (State.writeCq_keeps ..) rfl ?_
      assumption
  clear_value y7
  refine Keeps.ite ?_ ?_
  · assumption
  · refine Keeps.ite ?_ ?_
    · refine Keeps.step (State.checkDrain_keeps ..) rfl ?_
      exact ((Keeps.set_ends _ h8 rfl) :)
    · refine Keeps.ite ?_ ?_
      · assumption
      · refine Keeps.step (State.finishJob_keeps ..) rfl ?_
        assumption

theorem execBar2Write_keeps (f a bytes s) : KeepsO (Fld.regs ||| Fld.harbour ||| Fld.hbPoison ||| Fld.hbWritten) s (execBar2Write f a bytes s) := by
  unfold execBar2Write
  refine KeepsO.cut s (Keeps.refl _ s) fun h0 => ?_
  refine KeepsO.next ?_
  refine Keeps.ite ?_ ?_
  · assumption
  · refine Keeps.step (State.bar2Put_keeps ..) rfl ?_
    assumption

theorem execQCreate_keeps (rq via s) : KeepsO (Fld.regs ||| Fld.heldWrites ||| Fld.tickets ||| Fld.plans ||| Fld.qps ||| Fld.landing) s (execQCreate rq via s) := by
  unfold execQCreate
  refine KeepsO.cut s (Keeps.refl _ s) fun h0 => ?_
  refine KeepsO.next ?_
  refine State.orHeld_hof ?_ rfl ?_
  · intro t0 x1
    split
    · rename_i a2 a3 a4
      refine Keeps.step (State.createPair_keeps ..) rfl ?_
      assumption
    · rename_i a5 a6
      assumption
  assumption

theorem State.flr_keeps (s f) : Keeps (Fld.regs ||| Fld.hdr ||| Fld.log ||| Fld.out ||| Fld.irq ||| Fld.draws ||| Fld.tickets ||| Fld.jobs ||| Fld.plans ||| Fld.qps ||| Fld.ovf ||| Fld.landing ||| Fld.rungs ||| Fld.spdm ||| Fld.ends ||| Fld.rungAt) s (State.flr s f) := by
  unfold State.flr
  refine Keeps.cut s (Keeps.refl _ s) fun h0 => ?_
  extract_lets -merge y0 y1 y2 y3
  refine Keeps.cut (y0) ?_ fun h4 => ?_
  · unfold y0
    refine Keeps.foldl ?_ ?_
    · intro t5 x6 h7
      refine Keeps.step (State.silence_keeps ..) rfl ?_
      assumption
    assumption
  clear_value y0
  refine Keeps.cut (y1) ?_ fun h8 => ?_
  · unfold y1
    refine Keeps.foldl ?_ ?_
    · intro t9 x10 h11
      refine Keeps.step (State.deletePair_keeps ..) rfl ?_
      assumption
    assumption
  clear_value y1
  refine Keeps.cut (y2) ?_ fun h12 => ?_
  · unfold y2
    refine Keeps.step (State.dropQueues_keeps ..) rfl ?_
    assumption
  clear_value y2
  refine Keeps.cut (y3) ?_ fun h13 => ?_
  · unfold y3
    exact Keeps.step0 (n := Fld.regs ||| Fld.spdm) h12 rfl (by constructor <;> first | exact fun e => absurd e (by decide) | exact fun _ => rfl) fun i => ⟨i.1, i.2.1, i.2.2.1, i.2.2.2⟩
  clear_value y3
  refine Keeps.ite ?_ ?_
  · assumption
  · refine Keeps.step (State.startRung_keeps ..) rfl ?_
    assumption

theorem State.dataCheck_keeps (s j) : Keeps (Fld.regs ||| Fld.hdr ||| Fld.log ||| Fld.out ||| Fld.irq ||| Fld.draws ||| Fld.jobs ||| Fld.rungs ||| Fld.ends ||| Fld.rungAt) s (State.dataCheck s j) := by
  unfold State.dataCheck
  refine Keeps.cut s (Keeps.refl _ s) fun h0 => ?_
  refine Keeps.step (State.endJob_keeps ..) rfl ?_
  refine Keeps.step (State.raiseC_keeps ..) rfl ?_
  refine Keeps.step (State.incSat_keeps ..) rfl ?_
  assumption

theorem State.fastBusy_keeps (s f) : Keeps (Fld.regs ||| Fld.hdr ||| Fld.log ||| Fld.out ||| Fld.irq ||| Fld.draws ||| Fld.rungs ||| Fld.rungAt) s (State.fastBusy s f) := by
  unfold State.fastBusy
  refine Keeps.cut s (Keeps.refl _ s) fun h0 => ?_
  refine Keeps.step (State.raiseC_keeps ..) rfl ?_
  assumption

theorem execFlr_keeps (f s) : KeepsO (Fld.regs ||| Fld.hdr ||| Fld.log ||| Fld.out ||| Fld.irq ||| Fld.draws ||| Fld.tickets ||| Fld.jobs ||| Fld.plans ||| Fld.qps ||| Fld.ovf ||| Fld.landing ||| Fld.rungs ||| Fld.spdm ||| Fld.ends ||| Fld.rungAt ||| Fld.flrs) s (execFlr f s) := by
  unfold execFlr
  refine KeepsO.cut s (Keeps.refl _ s) fun h0 => ?_
  refine KeepsO.next ?_
  refine Keeps.ite ?_ ?_
  · exact ((Keeps.set_flrs _ h0 rfl) :)
  · refine Keeps.step (State.flr_keeps ..) rfl ?_
    assumption

theorem State.refuse_keeps (s c) : Keeps (Fld.regs ||| Fld.hdr ||| Fld.log ||| Fld.out ||| Fld.irq ||| Fld.draws ||| Fld.ovf ||| Fld.rungs ||| Fld.rungAt) s (State.refuse s c) := by
  unfold State.refuse
  refine Keeps.cut s (Keeps.refl _ s) fun h0 => ?_
  extract_lets -merge y0
  clear_value y0
  refine Keeps.ite ?_ ?_
  · assumption
  · refine Keeps.step (State.raiseC_keeps ..) rfl ?_
    refine Keeps.step (State.setOv_keeps ..) rfl ?_
    assumption

theorem execSqTail_keeps (f q v s) : KeepsO (Fld.regs ||| Fld.hdr ||| Fld.log ||| Fld.out ||| Fld.irq ||| Fld.draws ||| Fld.qps ||| Fld.ovf ||| Fld.rungs ||| Fld.rungAt) s (execSqTail f q v s) := by
  unfold execSqTail
  refine KeepsO.cut s (Keeps.refl _ s) fun h0 => ?_
  refine KeepsO.next ?_
  extract_lets -merge y0
  clear_value y0
  refine Keeps.ite ?_ ?_
  · assumption
  · refine Keeps.ite ?_ ?_
    · refine Keeps.step (State.refuse_keeps ..) rfl ?_
      assumption
    · refine Keeps.ite ?_ ?_
      · refine Keeps.step (State.setQp_keeps ..) rfl ?_
        assumption
      · refine Keeps.step (State.setQp_keeps ..) rfl ?_
        assumption

theorem State.linkDown_keeps (s) : Keeps (Fld.regs ||| Fld.hdr ||| Fld.log ||| Fld.out ||| Fld.irq ||| Fld.draws ||| Fld.jobs ||| Fld.qps ||| Fld.ovf ||| Fld.landing ||| Fld.rungs ||| Fld.ends ||| Fld.rungAt) s (State.linkDown s) := by
  unfold State.linkDown
  refine Keeps.cut s (Keeps.refl _ s) fun h0 => ?_
  refine Keeps.ite ?_ ?_
  · assumption
  · extract_lets -merge y0 y1 y2 y3 y4
    refine Keeps.cut (y0) ?_ fun h5 => ?_
    · unfold y0
      refine Keeps.step (State.setReg_keeps ..) rfl ?_
      assumption
    clear_value y0
    refine Keeps.cut (y1) ?_ fun h6 => ?_
    · unfold y1
      refine Keeps.foldl ?_ ?_
      · intro t7 x8 h9
        refine Keeps.step (State.silence_keeps ..) rfl ?_
        assumption
      assumption
    clear_value y1
    refine Keeps.cut (y2) ?_ fun h10 => ?_
    · unfold y2
      exact ((Keeps.set_jobs _ h6 rfl) :)
    clear_value y2
    refine Keeps.cut (y3) ?_ fun h11 => ?_
    · unfold y3
      refine Keeps.step (State.unbind_keeps ..) rfl ?_
      assumption
    clear_value y3
    refine Keeps.cut (y4) ?_ fun h12 => ?_
    · unfold y4
      exact Keeps.step0 (n := Fld.qps ||| Fld.ovf) h11 rfl (by constructor <;> first | exact fun e => absurd e (by decide) | exact fun _ => rfl) fun i => ⟨i.1, i.2.1, i.2.2.1, i.2.2.2⟩
    clear_value y4
    refine Keeps.step (State.raise_keeps ..) rfl ?_
    assumption

theorem execLinkUp_keeps (speed width flit s) : KeepsO (Fld.regs ||| Fld.hdr ||| Fld.log ||| Fld.out ||| Fld.irq ||| Fld.draws ||| Fld.rungs ||| Fld.rungAt) s (execLinkUp speed width flit s) := by
  unfold execLinkUp
  refine KeepsO.cut s (Keeps.refl _ s) fun h0 => ?_
  refine KeepsO.next ?_
  refine Keeps.ite ?_ ?_
  · assumption
  · extract_lets -merge y0 y1
    refine Keeps.cut (y0) ?_ fun h2 => ?_
    · unfold y0
      refine Keeps.ite ?_ ?_
      · assumption
      · split
        · rename_i a3 a4 a5 a6
          refine Keeps.cut (a5) ?_ fun h7 => ?_
          · refine Keeps.of_snd a6 ?_
            refine Keeps.step (State.nextDraw_keeps ..) rfl ?_
            assumption
          refine Keeps.step (State.setF_keeps ..) rfl ?_
          refine Keeps.step (State.setB_keeps ..) rfl ?_
          assumption
    clear_value y0
    refine Keeps.cut (y1) ?_ fun h8 => ?_
    · unfold y1
      refine Keeps.step (State.setReg_keeps ..) rfl ?_
      assumption
    clear_value y1
    refine Keeps.ite ?_ ?_
    · assumption
    · refine Keeps.step (State.raise_keeps ..) rfl ?_
      assumption

theorem execHifLinkDown_keeps (s) : KeepsO (Fld.regs ||| Fld.hdr ||| Fld.log ||| Fld.out ||| Fld.irq ||| Fld.draws ||| Fld.jobs ||| Fld.qps ||| Fld.ovf ||| Fld.landing ||| Fld.rungs ||| Fld.ends ||| Fld.rungAt) s (execHifLinkDown s) := by
  unfold execHifLinkDown
  refine KeepsO.cut s (Keeps.refl _ s) fun h0 => ?_
  refine KeepsO.next ?_
  refine Keeps.step (State.linkDown_keeps ..) rfl ?_
  assumption

theorem State.entryCheck_keeps (s j) : Keeps (Fld.regs ||| Fld.hdr ||| Fld.log ||| Fld.out ||| Fld.irq ||| Fld.draws ||| Fld.jobs ||| Fld.rungs ||| Fld.ends ||| Fld.rungAt) s (State.entryCheck s j) := by
  unfold State.entryCheck
  refine Keeps.cut s (Keeps.refl _ s) fun h0 => ?_
  refine Keeps.step (State.endJob_keeps ..) rfl ?_
  refine Keeps.step (State.raiseC_keeps ..) rfl ?_
  refine Keeps.step (State.incSat_keeps ..) rfl ?_
  assumption

theorem State.slot_keeps {s t : State} {f q : Nat} {b : Bool} (h : s.slot f q = some (t, b)) : Keeps (Fld.regs ||| Fld.hdr ||| Fld.log ||| Fld.out ||| Fld.irq ||| Fld.draws ||| Fld.qps ||| Fld.ovf ||| Fld.rungs ||| Fld.rungAt) s t := by
  unfold State.slot at h
  dsimp only at h
  split at h
  · cases h; exact Keeps.step (State.setQp_keeps ..) rfl (Keeps.refl _ s)
  · split at h
    · cases h
      have h1 : Keeps (Fld.regs ||| Fld.hdr ||| Fld.log ||| Fld.out ||| Fld.irq ||| Fld.draws ||| Fld.qps ||| Fld.ovf ||| Fld.rungs ||| Fld.rungAt) s (s.setOv f { s.ov f with rsv := (s.ov f).rsv + 1 }) := Keeps.step (State.setOv_keeps ..) rfl (Keeps.refl _ s)
      exact Keeps.ite (Keeps.step (State.refuse_keeps ..) rfl h1) h1
    · cases h

theorem State.placeRows_keeps (s j off bs) : Keeps (Fld.regs ||| Fld.hdr ||| Fld.log ||| Fld.out ||| Fld.irq ||| Fld.draws ||| Fld.jobs ||| Fld.basin ||| Fld.lines ||| Fld.rungs ||| Fld.ends ||| Fld.rungAt) s (State.placeRows s j off bs) := by
  unfold State.placeRows
  refine Keeps.cut s (Keeps.refl _ s) fun h0 => ?_
  extract_lets -merge y0 y1
  clear_value y0 y1
  split
  · rename_i a2 a3 a4 a5
    refine Keeps.cut (a3) ?_ fun h6 => ?_
    · refine Keeps.of_fst a5 ?_
      refine Keeps.foldl_fst ?_ ?_
      · intro t7 c8 x9 h10
        dsimp only
        refine Keeps.step (State.noteForeign_keeps ..) rfl ?_
        refine Keeps.step (State.writeBytes_keeps ..) rfl ?_
        assumption
      assumption
    refine Keeps.ite ?_ ?_
    · refine Keeps.step (State.endJob_keeps ..) rfl ?_
      assumption
    · assumption

theorem State.spill_keeps (s f q e) : Keeps (Fld.regs ||| Fld.hdr ||| Fld.log ||| Fld.out ||| Fld.irq ||| Fld.draws ||| Fld.qps ||| Fld.ovf ||| Fld.rungs ||| Fld.rungAt) s (State.spill s f q e) := by
  unfold State.spill
  refine Keeps.cut s (Keeps.refl _ s) fun h0 => ?_
  extract_lets -merge y0 y1 y2 y3
  clear_value y0
  refine Keeps.cut (y1) ?_ fun h4 => ?_
  · unfold y1
    refine Keeps.step (State.setQp_keeps ..) rfl ?_
    assumption
  clear_value y1 y2
  refine Keeps.cut (y3) ?_ fun h5 => ?_
  · unfold y3
    refine Keeps.step (State.setOv_keeps ..) rfl ?_
    assumption
  clear_value y3
  refine Keeps.ite ?_ ?_
  · assumption
  · refine Keeps.step (State.raiseC_keeps ..) rfl ?_
    assumption

theorem execOverflowWrite_keeps (j s) : KeepsO (Fld.regs ||| Fld.hdr ||| Fld.log ||| Fld.out ||| Fld.irq ||| Fld.draws ||| Fld.tickets ||| Fld.jobs ||| Fld.plans ||| Fld.qps ||| Fld.ovf ||| Fld.landing ||| Fld.rungs ||| Fld.ends ||| Fld.rungAt) s (execOverflowWrite j s) := by
  unfold execOverflowWrite
  refine KeepsO.cut s (Keeps.refl _ s) fun h0 => ?_
  refine KeepsO.next ?_
  extract_lets -merge y0 y1 y2
  clear_value y0 y1
  refine Keeps.cut (y2) ?_ fun h3 => ?_
  · unfold y2
    refine Keeps.step (State.setOv_keeps ..) rfl ?_
    assumption
  clear_value y2
  refine Keeps.ite ?_ ?_
  · assumption
  · refine Keeps.step (State.finishJob_keeps ..) rfl ?_
    refine Keeps.step (State.spill_keeps ..) rfl ?_
    assumption

theorem execResultBlockWrite_keeps (j wordOk linkOk s) : KeepsO (Fld.regs ||| Fld.hdr ||| Fld.log ||| Fld.out ||| Fld.irq ||| Fld.draws ||| Fld.jobs ||| Fld.qps ||| Fld.rungs ||| Fld.ends ||| Fld.rungAt) s (execResultBlockWrite j wordOk linkOk s) := by
  unfold execResultBlockWrite
  refine KeepsO.cut s (Keeps.refl _ s) fun h0 => ?_
  refine KeepsO.next ?_
  extract_lets -merge y0 y1 y2 y3 y4 y5 y6 y7
  clear_value y0 y1 y2 y3 y4 y5
  refine Keeps.cut (y6) ?_ fun h8 => ?_
  · unfold y6
    refine Keeps.step (State.setJob_keeps ..) rfl ?_
    refine Keeps.step (State.setQp_keeps ..) rfl ?_
    assumption
  clear_value y6
  refine Keeps.cut (y7) ?_ fun h9 => ?_
  · unfold y7
    refine Keeps.ite ?_ ?_
    · assumption
    · refine Keeps.step (State.emit_keeps ..) rfl ?_
      assumption
  clear_value y7
  refine Keeps.ite ?_ ?_
  · assumption
  · refine Keeps.ite ?_ ?_
    · refine Keeps.step (State.endJob_keeps ..) rfl ?_
      refine Keeps.step (State.noteForeign_keeps ..) rfl ?_
      assumption
    · refine Keeps.ite ?_ ?_
      · refine Keeps.step (State.endJob_keeps ..) rfl ?_
        refine Keeps.step (State.raiseC_keeps ..) rfl ?_
        refine Keeps.step (State.incSat_keeps ..) rfl ?_
        assumption
      · refine Keeps.ite ?_ ?_
        · refine Keeps.step (State.endJob_keeps ..) rfl ?_
          refine Keeps.step (State.dmaErr_keeps ..) rfl ?_
          assumption
        · refine Keeps.step (State.endJob_keeps ..) rfl ?_
          assumption

theorem execEntryFetch_keeps (bytes ok s) : KeepsO (Fld.regs ||| Fld.hdr ||| Fld.log ||| Fld.out ||| Fld.irq ||| Fld.draws ||| Fld.jobs ||| Fld.nextJob ||| Fld.qps ||| Fld.ovf ||| Fld.rungs ||| Fld.ends ||| Fld.rrCtx ||| Fld.rrQ ||| Fld.rungAt) s (execEntryFetch bytes ok s) := by
  unfold execEntryFetch
  refine KeepsO.cut s (Keeps.refl _ s) fun h0 => ?_
  refine KeepsO.next ?_
  split
  · rename_i a0 a1
    assumption
  · rename_i a2 a3 a4 a5
    split
    · rename_i a6 a7
      assumption
    · rename_i a8 a9 a10 a11
      refine Keeps.cut (a9) ?_ fun h12 => ?_
      · refine Keeps.step (State.slot_keeps a11) rfl ?_
        assumption
      extract_lets -merge y13 y14 y15 y16 y17 y18
      clear_value y13 y14
      refine Keeps.cut (y15) ?_ fun h19 => ?_
      · unfold y15
        refine Keeps.step (State.setQp_keeps ..) rfl ?_
        assumption
      clear_value y15
      refine Keeps.cut (y16) ?_ fun h20 => ?_
      · unfold y16
        exact Keeps.step0 (n := Fld.rrCtx ||| Fld.rrQ) h19 rfl (by constructor <;> first | exact fun e => absurd e (by decide) | exact fun _ => rfl) fun i => ⟨i.1, i.2.1, i.2.2.1, i.2.2.2⟩
      clear_value y16 y17 y18
      split
      · rename_i a21 a22 a23 a24
        refine Keeps.cut (a23) ?_ fun h25 => ?_
        · refine Keeps.of_snd a24 ?_
          refine Keeps.step (State.newJob_keeps ..) rfl ?_
          assumption
        refine Keeps.ite ?_ ?_
        · refine Keeps.step (State.endJob_keeps ..) rfl ?_
          refine Keeps.step (State.dmaErr_keeps ..) rfl ?_
          assumption
        · refine Keeps.ite ?_ ?_
          · refine Keeps.step (State.entryCheck_keeps ..) rfl ?_
            assumption
          · refine Keeps.ite ?_ ?_
            · refine Keeps.step (State.endJob_keeps ..) rfl ?_
              assumption
            · assumption

theorem execHifDmaErr_keeps (j s) : KeepsO (Fld.regs ||| Fld.hdr ||| Fld.log ||| Fld.out ||| Fld.irq ||| Fld.draws ||| Fld.jobs ||| Fld.rungs ||| Fld.ends ||| Fld.rungAt) s (execHifDmaErr j s) := by
  unfold execHifDmaErr
  refine KeepsO.cut s (Keeps.refl _ s) fun h0 => ?_
  refine KeepsO.next ?_
  extract_lets -merge y0
  clear_value y0
  refine Keeps.ite ?_ ?_
  · refine Keeps.step (State.endJob_keeps ..) rfl ?_
    refine Keeps.step (State.dmaErr_keeps ..) rfl ?_
    assumption
  · assumption

theorem execFastEntry_keeps (f q bytes s) : KeepsO (Fld.regs ||| Fld.hdr ||| Fld.log ||| Fld.out ||| Fld.irq ||| Fld.draws ||| Fld.jobs ||| Fld.nextJob ||| Fld.qps ||| Fld.ovf ||| Fld.landing ||| Fld.rungs ||| Fld.ends ||| Fld.rungAt) s (execFastEntry f q bytes s) := by
  unfold execFastEntry
  refine KeepsO.cut s (Keeps.refl _ s) fun h0 => ?_
  refine KeepsO.next ?_
  extract_lets -merge y0 y1
  clear_value y0 y1
  refine Keeps.ite ?_ ?_
  · assumption
  · split
    · rename_i a2 a3
      refine Keeps.step (State.fastBusy_keeps ..) rfl ?_
      assumption
    · rename_i a4 a5 a6 a7
      refine Keeps.cut (a5) ?_ fun h8 => ?_
      · refine Keeps.step (State.slot_keeps a7) rfl ?_
        assumption
      extract_lets -merge y9
      clear_value y9
      split
      · rename_i a10 a11 a12 a13
        refine Keeps.cut (a12) ?_ fun h14 => ?_
        · refine Keeps.of_snd a13 ?_
          refine Keeps.step (State.newJob_keeps ..) rfl ?_
          assumption
        extract_lets -merge y15
        clear_value y15
        refine Keeps.ite ?_ ?_
        · refine Keeps.step (State.entryCheck_keeps ..) rfl ?_
          assumption
        · split
          · rename_i a16 a17
            refine Keeps.step (State.endJob_keeps ..) rfl ?_
            assumption
          · rename_i a18 a19 a20 a21
            refine Keeps.ite ?_ ?_
            · refine Keeps.step (State.endJob_keeps ..) rfl ?_
              refine Keeps.step (State.fastBusy_keeps ..) rfl ?_
              assumption
            · extract_lets -merge y22 y23
              refine Keeps.cut (y22) ?_ fun h24 => ?_
              · unfold y22
                refine Keeps.step (State.setLand_keeps ..) rfl ?_
                assumption
              clear_value y22 y23
              refine Keeps.ite ?_ ?_
              · refine Keeps.step (State.endJob_keeps ..) rfl ?_
                assumption
              · refine Keeps.ite ?_ ?_
                · refine Keeps.step (State.endJob_keeps ..) rfl ?_
                  assumption
                · refine Keeps.ite ?_ ?_
                  · refine Keeps.step (State.endJob_keeps ..) rfl ?_
                    assumption
                  · refine Keeps.ite ?_ ?_
                    · refine Keeps.step (State.dataCheck_keeps ..) rfl ?_
                      assumption
                    · refine Keeps.step (State.setLand_keeps ..) rfl ?_
                      assumption

theorem execFastCommit_keeps (isl s) : KeepsO (Fld.regs ||| Fld.hdr ||| Fld.log ||| Fld.out ||| Fld.irq ||| Fld.draws ||| Fld.jobs ||| Fld.basin ||| Fld.lines ||| Fld.landing ||| Fld.rungs ||| Fld.ends ||| Fld.rungAt) s (execFastCommit isl s) := by
  unfold execFastCommit
  refine KeepsO.cut s (Keeps.refl _ s) fun h0 => ?_
  refine KeepsO.next ?_
  extract_lets -merge y0 y1 y2 y3 y4
  clear_value y0 y1 y2
  refine Keeps.cut (y3) ?_ fun h5 => ?_
  · unfold y3
    refine Keeps.step (State.placeRows_keeps ..) rfl ?_
    refine Keeps.step (State.setLand_keeps ..) rfl ?_
    assumption
  clear_value y3 y4
  refine Keeps.ite ?_ ?_
  · assumption
  · refine Keeps.ite ?_ ?_
    · refine Keeps.ite ?_ ?_
      · assumption
      · refine Keeps.step (State.incSat_keeps ..) rfl ?_
        refine Keeps.step (State.setLand_keeps ..) rfl ?_
        assumption
    · refine Keeps.ite ?_ ?_
      · assumption
      · refine Keeps.step (State.setJob_keeps ..) rfl ?_
        assumption

theorem execInputBlockArrival_keeps (j data word ok s) : KeepsO (Fld.regs ||| Fld.hdr ||| Fld.log ||| Fld.out ||| Fld.irq ||| Fld.draws ||| Fld.jobs ||| Fld.basin ||| Fld.lines ||| Fld.rungs ||| Fld.harbour ||| Fld.hbPoison ||| Fld.hbWritten ||| Fld.ends ||| Fld.rungAt) s (execInputBlockArrival j data word ok s) := by
  unfold execInputBlockArrival
  refine KeepsO.cut s (Keeps.refl _ s) fun h0 => ?_
  refine KeepsO.next ?_
  extract_lets -merge y0 y1 y2 y3 y4 y5
  clear_value y0 y1 y2
  refine Keeps.cut (y3) ?_ fun h6 => ?_
  · unfold y3
    refine Keeps.ite ?_ ?_
    · refine Keeps.step (State.placeRows_keeps ..) rfl ?_
      assumption
    · refine Keeps.step (State.putWindow_keeps ..) rfl ?_
      assumption
  clear_value y3 y4 y5
  refine Keeps.ite ?_ ?_
  · assumption
  · refine Keeps.ite ?_ ?_
    · refine Keeps.step (State.endJob_keeps ..) rfl ?_
      refine Keeps.step (State.dmaErr_keeps ..) rfl ?_
      assumption
    · refine Keeps.ite ?_ ?_
      · refine Keeps.step (State.dataCheck_keeps ..) rfl ?_
        assumption
      · refine Keeps.ite ?_ ?_
        · assumption
        · refine Keeps.step (State.setJob_keeps ..) rfl ?_
          assumption

end Sys2Proof.Machine
end

