-- ==== Sys2Proof/Laws/Leases.lean ====
section
/-!
SUPPORT. What each function of Machine/Leases.lean may change, and that it keeps the invariant of State.
-/
set_option linter.unusedVariables false
namespace Sys2Proof.Machine

theorem execLeaseRenew_keeps (res unit plan s) : KeepsO (Fld.leases) s (execLeaseRenew res unit plan s) := by
  unfold execLeaseRenew
  refine KeepsO.cut s (Keeps.refl _ s) fun h0 => ?_
  refine KeepsO.next ?_
  refine Keeps.ite ?_ ?_
  · exact ((Keeps.set_leases _ h0 rfl) :)
  · assumption

theorem State.abortTests_keeps (s p) : Keeps (Fld.regs ||| Fld.tiles ||| Fld.tests) s (State.abortTests s p) := by
  unfold State.abortTests
  refine Keeps.cut s (Keeps.refl _ s) fun h0 => ?_
  refine Keeps.foldl ?_ ?_
  · intro t0 x1 h2
    refine Keeps.step (State.testAbort_keeps ..) rfl ?_
    assumption
  assumption

theorem State.dropSessions_keeps (s p) : Keeps (Fld.regs ||| Fld.hdr ||| Fld.log ||| Fld.out ||| Fld.irq ||| Fld.draws ||| Fld.rungs ||| Fld.rungAt ||| Fld.sessions) s (State.dropSessions s p) := by
  unfold State.dropSessions
  refine Keeps.cut s (Keeps.refl _ s) fun h0 => ?_
  refine Keeps.foldl ?_ ?_
  · intro t0 x1 h2
    refine Keeps.step (State.raise_keeps ..) rfl ?_
    assumption
  exact ((Keeps.set_sessions _ h0 rfl) :)

theorem State.flashFailed_keeps (s w) : Keeps (Fld.regs ||| Fld.hdr ||| Fld.log ||| Fld.out ||| Fld.irq ||| Fld.draws ||| Fld.rungs ||| Fld.ownerKeys ||| Fld.rungAt) s (State.flashFailed s w) := by
  unfold State.flashFailed
  refine Keeps.cut s (Keeps.refl _ s) fun h0 => ?_
  split
  · rename_i a0 a1
    refine Keeps.step (State.raise_keeps ..) rfl ?_
    refine Keeps.step (State.setF_keeps ..) rfl ?_
    refine Keeps.step (State.setF_keeps ..) rfl ?_
    assumption
  · rename_i a2 a3
    refine Keeps.step (State.setF_keeps ..) rfl ?_
    refine Keeps.step (State.setF_keeps ..) rfl ?_
    assumption
  · rename_i a4 a5
    refine Keeps.step (State.setF_keeps ..) rfl ?_
    refine Keeps.step (State.setF_keeps ..) rfl ?_
    assumption
  · rename_i a6 a7
    refine Keeps.step (State.raise_keeps ..) rfl ?_
    refine Keeps.step (State.setB_keeps ..) rfl ?_
    refine Keeps.step (State.setB_keeps ..) rfl ?_
    assumption
  · rename_i a8 a9
    refine Keeps.step (State.keysWritten_keeps ..) rfl ?_
    assumption
  · rename_i a10 a11 a12 a13 a14 a15
    assumption

theorem execLeaseLost_keeps (res unit plan s) : KeepsO (Fld.regs ||| Fld.hdr ||| Fld.log ||| Fld.out ||| Fld.irq ||| Fld.draws ||| Fld.rungs ||| Fld.ownerKeys ||| Fld.lost ||| Fld.rungAt ||| Fld.torn) s (execLeaseLost res unit plan s) := by
  unfold execLeaseLost
  refine KeepsO.cut s (Keeps.refl _ s) fun h0 => ?_
  refine KeepsO.next ?_
  split
  · rename_i a0 a1
    assumption
  · rename_i a2 a3 a4
    extract_lets -merge y5 y6
    refine Keeps.cut (y5) ?_ fun h7 => ?_
    · unfold y5
      exact ((Keeps.set_lost _ h0 rfl) :)
    clear_value y5
    refine Keeps.cut (y6) ?_ fun h8 => ?_
    · unfold y6
      refine Keeps.ite ?_ ?_
      · refine Keeps.step (State.raiseC_keeps ..) rfl ?_
        assumption
      · refine Keeps.step (State.raise_keeps ..) rfl ?_
        assumption
    clear_value y6
    split
    · rename_i a9 a10
      assumption
    · rename_i a11 a12 a13 a14
      refine Keeps.ite ?_ ?_
      · refine Keeps.step (State.flashFailed_keeps ..) rfl ?_
        exact ((Keeps.set_torn _ h8 rfl) :)
      · assumption

theorem State.onRevoke_keeps (s l) : Keeps (Fld.regs ||| Fld.hdr ||| Fld.log ||| Fld.out ||| Fld.irq ||| Fld.draws ||| Fld.leases ||| Fld.tickets ||| Fld.acks ||| Fld.jobs ||| Fld.plans ||| Fld.acct ||| Fld.ctxs ||| Fld.qps ||| Fld.landing ||| Fld.rungs ||| Fld.rows ||| Fld.tiles ||| Fld.harbour ||| Fld.hbPoison ||| Fld.hbWritten ||| Fld.frames ||| Fld.badSlots ||| Fld.owners ||| Fld.runs ||| Fld.imports ||| Fld.tests ||| Fld.flash ||| Fld.cal ||| Fld.flashq ||| Fld.ends ||| Fld.rplChecks ||| Fld.rungAt ||| Fld.torn) s (State.onRevoke s l) := by
  unfold State.onRevoke
  refine Keeps.cut s (Keeps.refl _ s) fun h0 => ?_
  split
  · rename_i a0 a1
    split
    · rename_i a2 a3
      assumption
    · rename_i a4 a5 a6 a7
      refine Keeps.step (State.checkEnd_keeps ..) rfl ?_
      refine Keeps.step (State.freeTk_keeps ..) rfl ?_
      refine Keeps.step (State.failStep_keeps ..) rfl ?_
      assumption
  · rename_i a8 a9
    refine Keeps.step (State.unload_keeps ..) rfl ?_
    assumption
  · rename_i a10 a11
    refine Keeps.step (State.unload_keeps ..) rfl ?_
    assumption
  · rename_i a12 a13
    refine Keeps.step (State.startTeardown_keeps ..) rfl ?_
    refine Keeps.step (State.installFail_keeps ..) rfl ?_
    refine Keeps.step (State.setSlot_keeps ..) rfl ?_
    assumption
  · rename_i a14 a15
    split
    · rename_i a16 a17
      assumption
    · rename_i a18 a19 a20 a21
      extract_lets -merge y22
      refine Keeps.cut (y22) ?_ fun h23 => ?_
      · unfold y22
        refine Keeps.step (State.flashTear_keeps ..) rfl ?_
        assumption
      clear_value y22
      refine Keeps.step (State.flashNext_keeps ..) rfl ?_
      exact ((Keeps.set_torn _ h23 rfl) :)
  · rename_i a24 a25 a26 a27 a28 a29
    assumption

theorem State.revokeLease_keeps (s l) : Keeps (Fld.regs ||| Fld.hdr ||| Fld.log ||| Fld.out ||| Fld.irq ||| Fld.draws ||| Fld.leases ||| Fld.tickets ||| Fld.acks ||| Fld.jobs ||| Fld.plans ||| Fld.acct ||| Fld.ctxs ||| Fld.qps ||| Fld.landing ||| Fld.rungs ||| Fld.rows ||| Fld.tiles ||| Fld.harbour ||| Fld.hbPoison ||| Fld.hbWritten ||| Fld.frames ||| Fld.badSlots ||| Fld.owners ||| Fld.runs ||| Fld.imports ||| Fld.dyns ||| Fld.tests ||| Fld.flash ||| Fld.cal ||| Fld.flashq ||| Fld.ends ||| Fld.rplChecks ||| Fld.lost ||| Fld.rungAt ||| Fld.torn) s (State.revokeLease s l) := by
  unfold State.revokeLease
  refine Keeps.cut s (Keeps.refl _ s) fun h0 => ?_
  refine Keeps.ite ?_ ?_
  · refine Keeps.step (State.dynRevoke_keeps ..) rfl ?_
    assumption
  · refine Keeps.step (State.onRevoke_keeps ..) rfl ?_
    refine Keeps.step (State.loseLease_keeps ..) rfl ?_
    assumption

theorem State.pilotReset_keeps (s n cause) : Keeps (Fld.regs ||| Fld.hdr ||| Fld.log ||| Fld.out ||| Fld.irq ||| Fld.draws ||| Fld.leases ||| Fld.tickets ||| Fld.acks ||| Fld.jobs ||| Fld.plans ||| Fld.acct ||| Fld.ctxs ||| Fld.qps ||| Fld.landing ||| Fld.rungs ||| Fld.rows ||| Fld.tiles ||| Fld.harbour ||| Fld.hbPoison ||| Fld.hbWritten ||| Fld.frames ||| Fld.badSlots ||| Fld.owners ||| Fld.runs ||| Fld.imports ||| Fld.dyns ||| Fld.tests ||| Fld.flash ||| Fld.cal ||| Fld.flashq ||| Fld.ends ||| Fld.rplChecks ||| Fld.lost ||| Fld.rungAt ||| Fld.sessions ||| Fld.torn) s (State.pilotReset s n cause) := by
  unfold State.pilotReset
  refine Keeps.cut s (Keeps.refl _ s) fun h0 => ?_
  refine Keeps.ite ?_ ?_
  · assumption
  · extract_lets -merge y0 y1
    refine Keeps.cut (y0) ?_ fun h2 => ?_
    · unfold y0
      refine Keeps.step (State.setF_keeps ..) rfl ?_
      refine Keeps.step (State.incSat_keeps ..) rfl ?_
      refine Keeps.step (State.setF_keeps ..) rfl ?_
      assumption
    clear_value y0
    refine Keeps.cut (y1) ?_ fun h3 => ?_
    · unfold y1
      refine Keeps.foldl ?_ ?_
      · intro t4 x5 h6
        refine Keeps.step (State.revokeLease_keeps ..) rfl ?_
        assumption
      assumption
    clear_value y1
    refine Keeps.ite ?_ ?_
    · refine Keeps.step (State.dropSessions_keeps ..) rfl ?_
      assumption
    · refine Keeps.ite ?_ ?_
      · refine Keeps.step (State.abortTests_keeps ..) rfl ?_
        refine Keeps.step (State.calAbortRun_keeps ..) rfl ?_
        assumption
      · assumption

theorem State.holderReset_keeps (s l) : Keeps (Fld.regs ||| Fld.hdr ||| Fld.log ||| Fld.out ||| Fld.irq ||| Fld.draws ||| Fld.leases ||| Fld.tickets ||| Fld.acks ||| Fld.jobs ||| Fld.plans ||| Fld.acct ||| Fld.ctxs ||| Fld.qps ||| Fld.landing ||| Fld.rungs ||| Fld.rows ||| Fld.tiles ||| Fld.harbour ||| Fld.hbPoison ||| Fld.hbWritten ||| Fld.frames ||| Fld.badSlots ||| Fld.owners ||| Fld.runs ||| Fld.imports ||| Fld.dyns ||| Fld.tests ||| Fld.flash ||| Fld.cal ||| Fld.flashq ||| Fld.ends ||| Fld.rplChecks ||| Fld.lost ||| Fld.rungAt ||| Fld.sessions ||| Fld.torn) s (State.holderReset s l) := by
  unfold State.holderReset
  refine Keeps.cut s (Keeps.refl _ s) fun h0 => ?_
  refine Keeps.ite ?_ ?_
  · assumption
  · refine Keeps.ite ?_ ?_
    · refine Keeps.step (State.startRung_keeps ..) rfl ?_
      assumption
    · refine Keeps.ite ?_ ?_
      · refine Keeps.step (State.pilotReset_keeps ..) rfl ?_
        assumption
      · refine Keeps.step (State.dropSessions_keeps ..) rfl ?_
        assumption

theorem execLeaseExpiry_keeps (res unit plan needed s) : KeepsO (Fld.regs ||| Fld.hdr ||| Fld.log ||| Fld.out ||| Fld.irq ||| Fld.draws ||| Fld.leases ||| Fld.tickets ||| Fld.acks ||| Fld.jobs ||| Fld.plans ||| Fld.acct ||| Fld.ctxs ||| Fld.qps ||| Fld.landing ||| Fld.rungs ||| Fld.rows ||| Fld.tiles ||| Fld.harbour ||| Fld.hbPoison ||| Fld.hbWritten ||| Fld.frames ||| Fld.badSlots ||| Fld.owners ||| Fld.runs ||| Fld.imports ||| Fld.dyns ||| Fld.tests ||| Fld.flash ||| Fld.cal ||| Fld.flashq ||| Fld.ends ||| Fld.rplChecks ||| Fld.lost ||| Fld.rungAt ||| Fld.sessions ||| Fld.torn) s (execLeaseExpiry res unit plan needed s) := by
  unfold execLeaseExpiry
  refine KeepsO.cut s (Keeps.refl _ s) fun h0 => ?_
  refine KeepsO.next ?_
  split
  · rename_i a0 a1
    assumption
  · rename_i a2 a3 a4
    refine Keeps.ite ?_ ?_
    · refine Keeps.step (State.holderReset_keeps ..) rfl ?_
      refine Keeps.step (State.revokeLease_keeps ..) rfl ?_
      assumption
    · refine Keeps.step (State.revokeLease_keeps ..) rfl ?_
      assumption

end Sys2Proof.Machine
end

