-- ==== Sys2Proof/Laws/Spdm.lean ====
section
/-!
SUPPORT. What each function of Machine/Spdm.lean may change, and that it keeps the invariant of State.
-/
set_option linter.unusedVariables false
namespace Sys2Proof.Machine

theorem State.setSpdm_keeps (s f x) : Keeps (Fld.spdm) s (State.setSpdm s f x) := by
  unfold State.setSpdm
  refine Keeps.cut s (Keeps.refl _ s) fun h0 => ?_
  exact ((Keeps.set_spdm _ h0 rfl) :)

theorem State.freeBytes_keeps (s n) : Keeps (Fld.draws) s (State.freeBytes s n).2 := by
  unfold State.freeBytes
  refine Keeps.cut s (Keeps.refl _ s) fun h0 => ?_
  dsimp only
  exact ((Keeps.set_draws _ h0 rfl) :)

theorem State.spdmError_keeps (s e) : Keeps (Fld.out) s (State.spdmError s e) := by
  unfold State.spdmError
  refine Keeps.cut s (Keeps.refl _ s) fun h0 => ?_
  refine Keeps.step (State.emit_keeps ..) rfl ?_
  assumption

theorem execNegotiateAlgorithms_keeps (f offered s) : KeepsO (Fld.out ||| Fld.spdm) s (execNegotiateAlgorithms f offered s) := by
  unfold execNegotiateAlgorithms
  refine KeepsO.cut s (Keeps.refl _ s) fun h0 => ?_
  refine KeepsO.next ?_
  extract_lets -merge y0
  clear_value y0
  refine Keeps.ite ?_ ?_
  · refine Keeps.step (State.spdmError_keeps ..) rfl ?_
    assumption
  · refine Keeps.ite ?_ ?_
    · refine Keeps.step (State.spdmError_keeps ..) rfl ?_
      assumption
    · refine Keeps.step (State.emit_keeps ..) rfl ?_
      refine Keeps.step (State.setSpdm_keeps ..) rfl ?_
      assumption

theorem State.afterAlgs_hof {m : Nat} {s u : State} {x : Nat} {f : State → State} (hf : ∀ t, Keeps m s t → Keeps m s (f t))
    (hm : Fld.sub (Fld.out) m = true) (h : Keeps m s u) : Keeps m s (u.afterAlgs x f) :=
  Keeps.ite (Keeps.step (State.spdmError_keeps ..) hm h) (hf u h)

theorem execGetVersion_keeps (f s) : KeepsO (Fld.out ||| Fld.spdm) s (execGetVersion f s) := by
  unfold execGetVersion
  refine KeepsO.cut s (Keeps.refl _ s) fun h0 => ?_
  refine KeepsO.next ?_
  refine Keeps.step (State.emit_keeps ..) rfl ?_
  refine Keeps.step (State.setSpdm_keeps ..) rfl ?_
  assumption

theorem execSpdmUnsupported_keeps (f s) : KeepsO (Fld.out) s (execSpdmUnsupported f s) := by
  unfold execSpdmUnsupported
  refine KeepsO.cut s (Keeps.refl _ s) fun h0 => ?_
  refine KeepsO.next ?_
  refine Keeps.step (State.spdmError_keeps ..) rfl ?_
  assumption

theorem execGetCertificate_keeps (f slot off len s) : KeepsO (Fld.out) s (execGetCertificate f slot off len s) := by
  unfold execGetCertificate
  refine KeepsO.cut s (Keeps.refl _ s) fun h0 => ?_
  refine KeepsO.next ?_
  refine State.afterAlgs_hof ?_ rfl ?_
  · intro t0 x1
    refine Keeps.ite ?_ ?_
    · refine Keeps.step (State.spdmError_keeps ..) rfl ?_
      assumption
    · extract_lets -merge y2
      clear_value y2
      refine Keeps.step (State.emit_keeps ..) rfl ?_
      assumption
  assumption

theorem execGetDigests_keeps (f s) : KeepsO (Fld.out) s (execGetDigests f s) := by
  unfold execGetDigests
  refine KeepsO.cut s (Keeps.refl _ s) fun h0 => ?_
  refine KeepsO.next ?_
  refine State.afterAlgs_hof ?_ rfl ?_
  · intro t0 x1
    refine Keeps.step (State.emit_keeps ..) rfl ?_
    assumption
  assumption

theorem execEndSession_keeps (f s) : KeepsO (Fld.out ||| Fld.spdm) s (execEndSession f s) := by
  unfold execEndSession
  refine KeepsO.cut s (Keeps.refl _ s) fun h0 => ?_
  refine KeepsO.next ?_
  extract_lets -merge y0
  clear_value y0
  refine Keeps.ite ?_ ?_
  · refine Keeps.step (State.spdmError_keeps ..) rfl ?_
    assumption
  · refine Keeps.step (State.emit_keeps ..) rfl ?_
    refine Keeps.step (State.setSpdm_keeps ..) rfl ?_
    assumption

theorem State.spdmFree_keeps (s code n head) : Keeps (Fld.out ||| Fld.draws) s (State.spdmFree s code n head) := by
  unfold State.spdmFree
  refine Keeps.cut s (Keeps.refl _ s) fun h0 => ?_
  split
  · rename_i a0 a1 a2 a3
    refine Keeps.cut (a2) ?_ fun h4 => ?_
    · refine Keeps.of_snd a3 ?_
      refine Keeps.step (State.freeBytes_keeps ..) rfl ?_
      assumption
    refine Keeps.step (State.emit_keeps ..) rfl ?_
    assumption

theorem execKeyExchange_keeps (f s) : KeepsO (Fld.out ||| Fld.draws ||| Fld.spdm) s (execKeyExchange f s) := by
  unfold execKeyExchange
  refine KeepsO.cut s (Keeps.refl _ s) fun h0 => ?_
  refine KeepsO.next ?_
  refine State.afterAlgs_hof ?_ rfl ?_
  · intro t0 x1
    extract_lets -merge y2
    clear_value y2
    refine Keeps.step (State.spdmFree_keeps ..) rfl ?_
    refine Keeps.step (State.setSpdm_keeps ..) rfl ?_
    assumption
  assumption

theorem execGetMeasurements_keeps (f index signed s) : KeepsO (Fld.out ||| Fld.draws) s (execGetMeasurements f index signed s) := by
  unfold execGetMeasurements
  refine KeepsO.cut s (Keeps.refl _ s) fun h0 => ?_
  refine KeepsO.next ?_
  refine State.afterAlgs_hof ?_ rfl ?_
  · intro t0 x1
    extract_lets -merge y2 y3
    clear_value y2 y3
    refine Keeps.ite ?_ ?_
    · refine Keeps.step (State.spdmError_keeps ..) rfl ?_
      assumption
    · refine Keeps.ite ?_ ?_
      · refine Keeps.step (State.spdmFree_keeps ..) rfl ?_
        assumption
      · refine Keeps.step (State.emit_keeps ..) rfl ?_
        assumption
  assumption

theorem execIdeKm_keeps (f s) : KeepsO (Fld.regs ||| Fld.out ||| Fld.draws) s (execIdeKm f s) := by
  unfold execIdeKm
  refine KeepsO.cut s (Keeps.refl _ s) fun h0 => ?_
  refine KeepsO.next ?_
  refine Keeps.ite ?_ ?_
  · refine Keeps.step (State.spdmFree_keeps ..) rfl ?_
    refine Keeps.step (State.setB_keeps ..) rfl ?_
    assumption
  · refine Keeps.step (State.emit_keeps ..) rfl ?_
    assumption

theorem execGetCapabilities_keeps (f s) : KeepsO (Fld.out ||| Fld.draws ||| Fld.spdm) s (execGetCapabilities f s) := by
  unfold execGetCapabilities
  refine KeepsO.cut s (Keeps.refl _ s) fun h0 => ?_
  refine KeepsO.next ?_
  extract_lets -merge y0
  clear_value y0
  refine Keeps.ite ?_ ?_
  · refine Keeps.step (State.spdmError_keeps ..) rfl ?_
    assumption
  · refine Keeps.step (State.spdmFree_keeps ..) rfl ?_
    refine Keeps.step (State.setSpdm_keeps ..) rfl ?_
    assumption

theorem execFinish_keeps (f ok s) : KeepsO (Fld.out ||| Fld.draws ||| Fld.spdm) s (execFinish f ok s) := by
  unfold execFinish
  refine KeepsO.cut s (Keeps.refl _ s) fun h0 => ?_
  refine KeepsO.next ?_
  extract_lets -merge y0
  clear_value y0
  refine Keeps.ite ?_ ?_
  · refine Keeps.step (State.spdmError_keeps ..) rfl ?_
    assumption
  · refine Keeps.ite ?_ ?_
    · refine Keeps.step (State.spdmError_keeps ..) rfl ?_
      refine Keeps.step (State.setSpdm_keeps ..) rfl ?_
      assumption
    · refine Keeps.step (State.spdmFree_keeps ..) rfl ?_
      refine Keeps.step (State.setSpdm_keeps ..) rfl ?_
      assumption

theorem execChallenge_keeps (f slot s) : KeepsO (Fld.out ||| Fld.draws) s (execChallenge f slot s) := by
  unfold execChallenge
  refine KeepsO.cut s (Keeps.refl _ s) fun h0 => ?_
  refine KeepsO.next ?_
  refine State.afterAlgs_hof ?_ rfl ?_
  · intro t0 x1
    refine Keeps.ite ?_ ?_
    · refine Keeps.step (State.spdmError_keeps ..) rfl ?_
      assumption
    · refine Keeps.step (State.spdmFree_keeps ..) rfl ?_
      assumption
  assumption

end Sys2Proof.Machine
end

