-- ==== Sys2Proof/Laws/Rcv.lean ====
section
/-!
SUPPORT. What each function of Machine/Rcv.lean may change, and that it keeps the invariant of State.
-/
set_option linter.unusedVariables false
namespace Sys2Proof.Machine

theorem State.wdStart_keeps (s n) : Keeps (Fld.wd) s (State.wdStart s n) := by
  unfold State.wdStart
  refine Keeps.cut s (Keeps.refl _ s) fun h0 => ?_
  exact ((Keeps.set_wd _ h0 rfl) :)

theorem execWdKick_keeps (n v s) : KeepsO (Fld.wd) s (execWdKick n v s) := by
  unfold execWdKick
  refine KeepsO.cut s (Keeps.refl _ s) fun h0 => ?_
  refine KeepsO.next ?_
  refine Keeps.ite ?_ ?_
  · refine Keeps.step (State.wdStart_keeps ..) rfl ?_
    assumption
  · assumption

theorem State.pilotRun_keeps (s n) : Keeps (Fld.regs ||| Fld.wd) s (State.pilotRun s n) := by
  unfold State.pilotRun
  refine Keeps.cut s (Keeps.refl _ s) fun h0 => ?_
  refine Keeps.step (State.wdStart_keeps ..) rfl ?_
  refine Keeps.step (State.setReg_keeps ..) rfl ?_
  refine Keeps.step (State.setF_keeps ..) rfl ?_
  assumption

theorem State.rungRefuse_keeps (s) : Keeps (Fld.regs) s (State.rungRefuse s) := by
  unfold State.rungRefuse
  refine Keeps.cut s (Keeps.refl _ s) fun h0 => ?_
  refine Keeps.step (State.setB_keeps ..) rfl ?_
  assumption

theorem State.takeHeld_keeps (s r) : Keeps (Fld.regs ||| Fld.hdr ||| Fld.log ||| Fld.out ||| Fld.irq ||| Fld.draws ||| Fld.rungs ||| Fld.rungAt) s (State.takeHeld s r) := by
  unfold State.takeHeld
  refine Keeps.cut s (Keeps.refl _ s) fun h0 => ?_
  refine Keeps.step (State.rungGo_keeps ..) rfl ?_
  exact ((Keeps.set_rungs _ h0 rfl) :)

theorem execResumeCmd_keeps (rq s) : KeepsO (Fld.regs ||| Fld.hdr ||| Fld.log ||| Fld.out ||| Fld.irq ||| Fld.draws ||| Fld.rungs ||| Fld.rungAt) s (execResumeCmd rq s) := by
  unfold execResumeCmd
  refine KeepsO.cut s (Keeps.refl _ s) fun h0 => ?_
  refine KeepsO.next ?_
  refine Keeps.ite ?_ ?_
  · assumption
  · extract_lets -merge y0
    refine Keeps.cut (y0) ?_ fun h1 => ?_
    · unfold y0
      refine Keeps.step (State.setB_keeps ..) rfl ?_
      assumption
    clear_value y0
    split
    · rename_i a2 a3 a4
      refine Keeps.step (State.takeHeld_keeps ..) rfl ?_
      assumption
    · rename_i a5 a6
      assumption

theorem State.rungCommand_keeps (s kind target) : Keeps (Fld.regs ||| Fld.hdr ||| Fld.log ||| Fld.out ||| Fld.irq ||| Fld.draws ||| Fld.rungs ||| Fld.rungAt) s (State.rungCommand s kind target) := by
  unfold State.rungCommand
  refine Keeps.cut s (Keeps.refl _ s) fun h0 => ?_
  extract_lets -merge y0
  refine Keeps.cut (y0) ?_ fun h1 => ?_
  · unfold y0
    refine Keeps.step (State.setB_keeps ..) rfl ?_
    assumption
  clear_value y0
  split
  · rename_i a2 a3 a4
    refine Keeps.step (State.takeHeld_keeps ..) rfl ?_
    assumption
  · rename_i a5 a6
    refine Keeps.step (State.startRung_keeps ..) rfl ?_
    assumption

theorem execWarmCmd_keeps (rq s) : KeepsO (Fld.regs ||| Fld.hdr ||| Fld.log ||| Fld.out ||| Fld.irq ||| Fld.draws ||| Fld.rungs ||| Fld.rungAt) s (execWarmCmd rq s) := by
  unfold execWarmCmd
  refine KeepsO.cut s (Keeps.refl _ s) fun h0 => ?_
  refine KeepsO.next ?_
  refine Keeps.ite ?_ ?_
  · refine Keeps.step (State.rungCommand_keeps ..) rfl ?_
    assumption
  · assumption

theorem execPilRestart_keeps (n ok s) : KeepsO (Fld.regs ||| Fld.hdr ||| Fld.log ||| Fld.out ||| Fld.irq ||| Fld.draws ||| Fld.rungs ||| Fld.wd ||| Fld.rungAt) s (execPilRestart n ok s) := by
  unfold execPilRestart
  refine KeepsO.cut s (Keeps.refl _ s) fun h0 => ?_
  refine KeepsO.next ?_
  refine Keeps.ite ?_ ?_
  · assumption
  · refine Keeps.ite ?_ ?_
    · refine Keeps.step (State.raise_keeps ..) rfl ?_
      refine Keeps.step (State.pilotRun_keeps ..) rfl ?_
      assumption
    · refine Keeps.step (State.raise_keeps ..) rfl ?_
      assumption

theorem execEngineCmd_keeps (rq target s) : KeepsO (Fld.regs ||| Fld.hdr ||| Fld.log ||| Fld.out ||| Fld.irq ||| Fld.draws ||| Fld.rungs ||| Fld.rungAt) s (execEngineCmd rq target s) := by
  unfold execEngineCmd
  refine KeepsO.cut s (Keeps.refl _ s) fun h0 => ?_
  refine KeepsO.next ?_
  refine Keeps.ite ?_ ?_
  · assumption
  · refine Keeps.ite ?_ ?_
    · refine Keeps.step (State.rungRefuse_keeps ..) rfl ?_
      assumption
    · refine Keeps.step (State.rungCommand_keeps ..) rfl ?_
      refine Keeps.ite ?_ ?_
      · assumption
      · refine Keeps.step (State.setF_keeps ..) rfl ?_
        assumption

theorem execPwrcycCmd_keeps (rq s) : KeepsO (Fld.regs ||| Fld.hdr ||| Fld.log ||| Fld.out ||| Fld.irq ||| Fld.draws ||| Fld.rungs ||| Fld.rungAt) s (execPwrcycCmd rq s) := by
  unfold execPwrcycCmd
  refine KeepsO.cut s (Keeps.refl _ s) fun h0 => ?_
  refine KeepsO.next ?_
  refine Keeps.ite ?_ ?_
  · refine Keeps.step (State.rungCommand_keeps ..) rfl ?_
    assumption
  · assumption

theorem execCtxCmd_keeps (rq target s) : KeepsO (Fld.regs ||| Fld.hdr ||| Fld.log ||| Fld.out ||| Fld.irq ||| Fld.draws ||| Fld.rungs ||| Fld.rungAt) s (execCtxCmd rq target s) := by
  unfold execCtxCmd
  refine KeepsO.cut s (Keeps.refl _ s) fun h0 => ?_
  refine KeepsO.next ?_
  refine Keeps.ite ?_ ?_
  · assumption
  · refine Keeps.ite ?_ ?_
    · refine Keeps.step (State.rungRefuse_keeps ..) rfl ?_
      assumption
    · refine Keeps.step (State.rungCommand_keeps ..) rfl ?_
      assumption

theorem execPartitionCmd_keeps (rq target s) : KeepsO (Fld.regs ||| Fld.hdr ||| Fld.log ||| Fld.out ||| Fld.irq ||| Fld.draws ||| Fld.rungs ||| Fld.rungAt) s (execPartitionCmd rq target s) := by
  unfold execPartitionCmd
  refine KeepsO.cut s (Keeps.refl _ s) fun h0 => ?_
  refine KeepsO.next ?_
  refine Keeps.ite ?_ ?_
  · assumption
  · refine Keeps.ite ?_ ?_
    · refine Keeps.step (State.rungRefuse_keeps ..) rfl ?_
      assumption
    · refine Keeps.step (State.rungCommand_keeps ..) rfl ?_
      assumption

theorem execPilWdog_keeps (n s) : KeepsO (Fld.regs ||| Fld.hdr ||| Fld.log ||| Fld.out ||| Fld.irq ||| Fld.draws ||| Fld.leases ||| Fld.tickets ||| Fld.acks ||| Fld.jobs ||| Fld.plans ||| Fld.acct ||| Fld.ctxs ||| Fld.qps ||| Fld.landing ||| Fld.rungs ||| Fld.rows ||| Fld.tiles ||| Fld.harbour ||| Fld.hbPoison ||| Fld.hbWritten ||| Fld.frames ||| Fld.badSlots ||| Fld.owners ||| Fld.runs ||| Fld.imports ||| Fld.dyns ||| Fld.tests ||| Fld.flash ||| Fld.cal ||| Fld.flashq ||| Fld.ends ||| Fld.rplChecks ||| Fld.lost ||| Fld.wd ||| Fld.rungAt ||| Fld.sessions ||| Fld.torn) s (execPilWdog n s) := by
  unfold execPilWdog
  refine KeepsO.cut s (Keeps.refl _ s) fun h0 => ?_
  refine KeepsO.next ?_
  extract_lets -merge y0 y1 y2 y3
  clear_value y0 y1
  refine Keeps.cut (y2) ?_ fun h4 => ?_
  · unfold y2
    exact Keeps.step0 (n := Fld.wd ||| Fld.rungAt) h0 rfl (by constructor <;> first | exact fun e => absurd e (by decide) | exact fun _ => rfl) fun i => ⟨i.1, i.2.1, i.2.2.1, i.2.2.2⟩
  clear_value y2
  refine Keeps.cut (y3) ?_ fun h5 => ?_
  · unfold y3
    refine Keeps.step (State.raise_keeps ..) rfl ?_
    refine Keeps.step (State.incSat_keeps ..) rfl ?_
    assumption
  clear_value y3
  refine Keeps.ite ?_ ?_
  · assumption
  · refine Keeps.ite ?_ ?_
    · refine Keeps.ite ?_ ?_
      · refine Keeps.step (State.startRung_keeps ..) rfl ?_
        assumption
      · assumption
    · refine Keeps.ite ?_ ?_
      · refine Keeps.ite ?_ ?_
        · assumption
        · refine Keeps.step (State.startRung_keeps ..) rfl ?_
          refine Keeps.step (State.pilotReset_keeps ..) rfl ?_
          refine Keeps.step (State.noteEscalate_keeps ..) rfl ?_
          assumption
      · refine Keeps.step (State.pilotReset_keeps ..) rfl ?_
        assumption

end Sys2Proof.Machine
end

