-- ==== Sys2Proof/Laws/Log.lean ====
section
/-!
SUPPORT. What each function of Machine/Log.lean may change, and that it keeps the invariant of State.
-/
set_option linter.unusedVariables false
namespace Sys2Proof.Machine

theorem execUnpinAll_keeps (rq s) : KeepsO (Fld.log) s (execUnpinAll rq s) := by
  unfold execUnpinAll
  refine KeepsO.cut s (Keeps.refl _ s) fun h0 => ?_
  refine KeepsO.next ?_
  refine Keeps.ite ?_ ?_
  · extract_lets -merge y0
    clear_value y0
    exact ((Keeps.set_log _ h0 rfl) :)
  · assumption

theorem execUnpin_keeps (rq slot s) : KeepsO (Fld.log) s (execUnpin rq slot s) := by
  unfold execUnpin
  refine KeepsO.cut s (Keeps.refl _ s) fun h0 => ?_
  refine KeepsO.next ?_
  refine Keeps.ite ?_ ?_
  · extract_lets -merge y0
    clear_value y0
    exact ((Keeps.set_log _ h0 rfl) :)
  · assumption

theorem execIrqHoldoffEnd_keeps (f s) : KeepsO (Fld.out ||| Fld.irq) s (execIrqHoldoffEnd f s) := by
  unfold execIrqHoldoffEnd
  refine KeepsO.cut s (Keeps.refl _ s) fun h0 => ?_
  refine KeepsO.next ?_
  extract_lets -merge y0 y1
  clear_value y0
  refine Keeps.cut (y1) ?_ fun h2 => ?_
  · unfold y1
    exact ((Keeps.set_irq _ h0 rfl) :)
  clear_value y1
  refine Keeps.ite ?_ ?_
  · assumption
  · refine Keeps.ite ?_ ?_
    · refine Keeps.step (State.signal_keeps ..) rfl ?_
      assumption
    · assumption

theorem State.coalesce_keeps (s) : Keeps (Fld.regs ||| Fld.hdr ||| Fld.log ||| Fld.out ||| Fld.irq ||| Fld.draws ||| Fld.rungs ||| Fld.rungAt) s (State.coalesce s) := by
  unfold State.coalesce
  refine Keeps.cut s (Keeps.refl _ s) fun h0 => ?_
  split
  · rename_i a0 a1
    assumption
  · rename_i a2 a3 a4 a5
    extract_lets -merge y6 y7 y8
    clear_value y6 y7
    refine Keeps.cut (y8) ?_ fun h9 => ?_
    · unfold y8
      exact ((Keeps.set_log _ h0 rfl) :)
    clear_value y8
    split
    · rename_i a10 a11 a12 a13
      refine Keeps.cut (a11) ?_ fun h14 => ?_
      · refine Keeps.of_fst a13 ?_
        refine Keeps.step (State.startRec_keeps ..) rfl ?_
        assumption
      extract_lets -merge y15 y16 y17
      refine Keeps.cut (y15) ?_ fun h18 => ?_
      · unfold y15
        refine Keeps.step (State.incSat_keeps ..) rfl ?_
        assumption
      clear_value y15 y16
      refine Keeps.cut (y17) ?_ fun h19 => ?_
      · unfold y17
        refine Keeps.ite ?_ ?_
        · assumption
        · exact ((Keeps.set_log _ h18 rfl) :)
      clear_value y17
      refine Keeps.ite ?_ ?_
      · refine Keeps.step (State.raise_keeps ..) rfl ?_
        assumption
      · assumption

theorem execLogCommit_keeps (s) : KeepsO (Fld.regs ||| Fld.hdr ||| Fld.log ||| Fld.out ||| Fld.irq ||| Fld.draws ||| Fld.rungs ||| Fld.rungAt) s (execLogCommit s) := by
  unfold execLogCommit
  refine KeepsO.cut s (Keeps.refl _ s) fun h0 => ?_
  refine KeepsO.next ?_
  split
  · rename_i a0 a1
    assumption
  · rename_i a2 a3 a4 a5
    refine Keeps.ite ?_ ?_
    · assumption
    · extract_lets -merge y6 y7 y8
      clear_value y6 y7 y8
      refine Keeps.step (State.coalesce_keeps ..) rfl ?_
      exact ((Keeps.set_log _ h0 rfl) :)

end Sys2Proof.Machine
end

