-- ==== Sys2Proof/Laws/Boot.lean ====
section
/-!
SUPPORT. What each function of Machine/Boot.lean may change, and that it keeps the invariant of State.
-/
set_option linter.unusedVariables false
namespace Sys2Proof.Machine

theorem State.profileRpl_keeps (s changing) : Keeps (Fld.regs) s (State.profileRpl s changing) := by
  unfold State.profileRpl
  refine Keeps.cut s (Keeps.refl _ s) fun h0 => ?_
  refine Keeps.foldl ?_ ?_
  · intro t0 x1 h2
    extract_lets -merge y3
    clear_value y3
    refine Keeps.foldl ?_ ?_
    · intro t4 x5 h6
      refine Keeps.step (State.setReg_keeps ..) rfl ?_
      assumption
    assumption
  assumption

theorem execPerstNDeassert_keeps (s) : KeepsO (Fld.regs ||| Fld.boot) s (execPerstNDeassert s) := by
  unfold execPerstNDeassert
  refine KeepsO.cut s (Keeps.refl _ s) fun h0 => ?_
  refine KeepsO.next ?_
  refine Keeps.ite ?_ ?_
  · assumption
  · extract_lets -merge y0 y1 y2 y3
    clear_value y0
    refine Keeps.cut (y1) ?_ fun h4 => ?_
    · unfold y1
      exact ((Keeps.set_boot _ h0 rfl) :)
    clear_value y2
    refine Keeps.cut (y3) ?_ fun h5 => ?_
    · unfold y3
      exact ((Keeps.set_boot _ h4 rfl) :)
    refine Keeps.ite ?_ ?_
    · assumption
    · refine Keeps.ite ?_ ?_
      · refine Keeps.step (State.setF_keeps ..) rfl ?_
        assumption
      · assumption

theorem State.profileTiles_keeps (s changing) : Keeps (Fld.regs ||| Fld.tiles) s (State.profileTiles s changing) := by
  unfold State.profileTiles
  refine Keeps.cut s (Keeps.refl _ s) fun h0 => ?_
  refine Keeps.foldl ?_ ?_
  · intro t0 x1 h2
    extract_lets -merge y3 y4
    refine Keeps.cut (y3) ?_ fun h5 => ?_
    · unfold y3
      refine Keeps.ite ?_ ?_
      · assumption
      · refine Keeps.step (State.writeGrid_keeps ..) rfl ?_
        assumption
    clear_value y3
    refine Keeps.cut (y4) ?_ fun h6 => ?_
    · unfold y4
      refine Keeps.step (State.setB_keeps ..) rfl ?_
      assumption
    clear_value y4
    split
    · rename_i a7 a8 a9
      refine Keeps.ite ?_ ?_
      · refine Keeps.step (State.setB_keeps ..) rfl ?_
        assumption
      · assumption
    · rename_i a10 a11
      assumption
  assumption

theorem State.bootFailed_keeps (s) : Keeps (Fld.boot) s (State.bootFailed s) := by
  unfold State.bootFailed
  refine Keeps.cut s (Keeps.refl _ s) fun h0 => ?_
  refine Keeps.ite ?_ ?_
  · assumption
  · extract_lets -merge y0
    clear_value y0
    exact ((Keeps.set_boot _ h0 rfl) :)

theorem State.profDone_keeps (s) : Keeps (Fld.regs) s (State.profDone s) := by
  unfold State.profDone
  refine Keeps.cut s (Keeps.refl _ s) fun h0 => ?_
  refine Keeps.ite ?_ ?_
  · refine Keeps.step (State.setF_keeps ..) rfl ?_
    assumption
  · assumption

theorem State.profErr_keeps (s target err) : Keeps (Fld.regs) s (State.profErr s target err) := by
  unfold State.profErr
  refine Keeps.cut s (Keeps.refl _ s) fun h0 => ?_
  refine Keeps.step (State.setF_keeps ..) rfl ?_
  refine Keeps.step (State.setF_keeps ..) rfl ?_
  assumption

theorem State.writeMgmt_keeps (s keys) : Keeps (Fld.leases ||| Fld.flash ||| Fld.flashq) s (State.writeMgmt s keys) := by
  unfold State.writeMgmt
  refine Keeps.cut s (Keeps.refl _ s) fun h0 => ?_
  refine Keeps.step (State.flashAsk_keeps ..) rfl ?_
  assumption

theorem State.tearWrites_keeps (s) : Keeps (Fld.draws ||| Fld.leases ||| Fld.flash ||| Fld.flashq) s (State.tearWrites s) := by
  unfold State.tearWrites
  refine Keeps.cut s (Keeps.refl _ s) fun h0 => ?_
  split
  · rename_i a0 a1
    assumption
  · rename_i a2 a3 a4 a5
    extract_lets -merge y6 y7
    refine Keeps.cut (y6) ?_ fun h8 => ?_
    · unfold y6
      refine Keeps.ite ?_ ?_
      · assumption
      · refine Keeps.step (State.flashTear_keeps ..) rfl ?_
        assumption
    clear_value y6 y7
    refine Keeps.step (State.flashStart_keeps ..) rfl ?_
    exact Keeps.step0 (n := Fld.leases ||| Fld.flashq) h8 rfl (by constructor <;> first | exact fun e => absurd e (by decide) | exact fun _ => rfl) fun i => ⟨i.1, i.2.1, i.2.2.1, i.2.2.2⟩

theorem State.abandonSelect_keeps (s) : Keeps (Fld.regs ||| Fld.boot) s (State.abandonSelect s) := by
  unfold State.abandonSelect
  refine Keeps.cut s (Keeps.refl _ s) fun h0 => ?_
  refine Keeps.ite ?_ ?_
  · assumption
  · extract_lets -merge y0 y1
    clear_value y0
    refine Keeps.cut (y1) ?_ fun h2 => ?_
    · unfold y1
      exact ((Keeps.set_boot _ h0 rfl) :)
    clear_value y1
    refine Keeps.step (State.setF_keeps ..) rfl ?_
    refine Keeps.step (State.setF_keeps ..) rfl ?_
    assumption

theorem execWriteProfile_keeps (rq target s) : KeepsO (Fld.regs ||| Fld.leases ||| Fld.flash ||| Fld.flashq) s (execWriteProfile rq target s) := by
  unfold execWriteProfile
  refine KeepsO.cut s (Keeps.refl _ s) fun h0 => ?_
  refine KeepsO.next ?_
  extract_lets -merge y0 y1
  clear_value y0
  refine Keeps.cut (y1) ?_ fun h2 => ?_
  · unfold y1
    refine Keeps.step (State.setF_keeps ..) rfl ?_
    refine Keeps.step (State.profErr_keeps ..) rfl ?_
    assumption
  clear_value y1
  refine Keeps.ite ?_ ?_
  · assumption
  · refine Keeps.ite ?_ ?_
    · refine Keeps.step (State.profErr_keeps ..) rfl ?_
      assumption
    · refine Keeps.ite ?_ ?_
      · refine Keeps.step (State.profErr_keeps ..) rfl ?_
        assumption
      · refine Keeps.step (State.flashAsk_keeps ..) rfl ?_
        assumption

theorem State.movePages_keeps (s c old new) : Keeps (Fld.regs ||| Fld.lines ||| Fld.tags) s (State.movePages s c old new) := by
  unfold State.movePages
  refine Keeps.cut s (Keeps.refl _ s) fun h0 => ?_
  refine Keeps.foldl ?_ ?_
  · intro t0 x1 h2
    refine Keeps.ite ?_ ?_
    · refine Keeps.foldl ?_ ?_
      · intro t3 x4 h5
        refine Keeps.step (State.setTag_keeps ..) rfl ?_
        assumption
      assumption
    · refine Keeps.ite ?_ ?_
      · extract_lets -merge y6 y7
        clear_value y6
        refine Keeps.cut (y7) ?_ fun h8 => ?_
        · unfold y7
          refine Keeps.step (State.tagPages_keeps ..) rfl ?_
          assumption
        clear_value y7
        refine Keeps.ite ?_ ?_
        · refine Keeps.step (State.setB_keeps ..) rfl ?_
          assumption
        · assumption
      · assumption
  assumption

theorem State.bootCal_keeps (s snap) : Keeps (Fld.regs ||| Fld.trims ||| Fld.cal) s (State.bootCal s snap) := by
  unfold State.bootCal
  refine Keeps.cut s (Keeps.refl _ s) fun h0 => ?_
  extract_lets -merge y0
  refine Keeps.cut (y0) ?_ fun h1 => ?_
  · unfold y0
    refine Keeps.elim ?_ ?_
    · assumption
    · intro x2
      refine Keeps.step (State.setReg_keeps ..) rfl ?_
      assumption
  clear_value y0
  refine Keeps.ite ?_ ?_
  · refine Keeps.step (State.startRun_keeps ..) rfl ?_
    assumption
  · refine Keeps.elim ?_ ?_
    · refine Keeps.step (State.setB_keeps ..) rfl ?_
      assumption
    · intro x3
      refine Keeps.step (State.startRun_keeps ..) rfl ?_
      refine Keeps.step (State.loadSnapshot_keeps ..) rfl ?_
      assumption

theorem execVddAonLoss_keeps (s : State) : KeepsO (Fld.regs ||| Fld.hdr ||| Fld.shadow ||| Fld.staged ||| Fld.heldWrites ||| Fld.fencing ||| Fld.pendWas ||| Fld.log ||| Fld.irq ||| Fld.badAccTick ||| Fld.draws ||| Fld.leases ||| Fld.profile ||| Fld.count ||| Fld.tide ||| Fld.tickets ||| Fld.acks ||| Fld.jobs ||| Fld.nextJob ||| Fld.plans ||| Fld.nextPlan ||| Fld.acct ||| Fld.slu ||| Fld.ctxs ||| Fld.basin ||| Fld.lines ||| Fld.tags ||| Fld.qps ||| Fld.ovf ||| Fld.landing ||| Fld.rungs ||| Fld.rows ||| Fld.tiles ||| Fld.trims ||| Fld.weir ||| Fld.nextRep ||| Fld.harbour ||| Fld.hbPoison ||| Fld.hbWritten ||| Fld.frames ||| Fld.badSlots ||| Fld.owners ||| Fld.runs ||| Fld.nextRun ||| Fld.refetch ||| Fld.hbr ||| Fld.scrubFrom ||| Fld.swaps ||| Fld.imports ||| Fld.dyns ||| Fld.tests ||| Fld.flash ||| Fld.cal ||| Fld.flashq ||| Fld.ownerKeys ||| Fld.spdm ||| Fld.ends ||| Fld.rrCtx ||| Fld.rrQ ||| Fld.rplChecks ||| Fld.lost ||| Fld.thm ||| Fld.wd ||| Fld.rungAt ||| Fld.flrs ||| Fld.sessions ||| Fld.mgmtKeys ||| Fld.authTick ||| Fld.views ||| Fld.boot ||| Fld.push ||| Fld.tap ||| Fld.mctp ||| Fld.torn ||| Fld.grantWas ||| Fld.power ||| Fld.reconAt) s (execVddAonLoss s) := by
  unfold execVddAonLoss
  refine KeepsO.next (Keeps.ite (Keeps.refl _ s) ?_)
  extract_lets -merge t
  have ht : Keeps (Fld.flash ||| Fld.draws) s t := by
    unfold t
    split
    · exact Keeps.refl _ s
    · exact Keeps.step (State.flashTear_keeps ..) rfl (Keeps.refl _ s)
  refine Keeps.trans (ht.mono rfl) ⟨?_, fun i => ⟨rfl, rfl, i.2.2.1, rfl, rfl⟩⟩
  constructor <;> first | exact fun e => absurd e (by decide) | exact fun _ => rfl

theorem execWriteIndex_keeps (rq target s) : KeepsO (Fld.regs ||| Fld.leases ||| Fld.flash ||| Fld.flashq) s (execWriteIndex rq target s) := by
  unfold execWriteIndex
  refine KeepsO.cut s (Keeps.refl _ s) fun h0 => ?_
  refine KeepsO.next ?_
  extract_lets -merge y0 y1
  clear_value y0
  refine Keeps.cut (y1) ?_ fun h2 => ?_
  · unfold y1
    refine Keeps.step (State.setF_keeps ..) rfl ?_
    refine Keeps.step (State.profErr_keeps ..) rfl ?_
    assumption
  clear_value y1
  refine Keeps.ite ?_ ?_
  · assumption
  · refine Keeps.ite ?_ ?_
    · refine Keeps.step (State.profErr_keeps ..) rfl ?_
      assumption
    · refine Keeps.step (State.flashAsk_keeps ..) rfl ?_
      assumption

theorem State.coreLost_keeps (s : State) : Keeps (Fld.regs ||| Fld.hdr ||| Fld.shadow ||| Fld.staged ||| Fld.heldWrites ||| Fld.fencing ||| Fld.pendWas ||| Fld.irq ||| Fld.badAccTick ||| Fld.draws ||| Fld.leases ||| Fld.profile ||| Fld.count ||| Fld.tide ||| Fld.tickets ||| Fld.acks ||| Fld.jobs ||| Fld.plans ||| Fld.acct ||| Fld.slu ||| Fld.ctxs ||| Fld.basin ||| Fld.lines ||| Fld.tags ||| Fld.qps ||| Fld.ovf ||| Fld.landing ||| Fld.rungs ||| Fld.rows ||| Fld.tiles ||| Fld.trims ||| Fld.weir ||| Fld.harbour ||| Fld.hbPoison ||| Fld.hbWritten ||| Fld.frames ||| Fld.badSlots ||| Fld.owners ||| Fld.runs ||| Fld.refetch ||| Fld.hbr ||| Fld.scrubFrom ||| Fld.swaps ||| Fld.imports ||| Fld.dyns ||| Fld.tests ||| Fld.flash ||| Fld.cal ||| Fld.flashq ||| Fld.ownerKeys ||| Fld.spdm ||| Fld.ends ||| Fld.rrCtx ||| Fld.rrQ ||| Fld.rplChecks ||| Fld.lost ||| Fld.thm ||| Fld.wd ||| Fld.rungAt ||| Fld.flrs ||| Fld.boot ||| Fld.push ||| Fld.torn ||| Fld.grantWas ||| Fld.power ||| Fld.reconAt) s s.coreLost := by
  unfold State.coreLost
  dsimp only
  refine Keeps.trans (t := s.tearWrites) (Keeps.step (State.tearWrites_keeps ..) rfl (Keeps.refl _ s)) ⟨?_, fun i => ⟨rfl, rfl, i.2.2.1, pendSub_filter _ i.2.2.2.1, rfl⟩⟩
  constructor <;> first | exact fun e => absurd e (by decide) | exact fun _ => rfl

theorem State.askIslTests_keeps (s) : Keeps (Fld.tests) s (State.askIslTests s) := by
  unfold State.askIslTests
  refine Keeps.cut s (Keeps.refl _ s) fun h0 => ?_
  refine Keeps.foldl ?_ ?_
  · intro t0 x1 h2
    refine Keeps.step (State.askIslTest_keeps ..) rfl ?_
    assumption
  assumption

theorem State.coreHeld_keeps (s) : Keeps (Fld.regs ||| Fld.hdr ||| Fld.shadow ||| Fld.staged ||| Fld.heldWrites ||| Fld.fencing ||| Fld.pendWas ||| Fld.irq ||| Fld.badAccTick ||| Fld.draws ||| Fld.leases ||| Fld.profile ||| Fld.count ||| Fld.tide ||| Fld.tickets ||| Fld.acks ||| Fld.jobs ||| Fld.plans ||| Fld.acct ||| Fld.slu ||| Fld.ctxs ||| Fld.basin ||| Fld.lines ||| Fld.tags ||| Fld.qps ||| Fld.ovf ||| Fld.landing ||| Fld.rungs ||| Fld.rows ||| Fld.tiles ||| Fld.trims ||| Fld.weir ||| Fld.harbour ||| Fld.hbPoison ||| Fld.hbWritten ||| Fld.frames ||| Fld.badSlots ||| Fld.owners ||| Fld.runs ||| Fld.refetch ||| Fld.hbr ||| Fld.scrubFrom ||| Fld.swaps ||| Fld.imports ||| Fld.dyns ||| Fld.tests ||| Fld.flash ||| Fld.cal ||| Fld.flashq ||| Fld.ownerKeys ||| Fld.spdm ||| Fld.ends ||| Fld.rrCtx ||| Fld.rrQ ||| Fld.rplChecks ||| Fld.lost ||| Fld.thm ||| Fld.wd ||| Fld.rungAt ||| Fld.flrs ||| Fld.boot ||| Fld.push ||| Fld.torn ||| Fld.grantWas ||| Fld.power ||| Fld.reconAt) s (State.coreHeld s) := by
  unfold State.coreHeld
  refine Keeps.cut s (Keeps.refl _ s) fun h0 => ?_
  extract_lets -merge y0 y1 y2
  refine Keeps.cut (y0) ?_ fun h3 => ?_
  · unfold y0
    refine Keeps.step (State.coreLost_keeps ..) rfl ?_
    assumption
  clear_value y0
  refine Keeps.cut (y1) ?_ fun h4 => ?_
  · unfold y1
    refine Keeps.step (State.setReg_keeps ..) rfl ?_
    refine Keeps.step (State.setReg_keeps ..) rfl ?_
    refine Keeps.step (State.setReg_keeps ..) rfl ?_
    refine Keeps.step (State.setF_keeps ..) rfl ?_
    assumption
  clear_value y1
  refine Keeps.cut (y2) ?_ fun h5 => ?_
  · unfold y2
    refine Keeps.step (State.setF_keeps ..) rfl ?_
    refine Keeps.step (State.setF_keeps ..) rfl ?_
    assumption
  clear_value y2
  refine Keeps.ite ?_ ?_
  · assumption
  · refine Keeps.step (State.setF_keeps ..) rfl ?_
    assumption

theorem State.fwNote_keeps (s b sig) : Keeps (Fld.regs ||| Fld.hdr ||| Fld.log ||| Fld.out ||| Fld.irq ||| Fld.draws ||| Fld.rungs ||| Fld.rungAt) s (State.fwNote s b sig) := by
  unfold State.fwNote
  refine Keeps.cut s (Keeps.refl _ s) fun h0 => ?_
  refine Keeps.ite ?_ ?_
  · refine Keeps.step (State.raise_keeps ..) rfl ?_
    refine Keeps.step (State.incSat_keeps ..) rfl ?_
    assumption
  · assumption

theorem execBootPwrgdLoss_keeps (s) : KeepsO (Fld.regs ||| Fld.hdr ||| Fld.shadow ||| Fld.staged ||| Fld.heldWrites ||| Fld.fencing ||| Fld.pendWas ||| Fld.log ||| Fld.out ||| Fld.irq ||| Fld.badAccTick ||| Fld.draws ||| Fld.leases ||| Fld.profile ||| Fld.count ||| Fld.tide ||| Fld.tickets ||| Fld.acks ||| Fld.jobs ||| Fld.plans ||| Fld.acct ||| Fld.slu ||| Fld.ctxs ||| Fld.basin ||| Fld.lines ||| Fld.tags ||| Fld.qps ||| Fld.ovf ||| Fld.landing ||| Fld.rungs ||| Fld.rows ||| Fld.tiles ||| Fld.trims ||| Fld.weir ||| Fld.harbour ||| Fld.hbPoison ||| Fld.hbWritten ||| Fld.frames ||| Fld.badSlots ||| Fld.owners ||| Fld.runs ||| Fld.refetch ||| Fld.hbr ||| Fld.scrubFrom ||| Fld.swaps ||| Fld.imports ||| Fld.dyns ||| Fld.tests ||| Fld.flash ||| Fld.cal ||| Fld.flashq ||| Fld.ownerKeys ||| Fld.spdm ||| Fld.ends ||| Fld.rrCtx ||| Fld.rrQ ||| Fld.rplChecks ||| Fld.lost ||| Fld.thm ||| Fld.wd ||| Fld.rungAt ||| Fld.flrs ||| Fld.boot ||| Fld.push ||| Fld.torn ||| Fld.grantWas ||| Fld.power ||| Fld.reconAt) s (execBootPwrgdLoss s) := by
  unfold execBootPwrgdLoss
  refine KeepsO.cut s (Keeps.refl _ s) fun h0 => ?_
  refine KeepsO.next ?_
  refine Keeps.ite ?_ ?_
  · assumption
  · extract_lets -merge y0 y1 y2
    refine Keeps.cut (y0) ?_ fun h3 => ?_
    · unfold y0
      refine Keeps.step (State.bootFailed_keeps ..) rfl ?_
      assumption
    clear_value y0
    refine Keeps.cut (y1) ?_ fun h4 => ?_
    · unfold y1
      refine Keeps.step (State.coreHeld_keeps ..) rfl ?_
      assumption
    clear_value y1 y2
    refine Keeps.step (State.raise_keeps ..) rfl ?_
    exact ((Keeps.set_boot _ h4 rfl) :)

theorem State.selectBank_keeps (s pat0 pat1) : Keeps (Fld.regs ||| Fld.hdr ||| Fld.log ||| Fld.out ||| Fld.irq ||| Fld.draws ||| Fld.rungs ||| Fld.rungAt) s (State.selectBank s pat0 pat1) := by
  unfold State.selectBank
  refine Keeps.cut s (Keeps.refl _ s) fun h0 => ?_
  extract_lets -merge y0 y1 y2 y3 y4 y5
  clear_value y2 y3
  refine Keeps.cut (y4) ?_ fun h6 => ?_
  · unfold y4
    refine Keeps.step (State.setF_keeps ..) rfl ?_
    assumption
  clear_value y4 y5
  refine Keeps.ite ?_ ?_
  · refine Keeps.step (State.raise_keeps ..) rfl ?_
    refine Keeps.step (State.setB_keeps ..) rfl ?_
    assumption
  · refine Keeps.step (State.setReg_keeps ..) rfl ?_
    refine Keeps.step (State.setF_keeps ..) rfl ?_
    assumption

theorem State.bootSlot_keeps (s other) : Keeps (Fld.regs ||| Fld.hdr ||| Fld.log ||| Fld.out ||| Fld.irq ||| Fld.draws ||| Fld.rungs ||| Fld.rungAt ||| Fld.boot) s (State.bootSlot s other) := by
  unfold State.bootSlot
  refine Keeps.cut s (Keeps.refl _ s) fun h0 => ?_
  refine Keeps.ite ?_ ?_
  · extract_lets -merge y0 y1
    refine Keeps.cut (y0) ?_ fun h2 => ?_
    · unfold y0
      refine Keeps.step (State.setB_keeps ..) rfl ?_
      refine Keeps.step (State.setF_keeps ..) rfl ?_
      assumption
    clear_value y0 y1
    refine Keeps.step (State.raise_keeps ..) rfl ?_
    exact ((Keeps.set_boot _ h2 rfl) :)
  · assumption

theorem State.fwStaged_keeps (s) : Keeps (Fld.regs ||| Fld.hdr ||| Fld.log ||| Fld.out ||| Fld.irq ||| Fld.draws ||| Fld.rungs ||| Fld.rungAt) s (State.fwStaged s) := by
  unfold State.fwStaged
  refine Keeps.cut s (Keeps.refl _ s) fun h0 => ?_
  refine Keeps.step (State.raise_keeps ..) rfl ?_
  refine Keeps.step (State.setB_keeps ..) rfl ?_
  refine Keeps.step (State.setF_keeps ..) rfl ?_
  assumption

theorem State.fwReject_keeps (s err) : Keeps (Fld.regs ||| Fld.hdr ||| Fld.log ||| Fld.out ||| Fld.irq ||| Fld.draws ||| Fld.rungs ||| Fld.rungAt) s (State.fwReject s err) := by
  unfold State.fwReject
  refine Keeps.cut s (Keeps.refl _ s) fun h0 => ?_
  refine Keeps.step (State.raise_keeps ..) rfl ?_
  refine Keeps.step (State.setF_keeps ..) rfl ?_
  assumption

theorem execHbrStackFail_keeps (h s) : KeepsO (Fld.regs ||| Fld.hdr ||| Fld.log ||| Fld.out ||| Fld.irq ||| Fld.draws ||| Fld.rungs ||| Fld.rungAt) s (execHbrStackFail h s) := by
  unfold execHbrStackFail
  refine KeepsO.cut s (Keeps.refl _ s) fun h0 => ?_
  refine KeepsO.next ?_
  refine Keeps.ite ?_ ?_
  · assumption
  · extract_lets -merge y0
    refine Keeps.cut (y0) ?_ fun h1 => ?_
    · unfold y0
      refine Keeps.step (State.fenceDp_keeps ..) rfl ?_
      refine Keeps.step (State.setB_keeps ..) rfl ?_
      refine Keeps.step (State.setB_keeps ..) rfl ?_
      assumption
    clear_value y0
    refine Keeps.step (State.raise_keeps ..) rfl ?_
    assumption

theorem execBootReady_keeps (s) : KeepsO (Fld.regs ||| Fld.hdr ||| Fld.log ||| Fld.out ||| Fld.irq ||| Fld.draws ||| Fld.rungs ||| Fld.rungAt ||| Fld.boot) s (execBootReady s) := by
  unfold execBootReady
  refine KeepsO.cut s (Keeps.refl _ s) fun h0 => ?_
  refine KeepsO.next ?_
  refine Keeps.ite ?_ ?_
  · assumption
  · split
    · rename_i a0 a1 a2 a3
      refine Keeps.cut (a2) ?_ fun h4 => ?_
      · refine Keeps.of_snd a3 ?_
        refine Keeps.step (State.nextDraw_keeps ..) rfl ?_
        assumption
      extract_lets -merge y5 y6 y7
      refine Keeps.cut (y5) ?_ fun h8 => ?_
      · unfold y5
        refine Keeps.step (State.setB_keeps ..) rfl ?_
        refine Keeps.step (State.setF_keeps ..) rfl ?_
        assumption
      clear_value y5
      refine Keeps.cut (y6) ?_ fun h9 => ?_
      · unfold y6
        refine Keeps.step (State.setF_keeps ..) rfl ?_
        assumption
      clear_value y6 y7
      refine Keeps.step (State.raise_keeps ..) rfl ?_
      exact ((Keeps.set_boot _ h9 rfl) :)

theorem State.readProfile_keeps (s p) : Keeps (Fld.regs ||| Fld.hdr ||| Fld.log ||| Fld.out ||| Fld.irq ||| Fld.draws ||| Fld.rungs ||| Fld.rungAt) s (State.readProfile s p).1 := by
  unfold State.readProfile
  refine Keeps.cut s (Keeps.refl _ s) fun h0 => ?_
  split
  · rename_i a0 a1 a2 a3
    refine Keeps.cut (a1) ?_ fun h4 => ?_
    · refine Keeps.of_fst a3 ?_
      refine Keeps.step (State.readPair_keeps ..) rfl ?_
      assumption
    dsimp only
    assumption

theorem State.readMgmt_keeps (s) : Keeps (Fld.regs ||| Fld.hdr ||| Fld.log ||| Fld.out ||| Fld.irq ||| Fld.draws ||| Fld.rungs ||| Fld.rungAt ||| Fld.mgmtKeys) s (State.readMgmt s) := by
  unfold State.readMgmt
  refine Keeps.cut s (Keeps.refl _ s) fun h0 => ?_
  split
  · rename_i a0 a1 a2 a3
    refine Keeps.cut (a1) ?_ fun h4 => ?_
    · refine Keeps.of_fst a3 ?_
      refine Keeps.step (State.readPair_keeps ..) rfl ?_
      assumption
    split
    · rename_i a5
      refine Keeps.step (State.setReg_keeps ..) rfl ?_
      refine Keeps.step (State.setReg_keeps ..) rfl ?_
      refine Keeps.step (State.setReg_keeps ..) rfl ?_
      assumption
    · rename_i a6 a7 a8 a9 a10
      extract_lets -merge y11 y12
      refine Keeps.cut (y12) ?_ fun h13 => ?_
      · unfold y12
        refine Keeps.step (State.setReg_keeps ..) rfl ?_
        refine Keeps.step (State.setReg_keeps ..) rfl ?_
        refine Keeps.step (State.setReg_keeps ..) rfl ?_
        refine Keeps.step (State.setReg_keeps ..) rfl ?_
        assumption
      clear_value y12
      exact ((Keeps.set_mgmtKeys _ h13 rfl) :)

theorem execVddAonGood_keeps (mode sigA sigB s) : KeepsO (Fld.regs ||| Fld.hdr ||| Fld.log ||| Fld.out ||| Fld.irq ||| Fld.draws ||| Fld.rungs ||| Fld.wd ||| Fld.rungAt ||| Fld.mgmtKeys ||| Fld.boot) s (execVddAonGood mode sigA sigB s) := by
  unfold execVddAonGood
  refine KeepsO.cut s (Keeps.refl _ s) fun h0 => ?_
  refine KeepsO.next ?_
  refine Keeps.ite ?_ ?_
  · assumption
  · extract_lets -merge y0 y1
    clear_value y0
    refine Keeps.cut (y1) ?_ fun h2 => ?_
    · unfold y1
      exact ((Keeps.set_boot _ h0 rfl) :)
    clear_value y1
    split
    · rename_i a3 a4 a5 a6
      refine Keeps.cut (a5) ?_ fun h7 => ?_
      · refine Keeps.of_snd a6 ?_
        refine Keeps.step (State.nextDraw_keeps ..) rfl ?_
        assumption
      extract_lets -merge y8 y9 y10 y11 y12
      refine Keeps.cut (y8) ?_ fun h13 => ?_
      · unfold y8
        refine Keeps.step (State.set64_keeps ..) rfl ?_
        assumption
      clear_value y8
      refine Keeps.cut (y9) ?_ fun h14 => ?_
      · unfold y9
        refine Keeps.step (State.setReg_keeps ..) rfl ?_
        assumption
      clear_value y9
      refine Keeps.cut (y10) ?_ fun h15 => ?_
      · unfold y10
        refine Keeps.step (State.fwNote_keeps ..) rfl ?_
        refine Keeps.step (State.fwNote_keeps ..) rfl ?_
        assumption
      clear_value y10
      refine Keeps.cut (y12) ?_ fun h16 => ?_
      · unfold y12
        split
        · rename_i a17 a18 a19 a20
          refine Keeps.step (State.setB_keeps ..) rfl ?_
          assumption
        · rename_i a21 a22 a23 a24
          refine Keeps.step (State.setB_keeps ..) rfl ?_
          assumption
        · rename_i a25 a26 a27 a28
          refine Keeps.step (State.setB_keeps ..) rfl ?_
          assumption
        · rename_i a29 a30 a31 a32
          refine Keeps.step (State.setB_keeps ..) rfl ?_
          assumption
      clear_value y12
      refine Keeps.ite ?_ ?_
      · refine Keeps.step (State.setF_keeps ..) rfl ?_
        assumption
      · refine Keeps.step (State.pilotRun_keeps ..) rfl ?_
        refine Keeps.step (State.readMgmt_keeps ..) rfl ?_
        assumption

theorem execFwWrite_keeps (rq image ver svn ok s) : KeepsO (Fld.regs ||| Fld.hdr ||| Fld.log ||| Fld.out ||| Fld.irq ||| Fld.draws ||| Fld.leases ||| Fld.rungs ||| Fld.flash ||| Fld.flashq ||| Fld.rungAt) s (execFwWrite rq image ver svn ok s) := by
  unfold execFwWrite
  refine KeepsO.cut s (Keeps.refl _ s) fun h0 => ?_
  refine KeepsO.next ?_
  extract_lets -merge y0 y1
  clear_value y0
  refine Keeps.cut (y1) ?_ fun h2 => ?_
  · unfold y1
    refine Keeps.step (State.setB_keeps ..) rfl ?_
    refine Keeps.step (State.setF_keeps ..) rfl ?_
    refine Keeps.step (State.setF_keeps ..) rfl ?_
    assumption
  clear_value y1
  refine Keeps.ite ?_ ?_
  · assumption
  · refine Keeps.ite ?_ ?_
    · refine Keeps.step (State.fwReject_keeps ..) rfl ?_
      assumption
    · refine Keeps.ite ?_ ?_
      · refine Keeps.step (State.fwReject_keeps ..) rfl ?_
        assumption
      · refine Keeps.ite ?_ ?_
        · refine Keeps.step (State.fwReject_keeps ..) rfl ?_
          refine Keeps.step (State.raise_keeps ..) rfl ?_
          refine Keeps.step (State.incSat_keeps ..) rfl ?_
          assumption
        · refine Keeps.ite ?_ ?_
          · refine Keeps.step (State.fwReject_keeps ..) rfl ?_
            assumption
          · refine Keeps.step (State.flashAsk_keeps ..) rfl ?_
            assumption

theorem State.coreBoot_keeps (s pat0 pat1) : Keeps (Fld.regs ||| Fld.hdr ||| Fld.log ||| Fld.out ||| Fld.irq ||| Fld.draws ||| Fld.rungs ||| Fld.ownerKeys ||| Fld.wd ||| Fld.rungAt ||| Fld.boot) s (State.coreBoot s pat0 pat1) := by
  unfold State.coreBoot
  refine Keeps.cut s (Keeps.refl _ s) fun h0 => ?_
  extract_lets -merge y0 y1 y2 y3
  clear_value y0
  refine Keeps.cut (y1) ?_ fun h4 => ?_
  · unfold y1
    exact ((Keeps.set_boot _ h0 rfl) :)
  clear_value y1
  refine Keeps.cut (y2) ?_ fun h5 => ?_
  · unfold y2
    refine Keeps.step (State.setF_keeps ..) rfl ?_
    assumption
  clear_value y2
  refine Keeps.cut (y3) ?_ fun h6 => ?_
  · unfold y3
    refine Keeps.foldl ?_ ?_
    · intro t7 x8 h9
      refine Keeps.step (State.pilotRun_keeps ..) rfl ?_
      assumption
    assumption
  clear_value y3
  split
  · rename_i a10 a11 a12 a13
    refine Keeps.cut (a11) ?_ fun h14 => ?_
    · refine Keeps.of_fst a13 ?_
      refine Keeps.step (State.readPair_keeps ..) rfl ?_
      assumption
    extract_lets -merge y15
    refine Keeps.cut (y15) ?_ fun h16 => ?_
    · unfold y15
      exact ((Keeps.set_ownerKeys _ h14 rfl) :)
    clear_value y15
    refine Keeps.step (State.selectBank_keeps ..) rfl ?_
    assumption

theorem execPwrgdInAssert_keeps (other pat0 pat1 s) : KeepsO (Fld.regs ||| Fld.hdr ||| Fld.log ||| Fld.out ||| Fld.irq ||| Fld.draws ||| Fld.rungs ||| Fld.ownerKeys ||| Fld.wd ||| Fld.rungAt ||| Fld.boot) s (execPwrgdInAssert other pat0 pat1 s) := by
  unfold execPwrgdInAssert
  refine KeepsO.cut s (Keeps.refl _ s) fun h0 => ?_
  refine KeepsO.next ?_
  refine Keeps.ite ?_ ?_
  · assumption
  · extract_lets -merge y0 y1
    clear_value y0
    refine Keeps.cut (y1) ?_ fun h2 => ?_
    · unfold y1
      exact ((Keeps.set_boot _ h0 rfl) :)
    clear_value y1
    refine Keeps.ite ?_ ?_
    · assumption
    · refine Keeps.step (State.coreBoot_keeps ..) rfl ?_
      refine Keeps.step (State.bootSlot_keeps ..) rfl ?_
      assumption

theorem State.bootSnapshot_keeps (s) : Keeps (Fld.regs ||| Fld.hdr ||| Fld.log ||| Fld.out ||| Fld.irq ||| Fld.draws ||| Fld.rungs ||| Fld.trims ||| Fld.cal ||| Fld.rungAt) s (State.bootSnapshot s) := by
  unfold State.bootSnapshot
  refine Keeps.cut s (Keeps.refl _ s) fun h0 => ?_
  extract_lets -merge y0
  refine Keeps.cut (y0.1) ?_ fun h1 => ?_
  · unfold y0
    refine Keeps.step (State.readPair_keeps ..) rfl ?_
    assumption
  clear_value y0
  refine Keeps.step (State.bootCal_keeps ..) rfl ?_
  exact h1

theorem execFlashWriteDone_keeps (ok sig s) : KeepsO (Fld.regs ||| Fld.hdr ||| Fld.log ||| Fld.out ||| Fld.irq ||| Fld.draws ||| Fld.leases ||| Fld.rungs ||| Fld.flash ||| Fld.flashq ||| Fld.ownerKeys ||| Fld.rungAt ||| Fld.mgmtKeys) s (execFlashWriteDone ok sig s) := by
  unfold execFlashWriteDone
  refine KeepsO.cut s (Keeps.refl _ s) fun h0 => ?_
  refine KeepsO.next ?_
  split
  · rename_i a0 a1
    assumption
  · rename_i a2 a3 a4 a5
    refine Keeps.ite ?_ ?_
    · assumption
    · refine Keeps.ite ?_ ?_
      · refine Keeps.step (State.flashFailed_keeps ..) rfl ?_
        refine Keeps.step (State.flashNext_keeps ..) rfl ?_
        refine Keeps.step (State.flashTear_keeps ..) rfl ?_
        refine Keeps.step (State.flashErr_keeps ..) rfl ?_
        assumption
      · refine Keeps.ite ?_ ?_
        · extract_lets -merge y6
          refine Keeps.cut (y6) ?_ fun h7 => ?_
          · unfold y6
            refine Keeps.step (State.flashProgram_keeps ..) rfl ?_
            assumption
          clear_value y6
          refine Keeps.step (State.fwReject_keeps ..) rfl ?_
          refine Keeps.step (State.setF_keeps ..) rfl ?_
          refine Keeps.step (State.flashNext_keeps ..) rfl ?_
          assumption
        · extract_lets -merge y8
          refine Keeps.cut (y8) ?_ fun h9 => ?_
          · unfold y8
            refine Keeps.step (State.flashNext_keeps ..) rfl ?_
            refine Keeps.step (State.flashFinish_keeps ..) rfl ?_
            assumption
          clear_value y8
          split
          · rename_i a10 a11
            refine Keeps.step (State.fwStaged_keeps ..) rfl ?_
            assumption
          · rename_i a12 a13
            refine Keeps.step (State.profDone_keeps ..) rfl ?_
            assumption
          · rename_i a14 a15
            refine Keeps.step (State.profDone_keeps ..) rfl ?_
            assumption
          · rename_i a16 a17
            refine Keeps.step (State.keysWritten_keeps ..) rfl ?_
            assumption
          · rename_i a18 a19
            exact ((Keeps.set_mgmtKeys _ h9 rfl) :)
          · rename_i a20 a21 a22 a23 a24 a25
            assumption

theorem State.applyProfile_keeps (s pr changing power) : Keeps (Fld.regs ||| Fld.hdr ||| Fld.log ||| Fld.out ||| Fld.irq ||| Fld.draws ||| Fld.profile ||| Fld.acct ||| Fld.lines ||| Fld.tags ||| Fld.rungs ||| Fld.tiles ||| Fld.rungAt) s (State.applyProfile s pr changing power) := by
  unfold State.applyProfile
  refine Keeps.cut s (Keeps.refl _ s) fun h0 => ?_
  extract_lets -merge y0 y1 y2 y3 y4 y5 y6 y7 y8
  clear_value y0
  refine Keeps.cut (y1) ?_ fun h9 => ?_
  · unfold y1
    exact ((Keeps.set_profile _ h0 rfl) :)
  clear_value y1
  refine Keeps.cut (y2) ?_ fun h10 => ?_
  · unfold y2
    refine Keeps.foldl ?_ ?_
    · intro t11 x12 h13
      extract_lets -merge y14
      clear_value y14
      refine Keeps.ite ?_ ?_
      · refine Keeps.step (State.movePages_keeps ..) rfl ?_
        assumption
      · assumption
    assumption
  clear_value y2
  refine Keeps.cut (y3) ?_ fun h15 => ?_
  · unfold y3
    refine Keeps.foldl ?_ ?_
    · intro t16 x17 h18
      refine Keeps.step (State.dynCount_keeps ..) rfl ?_
      assumption
    assumption
  clear_value y3
  refine Keeps.cut (y4) ?_ fun h19 => ?_
  · unfold y4
    refine Keeps.step (State.profileRpl_keeps ..) rfl ?_
    refine Keeps.step (State.profileTiles_keeps ..) rfl ?_
    assumption
  clear_value y4
  refine Keeps.cut (y5) ?_ fun h20 => ?_
  · unfold y5
    refine Keeps.step (State.setF_keeps ..) rfl ?_
    refine Keeps.step (State.setF_keeps ..) rfl ?_
    assumption
  clear_value y5
  refine Keeps.cut (y6) ?_ fun h21 => ?_
  · unfold y6
    refine Keeps.foldl ?_ ?_
    · intro t22 x23 h24
      refine Keeps.step (State.setAc_keeps ..) rfl ?_
      assumption
    assumption
  clear_value y6
  refine Keeps.cut (y7) ?_ fun h25 => ?_
  · unfold y7
    refine Keeps.step (State.recalc_keeps ..) rfl ?_
    assumption
  clear_value y7
  refine Keeps.cut (y8) ?_ fun h26 => ?_
  · unfold y8
    refine Keeps.ite ?_ ?_
    · refine Keeps.foldl ?_ ?_
      · intro t27 x28 h29
        extract_lets -merge y30
        clear_value y30
        refine Keeps.step (State.setAc_keeps ..) rfl ?_
        assumption
      assumption
    · assumption
  clear_value y8
  refine Keeps.step (State.prtSync_keeps ..) rfl ?_
  refine Keeps.step (State.setF_keeps ..) rfl ?_
  assumption

theorem execProfileApply_keeps (s) : KeepsO (Fld.regs ||| Fld.hdr ||| Fld.log ||| Fld.out ||| Fld.irq ||| Fld.draws ||| Fld.leases ||| Fld.profile ||| Fld.tickets ||| Fld.jobs ||| Fld.plans ||| Fld.acct ||| Fld.ctxs ||| Fld.lines ||| Fld.tags ||| Fld.qps ||| Fld.landing ||| Fld.rungs ||| Fld.rows ||| Fld.tiles ||| Fld.harbour ||| Fld.hbPoison ||| Fld.hbWritten ||| Fld.frames ||| Fld.badSlots ||| Fld.owners ||| Fld.runs ||| Fld.ends ||| Fld.rungAt ||| Fld.boot) s (execProfileApply s) := by
  unfold execProfileApply
  refine KeepsO.cut s (Keeps.refl _ s) fun h0 => ?_
  refine KeepsO.next ?_
  extract_lets -merge y0 y1 y2 y3 y4 y5
  clear_value y0
  refine Keeps.cut (y2) ?_ fun h6 => ?_
  · unfold y2
    refine Keeps.foldl ?_ ?_
    · intro t7 x8 h9
      refine Keeps.step (State.unloadNow_keeps ..) rfl ?_
      assumption
    assumption
  clear_value y2
  refine Keeps.cut (y3) ?_ fun h10 => ?_
  · unfold y3
    refine Keeps.step (State.applyProfile_keeps ..) rfl ?_
    assumption
  clear_value y3 y4
  refine Keeps.cut (y5) ?_ fun h11 => ?_
  · unfold y5
    exact ((Keeps.set_boot _ h10 rfl) :)
  clear_value y5
  refine Keeps.ite ?_ ?_
  · assumption
  · refine Keeps.step (State.raise_keeps ..) rfl ?_
    refine Keeps.step (State.setF_keeps ..) rfl ?_
    assumption

theorem execBootAttemptFail_keeps (other pat0 pat1 s) : KeepsO (Fld.regs ||| Fld.hdr ||| Fld.shadow ||| Fld.staged ||| Fld.heldWrites ||| Fld.fencing ||| Fld.pendWas ||| Fld.log ||| Fld.out ||| Fld.irq ||| Fld.badAccTick ||| Fld.draws ||| Fld.leases ||| Fld.profile ||| Fld.count ||| Fld.tide ||| Fld.tickets ||| Fld.acks ||| Fld.jobs ||| Fld.plans ||| Fld.acct ||| Fld.slu ||| Fld.ctxs ||| Fld.basin ||| Fld.lines ||| Fld.tags ||| Fld.qps ||| Fld.ovf ||| Fld.landing ||| Fld.rungs ||| Fld.rows ||| Fld.tiles ||| Fld.trims ||| Fld.weir ||| Fld.harbour ||| Fld.hbPoison ||| Fld.hbWritten ||| Fld.frames ||| Fld.badSlots ||| Fld.owners ||| Fld.runs ||| Fld.refetch ||| Fld.hbr ||| Fld.scrubFrom ||| Fld.swaps ||| Fld.imports ||| Fld.dyns ||| Fld.tests ||| Fld.flash ||| Fld.cal ||| Fld.flashq ||| Fld.ownerKeys ||| Fld.spdm ||| Fld.ends ||| Fld.rrCtx ||| Fld.rrQ ||| Fld.rplChecks ||| Fld.lost ||| Fld.thm ||| Fld.wd ||| Fld.rungAt ||| Fld.flrs ||| Fld.boot ||| Fld.push ||| Fld.torn ||| Fld.grantWas ||| Fld.power ||| Fld.reconAt) s (execBootAttemptFail other pat0 pat1 s) := by
  unfold execBootAttemptFail
  refine KeepsO.cut s (Keeps.refl _ s) fun h0 => ?_
  refine KeepsO.next ?_
  refine Keeps.ite ?_ ?_
  · assumption
  · refine Keeps.step (State.coreBoot_keeps ..) rfl ?_
    refine Keeps.step (State.bootSlot_keeps ..) rfl ?_
    refine Keeps.step (State.coreHeld_keeps ..) rfl ?_
    refine Keeps.step (State.bootFailed_keeps ..) rfl ?_
    assumption

theorem State.bootProfile_keeps (s) : Keeps (Fld.regs ||| Fld.hdr ||| Fld.log ||| Fld.out ||| Fld.irq ||| Fld.draws ||| Fld.profile ||| Fld.acct ||| Fld.lines ||| Fld.tags ||| Fld.rungs ||| Fld.tiles ||| Fld.trims ||| Fld.tests ||| Fld.cal ||| Fld.rungAt ||| Fld.boot) s (State.bootProfile s) := by
  unfold State.bootProfile
  refine Keeps.cut s (Keeps.refl _ s) fun h0 => ?_
  refine Keeps.ite ?_ ?_
  · assumption
  · extract_lets -merge y0 y1 y2
    clear_value y0 y1
    refine Keeps.cut (y2) ?_ fun h3 => ?_
    · unfold y2
      exact ((Keeps.set_boot _ h0 rfl) :)
    clear_value y2
    refine Keeps.step (State.askIslTests_keeps ..) rfl ?_
    refine Keeps.step (State.bootSnapshot_keeps ..) rfl ?_
    refine Keeps.step (State.setF_keeps ..) rfl ?_
    refine Keeps.step (State.applyProfile_keeps ..) rfl ?_
    assumption

theorem execHarbourTrained_keeps (failed : List Stack) (s : State) : KeepsO (Fld.regs ||| Fld.hdr ||| Fld.log ||| Fld.out ||| Fld.irq ||| Fld.draws ||| Fld.profile ||| Fld.acct ||| Fld.lines ||| Fld.tags ||| Fld.rungs ||| Fld.tiles ||| Fld.trims ||| Fld.harbour ||| Fld.hbPoison ||| Fld.hbWritten ||| Fld.frames ||| Fld.tests ||| Fld.cal ||| Fld.rungAt ||| Fld.boot) s (execHarbourTrained failed s) := by
  unfold execHarbourTrained
  refine KeepsO.next (Keeps.ite (Keeps.refl _ s) (Keeps.ite ?_ ?_))
  · exact Keeps.step (State.setF_keeps ..) rfl (Keeps.foldl (fun t x h => Keeps.step (State.setB_keeps ..) rfl h) (Keeps.refl _ s))
  · extract_lets -merge t
    have ht : Keeps (Fld.regs ||| Fld.hdr ||| Fld.log ||| Fld.out ||| Fld.irq ||| Fld.draws ||| Fld.profile ||| Fld.acct ||| Fld.lines ||| Fld.tags ||| Fld.rungs ||| Fld.tiles ||| Fld.trims ||| Fld.harbour ||| Fld.hbPoison ||| Fld.hbWritten ||| Fld.frames ||| Fld.tests ||| Fld.cal ||| Fld.rungAt ||| Fld.boot) s t := by
      unfold t
      exact Keeps.foldl (fun t x h => Keeps.step (State.setB_keeps ..) rfl h) (Keeps.refl _ s)
    refine Keeps.step (State.bootProfile_keeps ..) rfl (Keeps.step0 (n := Fld.harbour ||| Fld.hbPoison ||| Fld.hbWritten ||| Fld.frames ||| Fld.boot)
      ht rfl ?_ fun i => ⟨i.1, rfl, i.2.2.1, i.2.2.2⟩)
    constructor <;> first | exact fun e => absurd e (by decide) | exact fun _ => rfl

theorem execPerstNAssert_keeps (s) : KeepsO (Fld.regs ||| Fld.hdr ||| Fld.log ||| Fld.out ||| Fld.irq ||| Fld.draws ||| Fld.leases ||| Fld.tickets ||| Fld.jobs ||| Fld.ctxs ||| Fld.qps ||| Fld.ovf ||| Fld.landing ||| Fld.rungs ||| Fld.imports ||| Fld.spdm ||| Fld.ends ||| Fld.rungAt ||| Fld.boot) s (execPerstNAssert s) := by
  unfold execPerstNAssert
  refine KeepsO.cut s (Keeps.refl _ s) fun h0 => ?_
  refine KeepsO.next ?_
  refine Keeps.ite ?_ ?_
  · assumption
  · extract_lets -merge y0 y1 y2 y3 y4 y5
    clear_value y0
    refine Keeps.cut (y1) ?_ fun h6 => ?_
    · unfold y1
      exact ((Keeps.set_boot _ h0 rfl) :)
    clear_value y1
    refine Keeps.cut (y2) ?_ fun h7 => ?_
    · unfold y2
      refine Keeps.step (State.linkDown_keeps ..) rfl ?_
      assumption
    clear_value y2
    refine Keeps.cut (y3) ?_ fun h8 => ?_
    · unfold y3
      exact ((Keeps.set_spdm _ h7 rfl) :)
    clear_value y3
    refine Keeps.cut (y4) ?_ fun h9 => ?_
    · unfold y4
      exact ((Keeps.set_regs _ h8 rfl) :)
    clear_value y4
    refine Keeps.cut (y5) ?_ fun h10 => ?_
    · unfold y5
      refine Keeps.foldl ?_ ?_
      · intro t11 x12 h13
        refine Keeps.ite ?_ ?_
        · refine Keeps.step (State.startTeardown_keeps ..) rfl ?_
          assumption
        · assumption
      assumption
    clear_value y5
    refine Keeps.ite ?_ ?_
    · assumption
    · refine Keeps.ite ?_ ?_
      · assumption
      · refine Keeps.step (State.startRung_keeps ..) rfl ?_
        assumption

theorem execProfSelect_keeps (rq target s) : KeepsO (Fld.regs ||| Fld.hdr ||| Fld.log ||| Fld.out ||| Fld.irq ||| Fld.draws ||| Fld.leases ||| Fld.tickets ||| Fld.jobs ||| Fld.plans ||| Fld.acct ||| Fld.ctxs ||| Fld.qps ||| Fld.landing ||| Fld.rungs ||| Fld.rows ||| Fld.tiles ||| Fld.harbour ||| Fld.hbPoison ||| Fld.hbWritten ||| Fld.frames ||| Fld.badSlots ||| Fld.owners ||| Fld.runs ||| Fld.imports ||| Fld.ends ||| Fld.rungAt ||| Fld.boot) s (execProfSelect rq target s) := by
  unfold execProfSelect
  refine KeepsO.cut s (Keeps.refl _ s) fun h0 => ?_
  refine KeepsO.next ?_
  refine Keeps.ite ?_ ?_
  · assumption
  · refine Keeps.ite ?_ ?_
    · refine Keeps.step (State.profErr_keeps ..) rfl ?_
      assumption
    · split
      · rename_i a0 a1 a2 a3
        refine Keeps.cut (a1) ?_ fun h4 => ?_
        · refine Keeps.of_fst a3 ?_
          refine Keeps.step (State.readProfile_keeps ..) rfl ?_
          assumption
        split
        · rename_i a5
          refine Keeps.step (State.profErr_keeps ..) rfl ?_
          assumption
        · rename_i a6 a7
          refine Keeps.ite ?_ ?_
          · refine Keeps.step (State.profErr_keeps ..) rfl ?_
            assumption
          · extract_lets -merge y8 y9 y10 y11 y12
            clear_value y8
            refine Keeps.cut (y9) ?_ fun h13 => ?_
            · unfold y9
              refine Keeps.step (State.setF_keeps ..) rfl ?_
              refine Keeps.step (State.profErr_keeps ..) rfl ?_
              assumption
            clear_value y9 y10
            refine Keeps.cut (y11) ?_ fun h14 => ?_
            · unfold y11
              exact ((Keeps.set_boot _ h13 rfl) :)
            clear_value y11
            refine Keeps.cut (y12) ?_ fun h15 => ?_
            · unfold y12
              refine Keeps.foldl ?_ ?_
              · intro t16 x17 h18
                refine Keeps.step (State.unload_keeps ..) rfl ?_
                assumption
              assumption
            clear_value y12
            refine Keeps.foldl ?_ ?_
            · intro t19 x20 h21
              refine Keeps.ite ?_ ?_
              · refine Keeps.step (State.startTeardown_keeps ..) rfl ?_
                assumption
              · assumption
            assumption

theorem execProfselSampleEnd_keeps (first disagree s) : KeepsO (Fld.regs ||| Fld.hdr ||| Fld.log ||| Fld.out ||| Fld.irq ||| Fld.draws ||| Fld.profile ||| Fld.acct ||| Fld.lines ||| Fld.tags ||| Fld.rungs ||| Fld.tiles ||| Fld.trims ||| Fld.tests ||| Fld.cal ||| Fld.rungAt ||| Fld.boot) s (execProfselSampleEnd first disagree s) := by
  unfold execProfselSampleEnd
  refine KeepsO.cut s (Keeps.refl _ s) fun h0 => ?_
  refine KeepsO.next ?_
  refine Keeps.ite ?_ ?_
  · assumption
  · extract_lets -merge y0 y1 y2 y3 y4 y5
    clear_value y0 y1
    refine Keeps.cut (y2) ?_ fun h6 => ?_
    · unfold y2
      exact ((Keeps.set_boot _ h0 rfl) :)
    clear_value y2
    refine Keeps.cut (y3) ?_ fun h7 => ?_
    · unfold y3
      refine Keeps.step (State.setReg_keeps ..) rfl ?_
      assumption
    clear_value y3
    refine Keeps.cut (y4) ?_ fun h8 => ?_
    · unfold y4
      refine Keeps.ite ?_ ?_
      · refine Keeps.step (State.raise_keeps ..) rfl ?_
        refine Keeps.step (State.setB_keeps ..) rfl ?_
        assumption
      · assumption
    clear_value y4 y5
    split
    · rename_i a9 a10 a11 a12
      refine Keeps.cut (a10) ?_ fun h13 => ?_
      · refine Keeps.of_fst a12 ?_
        refine Keeps.step (State.readProfile_keeps ..) rfl ?_
        assumption
      split
      · rename_i a14 a15 a16 a17
        refine Keeps.cut (a15) ?_ fun h18 => ?_
        · refine Keeps.of_fst a17 ?_
          split
          · rename_i a19 a20
            dsimp only
            assumption
          · rename_i a21
            extract_lets -merge y22
            refine Keeps.cut (y22) ?_ fun h23 => ?_
            · unfold y22
              refine Keeps.step (State.raise_keeps ..) rfl ?_
              refine Keeps.step (State.setB_keeps ..) rfl ?_
              assumption
            clear_value y22
            split
            · rename_i a24 a25 a26 a27
              refine Keeps.cut (a25) ?_ fun h28 => ?_
              · refine Keeps.of_fst a27 ?_
                split
                · rename_i a29
                  dsimp only
                  assumption
                · rename_i a30
                  refine Keeps.step (State.readProfile_keeps ..) rfl ?_
                  assumption
              split
              · rename_i a31 a32
                dsimp only
                assumption
              · rename_i a33
                dsimp only
                refine Keeps.step (State.setB_keeps ..) rfl ?_
                assumption
        extract_lets -merge y34 y35
        clear_value y34
        refine Keeps.cut (y35) ?_ fun h36 => ?_
        · unfold y35
          exact ((Keeps.set_boot _ h18 rfl) :)
        clear_value y35
        refine Keeps.step (State.bootProfile_keeps ..) rfl ?_
        refine Keeps.ite ?_ ?_
        · refine Keeps.step (State.setF_keeps ..) rfl ?_
          assumption
        · assumption

end Sys2Proof.Machine
end

