-- ==== Sys2Proof/Laws/Debug.lean ====
section
/-!
SUPPORT. What each function of Machine/Debug.lean may change, and that it keeps the invariant of State.
-/
set_option linter.unusedVariables false
namespace Sys2Proof.Machine

theorem State.thaw_keeps (s) : Keeps (Fld.regs ||| Fld.wd) s (State.thaw s) := by
  unfold State.thaw
  refine Keeps.cut s (Keeps.refl _ s) fun h0 => ?_
  refine Keeps.ite ?_ ?_
  · assumption
  · extract_lets -merge y0
    refine Keeps.cut (y0) ?_ fun h1 => ?_
    · unfold y0
      refine Keeps.step (State.setB_keeps ..) rfl ?_
      refine Keeps.step (State.setB_keeps ..) rfl ?_
      assumption
    clear_value y0
    refine Keeps.foldl ?_ ?_
    · intro t2 x3 h4
      refine Keeps.ite ?_ ?_
      · refine Keeps.step (State.wdStart_keeps ..) rfl ?_
        assumption
      · assumption
    assumption

theorem State.dbgErr_keeps (s e) : Keeps (Fld.regs) s (State.dbgErr s e) := by
  unfold State.dbgErr
  refine Keeps.cut s (Keeps.refl _ s) fun h0 => ?_
  refine Keeps.step (State.setF_keeps ..) rfl ?_
  assumption

theorem State.pilotResume_keeps (s n) : Keeps (Fld.regs ||| Fld.wd) s (State.pilotResume s n) := by
  unfold State.pilotResume
  refine Keeps.cut s (Keeps.refl _ s) fun h0 => ?_
  refine Keeps.ite ?_ ?_
  · refine Keeps.step (State.wdStart_keeps ..) rfl ?_
    refine Keeps.step (State.setB_keeps ..) rfl ?_
    refine Keeps.step (State.setF_keeps ..) rfl ?_
    assumption
  · assumption

theorem execDbgResume_keeps (rq n s) : KeepsO (Fld.regs ||| Fld.wd) s (execDbgResume rq n s) := by
  unfold execDbgResume
  refine KeepsO.cut s (Keeps.refl _ s) fun h0 => ?_
  refine KeepsO.next ?_
  refine Keeps.ite ?_ ?_
  · refine Keeps.step (State.pilotResume_keeps ..) rfl ?_
    assumption
  · assumption

theorem execDbgLock_keeps (rq s) : KeepsO (Fld.regs ||| Fld.hdr ||| Fld.log ||| Fld.out ||| Fld.irq ||| Fld.draws ||| Fld.rungs ||| Fld.wd ||| Fld.rungAt) s (execDbgLock rq s) := by
  unfold execDbgLock
  refine KeepsO.cut s (Keeps.refl _ s) fun h0 => ?_
  refine KeepsO.next ?_
  refine Keeps.ite ?_ ?_
  · assumption
  · extract_lets -merge y0
    refine Keeps.cut (y0) ?_ fun h1 => ?_
    · unfold y0
      refine Keeps.foldl ?_ ?_
      · intro t2 x3 h4
        refine Keeps.step (State.pilotResume_keeps ..) rfl ?_
        assumption
      assumption
    clear_value y0
    refine Keeps.step (State.raise_keeps ..) rfl ?_
    refine Keeps.step (State.setF_keeps ..) rfl ?_
    refine Keeps.step (State.thaw_keeps ..) rfl ?_
    assumption

theorem State.pilotHalt_keeps (s n) : Keeps (Fld.regs ||| Fld.hdr ||| Fld.log ||| Fld.out ||| Fld.irq ||| Fld.draws ||| Fld.rungs ||| Fld.wd ||| Fld.rungAt) s (State.pilotHalt s n) := by
  unfold State.pilotHalt
  refine Keeps.cut s (Keeps.refl _ s) fun h0 => ?_
  refine Keeps.ite ?_ ?_
  · assumption
  · extract_lets -merge y0
    refine Keeps.cut (y0) ?_ fun h1 => ?_
    · unfold y0
      refine Keeps.step (State.setB_keeps ..) rfl ?_
      refine Keeps.step (State.setF_keeps ..) rfl ?_
      assumption
    clear_value y0
    refine Keeps.step (State.raise_keeps ..) rfl ?_
    exact ((Keeps.set_wd _ h1 rfl) :)

theorem State.writeFreeze_keeps (s v) : Keeps (Fld.regs ||| Fld.hdr ||| Fld.log ||| Fld.out ||| Fld.irq ||| Fld.draws ||| Fld.rungs ||| Fld.wd ||| Fld.rungAt) s (State.writeFreeze s v) := by
  unfold State.writeFreeze
  refine Keeps.cut s (Keeps.refl _ s) fun h0 => ?_
  refine Keeps.ite ?_ ?_
  · refine Keeps.step (State.thaw_keeps ..) rfl ?_
    assumption
  · refine Keeps.ite ?_ ?_
    · assumption
    · extract_lets -merge y0
      refine Keeps.cut (y0) ?_ fun h1 => ?_
      · unfold y0
        refine Keeps.step (State.set64_keeps ..) rfl ?_
        refine Keeps.step (State.setB_keeps ..) rfl ?_
        refine Keeps.step (State.setB_keeps ..) rfl ?_
        assumption
      clear_value y0
      refine Keeps.step (State.raise_keeps ..) rfl ?_
      assumption

theorem execLeaseFreezeWrite_keeps (rq v s) : KeepsO (Fld.regs ||| Fld.hdr ||| Fld.log ||| Fld.out ||| Fld.irq ||| Fld.draws ||| Fld.rungs ||| Fld.wd ||| Fld.rungAt) s (execLeaseFreezeWrite rq v s) := by
  unfold execLeaseFreezeWrite
  refine KeepsO.cut s (Keeps.refl _ s) fun h0 => ?_
  refine KeepsO.next ?_
  refine Keeps.ite ?_ ?_
  · refine Keeps.step (State.writeFreeze_keeps ..) rfl ?_
    assumption
  · assumption

theorem execDbgHalt_keeps (rq n s) : KeepsO (Fld.regs ||| Fld.hdr ||| Fld.log ||| Fld.out ||| Fld.irq ||| Fld.draws ||| Fld.rungs ||| Fld.wd ||| Fld.rungAt) s (execDbgHalt rq n s) := by
  unfold execDbgHalt
  refine KeepsO.cut s (Keeps.refl _ s) fun h0 => ?_
  refine KeepsO.next ?_
  refine Keeps.ite ?_ ?_
  · assumption
  · refine Keeps.ite ?_ ?_
    · refine Keeps.step (State.dbgErr_keeps ..) rfl ?_
      assumption
    · refine Keeps.ite ?_ ?_
      · refine Keeps.step (State.dbgErr_keeps ..) rfl ?_
        assumption
      · refine Keeps.step (State.pilotHalt_keeps ..) rfl ?_
        refine Keeps.step (State.dbgErr_keeps ..) rfl ?_
        assumption

theorem execDbgUnlock_keeps (rq sigOk s) : KeepsO (Fld.regs ||| Fld.hdr ||| Fld.log ||| Fld.out ||| Fld.irq ||| Fld.draws ||| Fld.leases ||| Fld.tickets ||| Fld.jobs ||| Fld.ctxs ||| Fld.rungs ||| Fld.imports ||| Fld.ends ||| Fld.rungAt ||| Fld.tap) s (execDbgUnlock rq sigOk s) := by
  unfold execDbgUnlock
  refine KeepsO.cut s (Keeps.refl _ s) fun h0 => ?_
  refine KeepsO.next ?_
  refine Keeps.ite ?_ ?_
  · assumption
  · refine Keeps.ite ?_ ?_
    · refine Keeps.step (State.dbgErr_keeps ..) rfl ?_
      assumption
    · refine Keeps.ite ?_ ?_
      · refine Keeps.step (State.dbgErr_keeps ..) rfl ?_
        assumption
      · extract_lets -merge y0 y1 y2 y3
        refine Keeps.cut (y0) ?_ fun h4 => ?_
        · unfold y0
          refine Keeps.step (State.setF_keeps ..) rfl ?_
          assumption
        clear_value y0
        refine Keeps.cut (y1) ?_ fun h5 => ?_
        · unfold y1
          refine Keeps.step (State.dbgErr_keeps ..) rfl ?_
          assumption
        clear_value y1 y2
        refine Keeps.cut (y3) ?_ fun h6 => ?_
        · unfold y3
          exact ((Keeps.set_tap _ h5 rfl) :)
        clear_value y3
        split
        · rename_i a7 a8 a9
          split
          · rename_i a10 a11 a12 a13
            refine Keeps.cut (a12) ?_ fun h14 => ?_
            · refine Keeps.of_snd a13 ?_
              refine Keeps.step (State.nextDraw_keeps ..) rfl ?_
              assumption
            extract_lets -merge y15
            refine Keeps.cut (y15) ?_ fun h16 => ?_
            · unfold y15
              refine Keeps.step (State.set64_keeps ..) rfl ?_
              refine Keeps.step (State.incSatF_keeps ..) rfl ?_
              refine Keeps.step (State.dbgErr_keeps ..) rfl ?_
              assumption
            clear_value y15
            refine Keeps.step (State.raise_keeps ..) rfl ?_
            assumption
        · rename_i a17 a18
          refine Keeps.step (State.unlockStep_keeps ..) rfl ?_
          refine Keeps.foldl ?_ ?_
          · intro t19 x20 h21
            refine Keeps.step (State.startTeardown_keeps ..) rfl ?_
            assumption
          assumption

end Sys2Proof.Machine
end

