-- ==== Sys2Proof/Laws/Regs.lean ====
section
/-!
SUPPORT. What each function of Machine/Regs.lean may change, and that it keeps the invariant of State.
-/
set_option linter.unusedVariables false
namespace Sys2Proof.Machine

theorem runOn_hof {m : Nat} {s u : State} {f : State → Host.Outcome State Fault Refusal} (hf : ∀ t, KeepsO m t (f t))
    (hm : Fld.sub 0 m = true) (h : Keeps m s u) : Keeps m s (runOn f u) := by
  unfold runOn
  split
  · rename_i e
    exact h.trans (hf u _ e)
  · exact h

theorem State.noteView_keeps (s ty inst on) : Keeps (Fld.views) s (State.noteView s ty inst on) := by
  unfold State.noteView
  refine Keeps.cut s (Keeps.refl _ s) fun h0 => ?_
  exact ((Keeps.set_views _ h0 rfl) :)

theorem State.writePend_keeps (s : State) (ty inst : Nat) (v : Word) : Keeps (Fld.hdr) s (s.writePend ty inst v) :=
  State.updHd_hof (fun _ _ hx => pend_clear hx) rfl (Keeps.refl _ s)

theorem State.store_keeps (s a b v) : Keeps (Fld.regs) s (State.store s a b v) := by
  unfold State.store
  refine Keeps.cut s (Keeps.refl _ s) fun h0 => ?_
  refine Keeps.step (State.setReg_keeps ..) rfl ?_
  assumption

theorem State.readClear_keeps (s a) : Keeps (Fld.regs ||| Fld.hdr ||| Fld.thm) s (State.readClear s a) := by
  unfold State.readClear
  refine Keeps.cut s (Keeps.refl _ s) fun h0 => ?_
  refine Keeps.ite ?_ ?_
  · refine State.updHd_hof ?_ rfl ?_
    · exact fun _ _ hx => hx
    assumption
  · refine Keeps.ite ?_ ?_
    · extract_lets -merge y0 y1
      refine Keeps.cut (y0) ?_ fun h2 => ?_
      · unfold y0
        refine Keeps.step (State.setReg_keeps ..) rfl ?_
        assumption
      clear_value y0 y1
      refine Keeps.ite ?_ ?_
      · exact ((Keeps.set_thm _ h2 rfl) :)
      · assumption
    · assumption

theorem State.writeLogCmd_keeps (s rq v) : Keeps (Fld.log) s (State.writeLogCmd s rq v) := by
  unfold State.writeLogCmd
  refine Keeps.cut s (Keeps.refl _ s) fun h0 => ?_
  split
  · rename_i a0 a1
    refine runOn_hof ?_ rfl ?_
    · intro t2
      exact KeepsO.mono (execUnpin_keeps _ _ _) rfl
    assumption
  · rename_i a3 a4
    refine runOn_hof ?_ rfl ?_
    · intro t5
      exact KeepsO.mono (execUnpinAll_keeps _ _) rfl
    assumption
  · rename_i a6 a7 a8
    assumption

theorem State.writeColmapCtl_keeps (s gt v) : Keeps (Fld.regs ||| Fld.tiles) s (State.writeColmapCtl s gt v) := by
  unfold State.writeColmapCtl
  refine Keeps.cut s (Keeps.refl _ s) fun h0 => ?_
  extract_lets -merge y0
  refine Keeps.cut (y0) ?_ fun h1 => ?_
  · unfold y0
    refine Keeps.step (State.setF_keeps ..) rfl ?_
    assumption
  clear_value y0
  refine Keeps.ite ?_ ?_
  · refine Keeps.step (State.applyMap_keeps ..) rfl ?_
    assumption
  · assumption

theorem State.writePendSel_keeps (s v) : Keeps (Fld.regs ||| Fld.pendWas) s (State.writePendSel s v) := by
  unfold State.writePendSel
  refine Keeps.cut s (Keeps.refl _ s) fun h0 => ?_
  refine Keeps.step (State.plainWrite_keeps ..) rfl ?_
  exact ((Keeps.set_pendWas _ h0 rfl) :)

theorem State.clearBits_keeps (s a v) : Keeps (Fld.regs) s (State.clearBits s a v) := by
  unfold State.clearBits
  refine Keeps.cut s (Keeps.refl _ s) fun h0 => ?_
  refine Keeps.step (State.setReg_keeps ..) rfl ?_
  assumption

theorem State.writeEn_keeps (s : State) (ty inst : Nat) (v : Word) : Keeps (Fld.hdr ||| Fld.out ||| Fld.irq) s (s.writeEn ty inst v) := by
  have hu : Keeps (Fld.hdr ||| Fld.out ||| Fld.irq) s (s.updHd ty inst fun h =>
      { h with en := v &&& evtImpl ty, pend := h.pend ||| ((v &&& evtImpl ty) &&& (s.hd ty inst).raw &&& ~~~ (s.hd ty inst).pend) }) :=
    State.updHd_hof (fun x e hx => by subst e; exact pend_enable hx) rfl (Keeps.refl _ s)
  unfold State.writeEn
  dsimp only
  exact Keeps.ite hu (Keeps.step (State.routeHost_keeps ..) rfl hu)

theorem State.commitPair_keeps (s a lo low high) : Keeps (Fld.regs ||| Fld.tide) s (State.commitPair s a lo low high) := by
  unfold State.commitPair
  refine Keeps.cut s (Keeps.refl _ s) fun h0 => ?_
  refine Keeps.ite ?_ ?_
  · refine Keeps.step (State.writePpsBase_keeps ..) rfl ?_
    assumption
  · refine Keeps.step (State.store_keeps ..) rfl ?_
    refine Keeps.step (State.store_keeps ..) rfl ?_
    assumption

theorem State.writeForce_keeps (s ty inst v) : Keeps (Fld.regs ||| Fld.hdr ||| Fld.log ||| Fld.out ||| Fld.irq ||| Fld.draws) s (State.writeForce s ty inst v) := by
  unfold State.writeForce
  refine Keeps.cut s (Keeps.refl _ s) fun h0 => ?_
  refine Keeps.foldl ?_ ?_
  · intro t0 x1 h2
    refine Keeps.ite ?_ ?_
    · refine Keeps.step (State.raiseOnly_keeps ..) rfl ?_
      assumption
    · assumption
  assumption

theorem State.writeTstCmd_keeps (s rq v) : Keeps (Fld.regs ||| Fld.heldWrites ||| Fld.tests) s (State.writeTstCmd s rq v) := by
  unfold State.writeTstCmd
  refine Keeps.cut s (Keeps.refl _ s) fun h0 => ?_
  extract_lets -merge y0
  clear_value y0
  split
  · rename_i a1 a2
    refine runOn_hof ?_ rfl ?_
    · intro t3
      exact KeepsO.mono (execTestTile_keeps _ _ _) rfl
    assumption
  · rename_i a4 a5
    refine runOn_hof ?_ rfl ?_
    · intro t6
      exact KeepsO.mono (execTestIsland_keeps _ _ _) rfl
    assumption
  · rename_i a7 a8 a9
    assumption

theorem State.writeRfshCtl_keeps (s gt v) : Keeps (Fld.regs ||| Fld.rows ||| Fld.tiles) s (State.writeRfshCtl s gt v) := by
  unfold State.writeRfshCtl
  refine Keeps.cut s (Keeps.refl _ s) fun h0 => ?_
  extract_lets -merge y0 y1
  refine Keeps.cut (y0) ?_ fun h2 => ?_
  · unfold y0
    refine Keeps.step (State.setF_keeps ..) rfl ?_
    assumption
  clear_value y0
  refine Keeps.cut (y1) ?_ fun h3 => ?_
  · unfold y1
    refine Keeps.step (State.writePhase_keeps ..) rfl ?_
    refine Keeps.step (State.writeGrid_keeps ..) rfl ?_
    assumption
  clear_value y1
  refine Keeps.ite ?_ ?_
  · refine Keeps.step (State.release_keeps ..) rfl ?_
    assumption
  · assumption

theorem State.writeQCmd_keeps (s rq via v) : Keeps (Fld.regs ||| Fld.heldWrites ||| Fld.tickets ||| Fld.plans ||| Fld.qps ||| Fld.ovf ||| Fld.landing) s (State.writeQCmd s rq via v) := by
  unfold State.writeQCmd
  refine Keeps.cut s (Keeps.refl _ s) fun h0 => ?_
  split
  · rename_i a0 a1
    refine runOn_hof ?_ rfl ?_
    · intro t2
      exact KeepsO.mono (execQCreate_keeps _ _ _) rfl
    assumption
  · rename_i a3 a4
    refine runOn_hof ?_ rfl ?_
    · intro t5
      exact KeepsO.mono (execQDelete_keeps _ _ _) rfl
    assumption
  · rename_i a6 a7 a8
    assumption

theorem State.writeRcvCmd_keeps (s rq v) : Keeps (Fld.regs ||| Fld.hdr ||| Fld.log ||| Fld.out ||| Fld.irq ||| Fld.draws ||| Fld.rungs ||| Fld.rungAt) s (State.writeRcvCmd s rq v) := by
  unfold State.writeRcvCmd
  refine Keeps.cut s (Keeps.refl _ s) fun h0 => ?_
  extract_lets -merge y0
  clear_value y0
  split
  · rename_i a1 a2
    refine runOn_hof ?_ rfl ?_
    · intro t3
      exact KeepsO.mono (execCtxCmd_keeps _ _ _) rfl
    assumption
  · rename_i a4 a5
    refine runOn_hof ?_ rfl ?_
    · intro t6
      exact KeepsO.mono (execEngineCmd_keeps _ _ _) rfl
    assumption
  · rename_i a7 a8
    refine runOn_hof ?_ rfl ?_
    · intro t9
      exact KeepsO.mono (execPartitionCmd_keeps _ _ _) rfl
    assumption
  · rename_i a10 a11
    refine runOn_hof ?_ rfl ?_
    · intro t12
      exact KeepsO.mono (execWarmCmd_keeps _ _) rfl
    assumption
  · rename_i a13 a14
    refine runOn_hof ?_ rfl ?_
    · intro t15
      exact KeepsO.mono (execPwrcycCmd_keeps _ _) rfl
    assumption
  · rename_i a16 a17
    refine runOn_hof ?_ rfl ?_
    · intro t18
      exact KeepsO.mono (execResumeCmd_keeps _ _) rfl
    assumption
  · rename_i a19 a20 a21 a22 a23 a24 a25
    assumption

theorem State.badAccess_keeps (s rq a write kind) : Keeps (Fld.regs ||| Fld.hdr ||| Fld.log ||| Fld.out ||| Fld.irq ||| Fld.badAccTick ||| Fld.draws ||| Fld.rungs ||| Fld.rungAt) s (State.badAccess s rq a write kind) := by
  unfold State.badAccess
  refine Keeps.cut s (Keeps.refl _ s) fun h0 => ?_
  extract_lets -merge y0 y1 y2
  refine Keeps.cut (y0) ?_ fun h3 => ?_
  · unfold y0
    refine Keeps.step (State.incSat_keeps ..) rfl ?_
    assumption
  clear_value y0
  refine Keeps.cut (y1) ?_ fun h4 => ?_
  · unfold y1
    refine Keeps.step (State.setReg_keeps ..) rfl ?_
    assumption
  clear_value y1
  refine Keeps.cut (y2) ?_ fun h5 => ?_
  · unfold y2
    refine Keeps.step (State.setReg_keeps ..) rfl ?_
    assumption
  clear_value y2
  refine Keeps.ite ?_ ?_
  · refine Keeps.step (State.raise_keeps ..) rfl ?_
    exact ((Keeps.set_badAccTick _ h5 rfl) :)
  · assumption

theorem State.regRead_keeps (s rq via a) : Keeps (Fld.regs ||| Fld.hdr ||| Fld.shadow ||| Fld.log ||| Fld.out ||| Fld.irq ||| Fld.badAccTick ||| Fld.draws ||| Fld.rungs ||| Fld.thm ||| Fld.rungAt) s (State.regRead s rq via a).2 := by
  unfold State.regRead
  refine Keeps.cut s (Keeps.refl _ s) fun h0 => ?_
  split
  · rename_i a0
    dsimp only
    refine Keeps.step (State.badAccess_keeps ..) rfl ?_
    assumption
  · rename_i a1
    split
    · rename_i a2 a3 a4
      dsimp only
      assumption
    · rename_i a5 a6
      extract_lets -merge y7 y8
      clear_value y7 y8
      split
      · rename_i a9
        dsimp only
        assumption
      · rename_i a10
        split
        · rename_i a11
          dsimp only
          exact ((Keeps.set_shadow _ h0 rfl) :)
        · rename_i a12
          split
          · rename_i a13
            dsimp only
            assumption
          · rename_i a14
            dsimp only
            refine Keeps.step (State.readClear_keeps ..) rfl ?_
            assumption

theorem State.readOut_keeps (s rq via a) : Keeps (Fld.regs ||| Fld.hdr ||| Fld.shadow ||| Fld.log ||| Fld.out ||| Fld.irq ||| Fld.badAccTick ||| Fld.draws ||| Fld.rungs ||| Fld.thm ||| Fld.rungAt) s (State.readOut s rq via a) := by
  unfold State.readOut
  refine Keeps.cut s (Keeps.refl _ s) fun h0 => ?_
  split
  · rename_i a0 a1 a2 a3
    refine Keeps.cut (a2) ?_ fun h4 => ?_
    · refine Keeps.of_snd a3 ?_
      refine Keeps.step (State.regRead_keeps ..) rfl ?_
      assumption
    refine Keeps.step (State.emit_keeps ..) rfl ?_
    assumption

theorem execTopBadAccess_keeps (rq a bytes write s) : KeepsO (Fld.regs ||| Fld.hdr ||| Fld.log ||| Fld.out ||| Fld.irq ||| Fld.badAccTick ||| Fld.draws ||| Fld.rungs ||| Fld.rungAt) s (execTopBadAccess rq a bytes write s) := by
  unfold execTopBadAccess
  refine KeepsO.cut s (Keeps.refl _ s) fun h0 => ?_
  refine KeepsO.next ?_
  extract_lets -merge y0
  refine Keeps.ite ?_ ?_
  · unfold y0
    refine Keeps.ite ?_ ?_
    · refine Keeps.step (State.badAccess_keeps ..) rfl ?_
      assumption
    · refine Keeps.step (State.emit_keeps ..) rfl ?_
      refine Keeps.step (State.badAccess_keeps ..) rfl ?_
      assumption
  · refine Keeps.ite ?_ ?_
    · assumption
    · refine Keeps.ite ?_ ?_
      · unfold y0
        refine Keeps.ite ?_ ?_
        · refine Keeps.step (State.badAccess_keeps ..) rfl ?_
          refine Keeps.step (State.badAccess_keeps ..) rfl ?_
          assumption
        · refine Keeps.step (State.emit_keeps ..) rfl ?_
          refine Keeps.step (State.badAccess_keeps ..) rfl ?_
          refine Keeps.step (State.badAccess_keeps ..) rfl ?_
          assumption
      · unfold y0
        refine Keeps.ite ?_ ?_
        · refine Keeps.step (State.badAccess_keeps ..) rfl ?_
          assumption
        · refine Keeps.step (State.emit_keeps ..) rfl ?_
          refine Keeps.step (State.badAccess_keeps ..) rfl ?_
          assumption

theorem execLowWordRead_keeps (rq via a s) : KeepsO (Fld.regs ||| Fld.hdr ||| Fld.shadow ||| Fld.log ||| Fld.out ||| Fld.irq ||| Fld.badAccTick ||| Fld.draws ||| Fld.rungs ||| Fld.thm ||| Fld.rungAt) s (execLowWordRead rq via a s) := by
  unfold execLowWordRead
  refine KeepsO.cut s (Keeps.refl _ s) fun h0 => ?_
  refine KeepsO.next ?_
  refine Keeps.step (State.readOut_keeps ..) rfl ?_
  assumption

theorem execRpRead_keeps (rq a s) : KeepsO (Fld.regs ||| Fld.hdr ||| Fld.shadow ||| Fld.log ||| Fld.out ||| Fld.irq ||| Fld.badAccTick ||| Fld.draws ||| Fld.rungs ||| Fld.thm ||| Fld.rungAt) s (execRpRead rq a s) := by
  unfold execRpRead
  refine KeepsO.cut s (Keeps.refl _ s) fun h0 => ?_
  refine KeepsO.next ?_
  refine Keeps.step (State.readOut_keeps ..) rfl ?_
  assumption

theorem execRcRead_keeps (rq a s) : KeepsO (Fld.regs ||| Fld.hdr ||| Fld.shadow ||| Fld.log ||| Fld.out ||| Fld.irq ||| Fld.badAccTick ||| Fld.draws ||| Fld.rungs ||| Fld.thm ||| Fld.rungAt) s (execRcRead rq a s) := by
  unfold execRcRead
  refine KeepsO.cut s (Keeps.refl _ s) fun h0 => ?_
  refine KeepsO.next ?_
  refine Keeps.step (State.readOut_keeps ..) rfl ?_
  assumption

theorem State.writeCalCmd_keeps (s rq v) : Keeps (Fld.regs ||| Fld.hdr ||| Fld.heldWrites ||| Fld.log ||| Fld.out ||| Fld.irq ||| Fld.draws ||| Fld.leases ||| Fld.rungs ||| Fld.rows ||| Fld.tiles ||| Fld.flash ||| Fld.cal ||| Fld.flashq ||| Fld.rungAt) s (State.writeCalCmd s rq v) := by
  unfold State.writeCalCmd
  refine Keeps.cut s (Keeps.refl _ s) fun h0 => ?_
  extract_lets -merge y0 y1
  clear_value y0 y1
  split
  · rename_i a2 a3
    refine runOn_hof ?_ rfl ?_
    · intro t4
      exact KeepsO.mono (execRunCal_keeps _ _ _ _) rfl
    assumption
  · rename_i a5 a6
    refine runOn_hof ?_ rfl ?_
    · intro t7
      exact KeepsO.mono (execCalCommit_keeps _ _ _ _) rfl
    assumption
  · rename_i a8 a9
    refine runOn_hof ?_ rfl ?_
    · intro t10
      exact KeepsO.mono (execCalRevert_keeps _ _ _ _) rfl
    assumption
  · rename_i a11 a12
    refine runOn_hof ?_ rfl ?_
    · intro t13
      exact KeepsO.mono (execCalAbort_keeps _ _ _ _) rfl
    assumption
  · rename_i a14 a15
    refine runOn_hof ?_ rfl ?_
    · intro t16
      exact KeepsO.mono (execCalSnapshot_keeps _ _ _ _) rfl
    assumption
  · rename_i a17 a18 a19 a20 a21 a22
    assumption

theorem State.writeCtxCmd_keeps (s rq c v) : Keeps (Fld.regs ||| Fld.hdr ||| Fld.heldWrites ||| Fld.log ||| Fld.out ||| Fld.irq ||| Fld.draws ||| Fld.leases ||| Fld.tickets ||| Fld.jobs ||| Fld.ctxs ||| Fld.lines ||| Fld.tags ||| Fld.rungs ||| Fld.frames ||| Fld.imports ||| Fld.ends ||| Fld.rungAt) s (State.writeCtxCmd s rq c v) := by
  unfold State.writeCtxCmd
  refine Keeps.cut s (Keeps.refl _ s) fun h0 => ?_
  split
  · rename_i a0 a1
    refine runOn_hof ?_ rfl ?_
    · intro t2
      exact KeepsO.mono (execCtxCreate_keeps _ _ _) rfl
    assumption
  · rename_i a3 a4
    refine runOn_hof ?_ rfl ?_
    · intro t5
      exact KeepsO.mono (execCtxDestroy_keeps _ _ _) rfl
    assumption
  · rename_i a6 a7
    refine runOn_hof ?_ rfl ?_
    · intro t8
      exact KeepsO.mono (execInstallKey_keeps _ _ _) rfl
    assumption
  · rename_i a9 a10
    refine runOn_hof ?_ rfl ?_
    · intro t11
      exact KeepsO.mono (execCtxBack_keeps _ _ _ _) rfl
    assumption
  · rename_i a12 a13 a14 a15 a16
    assumption

theorem State.writeBootCmd_keeps (s rq off v env) : Keeps (Fld.regs ||| Fld.hdr ||| Fld.log ||| Fld.out ||| Fld.irq ||| Fld.draws ||| Fld.leases ||| Fld.tickets ||| Fld.jobs ||| Fld.plans ||| Fld.acct ||| Fld.ctxs ||| Fld.qps ||| Fld.landing ||| Fld.rungs ||| Fld.rows ||| Fld.tiles ||| Fld.harbour ||| Fld.hbPoison ||| Fld.hbWritten ||| Fld.frames ||| Fld.badSlots ||| Fld.owners ||| Fld.runs ||| Fld.imports ||| Fld.flash ||| Fld.flashq ||| Fld.ends ||| Fld.rungAt ||| Fld.boot) s (State.writeBootCmd s rq off v env) := by
  unfold State.writeBootCmd
  refine Keeps.cut s (Keeps.refl _ s) fun h0 => ?_
  extract_lets -merge y0
  clear_value y0
  refine Keeps.ite ?_ ?_
  · refine Keeps.ite ?_ ?_
    · refine runOn_hof ?_ rfl ?_
      · intro t1
        exact KeepsO.mono (execFwWrite_keeps _ _ _ _ _ _) rfl
      assumption
    · assumption
  · split
    · rename_i a2 a3
      refine runOn_hof ?_ rfl ?_
      · intro t4
        exact KeepsO.mono (execProfSelect_keeps _ _ _) rfl
      assumption
    · rename_i a5 a6
      refine runOn_hof ?_ rfl ?_
      · intro t7
        exact KeepsO.mono (execWriteProfile_keeps _ _ _) rfl
      assumption
    · rename_i a8 a9
      refine runOn_hof ?_ rfl ?_
      · intro t10
        exact KeepsO.mono (execWriteIndex_keeps _ _ _) rfl
      assumption
    · rename_i a11 a12 a13 a14
      assumption

theorem State.writeDbgCmd_keeps (s rq v env) : Keeps (Fld.regs ||| Fld.hdr ||| Fld.log ||| Fld.out ||| Fld.irq ||| Fld.draws ||| Fld.leases ||| Fld.tickets ||| Fld.jobs ||| Fld.ctxs ||| Fld.rungs ||| Fld.imports ||| Fld.ends ||| Fld.wd ||| Fld.rungAt ||| Fld.tap) s (State.writeDbgCmd s rq v env) := by
  unfold State.writeDbgCmd
  refine Keeps.cut s (Keeps.refl _ s) fun h0 => ?_
  extract_lets -merge y0
  clear_value y0
  split
  · rename_i a1 a2
    refine runOn_hof ?_ rfl ?_
    · intro t3
      exact KeepsO.mono (execDbgUnlock_keeps _ _ _) rfl
    assumption
  · rename_i a4 a5
    refine runOn_hof ?_ rfl ?_
    · intro t6
      exact KeepsO.mono (execDbgLock_keeps _ _) rfl
    assumption
  · rename_i a7 a8
    refine runOn_hof ?_ rfl ?_
    · intro t9
      exact KeepsO.mono (execDbgHalt_keeps _ _ _) rfl
    assumption
  · rename_i a10 a11
    refine runOn_hof ?_ rfl ?_
    · intro t12
      exact KeepsO.mono (execDbgResume_keeps _ _ _) rfl
    assumption
  · rename_i a13 a14 a15 a16 a17
    assumption

theorem State.writeKeyCmd_keeps (s rq v env) : Keeps (Fld.regs ||| Fld.hdr ||| Fld.heldWrites ||| Fld.log ||| Fld.out ||| Fld.irq ||| Fld.draws ||| Fld.leases ||| Fld.tickets ||| Fld.jobs ||| Fld.ctxs ||| Fld.rungs ||| Fld.imports ||| Fld.flash ||| Fld.flashq ||| Fld.ends ||| Fld.rungAt) s (State.writeKeyCmd s rq v env) := by
  unfold State.writeKeyCmd
  refine Keeps.cut s (Keeps.refl _ s) fun h0 => ?_
  split
  · rename_i a0 a1
    refine runOn_hof ?_ rfl ?_
    · intro t2
      exact KeepsO.mono (execRegKey_keeps _ _ _ _) rfl
    assumption
  · rename_i a3 a4
    refine runOn_hof ?_ rfl ?_
    · intro t5
      exact KeepsO.mono (execRevokeKey_keeps _ _ _) rfl
    assumption
  · rename_i a6 a7
    refine runOn_hof ?_ rfl ?_
    · intro t8
      exact KeepsO.mono (execZeroise_keeps _ _ _) rfl
    assumption
  · rename_i a9 a10 a11 a12
    assumption

theorem State.writeFence_keeps (s : State) (rq : Requester) (ty inst : Nat) (v : Word) : Keeps (Fld.regs ||| Fld.hdr ||| Fld.fencing ||| Fld.log ||| Fld.out ||| Fld.irq ||| Fld.draws ||| Fld.rungs ||| Fld.rows ||| Fld.tiles ||| Fld.tests ||| Fld.cal ||| Fld.rplChecks ||| Fld.rungAt ||| Fld.views) s (s.writeFence rq ty inst v) := by
  unfold State.writeFence
  refine Keeps.cut s (Keeps.refl _ s) fun h0 => ?_
  refine Keeps.ite h0 ?_
  extract_lets -merge was s1 s2 s3
  refine Keeps.cut s1 (State.updHd_hof (fun x _ hx => setFence_sub x rq _ hx) rfl h0) fun h1 => ?_
  refine Keeps.cut s2 (Keeps.set_fencing _ h1 rfl) fun h2 => ?_
  refine Keeps.cut s3 (Keeps.ite (Keeps.step (State.noteView_keeps ..) rfl h2) h2) fun h3 => ?_
  exact Keeps.ite h3 (Keeps.step (State.fenceEdge_keeps ..) rfl h3)

theorem State.hdrWrite_keeps (s rq ty inst off v) : Keeps (Fld.regs ||| Fld.hdr ||| Fld.fencing ||| Fld.log ||| Fld.out ||| Fld.irq ||| Fld.draws ||| Fld.rungs ||| Fld.rows ||| Fld.tiles ||| Fld.tests ||| Fld.cal ||| Fld.rplChecks ||| Fld.rungAt ||| Fld.views) s (State.hdrWrite s rq ty inst off v) := by
  unfold State.hdrWrite
  refine Keeps.cut s (Keeps.refl _ s) fun h0 => ?_
  refine Keeps.ite ?_ ?_
  · assumption
  · split
    · rename_i a0
      refine State.updHd_hof ?_ rfl ?_
      · exact fun _ _ hx => hx
      assumption
    · rename_i a1
      refine Keeps.step (State.writeEn_keeps ..) rfl ?_
      assumption
    · rename_i a2
      refine Keeps.step (State.writePend_keeps ..) rfl ?_
      assumption
    · rename_i a3
      refine Keeps.step (State.writeForce_keeps ..) rfl ?_
      assumption
    · rename_i a4
      refine Keeps.step (State.writeFence_keeps ..) rfl ?_
      assumption
    · rename_i a5 a6 a7 a8 a9 a10
      assumption

theorem State.act_keeps (s rq via a v env) : Keeps (Fld.regs ||| Fld.hdr ||| Fld.heldWrites ||| Fld.pendWas ||| Fld.log ||| Fld.out ||| Fld.irq ||| Fld.draws ||| Fld.leases ||| Fld.tide ||| Fld.tickets ||| Fld.jobs ||| Fld.plans ||| Fld.acct ||| Fld.slu ||| Fld.ctxs ||| Fld.lines ||| Fld.tags ||| Fld.qps ||| Fld.ovf ||| Fld.landing ||| Fld.rungs ||| Fld.rows ||| Fld.tiles ||| Fld.trims ||| Fld.weir ||| Fld.harbour ||| Fld.hbPoison ||| Fld.hbWritten ||| Fld.frames ||| Fld.badSlots ||| Fld.owners ||| Fld.runs ||| Fld.imports ||| Fld.tests ||| Fld.flash ||| Fld.cal ||| Fld.flashq ||| Fld.ends ||| Fld.wd ||| Fld.rungAt ||| Fld.boot ||| Fld.tap) s (State.act s rq via a v env) := by
  unfold State.act
  refine Keeps.cut s (Keeps.refl _ s) fun h0 => ?_
  extract_lets -merge y0 y1 y2
  clear_value y0 y1
  refine Keeps.cut (y2) ?_ fun h3 => ?_
  · unfold y2
    refine Keeps.step (State.plainWrite_keeps ..) rfl ?_
    assumption
  clear_value y2
  split
  · rename_i a4 a5 a6
    refine Keeps.step (State.writePendSel_keeps ..) rfl ?_
    assumption
  · rename_i a7 a8 a9
    refine runOn_hof ?_ rfl ?_
    · intro t10
      exact KeepsO.mono (execWdKick_keeps _ _ _) rfl
    assumption
  · rename_i a11 a12 a13
    refine Keeps.step (State.writeWeirCtl_keeps ..) rfl ?_
    assumption
  · rename_i a14 a15 a16
    refine Keeps.step (State.writeColmapCtl_keeps ..) rfl ?_
    assumption
  · rename_i a17 a18 a19
    refine Keeps.step (State.writeRfshCtl_keeps ..) rfl ?_
    assumption
  · rename_i a20 a21 a22
    refine Keeps.step (State.writeSluCtl_keeps ..) rfl ?_
    assumption
  · rename_i a23 a24 a25
    refine Keeps.step (State.writeCap_keeps ..) rfl ?_
    assumption
  · rename_i a26 a27 a28
    refine Keeps.step (State.writeAvsCtl_keeps ..) rfl ?_
    assumption
  · rename_i a29 a30 a31
    refine Keeps.step (State.writePpsCtl_keeps ..) rfl ?_
    assumption
  · rename_i a32 a33 a34
    refine Keeps.step (State.writeSlkCtl_keeps ..) rfl ?_
    assumption
  · rename_i a35 a36 a37
    refine Keeps.step (State.writeTktSel_keeps ..) rfl ?_
    assumption
  · rename_i a38 a39 a40
    refine Keeps.step (State.writeKeyCmd_keeps ..) rfl ?_
    assumption
  · rename_i a41 a42 a43
    refine Keeps.step (State.writeLogCmd_keeps ..) rfl ?_
    assumption
  · rename_i a44 a45 a46
    refine Keeps.step (State.writeCalCmd_keeps ..) rfl ?_
    assumption
  · rename_i a47 a48 a49
    refine Keeps.step (State.writeTstCmd_keeps ..) rfl ?_
    assumption
  · rename_i a50 a51 a52
    refine Keeps.step (State.writeRcvCmd_keeps ..) rfl ?_
    assumption
  · rename_i a53 a54 a55
    refine Keeps.step (State.writeBootCmd_keeps ..) rfl ?_
    assumption
  · rename_i a56 a57 a58
    refine Keeps.step (State.writeBootCmd_keeps ..) rfl ?_
    assumption
  · rename_i a59 a60 a61
    refine Keeps.step (State.writeFreeze_keeps ..) rfl ?_
    assumption
  · rename_i a62 a63 a64
    refine Keeps.step (State.writeDbgCmd_keeps ..) rfl ?_
    assumption
  · rename_i a65 a66 a67
    refine Keeps.step (State.writeCtxCmd_keeps ..) rfl ?_
    assumption
  · rename_i a68 a69 a70 a71 a72 a73 a74 a75 a76 a77 a78 a79 a80 a81 a82 a83 a84 a85 a86 a87 a88 a89 a90 a91
    refine Keeps.ite ?_ ?_
    · refine Keeps.step (State.writeTrim_keeps ..) rfl ?_
      assumption
    · refine Keeps.ite ?_ ?_
      · refine Keeps.step (State.writeCap_keeps ..) rfl ?_
        assumption
      · refine Keeps.ite ?_ ?_
        · refine Keeps.step (State.writeQCmd_keeps ..) rfl ?_
          assumption
        · refine Keeps.ite ?_ ?_
          · refine Keeps.step (State.writeMgmt_keeps ..) rfl ?_
            assumption
          · refine Keeps.step (State.plainWrite_keeps ..) rfl ?_
            assumption

theorem State.bodyWrite_keeps (s rq via a v env) : Keeps (Fld.regs ||| Fld.hdr ||| Fld.staged ||| Fld.heldWrites ||| Fld.pendWas ||| Fld.log ||| Fld.out ||| Fld.irq ||| Fld.draws ||| Fld.leases ||| Fld.tide ||| Fld.tickets ||| Fld.jobs ||| Fld.plans ||| Fld.acct ||| Fld.slu ||| Fld.ctxs ||| Fld.lines ||| Fld.tags ||| Fld.qps ||| Fld.ovf ||| Fld.landing ||| Fld.rungs ||| Fld.rows ||| Fld.tiles ||| Fld.trims ||| Fld.weir ||| Fld.harbour ||| Fld.hbPoison ||| Fld.hbWritten ||| Fld.frames ||| Fld.badSlots ||| Fld.owners ||| Fld.runs ||| Fld.imports ||| Fld.tests ||| Fld.flash ||| Fld.cal ||| Fld.flashq ||| Fld.ends ||| Fld.wd ||| Fld.rungAt ||| Fld.boot ||| Fld.tap) s (State.bodyWrite s rq via a v env) := by
  unfold State.bodyWrite
  refine Keeps.cut s (Keeps.refl _ s) fun h0 => ?_
  split
  · rename_i a0 a1 a2 a3 a4
    extract_lets -merge y5 y6
    clear_value y5 y6
    refine Keeps.ite ?_ ?_
    · exact ((Keeps.set_staged _ h0 rfl) :)
    · refine Keeps.ite ?_ ?_
      · refine Keeps.ite ?_ ?_
        · refine Keeps.step (State.commitPair_keeps ..) rfl ?_
          exact ((Keeps.set_staged _ h0 rfl) :)
        · refine Keeps.step (State.commitPair_keeps ..) rfl ?_
          assumption
      · refine Keeps.ite ?_ ?_
        · refine Keeps.step (State.store_keeps ..) rfl ?_
          assumption
        · refine Keeps.step (State.act_keeps ..) rfl ?_
          assumption
  · rename_i a7 a8 a9 a10 a11
    refine Keeps.step (State.act_keeps ..) rfl ?_
    assumption
  · rename_i a12 a13 a14 a15 a16
    refine Keeps.step (State.clearBits_keeps ..) rfl ?_
    assumption
  · rename_i a17 a18 a19 a20 a21
    assumption

theorem State.applyWrite_keeps (s rq via a v env) : Keeps (Fld.regs ||| Fld.hdr ||| Fld.staged ||| Fld.heldWrites ||| Fld.fencing ||| Fld.pendWas ||| Fld.log ||| Fld.out ||| Fld.irq ||| Fld.draws ||| Fld.leases ||| Fld.tide ||| Fld.tickets ||| Fld.jobs ||| Fld.plans ||| Fld.acct ||| Fld.slu ||| Fld.ctxs ||| Fld.lines ||| Fld.tags ||| Fld.qps ||| Fld.ovf ||| Fld.landing ||| Fld.rungs ||| Fld.rows ||| Fld.tiles ||| Fld.trims ||| Fld.weir ||| Fld.harbour ||| Fld.hbPoison ||| Fld.hbWritten ||| Fld.frames ||| Fld.badSlots ||| Fld.owners ||| Fld.runs ||| Fld.imports ||| Fld.tests ||| Fld.flash ||| Fld.cal ||| Fld.flashq ||| Fld.ends ||| Fld.rplChecks ||| Fld.wd ||| Fld.rungAt ||| Fld.views ||| Fld.boot ||| Fld.tap) s (State.applyWrite s rq via a v env) := by
  unfold State.applyWrite
  refine Keeps.cut s (Keeps.refl _ s) fun h0 => ?_
  refine Keeps.ite ?_ ?_
  · refine Keeps.step (State.hdrWrite_keeps ..) rfl ?_
    assumption
  · refine Keeps.ite ?_ ?_
    · refine Keeps.step (State.bodyWrite_keeps ..) rfl ?_
      assumption
    · assumption

theorem State.regWrite_keeps (s rq via a v env) : Keeps (Fld.regs ||| Fld.hdr ||| Fld.staged ||| Fld.heldWrites ||| Fld.fencing ||| Fld.pendWas ||| Fld.log ||| Fld.out ||| Fld.irq ||| Fld.badAccTick ||| Fld.draws ||| Fld.leases ||| Fld.tide ||| Fld.tickets ||| Fld.jobs ||| Fld.plans ||| Fld.acct ||| Fld.slu ||| Fld.ctxs ||| Fld.lines ||| Fld.tags ||| Fld.qps ||| Fld.ovf ||| Fld.landing ||| Fld.rungs ||| Fld.rows ||| Fld.tiles ||| Fld.trims ||| Fld.weir ||| Fld.harbour ||| Fld.hbPoison ||| Fld.hbWritten ||| Fld.frames ||| Fld.badSlots ||| Fld.owners ||| Fld.runs ||| Fld.imports ||| Fld.tests ||| Fld.flash ||| Fld.cal ||| Fld.flashq ||| Fld.ends ||| Fld.rplChecks ||| Fld.wd ||| Fld.rungAt ||| Fld.views ||| Fld.boot ||| Fld.tap) s (State.regWrite s rq via a v env) := by
  unfold State.regWrite
  refine Keeps.cut s (Keeps.refl _ s) fun h0 => ?_
  refine Keeps.ite ?_ ?_
  · refine Keeps.step (State.badAccess_keeps ..) rfl ?_
    assumption
  · refine Keeps.ite ?_ ?_
    · assumption
    · refine Keeps.ite ?_ ?_
      · exact ((Keeps.set_heldWrites _ h0 rfl) :)
      · refine Keeps.step (State.applyWrite_keeps ..) rfl ?_
        assumption

theorem execEvtPendWrite_keeps (rq ty inst v s) : KeepsO (Fld.regs ||| Fld.hdr ||| Fld.staged ||| Fld.heldWrites ||| Fld.fencing ||| Fld.pendWas ||| Fld.log ||| Fld.out ||| Fld.irq ||| Fld.badAccTick ||| Fld.draws ||| Fld.leases ||| Fld.tide ||| Fld.tickets ||| Fld.jobs ||| Fld.plans ||| Fld.acct ||| Fld.slu ||| Fld.ctxs ||| Fld.lines ||| Fld.tags ||| Fld.qps ||| Fld.ovf ||| Fld.landing ||| Fld.rungs ||| Fld.rows ||| Fld.tiles ||| Fld.trims ||| Fld.weir ||| Fld.harbour ||| Fld.hbPoison ||| Fld.hbWritten ||| Fld.frames ||| Fld.badSlots ||| Fld.owners ||| Fld.runs ||| Fld.imports ||| Fld.tests ||| Fld.flash ||| Fld.cal ||| Fld.flashq ||| Fld.ends ||| Fld.rplChecks ||| Fld.wd ||| Fld.rungAt ||| Fld.views ||| Fld.boot ||| Fld.tap) s (execEvtPendWrite rq ty inst v s) := by
  unfold execEvtPendWrite
  refine KeepsO.cut s (Keeps.refl _ s) fun h0 => ?_
  refine KeepsO.next ?_
  refine Keeps.step (State.regWrite_keeps ..) rfl ?_
  assumption

theorem State.releaseWrites_keeps (s) : Keeps (Fld.regs ||| Fld.hdr ||| Fld.staged ||| Fld.heldWrites ||| Fld.fencing ||| Fld.pendWas ||| Fld.log ||| Fld.out ||| Fld.irq ||| Fld.draws ||| Fld.leases ||| Fld.tide ||| Fld.tickets ||| Fld.jobs ||| Fld.plans ||| Fld.acct ||| Fld.slu ||| Fld.ctxs ||| Fld.lines ||| Fld.tags ||| Fld.qps ||| Fld.ovf ||| Fld.landing ||| Fld.rungs ||| Fld.rows ||| Fld.tiles ||| Fld.trims ||| Fld.weir ||| Fld.harbour ||| Fld.hbPoison ||| Fld.hbWritten ||| Fld.frames ||| Fld.badSlots ||| Fld.owners ||| Fld.runs ||| Fld.imports ||| Fld.tests ||| Fld.flash ||| Fld.cal ||| Fld.flashq ||| Fld.ends ||| Fld.rplChecks ||| Fld.wd ||| Fld.rungAt ||| Fld.views ||| Fld.boot ||| Fld.tap) s (State.releaseWrites s) := by
  unfold State.releaseWrites
  refine Keeps.cut s (Keeps.refl _ s) fun h0 => ?_
  extract_lets -merge y0
  refine Keeps.foldl ?_ ?_
  · intro t1 x2 h3
    refine Keeps.step (State.applyWrite_keeps ..) rfl ?_
    assumption
  exact ((Keeps.set_heldWrites _ h0 rfl) :)

theorem execLowWordWrite_keeps (rq via a v s) : KeepsO (Fld.regs ||| Fld.hdr ||| Fld.staged ||| Fld.heldWrites ||| Fld.fencing ||| Fld.pendWas ||| Fld.log ||| Fld.out ||| Fld.irq ||| Fld.badAccTick ||| Fld.draws ||| Fld.leases ||| Fld.tide ||| Fld.tickets ||| Fld.jobs ||| Fld.plans ||| Fld.acct ||| Fld.slu ||| Fld.ctxs ||| Fld.lines ||| Fld.tags ||| Fld.qps ||| Fld.ovf ||| Fld.landing ||| Fld.rungs ||| Fld.rows ||| Fld.tiles ||| Fld.trims ||| Fld.weir ||| Fld.harbour ||| Fld.hbPoison ||| Fld.hbWritten ||| Fld.frames ||| Fld.badSlots ||| Fld.owners ||| Fld.runs ||| Fld.imports ||| Fld.tests ||| Fld.flash ||| Fld.cal ||| Fld.flashq ||| Fld.ends ||| Fld.rplChecks ||| Fld.wd ||| Fld.rungAt ||| Fld.views ||| Fld.boot ||| Fld.tap) s (execLowWordWrite rq via a v s) := by
  unfold execLowWordWrite
  refine KeepsO.cut s (Keeps.refl _ s) fun h0 => ?_
  refine KeepsO.next ?_
  refine Keeps.step (State.regWrite_keeps ..) rfl ?_
  assumption

theorem execRegWrite_keeps (rq via a v env s) : KeepsO (Fld.regs ||| Fld.hdr ||| Fld.staged ||| Fld.heldWrites ||| Fld.fencing ||| Fld.pendWas ||| Fld.log ||| Fld.out ||| Fld.irq ||| Fld.badAccTick ||| Fld.draws ||| Fld.leases ||| Fld.tide ||| Fld.tickets ||| Fld.jobs ||| Fld.plans ||| Fld.acct ||| Fld.slu ||| Fld.ctxs ||| Fld.lines ||| Fld.tags ||| Fld.qps ||| Fld.ovf ||| Fld.landing ||| Fld.rungs ||| Fld.rows ||| Fld.tiles ||| Fld.trims ||| Fld.weir ||| Fld.harbour ||| Fld.hbPoison ||| Fld.hbWritten ||| Fld.frames ||| Fld.badSlots ||| Fld.owners ||| Fld.runs ||| Fld.imports ||| Fld.tests ||| Fld.flash ||| Fld.cal ||| Fld.flashq ||| Fld.ends ||| Fld.rplChecks ||| Fld.wd ||| Fld.rungAt ||| Fld.views ||| Fld.boot ||| Fld.tap) s (execRegWrite rq via a v env s) := by
  unfold execRegWrite
  refine KeepsO.cut s (Keeps.refl _ s) fun h0 => ?_
  refine KeepsO.next ?_
  refine Keeps.step (State.regWrite_keeps ..) rfl ?_
  assumption

theorem execEvtEnWrite_keeps (rq ty inst v s) : KeepsO (Fld.regs ||| Fld.hdr ||| Fld.staged ||| Fld.heldWrites ||| Fld.fencing ||| Fld.pendWas ||| Fld.log ||| Fld.out ||| Fld.irq ||| Fld.badAccTick ||| Fld.draws ||| Fld.leases ||| Fld.tide ||| Fld.tickets ||| Fld.jobs ||| Fld.plans ||| Fld.acct ||| Fld.slu ||| Fld.ctxs ||| Fld.lines ||| Fld.tags ||| Fld.qps ||| Fld.ovf ||| Fld.landing ||| Fld.rungs ||| Fld.rows ||| Fld.tiles ||| Fld.trims ||| Fld.weir ||| Fld.harbour ||| Fld.hbPoison ||| Fld.hbWritten ||| Fld.frames ||| Fld.badSlots ||| Fld.owners ||| Fld.runs ||| Fld.imports ||| Fld.tests ||| Fld.flash ||| Fld.cal ||| Fld.flashq ||| Fld.ends ||| Fld.rplChecks ||| Fld.wd ||| Fld.rungAt ||| Fld.views ||| Fld.boot ||| Fld.tap) s (execEvtEnWrite rq ty inst v s) := by
  unfold execEvtEnWrite
  refine KeepsO.cut s (Keeps.refl _ s) fun h0 => ?_
  refine KeepsO.next ?_
  refine Keeps.step (State.regWrite_keeps ..) rfl ?_
  assumption

theorem execPendSelWrite_keeps (rq v s) : KeepsO (Fld.regs ||| Fld.hdr ||| Fld.staged ||| Fld.heldWrites ||| Fld.fencing ||| Fld.pendWas ||| Fld.log ||| Fld.out ||| Fld.irq ||| Fld.badAccTick ||| Fld.draws ||| Fld.leases ||| Fld.tide ||| Fld.tickets ||| Fld.jobs ||| Fld.plans ||| Fld.acct ||| Fld.slu ||| Fld.ctxs ||| Fld.lines ||| Fld.tags ||| Fld.qps ||| Fld.ovf ||| Fld.landing ||| Fld.rungs ||| Fld.rows ||| Fld.tiles ||| Fld.trims ||| Fld.weir ||| Fld.harbour ||| Fld.hbPoison ||| Fld.hbWritten ||| Fld.frames ||| Fld.badSlots ||| Fld.owners ||| Fld.runs ||| Fld.imports ||| Fld.tests ||| Fld.flash ||| Fld.cal ||| Fld.flashq ||| Fld.ends ||| Fld.rplChecks ||| Fld.wd ||| Fld.rungAt ||| Fld.views ||| Fld.boot ||| Fld.tap) s (execPendSelWrite rq v s) := by
  unfold execPendSelWrite
  refine KeepsO.cut s (Keeps.refl _ s) fun h0 => ?_
  refine KeepsO.next ?_
  refine Keeps.step (State.regWrite_keeps ..) rfl ?_
  assumption

theorem execFenceWrite_keeps (rq ty inst v s) : KeepsO (Fld.regs ||| Fld.hdr ||| Fld.staged ||| Fld.heldWrites ||| Fld.fencing ||| Fld.pendWas ||| Fld.log ||| Fld.out ||| Fld.irq ||| Fld.badAccTick ||| Fld.draws ||| Fld.leases ||| Fld.tide ||| Fld.tickets ||| Fld.jobs ||| Fld.plans ||| Fld.acct ||| Fld.slu ||| Fld.ctxs ||| Fld.lines ||| Fld.tags ||| Fld.qps ||| Fld.ovf ||| Fld.landing ||| Fld.rungs ||| Fld.rows ||| Fld.tiles ||| Fld.trims ||| Fld.weir ||| Fld.harbour ||| Fld.hbPoison ||| Fld.hbWritten ||| Fld.frames ||| Fld.badSlots ||| Fld.owners ||| Fld.runs ||| Fld.imports ||| Fld.tests ||| Fld.flash ||| Fld.cal ||| Fld.flashq ||| Fld.ends ||| Fld.rplChecks ||| Fld.wd ||| Fld.rungAt ||| Fld.views ||| Fld.boot ||| Fld.tap) s (execFenceWrite rq ty inst v s) := by
  unfold execFenceWrite
  refine KeepsO.cut s (Keeps.refl _ s) fun h0 => ?_
  refine KeepsO.next ?_
  refine Keeps.step (State.regWrite_keeps ..) rfl ?_
  assumption

theorem execHighWordWrite_keeps (rq via a v s) : KeepsO (Fld.regs ||| Fld.hdr ||| Fld.staged ||| Fld.heldWrites ||| Fld.fencing ||| Fld.pendWas ||| Fld.log ||| Fld.out ||| Fld.irq ||| Fld.badAccTick ||| Fld.draws ||| Fld.leases ||| Fld.tide ||| Fld.tickets ||| Fld.jobs ||| Fld.plans ||| Fld.acct ||| Fld.slu ||| Fld.ctxs ||| Fld.lines ||| Fld.tags ||| Fld.qps ||| Fld.ovf ||| Fld.landing ||| Fld.rungs ||| Fld.rows ||| Fld.tiles ||| Fld.trims ||| Fld.weir ||| Fld.harbour ||| Fld.hbPoison ||| Fld.hbWritten ||| Fld.frames ||| Fld.badSlots ||| Fld.owners ||| Fld.runs ||| Fld.imports ||| Fld.tests ||| Fld.flash ||| Fld.cal ||| Fld.flashq ||| Fld.ends ||| Fld.rplChecks ||| Fld.wd ||| Fld.rungAt ||| Fld.views ||| Fld.boot ||| Fld.tap) s (execHighWordWrite rq via a v s) := by
  unfold execHighWordWrite
  refine KeepsO.cut s (Keeps.refl _ s) fun h0 => ?_
  refine KeepsO.next ?_
  refine Keeps.step (State.regWrite_keeps ..) rfl ?_
  assumption

theorem execEvtForce_keeps (rq ty inst v s) : KeepsO (Fld.regs ||| Fld.hdr ||| Fld.staged ||| Fld.heldWrites ||| Fld.fencing ||| Fld.pendWas ||| Fld.log ||| Fld.out ||| Fld.irq ||| Fld.badAccTick ||| Fld.draws ||| Fld.leases ||| Fld.tide ||| Fld.tickets ||| Fld.jobs ||| Fld.plans ||| Fld.acct ||| Fld.slu ||| Fld.ctxs ||| Fld.lines ||| Fld.tags ||| Fld.qps ||| Fld.ovf ||| Fld.landing ||| Fld.rungs ||| Fld.rows ||| Fld.tiles ||| Fld.trims ||| Fld.weir ||| Fld.harbour ||| Fld.hbPoison ||| Fld.hbWritten ||| Fld.frames ||| Fld.badSlots ||| Fld.owners ||| Fld.runs ||| Fld.imports ||| Fld.tests ||| Fld.flash ||| Fld.cal ||| Fld.flashq ||| Fld.ends ||| Fld.rplChecks ||| Fld.wd ||| Fld.rungAt ||| Fld.views ||| Fld.boot ||| Fld.tap) s (execEvtForce rq ty inst v s) := by
  unfold execEvtForce
  refine KeepsO.cut s (Keeps.refl _ s) fun h0 => ?_
  refine KeepsO.next ?_
  refine Keeps.step (State.regWrite_keeps ..) rfl ?_
  assumption

theorem execRw1cWrite_keeps (rq a v s) : KeepsO (Fld.regs ||| Fld.hdr ||| Fld.staged ||| Fld.heldWrites ||| Fld.fencing ||| Fld.pendWas ||| Fld.log ||| Fld.out ||| Fld.irq ||| Fld.badAccTick ||| Fld.draws ||| Fld.leases ||| Fld.tide ||| Fld.tickets ||| Fld.jobs ||| Fld.plans ||| Fld.acct ||| Fld.slu ||| Fld.ctxs ||| Fld.lines ||| Fld.tags ||| Fld.qps ||| Fld.ovf ||| Fld.landing ||| Fld.rungs ||| Fld.rows ||| Fld.tiles ||| Fld.trims ||| Fld.weir ||| Fld.harbour ||| Fld.hbPoison ||| Fld.hbWritten ||| Fld.frames ||| Fld.badSlots ||| Fld.owners ||| Fld.runs ||| Fld.imports ||| Fld.tests ||| Fld.flash ||| Fld.cal ||| Fld.flashq ||| Fld.ends ||| Fld.rplChecks ||| Fld.wd ||| Fld.rungAt ||| Fld.views ||| Fld.boot ||| Fld.tap) s (execRw1cWrite rq a v s) := by
  unfold execRw1cWrite
  refine KeepsO.cut s (Keeps.refl _ s) fun h0 => ?_
  refine KeepsO.next ?_
  refine Keeps.step (State.regWrite_keeps ..) rfl ?_
  assumption

end Sys2Proof.Machine
end

