-- ==== Sys2Proof/Laws/Csw.lean ====
section
/-!
SUPPORT. What each function of Machine/Csw.lean may change, and that it keeps the invariant of State.
-/
set_option linter.unusedVariables false
namespace Sys2Proof.Machine

theorem State.setSession_keeps (s x) : Keeps (Fld.sessions) s (State.setSession s x) := by
  unfold State.setSession
  refine Keeps.cut s (Keeps.refl _ s) fun h0 => ?_
  exact ((Keeps.set_sessions _ h0 rfl) :)

theorem execDynamicAddressAssign_keeps (addr s) : KeepsO (Fld.mctp) s (execDynamicAddressAssign addr s) := by
  unfold execDynamicAddressAssign
  refine KeepsO.cut s (Keeps.refl _ s) fun h0 => ?_
  refine KeepsO.next ?_
  refine Keeps.ite ?_ ?_
  · extract_lets -merge y0
    clear_value y0
    exact ((Keeps.set_mctp _ h0 rfl) :)
  · assumption

theorem State.countMsg_keeps (s i3c a) : Keeps (Fld.regs) s (State.countMsg s i3c a) := by
  unfold State.countMsg
  refine Keeps.cut s (Keeps.refl _ s) fun h0 => ?_
  refine Keeps.ite ?_ ?_
  · assumption
  · refine Keeps.step (State.incSat_keeps ..) rfl ?_
    assumption

theorem execArpRequest_keeps (sender target s) : KeepsO (Fld.out) s (execArpRequest sender target s) := by
  unfold execArpRequest
  refine KeepsO.cut s (Keeps.refl _ s) fun h0 => ?_
  refine KeepsO.next ?_
  extract_lets -merge y0
  clear_value y0
  refine Keeps.ite ?_ ?_
  · refine Keeps.step (State.emit_keeps ..) rfl ?_
    assumption
  · assumption

theorem execSetEndpointId_keeps (eid s) : KeepsO (Fld.out ||| Fld.mctp) s (execSetEndpointId eid s) := by
  unfold execSetEndpointId
  refine KeepsO.cut s (Keeps.refl _ s) fun h0 => ?_
  refine KeepsO.next ?_
  refine Keeps.ite ?_ ?_
  · assumption
  · refine Keeps.ite ?_ ?_
    · refine Keeps.step (State.emit_keeps ..) rfl ?_
      assumption
    · extract_lets -merge y0
      clear_value y0
      refine Keeps.step (State.emit_keeps ..) rfl ?_
      exact ((Keeps.set_mctp _ h0 rfl) :)

theorem State.mctpSay_keeps (s code body) : Keeps (Fld.out) s (State.mctpSay s code body) := by
  unfold State.mctpSay
  refine Keeps.cut s (Keeps.refl _ s) fun h0 => ?_
  refine Keeps.ite ?_ ?_
  · refine Keeps.step (State.emit_keeps ..) rfl ?_
    assumption
  · assumption

theorem execGetMessageTypeSupport_keeps (s) : KeepsO (Fld.out) s (execGetMessageTypeSupport s) := by
  unfold execGetMessageTypeSupport
  refine KeepsO.cut s (Keeps.refl _ s) fun h0 => ?_
  refine KeepsO.next ?_
  refine Keeps.step (State.mctpSay_keeps ..) rfl ?_
  assumption

theorem State.mctpFree_keeps (s n) : Keeps (Fld.out ||| Fld.draws) s (State.mctpFree s n) := by
  unfold State.mctpFree
  refine Keeps.cut s (Keeps.refl _ s) fun h0 => ?_
  refine Keeps.ite ?_ ?_
  · split
    · rename_i a0 a1 a2 a3
      refine Keeps.cut (a2) ?_ fun h4 => ?_
      · refine Keeps.of_snd a3 ?_
        refine Keeps.step (State.freeBytes_keeps ..) rfl ?_
        assumption
      refine Keeps.step (State.emit_keeps ..) rfl ?_
      assumption
  · assumption

theorem execIcmpEcho_keeps (dst data s) : KeepsO (Fld.out) s (execIcmpEcho dst data s) := by
  unfold execIcmpEcho
  refine KeepsO.cut s (Keeps.refl _ s) fun h0 => ?_
  refine KeepsO.next ?_
  extract_lets -merge y0
  clear_value y0
  refine Keeps.ite ?_ ?_
  · refine Keeps.step (State.emit_keeps ..) rfl ?_
    assumption
  · assumption

theorem execPldmUnsupported_keeps (ty cmd s) : KeepsO (Fld.out) s (execPldmUnsupported ty cmd s) := by
  unfold execPldmUnsupported
  refine KeepsO.cut s (Keeps.refl _ s) fun h0 => ?_
  refine KeepsO.next ?_
  refine Keeps.ite ?_ ?_
  · assumption
  · refine Keeps.step (State.mctpSay_keeps ..) rfl ?_
    assumption

theorem State.say_keeps (s x ty status flags body) : Keeps (Fld.regs ||| Fld.out ||| Fld.sessions) s (State.say s x ty status flags body) := by
  unfold State.say
  refine Keeps.cut s (Keeps.refl _ s) fun h0 => ?_
  extract_lets -merge y0
  clear_value y0
  refine Keeps.step (State.emit_keeps ..) rfl ?_
  refine Keeps.step (State.countMsg_keeps ..) rfl ?_
  refine Keeps.step (State.setSession_keeps ..) rfl ?_
  assumption

theorem execGetMctpVersionSupport_keeps (_ty s) : KeepsO (Fld.out ||| Fld.draws) s (execGetMctpVersionSupport _ty s) := by
  unfold execGetMctpVersionSupport
  refine KeepsO.cut s (Keeps.refl _ s) fun h0 => ?_
  refine KeepsO.next ?_
  refine Keeps.step (State.mctpFree_keeps ..) rfl ?_
  assumption

theorem execGetpldmtypes_keeps (s) : KeepsO (Fld.out) s (execGetpldmtypes s) := by
  unfold execGetpldmtypes
  refine KeepsO.cut s (Keeps.refl _ s) fun h0 => ?_
  refine KeepsO.next ?_
  refine Keeps.step (State.mctpSay_keeps ..) rfl ?_
  assumption

theorem State.pldmType_hof {m : Nat} {s u : State} {x : Byte} {f : State → State} (hf : ∀ t, Keeps m s t → Keeps m s (f t))
    (hm : Fld.sub (Fld.out) m = true) (h : Keeps m s u) : Keeps m s (u.pldmType x f) :=
  Keeps.ite (hf u h) (Keeps.step (State.mctpSay_keeps ..) hm h)

theorem execGetEndpointId_keeps (s) : KeepsO (Fld.out) s (execGetEndpointId s) := by
  unfold execGetEndpointId
  refine KeepsO.cut s (Keeps.refl _ s) fun h0 => ?_
  refine KeepsO.next ?_
  refine Keeps.step (State.mctpSay_keeps ..) rfl ?_
  assumption

theorem execGetpldmversion_keeps (ty s) : KeepsO (Fld.out ||| Fld.draws) s (execGetpldmversion ty s) := by
  unfold execGetpldmversion
  refine KeepsO.cut s (Keeps.refl _ s) fun h0 => ?_
  refine KeepsO.next ?_
  refine State.pldmType_hof ?_ rfl ?_
  · intro t0 x1
    refine Keeps.step (State.mctpFree_keeps ..) rfl ?_
    assumption
  assumption

theorem State.keySet_keeps (s open' key pub sigOk) : Keeps (Fld.leases ||| Fld.flash ||| Fld.flashq) s (State.keySet s open' key pub sigOk).1 := by
  unfold State.keySet
  refine Keeps.cut s (Keeps.refl _ s) fun h0 => ?_
  split
  · rename_i a0
    dsimp only
    assumption
  · rename_i a1
    split
    · rename_i a2
      dsimp only
      assumption
    · rename_i a3
      dsimp only
      refine Keeps.step (State.writeMgmt_keeps ..) rfl ?_
      assumption

theorem execGetpdr_keeps (_handle s) : KeepsO (Fld.out ||| Fld.draws) s (execGetpdr _handle s) := by
  unfold execGetpdr
  refine KeepsO.cut s (Keeps.refl _ s) fun h0 => ?_
  refine KeepsO.next ?_
  refine Keeps.step (State.mctpFree_keeps ..) rfl ?_
  assumption

theorem execGettid_keeps (s) : KeepsO (Fld.out ||| Fld.draws) s (execGettid s) := by
  unfold execGettid
  refine KeepsO.cut s (Keeps.refl _ s) fun h0 => ?_
  refine KeepsO.next ?_
  refine Keeps.ite ?_ ?_
  · assumption
  · split
    · rename_i a0 a1 a2 a3
      refine Keeps.cut (a2) ?_ fun h4 => ?_
      · refine Keeps.of_snd a3 ?_
        refine Keeps.step (State.freeBytes_keeps ..) rfl ?_
        assumption
      refine Keeps.step (State.emit_keeps ..) rfl ?_
      assumption

theorem execGetstatesensorreadings_keeps (id s) : KeepsO (Fld.out) s (execGetstatesensorreadings id s) := by
  unfold execGetstatesensorreadings
  refine KeepsO.cut s (Keeps.refl _ s) fun h0 => ?_
  refine KeepsO.next ?_
  refine Keeps.ite ?_ ?_
  · refine Keeps.ite ?_ ?_
    · refine Keeps.step (State.mctpSay_keeps ..) rfl ?_
      assumption
    · refine Keeps.step (State.mctpSay_keeps ..) rfl ?_
      assumption
  · refine Keeps.ite ?_ ?_
    · refine Keeps.step (State.mctpSay_keeps ..) rfl ?_
      assumption
    · refine Keeps.step (State.mctpSay_keeps ..) rfl ?_
      assumption

theorem execGetsensorreading_keeps (id s) : KeepsO (Fld.out) s (execGetsensorreading id s) := by
  unfold execGetsensorreading
  refine KeepsO.cut s (Keeps.refl _ s) fun h0 => ?_
  refine KeepsO.next ?_
  split
  · rename_i a0 a1
    refine Keeps.step (State.mctpSay_keeps ..) rfl ?_
    assumption
  · rename_i a2 a3 a4
    refine Keeps.ite ?_ ?_
    · refine Keeps.step (State.mctpSay_keeps ..) rfl ?_
      assumption
    · refine Keeps.step (State.mctpSay_keeps ..) rfl ?_
      assumption

theorem State.reply_keeps (s x ty status seq body) : Keeps (Fld.regs ||| Fld.out ||| Fld.sessions) s (State.reply s x ty status seq body) := by
  unfold State.reply
  refine Keeps.cut s (Keeps.refl _ s) fun h0 => ?_
  refine Keeps.step (State.say_keeps ..) rfl ?_
  assumption

theorem execPtpCapture_keeps (ty dom seqId err s) : KeepsO (Fld.regs) s (execPtpCapture ty dom seqId err s) := by
  unfold execPtpCapture
  refine KeepsO.cut s (Keeps.refl _ s) fun h0 => ?_
  refine KeepsO.next ?_
  refine Keeps.ite ?_ ?_
  · assumption
  · extract_lets -merge y0 y1 y2
    clear_value y0
    refine Keeps.cut (y1) ?_ fun h3 => ?_
    · unfold y1
      refine Keeps.step (State.set64_keeps ..) rfl ?_
      assumption
    clear_value y1
    refine Keeps.cut (y2) ?_ fun h4 => ?_
    · unfold y2
      refine Keeps.step (State.setReg_keeps ..) rfl ?_
      assumption
    clear_value y2
    refine Keeps.step (State.setF_keeps ..) rfl ?_
    assumption

theorem execGetpldmcommands_keeps (ty s) : KeepsO (Fld.out) s (execGetpldmcommands ty s) := by
  unfold execGetpldmcommands
  refine KeepsO.cut s (Keeps.refl _ s) fun h0 => ?_
  refine KeepsO.next ?_
  refine State.pldmType_hof ?_ rfl ?_
  · intro t0 x1
    refine Keeps.step (State.mctpSay_keeps ..) rfl ?_
    assumption
  assumption

theorem execHello_keeps (i3c seq key sigOk s) : KeepsO (Fld.regs ||| Fld.hdr ||| Fld.log ||| Fld.out ||| Fld.irq ||| Fld.draws ||| Fld.rungs ||| Fld.rungAt ||| Fld.sessions) s (execHello i3c seq key sigOk s) := by
  unfold execHello
  refine KeepsO.cut s (Keeps.refl _ s) fun h0 => ?_
  refine KeepsO.next ?_
  refine Keeps.ite ?_ ?_
  · assumption
  · extract_lets -merge y0 y1
    refine Keeps.cut (y0) ?_ fun h2 => ?_
    · unfold y0
      refine Keeps.step (State.countMsg_keeps ..) rfl ?_
      assumption
    clear_value y0
    refine Keeps.ite ?_ ?_
    · unfold y1
      refine Keeps.step (State.emit_keeps ..) rfl ?_
      refine Keeps.step (State.countMsg_keeps ..) rfl ?_
      assumption
    · refine Keeps.ite ?_ ?_
      · unfold y1
        refine Keeps.step (State.emit_keeps ..) rfl ?_
        refine Keeps.step (State.countMsg_keeps ..) rfl ?_
        assumption
      · split
        · rename_i a3 a4 a5 a6
          refine Keeps.cut (a5) ?_ fun h7 => ?_
          · refine Keeps.of_snd a6 ?_
            refine Keeps.step (State.nextDraw_keeps ..) rfl ?_
            assumption
          extract_lets -merge y8
          clear_value y8
          split
          · rename_i a9 a10 a11 a12
            refine Keeps.cut (a11) ?_ fun h13 => ?_
            · refine Keeps.of_snd a12 ?_
              refine Keeps.step (State.freeBytes_keeps ..) rfl ?_
              assumption
            split
            · rename_i a14 a15 a16 a17
              refine Keeps.cut (a16) ?_ fun h18 => ?_
              · refine Keeps.of_snd a17 ?_
                refine Keeps.step (State.freeBytes_keeps ..) rfl ?_
                assumption
              split
              · rename_i a19 a20 a21 a22
                refine Keeps.cut (a21) ?_ fun h23 => ?_
                · refine Keeps.of_snd a22 ?_
                  refine Keeps.step (State.freeBytes_keeps ..) rfl ?_
                  assumption
                extract_lets -merge y24
                refine Keeps.cut (y24) ?_ fun h25 => ?_
                · unfold y24
                  exact ((Keeps.set_sessions _ h23 rfl) :)
                clear_value y24
                refine Keeps.step (State.raise_keeps ..) rfl ?_
                unfold y1
                refine Keeps.step (State.emit_keeps ..) rfl ?_
                refine Keeps.step (State.countMsg_keeps ..) rfl ?_
                assumption

theorem execSessionTimeout_keeps (sid s) : KeepsO (Fld.regs ||| Fld.hdr ||| Fld.log ||| Fld.out ||| Fld.irq ||| Fld.draws ||| Fld.rungs ||| Fld.rungAt ||| Fld.sessions) s (execSessionTimeout sid s) := by
  unfold execSessionTimeout
  refine KeepsO.cut s (Keeps.refl _ s) fun h0 => ?_
  refine KeepsO.next ?_
  refine Keeps.step (State.dropSessions_keeps ..) rfl ?_
  assumption

theorem execCswLink_keeps (up s) : KeepsO (Fld.regs ||| Fld.hdr ||| Fld.log ||| Fld.out ||| Fld.irq ||| Fld.draws ||| Fld.rungs ||| Fld.rungAt) s (execCswLink up s) := by
  unfold execCswLink
  refine KeepsO.cut s (Keeps.refl _ s) fun h0 => ?_
  refine KeepsO.next ?_
  refine Keeps.ite ?_ ?_
  · assumption
  · refine Keeps.step (State.raise_keeps ..) rfl ?_
    refine Keeps.step (State.setB_keeps ..) rfl ?_
    assumption

theorem execEventReport_keeps (sid s) : KeepsO (Fld.regs ||| Fld.hdr ||| Fld.log ||| Fld.out ||| Fld.irq ||| Fld.draws ||| Fld.rungs ||| Fld.rungAt ||| Fld.sessions) s (execEventReport sid s) := by
  unfold execEventReport
  refine KeepsO.cut s (Keeps.refl _ s) fun h0 => ?_
  refine KeepsO.next ?_
  split
  · rename_i a0 a1
    assumption
  · rename_i a2 a3 a4
    extract_lets -merge y5 y6 y7 y8 y9 y10 y11 y12 y13 y14 y15 y16
    clear_value y5 y6 y7 y8 y9 y10 y11 y12 y13
    refine Keeps.cut (y14) ?_ fun h17 => ?_
    · unfold y14
      refine Keeps.step (State.setSession_keeps ..) rfl ?_
      assumption
    clear_value y14
    refine Keeps.cut (y15) ?_ fun h18 => ?_
    · unfold y15
      refine Keeps.ite ?_ ?_
      · assumption
      · refine Keeps.step (State.incSat_keeps ..) rfl ?_
        assumption
    clear_value y15
    refine Keeps.cut (y16) ?_ fun h19 => ?_
    · unfold y16
      refine Keeps.step (State.say_keeps ..) rfl ?_
      assumption
    clear_value y16
    refine Keeps.ite ?_ ?_
    · assumption
    · refine Keeps.ite ?_ ?_
      · assumption
      · refine Keeps.step (State.raise_keeps ..) rfl ?_
        assumption

theorem State.authFail_keeps (s) : Keeps (Fld.regs ||| Fld.hdr ||| Fld.log ||| Fld.out ||| Fld.irq ||| Fld.draws ||| Fld.rungs ||| Fld.rungAt ||| Fld.authTick) s (State.authFail s) := by
  unfold State.authFail
  refine Keeps.cut s (Keeps.refl _ s) fun h0 => ?_
  extract_lets -merge y0
  refine Keeps.cut (y0) ?_ fun h1 => ?_
  · unfold y0
    refine Keeps.step (State.incSat_keeps ..) rfl ?_
    assumption
  clear_value y0
  refine Keeps.ite ?_ ?_
  · refine Keeps.step (State.raise_keeps ..) rfl ?_
    exact ((Keeps.set_authTick _ h1 rfl) :)
  · assumption

theorem execCswAuthFail_keeps (i3c s) : KeepsO (Fld.regs ||| Fld.hdr ||| Fld.log ||| Fld.out ||| Fld.irq ||| Fld.draws ||| Fld.rungs ||| Fld.rungAt ||| Fld.authTick) s (execCswAuthFail i3c s) := by
  unfold execCswAuthFail
  refine KeepsO.cut s (Keeps.refl _ s) fun h0 => ?_
  refine KeepsO.next ?_
  refine Keeps.ite ?_ ?_
  · refine Keeps.step (State.authFail_keeps ..) rfl ?_
    assumption
  · assumption

theorem State.served_hof {m : Nat} {s u : State} {sid seq : Word} {f : State → Session → State}
    (hf : ∀ t x, Keeps m s t → Keeps m s (f t x)) (hm : Fld.sub (Fld.regs ||| Fld.hdr ||| Fld.log ||| Fld.out ||| Fld.irq ||| Fld.draws ||| Fld.rungs ||| Fld.rungAt ||| Fld.sessions ||| Fld.authTick) m = true) (h : Keeps m s u) : Keeps m s (u.served sid seq f) := by
  have ha : Keeps m s u.authFail := Keeps.step (State.authFail_keeps ..) (Fld.sub_trans rfl hm) h
  unfold State.served
  split
  · exact Keeps.ite ha h
  · refine Keeps.ite h (Keeps.ite ha (hf _ _ ?_))
    exact Keeps.step (State.countMsg_keeps ..) (Fld.sub_trans rfl hm) (Keeps.step (State.setSession_keeps ..) (Fld.sub_trans rfl hm) h)

theorem State.servedFw_hof {m : Nat} {s u : State} {sid seq : Word} {f : State → Session → State}
    (hf : ∀ t x, Keeps m s t → Keeps m s (f t x)) (hm : Fld.sub (Fld.regs ||| Fld.hdr ||| Fld.log ||| Fld.out ||| Fld.irq ||| Fld.draws ||| Fld.rungs ||| Fld.rungAt ||| Fld.sessions ||| Fld.authTick) m = true) (h : Keeps m s u) : Keeps m s (u.servedFw sid seq f) :=
  Keeps.ite (Keeps.ite (hf _ _ h) h) (State.served_hof hf hm h)

theorem execMgmtKeySet_keeps (origin sid seq key pub sigOk s) : KeepsO (Fld.regs ||| Fld.hdr ||| Fld.log ||| Fld.out ||| Fld.irq ||| Fld.draws ||| Fld.leases ||| Fld.rungs ||| Fld.flash ||| Fld.flashq ||| Fld.rungAt ||| Fld.sessions ||| Fld.authTick) s (execMgmtKeySet origin sid seq key pub sigOk s) := by
  unfold execMgmtKeySet
  refine KeepsO.cut s (Keeps.refl _ s) fun h0 => ?_
  refine KeepsO.next ?_
  extract_lets -merge y0
  clear_value y0
  refine Keeps.ite ?_ ?_
  · refine State.served_hof ?_ rfl ?_
    · intro t1 x2 x3
      split
      · rename_i a4 a5 a6 a7
        refine Keeps.cut (a5) ?_ fun h8 => ?_
        · refine Keeps.of_fst a7 ?_
          refine Keeps.step (State.keySet_keeps ..) rfl ?_
          assumption
        refine Keeps.step (State.reply_keeps ..) rfl ?_
        assumption
    assumption
  · refine Keeps.ite ?_ ?_
    · assumption
    · split
      · rename_i a9 a10 a11 a12
        refine Keeps.cut (a10) ?_ fun h13 => ?_
        · refine Keeps.of_fst a12 ?_
          refine Keeps.step (State.keySet_keeps ..) rfl ?_
          assumption
        refine Keeps.step (State.emit_keeps ..) rfl ?_
        assumption

theorem execPatData_keeps (sid seq off bytes s) : KeepsO (Fld.regs ||| Fld.hdr ||| Fld.log ||| Fld.out ||| Fld.irq ||| Fld.draws ||| Fld.rungs ||| Fld.flash ||| Fld.rungAt ||| Fld.sessions ||| Fld.authTick ||| Fld.push) s (execPatData sid seq off bytes s) := by
  unfold execPatData
  refine KeepsO.cut s (Keeps.refl _ s) fun h0 => ?_
  refine KeepsO.next ?_
  refine State.served_hof ?_ rfl ?_
  · intro t0 x1 x2
    refine Keeps.ite ?_ ?_
    · refine Keeps.step (State.reply_keeps ..) rfl ?_
      assumption
    · refine Keeps.ite ?_ ?_
      · refine Keeps.step (State.reply_keeps ..) rfl ?_
        assumption
      · refine Keeps.ite ?_ ?_
        · refine Keeps.step (State.reply_keeps ..) rfl ?_
          refine Keeps.step (State.tstErr_keeps ..) rfl ?_
          assumption
        · extract_lets -merge y3 y4 y5
          clear_value y3
          refine Keeps.cut (y4) ?_ fun h6 => ?_
          · unfold y4
            refine Keeps.step (State.setB_keeps ..) rfl ?_
            refine Keeps.step (State.tstErr_keeps ..) rfl ?_
            refine Keeps.step (State.setF_keeps ..) rfl ?_
            assumption
          clear_value y4
          refine Keeps.cut (y5) ?_ fun h7 => ?_
          · unfold y5
            refine Keeps.ite ?_ ?_
            · assumption
            · refine Keeps.step (State.flashErase_keeps ..) rfl ?_
              exact ((Keeps.set_push _ h6 rfl) :)
          clear_value y5
          refine Keeps.step (State.reply_keeps ..) rfl ?_
          refine Keeps.step (State.flashProgram_keeps ..) rfl ?_
          assumption
  assumption

theorem execLogRead_keeps (sid seq first n s) : KeepsO (Fld.regs ||| Fld.hdr ||| Fld.log ||| Fld.out ||| Fld.irq ||| Fld.draws ||| Fld.rungs ||| Fld.rungAt ||| Fld.sessions ||| Fld.authTick) s (execLogRead sid seq first n s) := by
  unfold execLogRead
  refine KeepsO.cut s (Keeps.refl _ s) fun h0 => ?_
  refine KeepsO.next ?_
  refine State.served_hof ?_ rfl ?_
  · intro t0 x1 x2
    refine Keeps.ite ?_ ?_
    · refine Keeps.step (State.reply_keeps ..) rfl ?_
      assumption
    · refine Keeps.step (State.reply_keeps ..) rfl ?_
      assumption
  assumption

theorem execFwCommit_keeps (sid seq len ver svn sigOk ok s) : KeepsO (Fld.regs ||| Fld.hdr ||| Fld.log ||| Fld.out ||| Fld.irq ||| Fld.draws ||| Fld.rungs ||| Fld.flash ||| Fld.rungAt ||| Fld.sessions ||| Fld.authTick ||| Fld.push) s (execFwCommit sid seq len ver svn sigOk ok s) := by
  unfold execFwCommit
  refine KeepsO.cut s (Keeps.refl _ s) fun h0 => ?_
  refine KeepsO.next ?_
  refine State.servedFw_hof ?_ rfl ?_
  · intro t0 x1 x2
    refine Keeps.ite ?_ ?_
    · refine Keeps.step (State.fwReject_keeps ..) rfl ?_
      refine Keeps.step (State.reply_keeps ..) rfl ?_
      assumption
    · extract_lets -merge y3 y4 y5 y6
      refine Keeps.cut (y3) ?_ fun h7 => ?_
      · unfold y3
        exact ((Keeps.set_push _ x2 rfl) :)
      clear_value y3 y4 y5 y6
      split
      · rename_i a8 a9 a10
        refine Keeps.step (State.fwReject_keeps ..) rfl ?_
        refine Keeps.step (State.reply_keeps ..) rfl ?_
        refine Keeps.step (State.setF_keeps ..) rfl ?_
        assumption
      · rename_i a11 a12
        refine Keeps.step (State.fwStaged_keeps ..) rfl ?_
        refine Keeps.step (State.reply_keeps ..) rfl ?_
        refine Keeps.step (State.flashProgram_keeps ..) rfl ?_
        assumption
  assumption

theorem execTelemetry_keeps (sid seq s) : KeepsO (Fld.regs ||| Fld.hdr ||| Fld.log ||| Fld.out ||| Fld.irq ||| Fld.draws ||| Fld.rungs ||| Fld.rungAt ||| Fld.sessions ||| Fld.authTick) s (execTelemetry sid seq s) := by
  unfold execTelemetry
  refine KeepsO.cut s (Keeps.refl _ s) fun h0 => ?_
  refine KeepsO.next ?_
  refine State.served_hof ?_ rfl ?_
  · intro t0 x1 x2
    refine Keeps.step (State.reply_keeps ..) rfl ?_
    assumption
  assumption

theorem State.cswRead1_keeps (s peek a) : Keeps (Fld.regs ||| Fld.hdr ||| Fld.shadow ||| Fld.log ||| Fld.out ||| Fld.irq ||| Fld.badAccTick ||| Fld.draws ||| Fld.rungs ||| Fld.thm ||| Fld.rungAt) s (State.cswRead1 s peek a).2 := by
  unfold State.cswRead1
  refine Keeps.cut s (Keeps.refl _ s) fun h0 => ?_
  split
  · rename_i a0
    dsimp only
    assumption
  · rename_i a1
    split
    · rename_i a2
      dsimp only
      refine Keeps.step (State.badAccess_keeps ..) rfl ?_
      assumption
    · rename_i a3
      split
      · rename_i a4
        dsimp only
        assumption
      · rename_i a5
        refine Keeps.step (State.regRead_keeps ..) rfl ?_
        assumption

theorem execCloseSession_keeps (sid seq s) : KeepsO (Fld.regs ||| Fld.hdr ||| Fld.log ||| Fld.out ||| Fld.irq ||| Fld.draws ||| Fld.rungs ||| Fld.rungAt ||| Fld.sessions ||| Fld.authTick) s (execCloseSession sid seq s) := by
  unfold execCloseSession
  refine KeepsO.cut s (Keeps.refl _ s) fun h0 => ?_
  refine KeepsO.next ?_
  refine State.served_hof ?_ rfl ?_
  · intro t0 x1 x2
    refine Keeps.step (State.dropSessions_keeps ..) rfl ?_
    refine Keeps.step (State.reply_keeps ..) rfl ?_
    assumption
  assumption

theorem execTimeProbe_keeps (sid seq turn rxErr txErr s) : KeepsO (Fld.regs ||| Fld.hdr ||| Fld.log ||| Fld.out ||| Fld.irq ||| Fld.draws ||| Fld.rungs ||| Fld.rungAt ||| Fld.sessions ||| Fld.authTick) s (execTimeProbe sid seq turn rxErr txErr s) := by
  unfold execTimeProbe
  refine KeepsO.cut s (Keeps.refl _ s) fun h0 => ?_
  refine KeepsO.next ?_
  refine State.served_hof ?_ rfl ?_
  · intro t0 x1 x2
    refine Keeps.step (State.reply_keeps ..) rfl ?_
    assumption
  assumption

theorem execPatCommit_keeps (sid seq len sigOk readOk s) : KeepsO (Fld.regs ||| Fld.hdr ||| Fld.log ||| Fld.out ||| Fld.irq ||| Fld.draws ||| Fld.rungs ||| Fld.rungAt ||| Fld.sessions ||| Fld.authTick ||| Fld.push) s (execPatCommit sid seq len sigOk readOk s) := by
  unfold execPatCommit
  refine KeepsO.cut s (Keeps.refl _ s) fun h0 => ?_
  refine KeepsO.next ?_
  refine State.served_hof ?_ rfl ?_
  · intro t0 x1 x2
    refine Keeps.ite ?_ ?_
    · refine Keeps.step (State.reply_keeps ..) rfl ?_
      assumption
    · refine Keeps.ite ?_ ?_
      · refine Keeps.step (State.reply_keeps ..) rfl ?_
        refine Keeps.step (State.tstErr_keeps ..) rfl ?_
        assumption
      · extract_lets -merge y3
        refine Keeps.cut (y3) ?_ fun h4 => ?_
        · unfold y3
          exact ((Keeps.set_push _ x2 rfl) :)
        clear_value y3
        split
        · rename_i a5 a6
          refine Keeps.step (State.reply_keeps ..) rfl ?_
          refine Keeps.step (State.tstErr_keeps ..) rfl ?_
          refine Keeps.step (State.setF_keeps ..) rfl ?_
          assumption
        · rename_i a7 a8 a9
          refine Keeps.step (State.raise_keeps ..) rfl ?_
          refine Keeps.step (State.reply_keeps ..) rfl ?_
          refine Keeps.step (State.tstErr_keeps ..) rfl ?_
          refine Keeps.step (State.setF_keeps ..) rfl ?_
          assumption
  assumption

theorem execFwData_keeps (sid seq off bytes ok s) : KeepsO (Fld.regs ||| Fld.hdr ||| Fld.log ||| Fld.out ||| Fld.irq ||| Fld.draws ||| Fld.rungs ||| Fld.flash ||| Fld.rungAt ||| Fld.sessions ||| Fld.authTick ||| Fld.push) s (execFwData sid seq off bytes ok s) := by
  unfold execFwData
  refine KeepsO.cut s (Keeps.refl _ s) fun h0 => ?_
  refine KeepsO.next ?_
  refine State.servedFw_hof ?_ rfl ?_
  · intro t0 x1 x2
    refine Keeps.ite ?_ ?_
    · refine Keeps.step (State.reply_keeps ..) rfl ?_
      assumption
    · refine Keeps.ite ?_ ?_
      · refine Keeps.step (State.fwReject_keeps ..) rfl ?_
        refine Keeps.step (State.reply_keeps ..) rfl ?_
        assumption
      · refine Keeps.ite ?_ ?_
        · refine Keeps.step (State.reply_keeps ..) rfl ?_
          assumption
        · extract_lets -merge y3 y4 y5 y6
          refine Keeps.cut (y3) ?_ fun h7 => ?_
          · unfold y3
            refine Keeps.step (State.setB_keeps ..) rfl ?_
            refine Keeps.step (State.setF_keeps ..) rfl ?_
            refine Keeps.step (State.setF_keeps ..) rfl ?_
            assumption
          clear_value y3
          refine Keeps.cut (y4) ?_ fun h8 => ?_
          · unfold y4
            refine Keeps.ite ?_ ?_
            · assumption
            · refine Keeps.step (State.flashErase_keeps ..) rfl ?_
              exact ((Keeps.set_push _ h7 rfl) :)
          clear_value y4
          refine Keeps.cut (y5) ?_ fun h9 => ?_
          · unfold y5
            refine Keeps.step (State.flashErr_keeps ..) rfl ?_
            assumption
          clear_value y5
          refine Keeps.cut (y6) ?_ fun h10 => ?_
          · unfold y6
            exact ((Keeps.set_push _ h9 rfl) :)
          clear_value y6
          refine Keeps.ite ?_ ?_
          · refine Keeps.step (State.reply_keeps ..) rfl ?_
            refine Keeps.step (State.flashProgram_keeps ..) rfl ?_
            assumption
          · refine Keeps.step (State.fwReject_keeps ..) rfl ?_
            refine Keeps.step (State.reply_keeps ..) rfl ?_
            refine Keeps.step (State.setF_keeps ..) rfl ?_
            assumption
  assumption

theorem execSubscribe_keeps (sid seq cls enable s) : KeepsO (Fld.regs ||| Fld.hdr ||| Fld.log ||| Fld.out ||| Fld.irq ||| Fld.draws ||| Fld.rungs ||| Fld.rungAt ||| Fld.sessions ||| Fld.authTick) s (execSubscribe sid seq cls enable s) := by
  unfold execSubscribe
  refine KeepsO.cut s (Keeps.refl _ s) fun h0 => ?_
  refine KeepsO.next ?_
  refine State.served_hof ?_ rfl ?_
  · intro t0 x1 x2
    refine Keeps.ite ?_ ?_
    · refine Keeps.step (State.reply_keeps ..) rfl ?_
      assumption
    · refine Keeps.step (State.reply_keeps ..) rfl ?_
      refine Keeps.step (State.setSession_keeps ..) rfl ?_
      assumption
  assumption

theorem State.cswReads_keeps (s : State) (peek : Bool) (a n : Nat) : Keeps (Fld.regs ||| Fld.hdr ||| Fld.shadow ||| Fld.log ||| Fld.out ||| Fld.irq ||| Fld.badAccTick ||| Fld.draws ||| Fld.rungs ||| Fld.thm ||| Fld.rungAt) s (s.cswReads peek a n).2 := by
  induction n generalizing s a with
  | zero => exact Keeps.refl _ s
  | succ n ih =>
    simp only [State.cswReads]
    exact (Keeps.step (State.cswRead1_keeps ..) rfl (Keeps.refl _ s)).trans (ih ..)

theorem execCswRead_keeps (sid seq peek a n s) : KeepsO (Fld.regs ||| Fld.hdr ||| Fld.shadow ||| Fld.log ||| Fld.out ||| Fld.irq ||| Fld.badAccTick ||| Fld.draws ||| Fld.rungs ||| Fld.thm ||| Fld.rungAt ||| Fld.sessions ||| Fld.authTick) s (execCswRead sid seq peek a n s) := by
  unfold execCswRead
  refine KeepsO.cut s (Keeps.refl _ s) fun h0 => ?_
  refine KeepsO.next ?_
  refine State.served_hof ?_ rfl ?_
  · intro t0 x1 x2
    refine Keeps.ite ?_ ?_
    · refine Keeps.step (State.reply_keeps ..) rfl ?_
      assumption
    · extract_lets -merge y3
      clear_value y3
      split
      · rename_i a4 a5 a6 a7
        refine Keeps.cut (a6) ?_ fun h8 => ?_
        · refine Keeps.of_snd a7 ?_
          refine Keeps.step (State.cswReads_keeps ..) rfl ?_
          assumption
        refine Keeps.step (State.reply_keeps ..) rfl ?_
        assumption
  assumption

theorem State.cswWrites_keeps (s : State) (env : WriteEnv) (a : Nat) (l : List Word) : Keeps (Fld.regs ||| Fld.hdr ||| Fld.staged ||| Fld.heldWrites ||| Fld.fencing ||| Fld.pendWas ||| Fld.log ||| Fld.out ||| Fld.irq ||| Fld.badAccTick ||| Fld.draws ||| Fld.leases ||| Fld.tide ||| Fld.tickets ||| Fld.jobs ||| Fld.plans ||| Fld.acct ||| Fld.slu ||| Fld.ctxs ||| Fld.lines ||| Fld.tags ||| Fld.qps ||| Fld.ovf ||| Fld.landing ||| Fld.rungs ||| Fld.rows ||| Fld.tiles ||| Fld.trims ||| Fld.weir ||| Fld.harbour ||| Fld.hbPoison ||| Fld.hbWritten ||| Fld.frames ||| Fld.badSlots ||| Fld.owners ||| Fld.runs ||| Fld.imports ||| Fld.tests ||| Fld.flash ||| Fld.cal ||| Fld.flashq ||| Fld.ends ||| Fld.rplChecks ||| Fld.wd ||| Fld.rungAt ||| Fld.views ||| Fld.boot ||| Fld.tap) s (s.cswWrites env a l).2 := by
  induction l generalizing s a with
  | nil => exact Keeps.refl _ s
  | cons v l ih =>
    simp only [State.cswWrites]
    refine Keeps.trans ?_ (ih ..)
    split
    · exact Keeps.refl _ s
    · split
      · exact Keeps.step (State.badAccess_keeps ..) rfl (Keeps.refl _ s)
      · exact Keeps.step (State.regWrite_keeps ..) rfl (Keeps.refl _ s)

theorem execCswWrite_keeps (sid seq a vals env s) : KeepsO (Fld.regs ||| Fld.hdr ||| Fld.staged ||| Fld.heldWrites ||| Fld.fencing ||| Fld.pendWas ||| Fld.log ||| Fld.out ||| Fld.irq ||| Fld.badAccTick ||| Fld.draws ||| Fld.leases ||| Fld.tide ||| Fld.tickets ||| Fld.jobs ||| Fld.plans ||| Fld.acct ||| Fld.slu ||| Fld.ctxs ||| Fld.lines ||| Fld.tags ||| Fld.qps ||| Fld.ovf ||| Fld.landing ||| Fld.rungs ||| Fld.rows ||| Fld.tiles ||| Fld.trims ||| Fld.weir ||| Fld.harbour ||| Fld.hbPoison ||| Fld.hbWritten ||| Fld.frames ||| Fld.badSlots ||| Fld.owners ||| Fld.runs ||| Fld.imports ||| Fld.tests ||| Fld.flash ||| Fld.cal ||| Fld.flashq ||| Fld.ends ||| Fld.rplChecks ||| Fld.wd ||| Fld.rungAt ||| Fld.sessions ||| Fld.authTick ||| Fld.views ||| Fld.boot ||| Fld.tap) s (execCswWrite sid seq a vals env s) := by
  unfold execCswWrite
  refine KeepsO.cut s (Keeps.refl _ s) fun h0 => ?_
  refine KeepsO.next ?_
  refine State.served_hof ?_ rfl ?_
  · intro t0 x1 x2
    refine Keeps.ite ?_ ?_
    · refine Keeps.step (State.reply_keeps ..) rfl ?_
      assumption
    · extract_lets -merge y3
      clear_value y3
      split
      · rename_i a4 a5 a6 a7
        refine Keeps.cut (a6) ?_ fun h8 => ?_
        · refine Keeps.of_snd a7 ?_
          refine Keeps.step (State.cswWrites_keeps ..) rfl ?_
          assumption
        refine Keeps.step (State.reply_keeps ..) rfl ?_
        assumption
  assumption

end Sys2Proof.Machine
end

