-- ==== Sys2Proof/Laws/State.lean ====
section
/-!
SUPPORT. The small lemmas of the primitive updates of State: what each leaves in every field, true by definition. Laws/Keeps.lean says the same of
every larger function at once.
-/
namespace Sys2Proof.Machine

/-! ## setReg -/

@[simp] theorem State.setReg_pending (s : State) (a : Nat) (v : Word) : (s.setReg a v).pending = s.pending := rfl
@[simp] theorem State.setReg_regs (s : State) (a : Nat) (v : Word) : (s.setReg a v).regs = Store.put regReset s.regs a v := rfl
@[simp] theorem State.setReg_hdr (s : State) (a : Nat) (v : Word) : (s.setReg a v).hdr = s.hdr := rfl
@[simp] theorem State.setReg_shadow (s : State) (a : Nat) (v : Word) : (s.setReg a v).shadow = s.shadow := rfl
@[simp] theorem State.setReg_staged (s : State) (a : Nat) (v : Word) : (s.setReg a v).staged = s.staged := rfl
@[simp] theorem State.setReg_heldWrites (s : State) (a : Nat) (v : Word) : (s.setReg a v).heldWrites = s.heldWrites := rfl
@[simp] theorem State.setReg_fencing (s : State) (a : Nat) (v : Word) : (s.setReg a v).fencing = s.fencing := rfl
@[simp] theorem State.setReg_pendWas (s : State) (a : Nat) (v : Word) : (s.setReg a v).pendWas = s.pendWas := rfl
@[simp] theorem State.setReg_log (s : State) (a : Nat) (v : Word) : (s.setReg a v).log = s.log := rfl
@[simp] theorem State.setReg_out (s : State) (a : Nat) (v : Word) : (s.setReg a v).out = s.out := rfl
@[simp] theorem State.setReg_irq (s : State) (a : Nat) (v : Word) : (s.setReg a v).irq = s.irq := rfl
@[simp] theorem State.setReg_badAccTick (s : State) (a : Nat) (v : Word) : (s.setReg a v).badAccTick = s.badAccTick := rfl
@[simp] theorem State.setReg_draws (s : State) (a : Nat) (v : Word) : (s.setReg a v).draws = s.draws := rfl
@[simp] theorem State.setReg_leases (s : State) (a : Nat) (v : Word) : (s.setReg a v).leases = s.leases := rfl
@[simp] theorem State.setReg_profile (s : State) (a : Nat) (v : Word) : (s.setReg a v).profile = s.profile := rfl
@[simp] theorem State.setReg_count (s : State) (a : Nat) (v : Word) : (s.setReg a v).count = s.count := rfl
@[simp] theorem State.setReg_tide (s : State) (a : Nat) (v : Word) : (s.setReg a v).tide = s.tide := rfl
@[simp] theorem State.setReg_tickets (s : State) (a : Nat) (v : Word) : (s.setReg a v).tickets = s.tickets := rfl
@[simp] theorem State.setReg_acks (s : State) (a : Nat) (v : Word) : (s.setReg a v).acks = s.acks := rfl
@[simp] theorem State.setReg_jobs (s : State) (a : Nat) (v : Word) : (s.setReg a v).jobs = s.jobs := rfl
@[simp] theorem State.setReg_nextJob (s : State) (a : Nat) (v : Word) : (s.setReg a v).nextJob = s.nextJob := rfl
@[simp] theorem State.setReg_plans (s : State) (a : Nat) (v : Word) : (s.setReg a v).plans = s.plans := rfl
@[simp] theorem State.setReg_nextPlan (s : State) (a : Nat) (v : Word) : (s.setReg a v).nextPlan = s.nextPlan := rfl
@[simp] theorem State.setReg_acct (s : State) (a : Nat) (v : Word) : (s.setReg a v).acct = s.acct := rfl
@[simp] theorem State.setReg_slu (s : State) (a : Nat) (v : Word) : (s.setReg a v).slu = s.slu := rfl
@[simp] theorem State.setReg_ctxs (s : State) (a : Nat) (v : Word) : (s.setReg a v).ctxs = s.ctxs := rfl
@[simp] theorem State.setReg_basin (s : State) (a : Nat) (v : Word) : (s.setReg a v).basin = s.basin := rfl
@[simp] theorem State.setReg_lines (s : State) (a : Nat) (v : Word) : (s.setReg a v).lines = s.lines := rfl
@[simp] theorem State.setReg_tags (s : State) (a : Nat) (v : Word) : (s.setReg a v).tags = s.tags := rfl
@[simp] theorem State.setReg_qps (s : State) (a : Nat) (v : Word) : (s.setReg a v).qps = s.qps := rfl
@[simp] theorem State.setReg_ovf (s : State) (a : Nat) (v : Word) : (s.setReg a v).ovf = s.ovf := rfl
@[simp] theorem State.setReg_landing (s : State) (a : Nat) (v : Word) : (s.setReg a v).landing = s.landing := rfl
@[simp] theorem State.setReg_rungs (s : State) (a : Nat) (v : Word) : (s.setReg a v).rungs = s.rungs := rfl
@[simp] theorem State.setReg_rows (s : State) (a : Nat) (v : Word) : (s.setReg a v).rows = s.rows := rfl
@[simp] theorem State.setReg_tiles (s : State) (a : Nat) (v : Word) : (s.setReg a v).tiles = s.tiles := rfl
@[simp] theorem State.setReg_trims (s : State) (a : Nat) (v : Word) : (s.setReg a v).trims = s.trims := rfl
@[simp] theorem State.setReg_weir (s : State) (a : Nat) (v : Word) : (s.setReg a v).weir = s.weir := rfl
@[simp] theorem State.setReg_nextRep (s : State) (a : Nat) (v : Word) : (s.setReg a v).nextRep = s.nextRep := rfl
@[simp] theorem State.setReg_harbour (s : State) (a : Nat) (v : Word) : (s.setReg a v).harbour = s.harbour := rfl
@[simp] theorem State.setReg_hbPoison (s : State) (a : Nat) (v : Word) : (s.setReg a v).hbPoison = s.hbPoison := rfl
@[simp] theorem State.setReg_hbWritten (s : State) (a : Nat) (v : Word) : (s.setReg a v).hbWritten = s.hbWritten := rfl
@[simp] theorem State.setReg_frames (s : State) (a : Nat) (v : Word) : (s.setReg a v).frames = s.frames := rfl
@[simp] theorem State.setReg_badSlots (s : State) (a : Nat) (v : Word) : (s.setReg a v).badSlots = s.badSlots := rfl
@[simp] theorem State.setReg_owners (s : State) (a : Nat) (v : Word) : (s.setReg a v).owners = s.owners := rfl
@[simp] theorem State.setReg_runs (s : State) (a : Nat) (v : Word) : (s.setReg a v).runs = s.runs := rfl
@[simp] theorem State.setReg_nextRun (s : State) (a : Nat) (v : Word) : (s.setReg a v).nextRun = s.nextRun := rfl
@[simp] theorem State.setReg_refetch (s : State) (a : Nat) (v : Word) : (s.setReg a v).refetch = s.refetch := rfl
@[simp] theorem State.setReg_hbr (s : State) (a : Nat) (v : Word) : (s.setReg a v).hbr = s.hbr := rfl
@[simp] theorem State.setReg_scrubFrom (s : State) (a : Nat) (v : Word) : (s.setReg a v).scrubFrom = s.scrubFrom := rfl
@[simp] theorem State.setReg_swaps (s : State) (a : Nat) (v : Word) : (s.setReg a v).swaps = s.swaps := rfl
@[simp] theorem State.setReg_imports (s : State) (a : Nat) (v : Word) : (s.setReg a v).imports = s.imports := rfl
@[simp] theorem State.setReg_dyns (s : State) (a : Nat) (v : Word) : (s.setReg a v).dyns = s.dyns := rfl
@[simp] theorem State.setReg_tests (s : State) (a : Nat) (v : Word) : (s.setReg a v).tests = s.tests := rfl
@[simp] theorem State.setReg_flash (s : State) (a : Nat) (v : Word) : (s.setReg a v).flash = s.flash := rfl
@[simp] theorem State.setReg_cal (s : State) (a : Nat) (v : Word) : (s.setReg a v).cal = s.cal := rfl
@[simp] theorem State.setReg_flashq (s : State) (a : Nat) (v : Word) : (s.setReg a v).flashq = s.flashq := rfl
@[simp] theorem State.setReg_ownerKeys (s : State) (a : Nat) (v : Word) : (s.setReg a v).ownerKeys = s.ownerKeys := rfl
@[simp] theorem State.setReg_spdm (s : State) (a : Nat) (v : Word) : (s.setReg a v).spdm = s.spdm := rfl
@[simp] theorem State.setReg_ends (s : State) (a : Nat) (v : Word) : (s.setReg a v).ends = s.ends := rfl
@[simp] theorem State.setReg_rrCtx (s : State) (a : Nat) (v : Word) : (s.setReg a v).rrCtx = s.rrCtx := rfl
@[simp] theorem State.setReg_rrQ (s : State) (a : Nat) (v : Word) : (s.setReg a v).rrQ = s.rrQ := rfl
@[simp] theorem State.setReg_rplChecks (s : State) (a : Nat) (v : Word) : (s.setReg a v).rplChecks = s.rplChecks := rfl
@[simp] theorem State.setReg_lost (s : State) (a : Nat) (v : Word) : (s.setReg a v).lost = s.lost := rfl
@[simp] theorem State.setReg_thm (s : State) (a : Nat) (v : Word) : (s.setReg a v).thm = s.thm := rfl
@[simp] theorem State.setReg_wd (s : State) (a : Nat) (v : Word) : (s.setReg a v).wd = s.wd := rfl
@[simp] theorem State.setReg_rungAt (s : State) (a : Nat) (v : Word) : (s.setReg a v).rungAt = s.rungAt := rfl
@[simp] theorem State.setReg_flrs (s : State) (a : Nat) (v : Word) : (s.setReg a v).flrs = s.flrs := rfl
@[simp] theorem State.setReg_sessions (s : State) (a : Nat) (v : Word) : (s.setReg a v).sessions = s.sessions := rfl
@[simp] theorem State.setReg_mgmtKeys (s : State) (a : Nat) (v : Word) : (s.setReg a v).mgmtKeys = s.mgmtKeys := rfl
@[simp] theorem State.setReg_authTick (s : State) (a : Nat) (v : Word) : (s.setReg a v).authTick = s.authTick := rfl
@[simp] theorem State.setReg_views (s : State) (a : Nat) (v : Word) : (s.setReg a v).views = s.views := rfl
@[simp] theorem State.setReg_boot (s : State) (a : Nat) (v : Word) : (s.setReg a v).boot = s.boot := rfl
@[simp] theorem State.setReg_push (s : State) (a : Nat) (v : Word) : (s.setReg a v).push = s.push := rfl
@[simp] theorem State.setReg_tap (s : State) (a : Nat) (v : Word) : (s.setReg a v).tap = s.tap := rfl
@[simp] theorem State.setReg_mctp (s : State) (a : Nat) (v : Word) : (s.setReg a v).mctp = s.mctp := rfl
@[simp] theorem State.setReg_torn (s : State) (a : Nat) (v : Word) : (s.setReg a v).torn = s.torn := rfl
@[simp] theorem State.setReg_grantWas (s : State) (a : Nat) (v : Word) : (s.setReg a v).grantWas = s.grantWas := rfl
@[simp] theorem State.setReg_power (s : State) (a : Nat) (v : Word) : (s.setReg a v).power = s.power := rfl
@[simp] theorem State.setReg_reconAt (s : State) (a : Nat) (v : Word) : (s.setReg a v).reconAt = s.reconAt := rfl

/-! ## updHd -/

@[simp] theorem State.updHd_pending (s : State) (ty inst : Nat) (f : PageHdr → PageHdr) : (s.updHd ty inst f).pending = s.pending := rfl
@[simp] theorem State.updHd_regs (s : State) (ty inst : Nat) (f : PageHdr → PageHdr) : (s.updHd ty inst f).regs = s.regs := rfl
@[simp] theorem State.updHd_hdr (s : State) (ty inst : Nat) (f : PageHdr → PageHdr) : (s.updHd ty inst f).hdr = Store.upd hdrReset s.hdr (ty * 1024 + inst) f := rfl
@[simp] theorem State.updHd_shadow (s : State) (ty inst : Nat) (f : PageHdr → PageHdr) : (s.updHd ty inst f).shadow = s.shadow := rfl
@[simp] theorem State.updHd_staged (s : State) (ty inst : Nat) (f : PageHdr → PageHdr) : (s.updHd ty inst f).staged = s.staged := rfl
@[simp] theorem State.updHd_heldWrites (s : State) (ty inst : Nat) (f : PageHdr → PageHdr) : (s.updHd ty inst f).heldWrites = s.heldWrites := rfl
@[simp] theorem State.updHd_fencing (s : State) (ty inst : Nat) (f : PageHdr → PageHdr) : (s.updHd ty inst f).fencing = s.fencing := rfl
@[simp] theorem State.updHd_pendWas (s : State) (ty inst : Nat) (f : PageHdr → PageHdr) : (s.updHd ty inst f).pendWas = s.pendWas := rfl
@[simp] theorem State.updHd_log (s : State) (ty inst : Nat) (f : PageHdr → PageHdr) : (s.updHd ty inst f).log = s.log := rfl
@[simp] theorem State.updHd_out (s : State) (ty inst : Nat) (f : PageHdr → PageHdr) : (s.updHd ty inst f).out = s.out := rfl
@[simp] theorem State.updHd_irq (s : State) (ty inst : Nat) (f : PageHdr → PageHdr) : (s.updHd ty inst f).irq = s.irq := rfl
@[simp] theorem State.updHd_badAccTick (s : State) (ty inst : Nat) (f : PageHdr → PageHdr) : (s.updHd ty inst f).badAccTick = s.badAccTick := rfl
@[simp] theorem State.updHd_draws (s : State) (ty inst : Nat) (f : PageHdr → PageHdr) : (s.updHd ty inst f).draws = s.draws := rfl
@[simp] theorem State.updHd_leases (s : State) (ty inst : Nat) (f : PageHdr → PageHdr) : (s.updHd ty inst f).leases = s.leases := rfl
@[simp] theorem State.updHd_profile (s : State) (ty inst : Nat) (f : PageHdr → PageHdr) : (s.updHd ty inst f).profile = s.profile := rfl
@[simp] theorem State.updHd_count (s : State) (ty inst : Nat) (f : PageHdr → PageHdr) : (s.updHd ty inst f).count = s.count := rfl
@[simp] theorem State.updHd_tide (s : State) (ty inst : Nat) (f : PageHdr → PageHdr) : (s.updHd ty inst f).tide = s.tide := rfl
@[simp] theorem State.updHd_tickets (s : State) (ty inst : Nat) (f : PageHdr → PageHdr) : (s.updHd ty inst f).tickets = s.tickets := rfl
@[simp] theorem State.updHd_acks (s : State) (ty inst : Nat) (f : PageHdr → PageHdr) : (s.updHd ty inst f).acks = s.acks := rfl
@[simp] theorem State.updHd_jobs (s : State) (ty inst : Nat) (f : PageHdr → PageHdr) : (s.updHd ty inst f).jobs = s.jobs := rfl
@[simp] theorem State.updHd_nextJob (s : State) (ty inst : Nat) (f : PageHdr → PageHdr) : (s.updHd ty inst f).nextJob = s.nextJob := rfl
@[simp] theorem State.updHd_plans (s : State) (ty inst : Nat) (f : PageHdr → PageHdr) : (s.updHd ty inst f).plans = s.plans := rfl
@[simp] theorem State.updHd_nextPlan (s : State) (ty inst : Nat) (f : PageHdr → PageHdr) : (s.updHd ty inst f).nextPlan = s.nextPlan := rfl
@[simp] theorem State.updHd_acct (s : State) (ty inst : Nat) (f : PageHdr → PageHdr) : (s.updHd ty inst f).acct = s.acct := rfl
@[simp] theorem State.updHd_slu (s : State) (ty inst : Nat) (f : PageHdr → PageHdr) : (s.updHd ty inst f).slu = s.slu := rfl
@[simp] theorem State.updHd_ctxs (s : State) (ty inst : Nat) (f : PageHdr → PageHdr) : (s.updHd ty inst f).ctxs = s.ctxs := rfl
@[simp] theorem State.updHd_basin (s : State) (ty inst : Nat) (f : PageHdr → PageHdr) : (s.updHd ty inst f).basin = s.basin := rfl
@[simp] theorem State.updHd_lines (s : State) (ty inst : Nat) (f : PageHdr → PageHdr) : (s.updHd ty inst f).lines = s.lines := rfl
@[simp] theorem State.updHd_tags (s : State) (ty inst : Nat) (f : PageHdr → PageHdr) : (s.updHd ty inst f).tags = s.tags := rfl
@[simp] theorem State.updHd_qps (s : State) (ty inst : Nat) (f : PageHdr → PageHdr) : (s.updHd ty inst f).qps = s.qps := rfl
@[simp] theorem State.updHd_ovf (s : State) (ty inst : Nat) (f : PageHdr → PageHdr) : (s.updHd ty inst f).ovf = s.ovf := rfl
@[simp] theorem State.updHd_landing (s : State) (ty inst : Nat) (f : PageHdr → PageHdr) : (s.updHd ty inst f).landing = s.landing := rfl
@[simp] theorem State.updHd_rungs (s : State) (ty inst : Nat) (f : PageHdr → PageHdr) : (s.updHd ty inst f).rungs = s.rungs := rfl
@[simp] theorem State.updHd_rows (s : State) (ty inst : Nat) (f : PageHdr → PageHdr) : (s.updHd ty inst f).rows = s.rows := rfl
@[simp] theorem State.updHd_tiles (s : State) (ty inst : Nat) (f : PageHdr → PageHdr) : (s.updHd ty inst f).tiles = s.tiles := rfl
@[simp] theorem State.updHd_trims (s : State) (ty inst : Nat) (f : PageHdr → PageHdr) : (s.updHd ty inst f).trims = s.trims := rfl
@[simp] theorem State.updHd_weir (s : State) (ty inst : Nat) (f : PageHdr → PageHdr) : (s.updHd ty inst f).weir = s.weir := rfl
@[simp] theorem State.updHd_nextRep (s : State) (ty inst : Nat) (f : PageHdr → PageHdr) : (s.updHd ty inst f).nextRep = s.nextRep := rfl
@[simp] theorem State.updHd_harbour (s : State) (ty inst : Nat) (f : PageHdr → PageHdr) : (s.updHd ty inst f).harbour = s.harbour := rfl
@[simp] theorem State.updHd_hbPoison (s : State) (ty inst : Nat) (f : PageHdr → PageHdr) : (s.updHd ty inst f).hbPoison = s.hbPoison := rfl
@[simp] theorem State.updHd_hbWritten (s : State) (ty inst : Nat) (f : PageHdr → PageHdr) : (s.updHd ty inst f).hbWritten = s.hbWritten := rfl
@[simp] theorem State.updHd_frames (s : State) (ty inst : Nat) (f : PageHdr → PageHdr) : (s.updHd ty inst f).frames = s.frames := rfl
@[simp] theorem State.updHd_badSlots (s : State) (ty inst : Nat) (f : PageHdr → PageHdr) : (s.updHd ty inst f).badSlots = s.badSlots := rfl
@[simp] theorem State.updHd_owners (s : State) (ty inst : Nat) (f : PageHdr → PageHdr) : (s.updHd ty inst f).owners = s.owners := rfl
@[simp] theorem State.updHd_runs (s : State) (ty inst : Nat) (f : PageHdr → PageHdr) : (s.updHd ty inst f).runs = s.runs := rfl
@[simp] theorem State.updHd_nextRun (s : State) (ty inst : Nat) (f : PageHdr → PageHdr) : (s.updHd ty inst f).nextRun = s.nextRun := rfl
@[simp] theorem State.updHd_refetch (s : State) (ty inst : Nat) (f : PageHdr → PageHdr) : (s.updHd ty inst f).refetch = s.refetch := rfl
@[simp] theorem State.updHd_hbr (s : State) (ty inst : Nat) (f : PageHdr → PageHdr) : (s.updHd ty inst f).hbr = s.hbr := rfl
@[simp] theorem State.updHd_scrubFrom (s : State) (ty inst : Nat) (f : PageHdr → PageHdr) : (s.updHd ty inst f).scrubFrom = s.scrubFrom := rfl
@[simp] theorem State.updHd_swaps (s : State) (ty inst : Nat) (f : PageHdr → PageHdr) : (s.updHd ty inst f).swaps = s.swaps := rfl
@[simp] theorem State.updHd_imports (s : State) (ty inst : Nat) (f : PageHdr → PageHdr) : (s.updHd ty inst f).imports = s.imports := rfl
@[simp] theorem State.updHd_dyns (s : State) (ty inst : Nat) (f : PageHdr → PageHdr) : (s.updHd ty inst f).dyns = s.dyns := rfl
@[simp] theorem State.updHd_tests (s : State) (ty inst : Nat) (f : PageHdr → PageHdr) : (s.updHd ty inst f).tests = s.tests := rfl
@[simp] theorem State.updHd_flash (s : State) (ty inst : Nat) (f : PageHdr → PageHdr) : (s.updHd ty inst f).flash = s.flash := rfl
@[simp] theorem State.updHd_cal (s : State) (ty inst : Nat) (f : PageHdr → PageHdr) : (s.updHd ty inst f).cal = s.cal := rfl
@[simp] theorem State.updHd_flashq (s : State) (ty inst : Nat) (f : PageHdr → PageHdr) : (s.updHd ty inst f).flashq = s.flashq := rfl
@[simp] theorem State.updHd_ownerKeys (s : State) (ty inst : Nat) (f : PageHdr → PageHdr) : (s.updHd ty inst f).ownerKeys = s.ownerKeys := rfl
@[simp] theorem State.updHd_spdm (s : State) (ty inst : Nat) (f : PageHdr → PageHdr) : (s.updHd ty inst f).spdm = s.spdm := rfl
@[simp] theorem State.updHd_ends (s : State) (ty inst : Nat) (f : PageHdr → PageHdr) : (s.updHd ty inst f).ends = s.ends := rfl
@[simp] theorem State.updHd_rrCtx (s : State) (ty inst : Nat) (f : PageHdr → PageHdr) : (s.updHd ty inst f).rrCtx = s.rrCtx := rfl
@[simp] theorem State.updHd_rrQ (s : State) (ty inst : Nat) (f : PageHdr → PageHdr) : (s.updHd ty inst f).rrQ = s.rrQ := rfl
@[simp] theorem State.updHd_rplChecks (s : State) (ty inst : Nat) (f : PageHdr → PageHdr) : (s.updHd ty inst f).rplChecks = s.rplChecks := rfl
@[simp] theorem State.updHd_lost (s : State) (ty inst : Nat) (f : PageHdr → PageHdr) : (s.updHd ty inst f).lost = s.lost := rfl
@[simp] theorem State.updHd_thm (s : State) (ty inst : Nat) (f : PageHdr → PageHdr) : (s.updHd ty inst f).thm = s.thm := rfl
@[simp] theorem State.updHd_wd (s : State) (ty inst : Nat) (f : PageHdr → PageHdr) : (s.updHd ty inst f).wd = s.wd := rfl
@[simp] theorem State.updHd_rungAt (s : State) (ty inst : Nat) (f : PageHdr → PageHdr) : (s.updHd ty inst f).rungAt = s.rungAt := rfl
@[simp] theorem State.updHd_flrs (s : State) (ty inst : Nat) (f : PageHdr → PageHdr) : (s.updHd ty inst f).flrs = s.flrs := rfl
@[simp] theorem State.updHd_sessions (s : State) (ty inst : Nat) (f : PageHdr → PageHdr) : (s.updHd ty inst f).sessions = s.sessions := rfl
@[simp] theorem State.updHd_mgmtKeys (s : State) (ty inst : Nat) (f : PageHdr → PageHdr) : (s.updHd ty inst f).mgmtKeys = s.mgmtKeys := rfl
@[simp] theorem State.updHd_authTick (s : State) (ty inst : Nat) (f : PageHdr → PageHdr) : (s.updHd ty inst f).authTick = s.authTick := rfl
@[simp] theorem State.updHd_views (s : State) (ty inst : Nat) (f : PageHdr → PageHdr) : (s.updHd ty inst f).views = s.views := rfl
@[simp] theorem State.updHd_boot (s : State) (ty inst : Nat) (f : PageHdr → PageHdr) : (s.updHd ty inst f).boot = s.boot := rfl
@[simp] theorem State.updHd_push (s : State) (ty inst : Nat) (f : PageHdr → PageHdr) : (s.updHd ty inst f).push = s.push := rfl
@[simp] theorem State.updHd_tap (s : State) (ty inst : Nat) (f : PageHdr → PageHdr) : (s.updHd ty inst f).tap = s.tap := rfl
@[simp] theorem State.updHd_mctp (s : State) (ty inst : Nat) (f : PageHdr → PageHdr) : (s.updHd ty inst f).mctp = s.mctp := rfl
@[simp] theorem State.updHd_torn (s : State) (ty inst : Nat) (f : PageHdr → PageHdr) : (s.updHd ty inst f).torn = s.torn := rfl
@[simp] theorem State.updHd_grantWas (s : State) (ty inst : Nat) (f : PageHdr → PageHdr) : (s.updHd ty inst f).grantWas = s.grantWas := rfl
@[simp] theorem State.updHd_power (s : State) (ty inst : Nat) (f : PageHdr → PageHdr) : (s.updHd ty inst f).power = s.power := rfl
@[simp] theorem State.updHd_reconAt (s : State) (ty inst : Nat) (f : PageHdr → PageHdr) : (s.updHd ty inst f).reconAt = s.reconAt := rfl

/-! ## emit -/

@[simp] theorem State.emit_pending (s : State) (o : Output) : (s.emit o).pending = s.pending := rfl
@[simp] theorem State.emit_regs (s : State) (o : Output) : (s.emit o).regs = s.regs := rfl
@[simp] theorem State.emit_hdr (s : State) (o : Output) : (s.emit o).hdr = s.hdr := rfl
@[simp] theorem State.emit_shadow (s : State) (o : Output) : (s.emit o).shadow = s.shadow := rfl
@[simp] theorem State.emit_staged (s : State) (o : Output) : (s.emit o).staged = s.staged := rfl
@[simp] theorem State.emit_heldWrites (s : State) (o : Output) : (s.emit o).heldWrites = s.heldWrites := rfl
@[simp] theorem State.emit_fencing (s : State) (o : Output) : (s.emit o).fencing = s.fencing := rfl
@[simp] theorem State.emit_pendWas (s : State) (o : Output) : (s.emit o).pendWas = s.pendWas := rfl
@[simp] theorem State.emit_log (s : State) (o : Output) : (s.emit o).log = s.log := rfl
@[simp] theorem State.emit_out (s : State) (o : Output) : (s.emit o).out = o :: s.out := rfl
@[simp] theorem State.emit_irq (s : State) (o : Output) : (s.emit o).irq = s.irq := rfl
@[simp] theorem State.emit_badAccTick (s : State) (o : Output) : (s.emit o).badAccTick = s.badAccTick := rfl
@[simp] theorem State.emit_draws (s : State) (o : Output) : (s.emit o).draws = s.draws := rfl
@[simp] theorem State.emit_leases (s : State) (o : Output) : (s.emit o).leases = s.leases := rfl
@[simp] theorem State.emit_profile (s : State) (o : Output) : (s.emit o).profile = s.profile := rfl
@[simp] theorem State.emit_count (s : State) (o : Output) : (s.emit o).count = s.count := rfl
@[simp] theorem State.emit_tide (s : State) (o : Output) : (s.emit o).tide = s.tide := rfl
@[simp] theorem State.emit_tickets (s : State) (o : Output) : (s.emit o).tickets = s.tickets := rfl
@[simp] theorem State.emit_acks (s : State) (o : Output) : (s.emit o).acks = s.acks := rfl
@[simp] theorem State.emit_jobs (s : State) (o : Output) : (s.emit o).jobs = s.jobs := rfl
@[simp] theorem State.emit_nextJob (s : State) (o : Output) : (s.emit o).nextJob = s.nextJob := rfl
@[simp] theorem State.emit_plans (s : State) (o : Output) : (s.emit o).plans = s.plans := rfl
@[simp] theorem State.emit_nextPlan (s : State) (o : Output) : (s.emit o).nextPlan = s.nextPlan := rfl
@[simp] theorem State.emit_acct (s : State) (o : Output) : (s.emit o).acct = s.acct := rfl
@[simp] theorem State.emit_slu (s : State) (o : Output) : (s.emit o).slu = s.slu := rfl
@[simp] theorem State.emit_ctxs (s : State) (o : Output) : (s.emit o).ctxs = s.ctxs := rfl
@[simp] theorem State.emit_basin (s : State) (o : Output) : (s.emit o).basin = s.basin := rfl
@[simp] theorem State.emit_lines (s : State) (o : Output) : (s.emit o).lines = s.lines := rfl
@[simp] theorem State.emit_tags (s : State) (o : Output) : (s.emit o).tags = s.tags := rfl
@[simp] theorem State.emit_qps (s : State) (o : Output) : (s.emit o).qps = s.qps := rfl
@[simp] theorem State.emit_ovf (s : State) (o : Output) : (s.emit o).ovf = s.ovf := rfl
@[simp] theorem State.emit_landing (s : State) (o : Output) : (s.emit o).landing = s.landing := rfl
@[simp] theorem State.emit_rungs (s : State) (o : Output) : (s.emit o).rungs = s.rungs := rfl
@[simp] theorem State.emit_rows (s : State) (o : Output) : (s.emit o).rows = s.rows := rfl
@[simp] theorem State.emit_tiles (s : State) (o : Output) : (s.emit o).tiles = s.tiles := rfl
@[simp] theorem State.emit_trims (s : State) (o : Output) : (s.emit o).trims = s.trims := rfl
@[simp] theorem State.emit_weir (s : State) (o : Output) : (s.emit o).weir = s.weir := rfl
@[simp] theorem State.emit_nextRep (s : State) (o : Output) : (s.emit o).nextRep = s.nextRep := rfl
@[simp] theorem State.emit_harbour (s : State) (o : Output) : (s.emit o).harbour = s.harbour := rfl
@[simp] theorem State.emit_hbPoison (s : State) (o : Output) : (s.emit o).hbPoison = s.hbPoison := rfl
@[simp] theorem State.emit_hbWritten (s : State) (o : Output) : (s.emit o).hbWritten = s.hbWritten := rfl
@[simp] theorem State.emit_frames (s : State) (o : Output) : (s.emit o).frames = s.frames := rfl
@[simp] theorem State.emit_badSlots (s : State) (o : Output) : (s.emit o).badSlots = s.badSlots := rfl
@[simp] theorem State.emit_owners (s : State) (o : Output) : (s.emit o).owners = s.owners := rfl
@[simp] theorem State.emit_runs (s : State) (o : Output) : (s.emit o).runs = s.runs := rfl
@[simp] theorem State.emit_nextRun (s : State) (o : Output) : (s.emit o).nextRun = s.nextRun := rfl
@[simp] theorem State.emit_refetch (s : State) (o : Output) : (s.emit o).refetch = s.refetch := rfl
@[simp] theorem State.emit_hbr (s : State) (o : Output) : (s.emit o).hbr = s.hbr := rfl
@[simp] theorem State.emit_scrubFrom (s : State) (o : Output) : (s.emit o).scrubFrom = s.scrubFrom := rfl
@[simp] theorem State.emit_swaps (s : State) (o : Output) : (s.emit o).swaps = s.swaps := rfl
@[simp] theorem State.emit_imports (s : State) (o : Output) : (s.emit o).imports = s.imports := rfl
@[simp] theorem State.emit_dyns (s : State) (o : Output) : (s.emit o).dyns = s.dyns := rfl
@[simp] theorem State.emit_tests (s : State) (o : Output) : (s.emit o).tests = s.tests := rfl
@[simp] theorem State.emit_flash (s : State) (o : Output) : (s.emit o).flash = s.flash := rfl
@[simp] theorem State.emit_cal (s : State) (o : Output) : (s.emit o).cal = s.cal := rfl
@[simp] theorem State.emit_flashq (s : State) (o : Output) : (s.emit o).flashq = s.flashq := rfl
@[simp] theorem State.emit_ownerKeys (s : State) (o : Output) : (s.emit o).ownerKeys = s.ownerKeys := rfl
@[simp] theorem State.emit_spdm (s : State) (o : Output) : (s.emit o).spdm = s.spdm := rfl
@[simp] theorem State.emit_ends (s : State) (o : Output) : (s.emit o).ends = s.ends := rfl
@[simp] theorem State.emit_rrCtx (s : State) (o : Output) : (s.emit o).rrCtx = s.rrCtx := rfl
@[simp] theorem State.emit_rrQ (s : State) (o : Output) : (s.emit o).rrQ = s.rrQ := rfl
@[simp] theorem State.emit_rplChecks (s : State) (o : Output) : (s.emit o).rplChecks = s.rplChecks := rfl
@[simp] theorem State.emit_lost (s : State) (o : Output) : (s.emit o).lost = s.lost := rfl
@[simp] theorem State.emit_thm (s : State) (o : Output) : (s.emit o).thm = s.thm := rfl
@[simp] theorem State.emit_wd (s : State) (o : Output) : (s.emit o).wd = s.wd := rfl
@[simp] theorem State.emit_rungAt (s : State) (o : Output) : (s.emit o).rungAt = s.rungAt := rfl
@[simp] theorem State.emit_flrs (s : State) (o : Output) : (s.emit o).flrs = s.flrs := rfl
@[simp] theorem State.emit_sessions (s : State) (o : Output) : (s.emit o).sessions = s.sessions := rfl
@[simp] theorem State.emit_mgmtKeys (s : State) (o : Output) : (s.emit o).mgmtKeys = s.mgmtKeys := rfl
@[simp] theorem State.emit_authTick (s : State) (o : Output) : (s.emit o).authTick = s.authTick := rfl
@[simp] theorem State.emit_views (s : State) (o : Output) : (s.emit o).views = s.views := rfl
@[simp] theorem State.emit_boot (s : State) (o : Output) : (s.emit o).boot = s.boot := rfl
@[simp] theorem State.emit_push (s : State) (o : Output) : (s.emit o).push = s.push := rfl
@[simp] theorem State.emit_tap (s : State) (o : Output) : (s.emit o).tap = s.tap := rfl
@[simp] theorem State.emit_mctp (s : State) (o : Output) : (s.emit o).mctp = s.mctp := rfl
@[simp] theorem State.emit_torn (s : State) (o : Output) : (s.emit o).torn = s.torn := rfl
@[simp] theorem State.emit_grantWas (s : State) (o : Output) : (s.emit o).grantWas = s.grantWas := rfl
@[simp] theorem State.emit_power (s : State) (o : Output) : (s.emit o).power = s.power := rfl
@[simp] theorem State.emit_reconAt (s : State) (o : Output) : (s.emit o).reconAt = s.reconAt := rfl

/-! ## lease -/

@[simp] theorem State.lease_pending (s : State) (l : Lease) : (s.lease l).pending = s.pending := rfl
@[simp] theorem State.lease_regs (s : State) (l : Lease) : (s.lease l).regs = s.regs := rfl
@[simp] theorem State.lease_hdr (s : State) (l : Lease) : (s.lease l).hdr = s.hdr := rfl
@[simp] theorem State.lease_shadow (s : State) (l : Lease) : (s.lease l).shadow = s.shadow := rfl
@[simp] theorem State.lease_staged (s : State) (l : Lease) : (s.lease l).staged = s.staged := rfl
@[simp] theorem State.lease_heldWrites (s : State) (l : Lease) : (s.lease l).heldWrites = s.heldWrites := rfl
@[simp] theorem State.lease_fencing (s : State) (l : Lease) : (s.lease l).fencing = s.fencing := rfl
@[simp] theorem State.lease_pendWas (s : State) (l : Lease) : (s.lease l).pendWas = s.pendWas := rfl
@[simp] theorem State.lease_log (s : State) (l : Lease) : (s.lease l).log = s.log := rfl
@[simp] theorem State.lease_out (s : State) (l : Lease) : (s.lease l).out = s.out := rfl
@[simp] theorem State.lease_irq (s : State) (l : Lease) : (s.lease l).irq = s.irq := rfl
@[simp] theorem State.lease_badAccTick (s : State) (l : Lease) : (s.lease l).badAccTick = s.badAccTick := rfl
@[simp] theorem State.lease_draws (s : State) (l : Lease) : (s.lease l).draws = s.draws := rfl
@[simp] theorem State.lease_leases (s : State) (l : Lease) : (s.lease l).leases = s.leases ++ [l] := rfl
@[simp] theorem State.lease_profile (s : State) (l : Lease) : (s.lease l).profile = s.profile := rfl
@[simp] theorem State.lease_count (s : State) (l : Lease) : (s.lease l).count = s.count := rfl
@[simp] theorem State.lease_tide (s : State) (l : Lease) : (s.lease l).tide = s.tide := rfl
@[simp] theorem State.lease_tickets (s : State) (l : Lease) : (s.lease l).tickets = s.tickets := rfl
@[simp] theorem State.lease_acks (s : State) (l : Lease) : (s.lease l).acks = s.acks := rfl
@[simp] theorem State.lease_jobs (s : State) (l : Lease) : (s.lease l).jobs = s.jobs := rfl
@[simp] theorem State.lease_nextJob (s : State) (l : Lease) : (s.lease l).nextJob = s.nextJob := rfl
@[simp] theorem State.lease_plans (s : State) (l : Lease) : (s.lease l).plans = s.plans := rfl
@[simp] theorem State.lease_nextPlan (s : State) (l : Lease) : (s.lease l).nextPlan = s.nextPlan := rfl
@[simp] theorem State.lease_acct (s : State) (l : Lease) : (s.lease l).acct = s.acct := rfl
@[simp] theorem State.lease_slu (s : State) (l : Lease) : (s.lease l).slu = s.slu := rfl
@[simp] theorem State.lease_ctxs (s : State) (l : Lease) : (s.lease l).ctxs = s.ctxs := rfl
@[simp] theorem State.lease_basin (s : State) (l : Lease) : (s.lease l).basin = s.basin := rfl
@[simp] theorem State.lease_lines (s : State) (l : Lease) : (s.lease l).lines = s.lines := rfl
@[simp] theorem State.lease_tags (s : State) (l : Lease) : (s.lease l).tags = s.tags := rfl
@[simp] theorem State.lease_qps (s : State) (l : Lease) : (s.lease l).qps = s.qps := rfl
@[simp] theorem State.lease_ovf (s : State) (l : Lease) : (s.lease l).ovf = s.ovf := rfl
@[simp] theorem State.lease_landing (s : State) (l : Lease) : (s.lease l).landing = s.landing := rfl
@[simp] theorem State.lease_rungs (s : State) (l : Lease) : (s.lease l).rungs = s.rungs := rfl
@[simp] theorem State.lease_rows (s : State) (l : Lease) : (s.lease l).rows = s.rows := rfl
@[simp] theorem State.lease_tiles (s : State) (l : Lease) : (s.lease l).tiles = s.tiles := rfl
@[simp] theorem State.lease_trims (s : State) (l : Lease) : (s.lease l).trims = s.trims := rfl
@[simp] theorem State.lease_weir (s : State) (l : Lease) : (s.lease l).weir = s.weir := rfl
@[simp] theorem State.lease_nextRep (s : State) (l : Lease) : (s.lease l).nextRep = s.nextRep := rfl
@[simp] theorem State.lease_harbour (s : State) (l : Lease) : (s.lease l).harbour = s.harbour := rfl
@[simp] theorem State.lease_hbPoison (s : State) (l : Lease) : (s.lease l).hbPoison = s.hbPoison := rfl
@[simp] theorem State.lease_hbWritten (s : State) (l : Lease) : (s.lease l).hbWritten = s.hbWritten := rfl
@[simp] theorem State.lease_frames (s : State) (l : Lease) : (s.lease l).frames = s.frames := rfl
@[simp] theorem State.lease_badSlots (s : State) (l : Lease) : (s.lease l).badSlots = s.badSlots := rfl
@[simp] theorem State.lease_owners (s : State) (l : Lease) : (s.lease l).owners = s.owners := rfl
@[simp] theorem State.lease_runs (s : State) (l : Lease) : (s.lease l).runs = s.runs := rfl
@[simp] theorem State.lease_nextRun (s : State) (l : Lease) : (s.lease l).nextRun = s.nextRun := rfl
@[simp] theorem State.lease_refetch (s : State) (l : Lease) : (s.lease l).refetch = s.refetch := rfl
@[simp] theorem State.lease_hbr (s : State) (l : Lease) : (s.lease l).hbr = s.hbr := rfl
@[simp] theorem State.lease_scrubFrom (s : State) (l : Lease) : (s.lease l).scrubFrom = s.scrubFrom := rfl
@[simp] theorem State.lease_swaps (s : State) (l : Lease) : (s.lease l).swaps = s.swaps := rfl
@[simp] theorem State.lease_imports (s : State) (l : Lease) : (s.lease l).imports = s.imports := rfl
@[simp] theorem State.lease_dyns (s : State) (l : Lease) : (s.lease l).dyns = s.dyns := rfl
@[simp] theorem State.lease_tests (s : State) (l : Lease) : (s.lease l).tests = s.tests := rfl
@[simp] theorem State.lease_flash (s : State) (l : Lease) : (s.lease l).flash = s.flash := rfl
@[simp] theorem State.lease_cal (s : State) (l : Lease) : (s.lease l).cal = s.cal := rfl
@[simp] theorem State.lease_flashq (s : State) (l : Lease) : (s.lease l).flashq = s.flashq := rfl
@[simp] theorem State.lease_ownerKeys (s : State) (l : Lease) : (s.lease l).ownerKeys = s.ownerKeys := rfl
@[simp] theorem State.lease_spdm (s : State) (l : Lease) : (s.lease l).spdm = s.spdm := rfl
@[simp] theorem State.lease_ends (s : State) (l : Lease) : (s.lease l).ends = s.ends := rfl
@[simp] theorem State.lease_rrCtx (s : State) (l : Lease) : (s.lease l).rrCtx = s.rrCtx := rfl
@[simp] theorem State.lease_rrQ (s : State) (l : Lease) : (s.lease l).rrQ = s.rrQ := rfl
@[simp] theorem State.lease_rplChecks (s : State) (l : Lease) : (s.lease l).rplChecks = s.rplChecks := rfl
@[simp] theorem State.lease_lost (s : State) (l : Lease) : (s.lease l).lost = s.lost := rfl
@[simp] theorem State.lease_thm (s : State) (l : Lease) : (s.lease l).thm = s.thm := rfl
@[simp] theorem State.lease_wd (s : State) (l : Lease) : (s.lease l).wd = s.wd := rfl
@[simp] theorem State.lease_rungAt (s : State) (l : Lease) : (s.lease l).rungAt = s.rungAt := rfl
@[simp] theorem State.lease_flrs (s : State) (l : Lease) : (s.lease l).flrs = s.flrs := rfl
@[simp] theorem State.lease_sessions (s : State) (l : Lease) : (s.lease l).sessions = s.sessions := rfl
@[simp] theorem State.lease_mgmtKeys (s : State) (l : Lease) : (s.lease l).mgmtKeys = s.mgmtKeys := rfl
@[simp] theorem State.lease_authTick (s : State) (l : Lease) : (s.lease l).authTick = s.authTick := rfl
@[simp] theorem State.lease_views (s : State) (l : Lease) : (s.lease l).views = s.views := rfl
@[simp] theorem State.lease_boot (s : State) (l : Lease) : (s.lease l).boot = s.boot := rfl
@[simp] theorem State.lease_push (s : State) (l : Lease) : (s.lease l).push = s.push := rfl
@[simp] theorem State.lease_tap (s : State) (l : Lease) : (s.lease l).tap = s.tap := rfl
@[simp] theorem State.lease_mctp (s : State) (l : Lease) : (s.lease l).mctp = s.mctp := rfl
@[simp] theorem State.lease_torn (s : State) (l : Lease) : (s.lease l).torn = s.torn := rfl
@[simp] theorem State.lease_grantWas (s : State) (l : Lease) : (s.lease l).grantWas = s.grantWas := rfl
@[simp] theorem State.lease_power (s : State) (l : Lease) : (s.lease l).power = s.power := rfl
@[simp] theorem State.lease_reconAt (s : State) (l : Lease) : (s.lease l).reconAt = s.reconAt := rfl

/-! ## setTk -/

@[simp] theorem State.setTk_pending (s : State) (k : Nat) (t : Ticket) : (s.setTk k t).pending = s.pending := rfl
@[simp] theorem State.setTk_regs (s : State) (k : Nat) (t : Ticket) : (s.setTk k t).regs = s.regs := rfl
@[simp] theorem State.setTk_hdr (s : State) (k : Nat) (t : Ticket) : (s.setTk k t).hdr = s.hdr := rfl
@[simp] theorem State.setTk_shadow (s : State) (k : Nat) (t : Ticket) : (s.setTk k t).shadow = s.shadow := rfl
@[simp] theorem State.setTk_staged (s : State) (k : Nat) (t : Ticket) : (s.setTk k t).staged = s.staged := rfl
@[simp] theorem State.setTk_heldWrites (s : State) (k : Nat) (t : Ticket) : (s.setTk k t).heldWrites = s.heldWrites := rfl
@[simp] theorem State.setTk_fencing (s : State) (k : Nat) (t : Ticket) : (s.setTk k t).fencing = s.fencing := rfl
@[simp] theorem State.setTk_pendWas (s : State) (k : Nat) (t : Ticket) : (s.setTk k t).pendWas = s.pendWas := rfl
@[simp] theorem State.setTk_log (s : State) (k : Nat) (t : Ticket) : (s.setTk k t).log = s.log := rfl
@[simp] theorem State.setTk_out (s : State) (k : Nat) (t : Ticket) : (s.setTk k t).out = s.out := rfl
@[simp] theorem State.setTk_irq (s : State) (k : Nat) (t : Ticket) : (s.setTk k t).irq = s.irq := rfl
@[simp] theorem State.setTk_badAccTick (s : State) (k : Nat) (t : Ticket) : (s.setTk k t).badAccTick = s.badAccTick := rfl
@[simp] theorem State.setTk_draws (s : State) (k : Nat) (t : Ticket) : (s.setTk k t).draws = s.draws := rfl
@[simp] theorem State.setTk_leases (s : State) (k : Nat) (t : Ticket) : (s.setTk k t).leases = s.leases := rfl
@[simp] theorem State.setTk_profile (s : State) (k : Nat) (t : Ticket) : (s.setTk k t).profile = s.profile := rfl
@[simp] theorem State.setTk_count (s : State) (k : Nat) (t : Ticket) : (s.setTk k t).count = s.count := rfl
@[simp] theorem State.setTk_tide (s : State) (k : Nat) (t : Ticket) : (s.setTk k t).tide = s.tide := rfl
@[simp] theorem State.setTk_tickets (s : State) (k : Nat) (t : Ticket) : (s.setTk k t).tickets = Store.put tkFree s.tickets k t := rfl
@[simp] theorem State.setTk_acks (s : State) (k : Nat) (t : Ticket) : (s.setTk k t).acks = s.acks := rfl
@[simp] theorem State.setTk_jobs (s : State) (k : Nat) (t : Ticket) : (s.setTk k t).jobs = s.jobs := rfl
@[simp] theorem State.setTk_nextJob (s : State) (k : Nat) (t : Ticket) : (s.setTk k t).nextJob = s.nextJob := rfl
@[simp] theorem State.setTk_plans (s : State) (k : Nat) (t : Ticket) : (s.setTk k t).plans = s.plans := rfl
@[simp] theorem State.setTk_nextPlan (s : State) (k : Nat) (t : Ticket) : (s.setTk k t).nextPlan = s.nextPlan := rfl
@[simp] theorem State.setTk_acct (s : State) (k : Nat) (t : Ticket) : (s.setTk k t).acct = s.acct := rfl
@[simp] theorem State.setTk_slu (s : State) (k : Nat) (t : Ticket) : (s.setTk k t).slu = s.slu := rfl
@[simp] theorem State.setTk_ctxs (s : State) (k : Nat) (t : Ticket) : (s.setTk k t).ctxs = s.ctxs := rfl
@[simp] theorem State.setTk_basin (s : State) (k : Nat) (t : Ticket) : (s.setTk k t).basin = s.basin := rfl
@[simp] theorem State.setTk_lines (s : State) (k : Nat) (t : Ticket) : (s.setTk k t).lines = s.lines := rfl
@[simp] theorem State.setTk_tags (s : State) (k : Nat) (t : Ticket) : (s.setTk k t).tags = s.tags := rfl
@[simp] theorem State.setTk_qps (s : State) (k : Nat) (t : Ticket) : (s.setTk k t).qps = s.qps := rfl
@[simp] theorem State.setTk_ovf (s : State) (k : Nat) (t : Ticket) : (s.setTk k t).ovf = s.ovf := rfl
@[simp] theorem State.setTk_landing (s : State) (k : Nat) (t : Ticket) : (s.setTk k t).landing = s.landing := rfl
@[simp] theorem State.setTk_rungs (s : State) (k : Nat) (t : Ticket) : (s.setTk k t).rungs = s.rungs := rfl
@[simp] theorem State.setTk_rows (s : State) (k : Nat) (t : Ticket) : (s.setTk k t).rows = s.rows := rfl
@[simp] theorem State.setTk_tiles (s : State) (k : Nat) (t : Ticket) : (s.setTk k t).tiles = s.tiles := rfl
@[simp] theorem State.setTk_trims (s : State) (k : Nat) (t : Ticket) : (s.setTk k t).trims = s.trims := rfl
@[simp] theorem State.setTk_weir (s : State) (k : Nat) (t : Ticket) : (s.setTk k t).weir = s.weir := rfl
@[simp] theorem State.setTk_nextRep (s : State) (k : Nat) (t : Ticket) : (s.setTk k t).nextRep = s.nextRep := rfl
@[simp] theorem State.setTk_harbour (s : State) (k : Nat) (t : Ticket) : (s.setTk k t).harbour = s.harbour := rfl
@[simp] theorem State.setTk_hbPoison (s : State) (k : Nat) (t : Ticket) : (s.setTk k t).hbPoison = s.hbPoison := rfl
@[simp] theorem State.setTk_hbWritten (s : State) (k : Nat) (t : Ticket) : (s.setTk k t).hbWritten = s.hbWritten := rfl
@[simp] theorem State.setTk_frames (s : State) (k : Nat) (t : Ticket) : (s.setTk k t).frames = s.frames := rfl
@[simp] theorem State.setTk_badSlots (s : State) (k : Nat) (t : Ticket) : (s.setTk k t).badSlots = s.badSlots := rfl
@[simp] theorem State.setTk_owners (s : State) (k : Nat) (t : Ticket) : (s.setTk k t).owners = s.owners := rfl
@[simp] theorem State.setTk_runs (s : State) (k : Nat) (t : Ticket) : (s.setTk k t).runs = s.runs := rfl
@[simp] theorem State.setTk_nextRun (s : State) (k : Nat) (t : Ticket) : (s.setTk k t).nextRun = s.nextRun := rfl
@[simp] theorem State.setTk_refetch (s : State) (k : Nat) (t : Ticket) : (s.setTk k t).refetch = s.refetch := rfl
@[simp] theorem State.setTk_hbr (s : State) (k : Nat) (t : Ticket) : (s.setTk k t).hbr = s.hbr := rfl
@[simp] theorem State.setTk_scrubFrom (s : State) (k : Nat) (t : Ticket) : (s.setTk k t).scrubFrom = s.scrubFrom := rfl
@[simp] theorem State.setTk_swaps (s : State) (k : Nat) (t : Ticket) : (s.setTk k t).swaps = s.swaps := rfl
@[simp] theorem State.setTk_imports (s : State) (k : Nat) (t : Ticket) : (s.setTk k t).imports = s.imports := rfl
@[simp] theorem State.setTk_dyns (s : State) (k : Nat) (t : Ticket) : (s.setTk k t).dyns = s.dyns := rfl
@[simp] theorem State.setTk_tests (s : State) (k : Nat) (t : Ticket) : (s.setTk k t).tests = s.tests := rfl
@[simp] theorem State.setTk_flash (s : State) (k : Nat) (t : Ticket) : (s.setTk k t).flash = s.flash := rfl
@[simp] theorem State.setTk_cal (s : State) (k : Nat) (t : Ticket) : (s.setTk k t).cal = s.cal := rfl
@[simp] theorem State.setTk_flashq (s : State) (k : Nat) (t : Ticket) : (s.setTk k t).flashq = s.flashq := rfl
@[simp] theorem State.setTk_ownerKeys (s : State) (k : Nat) (t : Ticket) : (s.setTk k t).ownerKeys = s.ownerKeys := rfl
@[simp] theorem State.setTk_spdm (s : State) (k : Nat) (t : Ticket) : (s.setTk k t).spdm = s.spdm := rfl
@[simp] theorem State.setTk_ends (s : State) (k : Nat) (t : Ticket) : (s.setTk k t).ends = s.ends := rfl
@[simp] theorem State.setTk_rrCtx (s : State) (k : Nat) (t : Ticket) : (s.setTk k t).rrCtx = s.rrCtx := rfl
@[simp] theorem State.setTk_rrQ (s : State) (k : Nat) (t : Ticket) : (s.setTk k t).rrQ = s.rrQ := rfl
@[simp] theorem State.setTk_rplChecks (s : State) (k : Nat) (t : Ticket) : (s.setTk k t).rplChecks = s.rplChecks := rfl
@[simp] theorem State.setTk_lost (s : State) (k : Nat) (t : Ticket) : (s.setTk k t).lost = s.lost := rfl
@[simp] theorem State.setTk_thm (s : State) (k : Nat) (t : Ticket) : (s.setTk k t).thm = s.thm := rfl
@[simp] theorem State.setTk_wd (s : State) (k : Nat) (t : Ticket) : (s.setTk k t).wd = s.wd := rfl
@[simp] theorem State.setTk_rungAt (s : State) (k : Nat) (t : Ticket) : (s.setTk k t).rungAt = s.rungAt := rfl
@[simp] theorem State.setTk_flrs (s : State) (k : Nat) (t : Ticket) : (s.setTk k t).flrs = s.flrs := rfl
@[simp] theorem State.setTk_sessions (s : State) (k : Nat) (t : Ticket) : (s.setTk k t).sessions = s.sessions := rfl
@[simp] theorem State.setTk_mgmtKeys (s : State) (k : Nat) (t : Ticket) : (s.setTk k t).mgmtKeys = s.mgmtKeys := rfl
@[simp] theorem State.setTk_authTick (s : State) (k : Nat) (t : Ticket) : (s.setTk k t).authTick = s.authTick := rfl
@[simp] theorem State.setTk_views (s : State) (k : Nat) (t : Ticket) : (s.setTk k t).views = s.views := rfl
@[simp] theorem State.setTk_boot (s : State) (k : Nat) (t : Ticket) : (s.setTk k t).boot = s.boot := rfl
@[simp] theorem State.setTk_push (s : State) (k : Nat) (t : Ticket) : (s.setTk k t).push = s.push := rfl
@[simp] theorem State.setTk_tap (s : State) (k : Nat) (t : Ticket) : (s.setTk k t).tap = s.tap := rfl
@[simp] theorem State.setTk_mctp (s : State) (k : Nat) (t : Ticket) : (s.setTk k t).mctp = s.mctp := rfl
@[simp] theorem State.setTk_torn (s : State) (k : Nat) (t : Ticket) : (s.setTk k t).torn = s.torn := rfl
@[simp] theorem State.setTk_grantWas (s : State) (k : Nat) (t : Ticket) : (s.setTk k t).grantWas = s.grantWas := rfl
@[simp] theorem State.setTk_power (s : State) (k : Nat) (t : Ticket) : (s.setTk k t).power = s.power := rfl
@[simp] theorem State.setTk_reconAt (s : State) (k : Nat) (t : Ticket) : (s.setTk k t).reconAt = s.reconAt := rfl

/-! ## setJob -/

@[simp] theorem State.setJob_pending (s : State) (j : Nat) (x : Job) : (s.setJob j x).pending = s.pending := rfl
@[simp] theorem State.setJob_regs (s : State) (j : Nat) (x : Job) : (s.setJob j x).regs = s.regs := rfl
@[simp] theorem State.setJob_hdr (s : State) (j : Nat) (x : Job) : (s.setJob j x).hdr = s.hdr := rfl
@[simp] theorem State.setJob_shadow (s : State) (j : Nat) (x : Job) : (s.setJob j x).shadow = s.shadow := rfl
@[simp] theorem State.setJob_staged (s : State) (j : Nat) (x : Job) : (s.setJob j x).staged = s.staged := rfl
@[simp] theorem State.setJob_heldWrites (s : State) (j : Nat) (x : Job) : (s.setJob j x).heldWrites = s.heldWrites := rfl
@[simp] theorem State.setJob_fencing (s : State) (j : Nat) (x : Job) : (s.setJob j x).fencing = s.fencing := rfl
@[simp] theorem State.setJob_pendWas (s : State) (j : Nat) (x : Job) : (s.setJob j x).pendWas = s.pendWas := rfl
@[simp] theorem State.setJob_log (s : State) (j : Nat) (x : Job) : (s.setJob j x).log = s.log := rfl
@[simp] theorem State.setJob_out (s : State) (j : Nat) (x : Job) : (s.setJob j x).out = s.out := rfl
@[simp] theorem State.setJob_irq (s : State) (j : Nat) (x : Job) : (s.setJob j x).irq = s.irq := rfl
@[simp] theorem State.setJob_badAccTick (s : State) (j : Nat) (x : Job) : (s.setJob j x).badAccTick = s.badAccTick := rfl
@[simp] theorem State.setJob_draws (s : State) (j : Nat) (x : Job) : (s.setJob j x).draws = s.draws := rfl
@[simp] theorem State.setJob_leases (s : State) (j : Nat) (x : Job) : (s.setJob j x).leases = s.leases := rfl
@[simp] theorem State.setJob_profile (s : State) (j : Nat) (x : Job) : (s.setJob j x).profile = s.profile := rfl
@[simp] theorem State.setJob_count (s : State) (j : Nat) (x : Job) : (s.setJob j x).count = s.count := rfl
@[simp] theorem State.setJob_tide (s : State) (j : Nat) (x : Job) : (s.setJob j x).tide = s.tide := rfl
@[simp] theorem State.setJob_tickets (s : State) (j : Nat) (x : Job) : (s.setJob j x).tickets = s.tickets := rfl
@[simp] theorem State.setJob_acks (s : State) (j : Nat) (x : Job) : (s.setJob j x).acks = s.acks := rfl
@[simp] theorem State.setJob_jobs (s : State) (j : Nat) (x : Job) : (s.setJob j x).jobs = Store.put jobNone s.jobs j x := rfl
@[simp] theorem State.setJob_nextJob (s : State) (j : Nat) (x : Job) : (s.setJob j x).nextJob = s.nextJob := rfl
@[simp] theorem State.setJob_plans (s : State) (j : Nat) (x : Job) : (s.setJob j x).plans = s.plans := rfl
@[simp] theorem State.setJob_nextPlan (s : State) (j : Nat) (x : Job) : (s.setJob j x).nextPlan = s.nextPlan := rfl
@[simp] theorem State.setJob_acct (s : State) (j : Nat) (x : Job) : (s.setJob j x).acct = s.acct := rfl
@[simp] theorem State.setJob_slu (s : State) (j : Nat) (x : Job) : (s.setJob j x).slu = s.slu := rfl
@[simp] theorem State.setJob_ctxs (s : State) (j : Nat) (x : Job) : (s.setJob j x).ctxs = s.ctxs := rfl
@[simp] theorem State.setJob_basin (s : State) (j : Nat) (x : Job) : (s.setJob j x).basin = s.basin := rfl
@[simp] theorem State.setJob_lines (s : State) (j : Nat) (x : Job) : (s.setJob j x).lines = s.lines := rfl
@[simp] theorem State.setJob_tags (s : State) (j : Nat) (x : Job) : (s.setJob j x).tags = s.tags := rfl
@[simp] theorem State.setJob_qps (s : State) (j : Nat) (x : Job) : (s.setJob j x).qps = s.qps := rfl
@[simp] theorem State.setJob_ovf (s : State) (j : Nat) (x : Job) : (s.setJob j x).ovf = s.ovf := rfl
@[simp] theorem State.setJob_landing (s : State) (j : Nat) (x : Job) : (s.setJob j x).landing = s.landing := rfl
@[simp] theorem State.setJob_rungs (s : State) (j : Nat) (x : Job) : (s.setJob j x).rungs = s.rungs := rfl
@[simp] theorem State.setJob_rows (s : State) (j : Nat) (x : Job) : (s.setJob j x).rows = s.rows := rfl
@[simp] theorem State.setJob_tiles (s : State) (j : Nat) (x : Job) : (s.setJob j x).tiles = s.tiles := rfl
@[simp] theorem State.setJob_trims (s : State) (j : Nat) (x : Job) : (s.setJob j x).trims = s.trims := rfl
@[simp] theorem State.setJob_weir (s : State) (j : Nat) (x : Job) : (s.setJob j x).weir = s.weir := rfl
@[simp] theorem State.setJob_nextRep (s : State) (j : Nat) (x : Job) : (s.setJob j x).nextRep = s.nextRep := rfl
@[simp] theorem State.setJob_harbour (s : State) (j : Nat) (x : Job) : (s.setJob j x).harbour = s.harbour := rfl
@[simp] theorem State.setJob_hbPoison (s : State) (j : Nat) (x : Job) : (s.setJob j x).hbPoison = s.hbPoison := rfl
@[simp] theorem State.setJob_hbWritten (s : State) (j : Nat) (x : Job) : (s.setJob j x).hbWritten = s.hbWritten := rfl
@[simp] theorem State.setJob_frames (s : State) (j : Nat) (x : Job) : (s.setJob j x).frames = s.frames := rfl
@[simp] theorem State.setJob_badSlots (s : State) (j : Nat) (x : Job) : (s.setJob j x).badSlots = s.badSlots := rfl
@[simp] theorem State.setJob_owners (s : State) (j : Nat) (x : Job) : (s.setJob j x).owners = s.owners := rfl
@[simp] theorem State.setJob_runs (s : State) (j : Nat) (x : Job) : (s.setJob j x).runs = s.runs := rfl
@[simp] theorem State.setJob_nextRun (s : State) (j : Nat) (x : Job) : (s.setJob j x).nextRun = s.nextRun := rfl
@[simp] theorem State.setJob_refetch (s : State) (j : Nat) (x : Job) : (s.setJob j x).refetch = s.refetch := rfl
@[simp] theorem State.setJob_hbr (s : State) (j : Nat) (x : Job) : (s.setJob j x).hbr = s.hbr := rfl
@[simp] theorem State.setJob_scrubFrom (s : State) (j : Nat) (x : Job) : (s.setJob j x).scrubFrom = s.scrubFrom := rfl
@[simp] theorem State.setJob_swaps (s : State) (j : Nat) (x : Job) : (s.setJob j x).swaps = s.swaps := rfl
@[simp] theorem State.setJob_imports (s : State) (j : Nat) (x : Job) : (s.setJob j x).imports = s.imports := rfl
@[simp] theorem State.setJob_dyns (s : State) (j : Nat) (x : Job) : (s.setJob j x).dyns = s.dyns := rfl
@[simp] theorem State.setJob_tests (s : State) (j : Nat) (x : Job) : (s.setJob j x).tests = s.tests := rfl
@[simp] theorem State.setJob_flash (s : State) (j : Nat) (x : Job) : (s.setJob j x).flash = s.flash := rfl
@[simp] theorem State.setJob_cal (s : State) (j : Nat) (x : Job) : (s.setJob j x).cal = s.cal := rfl
@[simp] theorem State.setJob_flashq (s : State) (j : Nat) (x : Job) : (s.setJob j x).flashq = s.flashq := rfl
@[simp] theorem State.setJob_ownerKeys (s : State) (j : Nat) (x : Job) : (s.setJob j x).ownerKeys = s.ownerKeys := rfl
@[simp] theorem State.setJob_spdm (s : State) (j : Nat) (x : Job) : (s.setJob j x).spdm = s.spdm := rfl
@[simp] theorem State.setJob_ends (s : State) (j : Nat) (x : Job) : (s.setJob j x).ends = s.ends := rfl
@[simp] theorem State.setJob_rrCtx (s : State) (j : Nat) (x : Job) : (s.setJob j x).rrCtx = s.rrCtx := rfl
@[simp] theorem State.setJob_rrQ (s : State) (j : Nat) (x : Job) : (s.setJob j x).rrQ = s.rrQ := rfl
@[simp] theorem State.setJob_rplChecks (s : State) (j : Nat) (x : Job) : (s.setJob j x).rplChecks = s.rplChecks := rfl
@[simp] theorem State.setJob_lost (s : State) (j : Nat) (x : Job) : (s.setJob j x).lost = s.lost := rfl
@[simp] theorem State.setJob_thm (s : State) (j : Nat) (x : Job) : (s.setJob j x).thm = s.thm := rfl
@[simp] theorem State.setJob_wd (s : State) (j : Nat) (x : Job) : (s.setJob j x).wd = s.wd := rfl
@[simp] theorem State.setJob_rungAt (s : State) (j : Nat) (x : Job) : (s.setJob j x).rungAt = s.rungAt := rfl
@[simp] theorem State.setJob_flrs (s : State) (j : Nat) (x : Job) : (s.setJob j x).flrs = s.flrs := rfl
@[simp] theorem State.setJob_sessions (s : State) (j : Nat) (x : Job) : (s.setJob j x).sessions = s.sessions := rfl
@[simp] theorem State.setJob_mgmtKeys (s : State) (j : Nat) (x : Job) : (s.setJob j x).mgmtKeys = s.mgmtKeys := rfl
@[simp] theorem State.setJob_authTick (s : State) (j : Nat) (x : Job) : (s.setJob j x).authTick = s.authTick := rfl
@[simp] theorem State.setJob_views (s : State) (j : Nat) (x : Job) : (s.setJob j x).views = s.views := rfl
@[simp] theorem State.setJob_boot (s : State) (j : Nat) (x : Job) : (s.setJob j x).boot = s.boot := rfl
@[simp] theorem State.setJob_push (s : State) (j : Nat) (x : Job) : (s.setJob j x).push = s.push := rfl
@[simp] theorem State.setJob_tap (s : State) (j : Nat) (x : Job) : (s.setJob j x).tap = s.tap := rfl
@[simp] theorem State.setJob_mctp (s : State) (j : Nat) (x : Job) : (s.setJob j x).mctp = s.mctp := rfl
@[simp] theorem State.setJob_torn (s : State) (j : Nat) (x : Job) : (s.setJob j x).torn = s.torn := rfl
@[simp] theorem State.setJob_grantWas (s : State) (j : Nat) (x : Job) : (s.setJob j x).grantWas = s.grantWas := rfl
@[simp] theorem State.setJob_power (s : State) (j : Nat) (x : Job) : (s.setJob j x).power = s.power := rfl
@[simp] theorem State.setJob_reconAt (s : State) (j : Nat) (x : Job) : (s.setJob j x).reconAt = s.reconAt := rfl

/-! ## setCx -/

@[simp] theorem State.setCx_pending (s : State) (c : Nat) (x : CtxRec) : (s.setCx c x).pending = s.pending := rfl
@[simp] theorem State.setCx_regs (s : State) (c : Nat) (x : CtxRec) : (s.setCx c x).regs = s.regs := rfl
@[simp] theorem State.setCx_hdr (s : State) (c : Nat) (x : CtxRec) : (s.setCx c x).hdr = s.hdr := rfl
@[simp] theorem State.setCx_shadow (s : State) (c : Nat) (x : CtxRec) : (s.setCx c x).shadow = s.shadow := rfl
@[simp] theorem State.setCx_staged (s : State) (c : Nat) (x : CtxRec) : (s.setCx c x).staged = s.staged := rfl
@[simp] theorem State.setCx_heldWrites (s : State) (c : Nat) (x : CtxRec) : (s.setCx c x).heldWrites = s.heldWrites := rfl
@[simp] theorem State.setCx_fencing (s : State) (c : Nat) (x : CtxRec) : (s.setCx c x).fencing = s.fencing := rfl
@[simp] theorem State.setCx_pendWas (s : State) (c : Nat) (x : CtxRec) : (s.setCx c x).pendWas = s.pendWas := rfl
@[simp] theorem State.setCx_log (s : State) (c : Nat) (x : CtxRec) : (s.setCx c x).log = s.log := rfl
@[simp] theorem State.setCx_out (s : State) (c : Nat) (x : CtxRec) : (s.setCx c x).out = s.out := rfl
@[simp] theorem State.setCx_irq (s : State) (c : Nat) (x : CtxRec) : (s.setCx c x).irq = s.irq := rfl
@[simp] theorem State.setCx_badAccTick (s : State) (c : Nat) (x : CtxRec) : (s.setCx c x).badAccTick = s.badAccTick := rfl
@[simp] theorem State.setCx_draws (s : State) (c : Nat) (x : CtxRec) : (s.setCx c x).draws = s.draws := rfl
@[simp] theorem State.setCx_leases (s : State) (c : Nat) (x : CtxRec) : (s.setCx c x).leases = s.leases := rfl
@[simp] theorem State.setCx_profile (s : State) (c : Nat) (x : CtxRec) : (s.setCx c x).profile = s.profile := rfl
@[simp] theorem State.setCx_count (s : State) (c : Nat) (x : CtxRec) : (s.setCx c x).count = s.count := rfl
@[simp] theorem State.setCx_tide (s : State) (c : Nat) (x : CtxRec) : (s.setCx c x).tide = s.tide := rfl
@[simp] theorem State.setCx_tickets (s : State) (c : Nat) (x : CtxRec) : (s.setCx c x).tickets = s.tickets := rfl
@[simp] theorem State.setCx_acks (s : State) (c : Nat) (x : CtxRec) : (s.setCx c x).acks = s.acks := rfl
@[simp] theorem State.setCx_jobs (s : State) (c : Nat) (x : CtxRec) : (s.setCx c x).jobs = s.jobs := rfl
@[simp] theorem State.setCx_nextJob (s : State) (c : Nat) (x : CtxRec) : (s.setCx c x).nextJob = s.nextJob := rfl
@[simp] theorem State.setCx_plans (s : State) (c : Nat) (x : CtxRec) : (s.setCx c x).plans = s.plans := rfl
@[simp] theorem State.setCx_nextPlan (s : State) (c : Nat) (x : CtxRec) : (s.setCx c x).nextPlan = s.nextPlan := rfl
@[simp] theorem State.setCx_acct (s : State) (c : Nat) (x : CtxRec) : (s.setCx c x).acct = s.acct := rfl
@[simp] theorem State.setCx_slu (s : State) (c : Nat) (x : CtxRec) : (s.setCx c x).slu = s.slu := rfl
@[simp] theorem State.setCx_ctxs (s : State) (c : Nat) (x : CtxRec) : (s.setCx c x).ctxs = Store.put ctxNone s.ctxs c x := rfl
@[simp] theorem State.setCx_basin (s : State) (c : Nat) (x : CtxRec) : (s.setCx c x).basin = s.basin := rfl
@[simp] theorem State.setCx_lines (s : State) (c : Nat) (x : CtxRec) : (s.setCx c x).lines = s.lines := rfl
@[simp] theorem State.setCx_tags (s : State) (c : Nat) (x : CtxRec) : (s.setCx c x).tags = s.tags := rfl
@[simp] theorem State.setCx_qps (s : State) (c : Nat) (x : CtxRec) : (s.setCx c x).qps = s.qps := rfl
@[simp] theorem State.setCx_ovf (s : State) (c : Nat) (x : CtxRec) : (s.setCx c x).ovf = s.ovf := rfl
@[simp] theorem State.setCx_landing (s : State) (c : Nat) (x : CtxRec) : (s.setCx c x).landing = s.landing := rfl
@[simp] theorem State.setCx_rungs (s : State) (c : Nat) (x : CtxRec) : (s.setCx c x).rungs = s.rungs := rfl
@[simp] theorem State.setCx_rows (s : State) (c : Nat) (x : CtxRec) : (s.setCx c x).rows = s.rows := rfl
@[simp] theorem State.setCx_tiles (s : State) (c : Nat) (x : CtxRec) : (s.setCx c x).tiles = s.tiles := rfl
@[simp] theorem State.setCx_trims (s : State) (c : Nat) (x : CtxRec) : (s.setCx c x).trims = s.trims := rfl
@[simp] theorem State.setCx_weir (s : State) (c : Nat) (x : CtxRec) : (s.setCx c x).weir = s.weir := rfl
@[simp] theorem State.setCx_nextRep (s : State) (c : Nat) (x : CtxRec) : (s.setCx c x).nextRep = s.nextRep := rfl
@[simp] theorem State.setCx_harbour (s : State) (c : Nat) (x : CtxRec) : (s.setCx c x).harbour = s.harbour := rfl
@[simp] theorem State.setCx_hbPoison (s : State) (c : Nat) (x : CtxRec) : (s.setCx c x).hbPoison = s.hbPoison := rfl
@[simp] theorem State.setCx_hbWritten (s : State) (c : Nat) (x : CtxRec) : (s.setCx c x).hbWritten = s.hbWritten := rfl
@[simp] theorem State.setCx_frames (s : State) (c : Nat) (x : CtxRec) : (s.setCx c x).frames = s.frames := rfl
@[simp] theorem State.setCx_badSlots (s : State) (c : Nat) (x : CtxRec) : (s.setCx c x).badSlots = s.badSlots := rfl
@[simp] theorem State.setCx_owners (s : State) (c : Nat) (x : CtxRec) : (s.setCx c x).owners = s.owners := rfl
@[simp] theorem State.setCx_runs (s : State) (c : Nat) (x : CtxRec) : (s.setCx c x).runs = s.runs := rfl
@[simp] theorem State.setCx_nextRun (s : State) (c : Nat) (x : CtxRec) : (s.setCx c x).nextRun = s.nextRun := rfl
@[simp] theorem State.setCx_refetch (s : State) (c : Nat) (x : CtxRec) : (s.setCx c x).refetch = s.refetch := rfl
@[simp] theorem State.setCx_hbr (s : State) (c : Nat) (x : CtxRec) : (s.setCx c x).hbr = s.hbr := rfl
@[simp] theorem State.setCx_scrubFrom (s : State) (c : Nat) (x : CtxRec) : (s.setCx c x).scrubFrom = s.scrubFrom := rfl
@[simp] theorem State.setCx_swaps (s : State) (c : Nat) (x : CtxRec) : (s.setCx c x).swaps = s.swaps := rfl
@[simp] theorem State.setCx_imports (s : State) (c : Nat) (x : CtxRec) : (s.setCx c x).imports = s.imports := rfl
@[simp] theorem State.setCx_dyns (s : State) (c : Nat) (x : CtxRec) : (s.setCx c x).dyns = s.dyns := rfl
@[simp] theorem State.setCx_tests (s : State) (c : Nat) (x : CtxRec) : (s.setCx c x).tests = s.tests := rfl
@[simp] theorem State.setCx_flash (s : State) (c : Nat) (x : CtxRec) : (s.setCx c x).flash = s.flash := rfl
@[simp] theorem State.setCx_cal (s : State) (c : Nat) (x : CtxRec) : (s.setCx c x).cal = s.cal := rfl
@[simp] theorem State.setCx_flashq (s : State) (c : Nat) (x : CtxRec) : (s.setCx c x).flashq = s.flashq := rfl
@[simp] theorem State.setCx_ownerKeys (s : State) (c : Nat) (x : CtxRec) : (s.setCx c x).ownerKeys = s.ownerKeys := rfl
@[simp] theorem State.setCx_spdm (s : State) (c : Nat) (x : CtxRec) : (s.setCx c x).spdm = s.spdm := rfl
@[simp] theorem State.setCx_ends (s : State) (c : Nat) (x : CtxRec) : (s.setCx c x).ends = s.ends := rfl
@[simp] theorem State.setCx_rrCtx (s : State) (c : Nat) (x : CtxRec) : (s.setCx c x).rrCtx = s.rrCtx := rfl
@[simp] theorem State.setCx_rrQ (s : State) (c : Nat) (x : CtxRec) : (s.setCx c x).rrQ = s.rrQ := rfl
@[simp] theorem State.setCx_rplChecks (s : State) (c : Nat) (x : CtxRec) : (s.setCx c x).rplChecks = s.rplChecks := rfl
@[simp] theorem State.setCx_lost (s : State) (c : Nat) (x : CtxRec) : (s.setCx c x).lost = s.lost := rfl
@[simp] theorem State.setCx_thm (s : State) (c : Nat) (x : CtxRec) : (s.setCx c x).thm = s.thm := rfl
@[simp] theorem State.setCx_wd (s : State) (c : Nat) (x : CtxRec) : (s.setCx c x).wd = s.wd := rfl
@[simp] theorem State.setCx_rungAt (s : State) (c : Nat) (x : CtxRec) : (s.setCx c x).rungAt = s.rungAt := rfl
@[simp] theorem State.setCx_flrs (s : State) (c : Nat) (x : CtxRec) : (s.setCx c x).flrs = s.flrs := rfl
@[simp] theorem State.setCx_sessions (s : State) (c : Nat) (x : CtxRec) : (s.setCx c x).sessions = s.sessions := rfl
@[simp] theorem State.setCx_mgmtKeys (s : State) (c : Nat) (x : CtxRec) : (s.setCx c x).mgmtKeys = s.mgmtKeys := rfl
@[simp] theorem State.setCx_authTick (s : State) (c : Nat) (x : CtxRec) : (s.setCx c x).authTick = s.authTick := rfl
@[simp] theorem State.setCx_views (s : State) (c : Nat) (x : CtxRec) : (s.setCx c x).views = s.views := rfl
@[simp] theorem State.setCx_boot (s : State) (c : Nat) (x : CtxRec) : (s.setCx c x).boot = s.boot := rfl
@[simp] theorem State.setCx_push (s : State) (c : Nat) (x : CtxRec) : (s.setCx c x).push = s.push := rfl
@[simp] theorem State.setCx_tap (s : State) (c : Nat) (x : CtxRec) : (s.setCx c x).tap = s.tap := rfl
@[simp] theorem State.setCx_mctp (s : State) (c : Nat) (x : CtxRec) : (s.setCx c x).mctp = s.mctp := rfl
@[simp] theorem State.setCx_torn (s : State) (c : Nat) (x : CtxRec) : (s.setCx c x).torn = s.torn := rfl
@[simp] theorem State.setCx_grantWas (s : State) (c : Nat) (x : CtxRec) : (s.setCx c x).grantWas = s.grantWas := rfl
@[simp] theorem State.setCx_power (s : State) (c : Nat) (x : CtxRec) : (s.setCx c x).power = s.power := rfl
@[simp] theorem State.setCx_reconAt (s : State) (c : Nat) (x : CtxRec) : (s.setCx c x).reconAt = s.reconAt := rfl

/-! ## setRow -/

@[simp] theorem State.setRow_pending (s : State) (gt r : Nat) (x : RowRec) : (s.setRow gt r x).pending = s.pending := rfl
@[simp] theorem State.setRow_regs (s : State) (gt r : Nat) (x : RowRec) : (s.setRow gt r x).regs = s.regs := rfl
@[simp] theorem State.setRow_hdr (s : State) (gt r : Nat) (x : RowRec) : (s.setRow gt r x).hdr = s.hdr := rfl
@[simp] theorem State.setRow_shadow (s : State) (gt r : Nat) (x : RowRec) : (s.setRow gt r x).shadow = s.shadow := rfl
@[simp] theorem State.setRow_staged (s : State) (gt r : Nat) (x : RowRec) : (s.setRow gt r x).staged = s.staged := rfl
@[simp] theorem State.setRow_heldWrites (s : State) (gt r : Nat) (x : RowRec) : (s.setRow gt r x).heldWrites = s.heldWrites := rfl
@[simp] theorem State.setRow_fencing (s : State) (gt r : Nat) (x : RowRec) : (s.setRow gt r x).fencing = s.fencing := rfl
@[simp] theorem State.setRow_pendWas (s : State) (gt r : Nat) (x : RowRec) : (s.setRow gt r x).pendWas = s.pendWas := rfl
@[simp] theorem State.setRow_log (s : State) (gt r : Nat) (x : RowRec) : (s.setRow gt r x).log = s.log := rfl
@[simp] theorem State.setRow_out (s : State) (gt r : Nat) (x : RowRec) : (s.setRow gt r x).out = s.out := rfl
@[simp] theorem State.setRow_irq (s : State) (gt r : Nat) (x : RowRec) : (s.setRow gt r x).irq = s.irq := rfl
@[simp] theorem State.setRow_badAccTick (s : State) (gt r : Nat) (x : RowRec) : (s.setRow gt r x).badAccTick = s.badAccTick := rfl
@[simp] theorem State.setRow_draws (s : State) (gt r : Nat) (x : RowRec) : (s.setRow gt r x).draws = s.draws := rfl
@[simp] theorem State.setRow_leases (s : State) (gt r : Nat) (x : RowRec) : (s.setRow gt r x).leases = s.leases := rfl
@[simp] theorem State.setRow_profile (s : State) (gt r : Nat) (x : RowRec) : (s.setRow gt r x).profile = s.profile := rfl
@[simp] theorem State.setRow_count (s : State) (gt r : Nat) (x : RowRec) : (s.setRow gt r x).count = s.count := rfl
@[simp] theorem State.setRow_tide (s : State) (gt r : Nat) (x : RowRec) : (s.setRow gt r x).tide = s.tide := rfl
@[simp] theorem State.setRow_tickets (s : State) (gt r : Nat) (x : RowRec) : (s.setRow gt r x).tickets = s.tickets := rfl
@[simp] theorem State.setRow_acks (s : State) (gt r : Nat) (x : RowRec) : (s.setRow gt r x).acks = s.acks := rfl
@[simp] theorem State.setRow_jobs (s : State) (gt r : Nat) (x : RowRec) : (s.setRow gt r x).jobs = s.jobs := rfl
@[simp] theorem State.setRow_nextJob (s : State) (gt r : Nat) (x : RowRec) : (s.setRow gt r x).nextJob = s.nextJob := rfl
@[simp] theorem State.setRow_plans (s : State) (gt r : Nat) (x : RowRec) : (s.setRow gt r x).plans = s.plans := rfl
@[simp] theorem State.setRow_nextPlan (s : State) (gt r : Nat) (x : RowRec) : (s.setRow gt r x).nextPlan = s.nextPlan := rfl
@[simp] theorem State.setRow_acct (s : State) (gt r : Nat) (x : RowRec) : (s.setRow gt r x).acct = s.acct := rfl
@[simp] theorem State.setRow_slu (s : State) (gt r : Nat) (x : RowRec) : (s.setRow gt r x).slu = s.slu := rfl
@[simp] theorem State.setRow_ctxs (s : State) (gt r : Nat) (x : RowRec) : (s.setRow gt r x).ctxs = s.ctxs := rfl
@[simp] theorem State.setRow_basin (s : State) (gt r : Nat) (x : RowRec) : (s.setRow gt r x).basin = s.basin := rfl
@[simp] theorem State.setRow_lines (s : State) (gt r : Nat) (x : RowRec) : (s.setRow gt r x).lines = s.lines := rfl
@[simp] theorem State.setRow_tags (s : State) (gt r : Nat) (x : RowRec) : (s.setRow gt r x).tags = s.tags := rfl
@[simp] theorem State.setRow_qps (s : State) (gt r : Nat) (x : RowRec) : (s.setRow gt r x).qps = s.qps := rfl
@[simp] theorem State.setRow_ovf (s : State) (gt r : Nat) (x : RowRec) : (s.setRow gt r x).ovf = s.ovf := rfl
@[simp] theorem State.setRow_landing (s : State) (gt r : Nat) (x : RowRec) : (s.setRow gt r x).landing = s.landing := rfl
@[simp] theorem State.setRow_rungs (s : State) (gt r : Nat) (x : RowRec) : (s.setRow gt r x).rungs = s.rungs := rfl
@[simp] theorem State.setRow_rows (s : State) (gt r : Nat) (x : RowRec) : (s.setRow gt r x).rows = Store.put rowNone s.rows (gt * 1024 + r) x := rfl
@[simp] theorem State.setRow_tiles (s : State) (gt r : Nat) (x : RowRec) : (s.setRow gt r x).tiles = s.tiles := rfl
@[simp] theorem State.setRow_trims (s : State) (gt r : Nat) (x : RowRec) : (s.setRow gt r x).trims = s.trims := rfl
@[simp] theorem State.setRow_weir (s : State) (gt r : Nat) (x : RowRec) : (s.setRow gt r x).weir = s.weir := rfl
@[simp] theorem State.setRow_nextRep (s : State) (gt r : Nat) (x : RowRec) : (s.setRow gt r x).nextRep = s.nextRep := rfl
@[simp] theorem State.setRow_harbour (s : State) (gt r : Nat) (x : RowRec) : (s.setRow gt r x).harbour = s.harbour := rfl
@[simp] theorem State.setRow_hbPoison (s : State) (gt r : Nat) (x : RowRec) : (s.setRow gt r x).hbPoison = s.hbPoison := rfl
@[simp] theorem State.setRow_hbWritten (s : State) (gt r : Nat) (x : RowRec) : (s.setRow gt r x).hbWritten = s.hbWritten := rfl
@[simp] theorem State.setRow_frames (s : State) (gt r : Nat) (x : RowRec) : (s.setRow gt r x).frames = s.frames := rfl
@[simp] theorem State.setRow_badSlots (s : State) (gt r : Nat) (x : RowRec) : (s.setRow gt r x).badSlots = s.badSlots := rfl
@[simp] theorem State.setRow_owners (s : State) (gt r : Nat) (x : RowRec) : (s.setRow gt r x).owners = s.owners := rfl
@[simp] theorem State.setRow_runs (s : State) (gt r : Nat) (x : RowRec) : (s.setRow gt r x).runs = s.runs := rfl
@[simp] theorem State.setRow_nextRun (s : State) (gt r : Nat) (x : RowRec) : (s.setRow gt r x).nextRun = s.nextRun := rfl
@[simp] theorem State.setRow_refetch (s : State) (gt r : Nat) (x : RowRec) : (s.setRow gt r x).refetch = s.refetch := rfl
@[simp] theorem State.setRow_hbr (s : State) (gt r : Nat) (x : RowRec) : (s.setRow gt r x).hbr = s.hbr := rfl
@[simp] theorem State.setRow_scrubFrom (s : State) (gt r : Nat) (x : RowRec) : (s.setRow gt r x).scrubFrom = s.scrubFrom := rfl
@[simp] theorem State.setRow_swaps (s : State) (gt r : Nat) (x : RowRec) : (s.setRow gt r x).swaps = s.swaps := rfl
@[simp] theorem State.setRow_imports (s : State) (gt r : Nat) (x : RowRec) : (s.setRow gt r x).imports = s.imports := rfl
@[simp] theorem State.setRow_dyns (s : State) (gt r : Nat) (x : RowRec) : (s.setRow gt r x).dyns = s.dyns := rfl
@[simp] theorem State.setRow_tests (s : State) (gt r : Nat) (x : RowRec) : (s.setRow gt r x).tests = s.tests := rfl
@[simp] theorem State.setRow_flash (s : State) (gt r : Nat) (x : RowRec) : (s.setRow gt r x).flash = s.flash := rfl
@[simp] theorem State.setRow_cal (s : State) (gt r : Nat) (x : RowRec) : (s.setRow gt r x).cal = s.cal := rfl
@[simp] theorem State.setRow_flashq (s : State) (gt r : Nat) (x : RowRec) : (s.setRow gt r x).flashq = s.flashq := rfl
@[simp] theorem State.setRow_ownerKeys (s : State) (gt r : Nat) (x : RowRec) : (s.setRow gt r x).ownerKeys = s.ownerKeys := rfl
@[simp] theorem State.setRow_spdm (s : State) (gt r : Nat) (x : RowRec) : (s.setRow gt r x).spdm = s.spdm := rfl
@[simp] theorem State.setRow_ends (s : State) (gt r : Nat) (x : RowRec) : (s.setRow gt r x).ends = s.ends := rfl
@[simp] theorem State.setRow_rrCtx (s : State) (gt r : Nat) (x : RowRec) : (s.setRow gt r x).rrCtx = s.rrCtx := rfl
@[simp] theorem State.setRow_rrQ (s : State) (gt r : Nat) (x : RowRec) : (s.setRow gt r x).rrQ = s.rrQ := rfl
@[simp] theorem State.setRow_rplChecks (s : State) (gt r : Nat) (x : RowRec) : (s.setRow gt r x).rplChecks = s.rplChecks := rfl
@[simp] theorem State.setRow_lost (s : State) (gt r : Nat) (x : RowRec) : (s.setRow gt r x).lost = s.lost := rfl
@[simp] theorem State.setRow_thm (s : State) (gt r : Nat) (x : RowRec) : (s.setRow gt r x).thm = s.thm := rfl
@[simp] theorem State.setRow_wd (s : State) (gt r : Nat) (x : RowRec) : (s.setRow gt r x).wd = s.wd := rfl
@[simp] theorem State.setRow_rungAt (s : State) (gt r : Nat) (x : RowRec) : (s.setRow gt r x).rungAt = s.rungAt := rfl
@[simp] theorem State.setRow_flrs (s : State) (gt r : Nat) (x : RowRec) : (s.setRow gt r x).flrs = s.flrs := rfl
@[simp] theorem State.setRow_sessions (s : State) (gt r : Nat) (x : RowRec) : (s.setRow gt r x).sessions = s.sessions := rfl
@[simp] theorem State.setRow_mgmtKeys (s : State) (gt r : Nat) (x : RowRec) : (s.setRow gt r x).mgmtKeys = s.mgmtKeys := rfl
@[simp] theorem State.setRow_authTick (s : State) (gt r : Nat) (x : RowRec) : (s.setRow gt r x).authTick = s.authTick := rfl
@[simp] theorem State.setRow_views (s : State) (gt r : Nat) (x : RowRec) : (s.setRow gt r x).views = s.views := rfl
@[simp] theorem State.setRow_boot (s : State) (gt r : Nat) (x : RowRec) : (s.setRow gt r x).boot = s.boot := rfl
@[simp] theorem State.setRow_push (s : State) (gt r : Nat) (x : RowRec) : (s.setRow gt r x).push = s.push := rfl
@[simp] theorem State.setRow_tap (s : State) (gt r : Nat) (x : RowRec) : (s.setRow gt r x).tap = s.tap := rfl
@[simp] theorem State.setRow_mctp (s : State) (gt r : Nat) (x : RowRec) : (s.setRow gt r x).mctp = s.mctp := rfl
@[simp] theorem State.setRow_torn (s : State) (gt r : Nat) (x : RowRec) : (s.setRow gt r x).torn = s.torn := rfl
@[simp] theorem State.setRow_grantWas (s : State) (gt r : Nat) (x : RowRec) : (s.setRow gt r x).grantWas = s.grantWas := rfl
@[simp] theorem State.setRow_power (s : State) (gt r : Nat) (x : RowRec) : (s.setRow gt r x).power = s.power := rfl
@[simp] theorem State.setRow_reconAt (s : State) (gt r : Nat) (x : RowRec) : (s.setRow gt r x).reconAt = s.reconAt := rfl

/-! ## updTx -/

@[simp] theorem State.updTx_pending (s : State) (gt : Nat) (f : TileX → TileX) : (s.updTx gt f).pending = s.pending := rfl
@[simp] theorem State.updTx_regs (s : State) (gt : Nat) (f : TileX → TileX) : (s.updTx gt f).regs = s.regs := rfl
@[simp] theorem State.updTx_hdr (s : State) (gt : Nat) (f : TileX → TileX) : (s.updTx gt f).hdr = s.hdr := rfl
@[simp] theorem State.updTx_shadow (s : State) (gt : Nat) (f : TileX → TileX) : (s.updTx gt f).shadow = s.shadow := rfl
@[simp] theorem State.updTx_staged (s : State) (gt : Nat) (f : TileX → TileX) : (s.updTx gt f).staged = s.staged := rfl
@[simp] theorem State.updTx_heldWrites (s : State) (gt : Nat) (f : TileX → TileX) : (s.updTx gt f).heldWrites = s.heldWrites := rfl
@[simp] theorem State.updTx_fencing (s : State) (gt : Nat) (f : TileX → TileX) : (s.updTx gt f).fencing = s.fencing := rfl
@[simp] theorem State.updTx_pendWas (s : State) (gt : Nat) (f : TileX → TileX) : (s.updTx gt f).pendWas = s.pendWas := rfl
@[simp] theorem State.updTx_log (s : State) (gt : Nat) (f : TileX → TileX) : (s.updTx gt f).log = s.log := rfl
@[simp] theorem State.updTx_out (s : State) (gt : Nat) (f : TileX → TileX) : (s.updTx gt f).out = s.out := rfl
@[simp] theorem State.updTx_irq (s : State) (gt : Nat) (f : TileX → TileX) : (s.updTx gt f).irq = s.irq := rfl
@[simp] theorem State.updTx_badAccTick (s : State) (gt : Nat) (f : TileX → TileX) : (s.updTx gt f).badAccTick = s.badAccTick := rfl
@[simp] theorem State.updTx_draws (s : State) (gt : Nat) (f : TileX → TileX) : (s.updTx gt f).draws = s.draws := rfl
@[simp] theorem State.updTx_leases (s : State) (gt : Nat) (f : TileX → TileX) : (s.updTx gt f).leases = s.leases := rfl
@[simp] theorem State.updTx_profile (s : State) (gt : Nat) (f : TileX → TileX) : (s.updTx gt f).profile = s.profile := rfl
@[simp] theorem State.updTx_count (s : State) (gt : Nat) (f : TileX → TileX) : (s.updTx gt f).count = s.count := rfl
@[simp] theorem State.updTx_tide (s : State) (gt : Nat) (f : TileX → TileX) : (s.updTx gt f).tide = s.tide := rfl
@[simp] theorem State.updTx_tickets (s : State) (gt : Nat) (f : TileX → TileX) : (s.updTx gt f).tickets = s.tickets := rfl
@[simp] theorem State.updTx_acks (s : State) (gt : Nat) (f : TileX → TileX) : (s.updTx gt f).acks = s.acks := rfl
@[simp] theorem State.updTx_jobs (s : State) (gt : Nat) (f : TileX → TileX) : (s.updTx gt f).jobs = s.jobs := rfl
@[simp] theorem State.updTx_nextJob (s : State) (gt : Nat) (f : TileX → TileX) : (s.updTx gt f).nextJob = s.nextJob := rfl
@[simp] theorem State.updTx_plans (s : State) (gt : Nat) (f : TileX → TileX) : (s.updTx gt f).plans = s.plans := rfl
@[simp] theorem State.updTx_nextPlan (s : State) (gt : Nat) (f : TileX → TileX) : (s.updTx gt f).nextPlan = s.nextPlan := rfl
@[simp] theorem State.updTx_acct (s : State) (gt : Nat) (f : TileX → TileX) : (s.updTx gt f).acct = s.acct := rfl
@[simp] theorem State.updTx_slu (s : State) (gt : Nat) (f : TileX → TileX) : (s.updTx gt f).slu = s.slu := rfl
@[simp] theorem State.updTx_ctxs (s : State) (gt : Nat) (f : TileX → TileX) : (s.updTx gt f).ctxs = s.ctxs := rfl
@[simp] theorem State.updTx_basin (s : State) (gt : Nat) (f : TileX → TileX) : (s.updTx gt f).basin = s.basin := rfl
@[simp] theorem State.updTx_lines (s : State) (gt : Nat) (f : TileX → TileX) : (s.updTx gt f).lines = s.lines := rfl
@[simp] theorem State.updTx_tags (s : State) (gt : Nat) (f : TileX → TileX) : (s.updTx gt f).tags = s.tags := rfl
@[simp] theorem State.updTx_qps (s : State) (gt : Nat) (f : TileX → TileX) : (s.updTx gt f).qps = s.qps := rfl
@[simp] theorem State.updTx_ovf (s : State) (gt : Nat) (f : TileX → TileX) : (s.updTx gt f).ovf = s.ovf := rfl
@[simp] theorem State.updTx_landing (s : State) (gt : Nat) (f : TileX → TileX) : (s.updTx gt f).landing = s.landing := rfl
@[simp] theorem State.updTx_rungs (s : State) (gt : Nat) (f : TileX → TileX) : (s.updTx gt f).rungs = s.rungs := rfl
@[simp] theorem State.updTx_rows (s : State) (gt : Nat) (f : TileX → TileX) : (s.updTx gt f).rows = s.rows := rfl
@[simp] theorem State.updTx_tiles (s : State) (gt : Nat) (f : TileX → TileX) : (s.updTx gt f).tiles = Store.upd tileNone s.tiles gt f := rfl
@[simp] theorem State.updTx_trims (s : State) (gt : Nat) (f : TileX → TileX) : (s.updTx gt f).trims = s.trims := rfl
@[simp] theorem State.updTx_weir (s : State) (gt : Nat) (f : TileX → TileX) : (s.updTx gt f).weir = s.weir := rfl
@[simp] theorem State.updTx_nextRep (s : State) (gt : Nat) (f : TileX → TileX) : (s.updTx gt f).nextRep = s.nextRep := rfl
@[simp] theorem State.updTx_harbour (s : State) (gt : Nat) (f : TileX → TileX) : (s.updTx gt f).harbour = s.harbour := rfl
@[simp] theorem State.updTx_hbPoison (s : State) (gt : Nat) (f : TileX → TileX) : (s.updTx gt f).hbPoison = s.hbPoison := rfl
@[simp] theorem State.updTx_hbWritten (s : State) (gt : Nat) (f : TileX → TileX) : (s.updTx gt f).hbWritten = s.hbWritten := rfl
@[simp] theorem State.updTx_frames (s : State) (gt : Nat) (f : TileX → TileX) : (s.updTx gt f).frames = s.frames := rfl
@[simp] theorem State.updTx_badSlots (s : State) (gt : Nat) (f : TileX → TileX) : (s.updTx gt f).badSlots = s.badSlots := rfl
@[simp] theorem State.updTx_owners (s : State) (gt : Nat) (f : TileX → TileX) : (s.updTx gt f).owners = s.owners := rfl
@[simp] theorem State.updTx_runs (s : State) (gt : Nat) (f : TileX → TileX) : (s.updTx gt f).runs = s.runs := rfl
@[simp] theorem State.updTx_nextRun (s : State) (gt : Nat) (f : TileX → TileX) : (s.updTx gt f).nextRun = s.nextRun := rfl
@[simp] theorem State.updTx_refetch (s : State) (gt : Nat) (f : TileX → TileX) : (s.updTx gt f).refetch = s.refetch := rfl
@[simp] theorem State.updTx_hbr (s : State) (gt : Nat) (f : TileX → TileX) : (s.updTx gt f).hbr = s.hbr := rfl
@[simp] theorem State.updTx_scrubFrom (s : State) (gt : Nat) (f : TileX → TileX) : (s.updTx gt f).scrubFrom = s.scrubFrom := rfl
@[simp] theorem State.updTx_swaps (s : State) (gt : Nat) (f : TileX → TileX) : (s.updTx gt f).swaps = s.swaps := rfl
@[simp] theorem State.updTx_imports (s : State) (gt : Nat) (f : TileX → TileX) : (s.updTx gt f).imports = s.imports := rfl
@[simp] theorem State.updTx_dyns (s : State) (gt : Nat) (f : TileX → TileX) : (s.updTx gt f).dyns = s.dyns := rfl
@[simp] theorem State.updTx_tests (s : State) (gt : Nat) (f : TileX → TileX) : (s.updTx gt f).tests = s.tests := rfl
@[simp] theorem State.updTx_flash (s : State) (gt : Nat) (f : TileX → TileX) : (s.updTx gt f).flash = s.flash := rfl
@[simp] theorem State.updTx_cal (s : State) (gt : Nat) (f : TileX → TileX) : (s.updTx gt f).cal = s.cal := rfl
@[simp] theorem State.updTx_flashq (s : State) (gt : Nat) (f : TileX → TileX) : (s.updTx gt f).flashq = s.flashq := rfl
@[simp] theorem State.updTx_ownerKeys (s : State) (gt : Nat) (f : TileX → TileX) : (s.updTx gt f).ownerKeys = s.ownerKeys := rfl
@[simp] theorem State.updTx_spdm (s : State) (gt : Nat) (f : TileX → TileX) : (s.updTx gt f).spdm = s.spdm := rfl
@[simp] theorem State.updTx_ends (s : State) (gt : Nat) (f : TileX → TileX) : (s.updTx gt f).ends = s.ends := rfl
@[simp] theorem State.updTx_rrCtx (s : State) (gt : Nat) (f : TileX → TileX) : (s.updTx gt f).rrCtx = s.rrCtx := rfl
@[simp] theorem State.updTx_rrQ (s : State) (gt : Nat) (f : TileX → TileX) : (s.updTx gt f).rrQ = s.rrQ := rfl
@[simp] theorem State.updTx_rplChecks (s : State) (gt : Nat) (f : TileX → TileX) : (s.updTx gt f).rplChecks = s.rplChecks := rfl
@[simp] theorem State.updTx_lost (s : State) (gt : Nat) (f : TileX → TileX) : (s.updTx gt f).lost = s.lost := rfl
@[simp] theorem State.updTx_thm (s : State) (gt : Nat) (f : TileX → TileX) : (s.updTx gt f).thm = s.thm := rfl
@[simp] theorem State.updTx_wd (s : State) (gt : Nat) (f : TileX → TileX) : (s.updTx gt f).wd = s.wd := rfl
@[simp] theorem State.updTx_rungAt (s : State) (gt : Nat) (f : TileX → TileX) : (s.updTx gt f).rungAt = s.rungAt := rfl
@[simp] theorem State.updTx_flrs (s : State) (gt : Nat) (f : TileX → TileX) : (s.updTx gt f).flrs = s.flrs := rfl
@[simp] theorem State.updTx_sessions (s : State) (gt : Nat) (f : TileX → TileX) : (s.updTx gt f).sessions = s.sessions := rfl
@[simp] theorem State.updTx_mgmtKeys (s : State) (gt : Nat) (f : TileX → TileX) : (s.updTx gt f).mgmtKeys = s.mgmtKeys := rfl
@[simp] theorem State.updTx_authTick (s : State) (gt : Nat) (f : TileX → TileX) : (s.updTx gt f).authTick = s.authTick := rfl
@[simp] theorem State.updTx_views (s : State) (gt : Nat) (f : TileX → TileX) : (s.updTx gt f).views = s.views := rfl
@[simp] theorem State.updTx_boot (s : State) (gt : Nat) (f : TileX → TileX) : (s.updTx gt f).boot = s.boot := rfl
@[simp] theorem State.updTx_push (s : State) (gt : Nat) (f : TileX → TileX) : (s.updTx gt f).push = s.push := rfl
@[simp] theorem State.updTx_tap (s : State) (gt : Nat) (f : TileX → TileX) : (s.updTx gt f).tap = s.tap := rfl
@[simp] theorem State.updTx_mctp (s : State) (gt : Nat) (f : TileX → TileX) : (s.updTx gt f).mctp = s.mctp := rfl
@[simp] theorem State.updTx_torn (s : State) (gt : Nat) (f : TileX → TileX) : (s.updTx gt f).torn = s.torn := rfl
@[simp] theorem State.updTx_grantWas (s : State) (gt : Nat) (f : TileX → TileX) : (s.updTx gt f).grantWas = s.grantWas := rfl
@[simp] theorem State.updTx_power (s : State) (gt : Nat) (f : TileX → TileX) : (s.updTx gt f).power = s.power := rfl
@[simp] theorem State.updTx_reconAt (s : State) (gt : Nat) (f : TileX → TileX) : (s.updTx gt f).reconAt = s.reconAt := rfl

/-! ## setLine -/

@[simp] theorem State.setLine_pending (s : State) (isl line : Nat) (m : LineMeta) : (s.setLine isl line m).pending = s.pending := rfl
@[simp] theorem State.setLine_regs (s : State) (isl line : Nat) (m : LineMeta) : (s.setLine isl line m).regs = s.regs := rfl
@[simp] theorem State.setLine_hdr (s : State) (isl line : Nat) (m : LineMeta) : (s.setLine isl line m).hdr = s.hdr := rfl
@[simp] theorem State.setLine_shadow (s : State) (isl line : Nat) (m : LineMeta) : (s.setLine isl line m).shadow = s.shadow := rfl
@[simp] theorem State.setLine_staged (s : State) (isl line : Nat) (m : LineMeta) : (s.setLine isl line m).staged = s.staged := rfl
@[simp] theorem State.setLine_heldWrites (s : State) (isl line : Nat) (m : LineMeta) : (s.setLine isl line m).heldWrites = s.heldWrites := rfl
@[simp] theorem State.setLine_fencing (s : State) (isl line : Nat) (m : LineMeta) : (s.setLine isl line m).fencing = s.fencing := rfl
@[simp] theorem State.setLine_pendWas (s : State) (isl line : Nat) (m : LineMeta) : (s.setLine isl line m).pendWas = s.pendWas := rfl
@[simp] theorem State.setLine_log (s : State) (isl line : Nat) (m : LineMeta) : (s.setLine isl line m).log = s.log := rfl
@[simp] theorem State.setLine_out (s : State) (isl line : Nat) (m : LineMeta) : (s.setLine isl line m).out = s.out := rfl
@[simp] theorem State.setLine_irq (s : State) (isl line : Nat) (m : LineMeta) : (s.setLine isl line m).irq = s.irq := rfl
@[simp] theorem State.setLine_badAccTick (s : State) (isl line : Nat) (m : LineMeta) : (s.setLine isl line m).badAccTick = s.badAccTick := rfl
@[simp] theorem State.setLine_draws (s : State) (isl line : Nat) (m : LineMeta) : (s.setLine isl line m).draws = s.draws := rfl
@[simp] theorem State.setLine_leases (s : State) (isl line : Nat) (m : LineMeta) : (s.setLine isl line m).leases = s.leases := rfl
@[simp] theorem State.setLine_profile (s : State) (isl line : Nat) (m : LineMeta) : (s.setLine isl line m).profile = s.profile := rfl
@[simp] theorem State.setLine_count (s : State) (isl line : Nat) (m : LineMeta) : (s.setLine isl line m).count = s.count := rfl
@[simp] theorem State.setLine_tide (s : State) (isl line : Nat) (m : LineMeta) : (s.setLine isl line m).tide = s.tide := rfl
@[simp] theorem State.setLine_tickets (s : State) (isl line : Nat) (m : LineMeta) : (s.setLine isl line m).tickets = s.tickets := rfl
@[simp] theorem State.setLine_acks (s : State) (isl line : Nat) (m : LineMeta) : (s.setLine isl line m).acks = s.acks := rfl
@[simp] theorem State.setLine_jobs (s : State) (isl line : Nat) (m : LineMeta) : (s.setLine isl line m).jobs = s.jobs := rfl
@[simp] theorem State.setLine_nextJob (s : State) (isl line : Nat) (m : LineMeta) : (s.setLine isl line m).nextJob = s.nextJob := rfl
@[simp] theorem State.setLine_plans (s : State) (isl line : Nat) (m : LineMeta) : (s.setLine isl line m).plans = s.plans := rfl
@[simp] theorem State.setLine_nextPlan (s : State) (isl line : Nat) (m : LineMeta) : (s.setLine isl line m).nextPlan = s.nextPlan := rfl
@[simp] theorem State.setLine_acct (s : State) (isl line : Nat) (m : LineMeta) : (s.setLine isl line m).acct = s.acct := rfl
@[simp] theorem State.setLine_slu (s : State) (isl line : Nat) (m : LineMeta) : (s.setLine isl line m).slu = s.slu := rfl
@[simp] theorem State.setLine_ctxs (s : State) (isl line : Nat) (m : LineMeta) : (s.setLine isl line m).ctxs = s.ctxs := rfl
@[simp] theorem State.setLine_basin (s : State) (isl line : Nat) (m : LineMeta) : (s.setLine isl line m).basin = s.basin := rfl
@[simp] theorem State.setLine_lines (s : State) (isl line : Nat) (m : LineMeta) : (s.setLine isl line m).lines = Store.put lineClear s.lines (isl * 65536 + line) m := rfl
@[simp] theorem State.setLine_tags (s : State) (isl line : Nat) (m : LineMeta) : (s.setLine isl line m).tags = s.tags := rfl
@[simp] theorem State.setLine_qps (s : State) (isl line : Nat) (m : LineMeta) : (s.setLine isl line m).qps = s.qps := rfl
@[simp] theorem State.setLine_ovf (s : State) (isl line : Nat) (m : LineMeta) : (s.setLine isl line m).ovf = s.ovf := rfl
@[simp] theorem State.setLine_landing (s : State) (isl line : Nat) (m : LineMeta) : (s.setLine isl line m).landing = s.landing := rfl
@[simp] theorem State.setLine_rungs (s : State) (isl line : Nat) (m : LineMeta) : (s.setLine isl line m).rungs = s.rungs := rfl
@[simp] theorem State.setLine_rows (s : State) (isl line : Nat) (m : LineMeta) : (s.setLine isl line m).rows = s.rows := rfl
@[simp] theorem State.setLine_tiles (s : State) (isl line : Nat) (m : LineMeta) : (s.setLine isl line m).tiles = s.tiles := rfl
@[simp] theorem State.setLine_trims (s : State) (isl line : Nat) (m : LineMeta) : (s.setLine isl line m).trims = s.trims := rfl
@[simp] theorem State.setLine_weir (s : State) (isl line : Nat) (m : LineMeta) : (s.setLine isl line m).weir = s.weir := rfl
@[simp] theorem State.setLine_nextRep (s : State) (isl line : Nat) (m : LineMeta) : (s.setLine isl line m).nextRep = s.nextRep := rfl
@[simp] theorem State.setLine_harbour (s : State) (isl line : Nat) (m : LineMeta) : (s.setLine isl line m).harbour = s.harbour := rfl
@[simp] theorem State.setLine_hbPoison (s : State) (isl line : Nat) (m : LineMeta) : (s.setLine isl line m).hbPoison = s.hbPoison := rfl
@[simp] theorem State.setLine_hbWritten (s : State) (isl line : Nat) (m : LineMeta) : (s.setLine isl line m).hbWritten = s.hbWritten := rfl
@[simp] theorem State.setLine_frames (s : State) (isl line : Nat) (m : LineMeta) : (s.setLine isl line m).frames = s.frames := rfl
@[simp] theorem State.setLine_badSlots (s : State) (isl line : Nat) (m : LineMeta) : (s.setLine isl line m).badSlots = s.badSlots := rfl
@[simp] theorem State.setLine_owners (s : State) (isl line : Nat) (m : LineMeta) : (s.setLine isl line m).owners = s.owners := rfl
@[simp] theorem State.setLine_runs (s : State) (isl line : Nat) (m : LineMeta) : (s.setLine isl line m).runs = s.runs := rfl
@[simp] theorem State.setLine_nextRun (s : State) (isl line : Nat) (m : LineMeta) : (s.setLine isl line m).nextRun = s.nextRun := rfl
@[simp] theorem State.setLine_refetch (s : State) (isl line : Nat) (m : LineMeta) : (s.setLine isl line m).refetch = s.refetch := rfl
@[simp] theorem State.setLine_hbr (s : State) (isl line : Nat) (m : LineMeta) : (s.setLine isl line m).hbr = s.hbr := rfl
@[simp] theorem State.setLine_scrubFrom (s : State) (isl line : Nat) (m : LineMeta) : (s.setLine isl line m).scrubFrom = s.scrubFrom := rfl
@[simp] theorem State.setLine_swaps (s : State) (isl line : Nat) (m : LineMeta) : (s.setLine isl line m).swaps = s.swaps := rfl
@[simp] theorem State.setLine_imports (s : State) (isl line : Nat) (m : LineMeta) : (s.setLine isl line m).imports = s.imports := rfl
@[simp] theorem State.setLine_dyns (s : State) (isl line : Nat) (m : LineMeta) : (s.setLine isl line m).dyns = s.dyns := rfl
@[simp] theorem State.setLine_tests (s : State) (isl line : Nat) (m : LineMeta) : (s.setLine isl line m).tests = s.tests := rfl
@[simp] theorem State.setLine_flash (s : State) (isl line : Nat) (m : LineMeta) : (s.setLine isl line m).flash = s.flash := rfl
@[simp] theorem State.setLine_cal (s : State) (isl line : Nat) (m : LineMeta) : (s.setLine isl line m).cal = s.cal := rfl
@[simp] theorem State.setLine_flashq (s : State) (isl line : Nat) (m : LineMeta) : (s.setLine isl line m).flashq = s.flashq := rfl
@[simp] theorem State.setLine_ownerKeys (s : State) (isl line : Nat) (m : LineMeta) : (s.setLine isl line m).ownerKeys = s.ownerKeys := rfl
@[simp] theorem State.setLine_spdm (s : State) (isl line : Nat) (m : LineMeta) : (s.setLine isl line m).spdm = s.spdm := rfl
@[simp] theorem State.setLine_ends (s : State) (isl line : Nat) (m : LineMeta) : (s.setLine isl line m).ends = s.ends := rfl
@[simp] theorem State.setLine_rrCtx (s : State) (isl line : Nat) (m : LineMeta) : (s.setLine isl line m).rrCtx = s.rrCtx := rfl
@[simp] theorem State.setLine_rrQ (s : State) (isl line : Nat) (m : LineMeta) : (s.setLine isl line m).rrQ = s.rrQ := rfl
@[simp] theorem State.setLine_rplChecks (s : State) (isl line : Nat) (m : LineMeta) : (s.setLine isl line m).rplChecks = s.rplChecks := rfl
@[simp] theorem State.setLine_lost (s : State) (isl line : Nat) (m : LineMeta) : (s.setLine isl line m).lost = s.lost := rfl
@[simp] theorem State.setLine_thm (s : State) (isl line : Nat) (m : LineMeta) : (s.setLine isl line m).thm = s.thm := rfl
@[simp] theorem State.setLine_wd (s : State) (isl line : Nat) (m : LineMeta) : (s.setLine isl line m).wd = s.wd := rfl
@[simp] theorem State.setLine_rungAt (s : State) (isl line : Nat) (m : LineMeta) : (s.setLine isl line m).rungAt = s.rungAt := rfl
@[simp] theorem State.setLine_flrs (s : State) (isl line : Nat) (m : LineMeta) : (s.setLine isl line m).flrs = s.flrs := rfl
@[simp] theorem State.setLine_sessions (s : State) (isl line : Nat) (m : LineMeta) : (s.setLine isl line m).sessions = s.sessions := rfl
@[simp] theorem State.setLine_mgmtKeys (s : State) (isl line : Nat) (m : LineMeta) : (s.setLine isl line m).mgmtKeys = s.mgmtKeys := rfl
@[simp] theorem State.setLine_authTick (s : State) (isl line : Nat) (m : LineMeta) : (s.setLine isl line m).authTick = s.authTick := rfl
@[simp] theorem State.setLine_views (s : State) (isl line : Nat) (m : LineMeta) : (s.setLine isl line m).views = s.views := rfl
@[simp] theorem State.setLine_boot (s : State) (isl line : Nat) (m : LineMeta) : (s.setLine isl line m).boot = s.boot := rfl
@[simp] theorem State.setLine_push (s : State) (isl line : Nat) (m : LineMeta) : (s.setLine isl line m).push = s.push := rfl
@[simp] theorem State.setLine_tap (s : State) (isl line : Nat) (m : LineMeta) : (s.setLine isl line m).tap = s.tap := rfl
@[simp] theorem State.setLine_mctp (s : State) (isl line : Nat) (m : LineMeta) : (s.setLine isl line m).mctp = s.mctp := rfl
@[simp] theorem State.setLine_torn (s : State) (isl line : Nat) (m : LineMeta) : (s.setLine isl line m).torn = s.torn := rfl
@[simp] theorem State.setLine_grantWas (s : State) (isl line : Nat) (m : LineMeta) : (s.setLine isl line m).grantWas = s.grantWas := rfl
@[simp] theorem State.setLine_power (s : State) (isl line : Nat) (m : LineMeta) : (s.setLine isl line m).power = s.power := rfl
@[simp] theorem State.setLine_reconAt (s : State) (isl line : Nat) (m : LineMeta) : (s.setLine isl line m).reconAt = s.reconAt := rfl

/-! ## basinPut -/

@[simp] theorem State.basinPut_pending (s : State) (isl adr : Nat) (bs : List Byte) : (s.basinPut isl adr bs).pending = s.pending := rfl
@[simp] theorem State.basinPut_regs (s : State) (isl adr : Nat) (bs : List Byte) : (s.basinPut isl adr bs).regs = s.regs := rfl
@[simp] theorem State.basinPut_hdr (s : State) (isl adr : Nat) (bs : List Byte) : (s.basinPut isl adr bs).hdr = s.hdr := rfl
@[simp] theorem State.basinPut_shadow (s : State) (isl adr : Nat) (bs : List Byte) : (s.basinPut isl adr bs).shadow = s.shadow := rfl
@[simp] theorem State.basinPut_staged (s : State) (isl adr : Nat) (bs : List Byte) : (s.basinPut isl adr bs).staged = s.staged := rfl
@[simp] theorem State.basinPut_heldWrites (s : State) (isl adr : Nat) (bs : List Byte) : (s.basinPut isl adr bs).heldWrites = s.heldWrites := rfl
@[simp] theorem State.basinPut_fencing (s : State) (isl adr : Nat) (bs : List Byte) : (s.basinPut isl adr bs).fencing = s.fencing := rfl
@[simp] theorem State.basinPut_pendWas (s : State) (isl adr : Nat) (bs : List Byte) : (s.basinPut isl adr bs).pendWas = s.pendWas := rfl
@[simp] theorem State.basinPut_log (s : State) (isl adr : Nat) (bs : List Byte) : (s.basinPut isl adr bs).log = s.log := rfl
@[simp] theorem State.basinPut_out (s : State) (isl adr : Nat) (bs : List Byte) : (s.basinPut isl adr bs).out = s.out := rfl
@[simp] theorem State.basinPut_irq (s : State) (isl adr : Nat) (bs : List Byte) : (s.basinPut isl adr bs).irq = s.irq := rfl
@[simp] theorem State.basinPut_badAccTick (s : State) (isl adr : Nat) (bs : List Byte) : (s.basinPut isl adr bs).badAccTick = s.badAccTick := rfl
@[simp] theorem State.basinPut_draws (s : State) (isl adr : Nat) (bs : List Byte) : (s.basinPut isl adr bs).draws = s.draws := rfl
@[simp] theorem State.basinPut_leases (s : State) (isl adr : Nat) (bs : List Byte) : (s.basinPut isl adr bs).leases = s.leases := rfl
@[simp] theorem State.basinPut_profile (s : State) (isl adr : Nat) (bs : List Byte) : (s.basinPut isl adr bs).profile = s.profile := rfl
@[simp] theorem State.basinPut_count (s : State) (isl adr : Nat) (bs : List Byte) : (s.basinPut isl adr bs).count = s.count := rfl
@[simp] theorem State.basinPut_tide (s : State) (isl adr : Nat) (bs : List Byte) : (s.basinPut isl adr bs).tide = s.tide := rfl
@[simp] theorem State.basinPut_tickets (s : State) (isl adr : Nat) (bs : List Byte) : (s.basinPut isl adr bs).tickets = s.tickets := rfl
@[simp] theorem State.basinPut_acks (s : State) (isl adr : Nat) (bs : List Byte) : (s.basinPut isl adr bs).acks = s.acks := rfl
@[simp] theorem State.basinPut_jobs (s : State) (isl adr : Nat) (bs : List Byte) : (s.basinPut isl adr bs).jobs = s.jobs := rfl
@[simp] theorem State.basinPut_nextJob (s : State) (isl adr : Nat) (bs : List Byte) : (s.basinPut isl adr bs).nextJob = s.nextJob := rfl
@[simp] theorem State.basinPut_plans (s : State) (isl adr : Nat) (bs : List Byte) : (s.basinPut isl adr bs).plans = s.plans := rfl
@[simp] theorem State.basinPut_nextPlan (s : State) (isl adr : Nat) (bs : List Byte) : (s.basinPut isl adr bs).nextPlan = s.nextPlan := rfl
@[simp] theorem State.basinPut_acct (s : State) (isl adr : Nat) (bs : List Byte) : (s.basinPut isl adr bs).acct = s.acct := rfl
@[simp] theorem State.basinPut_slu (s : State) (isl adr : Nat) (bs : List Byte) : (s.basinPut isl adr bs).slu = s.slu := rfl
@[simp] theorem State.basinPut_ctxs (s : State) (isl adr : Nat) (bs : List Byte) : (s.basinPut isl adr bs).ctxs = s.ctxs := rfl
@[simp] theorem State.basinPut_basin (s : State) (isl adr : Nat) (bs : List Byte) : (s.basinPut isl adr bs).basin = putCells s.basin (isl * 2 ^ 22 + adr) bs := rfl
@[simp] theorem State.basinPut_lines (s : State) (isl adr : Nat) (bs : List Byte) : (s.basinPut isl adr bs).lines = s.lines := rfl
@[simp] theorem State.basinPut_tags (s : State) (isl adr : Nat) (bs : List Byte) : (s.basinPut isl adr bs).tags = s.tags := rfl
@[simp] theorem State.basinPut_qps (s : State) (isl adr : Nat) (bs : List Byte) : (s.basinPut isl adr bs).qps = s.qps := rfl
@[simp] theorem State.basinPut_ovf (s : State) (isl adr : Nat) (bs : List Byte) : (s.basinPut isl adr bs).ovf = s.ovf := rfl
@[simp] theorem State.basinPut_landing (s : State) (isl adr : Nat) (bs : List Byte) : (s.basinPut isl adr bs).landing = s.landing := rfl
@[simp] theorem State.basinPut_rungs (s : State) (isl adr : Nat) (bs : List Byte) : (s.basinPut isl adr bs).rungs = s.rungs := rfl
@[simp] theorem State.basinPut_rows (s : State) (isl adr : Nat) (bs : List Byte) : (s.basinPut isl adr bs).rows = s.rows := rfl
@[simp] theorem State.basinPut_tiles (s : State) (isl adr : Nat) (bs : List Byte) : (s.basinPut isl adr bs).tiles = s.tiles := rfl
@[simp] theorem State.basinPut_trims (s : State) (isl adr : Nat) (bs : List Byte) : (s.basinPut isl adr bs).trims = s.trims := rfl
@[simp] theorem State.basinPut_weir (s : State) (isl adr : Nat) (bs : List Byte) : (s.basinPut isl adr bs).weir = s.weir := rfl
@[simp] theorem State.basinPut_nextRep (s : State) (isl adr : Nat) (bs : List Byte) : (s.basinPut isl adr bs).nextRep = s.nextRep := rfl
@[simp] theorem State.basinPut_harbour (s : State) (isl adr : Nat) (bs : List Byte) : (s.basinPut isl adr bs).harbour = s.harbour := rfl
@[simp] theorem State.basinPut_hbPoison (s : State) (isl adr : Nat) (bs : List Byte) : (s.basinPut isl adr bs).hbPoison = s.hbPoison := rfl
@[simp] theorem State.basinPut_hbWritten (s : State) (isl adr : Nat) (bs : List Byte) : (s.basinPut isl adr bs).hbWritten = s.hbWritten := rfl
@[simp] theorem State.basinPut_frames (s : State) (isl adr : Nat) (bs : List Byte) : (s.basinPut isl adr bs).frames = s.frames := rfl
@[simp] theorem State.basinPut_badSlots (s : State) (isl adr : Nat) (bs : List Byte) : (s.basinPut isl adr bs).badSlots = s.badSlots := rfl
@[simp] theorem State.basinPut_owners (s : State) (isl adr : Nat) (bs : List Byte) : (s.basinPut isl adr bs).owners = s.owners := rfl
@[simp] theorem State.basinPut_runs (s : State) (isl adr : Nat) (bs : List Byte) : (s.basinPut isl adr bs).runs = s.runs := rfl
@[simp] theorem State.basinPut_nextRun (s : State) (isl adr : Nat) (bs : List Byte) : (s.basinPut isl adr bs).nextRun = s.nextRun := rfl
@[simp] theorem State.basinPut_refetch (s : State) (isl adr : Nat) (bs : List Byte) : (s.basinPut isl adr bs).refetch = s.refetch := rfl
@[simp] theorem State.basinPut_hbr (s : State) (isl adr : Nat) (bs : List Byte) : (s.basinPut isl adr bs).hbr = s.hbr := rfl
@[simp] theorem State.basinPut_scrubFrom (s : State) (isl adr : Nat) (bs : List Byte) : (s.basinPut isl adr bs).scrubFrom = s.scrubFrom := rfl
@[simp] theorem State.basinPut_swaps (s : State) (isl adr : Nat) (bs : List Byte) : (s.basinPut isl adr bs).swaps = s.swaps := rfl
@[simp] theorem State.basinPut_imports (s : State) (isl adr : Nat) (bs : List Byte) : (s.basinPut isl adr bs).imports = s.imports := rfl
@[simp] theorem State.basinPut_dyns (s : State) (isl adr : Nat) (bs : List Byte) : (s.basinPut isl adr bs).dyns = s.dyns := rfl
@[simp] theorem State.basinPut_tests (s : State) (isl adr : Nat) (bs : List Byte) : (s.basinPut isl adr bs).tests = s.tests := rfl
@[simp] theorem State.basinPut_flash (s : State) (isl adr : Nat) (bs : List Byte) : (s.basinPut isl adr bs).flash = s.flash := rfl
@[simp] theorem State.basinPut_cal (s : State) (isl adr : Nat) (bs : List Byte) : (s.basinPut isl adr bs).cal = s.cal := rfl
@[simp] theorem State.basinPut_flashq (s : State) (isl adr : Nat) (bs : List Byte) : (s.basinPut isl adr bs).flashq = s.flashq := rfl
@[simp] theorem State.basinPut_ownerKeys (s : State) (isl adr : Nat) (bs : List Byte) : (s.basinPut isl adr bs).ownerKeys = s.ownerKeys := rfl
@[simp] theorem State.basinPut_spdm (s : State) (isl adr : Nat) (bs : List Byte) : (s.basinPut isl adr bs).spdm = s.spdm := rfl
@[simp] theorem State.basinPut_ends (s : State) (isl adr : Nat) (bs : List Byte) : (s.basinPut isl adr bs).ends = s.ends := rfl
@[simp] theorem State.basinPut_rrCtx (s : State) (isl adr : Nat) (bs : List Byte) : (s.basinPut isl adr bs).rrCtx = s.rrCtx := rfl
@[simp] theorem State.basinPut_rrQ (s : State) (isl adr : Nat) (bs : List Byte) : (s.basinPut isl adr bs).rrQ = s.rrQ := rfl
@[simp] theorem State.basinPut_rplChecks (s : State) (isl adr : Nat) (bs : List Byte) : (s.basinPut isl adr bs).rplChecks = s.rplChecks := rfl
@[simp] theorem State.basinPut_lost (s : State) (isl adr : Nat) (bs : List Byte) : (s.basinPut isl adr bs).lost = s.lost := rfl
@[simp] theorem State.basinPut_thm (s : State) (isl adr : Nat) (bs : List Byte) : (s.basinPut isl adr bs).thm = s.thm := rfl
@[simp] theorem State.basinPut_wd (s : State) (isl adr : Nat) (bs : List Byte) : (s.basinPut isl adr bs).wd = s.wd := rfl
@[simp] theorem State.basinPut_rungAt (s : State) (isl adr : Nat) (bs : List Byte) : (s.basinPut isl adr bs).rungAt = s.rungAt := rfl
@[simp] theorem State.basinPut_flrs (s : State) (isl adr : Nat) (bs : List Byte) : (s.basinPut isl adr bs).flrs = s.flrs := rfl
@[simp] theorem State.basinPut_sessions (s : State) (isl adr : Nat) (bs : List Byte) : (s.basinPut isl adr bs).sessions = s.sessions := rfl
@[simp] theorem State.basinPut_mgmtKeys (s : State) (isl adr : Nat) (bs : List Byte) : (s.basinPut isl adr bs).mgmtKeys = s.mgmtKeys := rfl
@[simp] theorem State.basinPut_authTick (s : State) (isl adr : Nat) (bs : List Byte) : (s.basinPut isl adr bs).authTick = s.authTick := rfl
@[simp] theorem State.basinPut_views (s : State) (isl adr : Nat) (bs : List Byte) : (s.basinPut isl adr bs).views = s.views := rfl
@[simp] theorem State.basinPut_boot (s : State) (isl adr : Nat) (bs : List Byte) : (s.basinPut isl adr bs).boot = s.boot := rfl
@[simp] theorem State.basinPut_push (s : State) (isl adr : Nat) (bs : List Byte) : (s.basinPut isl adr bs).push = s.push := rfl
@[simp] theorem State.basinPut_tap (s : State) (isl adr : Nat) (bs : List Byte) : (s.basinPut isl adr bs).tap = s.tap := rfl
@[simp] theorem State.basinPut_mctp (s : State) (isl adr : Nat) (bs : List Byte) : (s.basinPut isl adr bs).mctp = s.mctp := rfl
@[simp] theorem State.basinPut_torn (s : State) (isl adr : Nat) (bs : List Byte) : (s.basinPut isl adr bs).torn = s.torn := rfl
@[simp] theorem State.basinPut_grantWas (s : State) (isl adr : Nat) (bs : List Byte) : (s.basinPut isl adr bs).grantWas = s.grantWas := rfl
@[simp] theorem State.basinPut_power (s : State) (isl adr : Nat) (bs : List Byte) : (s.basinPut isl adr bs).power = s.power := rfl
@[simp] theorem State.basinPut_reconAt (s : State) (isl adr : Nat) (bs : List Byte) : (s.basinPut isl adr bs).reconAt = s.reconAt := rfl

/-! ## setQp -/

@[simp] theorem State.setQp_pending (s : State) (f q : Nat) (x : QPair) : (s.setQp f q x).pending = s.pending := rfl
@[simp] theorem State.setQp_regs (s : State) (f q : Nat) (x : QPair) : (s.setQp f q x).regs = s.regs := rfl
@[simp] theorem State.setQp_hdr (s : State) (f q : Nat) (x : QPair) : (s.setQp f q x).hdr = s.hdr := rfl
@[simp] theorem State.setQp_shadow (s : State) (f q : Nat) (x : QPair) : (s.setQp f q x).shadow = s.shadow := rfl
@[simp] theorem State.setQp_staged (s : State) (f q : Nat) (x : QPair) : (s.setQp f q x).staged = s.staged := rfl
@[simp] theorem State.setQp_heldWrites (s : State) (f q : Nat) (x : QPair) : (s.setQp f q x).heldWrites = s.heldWrites := rfl
@[simp] theorem State.setQp_fencing (s : State) (f q : Nat) (x : QPair) : (s.setQp f q x).fencing = s.fencing := rfl
@[simp] theorem State.setQp_pendWas (s : State) (f q : Nat) (x : QPair) : (s.setQp f q x).pendWas = s.pendWas := rfl
@[simp] theorem State.setQp_log (s : State) (f q : Nat) (x : QPair) : (s.setQp f q x).log = s.log := rfl
@[simp] theorem State.setQp_out (s : State) (f q : Nat) (x : QPair) : (s.setQp f q x).out = s.out := rfl
@[simp] theorem State.setQp_irq (s : State) (f q : Nat) (x : QPair) : (s.setQp f q x).irq = s.irq := rfl
@[simp] theorem State.setQp_badAccTick (s : State) (f q : Nat) (x : QPair) : (s.setQp f q x).badAccTick = s.badAccTick := rfl
@[simp] theorem State.setQp_draws (s : State) (f q : Nat) (x : QPair) : (s.setQp f q x).draws = s.draws := rfl
@[simp] theorem State.setQp_leases (s : State) (f q : Nat) (x : QPair) : (s.setQp f q x).leases = s.leases := rfl
@[simp] theorem State.setQp_profile (s : State) (f q : Nat) (x : QPair) : (s.setQp f q x).profile = s.profile := rfl
@[simp] theorem State.setQp_count (s : State) (f q : Nat) (x : QPair) : (s.setQp f q x).count = s.count := rfl
@[simp] theorem State.setQp_tide (s : State) (f q : Nat) (x : QPair) : (s.setQp f q x).tide = s.tide := rfl
@[simp] theorem State.setQp_tickets (s : State) (f q : Nat) (x : QPair) : (s.setQp f q x).tickets = s.tickets := rfl
@[simp] theorem State.setQp_acks (s : State) (f q : Nat) (x : QPair) : (s.setQp f q x).acks = s.acks := rfl
@[simp] theorem State.setQp_jobs (s : State) (f q : Nat) (x : QPair) : (s.setQp f q x).jobs = s.jobs := rfl
@[simp] theorem State.setQp_nextJob (s : State) (f q : Nat) (x : QPair) : (s.setQp f q x).nextJob = s.nextJob := rfl
@[simp] theorem State.setQp_plans (s : State) (f q : Nat) (x : QPair) : (s.setQp f q x).plans = s.plans := rfl
@[simp] theorem State.setQp_nextPlan (s : State) (f q : Nat) (x : QPair) : (s.setQp f q x).nextPlan = s.nextPlan := rfl
@[simp] theorem State.setQp_acct (s : State) (f q : Nat) (x : QPair) : (s.setQp f q x).acct = s.acct := rfl
@[simp] theorem State.setQp_slu (s : State) (f q : Nat) (x : QPair) : (s.setQp f q x).slu = s.slu := rfl
@[simp] theorem State.setQp_ctxs (s : State) (f q : Nat) (x : QPair) : (s.setQp f q x).ctxs = s.ctxs := rfl
@[simp] theorem State.setQp_basin (s : State) (f q : Nat) (x : QPair) : (s.setQp f q x).basin = s.basin := rfl
@[simp] theorem State.setQp_lines (s : State) (f q : Nat) (x : QPair) : (s.setQp f q x).lines = s.lines := rfl
@[simp] theorem State.setQp_tags (s : State) (f q : Nat) (x : QPair) : (s.setQp f q x).tags = s.tags := rfl
@[simp] theorem State.setQp_qps (s : State) (f q : Nat) (x : QPair) : (s.setQp f q x).qps = Store.put qNone s.qps (f * 16 + q) x := rfl
@[simp] theorem State.setQp_ovf (s : State) (f q : Nat) (x : QPair) : (s.setQp f q x).ovf = s.ovf := rfl
@[simp] theorem State.setQp_landing (s : State) (f q : Nat) (x : QPair) : (s.setQp f q x).landing = s.landing := rfl
@[simp] theorem State.setQp_rungs (s : State) (f q : Nat) (x : QPair) : (s.setQp f q x).rungs = s.rungs := rfl
@[simp] theorem State.setQp_rows (s : State) (f q : Nat) (x : QPair) : (s.setQp f q x).rows = s.rows := rfl
@[simp] theorem State.setQp_tiles (s : State) (f q : Nat) (x : QPair) : (s.setQp f q x).tiles = s.tiles := rfl
@[simp] theorem State.setQp_trims (s : State) (f q : Nat) (x : QPair) : (s.setQp f q x).trims = s.trims := rfl
@[simp] theorem State.setQp_weir (s : State) (f q : Nat) (x : QPair) : (s.setQp f q x).weir = s.weir := rfl
@[simp] theorem State.setQp_nextRep (s : State) (f q : Nat) (x : QPair) : (s.setQp f q x).nextRep = s.nextRep := rfl
@[simp] theorem State.setQp_harbour (s : State) (f q : Nat) (x : QPair) : (s.setQp f q x).harbour = s.harbour := rfl
@[simp] theorem State.setQp_hbPoison (s : State) (f q : Nat) (x : QPair) : (s.setQp f q x).hbPoison = s.hbPoison := rfl
@[simp] theorem State.setQp_hbWritten (s : State) (f q : Nat) (x : QPair) : (s.setQp f q x).hbWritten = s.hbWritten := rfl
@[simp] theorem State.setQp_frames (s : State) (f q : Nat) (x : QPair) : (s.setQp f q x).frames = s.frames := rfl
@[simp] theorem State.setQp_badSlots (s : State) (f q : Nat) (x : QPair) : (s.setQp f q x).badSlots = s.badSlots := rfl
@[simp] theorem State.setQp_owners (s : State) (f q : Nat) (x : QPair) : (s.setQp f q x).owners = s.owners := rfl
@[simp] theorem State.setQp_runs (s : State) (f q : Nat) (x : QPair) : (s.setQp f q x).runs = s.runs := rfl
@[simp] theorem State.setQp_nextRun (s : State) (f q : Nat) (x : QPair) : (s.setQp f q x).nextRun = s.nextRun := rfl
@[simp] theorem State.setQp_refetch (s : State) (f q : Nat) (x : QPair) : (s.setQp f q x).refetch = s.refetch := rfl
@[simp] theorem State.setQp_hbr (s : State) (f q : Nat) (x : QPair) : (s.setQp f q x).hbr = s.hbr := rfl
@[simp] theorem State.setQp_scrubFrom (s : State) (f q : Nat) (x : QPair) : (s.setQp f q x).scrubFrom = s.scrubFrom := rfl
@[simp] theorem State.setQp_swaps (s : State) (f q : Nat) (x : QPair) : (s.setQp f q x).swaps = s.swaps := rfl
@[simp] theorem State.setQp_imports (s : State) (f q : Nat) (x : QPair) : (s.setQp f q x).imports = s.imports := rfl
@[simp] theorem State.setQp_dyns (s : State) (f q : Nat) (x : QPair) : (s.setQp f q x).dyns = s.dyns := rfl
@[simp] theorem State.setQp_tests (s : State) (f q : Nat) (x : QPair) : (s.setQp f q x).tests = s.tests := rfl
@[simp] theorem State.setQp_flash (s : State) (f q : Nat) (x : QPair) : (s.setQp f q x).flash = s.flash := rfl
@[simp] theorem State.setQp_cal (s : State) (f q : Nat) (x : QPair) : (s.setQp f q x).cal = s.cal := rfl
@[simp] theorem State.setQp_flashq (s : State) (f q : Nat) (x : QPair) : (s.setQp f q x).flashq = s.flashq := rfl
@[simp] theorem State.setQp_ownerKeys (s : State) (f q : Nat) (x : QPair) : (s.setQp f q x).ownerKeys = s.ownerKeys := rfl
@[simp] theorem State.setQp_spdm (s : State) (f q : Nat) (x : QPair) : (s.setQp f q x).spdm = s.spdm := rfl
@[simp] theorem State.setQp_ends (s : State) (f q : Nat) (x : QPair) : (s.setQp f q x).ends = s.ends := rfl
@[simp] theorem State.setQp_rrCtx (s : State) (f q : Nat) (x : QPair) : (s.setQp f q x).rrCtx = s.rrCtx := rfl
@[simp] theorem State.setQp_rrQ (s : State) (f q : Nat) (x : QPair) : (s.setQp f q x).rrQ = s.rrQ := rfl
@[simp] theorem State.setQp_rplChecks (s : State) (f q : Nat) (x : QPair) : (s.setQp f q x).rplChecks = s.rplChecks := rfl
@[simp] theorem State.setQp_lost (s : State) (f q : Nat) (x : QPair) : (s.setQp f q x).lost = s.lost := rfl
@[simp] theorem State.setQp_thm (s : State) (f q : Nat) (x : QPair) : (s.setQp f q x).thm = s.thm := rfl
@[simp] theorem State.setQp_wd (s : State) (f q : Nat) (x : QPair) : (s.setQp f q x).wd = s.wd := rfl
@[simp] theorem State.setQp_rungAt (s : State) (f q : Nat) (x : QPair) : (s.setQp f q x).rungAt = s.rungAt := rfl
@[simp] theorem State.setQp_flrs (s : State) (f q : Nat) (x : QPair) : (s.setQp f q x).flrs = s.flrs := rfl
@[simp] theorem State.setQp_sessions (s : State) (f q : Nat) (x : QPair) : (s.setQp f q x).sessions = s.sessions := rfl
@[simp] theorem State.setQp_mgmtKeys (s : State) (f q : Nat) (x : QPair) : (s.setQp f q x).mgmtKeys = s.mgmtKeys := rfl
@[simp] theorem State.setQp_authTick (s : State) (f q : Nat) (x : QPair) : (s.setQp f q x).authTick = s.authTick := rfl
@[simp] theorem State.setQp_views (s : State) (f q : Nat) (x : QPair) : (s.setQp f q x).views = s.views := rfl
@[simp] theorem State.setQp_boot (s : State) (f q : Nat) (x : QPair) : (s.setQp f q x).boot = s.boot := rfl
@[simp] theorem State.setQp_push (s : State) (f q : Nat) (x : QPair) : (s.setQp f q x).push = s.push := rfl
@[simp] theorem State.setQp_tap (s : State) (f q : Nat) (x : QPair) : (s.setQp f q x).tap = s.tap := rfl
@[simp] theorem State.setQp_mctp (s : State) (f q : Nat) (x : QPair) : (s.setQp f q x).mctp = s.mctp := rfl
@[simp] theorem State.setQp_torn (s : State) (f q : Nat) (x : QPair) : (s.setQp f q x).torn = s.torn := rfl
@[simp] theorem State.setQp_grantWas (s : State) (f q : Nat) (x : QPair) : (s.setQp f q x).grantWas = s.grantWas := rfl
@[simp] theorem State.setQp_power (s : State) (f q : Nat) (x : QPair) : (s.setQp f q x).power = s.power := rfl
@[simp] theorem State.setQp_reconAt (s : State) (f q : Nat) (x : QPair) : (s.setQp f q x).reconAt = s.reconAt := rfl

end Sys2Proof.Machine
end

