-- ==== Sys2Proof/Laws/Reads.lean ====
section
/-!
SUPPORT. Reads after writes: fields of register values, stored registers, page headers, tickets, tiles, contexts.
-/
namespace Sys2Proof.Machine

/-! ## Fields of a register value -/

theorem maskOf_bit (lo w i : Nat) (hi : i < 32) : (maskOf lo w).getLsbD i = decide (lo ≤ i ∧ i < lo + w) := by
  simp only [maskOf, BitVec.getLsbD_ofNat, hi, decide_true, Bool.true_and, Nat.testBit_mul_two_pow, Nat.testBit_two_pow_sub_one]
  by_cases h : lo ≤ i
  · simp only [h, decide_true, Bool.true_and, true_and, decide_eq_decide]; omega
  · simp only [h, decide_false, Bool.false_and, false_and]

theorem setFld_bit (v : Word) (lo w x i : Nat) (hi : i < 32) :
    (setFld v lo w x).getLsbD i = if lo ≤ i ∧ i < lo + w then x.testBit (i - lo) else v.getLsbD i := by
  simp only [setFld, BitVec.getLsbD_or, BitVec.getLsbD_and, BitVec.getLsbD_not, maskOf_bit lo w i hi, hi, decide_true, Bool.true_and,
    BitVec.getLsbD_ofNat, Nat.testBit_mul_two_pow]
  by_cases h : lo ≤ i ∧ i < lo + w
  · simp only [h.1, h.2, and_self, decide_true, Bool.not_true, Bool.and_false, Bool.false_or, if_true, Bool.true_and, Bool.and_true]
  · simp only [h, decide_false, Bool.not_false, Bool.and_true, Bool.and_false, Bool.or_false, if_false]

theorem fld_testBit (v : Word) (lo w i : Nat) : (fld v lo w).testBit i = (decide (i < w) && v.getLsbD (lo + i)) := by
  simp only [fld, Nat.testBit_mod_two_pow, Nat.testBit_div_two_pow, BitVec.getLsbD, Nat.add_comm]

/-- A field reads the value written to it, cut to its width. -/
theorem fld_setFld (v : Word) (lo w x : Nat) (h : lo + w ≤ 32) : fld (setFld v lo w x) lo w = x % 2 ^ w := by
  apply Nat.eq_of_testBit_eq
  intro i
  rw [fld_testBit, Nat.testBit_mod_two_pow]
  by_cases hi : i < w
  · rw [setFld_bit v lo w x (lo + i) (by omega), if_pos (by omega), Nat.add_sub_cancel_left]
  · simp only [hi, decide_false, Bool.false_and]

/-- A field outside the one written reads as before. -/
theorem fld_setFld_ne (v : Word) (lo w x lo' w' : Nat) (h : lo' + w' ≤ lo ∨ lo + w ≤ lo') (h' : lo' + w' ≤ 32) :
    fld (setFld v lo w x) lo' w' = fld v lo' w' := by
  apply Nat.eq_of_testBit_eq
  intro i
  rw [fld_testBit, fld_testBit]
  by_cases hi : i < w'
  · rw [setFld_bit v lo w x (lo' + i) (by omega), if_neg (by omega)]
  · simp only [hi, decide_false, Bool.false_and]

theorem b2n_testBit (b : Bool) : (b2n b).testBit 0 = b := by cases b <;> rfl

/-- A bit reads the value written to it. -/
theorem bit_setFld (v : Word) (n : Nat) (b : Bool) (h : n < 32) : bit (setFld v n 1 (b2n b)) n = b := by
  rw [bit, setFld_bit v n 1 _ n h, if_pos (by omega), Nat.sub_self, b2n_testBit]

/-- A bit outside the field written reads as before. -/
theorem bit_setFld_ne (v : Word) (lo w x n : Nat) (h : n < lo ∨ lo + w ≤ n) : bit (setFld v lo w x) n = bit v n := by
  by_cases hn : n < 32
  · rw [bit, setFld_bit v lo w x n hn, if_neg (by omega), bit]
  · rw [bit, bit, BitVec.getLsbD_of_ge (setFld v lo w x) n (by omega), BitVec.getLsbD_of_ge v n (by omega)]

/-! ## Registers -/

theorem State.reg_setReg (s : State) (a b : Nat) (v : Word) : (s.setReg a v).reg b = if b = a then v else s.reg b := by
  simp only [State.reg, State.setReg_regs, Store.get_put]

@[simp] theorem State.reg_setReg_self (s : State) (a : Nat) (v : Word) : (s.setReg a v).reg a = v := by rw [State.reg_setReg, if_pos rfl]

theorem State.reg_setReg_ne (s : State) (a b : Nat) (v : Word) (h : b ≠ a) : (s.setReg a v).reg b = s.reg b := by
  rw [State.reg_setReg, if_neg h]

theorem State.reg_setF (s : State) (a b lo w x : Nat) : (s.setF a lo w x).reg b = if b = a then setFld (s.reg a) lo w x else s.reg b :=
  State.reg_setReg ..

theorem State.getF_setF (s : State) (a lo w x : Nat) (h : lo + w ≤ 32) : (s.setF a lo w x).getF a lo w = x % 2 ^ w := by
  simp only [State.getF, State.setF, State.reg_setReg_self, fld_setFld _ _ _ _ h]

theorem State.getB_setB (s : State) (a n : Nat) (b : Bool) (h : n < 32) : (s.setB a n b).getB a n = b := by
  simp only [State.getB, State.setB, State.setF, State.reg_setReg_self, bit_setFld _ _ _ h]

theorem State.reg_setF_ne (s : State) (a b lo w x : Nat) (h : b ≠ a) : (s.setF a lo w x).reg b = s.reg b := State.reg_setReg_ne _ _ _ _ h

theorem State.reg_setB_ne (s : State) (a b n : Nat) (x : Bool) (h : b ≠ a) : (s.setB a n x).reg b = s.reg b := State.reg_setReg_ne _ _ _ _ h

theorem State.getF_ne (s : State) (a b : Nat) (v : Word) (lo w : Nat) (h : b ≠ a) : (s.setReg a v).getF b lo w = s.getF b lo w := by
  simp only [State.getF, State.reg_setReg_ne _ _ _ _ h]

theorem State.getB_ne (s : State) (a b : Nat) (v : Word) (n : Nat) (h : b ≠ a) : (s.setReg a v).getB b n = s.getB b n := by
  simp only [State.getB, State.reg_setReg_ne _ _ _ _ h]

theorem State.getF_setF_ne (s : State) (a lo w x lo' w' : Nat) (h : lo' + w' ≤ lo ∨ lo + w ≤ lo') (h' : lo' + w' ≤ 32) :
    (s.setF a lo w x).getF a lo' w' = s.getF a lo' w' := by
  simp only [State.getF, State.setF, State.reg_setReg_self, fld_setFld_ne _ _ _ _ _ _ h h']

theorem State.getB_setF_ne (s : State) (a lo w x n : Nat) (h : n < lo ∨ lo + w ≤ n) : (s.setF a lo w x).getB a n = s.getB a n := by
  simp only [State.getB, State.setF, State.reg_setReg_self, bit_setFld_ne _ _ _ _ _ h]

/-- A function of the state that leaves `regs` leaves every register. -/
theorem State.reg_of_regs {s t : State} (h : t.regs = s.regs) (a : Nat) : t.reg a = s.reg a := by simp only [State.reg, h]

/-! ## Page headers, tickets, tiles, contexts -/

theorem State.hd_updHd (s : State) (ty i ty' i' : Nat) (f : PageHdr → PageHdr) :
    (s.updHd ty i f).hd ty' i' = if ty' * 1024 + i' = ty * 1024 + i then f (s.hd ty i) else s.hd ty' i' := by
  simp only [State.hd, State.updHd, Store.upd, Store.get_put]

@[simp] theorem State.hd_updHd_self (s : State) (ty i : Nat) (f : PageHdr → PageHdr) : (s.updHd ty i f).hd ty i = f (s.hd ty i) := by
  rw [State.hd_updHd, if_pos rfl]

theorem State.hd_of_hdr {s t : State} (h : t.hdr = s.hdr) (ty i : Nat) : t.hd ty i = s.hd ty i := by simp only [State.hd, h]

theorem State.tkAt_setTk (s : State) (k j : Nat) (x : Ticket) : (s.setTk k x).tkAt j = if j = k then x else s.tkAt j := by
  simp only [State.tkAt, State.setTk, Store.get_put]

@[simp] theorem State.tkAt_setTk_self (s : State) (k : Nat) (x : Ticket) : (s.setTk k x).tkAt k = x := by
  rw [State.tkAt_setTk, if_pos rfl]

/-- A ticket after `mapTk` is as before, or `f` of what it was. -/
theorem State.tkAt_mapTk (s : State) (p : Nat → Ticket → Bool) (f : Ticket → Ticket) (k : Nat) :
    (s.mapTk p f).tkAt k = s.tkAt k ∨ (s.mapTk p f).tkAt k = f (s.tkAt k) := by
  simp only [State.tkAt, State.mapTk]
  induction s.tickets with
  | nil => exact Or.inl rfl
  | cons e l ih =>
    simp only [List.map_cons]
    by_cases hp : p e.1 e.2 = true
    · rw [if_pos hp]
      by_cases hk : k = e.1
      · exact Or.inr (by simp only [Store.get, if_pos hk])
      · simp only [Store.get, if_neg hk]; exact ih
    · rw [if_neg hp]
      by_cases hk : k = e.1
      · exact Or.inl (by simp only [Store.get, if_pos hk])
      · simp only [Store.get, if_neg hk]; exact ih

theorem State.tx_updTx (s : State) (g h : Nat) (f : TileX → TileX) : (s.updTx g f).tx h = if h = g then f (s.tx g) else s.tx h := by
  simp only [State.tx, State.updTx, Store.upd, Store.get_put]

@[simp] theorem State.tx_updTx_self (s : State) (g : Nat) (f : TileX → TileX) : (s.updTx g f).tx g = f (s.tx g) := by
  rw [State.tx_updTx, if_pos rfl]

theorem State.row_setRow (s : State) (g r g' r' : Nat) (x : RowRec) :
    (s.setRow g r x).row g' r' = if g' * 1024 + r' = g * 1024 + r then x else s.row g' r' := by
  simp only [State.row, State.setRow, Store.get_put]

@[simp] theorem State.row_setRow_self (s : State) (g r : Nat) (x : RowRec) : (s.setRow g r x).row g r = x := by
  rw [State.row_setRow, if_pos rfl]

theorem State.job_setJob (s : State) (k j : Nat) (x : Job) : (s.setJob k x).job j = if j = k then x else s.job j := by
  simp only [State.job, State.setJob, Store.get_put]

@[simp] theorem State.job_setJob_self (s : State) (k : Nat) (x : Job) : (s.setJob k x).job k = x := by
  rw [State.job_setJob, if_pos rfl]

theorem State.cx_setCx (s : State) (k j : Nat) (x : CtxRec) : (s.setCx k x).cx j = if j = k then x else s.cx j := by
  simp only [State.cx, State.setCx, Store.get_put]

@[simp] theorem State.cx_setCx_self (s : State) (k : Nat) (x : CtxRec) : (s.setCx k x).cx k = x := by
  rw [State.cx_setCx, if_pos rfl]

end Sys2Proof.Machine
end

