-- ==== Sys2Proof/Laws/Raise.lean ====
section
/-!
SUPPORT. What raising an event leaves: every register outside the RCV and PRT pages and LOG_OVW_CNT, and every raised bit; and the bit it sets.
-/
namespace Sys2Proof.Machine

/-- Registers outside `raiseReg` are as before, and every raised bit stays raised. -/
structure Mild (s t : State) : Prop where
  reg : ∀ a, raiseReg a = false → t.reg a = s.reg a
  raw : ∀ ty i b, (s.hd ty i).raw.getLsbD b = true → (t.hd ty i).raw.getLsbD b = true

theorem Mild.refl (s : State) : Mild s s := ⟨fun _ _ => rfl, fun _ _ _ h => h⟩

theorem Mild.trans {s t u : State} (h : Mild s t) (k : Mild t u) : Mild s u :=
  ⟨fun a e => (k.reg a e).trans (h.reg a e), fun ty i b e => k.raw ty i b (h.raw ty i b e)⟩

theorem Mild.of_fields {s t : State} (hr : t.regs = s.regs) (hh : t.hdr = s.hdr) : Mild s t :=
  ⟨fun a _ => State.reg_of_regs hr a, fun ty i b e => by rw [State.hd_of_hdr hh]; exact e⟩

theorem Mild.setReg (s : State) (a : Nat) (v : Word) (h : raiseReg a = true) : Mild s (s.setReg a v) :=
  ⟨fun b e => State.reg_setReg_ne _ _ _ _ (by intro c; rw [c, h] at e; exact absurd e (by decide)), fun _ _ _ e => e⟩

theorem Mild.updHd (s : State) (ty i : Nat) (f : PageHdr → PageHdr)
    (hf : ∀ (x : PageHdr) b, x.raw.getLsbD b = true → (f x).raw.getLsbD b = true) : Mild s (s.updHd ty i f) := by
  refine ⟨fun _ _ => rfl, fun ty' i' b e => ?_⟩
  rw [State.hd_updHd]
  split
  · next h => exact hf _ _ (by rw [State.hd, ← h]; exact e)
  · exact e

theorem Mild.ite {s a b : State} {c : Prop} [Decidable c] (ha : Mild s a) (hb : Mild s b) : Mild s (if c then a else b) := by
  split <;> assumption

theorem Mild.foldl {α : Type} (l : List α) (f : State → α → State) (h : ∀ s x, Mild s (f s x)) (s : State) : Mild s (l.foldl f s) := by
  induction l generalizing s with
  | nil => exact Mild.refl s
  | cons x l ih => exact (h s x).trans (ih _)

theorem State.startRec_mild (s : State) (r : LogRec) : Mild s (s.startRec r).1 := by
  unfold State.startRec
  dsimp only
  split
  · exact (Mild.setReg s _ _ (by decide)).trans (Mild.of_fields rfl rfl)
  · exact Mild.of_fields rfl rfl

theorem State.logRaise_mild (s : State) (r : LogRec) (c : Bool) : Mild s (s.logRaise r c).1 := by
  unfold State.logRaise
  split
  · exact Mild.of_fields rfl rfl
  · dsimp only
    split
    · exact (s.startRec_mild r).trans (Mild.of_fields rfl rfl)
    · exact s.startRec_mild r

theorem State.signal_mild (s : State) (f : Nat) : Mild s (s.signal f) := by
  unfold State.signal
  dsimp only
  split <;> exact Mild.of_fields rfl rfl

theorem State.routeHost_mild (s : State) (ty i c : Nat) : Mild s (s.routeHost ty i c) := by
  unfold State.routeHost
  refine Mild.ite ?_ (Mild.refl s)
  dsimp only
  have h : Mild s (if s.getB Reg.TOP_IRQ_CTL 0 = true then s.signal 0 else s) := Mild.ite (s.signal_mild 0) (Mild.refl s)
  exact Mild.ite (h.trans (State.signal_mild _ _)) h

theorem or_bit {x y : Word} {b : Nat} (h : x.getLsbD b = true) : (x ||| y).getLsbD b = true := by
  rw [BitVec.getLsbD_or, h, Bool.true_or]

/-- What raising an event leaves and sets. -/
theorem State.raiseOnly_mild (s : State) (ty i n : Nat) (pl : Option (List Byte)) (c p : Nat) (f : Bool) :
    Mild s (s.raiseOnly ty i n pl c p f)
      ∧ (n < 32 → (eventCode ty n).isSome = true → ((s.raiseOnly ty i n pl c p f).hd ty i).raw.getLsbD n = true) := by
  unfold State.raiseOnly
  cases hc : eventCode ty n with
  | none => exact ⟨Mild.refl s, fun _ h => absurd h (by decide)⟩
  | some code =>
    dsimp only
    generalize hg : s.updHd ty i (fun h =>
      { h with
        raw := h.raw ||| maskOf n 1
        pend := if h.en.getLsbD n then h.pend ||| maskOf n 1 else h.pend
        errCnt := if codeClass code ≥ 2 then BitVec.ofNat 32 (satAdd 0xFFFFFFFF h.errCnt.toNat 1) else h.errCnt }) = s1
    have h1 : Mild s s1 := by rw [← hg]; exact Mild.updHd _ _ _ _ fun x b h => or_bit h
    have h1n : n < 32 → (s1.hd ty i).raw.getLsbD n = true := by
      intro hn
      rw [← hg, State.hd_updHd_self]
      dsimp only
      rw [BitVec.getLsbD_or, maskOf_bit n 1 n hn, decide_eq_true (by omega), Bool.or_true]
    generalize hg2 : (if pl.isNone = true then { s1 with draws := s1.draws + 1 } else s1) = s2
    have h2 : Mild s1 s2 := by rw [← hg2]; split <;> exact Mild.of_fields rfl rfl
    generalize hg3 : s2.logRaise _ _ = q
    have h3 : Mild s2 q.1 := by rw [← hg3]; exact State.logRaise_mild _ _ _
    generalize hg4 : (if ((s.hd ty i).en.getLsbD n && !(s.hd ty i).pend.getLsbD n) = true then q.1.routeHost ty i c else q.1) = s4
    have h4 : Mild q.1 s4 := by rw [← hg4]; exact Mild.ite (State.routeHost_mild _ _ _ _) (Mild.refl _)
    have hall : ∀ u, Mild s4 u → Mild s u ∧ (n < 32 → (some code).isSome = true → (u.hd ty i).raw.getLsbD n = true) := fun u hu =>
      have a := (h2.trans h3).trans (h4.trans hu)
      ⟨h1.trans a, fun hn _ => a.raw _ _ _ (h1n hn)⟩
    split
    · generalize hg5 : s4.updHd 12 0 _ = s5
      have h5 : Mild s4 s5 := by rw [← hg5]; exact Mild.updHd _ _ _ _ fun x b h => or_bit h
      generalize hg6 : s5.logRaise _ _ = q6
      have h6 : Mild s5 q6.1 := by rw [← hg6]; exact State.logRaise_mild _ _ _
      exact hall _ (h5.trans (h6.trans (Mild.ite (State.routeHost_mild _ _ _ _) (Mild.refl _))))
    · exact hall _ (Mild.refl _)

theorem State.prtSync_mild (s : State) : Mild s s.prtSync := by
  unfold State.prtSync
  have h : ∀ (l : List Nat), (∀ p ∈ l, p < 8) → ∀ s : State, Mild s (l.foldl (fun s p =>
      if s.getF (Reg.PRT_STS p) 0 2 = s.prtState p then s
      else (s.setF (Reg.PRT_STS p) 0 2 (s.prtState p)).raiseOnly 0x12 p Ev.PRT_STATE none 255 p false) s) := by
    intro l
    induction l with
    | nil => intro _ s; exact Mild.refl s
    | cons p l ih =>
      intro hl s
      refine Mild.trans (Mild.ite (Mild.refl s) ?_) (ih (fun q hq => hl q (List.mem_cons_of_mem _ hq)) _)
      have hp : p < 8 := hl p List.mem_cons_self
      refine (Mild.setReg s _ _ ?_).trans (State.raiseOnly_mild _ _ _ _ _ _ _ _).1
      have e : adrType (Reg.PRT_STS p) = 0x12 := by simp only [adrType, Reg.PRT_STS]; omega
      simp [raiseReg, e]
  exact h (List.range 8) (fun p hp => List.mem_range.mp hp) s

theorem State.rungGo_mild (s : State) (k t c : Nat) : Mild s (s.rungGo k t c) := by
  unfold State.rungGo
  dsimp only
  refine Mild.trans ?_ (State.prtSync_mild _)
  refine Mild.trans ?_ (State.raiseOnly_mild _ _ _ _ _ _ _ _).1
  have h0 : ∀ u : State, Mild u (u.set64 Reg.RCV_LAST_START_LO Reg.RCV_LAST_START_HI u.now) := fun u =>
    (Mild.setReg u _ _ (by decide)).trans (Mild.setReg _ _ _ (by decide))
  generalize hg : ({ s with rungs := _, rungAt := _ } : State) = s1
  have h1 : Mild s s1 := by rw [← hg]; exact Mild.of_fields rfl rfl
  have h2 : Mild s ((s1.setReg Reg.RCV_LAST_RCV (BitVec.ofNat 32 (k + c * 8 + t % 256 * 256))).set64 Reg.RCV_LAST_START_LO Reg.RCV_LAST_START_HI s1.now) :=
    h1.trans ((Mild.setReg s1 _ _ (by decide)).trans (h0 _))
  split
  · exact h2.trans (Mild.setReg _ _ _ (by decide))
  · exact h2.trans (Mild.setReg _ _ _ (by decide))
  · exact h2.trans (Mild.setReg _ _ _ (by decide))
  · exact h2.trans (Mild.setReg _ _ _ (by decide))
  · exact h2

theorem State.rungStart_mild (s : State) (k t c : Nat) : Mild s (s.rungStart k t c) := by
  unfold State.rungStart
  exact Mild.ite (s.rungGo_mild k t c) (Mild.ite (Mild.refl s) (Mild.of_fields rfl rfl))

theorem State.noteEscalate_mild (s : State) : Mild s s.noteEscalate :=
  (Mild.setReg s _ _ (by decide)).trans (State.raiseOnly_mild _ _ _ _ _ _ _ _).1

theorem State.warmRung_mild (s : State) (c : Nat) : Mild s (s.warmRung c) := by
  unfold State.warmRung
  exact Mild.ite (s.noteEscalate_mild.trans (State.rungStart_mild _ _ _ _)) (s.rungStart_mild _ _ _)

theorem State.startRung_mild (s : State) (k t c : Nat) : Mild s (s.startRung k t c) := by
  unfold State.startRung
  refine Mild.ite (Mild.refl s) (Mild.ite (Mild.refl s) (Mild.ite (s.noteEscalate_mild.trans (Mild.of_fields rfl rfl)) (Mild.ite ?_ (Mild.ite ?_ ?_))))
  · exact s.noteEscalate_mild.trans (State.warmRung_mild _ _)
  · exact s.warmRung_mild _
  · exact s.rungStart_mild _ _ _

theorem State.classAction_mild (s : State) (ty i n : Nat) : Mild s (s.classAction ty i n) := by
  unfold State.classAction
  split
  · exact Mild.refl s
  · refine Mild.ite (Mild.ite (Mild.refl s) ?_) (Mild.ite ?_ (Mild.refl s))
    · split
      · exact s.startRung_mild _ _ _
      · exact Mild.refl s
    · refine Mild.ite (s.startRung_mild _ _ _) (Mild.ite (s.startRung_mild _ _ _) (Mild.ite (Mild.refl s) (Mild.ite (Mild.refl s)
        (Mild.ite (Mild.ite (Mild.refl s) ?_) (Mild.ite (Mild.refl s) (s.startRung_mild _ _ _))))))
      exact s.noteEscalate_mild.trans (State.startRung_mild _ _ _ _)

theorem State.raise_mild (s : State) (ty i n : Nat) (pl : Option (List Byte)) (c p : Nat) : Mild s (s.raise ty i n pl c p) := by
  unfold State.raise
  exact Mild.ite (Mild.refl s) ((State.raiseOnly_mild _ _ _ _ _ _ _ _).1.trans (State.classAction_mild _ _ _ _))

/-- An event raised on a page that is not muted sets its bit (R785). -/
theorem State.raise_raw (s : State) (ty i n : Nat) (pl : Option (List Byte)) (c p : Nat) (hm : s.mute ty i = false) (hn : n < 32)
    (he : (eventCode ty n).isSome = true) : ((s.raise ty i n pl c p).hd ty i).raw.getLsbD n = true := by
  unfold State.raise
  rw [hm, if_neg (by decide)]
  exact (State.classAction_mild _ _ _ _).raw _ _ _ ((State.raiseOnly_mild _ _ _ _ _ _ _ _).2 hn he)

theorem State.raiseC_mild (s : State) (ty i n : Nat) (pl : Option (List Byte)) (c : Nat) : Mild s (s.raiseC ty i n pl c) := s.raise_mild ..

theorem State.raiseI_mild (s : State) (ty i n : Nat) (pl : Option (List Byte)) : Mild s (s.raiseI ty i n pl) := s.raise_mild ..

end Sys2Proof.Machine
end

