-- ==== Sys2Proof/Laws/Tap.lean ====
section
/-!
SUPPORT. What each function of Machine/Tap.lean may change, and that it keeps the invariant of State.
-/
set_option linter.unusedVariables false
namespace Sys2Proof.Machine

theorem State.updTap_keeps (s f) : Keeps (Fld.tap) s (State.updTap s f) := by
  unfold State.updTap
  refine Keeps.cut s (Keeps.refl _ s) fun h0 => ?_
  exact ((Keeps.set_tap _ h0 rfl) :)

theorem execBypass_keeps (code s) : KeepsO (Fld.tap) s (execBypass code s) := by
  unfold execBypass
  refine KeepsO.cut s (Keeps.refl _ s) fun h0 => ?_
  refine KeepsO.next ?_
  refine Keeps.ite ?_ ?_
  · assumption
  · refine Keeps.step (State.updTap_keeps ..) rfl ?_
    assumption

theorem execIdcode_keeps (s) : KeepsO (Fld.out ||| Fld.tap) s (execIdcode s) := by
  unfold execIdcode
  refine KeepsO.cut s (Keeps.refl _ s) fun h0 => ?_
  refine KeepsO.next ?_
  refine Keeps.step (State.emit_keeps ..) rfl ?_
  refine Keeps.step (State.updTap_keeps ..) rfl ?_
  assumption

theorem State.dtm_hof {m : Nat} {s u : State} {f : State → State} (hf : ∀ t, Keeps m s t → Keeps m s (f t))
    (hm : Fld.sub Fld.tap m = true) (h : Keeps m s u) : Keeps m s (u.dtm f) :=
  Keeps.ite (Keeps.step (State.updTap_keeps ..) hm h) (hf u h)

theorem State.scan_keeps (s code pins shift) : Keeps (Fld.out ||| Fld.tap) s (State.scan s code pins shift) := by
  unfold State.scan
  refine Keeps.cut s (Keeps.refl _ s) fun h0 => ?_
  refine Keeps.step (State.emit_keeps ..) rfl ?_
  refine Keeps.step (State.updTap_keeps ..) rfl ?_
  assumption

theorem execSamplePreload_keeps (pins shift s) : KeepsO (Fld.out ||| Fld.tap) s (execSamplePreload pins shift s) := by
  unfold execSamplePreload
  refine KeepsO.cut s (Keeps.refl _ s) fun h0 => ?_
  refine KeepsO.next ?_
  refine Keeps.step (State.scan_keeps ..) rfl ?_
  refine Keeps.step (State.updTap_keeps ..) rfl ?_
  assumption

theorem State.takeLands_hof {m : Nat} {s u : State} {code : Nat} {f : State → State} (hf : ∀ t, Keeps m s t → Keeps m s (f t))
    (hm : Fld.sub Fld.tap m = true) (h : Keeps m s u) : Keeps m s (u.takeLands code f) :=
  Keeps.ite (Keeps.step (State.updTap_keeps ..) hm h) (hf _ (Keeps.step (State.updTap_keeps ..) hm h))

theorem State.dtmDone_keeps (s data status) : Keeps (Fld.out ||| Fld.tap) s (State.dtmDone s data status) := by
  unfold State.dtmDone
  refine Keeps.cut s (Keeps.refl _ s) fun h0 => ?_
  refine Keeps.step (State.emit_keeps ..) rfl ?_
  refine Keeps.step (State.updTap_keeps ..) rfl ?_
  assumption

theorem execTapReset_keeps (s) : KeepsO (Fld.tap) s (execTapReset s) := by
  unfold execTapReset
  refine KeepsO.cut s (Keeps.refl _ s) fun h0 => ?_
  refine KeepsO.next ?_
  refine Keeps.step (State.updTap_keeps ..) rfl ?_
  assumption

theorem execHighz_keeps (s) : KeepsO (Fld.tap) s (execHighz s) := by
  unfold execHighz
  refine KeepsO.cut s (Keeps.refl _ s) fun h0 => ?_
  refine KeepsO.next ?_
  refine State.takeLands_hof ?_ rfl ?_
  · intro t0 x1
    dsimp only [id]
    assumption
  assumption

theorem execTapClamp_keeps (s) : KeepsO (Fld.tap) s (execTapClamp s) := by
  unfold execTapClamp
  refine KeepsO.cut s (Keeps.refl _ s) fun h0 => ?_
  refine KeepsO.next ?_
  refine State.takeLands_hof ?_ rfl ?_
  · intro t0 x1
    dsimp only [id]
    assumption
  assumption

theorem execExtest_keeps (pins shift s) : KeepsO (Fld.out ||| Fld.tap) s (execExtest pins shift s) := by
  unfold execExtest
  refine KeepsO.cut s (Keeps.refl _ s) fun h0 => ?_
  refine KeepsO.next ?_
  refine State.takeLands_hof ?_ rfl ?_
  · intro t0 x1
    refine Keeps.step (State.scan_keeps ..) rfl ?_
    assumption
  assumption

theorem execDtmPeek_keeps (a s) : KeepsO (Fld.out ||| Fld.tap) s (execDtmPeek a s) := by
  unfold execDtmPeek
  refine KeepsO.cut s (Keeps.refl _ s) fun h0 => ?_
  refine KeepsO.next ?_
  refine State.dtm_hof ?_ rfl ?_
  · intro t0 x1
    refine Keeps.ite ?_ ?_
    · refine Keeps.step (State.dtmDone_keeps ..) rfl ?_
      assumption
    · refine Keeps.step (State.dtmDone_keeps ..) rfl ?_
      assumption
  assumption

theorem execDmiAccess_keeps (n kind s) : KeepsO (Fld.regs ||| Fld.hdr ||| Fld.log ||| Fld.out ||| Fld.irq ||| Fld.draws ||| Fld.rungs ||| Fld.wd ||| Fld.rungAt ||| Fld.tap) s (execDmiAccess n kind s) := by
  unfold execDmiAccess
  refine KeepsO.cut s (Keeps.refl _ s) fun h0 => ?_
  refine KeepsO.next ?_
  refine Keeps.ite ?_ ?_
  · refine Keeps.step (State.updTap_keeps ..) rfl ?_
    assumption
  · extract_lets -merge y0 y1
    refine Keeps.cut (y0) ?_ fun h2 => ?_
    · unfold y0
      refine Keeps.step (State.updTap_keeps ..) rfl ?_
      assumption
    clear_value y0
    refine Keeps.cut (y1) ?_ fun h3 => ?_
    · unfold y1
      refine Keeps.ite ?_ ?_
      · refine Keeps.step (State.pilotHalt_keeps ..) rfl ?_
        assumption
      · refine Keeps.ite ?_ ?_
        · refine Keeps.step (State.pilotResume_keeps ..) rfl ?_
          assumption
        · assumption
    clear_value y1
    split
    · rename_i a4 a5 a6 a7
      refine Keeps.cut (a6) ?_ fun h8 => ?_
      · refine Keeps.of_snd a7 ?_
        refine Keeps.step (State.nextDraw_keeps ..) rfl ?_
        assumption
      refine Keeps.step (State.emit_keeps ..) rfl ?_
      assumption

theorem execDtmRead_keeps (a s) : KeepsO (Fld.regs ||| Fld.hdr ||| Fld.shadow ||| Fld.log ||| Fld.out ||| Fld.irq ||| Fld.badAccTick ||| Fld.draws ||| Fld.rungs ||| Fld.thm ||| Fld.rungAt ||| Fld.tap) s (execDtmRead a s) := by
  unfold execDtmRead
  refine KeepsO.cut s (Keeps.refl _ s) fun h0 => ?_
  refine KeepsO.next ?_
  refine State.dtm_hof ?_ rfl ?_
  · intro t0 x1
    refine Keeps.ite ?_ ?_
    · refine Keeps.step (State.dtmDone_keeps ..) rfl ?_
      assumption
    · split
      · rename_i a2 a3 a4 a5
        refine Keeps.cut (a4) ?_ fun h6 => ?_
        · refine Keeps.of_snd a5 ?_
          refine Keeps.step (State.regRead_keeps ..) rfl ?_
          assumption
        refine Keeps.step (State.dtmDone_keeps ..) rfl ?_
        assumption
  assumption

theorem execDtmWrite_keeps (a v env s) : KeepsO (Fld.regs ||| Fld.hdr ||| Fld.staged ||| Fld.heldWrites ||| Fld.fencing ||| Fld.pendWas ||| Fld.log ||| Fld.out ||| Fld.irq ||| Fld.badAccTick ||| Fld.draws ||| Fld.leases ||| Fld.tide ||| Fld.tickets ||| Fld.jobs ||| Fld.plans ||| Fld.acct ||| Fld.slu ||| Fld.ctxs ||| Fld.lines ||| Fld.tags ||| Fld.qps ||| Fld.ovf ||| Fld.landing ||| Fld.rungs ||| Fld.rows ||| Fld.tiles ||| Fld.trims ||| Fld.weir ||| Fld.harbour ||| Fld.hbPoison ||| Fld.hbWritten ||| Fld.frames ||| Fld.badSlots ||| Fld.owners ||| Fld.runs ||| Fld.imports ||| Fld.tests ||| Fld.flash ||| Fld.cal ||| Fld.flashq ||| Fld.ends ||| Fld.rplChecks ||| Fld.wd ||| Fld.rungAt ||| Fld.views ||| Fld.boot ||| Fld.tap) s (execDtmWrite a v env s) := by
  unfold execDtmWrite
  refine KeepsO.cut s (Keeps.refl _ s) fun h0 => ?_
  refine KeepsO.next ?_
  refine State.dtm_hof ?_ rfl ?_
  · intro t0 x1
    refine Keeps.ite ?_ ?_
    · refine Keeps.step (State.dtmDone_keeps ..) rfl ?_
      assumption
    · refine Keeps.step (State.dtmDone_keeps ..) rfl ?_
      refine Keeps.step (State.regWrite_keeps ..) rfl ?_
      assumption
  assumption

end Sys2Proof.Machine
end

