-- ==== Sys2Proof/Laws/Recovery.lean ====
section
/-!
SUPPORT. What each function of Machine/Recovery.lean may change, and that it keeps the invariant of State.
-/
set_option linter.unusedVariables false
namespace Sys2Proof.Machine

theorem State.nextPhase_keeps (s r) : Keeps (Fld.rungs) s (State.nextPhase s r) := by
  unfold State.nextPhase
  refine Keeps.cut s (Keeps.refl _ s) fun h0 => ?_
  exact ((Keeps.set_rungs _ h0 rfl) :)

theorem State.updView_keeps (s ty inst f) : Keeps (Fld.views) s (State.updView s ty inst f) := by
  unfold State.updView
  refine Keeps.cut s (Keeps.refl _ s) fun h0 => ?_
  exact ((Keeps.set_views _ h0 rfl) :)

theorem State.warmRegs_keeps (s) : Keeps (Fld.regs) s (State.warmRegs s) := by
  unfold State.warmRegs
  refine Keeps.cut s (Keeps.refl _ s) fun h0 => ?_
  extract_lets -merge y0
  clear_value y0
  exact ((Keeps.set_regs _ h0 rfl) :)

theorem State.endReprogs_keeps (s p) : Keeps (Fld.regs ||| Fld.tiles) s (State.endReprogs s p) := by
  unfold State.endReprogs
  refine Keeps.cut s (Keeps.refl _ s) fun h0 => ?_
  refine Keeps.foldl ?_ ?_
  · intro t0 x1 h2
    refine Keeps.ite ?_ ?_
    · refine Keeps.step (State.setF_keeps ..) rfl ?_
      refine Keeps.step (State.updTx_keeps ..) rfl ?_
      assumption
    · assumption
  assumption

theorem State.dropRung_keeps (s r) : Keeps (Fld.rungs) s (State.dropRung s r) := by
  unfold State.dropRung
  refine Keeps.cut s (Keeps.refl _ s) fun h0 => ?_
  exact ((Keeps.set_rungs _ h0 rfl) :)

theorem State.retire_keeps (s p) : Keeps (Fld.tickets) s (State.retire s p) := by
  unfold State.retire
  refine Keeps.cut s (Keeps.refl _ s) fun h0 => ?_
  refine Keeps.step (State.mapTk_keeps ..) rfl ?_
  assumption

theorem State.endUpdates_keeps (s p) : Keeps (Fld.regs ||| Fld.tiles) s (State.endUpdates s p) := by
  unfold State.endUpdates
  refine Keeps.cut s (Keeps.refl _ s) fun h0 => ?_
  refine Keeps.foldl ?_ ?_
  · intro t0 x1 h2
    refine Keeps.ite ?_ ?_
    · refine Keeps.step (State.updTx_keeps ..) rfl ?_
      refine Keeps.step (State.setB_keeps ..) rfl ?_
      assumption
    · assumption
  assumption

theorem execPwrcycStuck_keeps (s) : KeepsO (Fld.regs) s (execPwrcycStuck s) := by
  unfold execPwrcycStuck
  refine KeepsO.cut s (Keeps.refl _ s) fun h0 => ?_
  refine KeepsO.next ?_
  split
  · rename_i a0 a1
    assumption
  · rename_i a2 a3 a4
    refine Keeps.ite ?_ ?_
    · refine Keeps.step (State.setB_keeps ..) rfl ?_
      assumption
    · assumption

theorem State.warmPilot_keeps (s n) : Keeps (Fld.regs) s (State.warmPilot s n) := by
  unfold State.warmPilot
  refine Keeps.cut s (Keeps.refl _ s) fun h0 => ?_
  extract_lets -merge y0
  refine Keeps.cut (y0) ?_ fun h1 => ?_
  · unfold y0
    refine Keeps.step (State.setF_keeps ..) rfl ?_
    refine Keeps.step (State.incSat_keeps ..) rfl ?_
    refine Keeps.step (State.setF_keeps ..) rfl ?_
    assumption
  clear_value y0
  refine Keeps.step (State.setB_keeps ..) rfl ?_
  refine Keeps.step (State.setReg_keeps ..) rfl ?_
  assumption

theorem State.warmCore_keeps (s) : Keeps (Fld.regs ||| Fld.shadow ||| Fld.staged ||| Fld.tide ||| Fld.tickets ||| Fld.acks ||| Fld.lines ||| Fld.landing ||| Fld.weir ||| Fld.runs ||| Fld.refetch ||| Fld.hbr ||| Fld.scrubFrom ||| Fld.dyns ||| Fld.spdm ||| Fld.rplChecks ||| Fld.wd ||| Fld.grantWas) s (State.warmCore s) := by
  unfold State.warmCore
  refine Keeps.cut s (Keeps.refl _ s) fun h0 => ?_
  extract_lets -merge y0 y1
  refine Keeps.cut (y0) ?_ fun h2 => ?_
  · unfold y0
    refine Keeps.step (State.warmRegs_keeps ..) rfl ?_
    assumption
  clear_value y0 y1
  exact Keeps.step0 (n := Fld.shadow ||| Fld.staged ||| Fld.tide ||| Fld.tickets ||| Fld.acks ||| Fld.lines ||| Fld.landing ||| Fld.weir ||| Fld.runs ||| Fld.refetch ||| Fld.hbr ||| Fld.scrubFrom ||| Fld.dyns ||| Fld.spdm ||| Fld.rplChecks ||| Fld.wd ||| Fld.grantWas) h2 rfl (by constructor <;> first | exact fun e => absurd e (by decide) | exact fun _ => rfl) fun i => ⟨i.1, i.2.1, i.2.2.1, i.2.2.2⟩

theorem State.clearMiss_keeps (s isl) : Keeps (Fld.regs) s (State.clearMiss s isl) := by
  unfold State.clearMiss
  refine Keeps.cut s (Keeps.refl _ s) fun h0 => ?_
  refine Keeps.step (State.setF_keeps ..) rfl ?_
  assumption

theorem State.closeSwaps_keeps (s p) : Keeps (Fld.regs ||| Fld.ctxs ||| Fld.swaps) s (State.closeSwaps s p) := by
  unfold State.closeSwaps
  refine Keeps.cut s (Keeps.refl _ s) fun h0 => ?_
  refine Keeps.foldl ?_ ?_
  · intro t0 x1 h2
    extract_lets -merge y3
    clear_value y3
    refine Keeps.step (State.setSwap_keeps ..) rfl ?_
    refine Keeps.step (State.setCx_keeps ..) rfl ?_
    assumption
  assumption

theorem State.rearm_keeps (s p) : Keeps (Fld.regs ||| Fld.tickets) s (State.rearm s p) := by
  unfold State.rearm
  refine Keeps.cut s (Keeps.refl _ s) fun h0 => ?_
  refine Keeps.foldl ?_ ?_
  · intro t0 x1 h2
    refine Keeps.step (State.arm_keeps ..) rfl ?_
    refine Keeps.foldl ?_ ?_
    · intro t3 x4 h5
      refine Keeps.step (State.freeTk_keeps ..) rfl ?_
      assumption
    assumption
  assumption

theorem State.abortJobs_keeps (s p) : Keeps (Fld.regs ||| Fld.leases ||| Fld.tickets ||| Fld.acks ||| Fld.jobs ||| Fld.plans ||| Fld.acct ||| Fld.ctxs ||| Fld.qps ||| Fld.landing ||| Fld.rows ||| Fld.tiles ||| Fld.harbour ||| Fld.hbPoison ||| Fld.hbWritten ||| Fld.frames ||| Fld.badSlots ||| Fld.owners ||| Fld.runs ||| Fld.imports ||| Fld.ends) s (State.abortJobs s p) := by
  unfold State.abortJobs
  refine Keeps.cut s (Keeps.refl _ s) fun h0 => ?_
  extract_lets -merge y0 y1 y2
  clear_value y0
  refine Keeps.cut (y1) ?_ fun h3 => ?_
  · unfold y1
    refine Keeps.foldl ?_ ?_
    · intro t4 x5 h6
      refine Keeps.step (State.dropImport_keeps ..) rfl ?_
      assumption
    assumption
  clear_value y1
  refine Keeps.cut (y2) ?_ fun h7 => ?_
  · unfold y2
    exact ((Keeps.set_acks _ h3 rfl) :)
  clear_value y2
  refine Keeps.foldl ?_ ?_
  · intro t8 x9 h10
    extract_lets -merge y11 y12
    clear_value y11
    refine Keeps.cut (y12) ?_ fun h13 => ?_
    · unfold y12
      refine Keeps.step (State.endJob_keeps ..) rfl ?_
      assumption
    clear_value y12
    refine Keeps.ite ?_ ?_
    · refine Keeps.step (State.unloadNow_keeps ..) rfl ?_
      assumption
    · assumption
  assumption

theorem State.stopFerry_keeps (s p q) : Keeps (Fld.regs ||| Fld.tickets ||| Fld.rows ||| Fld.tiles ||| Fld.runs) s (State.stopFerry s p q) := by
  unfold State.stopFerry
  refine Keeps.cut s (Keeps.refl _ s) fun h0 => ?_
  refine Keeps.step (State.mapTk_keeps ..) rfl ?_
  refine Keeps.step (State.dropRuns_keeps ..) rfl ?_
  assumption

theorem State.clearTks_keeps (s p) : Keeps (Fld.regs ||| Fld.leases ||| Fld.tickets ||| Fld.rows ||| Fld.tiles ||| Fld.dyns) s (State.clearTks s p) := by
  unfold State.clearTks
  refine Keeps.cut s (Keeps.refl _ s) fun h0 => ?_
  refine Keeps.foldl ?_ ?_
  · intro t0 x1 h2
    refine Keeps.step (State.freeTk_keeps ..) rfl ?_
    refine Keeps.step (State.dynEnd_keeps ..) rfl ?_
    assumption
  assumption

theorem State.endDyns_keeps (s p) : Keeps (Fld.regs ||| Fld.leases ||| Fld.tickets ||| Fld.rows ||| Fld.tiles ||| Fld.dyns) s (State.endDyns s p) := by
  unfold State.endDyns
  refine Keeps.cut s (Keeps.refl _ s) fun h0 => ?_
  refine Keeps.foldl ?_ ?_
  · intro t0 x1 h2
    extract_lets -merge y3
    clear_value y3
    refine Keeps.step (State.freeTk_keeps ..) rfl ?_
    refine Keeps.step (State.dynEnd_keeps ..) rfl ?_
    refine Keeps.foldl ?_ ?_
    · intro t4 x5 h6
      refine Keeps.step (State.freeTk_keeps ..) rfl ?_
      assumption
    assumption
  assumption

theorem State.noteRecon_keeps (s ty inst row) : Keeps (Fld.regs ||| Fld.hdr ||| Fld.log ||| Fld.out ||| Fld.irq ||| Fld.draws ||| Fld.rungs ||| Fld.rungAt) s (State.noteRecon s ty inst row) := by
  unfold State.noteRecon
  refine Keeps.cut s (Keeps.refl _ s) fun h0 => ?_
  extract_lets -merge y0
  refine Keeps.cut (y0) ?_ fun h1 => ?_
  · unfold y0
    refine Keeps.step (State.setReg_keeps ..) rfl ?_
    assumption
  clear_value y0
  refine Keeps.step (State.raise_keeps ..) rfl ?_
  refine Keeps.step (State.incSat_keeps ..) rfl ?_
  assumption

theorem State.noteOverrun_keeps (s) : Keeps (Fld.regs ||| Fld.hdr ||| Fld.log ||| Fld.out ||| Fld.irq ||| Fld.draws ||| Fld.rungs ||| Fld.rungAt) s (State.noteOverrun s) := by
  unfold State.noteOverrun
  refine Keeps.cut s (Keeps.refl _ s) fun h0 => ?_
  refine Keeps.step (State.raise_keeps ..) rfl ?_
  refine Keeps.step (State.setB_keeps ..) rfl ?_
  assumption

theorem State.dueFlrs_keeps (s) : Keeps (Fld.regs ||| Fld.hdr ||| Fld.log ||| Fld.out ||| Fld.irq ||| Fld.draws ||| Fld.tickets ||| Fld.jobs ||| Fld.plans ||| Fld.qps ||| Fld.ovf ||| Fld.landing ||| Fld.rungs ||| Fld.spdm ||| Fld.ends ||| Fld.rungAt ||| Fld.flrs) s (State.dueFlrs s) := by
  unfold State.dueFlrs
  refine Keeps.cut s (Keeps.refl _ s) fun h0 => ?_
  extract_lets -merge y0
  refine Keeps.foldl ?_ ?_
  · intro t1 x2 h3
    refine Keeps.step (State.flr_keeps ..) rfl ?_
    assumption
  exact ((Keeps.set_flrs _ h0 rfl) :)

theorem execPowerCycle_keeps (s) : KeepsO (Fld.regs ||| Fld.hdr ||| Fld.log ||| Fld.out ||| Fld.irq ||| Fld.draws ||| Fld.rungs ||| Fld.rungAt) s (execPowerCycle s) := by
  unfold execPowerCycle
  refine KeepsO.cut s (Keeps.refl _ s) fun h0 => ?_
  refine KeepsO.next ?_
  split
  · rename_i a0 a1
    assumption
  · rename_i a2 a3 a4
    refine Keeps.ite ?_ ?_
    · refine Keeps.step (State.raise_keeps ..) rfl ?_
      refine Keeps.step (State.nextPhase_keeps ..) rfl ?_
      assumption
    · refine Keeps.ite ?_ ?_
      · refine Keeps.step (State.nextPhase_keeps ..) rfl ?_
        assumption
      · assumption

theorem State.planLost_keeps (s h) : Keeps (Fld.regs ||| Fld.hdr ||| Fld.log ||| Fld.out ||| Fld.irq ||| Fld.draws ||| Fld.leases ||| Fld.tickets ||| Fld.jobs ||| Fld.plans ||| Fld.acct ||| Fld.ctxs ||| Fld.qps ||| Fld.landing ||| Fld.rungs ||| Fld.rows ||| Fld.tiles ||| Fld.harbour ||| Fld.hbPoison ||| Fld.hbWritten ||| Fld.frames ||| Fld.badSlots ||| Fld.owners ||| Fld.runs ||| Fld.ends ||| Fld.rungAt) s (State.planLost s h) := by
  unfold State.planLost
  refine Keeps.cut s (Keeps.refl _ s) fun h0 => ?_
  extract_lets -merge y0
  clear_value y0
  refine Keeps.step (State.raiseC_keeps ..) rfl ?_
  refine Keeps.step (State.unload_keeps ..) rfl ?_
  assumption

theorem State.rungEscalate_keeps (s r) : Keeps (Fld.regs ||| Fld.hdr ||| Fld.log ||| Fld.out ||| Fld.irq ||| Fld.draws ||| Fld.rungs ||| Fld.rungAt) s (State.rungEscalate s r) := by
  unfold State.rungEscalate
  refine Keeps.cut s (Keeps.refl _ s) fun h0 => ?_
  extract_lets -merge y0
  refine Keeps.cut (y0) ?_ fun h1 => ?_
  · unfold y0
    refine Keeps.step (State.dropRung_keeps ..) rfl ?_
    refine Keeps.step (State.noteEscalate_keeps ..) rfl ?_
    refine Keeps.step (State.noteOverrun_keeps ..) rfl ?_
    assumption
  clear_value y0
  split
  · rename_i a2 a3
    refine Keeps.ite ?_ ?_
    · refine Keeps.step (State.startRung_keeps ..) rfl ?_
      assumption
    · assumption
  · rename_i a4 a5
    refine Keeps.step (State.startRung_keeps ..) rfl ?_
    assumption
  · rename_i a6 a7 a8
    refine Keeps.step (State.startRung_keeps ..) rfl ?_
    assumption

theorem State.engineReset_keeps (s isl) : Keeps (Fld.regs ||| Fld.hdr ||| Fld.log ||| Fld.out ||| Fld.irq ||| Fld.draws ||| Fld.acks ||| Fld.rungs ||| Fld.rungAt) s (State.engineReset s isl) := by
  unfold State.engineReset
  refine Keeps.cut s (Keeps.refl _ s) fun h0 => ?_
  extract_lets -merge y0
  refine Keeps.cut (y0) ?_ fun h1 => ?_
  · unfold y0
    exact ((Keeps.set_acks _ h0 rfl) :)
  clear_value y0
  refine Keeps.step (State.raiseI_keeps ..) rfl ?_
  refine Keeps.step (State.incSat_keeps ..) rfl ?_
  assumption

theorem State.planReload_keeps (s h plain) : Keeps (Fld.regs ||| Fld.hdr ||| Fld.log ||| Fld.out ||| Fld.irq ||| Fld.draws ||| Fld.leases ||| Fld.tickets ||| Fld.jobs ||| Fld.plans ||| Fld.acct ||| Fld.ctxs ||| Fld.basin ||| Fld.lines ||| Fld.qps ||| Fld.landing ||| Fld.rungs ||| Fld.rows ||| Fld.tiles ||| Fld.harbour ||| Fld.hbPoison ||| Fld.hbWritten ||| Fld.frames ||| Fld.badSlots ||| Fld.owners ||| Fld.runs ||| Fld.ends ||| Fld.rungAt) s (State.planReload s h plain) := by
  unfold State.planReload
  refine Keeps.cut s (Keeps.refl _ s) fun h0 => ?_
  extract_lets -merge y0 y1 y2
  clear_value y0 y1
  refine Keeps.ite ?_ ?_
  · refine Keeps.step (State.planLost_keeps ..) rfl ?_
    assumption
  · refine Keeps.foldl ?_ ?_
    · intro t3 x4 h5
      extract_lets -merge y6 y7
      clear_value y6 y7
      split
      · rename_i a8 a9
        assumption
      · rename_i a10 a11 a12
        split
        · rename_i a13 a14 a15 a16
          refine Keeps.cut (a14) ?_ fun h17 => ?_
          · refine Keeps.of_fst a16 ?_
            refine Keeps.step (State.writeBytes_keeps ..) rfl ?_
            assumption
          refine Keeps.step (State.noteForeign_keeps ..) rfl ?_
          assumption
    assumption

theorem State.failJobs_keeps (s p) : Keeps (Fld.regs ||| Fld.hdr ||| Fld.log ||| Fld.out ||| Fld.irq ||| Fld.draws ||| Fld.tickets ||| Fld.jobs ||| Fld.rungs ||| Fld.rungAt) s (State.failJobs s p) := by
  unfold State.failJobs
  refine Keeps.cut s (Keeps.refl _ s) fun h0 => ?_
  refine Keeps.foldl ?_ ?_
  · intro t0 x1 h2
    refine Keeps.step (State.failStep_keeps ..) rfl ?_
    assumption
  assumption

theorem State.warmReload_keeps (s plain) : Keeps (Fld.regs ||| Fld.hdr ||| Fld.log ||| Fld.out ||| Fld.irq ||| Fld.draws ||| Fld.leases ||| Fld.tickets ||| Fld.jobs ||| Fld.plans ||| Fld.acct ||| Fld.ctxs ||| Fld.basin ||| Fld.lines ||| Fld.qps ||| Fld.landing ||| Fld.rungs ||| Fld.rows ||| Fld.tiles ||| Fld.harbour ||| Fld.hbPoison ||| Fld.hbWritten ||| Fld.frames ||| Fld.badSlots ||| Fld.owners ||| Fld.runs ||| Fld.ends ||| Fld.rungAt) s (State.warmReload s plain) := by
  unfold State.warmReload
  refine Keeps.cut s (Keeps.refl _ s) fun h0 => ?_
  refine Keeps.foldl ?_ ?_
  · intro t0 x1 h2
    refine Keeps.step (State.planReload_keeps ..) rfl ?_
    assumption
  assumption

theorem State.fenceEngine_keeps (s isl) : Keeps (Fld.regs ||| Fld.hdr ||| Fld.log ||| Fld.out ||| Fld.irq ||| Fld.draws ||| Fld.rungs ||| Fld.rows ||| Fld.tiles ||| Fld.tests ||| Fld.cal ||| Fld.rplChecks ||| Fld.rungAt) s (State.fenceEngine s isl) := by
  unfold State.fenceEngine
  refine Keeps.cut s (Keeps.refl _ s) fun h0 => ?_
  refine Keeps.step (State.raiseI_keeps ..) rfl ?_
  refine Keeps.step (State.onIslFence_keeps ..) rfl ?_
  refine Keeps.step (State.fenceDp_keeps ..) rfl ?_
  assumption

theorem State.partStop_keeps (s p) : Keeps (Fld.regs ||| Fld.hdr ||| Fld.log ||| Fld.out ||| Fld.irq ||| Fld.draws ||| Fld.leases ||| Fld.tickets ||| Fld.jobs ||| Fld.rungs ||| Fld.rows ||| Fld.tiles ||| Fld.runs ||| Fld.dyns ||| Fld.tests ||| Fld.rungAt ||| Fld.boot) s (State.partStop s p) := by
  unfold State.partStop
  refine Keeps.cut s (Keeps.refl _ s) fun h0 => ?_
  extract_lets -merge y0 y1 y2 y3
  refine Keeps.cut (y1) ?_ fun h4 => ?_
  · unfold y1
    refine Keeps.step (State.retire_keeps ..) rfl ?_
    refine Keeps.step (State.failJobs_keeps ..) rfl ?_
    assumption
  clear_value y1
  refine Keeps.cut (y2) ?_ fun h5 => ?_
  · unfold y2
    refine Keeps.step (State.endDyns_keeps ..) rfl ?_
    refine Keeps.step (State.stopFerry_keeps ..) rfl ?_
    assumption
  clear_value y2
  refine Keeps.cut (y3) ?_ fun h6 => ?_
  · unfold y3
    refine Keeps.step (State.abortTests_keeps ..) rfl ?_
    assumption
  clear_value y3
  refine Keeps.ite ?_ ?_
  · refine Keeps.step (State.abandonSelect_keeps ..) rfl ?_
    assumption
  · assumption

theorem State.engineSilent_keeps (s isl) : Keeps (Fld.regs ||| Fld.hdr ||| Fld.log ||| Fld.out ||| Fld.irq ||| Fld.draws ||| Fld.rungs ||| Fld.rows ||| Fld.tiles ||| Fld.tests ||| Fld.cal ||| Fld.rplChecks ||| Fld.rungAt) s (State.engineSilent s isl) := by
  unfold State.engineSilent
  refine Keeps.cut s (Keeps.refl _ s) fun h0 => ?_
  refine Keeps.step (State.fenceEngine_keeps ..) rfl ?_
  refine Keeps.step (State.setB_keeps ..) rfl ?_
  assumption

theorem State.warmStop_keeps (s) : Keeps (Fld.regs ||| Fld.hdr ||| Fld.log ||| Fld.out ||| Fld.irq ||| Fld.draws ||| Fld.leases ||| Fld.tickets ||| Fld.jobs ||| Fld.rungs ||| Fld.rows ||| Fld.tiles ||| Fld.runs ||| Fld.dyns ||| Fld.tests ||| Fld.cal ||| Fld.rungAt ||| Fld.boot) s (State.warmStop s) := by
  unfold State.warmStop
  refine Keeps.cut s (Keeps.refl _ s) fun h0 => ?_
  extract_lets -merge y0 y1
  refine Keeps.cut (y1) ?_ fun h2 => ?_
  · unfold y1
    refine Keeps.step (State.retire_keeps ..) rfl ?_
    refine Keeps.step (State.failJobs_keeps ..) rfl ?_
    assumption
  clear_value y1
  refine Keeps.step (State.calAbortRun_keeps ..) rfl ?_
  refine Keeps.step (State.abandonSelect_keeps ..) rfl ?_
  refine Keeps.step (State.abortTests_keeps ..) rfl ?_
  refine Keeps.step (State.endDyns_keeps ..) rfl ?_
  refine Keeps.step (State.stopFerry_keeps ..) rfl ?_
  assumption

theorem State.engineStop_keeps (s isl r) : Keeps (Fld.regs ||| Fld.hdr ||| Fld.log ||| Fld.out ||| Fld.irq ||| Fld.draws ||| Fld.leases ||| Fld.tickets ||| Fld.jobs ||| Fld.rungs ||| Fld.rows ||| Fld.tiles ||| Fld.dyns ||| Fld.tests ||| Fld.rungAt) s (State.engineStop s isl r) := by
  unfold State.engineStop
  refine Keeps.cut s (Keeps.refl _ s) fun h0 => ?_
  extract_lets -merge y0 y1 y2
  refine Keeps.cut (y1) ?_ fun h3 => ?_
  · unfold y1
    refine Keeps.step (State.set64_keeps ..) rfl ?_
    assumption
  clear_value y1
  refine Keeps.cut (y2) ?_ fun h4 => ?_
  · unfold y2
    refine Keeps.foldl ?_ ?_
    · intro t5 x6 h7
      refine Keeps.step (State.testAbort_keeps ..) rfl ?_
      assumption
    assumption
  clear_value y2
  refine Keeps.step (State.endDyns_keeps ..) rfl ?_
  refine Keeps.step (State.failLive_keeps ..) rfl ?_
  assumption

theorem State.ctxStop_keeps (s c) : Keeps (Fld.regs ||| Fld.hdr ||| Fld.log ||| Fld.out ||| Fld.irq ||| Fld.draws ||| Fld.leases ||| Fld.tickets ||| Fld.jobs ||| Fld.rungs ||| Fld.rows ||| Fld.tiles ||| Fld.runs ||| Fld.dyns ||| Fld.rungAt) s (State.ctxStop s c) := by
  unfold State.ctxStop
  refine Keeps.cut s (Keeps.refl _ s) fun h0 => ?_
  extract_lets -merge y0 y1
  refine Keeps.cut (y1) ?_ fun h2 => ?_
  · unfold y1
    refine Keeps.step (State.retire_keeps ..) rfl ?_
    refine Keeps.step (State.failJobs_keeps ..) rfl ?_
    assumption
  clear_value y1
  refine Keeps.step (State.endDyns_keeps ..) rfl ?_
  refine Keeps.step (State.stopFerry_keeps ..) rfl ?_
  assumption

theorem State.fenceAgain_keeps (s ty inst) : Keeps (Fld.regs ||| Fld.hdr ||| Fld.log ||| Fld.out ||| Fld.irq ||| Fld.draws ||| Fld.rungs ||| Fld.rows ||| Fld.tiles ||| Fld.tests ||| Fld.cal ||| Fld.rplChecks ||| Fld.rungAt) s (State.fenceAgain s ty inst) := by
  unfold State.fenceAgain
  refine Keeps.cut s (Keeps.refl _ s) fun h0 => ?_
  extract_lets -merge y0 y1
  clear_value y0
  refine Keeps.cut (y1) ?_ fun h2 => ?_
  · unfold y1
    refine State.updHd_hof ?_ rfl ?_
    · exact fun _ _ hx => hx
    assumption
  clear_value y1
  refine Keeps.step (State.fenceChange_keeps ..) rfl ?_
  assumption

theorem State.reconcile_keeps (s ty inst) : Keeps (Fld.regs ||| Fld.hdr ||| Fld.log ||| Fld.out ||| Fld.irq ||| Fld.draws ||| Fld.rungs ||| Fld.rows ||| Fld.tiles ||| Fld.tests ||| Fld.cal ||| Fld.rplChecks ||| Fld.rungAt ||| Fld.views) s (State.reconcile s ty inst) := by
  unfold State.reconcile
  refine Keeps.cut s (Keeps.refl _ s) fun h0 => ?_
  refine Keeps.ite ?_ ?_
  · assumption
  · extract_lets -merge y0 y1 y2 y3
    refine Keeps.cut (y0) ?_ fun h4 => ?_
    · unfold y0
      refine Keeps.ite ?_ ?_
      · refine Keeps.step (State.noteRecon_keeps ..) rfl ?_
        refine Keeps.step (State.updView_keeps ..) rfl ?_
        assumption
      · assumption
    clear_value y0
    refine Keeps.cut (y1) ?_ fun h5 => ?_
    · unfold y1
      refine Keeps.ite ?_ ?_
      · refine Keeps.step (State.noteRecon_keeps ..) rfl ?_
        refine Keeps.step (State.fenceAgain_keeps ..) rfl ?_
        assumption
      · assumption
    clear_value y1
    refine Keeps.cut (y2) ?_ fun h6 => ?_
    · unfold y2
      refine Keeps.ite ?_ ?_
      · refine Keeps.step (State.noteRecon_keeps ..) rfl ?_
        refine Keeps.step (State.updView_keeps ..) rfl ?_
        assumption
      · assumption
    clear_value y2
    refine Keeps.cut (y3) ?_ fun h7 => ?_
    · unfold y3
      refine Keeps.ite ?_ ?_
      · refine Keeps.step (State.noteRecon_keeps ..) rfl ?_
        refine Keeps.step (State.updView_keeps ..) rfl ?_
        assumption
      · assumption
    clear_value y3
    refine Keeps.ite ?_ ?_
    · refine Keeps.step (State.noteRecon_keeps ..) rfl ?_
      refine Keeps.step (State.updView_keeps ..) rfl ?_
      assumption
    · assumption

theorem State.reconcileAll_keeps (s ty n) : Keeps (Fld.regs ||| Fld.hdr ||| Fld.log ||| Fld.out ||| Fld.irq ||| Fld.draws ||| Fld.rungs ||| Fld.rows ||| Fld.tiles ||| Fld.tests ||| Fld.cal ||| Fld.rplChecks ||| Fld.rungAt ||| Fld.views) s (State.reconcileAll s ty n) := by
  unfold State.reconcileAll
  refine Keeps.cut s (Keeps.refl _ s) fun h0 => ?_
  refine Keeps.foldl ?_ ?_
  · intro t0 x1 h2
    refine Keeps.step (State.reconcile_keeps ..) rfl ?_
    assumption
  assumption

theorem execReconciliation_keeps (s) : KeepsO (Fld.regs ||| Fld.hdr ||| Fld.log ||| Fld.out ||| Fld.irq ||| Fld.draws ||| Fld.rungs ||| Fld.rows ||| Fld.tiles ||| Fld.tests ||| Fld.cal ||| Fld.rplChecks ||| Fld.rungAt ||| Fld.views ||| Fld.reconAt) s (execReconciliation s) := by
  unfold execReconciliation
  refine KeepsO.cut s (Keeps.refl _ s) fun h0 => ?_
  refine KeepsO.next ?_
  refine Keeps.ite ?_ ?_
  · assumption
  · extract_lets -merge y0
    clear_value y0
    refine Keeps.step (State.reconcileAll_keeps ..) rfl ?_
    refine Keeps.step (State.reconcileAll_keeps ..) rfl ?_
    refine Keeps.step (State.reconcileAll_keeps ..) rfl ?_
    refine Keeps.step (State.reconcileAll_keeps ..) rfl ?_
    exact ((Keeps.set_reconAt _ h0 rfl) :)

theorem State.rungRevoke_keeps (s p) : Keeps (Fld.regs ||| Fld.hdr ||| Fld.log ||| Fld.out ||| Fld.irq ||| Fld.draws ||| Fld.leases ||| Fld.tickets ||| Fld.acks ||| Fld.jobs ||| Fld.plans ||| Fld.acct ||| Fld.ctxs ||| Fld.qps ||| Fld.landing ||| Fld.rungs ||| Fld.rows ||| Fld.tiles ||| Fld.harbour ||| Fld.hbPoison ||| Fld.hbWritten ||| Fld.frames ||| Fld.badSlots ||| Fld.owners ||| Fld.runs ||| Fld.imports ||| Fld.dyns ||| Fld.tests ||| Fld.flash ||| Fld.cal ||| Fld.flashq ||| Fld.ends ||| Fld.rplChecks ||| Fld.lost ||| Fld.rungAt ||| Fld.torn) s (State.rungRevoke s p) := by
  unfold State.rungRevoke
  refine Keeps.cut s (Keeps.refl _ s) fun h0 => ?_
  refine Keeps.foldl ?_ ?_
  · intro t0 x1 h2
    refine Keeps.ite ?_ ?_
    · refine Keeps.step (State.dynReturn_keeps ..) rfl ?_
      refine Keeps.step (State.loseLease_keeps ..) rfl ?_
      assumption
    · refine Keeps.step (State.revokeLease_keeps ..) rfl ?_
      assumption
  assumption

theorem State.warmLeases_keeps (s) : Keeps (Fld.regs ||| Fld.hdr ||| Fld.log ||| Fld.out ||| Fld.irq ||| Fld.draws ||| Fld.leases ||| Fld.tickets ||| Fld.acks ||| Fld.jobs ||| Fld.plans ||| Fld.acct ||| Fld.ctxs ||| Fld.qps ||| Fld.landing ||| Fld.rungs ||| Fld.rows ||| Fld.tiles ||| Fld.harbour ||| Fld.hbPoison ||| Fld.hbWritten ||| Fld.frames ||| Fld.badSlots ||| Fld.owners ||| Fld.runs ||| Fld.imports ||| Fld.dyns ||| Fld.tests ||| Fld.flash ||| Fld.cal ||| Fld.flashq ||| Fld.ends ||| Fld.rplChecks ||| Fld.lost ||| Fld.rungAt ||| Fld.push ||| Fld.torn) s (State.warmLeases s) := by
  unfold State.warmLeases
  refine Keeps.cut s (Keeps.refl _ s) fun h0 => ?_
  extract_lets -merge y0 y1 y2 y3 y4 y5
  refine Keeps.cut (y0) ?_ fun h6 => ?_
  · unfold y0
    refine Keeps.foldl ?_ ?_
    · intro t7 x8 h9
      refine Keeps.step (State.installFail_keeps ..) rfl ?_
      refine Keeps.step (State.setSlot_keeps ..) rfl ?_
      refine Keeps.step (State.loseLease_keeps ..) rfl ?_
      assumption
    assumption
  clear_value y0
  refine Keeps.cut (y1) ?_ fun h10 => ?_
  · unfold y1
    refine Keeps.step (State.rungRevoke_keeps ..) rfl ?_
    assumption
  clear_value y1
  refine Keeps.cut (y2) ?_ fun h11 => ?_
  · unfold y2
    refine Keeps.foldl ?_ ?_
    · intro t12 x13 h14
      refine Keeps.step (State.loseLease_keeps ..) rfl ?_
      assumption
    assumption
  clear_value y2
  refine Keeps.cut (y3) ?_ fun h15 => ?_
  · unfold y3
    refine Keeps.step (State.tearWrites_keeps ..) rfl ?_
    assumption
  clear_value y3
  refine Keeps.cut (y4) ?_ fun h16 => ?_
  · unfold y4
    refine Keeps.step (State.setB_keeps ..) rfl ?_
    refine Keeps.step (State.setF_keeps ..) rfl ?_
    assumption
  clear_value y4
  refine Keeps.cut (y5) ?_ fun h17 => ?_
  · unfold y5
    refine Keeps.ite ?_ ?_
    · assumption
    · refine Keeps.step (State.setF_keeps ..) rfl ?_
      assumption
  clear_value y5
  exact ((Keeps.set_push _ h17 rfl) :)

theorem State.hangRest_keeps (s p) : Keeps (Fld.regs ||| Fld.hdr ||| Fld.log ||| Fld.out ||| Fld.irq ||| Fld.draws ||| Fld.leases ||| Fld.tickets ||| Fld.acks ||| Fld.jobs ||| Fld.plans ||| Fld.acct ||| Fld.ctxs ||| Fld.qps ||| Fld.landing ||| Fld.rungs ||| Fld.rows ||| Fld.tiles ||| Fld.harbour ||| Fld.hbPoison ||| Fld.hbWritten ||| Fld.frames ||| Fld.badSlots ||| Fld.owners ||| Fld.runs ||| Fld.dyns ||| Fld.tests ||| Fld.cal ||| Fld.ends ||| Fld.rplChecks ||| Fld.rungAt) s (State.hangRest s p) := by
  unfold State.hangRest
  refine Keeps.cut s (Keeps.refl _ s) fun h0 => ?_
  refine Keeps.foldl ?_ ?_
  · intro t0 x1 h2
    refine Keeps.ite ?_ ?_
    · assumption
    · refine Keeps.step (State.hungFree_keeps ..) rfl ?_
      assumption
  assumption

theorem State.engineClear_keeps (s isl) : Keeps (Fld.regs ||| Fld.hdr ||| Fld.log ||| Fld.out ||| Fld.irq ||| Fld.draws ||| Fld.leases ||| Fld.tickets ||| Fld.acks ||| Fld.jobs ||| Fld.plans ||| Fld.acct ||| Fld.ctxs ||| Fld.qps ||| Fld.landing ||| Fld.rungs ||| Fld.rows ||| Fld.tiles ||| Fld.harbour ||| Fld.hbPoison ||| Fld.hbWritten ||| Fld.frames ||| Fld.badSlots ||| Fld.owners ||| Fld.runs ||| Fld.imports ||| Fld.dyns ||| Fld.tests ||| Fld.flash ||| Fld.cal ||| Fld.flashq ||| Fld.ends ||| Fld.rplChecks ||| Fld.lost ||| Fld.rungAt ||| Fld.torn) s (State.engineClear s isl) := by
  unfold State.engineClear
  refine Keeps.cut s (Keeps.refl _ s) fun h0 => ?_
  extract_lets -merge y0 y1 y2 y3
  clear_value y1
  refine Keeps.cut (y2) ?_ fun h4 => ?_
  · unfold y2
    refine Keeps.step (State.clearTks_keeps ..) rfl ?_
    refine Keeps.step (State.hangRest_keeps ..) rfl ?_
    assumption
  clear_value y2
  refine Keeps.cut (y3) ?_ fun h5 => ?_
  · unfold y3
    refine Keeps.step (State.rungRevoke_keeps ..) rfl ?_
    assumption
  clear_value y3
  refine Keeps.foldl ?_ ?_
  · intro t6 x7 h8
    refine Keeps.step (State.checkEnd_keeps ..) rfl ?_
    assumption
  refine Keeps.step (State.engineReset_keeps ..) rfl ?_
  assumption

theorem State.rungDone_keeps (s r) : Keeps (Fld.regs ||| Fld.hdr ||| Fld.staged ||| Fld.heldWrites ||| Fld.fencing ||| Fld.pendWas ||| Fld.log ||| Fld.out ||| Fld.irq ||| Fld.draws ||| Fld.leases ||| Fld.tide ||| Fld.tickets ||| Fld.jobs ||| Fld.plans ||| Fld.acct ||| Fld.slu ||| Fld.ctxs ||| Fld.lines ||| Fld.tags ||| Fld.qps ||| Fld.ovf ||| Fld.landing ||| Fld.rungs ||| Fld.rows ||| Fld.tiles ||| Fld.trims ||| Fld.weir ||| Fld.harbour ||| Fld.hbPoison ||| Fld.hbWritten ||| Fld.frames ||| Fld.badSlots ||| Fld.owners ||| Fld.runs ||| Fld.imports ||| Fld.tests ||| Fld.flash ||| Fld.cal ||| Fld.flashq ||| Fld.spdm ||| Fld.ends ||| Fld.rplChecks ||| Fld.wd ||| Fld.rungAt ||| Fld.flrs ||| Fld.views ||| Fld.boot ||| Fld.tap) s (State.rungDone s r) := by
  unfold State.rungDone
  refine Keeps.cut s (Keeps.refl _ s) fun h0 => ?_
  extract_lets -merge y0 y1 y2 y3
  refine Keeps.cut (y0) ?_ fun h4 => ?_
  · unfold y0
    refine Keeps.ite ?_ ?_
    · refine Keeps.step (State.setReg_keeps ..) rfl ?_
      assumption
    · assumption
  clear_value y0
  refine Keeps.cut (y1) ?_ fun h5 => ?_
  · unfold y1
    refine Keeps.ite ?_ ?_
    · refine Keeps.step (State.noteOverrun_keeps ..) rfl ?_
      assumption
    · assumption
  clear_value y1
  refine Keeps.cut (y2) ?_ fun h6 => ?_
  · unfold y2
    refine Keeps.step (State.dropRung_keeps ..) rfl ?_
    assumption
  clear_value y2
  refine Keeps.cut (y3) ?_ fun h7 => ?_
  · unfold y3
    refine Keeps.step (State.raise_keeps ..) rfl ?_
    assumption
  clear_value y3
  refine Keeps.step (State.dueFlrs_keeps ..) rfl ?_
  refine Keeps.step (State.releaseWrites_keeps ..) rfl ?_
  refine Keeps.step (State.prtSync_keeps ..) rfl ?_
  assumption

theorem State.warmSwitch_keeps (s) : Keeps (Fld.regs ||| Fld.hdr ||| Fld.log ||| Fld.out ||| Fld.irq ||| Fld.draws ||| Fld.leases ||| Fld.tickets ||| Fld.acks ||| Fld.jobs ||| Fld.plans ||| Fld.acct ||| Fld.ctxs ||| Fld.qps ||| Fld.landing ||| Fld.rungs ||| Fld.rows ||| Fld.tiles ||| Fld.harbour ||| Fld.hbPoison ||| Fld.hbWritten ||| Fld.frames ||| Fld.badSlots ||| Fld.owners ||| Fld.runs ||| Fld.imports ||| Fld.dyns ||| Fld.tests ||| Fld.flash ||| Fld.cal ||| Fld.flashq ||| Fld.ends ||| Fld.rplChecks ||| Fld.lost ||| Fld.rungAt ||| Fld.sessions ||| Fld.torn) s (State.warmSwitch s) := by
  unfold State.warmSwitch
  refine Keeps.cut s (Keeps.refl _ s) fun h0 => ?_
  refine Keeps.ite ?_ ?_
  · refine Keeps.step (State.pilotReset_keeps ..) rfl ?_
    refine Keeps.step (State.setB_keeps ..) rfl ?_
    refine Keeps.step (State.setF_keeps ..) rfl ?_
    assumption
  · assumption

theorem State.partClear_keeps (s p r) : Keeps (Fld.regs ||| Fld.hdr ||| Fld.log ||| Fld.out ||| Fld.irq ||| Fld.draws ||| Fld.leases ||| Fld.tickets ||| Fld.acks ||| Fld.jobs ||| Fld.plans ||| Fld.acct ||| Fld.ctxs ||| Fld.qps ||| Fld.landing ||| Fld.rungs ||| Fld.rows ||| Fld.tiles ||| Fld.harbour ||| Fld.hbPoison ||| Fld.hbWritten ||| Fld.frames ||| Fld.badSlots ||| Fld.owners ||| Fld.runs ||| Fld.imports ||| Fld.dyns ||| Fld.tests ||| Fld.flash ||| Fld.cal ||| Fld.flashq ||| Fld.ends ||| Fld.rplChecks ||| Fld.lost ||| Fld.rungAt ||| Fld.torn) s (State.partClear s p r) := by
  unfold State.partClear
  refine Keeps.cut s (Keeps.refl _ s) fun h0 => ?_
  extract_lets -merge y0 y1 y2 y3 y4 y5
  refine Keeps.cut (y1) ?_ fun h6 => ?_
  · unfold y1
    refine Keeps.step (State.clearTks_keeps ..) rfl ?_
    refine Keeps.step (State.hangRest_keeps ..) rfl ?_
    assumption
  clear_value y1
  refine Keeps.cut (y2) ?_ fun h7 => ?_
  · unfold y2
    refine Keeps.step (State.rungRevoke_keeps ..) rfl ?_
    assumption
  clear_value y2
  refine Keeps.cut (y3) ?_ fun h8 => ?_
  · unfold y3
    refine Keeps.ite ?_ ?_
    · refine Keeps.step (State.calAbortRun_keeps ..) rfl ?_
      assumption
    · assumption
  clear_value y3
  refine Keeps.cut (y4) ?_ fun h9 => ?_
  · unfold y4
    refine Keeps.step (State.endUpdates_keeps ..) rfl ?_
    refine Keeps.step (State.endReprogs_keeps ..) rfl ?_
    assumption
  clear_value y4
  refine Keeps.cut (y5) ?_ fun h10 => ?_
  · unfold y5
    refine Keeps.foldl ?_ ?_
    · intro t11 x12 h13
      refine Keeps.step (State.engineReset_keeps ..) rfl ?_
      refine Keeps.step (State.set64_keeps ..) rfl ?_
      refine Keeps.step (State.setF_keeps ..) rfl ?_
      assumption
    assumption
  clear_value y5
  refine Keeps.step (State.abortJobs_keeps ..) rfl ?_
  assumption

theorem State.warmDone_keeps (s r) : Keeps (Fld.regs ||| Fld.hdr ||| Fld.staged ||| Fld.heldWrites ||| Fld.fencing ||| Fld.pendWas ||| Fld.log ||| Fld.out ||| Fld.irq ||| Fld.draws ||| Fld.leases ||| Fld.tide ||| Fld.tickets ||| Fld.jobs ||| Fld.plans ||| Fld.acct ||| Fld.slu ||| Fld.ctxs ||| Fld.lines ||| Fld.tags ||| Fld.qps ||| Fld.ovf ||| Fld.landing ||| Fld.rungs ||| Fld.rows ||| Fld.tiles ||| Fld.trims ||| Fld.weir ||| Fld.harbour ||| Fld.hbPoison ||| Fld.hbWritten ||| Fld.frames ||| Fld.badSlots ||| Fld.owners ||| Fld.runs ||| Fld.imports ||| Fld.tests ||| Fld.flash ||| Fld.cal ||| Fld.flashq ||| Fld.spdm ||| Fld.ends ||| Fld.rplChecks ||| Fld.wd ||| Fld.rungAt ||| Fld.flrs ||| Fld.views ||| Fld.boot ||| Fld.tap) s (State.warmDone s r) := by
  unfold State.warmDone
  refine Keeps.cut s (Keeps.refl _ s) fun h0 => ?_
  extract_lets -merge y0 y1 y2
  refine Keeps.cut (y0) ?_ fun h3 => ?_
  · unfold y0
    refine Keeps.foldl ?_ ?_
    · intro t4 x5 h6
      refine Keeps.step (State.engineSilent_keeps ..) rfl ?_
      assumption
    assumption
  clear_value y0
  refine Keeps.cut (y1) ?_ fun h7 => ?_
  · unfold y1
    refine Keeps.foldl ?_ ?_
    · intro t8 x9 h10
      refine Keeps.step (State.clearMiss_keeps ..) rfl ?_
      assumption
    assumption
  clear_value y1
  refine Keeps.cut (y2) ?_ fun h11 => ?_
  · unfold y2
    refine Keeps.step (State.incSatF_keeps ..) rfl ?_
    refine Keeps.step (State.setB_keeps ..) rfl ?_
    assumption
  clear_value y2
  refine Keeps.step (State.rearm_keeps ..) rfl ?_
  refine Keeps.step (State.rungDone_keeps ..) rfl ?_
  assumption

theorem State.engineDone_keeps (s isl r ok) : Keeps (Fld.regs ||| Fld.hdr ||| Fld.staged ||| Fld.heldWrites ||| Fld.fencing ||| Fld.pendWas ||| Fld.log ||| Fld.out ||| Fld.irq ||| Fld.draws ||| Fld.leases ||| Fld.tide ||| Fld.tickets ||| Fld.jobs ||| Fld.plans ||| Fld.acct ||| Fld.slu ||| Fld.ctxs ||| Fld.lines ||| Fld.tags ||| Fld.qps ||| Fld.ovf ||| Fld.landing ||| Fld.rungs ||| Fld.rows ||| Fld.tiles ||| Fld.trims ||| Fld.weir ||| Fld.harbour ||| Fld.hbPoison ||| Fld.hbWritten ||| Fld.frames ||| Fld.badSlots ||| Fld.owners ||| Fld.runs ||| Fld.imports ||| Fld.tests ||| Fld.flash ||| Fld.cal ||| Fld.flashq ||| Fld.spdm ||| Fld.ends ||| Fld.rplChecks ||| Fld.wd ||| Fld.rungAt ||| Fld.flrs ||| Fld.views ||| Fld.boot ||| Fld.tap) s (State.engineDone s isl r ok) := by
  unfold State.engineDone
  refine Keeps.cut s (Keeps.refl _ s) fun h0 => ?_
  extract_lets -merge y0 y1
  refine Keeps.cut (y0) ?_ fun h2 => ?_
  · unfold y0
    refine Keeps.ite ?_ ?_
    · assumption
    · refine Keeps.step (State.engineSilent_keeps ..) rfl ?_
      assumption
  clear_value y0
  refine Keeps.cut (y1) ?_ fun h3 => ?_
  · unfold y1
    refine Keeps.step (State.rearm_keeps ..) rfl ?_
    refine Keeps.step (State.rungDone_keeps ..) rfl ?_
    refine Keeps.step (State.clearMiss_keeps ..) rfl ?_
    assumption
  clear_value y1
  refine Keeps.ite ?_ ?_
  · refine Keeps.step (State.askIslTest_keeps ..) rfl ?_
    assumption
  · assumption

theorem State.partDone_keeps (s p r) : Keeps (Fld.regs ||| Fld.hdr ||| Fld.staged ||| Fld.heldWrites ||| Fld.fencing ||| Fld.pendWas ||| Fld.log ||| Fld.out ||| Fld.irq ||| Fld.draws ||| Fld.leases ||| Fld.tide ||| Fld.tickets ||| Fld.jobs ||| Fld.plans ||| Fld.acct ||| Fld.slu ||| Fld.ctxs ||| Fld.lines ||| Fld.tags ||| Fld.qps ||| Fld.ovf ||| Fld.landing ||| Fld.rungs ||| Fld.rows ||| Fld.tiles ||| Fld.trims ||| Fld.weir ||| Fld.harbour ||| Fld.hbPoison ||| Fld.hbWritten ||| Fld.frames ||| Fld.badSlots ||| Fld.owners ||| Fld.runs ||| Fld.swaps ||| Fld.imports ||| Fld.tests ||| Fld.flash ||| Fld.cal ||| Fld.flashq ||| Fld.spdm ||| Fld.ends ||| Fld.rplChecks ||| Fld.wd ||| Fld.rungAt ||| Fld.flrs ||| Fld.views ||| Fld.boot ||| Fld.tap) s (State.partDone s p r) := by
  unfold State.partDone
  refine Keeps.cut s (Keeps.refl _ s) fun h0 => ?_
  extract_lets -merge y0 y1 y2
  refine Keeps.cut (y0) ?_ fun h3 => ?_
  · unfold y0
    refine Keeps.foldl ?_ ?_
    · intro t4 x5 h6
      refine Keeps.step (State.engineSilent_keeps ..) rfl ?_
      assumption
    assumption
  clear_value y0
  refine Keeps.cut (y1) ?_ fun h7 => ?_
  · unfold y1
    refine Keeps.foldl ?_ ?_
    · intro t8 x9 h10
      refine Keeps.step (State.clearMiss_keeps ..) rfl ?_
      assumption
    assumption
  clear_value y1
  refine Keeps.cut (y2) ?_ fun h11 => ?_
  · unfold y2
    refine Keeps.step (State.closeSwaps_keeps ..) rfl ?_
    assumption
  clear_value y2
  refine Keeps.step (State.rearm_keeps ..) rfl ?_
  refine Keeps.step (State.rungDone_keeps ..) rfl ?_
  assumption

theorem State.ctxFinish_keeps (s c r) : Keeps (Fld.regs ||| Fld.hdr ||| Fld.staged ||| Fld.heldWrites ||| Fld.fencing ||| Fld.pendWas ||| Fld.log ||| Fld.out ||| Fld.irq ||| Fld.draws ||| Fld.leases ||| Fld.tide ||| Fld.tickets ||| Fld.acks ||| Fld.jobs ||| Fld.plans ||| Fld.acct ||| Fld.slu ||| Fld.ctxs ||| Fld.lines ||| Fld.tags ||| Fld.qps ||| Fld.ovf ||| Fld.landing ||| Fld.rungs ||| Fld.rows ||| Fld.tiles ||| Fld.trims ||| Fld.weir ||| Fld.harbour ||| Fld.hbPoison ||| Fld.hbWritten ||| Fld.frames ||| Fld.badSlots ||| Fld.owners ||| Fld.runs ||| Fld.swaps ||| Fld.imports ||| Fld.dyns ||| Fld.tests ||| Fld.flash ||| Fld.cal ||| Fld.flashq ||| Fld.spdm ||| Fld.ends ||| Fld.rplChecks ||| Fld.lost ||| Fld.wd ||| Fld.rungAt ||| Fld.flrs ||| Fld.views ||| Fld.boot ||| Fld.tap ||| Fld.torn) s (State.ctxFinish s c r) := by
  unfold State.ctxFinish
  refine Keeps.cut s (Keeps.refl _ s) fun h0 => ?_
  extract_lets -merge y0 y1 y2 y3 y4
  refine Keeps.cut (y1) ?_ fun h5 => ?_
  · unfold y1
    refine Keeps.step (State.clearTks_keeps ..) rfl ?_
    refine Keeps.step (State.hangRest_keeps ..) rfl ?_
    assumption
  clear_value y1
  refine Keeps.cut (y2) ?_ fun h6 => ?_
  · unfold y2
    refine Keeps.step (State.rungRevoke_keeps ..) rfl ?_
    assumption
  clear_value y2
  refine Keeps.cut (y3) ?_ fun h7 => ?_
  · unfold y3
    refine Keeps.step (State.abortJobs_keeps ..) rfl ?_
    assumption
  clear_value y3
  refine Keeps.cut (y4) ?_ fun h8 => ?_
  · unfold y4
    refine Keeps.step (State.closeSwaps_keeps ..) rfl ?_
    refine Keeps.step (State.endUpdates_keeps ..) rfl ?_
    assumption
  clear_value y4
  refine Keeps.step (State.rearm_keeps ..) rfl ?_
  refine Keeps.step (State.rungDone_keeps ..) rfl ?_
  assumption

theorem execPartitionRecovery_keeps (p s) : KeepsO (Fld.regs ||| Fld.hdr ||| Fld.staged ||| Fld.heldWrites ||| Fld.fencing ||| Fld.pendWas ||| Fld.log ||| Fld.out ||| Fld.irq ||| Fld.draws ||| Fld.leases ||| Fld.tide ||| Fld.tickets ||| Fld.acks ||| Fld.jobs ||| Fld.plans ||| Fld.acct ||| Fld.slu ||| Fld.ctxs ||| Fld.lines ||| Fld.tags ||| Fld.qps ||| Fld.ovf ||| Fld.landing ||| Fld.rungs ||| Fld.rows ||| Fld.tiles ||| Fld.trims ||| Fld.weir ||| Fld.harbour ||| Fld.hbPoison ||| Fld.hbWritten ||| Fld.frames ||| Fld.badSlots ||| Fld.owners ||| Fld.runs ||| Fld.swaps ||| Fld.imports ||| Fld.dyns ||| Fld.tests ||| Fld.flash ||| Fld.cal ||| Fld.flashq ||| Fld.spdm ||| Fld.ends ||| Fld.rplChecks ||| Fld.lost ||| Fld.wd ||| Fld.rungAt ||| Fld.flrs ||| Fld.views ||| Fld.boot ||| Fld.tap ||| Fld.torn) s (execPartitionRecovery p s) := by
  unfold execPartitionRecovery
  refine KeepsO.cut s (Keeps.refl _ s) fun h0 => ?_
  refine KeepsO.next ?_
  split
  · rename_i a0 a1
    assumption
  · rename_i a2 a3 a4
    refine Keeps.ite ?_ ?_
    · assumption
    · refine Keeps.ite ?_ ?_
      · refine Keeps.step (State.rungEscalate_keeps ..) rfl ?_
        assumption
      · refine Keeps.ite ?_ ?_
        · refine Keeps.step (State.nextPhase_keeps ..) rfl ?_
          refine Keeps.step (State.partStop_keeps ..) rfl ?_
          assumption
        · refine Keeps.ite ?_ ?_
          · refine Keeps.ite ?_ ?_
            · assumption
            · refine Keeps.step (State.nextPhase_keeps ..) rfl ?_
              refine Keeps.step (State.partClear_keeps ..) rfl ?_
              assumption
          · refine Keeps.ite ?_ ?_
            · assumption
            · refine Keeps.step (State.partDone_keeps ..) rfl ?_
              assumption

theorem State.warmClear_keeps (s r) : Keeps (Fld.regs ||| Fld.hdr ||| Fld.shadow ||| Fld.staged ||| Fld.log ||| Fld.out ||| Fld.irq ||| Fld.draws ||| Fld.leases ||| Fld.tide ||| Fld.tickets ||| Fld.acks ||| Fld.jobs ||| Fld.plans ||| Fld.acct ||| Fld.ctxs ||| Fld.lines ||| Fld.qps ||| Fld.landing ||| Fld.rungs ||| Fld.rows ||| Fld.tiles ||| Fld.weir ||| Fld.harbour ||| Fld.hbPoison ||| Fld.hbWritten ||| Fld.frames ||| Fld.badSlots ||| Fld.owners ||| Fld.runs ||| Fld.refetch ||| Fld.hbr ||| Fld.scrubFrom ||| Fld.swaps ||| Fld.imports ||| Fld.dyns ||| Fld.tests ||| Fld.flash ||| Fld.cal ||| Fld.flashq ||| Fld.spdm ||| Fld.ends ||| Fld.rplChecks ||| Fld.lost ||| Fld.wd ||| Fld.rungAt ||| Fld.sessions ||| Fld.push ||| Fld.torn ||| Fld.grantWas) s (State.warmClear s r) := by
  unfold State.warmClear
  refine Keeps.cut s (Keeps.refl _ s) fun h0 => ?_
  extract_lets -merge y0 y1 y2 y3 y4 y5
  refine Keeps.cut (y0) ?_ fun h6 => ?_
  · unfold y0
    refine Keeps.step (State.hangRest_keeps ..) rfl ?_
    assumption
  clear_value y0
  refine Keeps.cut (y1) ?_ fun h7 => ?_
  · unfold y1
    refine Keeps.step (State.clearTks_keeps ..) rfl ?_
    assumption
  clear_value y1
  refine Keeps.cut (y2) ?_ fun h8 => ?_
  · unfold y2
    refine Keeps.step (State.endUpdates_keeps ..) rfl ?_
    refine Keeps.step (State.endReprogs_keeps ..) rfl ?_
    assumption
  clear_value y2
  refine Keeps.cut (y3) ?_ fun h9 => ?_
  · unfold y3
    refine Keeps.foldl ?_ ?_
    · intro t10 x11 h12
      refine Keeps.step (State.engineReset_keeps ..) rfl ?_
      refine Keeps.step (State.set64_keeps ..) rfl ?_
      refine Keeps.step (State.setF_keeps ..) rfl ?_
      assumption
    assumption
  clear_value y3
  refine Keeps.cut (y4) ?_ fun h13 => ?_
  · unfold y4
    refine Keeps.step (State.warmLeases_keeps ..) rfl ?_
    refine Keeps.step (State.closeSwaps_keeps ..) rfl ?_
    refine Keeps.step (State.abortJobs_keeps ..) rfl ?_
    assumption
  clear_value y4
  refine Keeps.cut (y5) ?_ fun h14 => ?_
  · unfold y5
    refine Keeps.step (State.warmCore_keeps ..) rfl ?_
    refine Keeps.step (State.thaw_keeps ..) rfl ?_
    assumption
  clear_value y5
  refine Keeps.foldl ?_ ?_
  · intro t15 x16 h17
    refine Keeps.step (State.warmPilot_keeps ..) rfl ?_
    assumption
  refine Keeps.step (State.warmSwitch_keeps ..) rfl ?_
  assumption

theorem execChipWarmReset_keeps (plain s) : KeepsO (Fld.regs ||| Fld.hdr ||| Fld.shadow ||| Fld.staged ||| Fld.heldWrites ||| Fld.fencing ||| Fld.pendWas ||| Fld.log ||| Fld.out ||| Fld.irq ||| Fld.draws ||| Fld.leases ||| Fld.tide ||| Fld.tickets ||| Fld.acks ||| Fld.jobs ||| Fld.plans ||| Fld.acct ||| Fld.slu ||| Fld.ctxs ||| Fld.basin ||| Fld.lines ||| Fld.tags ||| Fld.qps ||| Fld.ovf ||| Fld.landing ||| Fld.rungs ||| Fld.rows ||| Fld.tiles ||| Fld.trims ||| Fld.weir ||| Fld.harbour ||| Fld.hbPoison ||| Fld.hbWritten ||| Fld.frames ||| Fld.badSlots ||| Fld.owners ||| Fld.runs ||| Fld.refetch ||| Fld.hbr ||| Fld.scrubFrom ||| Fld.swaps ||| Fld.imports ||| Fld.dyns ||| Fld.tests ||| Fld.flash ||| Fld.cal ||| Fld.flashq ||| Fld.spdm ||| Fld.ends ||| Fld.rplChecks ||| Fld.lost ||| Fld.wd ||| Fld.rungAt ||| Fld.flrs ||| Fld.sessions ||| Fld.views ||| Fld.boot ||| Fld.push ||| Fld.tap ||| Fld.torn ||| Fld.grantWas) s (execChipWarmReset plain s) := by
  unfold execChipWarmReset
  refine KeepsO.cut s (Keeps.refl _ s) fun h0 => ?_
  refine KeepsO.next ?_
  split
  · rename_i a0 a1
    assumption
  · rename_i a2 a3 a4
    refine Keeps.ite ?_ ?_
    · refine Keeps.step (State.rungEscalate_keeps ..) rfl ?_
      assumption
    · refine Keeps.ite ?_ ?_
      · refine Keeps.step (State.nextPhase_keeps ..) rfl ?_
        refine Keeps.step (State.warmStop_keeps ..) rfl ?_
        assumption
      · refine Keeps.ite ?_ ?_
        · refine Keeps.ite ?_ ?_
          · assumption
          · refine Keeps.step (State.nextPhase_keeps ..) rfl ?_
            refine Keeps.step (State.warmClear_keeps ..) rfl ?_
            assumption
        · refine Keeps.ite ?_ ?_
          · refine Keeps.ite ?_ ?_
            · refine Keeps.step (State.warmReload_keeps ..) rfl ?_
              refine Keeps.step (State.nextPhase_keeps ..) rfl ?_
              assumption
            · assumption
          · refine Keeps.ite ?_ ?_
            · assumption
            · refine Keeps.step (State.warmDone_keeps ..) rfl ?_
              assumption

theorem execEngineRecovery_keeps (isl s) : KeepsO (Fld.regs ||| Fld.hdr ||| Fld.staged ||| Fld.heldWrites ||| Fld.fencing ||| Fld.pendWas ||| Fld.log ||| Fld.out ||| Fld.irq ||| Fld.draws ||| Fld.leases ||| Fld.tide ||| Fld.tickets ||| Fld.acks ||| Fld.jobs ||| Fld.plans ||| Fld.acct ||| Fld.slu ||| Fld.ctxs ||| Fld.lines ||| Fld.tags ||| Fld.qps ||| Fld.ovf ||| Fld.landing ||| Fld.rungs ||| Fld.rows ||| Fld.tiles ||| Fld.trims ||| Fld.weir ||| Fld.harbour ||| Fld.hbPoison ||| Fld.hbWritten ||| Fld.frames ||| Fld.badSlots ||| Fld.owners ||| Fld.runs ||| Fld.imports ||| Fld.dyns ||| Fld.tests ||| Fld.flash ||| Fld.cal ||| Fld.flashq ||| Fld.spdm ||| Fld.ends ||| Fld.rplChecks ||| Fld.lost ||| Fld.wd ||| Fld.rungAt ||| Fld.flrs ||| Fld.views ||| Fld.boot ||| Fld.tap ||| Fld.torn) s (execEngineRecovery isl s) := by
  unfold execEngineRecovery
  refine KeepsO.cut s (Keeps.refl _ s) fun h0 => ?_
  refine KeepsO.next ?_
  split
  · rename_i a0 a1
    assumption
  · rename_i a2 a3 a4
    refine Keeps.ite ?_ ?_
    · assumption
    · refine Keeps.ite ?_ ?_
      · refine Keeps.step (State.fenceEngine_keeps ..) rfl ?_
        refine Keeps.step (State.dropRung_keeps ..) rfl ?_
        assumption
      · refine Keeps.ite ?_ ?_
        · refine Keeps.step (State.nextPhase_keeps ..) rfl ?_
          refine Keeps.step (State.engineStop_keeps ..) rfl ?_
          assumption
        · refine Keeps.ite ?_ ?_
          · refine Keeps.ite ?_ ?_
            · assumption
            · refine Keeps.step (State.nextPhase_keeps ..) rfl ?_
              refine Keeps.step (State.engineClear_keeps ..) rfl ?_
              assumption
          · refine Keeps.ite ?_ ?_
            · refine Keeps.step (State.engineDone_keeps ..) rfl ?_
              assumption
            · refine Keeps.ite ?_ ?_
              · assumption
              · refine Keeps.step (State.engineDone_keeps ..) rfl ?_
                assumption

theorem execContextRecovery_keeps (c s) : KeepsO (Fld.regs ||| Fld.hdr ||| Fld.staged ||| Fld.heldWrites ||| Fld.fencing ||| Fld.pendWas ||| Fld.log ||| Fld.out ||| Fld.irq ||| Fld.draws ||| Fld.leases ||| Fld.tide ||| Fld.tickets ||| Fld.acks ||| Fld.jobs ||| Fld.plans ||| Fld.acct ||| Fld.slu ||| Fld.ctxs ||| Fld.lines ||| Fld.tags ||| Fld.qps ||| Fld.ovf ||| Fld.landing ||| Fld.rungs ||| Fld.rows ||| Fld.tiles ||| Fld.trims ||| Fld.weir ||| Fld.harbour ||| Fld.hbPoison ||| Fld.hbWritten ||| Fld.frames ||| Fld.badSlots ||| Fld.owners ||| Fld.runs ||| Fld.swaps ||| Fld.imports ||| Fld.dyns ||| Fld.tests ||| Fld.flash ||| Fld.cal ||| Fld.flashq ||| Fld.spdm ||| Fld.ends ||| Fld.rplChecks ||| Fld.lost ||| Fld.wd ||| Fld.rungAt ||| Fld.flrs ||| Fld.views ||| Fld.boot ||| Fld.tap ||| Fld.torn) s (execContextRecovery c s) := by
  unfold execContextRecovery
  refine KeepsO.cut s (Keeps.refl _ s) fun h0 => ?_
  refine KeepsO.next ?_
  split
  · rename_i a0 a1
    assumption
  · rename_i a2 a3 a4
    refine Keeps.ite ?_ ?_
    · assumption
    · refine Keeps.ite ?_ ?_
      · refine Keeps.step (State.rungEscalate_keeps ..) rfl ?_
        assumption
      · refine Keeps.ite ?_ ?_
        · refine Keeps.step (State.nextPhase_keeps ..) rfl ?_
          refine Keeps.step (State.ctxStop_keeps ..) rfl ?_
          assumption
        · refine Keeps.ite ?_ ?_
          · assumption
          · refine Keeps.step (State.ctxFinish_keeps ..) rfl ?_
            assumption

end Sys2Proof.Machine
end

