-- ==== Sys2Proof/Laws/Runs.lean ====
section
/-!
SUPPORT. How a completion statement is proved: the command's meaning, what it keeps, and what the state it answers holds.
-/
namespace Sys2Proof.Machine

/-- A command runs: its answer is a next state, which keeps all outside `m` and has `P`. -/
theorem Runs.intro {c : Instr} {s t : State} {m : Nat} {P : State → Prop} {o : Host.Outcome State Fault Refusal} (he : exec c s = o)
    (ht : o = .next t) (hk : KeepsO m s o) (hp : P t) : Runs c s m P := ⟨t, he.trans ht, (hk t ht).agree, hp⟩

end Sys2Proof.Machine
end

