-- ==== Sys2Proof/Laws/Thermal.lean ====
section
/-!
SUPPORT. What each function of Machine/Thermal.lean may change, and that it keeps the invariant of State.
-/
set_option linter.unusedVariables false
namespace Sys2Proof.Machine

theorem State.setSens_keeps (s isl b) : Keeps (Fld.regs) s (State.setSens s isl b) := by
  unfold State.setSens
  refine Keeps.cut s (Keeps.refl _ s) fun h0 => ?_
  extract_lets -merge y0
  refine Keeps.cut (y0) ?_ fun h1 => ?_
  · unfold y0
    refine Keeps.step (State.setB_keeps ..) rfl ?_
    assumption
  clear_value y0
  refine Keeps.step (State.setB_keeps ..) rfl ?_
  assumption

theorem State.tjRegime_keeps (s gt) : Keeps (Fld.tiles) s (State.tjRegime s gt) := by
  unfold State.tjRegime
  refine Keeps.cut s (Keeps.refl _ s) fun h0 => ?_
  extract_lets -merge y0 y1 y2 y3
  clear_value y0 y1 y2
  refine Keeps.cut (y3) ?_ fun h4 => ?_
  · unfold y3
    refine Keeps.step (State.updTx_keeps ..) rfl ?_
    assumption
  clear_value y3
  refine Keeps.ite ?_ ?_
  · assumption
  · refine Keeps.ite ?_ ?_
    · refine Keeps.step (State.decideRegime_keeps ..) rfl ?_
      assumption
    · assumption

theorem State.substitute_keeps (s) : Keeps (Fld.draws) s (State.substitute s).2 := by
  unfold State.substitute
  refine Keeps.cut s (Keeps.refl _ s) fun h0 => ?_
  split
  · rename_i a0 a1
    split
    · rename_i a2 a3 a4 a5
      refine Keeps.cut (a4) ?_ fun h6 => ?_
      · refine Keeps.of_snd a5 ?_
        refine Keeps.step (State.nextDraw_keeps ..) rfl ?_
        assumption
      dsimp only
      assumption
  · rename_i a7 a8 a9 a10
    dsimp only
    assumption

theorem execStackTj_keeps (h t s) : KeepsO (Fld.regs ||| Fld.hbr) s (execStackTj h t s) := by
  unfold execStackTj
  refine KeepsO.cut s (Keeps.refl _ s) fun h0 => ?_
  refine KeepsO.next ?_
  extract_lets -merge y0 y1
  refine Keeps.cut (y0) ?_ fun h2 => ?_
  · unfold y0
    refine Keeps.step (State.setF_keeps ..) rfl ?_
    assumption
  clear_value y0 y1
  exact ((Keeps.set_hbr _ h2 rfl) :)

theorem State.setTj_keeps (s isl v) : Keeps (Fld.regs) s (State.setTj s isl v) := by
  unfold State.setTj
  refine Keeps.cut s (Keeps.refl _ s) fun h0 => ?_
  refine Keeps.step (State.setF_keeps ..) rfl ?_
  assumption

theorem State.fillTj_keeps (s) : Keeps (Fld.regs ||| Fld.draws) s (State.fillTj s) := by
  unfold State.fillTj
  refine Keeps.cut s (Keeps.refl _ s) fun h0 => ?_
  extract_lets -merge y0
  clear_value y0
  refine Keeps.ite ?_ ?_
  · assumption
  · split
    · rename_i a1 a2 a3 a4
      refine Keeps.cut (a3) ?_ fun h5 => ?_
      · refine Keeps.of_snd a4 ?_
        refine Keeps.step (State.substitute_keeps ..) rfl ?_
        assumption
      refine Keeps.foldl ?_ ?_
      · intro t6 x7 h8
        refine Keeps.step (State.setTj_keeps ..) rfl ?_
        assumption
      assumption

theorem State.sensFail_keeps (s isl) : Keeps (Fld.regs ||| Fld.hdr ||| Fld.log ||| Fld.out ||| Fld.irq ||| Fld.draws ||| Fld.rungs ||| Fld.rungAt) s (State.sensFail s isl) := by
  unfold State.sensFail
  refine Keeps.cut s (Keeps.refl _ s) fun h0 => ?_
  refine Keeps.ite ?_ ?_
  · assumption
  · refine Keeps.step (State.raise_keeps ..) rfl ?_
    refine Keeps.step (State.setSens_keeps ..) rfl ?_
    assumption

theorem execThmTrip_keeps (isl s) : KeepsO (Fld.regs ||| Fld.hdr ||| Fld.log ||| Fld.out ||| Fld.irq ||| Fld.draws ||| Fld.slu ||| Fld.rungs ||| Fld.rungAt) s (execThmTrip isl s) := by
  unfold execThmTrip
  refine KeepsO.cut s (Keeps.refl _ s) fun h0 => ?_
  refine KeepsO.next ?_
  refine Keeps.ite ?_ ?_
  · assumption
  · extract_lets -merge y0 y1 y2
    refine Keeps.cut (y0) ?_ fun h3 => ?_
    · unfold y0
      refine Keeps.step (State.setB_keeps ..) rfl ?_
      assumption
    clear_value y0 y1
    refine Keeps.cut (y2) ?_ fun h4 => ?_
    · unfold y2
      exact ((Keeps.set_slu _ h3 rfl) :)
    clear_value y2
    refine Keeps.step (State.raise_keeps ..) rfl ?_
    assumption

theorem execRefclkLoss_keeps (torn s) : KeepsO (Fld.regs ||| Fld.hdr ||| Fld.log ||| Fld.out ||| Fld.irq ||| Fld.draws ||| Fld.tide ||| Fld.tickets ||| Fld.jobs ||| Fld.qps ||| Fld.ovf ||| Fld.landing ||| Fld.rungs ||| Fld.rows ||| Fld.tiles ||| Fld.tests ||| Fld.ends ||| Fld.rungAt) s (execRefclkLoss torn s) := by
  unfold execRefclkLoss
  refine KeepsO.cut s (Keeps.refl _ s) fun h0 => ?_
  refine KeepsO.next ?_
  refine Keeps.ite ?_ ?_
  · assumption
  · extract_lets -merge y0 y1 y2 y3
    clear_value y0
    refine Keeps.cut (y1) ?_ fun h4 => ?_
    · unfold y1
      refine Keeps.step (State.setB_keeps ..) rfl ?_
      exact ((Keeps.set_tide _ h0 rfl) :)
    clear_value y1
    refine Keeps.cut (y2) ?_ fun h5 => ?_
    · unfold y2
      refine Keeps.ite ?_ ?_
      · refine Keeps.step (State.raise_keeps ..) rfl ?_
        refine Keeps.step (State.setB_keeps ..) rfl ?_
        assumption
      · assumption
    clear_value y2
    refine Keeps.cut (y3) ?_ fun h6 => ?_
    · unfold y3
      refine Keeps.foldl ?_ ?_
      · intro t7 x8 h9
        refine Keeps.step (State.lockLost_keeps ..) rfl ?_
        assumption
      assumption
    clear_value y3
    refine Keeps.step (State.linkDown_keeps ..) rfl ?_
    assumption

theorem State.tjFollow_keeps (s) : Keeps (Fld.regs ||| Fld.hdr ||| Fld.log ||| Fld.out ||| Fld.irq ||| Fld.draws ||| Fld.rungs ||| Fld.tiles ||| Fld.thm ||| Fld.rungAt) s (State.tjFollow s) := by
  unfold State.tjFollow
  refine Keeps.cut s (Keeps.refl _ s) fun h0 => ?_
  extract_lets -merge y0 y1 y2 y3 y4 y5 y6 y7 y8
  clear_value y1
  refine Keeps.cut (y2) ?_ fun h9 => ?_
  · unfold y2
    refine Keeps.step (State.setReg_keeps ..) rfl ?_
    assumption
  clear_value y2
  refine Keeps.cut (y3) ?_ fun h10 => ?_
  · unfold y3
    refine Keeps.ite ?_ ?_
    · refine Keeps.step (State.setF_keeps ..) rfl ?_
      assumption
    · assumption
  clear_value y3 y4
  refine Keeps.cut (y5) ?_ fun h11 => ?_
  · unfold y5
    exact ((Keeps.set_thm _ h10 rfl) :)
  clear_value y5 y6 y7
  refine Keeps.cut (y8) ?_ fun h12 => ?_
  · unfold y8
    refine Keeps.ite ?_ ?_
    · refine Keeps.step (State.raise_keeps ..) rfl ?_
      refine Keeps.step (State.setB_keeps ..) rfl ?_
      assumption
    · refine Keeps.ite ?_ ?_
      · refine Keeps.step (State.raise_keeps ..) rfl ?_
        refine Keeps.step (State.setB_keeps ..) rfl ?_
        assumption
      · assumption
  clear_value y8
  refine Keeps.foldl ?_ ?_
  · intro t13 x14 h15
    refine Keeps.step (State.checkCalTemp_keeps ..) rfl ?_
    refine Keeps.step (State.tjRegime_keeps ..) rfl ?_
    assumption
  assumption

theorem execThermalSample_keeps (temps s) : KeepsO (Fld.regs ||| Fld.hdr ||| Fld.log ||| Fld.out ||| Fld.irq ||| Fld.draws ||| Fld.rungs ||| Fld.tiles ||| Fld.thm ||| Fld.rungAt) s (execThermalSample temps s) := by
  unfold execThermalSample
  refine KeepsO.cut s (Keeps.refl _ s) fun h0 => ?_
  refine KeepsO.next ?_
  extract_lets -merge y0
  refine Keeps.cut (y0) ?_ fun h1 => ?_
  · unfold y0
    refine Keeps.foldl ?_ ?_
    · intro t2 x3 h4
      refine Keeps.ite ?_ ?_
      · extract_lets -merge y5
        clear_value y5
        refine Keeps.step (State.setTj_keeps ..) rfl ?_
        refine Keeps.step (State.setSens_keeps ..) rfl ?_
        exact ((Keeps.set_thm _ h4 rfl) :)
      · refine Keeps.step (State.sensFail_keeps ..) rfl ?_
        assumption
    assumption
  clear_value y0
  refine Keeps.step (State.tjFollow_keeps ..) rfl ?_
  refine Keeps.step (State.fillTj_keeps ..) rfl ?_
  assumption

theorem execThmSensor_keeps (isl reading s) : KeepsO (Fld.regs ||| Fld.hdr ||| Fld.log ||| Fld.out ||| Fld.irq ||| Fld.draws ||| Fld.rungs ||| Fld.tiles ||| Fld.thm ||| Fld.rungAt) s (execThmSensor isl reading s) := by
  unfold execThmSensor
  refine KeepsO.cut s (Keeps.refl _ s) fun h0 => ?_
  refine KeepsO.next ?_
  extract_lets -merge y0
  clear_value y0
  refine Keeps.ite ?_ ?_
  · refine Keeps.step (State.tjFollow_keeps ..) rfl ?_
    refine Keeps.step (State.fillTj_keeps ..) rfl ?_
    refine Keeps.step (State.sensFail_keeps ..) rfl ?_
    assumption
  · assumption

end Sys2Proof.Machine
end

