-- ==== Sys2Proof/Laws/Step.lean ====
section
/-!
SUPPORT. What each function of Machine/Step.lean may change, and that it keeps the invariant of State.
-/
set_option linter.unusedVariables false
namespace Sys2Proof.Machine

theorem State.withFetchWord_keeps (s nbits w) : Keeps (Fld.pending) s (State.withFetchWord s nbits w) := by
  unfold State.withFetchWord
  refine Keeps.cut s (Keeps.refl _ s) fun h0 => ?_
  split
  · rename_i a0 a1 a2
    exact ((Keeps.set_pending _ h0 rfl) :)
  · rename_i a3 a4
    assumption

end Sys2Proof.Machine
end

