-- ==== Sys2Proof/Tests/Slice0.lean ====
section
/-!
SUPPORT. Tests: a witness for the hypotheses of every statement, an ill-formed term for each check of WellFormed, and that no word spells a command.
-/
namespace Sys2Proof.Tests
open Sys2Proof.Machine
set_option linter.unusedVariables false
set_option Elab.async false

/-- The tide is locked. -/
def stTide : State := (State.reset.setB Reg.TID_STS 2 true).setB Reg.TID_STS 0 true
/-- A row whose levels all stand at the middle. -/
def rowT : RowRec := { levels := List.replicate 528 32#8, term := rowTerm 0 (List.replicate 528 32#8), valid := true }
/-- Tile 3 in service at tick 12,200: not released, its delay line locked. -/
def stTile : State := { ((State.reset.setReg (Reg.TIL_RFSH_STS 3) 0).setReg (Reg.TIL_RFSH_PTR 3) 0).setB (Reg.TIL_STS 3) 5 true |>.setF (Reg.TIL_RFSH_CTL 3) 8 6 0 with count := 12200 }
/-- Tile 3 as in `stTile`, with the first basin page of island 0 given to context 1: a value row (3.0, 5.0) at byte 0, an INT8 row of 4 at 128. -/
def stRow : State :=
  let s := { stTile with tags := [(0, 2)] }
  let s := (s.writeRowAt 0 1 0 (packVals [fInt 3 0, fInt 5 0]) { fmt := 3, len := 2 } none).1
  (s.writeRowAt 0 1 128 [1, 2, 3, 250] { fmt := 0, len := 4, scale := 0x3F80 } none).1
/-- A delivered pulse with one spill row to read. -/
def stAck : AckRec :=
  { job := 0, desc := 0, iter := 0, phase := 0, tile := 3, ctx := 0, mode := 0, ex := {}, samp := {}, counts := [], status := 0, launch := 0, slot := 9, spills := [⟨0, 0x3F80, 0, []⟩] }
/-- A pulse's acknowledgement with every count at its middle. -/
def ackD : AckRec :=
  { job := 0, desc := 0, iter := 0, phase := 0, tile := 3, ctx := 1, mode := 0, ex := {}, samp := { tol := 1 }, counts := List.replicate 528 32, status := 0, launch := 0, slot := 9 }
/-- The same with one count off. -/
def ackB : AckRec := { ackD with counts := List.replicate 8 60 ++ List.replicate 520 32 }
/-- The same, kept for its repeat. -/
def ackR : AckRec := { ackB with repKey := 2 ^ 20, dtk := [{ state := 3 }] }
/-- Plan 1 of context 1: one plan island, one ferry command of each step on it. -/
def stPlan : State := stTile.setPlan 1 { live := true, ctx := 1, hdr := [1, 1, 0, 0], cmds := [[1, 0, 1, 0]] }
/-- A replacement of context 1's weights by plan 1 that rewrites its first layer next. -/
def stSwap : Swap := { ctx := 1, old := 0, new := 1, job := 0, closedAt := 0, held := [] }
/-- A manifest with the given sections and key. -/
def mani (key : Nat) (sects : List (List Byte)) : List Byte :=
  [0x4C, 0x52, 0x57, 0x49, 1, 0, BitVec.ofNat 8 sects.length, 0] ++ List.replicate 10 0 ++ leBytes key 2 ++ List.replicate 44 0 ++ padTo 128 [1, 1]
    ++ sects.flatMap (padTo 128) ++ List.replicate 96 0
/-- A replica plan of `n` replicas in context 1, on islands 0, 8, 16. -/
def stRpl (n : Nat) : State := (stPlan.setPlan 1 { (stPlan.plan 1) with hdr := [1, BitVec.ofNat 8 n, 0, 0] }).setReg (Reg.ISL_RPL_CFG 0) (BitVec.ofNat 32 (0x10009 + 2 * n))
/-- The reference is present; no run. -/
def stCal : State := State.reset.setB Reg.CAL_STS 4 true
/-- A launched DYN call on island 0 (KIN 2, N 4, M 1, one group), its parameter block in line 0 of context 1. -/
def stDyn : State :=
  let s := { stTile with tags := [(0, 2)] }
  (s.writeBytes 0 1 0 [0, 1, 0, 0, 2, 0, 4, 0, 1, 0, 1, 0, 4, 0, 4, 0, 1, 0, 1, 0, 1, 0] false).1.setTk 0
    { state := 3, action := 0x30, ctx := 1, launch := 12200, call := [1, 0, 0], inA := 512, auxA := 1024, outA := 2048, slot := 40 }
/-- The call decided: its block is still to be prepared, or stands on tile 12 after `n` row writes. -/
def stDynRun (p : DynPos) : State :=
  { (stDyn.setB (Reg.TIL_STS 12) 5 true).setAc 0 { lvlA := 4000, lvlC := 4000 } with dyns := [(0, { t0 := 12200, pos := [p], total := 1 })] }
/-- The part is OPERATIONAL; owner 0 has a key; context 1 is FREE and configured for partition 0, one page and two frames. -/
def stOp : State :=
  { ((State.reset.setB Reg.BOOT_STS 5 true).setReg (Reg.CTX_CFG 1) 0x10000).setReg (Reg.CTX_WIN 1) 2 with ownerKeys := [(0, { used := true })] }
/-- Context 1 is KEYED, with queue 3: 8 entries each, two entries to fetch. -/
def stQ : State :=
  { stPlan.setReg (Reg.CTX_STS 1) 2 with qps := [(19, { enabled := true, sqN := 8, cqN := 8, sqBase := 4096, cqBase := 8192, tail := 2 })] }
/-- An entry: its first bytes, zeros, and CHK. -/
def ent (b : List Byte) : List Byte := padTo 60 b ++ leBytes (crc32c (padTo 60 b)).toNat 4
/-- The body of a profile of one partition. -/
def profBody : List Byte :=
  padTo 256 (padTo 32 [1, 1, 0, 0, 0xBC, 2, 0x52, 3, 0, 0, 0, 0, 60, 0, 250, 0] ++ [0, 0, 8, 8, 0, 1])
/-- Flash cells of a byte string. -/
def cellsOf (a : Nat) (bs : List Byte) : List Host.Cell :=
  ((List.range bs.length).map fun i => (a + i, bs.getD i 0)).filter fun c => c.2 != 0xFF
/-- The CRC of the body. -/
def profCrc : Word := 0x429FF6A6#32
/-- The header of its record, SEQ 1 (R1026). -/
def profHeader : List Byte :=
  let b := leBytes recMagic 4 ++ leBytes 2 2 ++ leBytes 1 2 ++ leBytes 1 4 ++ leBytes 256 4 ++ leBytes profCrc.toNat 4 ++ padTo 40 []
  b ++ leBytes (crc32c b).toNat 4
/-- A flash whose first profile slot holds a profile. -/
def profFlash : List Host.Cell := cellsOf 0x1000000 profHeader ++ cellsOf 0x1000040 profBody
/-- PROF_BUF holds a profile. -/
def profRegs : List (Nat × Word) := ((List.range 64).map fun i => (Reg.BOOT_PROF_BUF i, BitVec.ofNat 32 (leAt profBody (4 * i) 4))).filter fun e => e.2 != 0
/-- Session 7 is open on the Ethernet port, owned by management key 0, subscribed to every class; P1 runs. -/
def stCsw : State :=
  { ((State.reset.setF (Reg.PIL_STS 1) 0 2 1).setB Reg.CSW_STS 0 true).setB Reg.CSW_CTL 0 true with
    boot := { aon := true, pwrgd := true }, sessions := [{ id := 7, key := 0, i3c := false, last := 0, tx := 1, sub := 1, next := 1 }] }
/-- Its session. -/
def seCsw : Session := { id := 7, key := 0, i3c := false, last := 0, tx := 1, sub := 1, next := 1 }
/-- The I3C port in service, no session. -/
def stI3c : State := { (State.reset.setF (Reg.PIL_STS 1) 0 2 1).setB Reg.CSW_CTL 1 true with boot := { aon := true, pwrgd := true } }
/-- The debug port is open. -/
def stDbg : State := { State.reset with regs := [(Reg.DBG_STS, 6)], boot := { aon := true, pwrgd := true } }
/-- UNLOCKED, the core domain without power. -/
def stUnl : State := { State.reset with regs := [(Reg.DBG_STS, 6)] }
/-- LOCKED. -/
def stLck : State := { State.reset with regs := [(Reg.DBG_STS, 5)] }
/-- A rung in progress, P4 running. -/
def stRung (r : Rung) : State := { State.reset.setF (Reg.PIL_STS 4) 0 2 1 with rungs := [r] }

/-! ## Ill-formed commands: one for each check, refused by it -/

theorem test_wf_resyncWord : Instr.wf (.resyncWord [3, 3] []) = false := by decide
theorem test_wf_resyncWord_silent : Instr.wf (.resyncWord [] [63, 0, 63]) = false := by decide
theorem test_wf_loadPlan (m : List Byte) (h : 65824 < m.length) : Instr.wf (.loadPlan 0 m true true) = false := by
  simp only [Instr.wf, bytesAtMost]
  exact decide_eq_false (Nat.not_le.mpr h)
theorem test_wf_harbourReadDone : Instr.wf (.harbourReadDone 37748736 0 [] true 0) = false := by decide
theorem test_wf_ferryDelivery : Instr.wf (.ferryDelivery 0 0 393345) = false := by decide
theorem test_wf_ferryRowWrite : Instr.wf (.ferryRowWrite 0 0 (List.replicate 383 0)) = false := by decide +kernel
theorem test_wf_fastEntry : Instr.wf (.fastEntry 1 0 (List.replicate 63 0)) = false := by decide
theorem test_wf_pushPayloadWrite : Instr.wf (.pushPayloadWrite 1 0 4095 [1, 2]) = false := by decide
theorem test_wf_leaseRenew : Instr.wf (.leaseRenew 2 64 0) = false := by decide
theorem test_wf_leaseRenew_partition : Instr.wf (.leaseRenew 3 8 0) = false := by decide
theorem test_wf_leaseRenew_strait : Instr.wf (.leaseRenew 1 256 0) = false := by decide
theorem test_wf_leaseExpiry : Instr.wf (.leaseExpiry 4 1024 0 true) = false := by decide
theorem test_wf_leaseExpiry_vault : Instr.wf (.leaseExpiry 5 1 0 true) = false := by decide
theorem test_wf_leaseLost : Instr.wf (.leaseLost 0 0 0) = false := by decide
theorem test_wf_thermalSample : Instr.wf (.thermalSample [(5, 40), (5, 41)]) = false := by decide
theorem test_wf_refclkLoss : Instr.wf (.refclkLoss [1023, 1023]) = false := by decide
theorem test_wf_harbourTrained : Instr.wf (.harbourTrained [5, 5]) = false := by decide
theorem test_wf_mgmtKeySet : Instr.wf (.mgmtKeySet 0 0 0 0 (List.replicate 97 0) true) = false := by decide
theorem test_wf_cswWrite_none : Instr.wf (.cswWrite 0 0 0 [] {}) = false := by decide
theorem test_wf_cswWrite_many : Instr.wf (.cswWrite 0 0 0 (List.replicate 65 0) {}) = false := by decide
theorem test_wf_patData : Instr.wf (.patData 0 0 0 (List.replicate 1025 0)) = false := by decide +kernel
theorem test_wf_fwData : Instr.wf (.fwData 0 0 0 (List.replicate 1025 0) true) = false := by decide +kernel
theorem test_wf_send : Instr.wf (.send 0 0 [1, 1] []) = false := by decide
theorem test_wf_send_dst : Instr.wf (.send 0 0 [] [31, 31]) = false := by decide
theorem test_wf_standardPulse : Instr.wf (.standardPulse 0 0 [(1024, 1)]) = false := by decide
theorem test_wf_extendedPulse : Instr.wf (.extendedPulse 0 0 [(1024, 1)]) = false := by decide
theorem test_wf_transposePhase : Instr.wf (.transposePhase 0 0 [(1024, 1)]) = false := by decide
theorem test_wf_dynSubPulse : Instr.wf (.dynSubPulse 0 0 0 [(1024, 1)]) = false := by decide
theorem test_wf_importSection (data : List Byte) (h : 100696064 < data.length) : Instr.wf (.importSection 0 data true true) = false := by
  simp only [Instr.wf, bytesAtMost]
  exact decide_eq_false (Nat.not_le.mpr h)

/-! ## No word spells a command: every row of the table has an empty field list -/

theorem test_no_table_word (nbits w : Nat) : decodeTableWord nbits w = none := rfl
theorem test_withFetchWord (s : State) (nbits w : Nat) : s.withFetchWord nbits w = s := rfl

/-! ## Check words that are not computed here: an entry's CHK and a block's check word as symbols -/

/-- The check word of an empty block. -/
def zeroWord : Nat := (blockWord (({} : Landing).data 0)).toNat
/-- The bytes of a fast-lane entry before ARG. -/
def fastHead : List Byte := [1, 4, 0, 0, 1] ++ List.replicate 35 0
theorem leAt_word (q : List Byte) (v n k : Nat) (hq : q.length = n) : leAt (q ++ leBytes v 4 ++ List.replicate k 0) n 4 = v % 2 ^ 32 := by
  subst hq
  have h : ((q ++ leBytes v 4 ++ List.replicate k 0).drop q.length).take 4 = leBytes v 4 := by
    rw [List.append_assoc, List.drop_left]
    exact List.take_left' rfl
  rw [leAt, h]
  simp only [leBytes, ofLe, BitVec.toNat_ofNat]
  omega
theorem ent_ok (b : List Byte) : entryOk (padTo 64 (ent b)) = true := by
  have hq : (padTo 60 b).length = 60 := by simp [padTo]
  have h4 : (leBytes (crc32c (padTo 60 b)).toNat 4).length = 4 := rfl
  unfold ent
  generalize padTo 60 b = q at *
  generalize hv : (crc32c q).toNat = v at *
  have hp : padTo 64 (q ++ leBytes v 4) = q ++ leBytes v 4 := by
    unfold padTo
    exact List.take_left' (by simp [hq, h4])
  have ht : (q ++ leBytes v 4).take 60 = q := List.take_left' hq
  have hl := leAt_word q v 60 0 hq
  simp only [List.replicate_zero, List.append_nil] at hl
  have : v < 2 ^ 32 := by rw [← hv]; exact BitVec.isLt _
  simp only [entryOk, hp, ht, hl, hv, decide_eq_true_eq]
  omega
theorem fast_arg : leAt (padTo 64 (ent (fastHead ++ leBytes zeroWord 4))) 40 4 = zeroWord := by
  have h : ∀ v w : Nat, leAt (padTo 64 (padTo 60 (fastHead ++ leBytes v 4) ++ leBytes w 4)) 40 4 = v % 2 ^ 32 := by
    intro v w
    have : padTo 64 (padTo 60 (fastHead ++ leBytes v 4) ++ leBytes w 4) = fastHead ++ leBytes v 4 ++ (List.replicate 16 0 ++ leBytes w 4) := rfl
    rw [this]
    have h : ((fastHead ++ leBytes v 4 ++ (List.replicate 16 0 ++ leBytes w 4)).drop 40).take 4 = leBytes v 4 := rfl
    rw [leAt, h]
    simp only [leBytes, ofLe, BitVec.toNat_ofNat]
    omega
  exact (h _ _).trans (Nat.mod_eq_of_lt (BitVec.isLt _))

/-! ## The check of a profile record in pieces of 64 bytes -/

/-- One byte of R294. -/
def crcByte (c : Word) (b : Byte) : Word := (List.range 8).foldl (fun c _ => crcShift 0x82F63B78#32 c) (c ^^^ b.setWidth 32)
theorem crc_cut (l : List Byte) (c d : Word) (n : Nat) (h : (l.take n).foldl crcByte c = d) : l.foldl crcByte c = (l.drop n).foldl crcByte d := by
  rw [← h, ← List.foldl_append, List.take_append_drop]
theorem crc32c_eq (l : List Byte) : crc32c l = ~~~ (l.foldl crcByte 0xFFFFFFFF#32) := rfl
theorem profBody_crc : crc32c profBody = profCrc := by
  have h1 : (profBody.take 64).foldl crcByte 0xFFFFFFFF#32 = 0xAB802A45#32 := by decide +kernel
  have h2 : ((profBody.drop 64).take 64).foldl crcByte 0xAB802A45#32 = 0x8A3AEB08#32 := by decide +kernel
  have h3 : (((profBody.drop 64).drop 64).take 64).foldl crcByte 0x8A3AEB08#32 = 0x0FFF3C74#32 := by decide +kernel
  have h4 : (((profBody.drop 64).drop 64).drop 64).foldl crcByte 0x0FFF3C74#32 = ~~~ profCrc := by decide +kernel
  rw [crc32c_eq, crc_cut _ _ _ _ h1, crc_cut _ _ _ _ h2, crc_cut _ _ _ _ h3, h4, BitVec.not_not]
/-- The state whose first profile slot holds `profBody`. -/
def stProf : State := { State.reset.setB Reg.BOOT_STS 5 true with flash := profFlash }
theorem prof_body : stProf.flashBytes (profBase 0 + 64) (leAt (stProf.flashBytes (profBase 0) 64) 12 4) = profBody := by decide +kernel
theorem prof_slot : stProf.slotRec 2 (profBase 0) (fun _ b => profileOk 0 b) = some (1, stProf.flashBytes (profBase 0) 64, profBody) := by
  have h1 : (leAt (stProf.flashBytes (profBase 0) 64) 16 4 != profCrc.toNat || !profileOk 0 profBody) = false := by decide +kernel
  have h2 : leAt (stProf.flashBytes (profBase 0) 64) 8 4 = 1 := by decide +kernel
  unfold State.slotRec
  rw [if_neg (by decide +kernel)]
  simp only [prof_body, profBody_crc, h1, h2]
  rfl
theorem prof_other : stProf.slotRec 2 (profBase 0 + 0x10000) (fun _ b => profileOk 0 b) = none := by decide +kernel
theorem read_first (s : State) (p q : Nat) (h b : List Byte) (h0 : s.slotRec 2 (profBase p) (fun _ b => profileOk p b) = some (q, h, b))
    (h1 : s.slotRec 2 (profBase p + 0x10000) (fun _ b => profileOk p b) = none) : (s.readProfile p).2 = some (parseProfile p b) := by
  simp only [State.readProfile, State.readPair, State.pairRec, h0, h1, Option.map]
theorem prof_read : (stProf.readProfile 0).2 = some (parseProfile 0 profBody) := read_first _ _ _ _ _ prof_slot prof_other
/-- Levels at the middle, and the last row of a tile with them. -/
def midLevels : List Byte := List.replicate 528 32#8
def rowLast : RowRec := { levels := midLevels, term := rowTerm 1023 midLevels, valid := true }
theorem last_row {s : State} (h : s.rows = [(4095, rowLast)]) : s.row 3 1023 = rowLast := by
  simp only [State.row, h]
  rfl
theorem last_term {s : State} (h : s.rows = [(4095, rowLast)]) (g r : Nat) (dv : List (Nat × Byte)) (hg : g = 3) (hr : r = 1023) (hd : dv = []) :
    rowTerm r (override (s.row g r).levels dv) = (s.row g r).term := by
  subst hg hr hd
  rw [last_row h]
  simp only [override, List.foldl_nil, rowLast]
theorem word_ne (w : Word) : w ≠ w + 1 := by
  intro h
  have := congrArg BitVec.toNat h
  simp only [BitVec.toNat_add] at this
  have := w.isLt
  simp at *

/-! ## Witnesses: a state and operands that meet the hypotheses of each clause -/

theorem wit_stepRunsFront : ∃ (c : Instr) (q : List Instr) (s : State), s.pending = c :: q :=
  ⟨.tideTick, [], { State.reset with pending := [.tideTick] }, rfl⟩

theorem wit_stepRunsFrontIdle : ∃ s : State, s.pending = [] :=
  ⟨State.reset, rfl⟩

theorem wit_stepKeepsInvariant : ∃ s t : State, s.Inv ∧ step s = .next t :=
  ⟨{ State.reset with pending := [.tideTick] }, _, ⟨rfl, rfl, rfl, rfl, rfl⟩, rfl⟩

theorem wit_queueDrains : ∃ s : State, s.Inv ∧ s.pending ≠ [] :=
  ⟨{ State.reset with pending := [.tideTick, .bootPwrgdLoss] }, ⟨rfl, rfl, rfl, rfl, rfl⟩, by decide +kernel⟩

theorem wit_raiseSetsRawAndPend : ∃ (ty inst n : Nat), (eventCode ty n).isSome = true ∧ n < 32 ∧ inst < 1024 :=
  ⟨4, 1023, 12, by decide +kernel⟩

theorem wit_evtPendAndEnable : ∃ (rq : Requester) (ty : Fin 21) (inst : Fin 1024) (s : State), inst.val < instCount ty.val ∧ s.pageReset ty inst = false ∧ s.stdWriter rq = true :=
  ⟨.causeway, 4, 1023, State.reset, by decide +kernel⟩

theorem wit_faultNFollowsClassFour : ∃ (ty inst n code : Nat), eventCode ty n = some code ∧ codeClass code = 4 ∧ n < 32 ∧ inst < 1024 :=
  ⟨15, 0, 9, 0x4169, by decide +kernel⟩

theorem wit_faultNStays : ∃ s : State, s.fatalRaw = true :=
  ⟨State.reset.updHd 15 0 fun h => { h with raw := 0xFFFFFFFF }, by decide +kernel⟩

theorem wit_pairReadsLow : ∃ (rq : Requester) (a : Fin 268435456), a.val < 0x5400000 ∧ implementedFor rq a = true ∧ mayRead rq a = true ∧ isLow a = true :=
  ⟨.fn 0, 0x2000048, by decide +kernel⟩

theorem wit_pairReadsHigh : ∃ (rq : Requester) (b : Fin 268435456), b.val < 0x5400000 ∧ implementedFor rq b = true ∧ mayRead rq b = true ∧ isHigh b = true :=
  ⟨.fn 0, 0x200004C, by decide +kernel⟩

theorem wit_pairReadsKey : ∃ (rq rq' : Requester) (a b : Nat), a < 0x5400000 ∧ b < 0x5400000 ∧ halfKey rq a = halfKey rq' b :=
  ⟨.causeway, .causeway, 0x53FFFFC, 0x53FF000, by decide +kernel⟩

theorem wit_peekAperture : ∃ (rq : Requester) (a : Fin 268435456) (b : Nat) (s : State), (rq = .causeway ∨ rq = .debug) ∧ peekOf a = some b ∧ implementedFor rq b = true ∧
    (isHigh b = false ∨ (Store.get halfNone s.shadow (halfKey rq b)).valid = false) :=
  ⟨.debug, 0x9000040, 0x5000040, State.reset, by decide +kernel⟩

theorem wit_vfWrite : ∃ (f : Ctx) (a : Fin 268435456) (s : State), f.val ≠ 0 ∧ implementedFor (.fn f) a = true ∧ s.pageReset (adrType a) (adrInst a) = false ∧
    isBank a = false ∧ ¬ (adrType a = 19 ∧ adrInst a = f.val) :=
  ⟨63, 0x4C3E040, State.reset, by decide +kernel⟩

theorem wit_vfRead : ∃ (f : Ctx) (a : Fin 268435456), f.val ≠ 0 ∧ a.val < 0x5400000 ∧ implementedFor (.fn f) a = true ∧ ¬ (adrType a = 19 ∧ adrInst a = f.val) ∧
    ¬ (adrType a = 10 ∧ (adrOff a < 0x40 ∨ isBank a = true)) :=
  ⟨1, 0x2800140, by decide +kernel⟩

theorem wit_debugWrite : ∃ (a : Fin 268435456) (s : State), s.dbgOpen = false ∧ implementedFor .debug a = true ∧ s.pageReset (adrType a) (adrInst a) = false ∧
    (adrType a = 17 → adrOff a ≤ 0x40) :=
  ⟨0x4400040, { State.reset with regs := [(Reg.DBG_STS, 1)] }, by decide +kernel⟩

theorem wit_debugDmi : ∃ s : State, s.dbgOpen = false :=
  ⟨{ State.reset with regs := [(Reg.DBG_STS, 1)] }, by decide +kernel⟩

theorem wit_debugDtm : ∃ s : State, s.getF Reg.DBG_STS 0 2 = 0 :=
  ⟨{ State.reset with regs := [(Reg.DBG_STS, 0)] }, by decide +kernel⟩

theorem wit_messageDropped : ∃ (c : Instr) (sid seq : Word) (s : State), inSession c = some (sid, seq) ∧ s.drops sid seq = true :=
  ⟨.telemetry 9 1, 9, 1, stCsw, by decide +kernel⟩

theorem wit_storageWrittenOnlyBy : ∃ c : Instr, mayWriteFlash c = false ∧ mayWriteBasin c = false ∧ mayWriteHarbour c = false ∧ mayWriteTrims c = false ∧
    mayWriteProfile c = false ∧ mayWriteOwnerKeys c = false ∧ mayWriteMgmtKeys c = false ∧ mayWriteSessions c = false ∧ mayWriteCount c = false :=
  ⟨.tapReset, by decide +kernel⟩

theorem wit_basinReadAfterWrite : ∃ (s : State) (isl ctx adr : Nat) (bs : List Byte), Store.wf tagNone s.tags = true ∧ bs ≠ [] ∧ ∀ l, l ≤ (adr + bs.length - 1) / 64 →
    adr / 64 ≤ l → (s.physLine isl ctx l).isSome = true :=
  ⟨{ State.reset with tags := [(0, 2)] }, 0, 1, 4094, [7, 9], by decide +kernel⟩

theorem wit_basinForeign : ∃ (s : State) (isl ctx l : Nat), s.physLine isl ctx l = none :=
  ⟨{ State.reset with tags := [(0, 2)] }, 0, 1, 64, by decide +kernel⟩

theorem wit_rillOpsKeepOtherContexts : ∃ (c : Instr) (isl : Isl) (idx : TktIx) (s : State), rillTicket c = some (isl, idx) ∧ Store.wf tagNone s.tags = true ∧ ∃ l, l < 2 ∧
    (s.physLine isl 1 l).isSome = true :=
  ⟨.quant 0 0, 0, 0, stRow, by decide +kernel⟩

theorem wit_vddAonGood : ∃ (mode : Fin 3) (sigA sigB : Bool) (s : State), s.boot.aon = false :=
  ⟨1, true, true, State.reset, by decide +kernel⟩

theorem wit_vddAonLoss : ∃ (s : State), s.boot.aon = true :=
  ⟨{ stRow with boot := { aon := true } }, by decide +kernel⟩

theorem wit_pwrgdInAssert : ∃ (other pat0 pat1 : Bool) (s : State), s.boot.aon = true ∧ s.boot.pwrgd = false :=
  ⟨true, true, true, { State.reset with boot := { aon := true, step := 4 } }, by decide +kernel⟩

theorem wit_bootAttemptFail : ∃ (other pat0 pat1 : Bool) (s : State), s.boot.pwrgd = true ∧ s.operational = false ∧ 6 ≤ s.boot.step ∧ s.getF Reg.BOOT_STS 0 4 ≠ 15 :=
  ⟨false, true, true, { stRow with boot := { aon := true, pwrgd := true, step := 6 } }, by decide +kernel⟩

theorem wit_bootPwrgdLoss : ∃ (s : State), s.boot.pwrgd = true :=
  ⟨{ stRow with boot := { aon := true, pwrgd := true, step := 6 } }, by decide +kernel⟩

theorem wit_perstNDeassert : ∃ (s : State), s.boot.aon = true ∧ s.boot.perst = true :=
  ⟨{ State.reset.setF Reg.BOOT_STS 0 4 3 with boot := { aon := true, pwrgd := true, step := 6 } }, by decide +kernel⟩

theorem wit_perstNAssert : ∃ (s : State), s.boot.aon = true ∧ s.boot.perst = false :=
  ⟨{ (stQ.setB Reg.BOOT_STS 4 true).setB Reg.HIF_LINK_STS 11 true with boot := { aon := true, perst := false } }, by decide +kernel⟩

theorem wit_profselSampleEnd : ∃ (first : Fin 4) (disagree : Fin 64) (s : State),
    let n := if disagree.val = 0 then first.val else 0;
    s.boot.sampling = true :=
  ⟨0, 0, { State.reset with boot := { aon := true, pwrgd := true, step := 6, sampling := true }, flash := profFlash }, by decide +kernel⟩

theorem wit_harbourTrained : ∃ (failed : List Stack) (s : State), 6 ≤ s.boot.step ∧ s.boot.step < 10 ∧ s.getF Reg.BOOT_STS 0 4 ≠ 15 :=
  ⟨[], { State.reset with boot := { aon := true, pwrgd := true, step := 6 } }, by decide +kernel⟩

theorem wit_hbrStackFail : ∃ (h : Stack) (s : State), s.getB (Reg.HBR_STS h) 0 = true ∧ s.warmHeld = false :=
  ⟨3, State.reset.setB (Reg.HBR_STS 3) 0 true, by decide +kernel⟩

theorem wit_bootReady : ∃ (s : State), s.getF Reg.BOOT_STS 0 4 = 6 ∧ s.calActive = false ∧ (s.tests.any fun e => e.1 % 32 = 19 && (e.2.want || e.2.held)) = false :=
  ⟨State.reset.setF Reg.BOOT_STS 0 4 6, by decide +kernel⟩

theorem wit_profSelect : ∃ (rq : Requester) (target : Fin 4) (pr : Profile) (s : State), isMgmt rq = true ∧ s.selMask / 2 ^ target.val % 2 = 1 ∧
    (s.readProfile target).2 = some pr ∧ s.getF Reg.BOOT_PROF_STS 0 2 = 0 ∧ s.calActive = false ∧ s.pushBusy = false ∧ s.swaps = [] ∧
    s.operational = true :=
  ⟨(.fn 0), 0, (parseProfile 0 profBody), stProf, by decide +kernel, by decide +kernel, prof_read, by decide +kernel, by decide +kernel, by decide +kernel,
    by decide +kernel, by decide +kernel⟩

theorem wit_profSelectMasked : ∃ (rq : Requester) (target : Fin 4) (s : State), isMgmt rq = true ∧ s.selMask / 2 ^ target.val % 2 = 0 :=
  ⟨(.fn 0), 0, { State.reset with flash := cellsOf 0x1080000 (recHeader 3 1 (14 :: List.replicate 63 0) []) ++ cellsOf 0x1080040 (14 :: List.replicate 63 0) }, by decide +kernel⟩

theorem wit_profileApply : ∃ (s : State), s.getF Reg.BOOT_PROF_STS 0 2 = 2 ∧ (s.jobs.any fun e => (e.2.st = 3 ||
    e.2.st = 4) && s.boot.changing.contains (s.ctxPart e.2.fn)) = false ∧ (s.imports.any fun m => s.boot.changing.contains (s.ctxPart m.ctx)) = false ∧
    ((List.range 64).any fun c => s.ctxPart c < 8 && s.boot.want.parts.length ≤ s.ctxPart c) = false :=
  ⟨{ State.reset.setF Reg.BOOT_PROF_STS 0 2 2 with boot := { sel := 1, want := { romProfile with num := 2 }, changing := [] } }, by decide +kernel⟩

theorem wit_writeProfile : ∃ (rq : Requester) (target : Fin 4) (s : State), isMgmt rq = true ∧ profileOk target (s.profBuf 64) = true ∧ s.getF Reg.BOOT_PROF_STS 0 2 = 0 :=
  ⟨(.fn 0), 0, { State.reset with regs := profRegs }, by decide +kernel⟩

theorem wit_writeProfileRefused : ∃ (rq : Requester) (target : Fin 4) (s : State), isMgmt rq = true ∧ profileOk target (s.profBuf 64) = false :=
  ⟨(.fn 0), 0, State.reset, by decide +kernel⟩

theorem wit_writeIndex : ∃ (rq : Requester) (target : Fin 4) (s : State), isMgmt rq = true ∧ s.getF Reg.BOOT_PROF_STS 0 2 ≠ 1 :=
  ⟨(.fn 0), 0, State.reset, by decide +kernel⟩

theorem wit_fwWrite : ∃ (rq : Requester) (image : List Byte) (ver : Word) (svn : Fin 65536) (ok : Bool) (s : State),
    let n := s.getF Reg.BOOT_FW_LEN 0 22;
    isMgmt rq = true ∧ s.pushBusy = false ∧ s.getF Reg.BOOT_PROF_STS 0 2 ≠ 2 ∧ 96 ≤ n ∧ n ≤ 2097248 ∧ ok = true ∧ s.fwSvn ≤ svn.val :=
  ⟨(.fn 0), [1, 2], 3, 4, true, State.reset.setF Reg.BOOT_FW_LEN 0 22 96, by decide +kernel⟩

theorem wit_fwWriteRefused : ∃ (rq : Requester) (image : List Byte) (ver : Word) (svn : Fin 65536) (ok : Bool) (s : State),
    let n := s.getF Reg.BOOT_FW_LEN 0 22;
    isMgmt rq = true ∧ (s.pushBusy = true ∨ s.getF Reg.BOOT_PROF_STS 0 2 = 2 ∨ n < 96 ∨ 2097248 < n ∨ (ok = true ∧ svn.val < s.fwSvn)) :=
  ⟨(.fn 0), [1, 2], 3, 4, true, State.reset, by decide +kernel⟩

theorem wit_flashWriteDoneKeys : ∃ (ok sig : Bool) (w : FlashWrite) (ws : List FlashWrite) (s : State), s.flashq = w :: ws ∧ w.kind = 5 ∧ ok = true ∧ s.warmHeld = false :=
  ⟨true, true, ({ kind := 5, base0 := 0x1300000, base1 := 0x1310000, size := 4096, body := [1, 2], arg := 130, slot := some (0, 5) }), [], { stCal with flashq := [{ kind := 5, base0 := 0x1300000, base1 := 0x1310000, size := 4096, body := [1, 2], arg := 130, slot := some (0, 5) }] }, by decide +kernel⟩

theorem wit_flashWriteDoneFirmware : ∃ (ok sig : Bool) (w : FlashWrite) (ws : List FlashWrite) (s : State), s.flashq = w :: ws ∧ w.kind = 1 ∧ ok = true :=
  ⟨true, true, ({ kind := 1, base0 := 0, base1 := 0x800000, size := 4096, body := [1, 2], slot := some (0, 5) }), [], { stCal with flashq := [{ kind := 1, base0 := 0, base1 := 0x800000, size := 4096, body := [1, 2], slot := some (0, 5) }] }, by decide +kernel⟩

theorem wit_flashWriteDoneFailed : ∃ (ok sig : Bool) (w : FlashWrite) (ws : List FlashWrite) (s : State), s.flashq = w :: ws ∧ w.kind ≠ 4 ∧ ok = false :=
  ⟨false, true, ({ kind := 1, base0 := 0, base1 := 0x800000, size := 4096, body := [1, 2], slot := some (0, 5) }), [], { stCal with flashq := [{ kind := 1, base0 := 0, base1 := 0x800000, size := 4096, body := [1, 2], slot := some (0, 5) }] }, by decide +kernel⟩

theorem wit_runCal : ∃ (rq : Requester) (scope : Fin 4) (target : Fin 1024) (s : State), s.calWriter rq = true ∧ s.pageReset 13 0 = false ∧ (scope ≠ 3 ∨ rq = .pilot 3) ∧
    s.scopeTiles scope target ≠ [] ∧ s.calActive = false ∧ s.getF Reg.BOOT_PROF_STS 0 2 ≠ 2 ∧ s.getB Reg.CAL_STS 4 = true :=
  ⟨(.fn 0), 1, 3, stCal, by decide +kernel⟩

theorem wit_runCalRefused : ∃ (rq : Requester) (scope : Fin 4) (target : Fin 1024) (s : State), s.calWriter rq = true ∧ s.pageReset 13 0 = false ∧ (scope ≠ 3 ∨ rq = .pilot 3) ∧
    s.scopeTiles scope target ≠ [] ∧ (s.calActive = true ∨ s.getF Reg.BOOT_PROF_STS 0 2 = 2 ∨ s.getB Reg.CAL_STS 4 = false) ∧ s.warmHeld = false :=
  ⟨(.fn 0), 1, 3, State.reset, by decide +kernel⟩

theorem wit_runCalScope : ∃ (rq : Requester) (scope : Fin 4) (target : Fin 1024) (s : State), s.calWriter rq = true ∧ s.pageReset 13 0 = false ∧ scope = 3 ∧ rq ≠ .pilot 3 ∧
    s.warmHeld = false :=
  ⟨(.fn 0), 3, 3, stCal, by decide +kernel⟩

theorem wit_calCommit : ∃ (rq : Requester) (scope : Fin 4) (target : Fin 1024) (s : State), s.calWriter rq = true ∧ s.pageReset 13 0 = false ∧ (scope ≠ 3 ∨ rq = .pilot 3) ∧
    s.getF Reg.CAL_STS 0 3 = 2 ∧ s.cal.sw = none :=
  ⟨(.fn 0), 1, 3, stCal.setF Reg.CAL_STS 0 3 2, by decide +kernel⟩

theorem wit_calCommitNoRun : ∃ (rq : Requester) (scope : Fin 4) (target : Fin 1024) (s : State), s.calWriter rq = true ∧ s.pageReset 13 0 = false ∧ (scope ≠ 3 ∨ rq = .pilot 3) ∧
    s.calActive = false ∧ s.scopeTiles scope target ≠ [] :=
  ⟨(.fn 0), 1, 3, stCal, by decide +kernel⟩

theorem wit_calRevert : ∃ (rq : Requester) (scope : Fin 4) (target : Fin 1024) (s : State), s.calWriter rq = true ∧ s.pageReset 13 0 = false ∧ (scope ≠ 3 ∨ rq = .pilot 3) ∧
    s.getB Reg.CAL_STS 3 = true :=
  ⟨(.fn 0), 0, 3, stCal.setB Reg.CAL_STS 3 true, by decide +kernel⟩

theorem wit_calAbort : ∃ (rq : Requester) (scope : Fin 4) (target : Fin 1024) (s : State), s.calWriter rq = true ∧ s.pageReset 13 0 = false ∧ (scope ≠ 3 ∨ rq = .pilot 3) ∧
    s.calActive = true ∧ s.warmHeld = false :=
  ⟨(.fn 0), 0, 3, { stCal.setF Reg.CAL_STS 0 3 1 with cal := { kind := 1, tiles := [(3, 2)] } }, by decide +kernel⟩

theorem wit_calSnapshot : ∃ (rq : Requester) (scope : Fin 4) (target : Fin 1024) (s : State), s.calWriter rq = true ∧ s.pageReset 13 0 = false ∧ (scope ≠ 3 ∨ rq = .pilot 3) ∧
    s.calActive = false ∧ s.getB Reg.CAL_SNAP_STS 17 = false :=
  ⟨(.fn 0), 0, 3, stCal, by decide +kernel⟩

theorem wit_snapshotWriteDone : ∃ (ok : Bool) (w : FlashWrite) (ws : List FlashWrite) (s : State), s.flashq = w :: ws ∧ w.kind = 4 ∧ s.warmHeld = false :=
  ⟨true, ({ kind := 4, base0 := 0, base1 := 4096, size := 4096, body := [1, 2], slot := some (0, 5) }), [], { stCal with flashq := [{ kind := 4, base0 := 0, base1 := 4096, size := 4096, body := [1, 2], slot := some (0, 5) }] }, by decide +kernel⟩

theorem wit_calTileStart : ∃ (gt : Tile) (s : State), s.getF Reg.CAL_STS 0 3 = 1 ∧ s.calTurn (gt.val / 16) = some (gt.val % 16) ∧
    ((List.range 16).filter fun u => s.calSt (gt.val / 16 * 16 + u) = 2).length < s.calPar ∧ s.getB (Reg.TIL_STS gt) 8 = false ∧
    s.tileFenced gt = false ∧ s.tileTested gt = false ∧ (s.nativeCal gt = true ∨ s.getF (Reg.TIL_COLMAP_CTL gt) 4 4 ≠ 15) :=
  ⟨3, { stTile.setF Reg.CAL_STS 0 3 1 with cal := { kind := 1, tiles := [(3, 1)] } }, by decide +kernel⟩

theorem wit_calAction : ∃ (gt : Tile) (kind : Fin 5) (row : Fin 1024) (devs : List (Fin 528 × Fin 64)) (s : State),
    let c := calCost kind;
    s.calSt gt = 2 ∧ s.tileBusy gt = false ∧ s.tileFenced gt = false ∧ s.quiet gt c.2 = true ∧ (kind ≠ 3 ∨ (s.tx gt).calPat = true) ∧
      (s.grant (gt.val / 16) c.1).isSome = true ∧ s.locked gt = true :=
  ⟨3, 3, 7, [], { (stTile.setF (Reg.TIL_RFSH_CTL 3) 8 6 60 |>.updTx 3 fun x => { x with calPat := true }).setAc 0 { lvlA := 4000, lvlC := 4000 } with cal := { kind := 1, tiles := [(3, 2)] } }, by decide +kernel⟩

theorem wit_calActionUnlock : ∃ (gt : Tile) (kind : Fin 5) (row : Fin 1024) (devs : List (Fin 528 × Fin 64)) (s : State),
    let c := calCost kind;
    s.calSt gt = 2 ∧ s.tileBusy gt = false ∧ s.tileFenced gt = false ∧ s.quiet gt c.2 = true ∧ (kind ≠ 3 ∨ (s.tx gt).calPat = true) ∧
      (s.grant (gt.val / 16) c.1).isSome = true ∧ s.locked gt = false ∧ s.warmHeld = false :=
  ⟨3, 0, 7, [], { (stTile.setF (Reg.TIL_RFSH_CTL 3) 8 6 60 |>.setB (Reg.TIL_STS 3) 5 false).setAc 0 { lvlA := 4000, lvlC := 4000 } with cal := { kind := 1, tiles := [(3, 2)] } }, by decide +kernel⟩

theorem wit_calTileEnd : ∃ (gt : Tile) (cols : List (Fin 528 × Fin 64 × Fin 64)) (rows : List (Fin 1024 × Fin 32)) (ofs gain row : Byte) (ofsCol gainCol rowWorst : Fin 1024) (side bg : Int) (s : State),
    let b := 1 - s.bankOf gt;
    s.calSt gt = 2 ∧ (cols.map (·.1)).Nodup ∧ (rows.map (·.1)).Nodup :=
  ⟨3, [(5, 7, 9)], [(4, 3)], 1, 2, 3, 4, 5, 6, 7, 8, { (stTile.updTx 3 fun x => { x with calPat := true }) with cal := { kind := 1, tiles := [(3, 2)] } }, by decide +kernel⟩

theorem wit_calUnlockTimeout : ∃ (gt : Tile) (u : Nat) (s : State), (s.tx gt).unlockTick = some u ∧ s.calSt gt = 2 ∧ s.locked gt = false ∧ u + 125000 < s.now :=
  ⟨3, 1, { (stTile.setB (Reg.TIL_STS 3) 5 false).updTx 3 fun x => { x with unlockTick := some 1 } with cal := { kind := 1, tiles := [(3, 2)] }, count := 200000 }, by decide +kernel⟩

theorem wit_calCommitted : ∃  (c : Nat) (s : State),
    let l := (s.cal.tiles.filter fun e => e.2 = 3).map (·.1);
    s.cal.sw = some (1, c) ∧ c ≤ s.now ∧ s.getB Reg.CAL_SNAP_STS 17 = false ∧ l.Nodup ∧ (∀ g ∈ l, g < 1024) ∧ s.warmHeld = false :=
  ⟨5, { stTile.setF Reg.CAL_STS 0 3 2 with cal := { kind := 1, tiles := [(3, 3), (4, 5)], sw := some (1, 5) } }, by decide +kernel⟩

theorem wit_calCommittedRevert : ∃  (c : Nat) (s : State), s.cal.sw = some (3, c) ∧ c ≤ s.now ∧ s.getB Reg.CAL_SNAP_STS 17 = false ∧ (s.cal.lastTj.map (·.1)).Nodup ∧
    (∀ e ∈ s.cal.lastTj, e.1 < 1024) ∧ s.warmHeld = false :=
  ⟨5, { stTile with cal := { lastTj := [(3, 40)], sw := some (3, 5) } }, by decide +kernel⟩

theorem wit_hello : ∃ (i3c : Bool) (seq : Word) (key : Fin 4) (sigOk : Bool) (s : State), s.serves i3c = true ∧ (sigOk = false ∨
    (Store.get mgmtNone s.mgmtKeys key).isEmpty = true ∨ 4 ≤ s.sessions.length) :=
  ⟨false, 5, 0, true, stCsw, by decide +kernel⟩

theorem wit_helloOpen : ∃ (i3c : Bool) (seq : Word) (key : Fin 4) (sigOk : Bool) (s : State),
    let id := s.freshId ((Config.draw s.draws).toNat % 2 ^ 32);
    s.serves i3c = true ∧ sigOk = true ∧ (Store.get mgmtNone s.mgmtKeys key).isEmpty = false ∧ s.sessions.length < 4 :=
  ⟨false, 5, 0, true, { stCsw with mgmtKeys := [(0, [1])] }, by decide +kernel⟩

theorem wit_closeSession : ∃ (sid seq : Word) (x : Session) (s : State), Accepts s sid seq x :=
  ⟨7, 0, seCsw, stCsw, by decide +kernel⟩

theorem wit_cswAuthFail : ∃ (i3c : Bool) (s : State), s.serves i3c = true :=
  ⟨false, stCsw, by decide +kernel⟩

theorem wit_mgmtKeySet : ∃ (origin : Fin 3) (sid seq : Word) (key : Fin 4) (pub : List Byte) (sigOk : Bool) (s : State),
    let st := if pub.length ≠ 96 then 2 else if s.mgmtKeys.isEmpty = false ∨ sigOk = false then 1 else 0;
    origin = 0 ∧ s.pilSt 1 = 1 ∧ s.recoveryMode = false :=
  ⟨0, 0, 5, 1, (List.replicate 96 3), true, stCsw, by decide +kernel⟩

theorem wit_mgmtKeySetSession : ∃ (origin : Fin 3) (sid seq : Word) (key : Fin 4) (pub : List Byte) (sigOk : Bool) (x : Session) (s : State), origin = 2 ∧ Accepts s sid seq x ∧
    pub.length = 96 ∧ (sigOk = false ∨ (s.mgmtKeys ≠ [] ∧ x.key ≠ 0)) :=
  ⟨2, 7, 5, 1, (List.replicate 96 3), false, seCsw, stCsw, by decide +kernel⟩

theorem wit_cswRead : ∃ (sid seq : Word) (peek : Bool) (a : Fin 268435456) (n : Fin 1024) (x : Session) (s : State),
    let u := s.heard seq x;
    Accepts s sid seq x ∧ n.val ≠ 0 ∧ n.val ≤ 256 :=
  ⟨7, 5, true, 0x400044, 1, seCsw, stCsw, by decide +kernel⟩

theorem wit_cswReadLength : ∃ (sid seq : Word) (peek : Bool) (a : Fin 268435456) (n : Fin 1024) (x : Session) (s : State), Accepts s sid seq x ∧ (n.val = 0 ∨ 256 < n.val) :=
  ⟨7, 5, true, 0x400044, 0, seCsw, stCsw, by decide +kernel⟩

theorem wit_cswWrite : ∃ (sid seq : Word) (a : Fin 268435456) (vals : List Word) (env : WriteEnv) (x : Session) (s : State),
    let u := s.heard seq x;
    Accepts s sid seq x ∧ vals ≠ [] ∧ vals.length ≤ 64 :=
  ⟨7, 5, 0x400060, [9], {}, seCsw, stCsw, by decide +kernel⟩

theorem wit_logRead : ∃ (sid seq first : Word) (n : Fin 256) (x : Session) (s : State), Accepts s sid seq x :=
  ⟨7, 5, 1, 3, seCsw, { stCsw with log := { slots := [(0, { used := true, seq := 1, cls := 2 })], seq := 1, head := 1 } }, by decide +kernel⟩

theorem wit_subscribe : ∃ (sid seq : Word) (cls : Byte) (enable : Bool) (x : Session) (s : State), Accepts s sid seq x :=
  ⟨7, 5, 1, true, seCsw, stCsw, by decide +kernel⟩

theorem wit_eventReport : ∃ (sid : Word) (x : Session) (s : State),
    let n := max 1 (min 40 (s.getF Reg.CSW_EVT_BATCH 16 8));
    let recs := ((s.dueSeqs x).filterMap fun q => s.recOf q);
    s.session sid = some x ∧ x.sub ≠ 0 ∧ s.serves x.i3c = true ∧ s.dueSeqs x ≠ [] ∧ (∀ q ∈ s.dueSeqs x, (s.recOf q).isSome = true) ∧ (x.sent = 0 ∨
      x.sent + max 1 (s.getF Reg.CSW_EVT_BATCH 0 16) * 125 ≤ s.now) :=
  ⟨7, seCsw, { stCsw with log := { slots := [(0, { used := true, seq := 1, cls := 2 })], seq := 1, head := 1, report := [(1, 2)] } }, by decide +kernel⟩

theorem wit_eventReportGap : ∃ (sid : Word) (x : Session) (q : Nat) (s : State), s.session sid = some x ∧ x.sub ≠ 0 ∧ s.serves x.i3c = true ∧ s.dueSeqs x = [q] ∧ s.recOf q = none ∧
    (x.sent = 0 ∨ x.sent + max 1 (s.getF Reg.CSW_EVT_BATCH 0 16) * 125 ≤ s.now) :=
  ⟨7, seCsw, 1, { stCsw with log := { seq := 1, report := [(1, 2)] } }, by decide +kernel⟩

theorem wit_telemetry : ∃ (sid seq : Word) (x : Session) (s : State), Accepts s sid seq x :=
  ⟨7, 5, seCsw, stCsw, by decide +kernel⟩

theorem wit_timeProbe : ∃ (sid seq : Word) (turn : Nat) (rxErr txErr : Fin 5) (x : Session) (s : State), Accepts s sid seq x :=
  ⟨7, 5, 3, 1, 4, seCsw, stCsw, by decide +kernel⟩

theorem wit_patData : ∃ (sid seq : Word) (off : Fin 33554432) (bytes : List Byte) (x : Session) (s : State),
    let b := s.idleBank;
    let u := if s.push.kind = 2 then s else s.flashErase (bankBase b) 0x1000000;
    Accepts s sid seq x ∧ s.coreUp = true ∧ bytes.length ≤ 1024 ∧ off.val + bytes.length ≤ 0x1000000 ∧ s.pushBlocked 2 = false ∧
      s.getF Reg.TST_STS 4 2 < 2 :=
  ⟨7, 5, 16, [1, 2, 3], seCsw, stCsw, by decide +kernel⟩

theorem wit_patDataRefused : ∃ (sid seq : Word) (off : Fin 33554432) (bytes : List Byte) (x : Session) (s : State), Accepts s sid seq x ∧ (s.coreUp = false ∨ 1024 < bytes.length ∨
    0x1000000 < off.val + bytes.length ∨ s.pushBlocked 2 = true ∨ 2 ≤ s.getF Reg.TST_STS 4 2) :=
  ⟨7, 5, 0x1000000, [1, 2, 3], seCsw, stCsw, by decide +kernel⟩

theorem wit_patCommit : ∃ (sid seq : Word) (len : Fin 33554432) (sigOk readOk : Bool) (x : Session) (s : State), Accepts s sid seq x ∧ s.coreUp = true ∧ s.push.kind = 2 :=
  ⟨7, 5, 300, true, true, seCsw, { stCsw with push := { kind := 2 } }, by decide +kernel⟩

theorem wit_fwData : ∃ (sid seq : Word) (off : Fin 33554432) (bytes : List Byte) (ok : Bool) (x : Session) (s : State), s.recoveryMode = false ∧ Accepts s sid seq x ∧
    bytes.length ≤ 1024 ∧ off.val + bytes.length ≤ 2097248 ∧ s.pushBlocked 1 = false ∧ s.getF Reg.TST_STS 4 2 = 0 ∧ off.val = 0 ∧ (s.push.kind = 1 ∨
    s.getF Reg.BOOT_FW_STS 0 2 = 0) ∧ ok = true :=
  ⟨7, 5, 0, [1, 2, 3], true, seCsw, stCsw, by decide +kernel⟩

theorem wit_fwDataRecovery : ∃ (sid seq : Word) (off : Fin 33554432) (bytes : List Byte) (ok : Bool) (s : State), s.recoveryMode = true ∧ s.hears true = true ∧
    bytes.length ≤ 1024 ∧ off.val + bytes.length ≤ 2097248 ∧ s.pushBlocked 1 = false ∧ s.getF Reg.TST_STS 4 2 = 0 ∧ s.push.kind = 1 ∧ off.val ≠ 0 ∧
    ok = true :=
  ⟨0, 5, 16, [1, 2, 3], true, { stI3c.setB Reg.BOOT_STS 11 true with push := { kind := 1 } }, by decide +kernel⟩

theorem wit_fwCommit : ∃ (sid seq : Word) (len : Fin 33554432) (ver : Word) (svn : Fin 65536) (sigOk ok : Bool) (x : Session) (s : State), s.recoveryMode = false ∧
    Accepts s sid seq x ∧ s.push.kind = 1 :=
  ⟨7, 5, 100, 3, 0, true, true, seCsw, { stCsw with push := { kind := 1 } }, by decide +kernel⟩

theorem wit_arpRequest : ∃ (sender target : Word) (s : State), s.serves false = true ∧ target = s.reg Reg.CSW_IP_ADDR ∧ (target ≠ 0 ∨ sender = 0) :=
  ⟨5, 9, stCsw.setReg Reg.CSW_IP_ADDR 9, by decide +kernel⟩

theorem wit_icmpEcho : ∃ (dst : Word) (data : List Byte) (s : State), s.serves false = true ∧ dst = s.reg Reg.CSW_IP_ADDR ∧ dst ≠ 0 :=
  ⟨9, [1, 2], stCsw.setReg Reg.CSW_IP_ADDR 9, by decide +kernel⟩

theorem wit_dynamicAddressAssign : ∃ (addr : Fin 128) (s : State), s.hears true = true :=
  ⟨9, stI3c, by decide +kernel⟩

theorem wit_setEndpointId : ∃ (eid : Byte) (s : State), s.serves true = true :=
  ⟨9, stI3c, by decide +kernel⟩

theorem wit_getEndpointId : ∃ (s : State), s.serves true = true :=
  ⟨stI3c, by decide +kernel⟩

theorem wit_getMctpVersionSupport : ∃ (ty : Byte) (s : State), s.serves true = true :=
  ⟨0, stI3c, by decide +kernel⟩

theorem wit_getMessageTypeSupport : ∃ (s : State), s.serves true = true :=
  ⟨stI3c, by decide +kernel⟩

theorem wit_gettid : ∃ (s : State), s.hears true = true :=
  ⟨stI3c, by decide +kernel⟩

theorem wit_getpldmversion : ∃ (ty : Byte) (s : State), s.serves true = true :=
  ⟨2, stI3c, by decide +kernel⟩

theorem wit_getpldmtypes : ∃ (s : State), s.serves true = true :=
  ⟨stI3c, by decide +kernel⟩

theorem wit_getpldmcommands : ∃ (ty : Byte) (s : State), s.serves true = true :=
  ⟨2, stI3c, by decide +kernel⟩

theorem wit_getpdr : ∃ (handle : Word) (s : State), s.serves true = true :=
  ⟨0, stI3c, by decide +kernel⟩

theorem wit_getsensorreading : ∃ (id : Fin 65536) (s : State), s.serves true = true :=
  ⟨72, stI3c, by decide +kernel⟩

theorem wit_getstatesensorreadings : ∃ (id : Fin 65536) (s : State), s.serves true = true :=
  ⟨88, stI3c, by decide +kernel⟩

theorem wit_pldmUnsupported : ∃ (ty cmd : Byte) (s : State), s.serves true = true ∧ ¬ ((ty = 0 ∧ 2 ≤ cmd.toNat ∧ cmd.toNat ≤ 5) ∨ (ty = 2 ∧ (cmd = 0x11 ∨ cmd = 0x21 ∨ cmd = 0x51))) :=
  ⟨2, 9, stI3c, by decide +kernel⟩

theorem wit_ptpCapture : ∃ (ty : Fin 16) (dom : Byte) (seqId : Fin 65536) (err : Fin 5) (s : State),
    let n := s.getF Reg.CSW_TS_WR 0 4;
    s.getB Reg.CSW_CTL 2 = true ∧ s.getB Reg.CSW_CTL 0 = true ∧ s.getB Reg.CSW_STS 0 = true :=
  ⟨1, 2, 3, 4, stCsw.setB Reg.CSW_CTL 2 true, by decide +kernel⟩

theorem wit_cswLink : ∃ (up : Bool) (s : State), s.boot.aon = true ∧ s.getB Reg.CSW_STS 0 ≠ up :=
  ⟨false, stCsw, by decide +kernel⟩

theorem wit_ctxCreate : ∃ (rq : Requester) (c : Ctx) (s : State),
    let cfg := s.reg (Reg.CTX_CFG c);
    isMgmt rq = true ∧ s.pageReset 19 c = false ∧ s.createErr c = none ∧ s.warmHeld = false :=
  ⟨(.fn 0), 1, stOp, by decide +kernel⟩

theorem wit_ctxCreateRefused : ∃ (rq : Requester) (c : Ctx) (e : Nat) (s : State), isMgmt rq = true ∧ s.pageReset 19 c = false ∧ s.ctxSt c ≠ 3 ∧ s.createErr c = some e :=
  ⟨.causeway, 1, 1, State.reset, by decide +kernel⟩

theorem wit_ctxBack : ∃ (rq : Requester) (c : Ctx) (n : Fin 16777216) (s : State),
    let pos := s.getF (Reg.CTX_WIN_SEL c) 0 17;
    let want := ((List.range n).map (pos + ·)).filter fun p => !(Store.get winNone (s.cx c).win p).backed;
    let free := s.freeFrames want.length;
    isMgmt rq = true ∧ s.pageReset 19 c = false ∧ (s.ctxSt c = 1 ∨ s.ctxSt c = 2) ∧ pos + n.val ≤ (s.cx c).winFrames ∧ want.length ≤ free.length :=
  ⟨(.fn 0), 1, 1, (stOp.setReg (Reg.CTX_STS 1) 1).setCx 1 { winFrames := 2 }, by decide +kernel⟩

theorem wit_ctxDestroy : ∃ (rq : Requester) (c : Ctx) (s : State), isMgmt rq = true ∧ s.pageReset 19 c = false ∧ (s.ctxSt c = 1 ∨ s.ctxSt c = 2) :=
  ⟨(.fn 0), 1, { stPlan.setReg (Reg.CTX_STS 1) 2 with imports := [{ job := 2, ctx := 1, iova := 0, manifest := [] }] }, by decide +kernel⟩

theorem wit_teardownDone : ∃ (c : Ctx) (zero : Bool) (s : State), s.ctxSt c = 3 ∧ s.quiesced c = true ∧ zero = true ∧ s.warmHeld = false :=
  ⟨1, true, { stRow.setReg (Reg.CTX_STS 1) 3 with qps := [(19, { enabled := true })] }, by decide +kernel⟩

theorem wit_teardownDoneFail : ∃ (c : Ctx) (zero : Bool) (s : State), s.ctxSt c = 3 ∧ s.quiesced c = true ∧ zero = false ∧ s.warmHeld = false :=
  ⟨1, false, stRow.setReg (Reg.CTX_STS 1) 3, by decide +kernel⟩

theorem wit_installKey : ∃ (rq : Requester) (c : Ctx) (s : State), (isMgmt rq = true ∨ rq = .fn c) ∧ s.pageReset 19 c = false ∧ s.ctxSt c = 1 ∧ s.dbgOpen = false ∧
    s.installing c = false :=
  ⟨(.fn 1), 1, { stOp with regs := (Reg.DBG_STS, 5#32) :: (stOp.setReg (Reg.CTX_STS 1) 1).regs }, by decide +kernel⟩

theorem wit_vaultLeaseGrant : ∃  (c : Nat) (s : State), (s.leases.any fun l => l.res = 5) = false ∧ (List.range 64).find? (fun c => (s.cx c).installWait) = some c :=
  ⟨1, stOp.setCx 1 { installWait := true }, by decide +kernel⟩

theorem wit_ctxKeyOk : ∃ (c : Ctx) (blob : List Byte) (dmaOk sigOk keyUnwraps : Bool) (s : State), s.installing c = true ∧ dmaOk = true ∧ s.blobErr c blob = none ∧
    sigOk = true ∧ keyUnwraps = true ∧ s.warmHeld = false :=
  ⟨1, ([0x51, 0x58, 0x4B, 0x42, 1, 0, 1] ++ List.replicate 281 0), true, true, true, { stOp.setReg (Reg.CTX_STS 1) 1 with leases := [{ res := 5, unit := 0, kind := 1, owner := 1, expiry := 2500000 }] }, by decide +kernel⟩

theorem wit_ctxKeyOkFail : ∃ (c : Ctx) (blob : List Byte) (dmaOk sigOk keyUnwraps : Bool) (s : State),
    let e := if dmaOk then (match s.blobErr c blob with | some e => e | none => if sigOk then 7 else 6) else 11;
    s.installing c = true ∧ (dmaOk && (s.blobErr c blob).isNone && sigOk && keyUnwraps) = false ∧ s.warmHeld = false :=
  ⟨1, [], true, true, true, { stOp.setReg (Reg.CTX_STS 1) 1 with leases := [{ res := 5, unit := 0, kind := 1, owner := 1, expiry := 2500000 }] }, by decide +kernel⟩

theorem wit_regKey : ∃ (rq : Requester) (k : Fin 128) (onCurve : Bool) (s : State),
    let r := Store.get keyNone s.keyTable k;
    isMgmt rq = true ∧ s.pageReset 9 0 = false ∧ (r.used = false ∨ r.revoked = true) ∧ onCurve = true :=
  ⟨(.fn 0), 5, true, stOp, by decide +kernel⟩

theorem wit_regKeyRefused : ∃ (rq : Requester) (k : Fin 128) (onCurve : Bool) (s : State),
    let r := Store.get keyNone s.keyTable k;
    isMgmt rq = true ∧ s.pageReset 9 0 = false ∧ ((r.used = true ∧ r.revoked = false) ∨ onCurve = false) :=
  ⟨(.fn 0), 0, true, stOp, by decide +kernel⟩

theorem wit_revokeKey : ∃ (rq : Requester) (k : Fin 128) (s : State),
    let r := Store.get keyNone s.keyTable k;
    isMgmt rq = true ∧ s.pageReset 9 0 = false ∧ r.used = true :=
  ⟨(.fn 0), 0, stOp, by decide +kernel⟩

theorem wit_zeroise : ∃ (rq : Requester) (c : Ctx) (s : State), rq = .causeway ∧ s.pageReset 9 0 = false ∧ s.warmHeld = false :=
  ⟨.causeway, 1, stPlan.setReg (Reg.CTX_STS 1) 2, by decide +kernel⟩

theorem wit_dbgUnlock : ∃ (rq : Requester) (sigOk : Bool) (s : State), rq = .debug ∧ s.tap.unlocking = false ∧ s.getF Reg.DBG_FAIL_CNT 0 8 < 8 ∧ s.tokenErr sigOk = none :=
  ⟨.debug, true, { State.reset with regs := [(Reg.KEY_DEVICE_ID_LO, 0), (Reg.KEY_DEVICE_ID_HI, 0), (Reg.DBG_STS, 1), (Reg.DBG_TOKEN 0, 0x4B4C4244)], mgmtKeys := [(0, [1])] }, by decide +kernel⟩

theorem wit_dbgUnlockFail : ∃ (rq : Requester) (sigOk : Bool) (e : Nat) (s : State), rq = .debug ∧ s.tap.unlocking = false ∧ s.getF Reg.DBG_FAIL_CNT 0 8 < 8 ∧
    s.tokenErr sigOk = some e :=
  ⟨.debug, true, 2, { State.reset with regs := [(Reg.DBG_STS, 1)] }, by decide +kernel⟩

theorem wit_dbgLock : ∃ (rq : Requester) (s : State), (rq = .debug ∨ rq = .causeway) ∧ s.getF Reg.DBG_STS 0 2 ≠ 0 :=
  ⟨.causeway, ((stUnl).setF (Reg.PIL_STS 4) 0 2 2).setB Reg.DBG_CTL 0 true, by decide +kernel⟩

theorem wit_dbgHalt : ∃ (rq : Requester) (n : Pilot) (s : State), rq = .debug ∧ s.dbgOpen = true ∧ s.pilSt n = 1 :=
  ⟨.debug, 4, (stUnl).setF (Reg.PIL_STS 4) 0 2 1, by decide +kernel⟩

theorem wit_dbgHaltRefused : ∃ (rq : Requester) (n : Pilot) (s : State), rq = .debug ∧ s.dbgOpen = false :=
  ⟨.debug, 4, stLck, by decide +kernel⟩

theorem wit_dbgResume : ∃ (rq : Requester) (n : Pilot) (s : State), rq = .debug ∧ s.pilSt n = 2 :=
  ⟨.debug, 4, State.reset.setF (Reg.PIL_STS 4) 0 2 2, by decide +kernel⟩

theorem wit_leaseFreezeWrite : ∃ (rq : Requester) (v : Bool) (s : State), rq = .debug ∧ s.dbgOpen = true :=
  ⟨.debug, true, stUnl, by decide +kernel⟩

theorem wit_evtPendWrite : ∃ (rq : Requester) (ty : Fin 21) (inst : Fin 1024) (v : Word) (s : State), pageImplemented (pageAddr ty inst) = true ∧ s.pageReset ty inst = false ∧
    s.stdWriter rq = true :=
  ⟨(.fn 0), 4, 5, 2, State.reset, by decide +kernel⟩

theorem wit_evtEnWrite : ∃ (rq : Requester) (ty : Fin 21) (inst : Fin 1024) (v : Word) (s : State),
    let x := s.hd ty inst;
    pageImplemented (pageAddr ty inst) = true ∧ s.pageReset ty inst = false ∧ s.stdWriter rq = true :=
  ⟨(.fn 0), 4, 5, 2, State.reset, by decide +kernel⟩

theorem wit_evtForce : ∃ (rq : Requester) (ty : Fin 21) (inst : Fin 1024) (v : Word) (s : State), pageImplemented (pageAddr ty inst) = true ∧ s.pageReset ty inst = false ∧
    s.stdWriter rq = true :=
  ⟨(.fn 0), 4, 5, 2, State.reset, by decide +kernel⟩

theorem wit_fenceWrite : ∃ (rq : Requester) (ty : Fin 21) (inst : Fin 1024) (v : Word) (s : State),
    let x := s.hd ty inst;
    let on := v.getLsbD (fenceBit rq);
    pageImplemented (pageAddr ty inst) = true ∧ fenceable ty = true ∧ s.pageReset ty inst = false ∧ s.stdWriter rq = true ∧ s.tideRuns = true :=
  ⟨(.fn 0), 4, 5, 8, stTide, by decide +kernel⟩

theorem wit_pendSelWrite : ∃ (rq : Requester) (v : Word) (s : State), s.pageReset 1 0 = false ∧ s.stdWriter rq = true :=
  ⟨(.fn 0), 7, State.reset, by decide +kernel⟩

theorem wit_rw1cWrite : ∃ (rq : Requester) (a : Fin 268435456) (v : Word) (s : State), a.val < 0x5400000 ∧ pageImplemented a = true ∧ 0x40 ≤ adrOff a ∧ isBank a = false ∧
    regAcc a = some .rw1c ∧ s.pageReset (adrType a) (adrInst a) = false ∧ s.mayWrite rq a v = true :=
  ⟨(.fn 0), 0x1000094, 3, State.reset, by decide +kernel⟩

theorem wit_rcRead : ∃ (rq : Requester) (a : Fin 268435456) (s : State), a.val < 0x5400000 ∧ pageImplemented a = true ∧ 0x40 ≤ adrOff a ∧ isBank a = false ∧
    isLow a = false ∧ isHigh a = false ∧ regAcc a = some .rc ∧ mayRead rq a = true :=
  ⟨(.fn 0), 0x400054, State.reset, by decide +kernel⟩

theorem wit_rpRead : ∃ (rq : Requester) (a : Fin 268435456) (s : State), a.val < 0x5400000 ∧ pageImplemented a = true ∧ isBank a = false ∧ isLow a = false ∧
    isHigh a = false ∧ adrOff a ≠ 0x28 ∧ regAcc a ≠ some .rc ∧ mayRead rq a = true :=
  ⟨(.fn 0), 0x4000044, State.reset, by decide +kernel⟩

theorem wit_lowWordRead : ∃ (rq : Requester) (via : Bool) (a : Fin 268435456) (s : State), a.val < 0x5400000 ∧ pageImplemented a = true ∧ isLow a = true ∧ mayRead rq a = true :=
  ⟨(.fn 0), false, 0x2000048, stTide, by decide +kernel⟩

theorem wit_lowWordWrite : ∃ (rq : Requester) (via : Bool) (a : Fin 268435456) (v : Word) (d : Nat) (s : State), a.val < 0x5400000 ∧ pageImplemented a = true ∧ 0x40 ≤ adrOff a ∧
    isLow a = true ∧ regAcc a = some .rw ∧ s.target rq via a = some d ∧ s.pageReset (adrType a) (adrInst a) = false ∧ s.mayWrite rq a v = true :=
  ⟨(.fn 0), false, 0x2000074, 7, 0x2000074, stTide, by decide +kernel⟩

theorem wit_highWordWrite : ∃ (rq : Requester) (via : Bool) (a : Fin 268435456) (v : Word) (s : State),
    let k := halfKey rq a;
    let low := if (Store.get halfNone s.staged k).valid && (Store.get halfNone s.staged k).low = a.val - 4 then (Store.get halfNone s.staged k).word else s.reg (a.val - 4);
    a.val < 0x5400000 ∧ pageImplemented a = true ∧ 0x40 ≤ adrOff a ∧ isBank a = false ∧ isLow a = false ∧ isHigh a = true ∧ regAcc a = some .rw ∧
      a.val ≠ Reg.TID_PPS_BASE_LO + 4 ∧ s.pageReset (adrType a) (adrInst a) = false ∧ s.mayWrite rq a v = true :=
  ⟨(.fn 0), false, 0x2000078, 7, stTide, by decide +kernel⟩

theorem wit_regWrite : ∃ (rq : Requester) (via : Bool) (a : Fin 268435456) (v : Word) (env : WriteEnv) (s : State), a.val < 0x5400000 ∧ pageImplemented a = true ∧
    0x40 ≤ adrOff a ∧ [5, 6, 20].contains (adrType a) = true ∧ isLow a = false ∧ isHigh a = false ∧ regAcc a = some .rw ∧
    s.pageReset (adrType a) (adrInst a) = false ∧ s.mayWrite rq a v = true :=
  ⟨(.fn 0), false, 0x1400040, 7, {}, State.reset, by decide +kernel⟩

theorem wit_regWriteHeld : ∃ (rq : Requester) (via : Bool) (a : Fin 268435456) (v : Word) (env : WriteEnv) (s : State), a.val < 0x5400000 ∧ pageImplemented a = true ∧
    s.pageReset (adrType a) (adrInst a) = true :=
  ⟨(.fn 0), false, 0xC00044, 7, {}, { State.reset with rungs := [{ kind := 2, target := 0, cause := 1, start := 0 }] }, by decide +kernel⟩

theorem wit_topBadAccess : ∃ (rq : Requester) (a : Fin 268435456) (bytes : Fin 65) (write : Bool) (s : State), bytes.val = 4 ∧ a.val % 4 = 0 ∧ implementedFor rq a = false :=
  ⟨(.fn 0), 0x401040, 4, false, State.reset, by decide +kernel⟩

theorem wit_topBadAccessKind : ∃ (rq : Requester) (a : Fin 268435456) (bytes : Fin 65) (write : Bool) (s : State), ((bytes.val = 4 ∨ bytes.val = 8) → a.val % bytes.val ≠ 0) :=
  ⟨(.fn 0), 0x400002, 4, false, State.reset, by decide +kernel⟩

theorem wit_capWrite : ∃ (rq : Requester) (which : Fin 9) (v : Word) (s : State),
    let a := if which.val = 0 then Reg.SLU_CHIP_CAP else Reg.SLU_PCAP (which.val - 1);
    s.dpWriter rq = true ∧ s.pageReset 7 0 = false ∧ s.warmHeld = false ∧ s.profile.parts.length ≤ 8 :=
  ⟨(.fn 0), 0, 800, stTile, by decide +kernel⟩

theorem wit_capWinWrite : ∃ (rq : Requester) (v : Word) (s : State), s.dpWriter rq = true ∧ s.pageReset 7 0 = false :=
  ⟨(.fn 0), 12, stTile, by decide +kernel⟩

theorem wit_capWindowEnd : ∃ (s : State), s.now % s.capWin = 0 ∧ s.slu.winTick ≠ s.now :=
  ⟨{ stTile with count := 131072 }, by decide +kernel⟩

theorem wit_sluiceTick : ∃ (s : State), s.slu.refill ≠ some s.now ∧ s.tickets = [] :=
  ⟨stTile.setAc 0 { lvlA := 5, rateA := 7, depthA := 100, lvlC := 90, rateC := 20, depthC := 100 }, by decide +kernel⟩

theorem wit_sluiceTickGrant : ∃  (k : Nat) (s : State),
    let x := s.tkAt k;
    s.slu.refill = some s.now ∧ s.now % s.capWin ≠ 0 ∧ s.profile.parts.length = 1 ∧ s.candidates 0 = [k] ∧ s.ready k x = true ∧
      s.unitFenced k x = false ∧ (s.grant (k / 256) (s.cost k x)).isSome = true ∧ s.runOf x = none ∧ x.uclass = 3 :=
  ⟨0, ({ stTile with slu := { refill := some 12200 } }).setTk 0 { state := 1, action := 7, uclass := 3, launch := 12200, planned := 12200, dln := 90 }, by decide +kernel⟩

theorem wit_avsWindowEnd : ∃ (s : State), s.now % 2 ^ (10 + s.getF Reg.SLU_AVS_CTL 4 4) = 0 :=
  ⟨{ stTile with count := 2 ^ 20, slu := { avsMin := 7 } }, by decide +kernel⟩

theorem wit_avsWindowEndRaise : ∃ (s : State),
    let v := s.vTarget;
    let n := min s.profile.vmax (max s.vFloor (v + s.avsStep));
    s.now % 2 ^ (10 + s.getF Reg.SLU_AVS_CTL 4 4) = 0 ∧ s.slu.busy = none ∧ 6 ≤ s.getF Reg.BOOT_STS 0 4 ∧ s.getB Reg.SLU_AVS_STS 30 = false ∧
      s.getB Reg.SLU_AVS_CTL 0 = true ∧ s.vFloor ≤ v ∧ s.slu.avsMin ≠ 32767 ∧ s.slu.avsMin < (s.getF Reg.SLU_AVS_CTL 16 8 : Nat) ∧ v < n ∧ n < 4096 ∧
      s.chipCap 1 = 0 :=
  ⟨{ ((((State.reset.setF Reg.BOOT_STS 0 4 6).setB Reg.SLU_AVS_CTL 0 true).setF Reg.SLU_AVS_CTL 16 8 20).setF Reg.SLU_AVS_CTL 8 8 10).setF Reg.SLU_AVS_STS 16 12 750 with count := 2 ^ 26, slu := { avsMin := 7 } }, by decide +kernel⟩

theorem wit_avsReadback : ∃ (mv : Fin 4096) (s : State), s.slu.busy.isSome = true :=
  ⟨761, { stTile.setF Reg.SLU_AVS_STS 16 12 760 with slu := { busy := some 4 } }, by decide +kernel⟩

theorem wit_sluiceAvsFault : ∃  (c : Nat) (s : State), s.slu.busy = some c ∧ c + 12500 ≤ s.now ∧ s.slu.retried = false :=
  ⟨4, { stTile with slu := { busy := some 4 }, count := 20000 }, by decide +kernel⟩

theorem wit_sluiceAvsFaultAgain : ∃  (c : Nat) (s : State), s.slu.busy = some c ∧ c + 12500 ≤ s.now ∧ s.slu.retried = true ∧ s.warmHeld = false :=
  ⟨4, { stTile with slu := { busy := some 4, retried := true }, count := 20000 }, by decide +kernel⟩

theorem wit_avsCtlWrite : ∃ (rq : Requester) (v : Word) (s : State), s.dpWriter rq = true ∧ s.pageReset 7 0 = false :=
  ⟨(.fn 0), 1, stTile, by decide +kernel⟩

theorem wit_dynDecision : ∃ (isl : Isl) (idx : TktIx) (s : State),
    let k := isl.val * 256 + idx.val;
    let x := s.tkAt k;
    let d := s.dynP isl x;
    let fr := (maskTiles (at0 0 x.call 0)).filter (s.poolFree isl);
    let c := d.choose x.slot (if x.mvmMode = 1 then 52 else 40) fr.length (at0 0 x.call 1) (at0 0 x.call 2);
    s.dynOpen k x = true ∧ s.dynFirst k x = true ∧ s.now ≤ x.launch + 48 ∧ c.2 ≠ 4 :=
  ⟨0, 0, stDyn.setF (Reg.ISL_DYN_CFG 0) 0 3 1, by decide +kernel⟩

theorem wit_dynDecisionWait : ∃ (isl : Isl) (idx : TktIx) (s : State),
    let k := isl.val * 256 + idx.val;
    let x := s.tkAt k;
    let d := s.dynP isl x;
    s.dynOpen k x = true ∧ s.dynFirst k x = true ∧ s.now ≤ x.launch + 48 ∧ (maskTiles (at0 0 x.call 0)).filter (s.poolFree isl) = [] :=
  ⟨0, 0, stDyn.setTk 0 { (stDyn.tkAt 0) with call := [0, 0, 0] }, by decide +kernel⟩

theorem wit_dynDefault : ∃ (isl : Isl) (idx : TktIx) (s : State),
    let k := isl.val * 256 + idx.val;
    let x := s.tkAt k;
    let n := min (min (s.dynP isl x).tref (s.dynP isl x).blocks) (s.freePool isl).length;
    s.dynOpen k x = true ∧ s.dynFirst k x = true ∧ x.launch + 48 ≤ s.now ∧ (x.state = 3 ∨ x.state = 4) ∧ n ≠ 0 ∧ s.warmHeld = false :=
  ⟨0, 0, { stDyn.setF (Reg.ISL_DYN_CFG 0) 0 3 1 with count := 12260 }, by decide +kernel⟩

theorem wit_dynWait : ∃ (isl : Isl) (idx : TktIx) (y : Nat) (ys : List Nat) (s : State),
    let k := isl.val * 256 + idx.val;
    s.freePool isl = y :: ys ∧ (Store.get dynNone s.dyns k).waiting = true ∧ (s.dyns.any fun e => e.1 / 256 = isl.val && e.1 ≠ k) = false ∧
      s.warmHeld = false :=
  ⟨0, 0, 15, [], { stDyn.setF (Reg.ISL_DYN_CFG 0) 0 3 1 with dyns := [(0, { reason := 4, waiting := true, total := 1 })] }, by decide +kernel⟩

theorem wit_dynPrepare : ∃ (isl : Isl) (idx : TktIx) (q : Fin 4) (p : DynPos) (v : Nat) (vs : List Nat) (s : State),
    let k := isl.val * 256 + idx.val;
    let x := s.tkAt k;
    let d := s.dynP isl x;
    let r := Store.get dynNone s.dyns k;
    s.dynLive k = true ∧ (r.pos.any fun p => !p.lost && s.tileFenced (isl.val * 16 + p.tile)) = false ∧ r.pos[q.val]? = some p ∧ p.todo = v :: vs ∧
      p.lost = false ∧ p.prep = none ∧ p.cur = none ∧ (r.pos.any fun x => !x.lost && x.todo.any fun y => y < v) = false ∧ max r.port p.wend ≤ s.now :=
  ⟨0, 0, 0, ({ tile := 12, todo := [0] }), 0, [], stDynRun { tile := 12, todo := [0] }, by decide +kernel⟩

theorem wit_dynSubRowWrite : ∃ (isl : Isl) (idx : TktIx) (q : Fin 4) (p : DynPos) (v e : Nat) (s : State),
    let k := isl.val * 256 + idx.val;
    let x := s.tkAt k;
    let d := s.dynP isl x;
    let r := Store.get dynNone s.dyns k;
    let gt := isl.val * 16 + p.tile;
    s.dynLive k = true ∧ (r.pos.any fun p => !p.lost && s.tileFenced (isl.val * 16 + p.tile)) = false ∧ r.pos[q.val]? = some p ∧ p.cur = some v ∧
      p.lost = false ∧ p.rows < d.kin ∧ p.entry = e + 1 ∧ s.tileBusy gt = false ∧ (p.rows = 0 ∨ p.lastRow + 5 ≤ s.now) ∧ s.locked gt = true ∧
      (s.grant isl (1, 1)).isSome = true :=
  ⟨0, 0, 0, ({ tile := 12, cur := some 0, entry := 6, rows := 1 }), 0, 5, stDynRun { tile := 12, cur := some 0, entry := 6, rows := 1 }, by decide +kernel⟩

theorem wit_dynSubPulse : ∃ (isl : Isl) (idx : TktIx) (q : Fin 4) (errs : List (Nat × Int)) (p : DynPos) (v : Nat) (s : State),
    let k := isl.val * 256 + idx.val;
    let x := s.tkAt k;
    let d := s.dynP isl x;
    let r := Store.get dynNone s.dyns k;
    let gt := isl.val * 16 + p.tile;
    let free := (List.range 256).filter fun i => (s.tk isl i).state = 0;
    s.dynLive k = true ∧ (r.pos.any fun p => !p.lost && s.tileFenced (isl.val * 16 + p.tile)) = false ∧ r.pos[q.val]? = some p ∧ p.cur = some v ∧
      p.lost = false ∧ p.redo = 0 ∧ p.pulses < d.m ∧ d.kin ≤ p.rows ∧ 2 ≤ free.length ∧
      (if p.pulses = 0 then residueTick r.t0 x.slot q p.wend else p.lastPulse + x.slot) ≤ s.now ∧ s.tileBusy gt = false ∧
      (s.grant isl (if x.mvmMode = 1 then (52, 12) else (40, 8))).isSome = true :=
  ⟨0, 0, 0, [], ({ tile := 12, cur := some 0, rows := 2 }), 0, { stDynRun { tile := 12, cur := some 0, rows := 2 } with count := 12280 }, by decide +kernel⟩

theorem wit_dynRevoked : ∃ (gt : Tile) (k : Nat) (r : DynRun) (s : State), (s.leases.any fun l => l.res = 4 && l.unit = gt && decide (l.expiry ≤ s.now)) = true ∧
    s.getB Reg.DBG_CTL 0 = false ∧ s.dyns.find? (fun e => e.1 / 256 = gt.val / 16 && e.2.pos.any fun p => p.tile = gt.val % 16) = some (k, r) ∧
    s.warmHeld = false :=
  ⟨12, 0, ({ t0 := 12200, pos := [{ tile := 12 }], total := 1 }), { stDynRun { tile := 12 } with leases := [{ res := 4, unit := 12, kind := 1, owner := 1, expiry := 5 }] }, by decide +kernel⟩

theorem wit_ferryFetch : ∃ (j h cmd : Nat) (data : List Byte) (ok : Bool) (x : FerryRun) (l : Nat) (s : State), s.refetch = [] ∧ s.runSpec j h cmd = some (x, l) ∧
    l ≤ s.now + 16 * max 1 (s.getF Reg.FRY_CTL 8 8) ∧
    (s.runs.any fun e => e.2.job = j && e.2.plan = h && (if h = 0 then e.2.gt = cmd else e.2.cmd = cmd)) = false ∧ (x.cist = true ∨
    s.badSlots.contains (s.runSlot x) = false) :=
  ⟨1, 1, 0, [], true, ({ job := 1, plan := 1, cmd := 0, ctx := 1, block := 0, cist := true }), 12200, (stPlan.setPlan 1 { (stPlan.plan 1) with cmds := [[1, 4, 1, 0]] }).setJob 1 { st := 3, plan := 1, origin := 12200 }, by decide +kernel⟩

theorem wit_ferryFetchAgain : ∃ (j h cmd : Nat) (data : List Byte) (ok : Bool) (f : Nat × Nat × Nat × Nat) (s : State),
    (s.refetch.find? fun f => f.1 = h && (if h = 0 then f.2.2.1 = (if j = 0 && h = 0 then cmd else 0) else f.2.1 = cmd)) = some f :=
  ⟨1, 1, 0, [], false, (1, 0, 0, 16384), { stPlan with refetch := [(1, 0, 0, 16384)] }, by decide +kernel⟩

theorem wit_fryCistErr : ∃ (r : Nat) (s : State), (s.run r).cist = true ∧ (s.run r).failed = [] ∧ s.warmHeld = false :=
  ⟨1, stPlan.setRun 1 { job := 1, plan := 1, ctx := 1, cist := true }, by decide +kernel⟩

theorem wit_ferryDelivery : ∃ (r : Nat) (isl : Isl) (n : Nat) (s : State),
    let x := s.run r;
    let m := min n (s.reach x isl);
    (s.runIslands x).contains isl.val = true ∧ x.copies = false ∧ s.islFenced isl = false ∧ x.bad isl = false ∧ cnt x.arrived isl < m ∧
      (64 ≤ cnt x.arrived isl ∨ m < 64 ∨ x.hdrOk = true) ∧ (x.poison.any fun l => 64 * l < m) = false :=
  ⟨1, 0, 50, stPlan.setRun 1 { job := 1, plan := 1, ctx := 1, buf := List.replicate 200 0 }, by decide +kernel⟩

theorem wit_ferryDeliveryAuth : ∃ (r : Nat) (isl : Isl) (n : Nat) (s : State),
    let x := s.run r;
    let m := min n (s.reach x isl);
    (s.runIslands x).contains isl.val = true ∧ x.copies = false ∧ s.islFenced isl = false ∧ x.bad isl = false ∧ cnt x.arrived isl < 64 ∧ 64 ≤ m ∧
      x.hdrOk = false ∧ s.warmHeld = false :=
  ⟨1, 0, 70, stPlan.setRun 1 { job := 1, plan := 1, ctx := 1, buf := List.replicate 200 0 }, by decide +kernel⟩

theorem wit_writeTiles : ∃ (isl : Isl) (idx : TktIx) (s : State),
    let x := s.tk isl idx;
    x.action = 7 ∧ x.uclass = 3 ∧ x.uindex < 4 ∧ (x.state = 1 ∨ x.state = 2) ∧ x.launch ≤ s.now ∧
      s.candidates (s.acctOf isl) = [isl.val * 256 + idx.val] ∧ s.ready (isl.val * 256 + idx.val) x = true ∧
      s.unitFenced (isl.val * 256 + idx.val) x = false ∧ s.runOf x = none :=
  ⟨0, 0, stTile.setTk 0 { state := 1, action := 7, uclass := 3, launch := 12200, planned := 12200, dln := 90 }, by decide +kernel⟩

theorem wit_ferryRowWrite : ∃ (isl : Isl) (idx : TktIx) (plain : List Byte) (r : Nat) (s : State),
    let x := s.run r;
    let k := isl.val * 256 + idx.val;
    let i := cnt x.rows isl;
    let g := s.runTiles x isl;
    s.runOf (s.tkAt k) = some (r, x) ∧ ((s.tkAt k).state = 3 ∨ (s.tkAt k).state = 4) ∧ (s.tkAt k).noAct = false ∧ (s.tkAt k).ran = false ∧
      x.copies = false ∧ x.bad isl = false ∧ i < 1024 ∧ (i = 0 ∧ (s.tkAt k).launch ≤ s.now ∨ i ≠ 0 ∧ cnt x.lastRow isl + 5 ≤ s.now) ∧
      64 + 384 * (i + 1) ≤ cnt x.arrived isl ∧ (g.all fun t => s.tileFree t i && s.locked t && !s.tileFenced t && !x.skipped.contains t) = true ∧
      (s.grant isl (g.length, 4)).isSome = true ∧ x.verified.contains isl.val = false :=
  ⟨0, 0, [7, 8], 1, (stTile.setTk 0 { state := 3, action := 7, uclass := 3, iter := 4 }).setRun 1 { gt := 4, arrived := [(0, 1000)] }, by decide +kernel⟩

theorem wit_ferryVerify : ∃ (isl : Isl) (idx : TktIx) (tagOk digestOk : Bool) (r : Nat) (s : State),
    let x := s.run r;
    s.runOf (s.tk isl idx) = some (r, x) ∧ ((s.tk isl idx).state = 3 ∨ (s.tk isl idx).state = 4) ∧ (s.tk isl idx).noAct = false ∧ x.copies = false ∧
      x.bad isl = false ∧ shardLen ≤ cnt x.arrived isl ∧ x.verified.contains isl.val = false ∧ s.warmHeld = false :=
  ⟨0, 0, true, true, 1, (stTile.setTk 0 { state := 3, action := 7, uclass := 3, iter := 4 }).setRun 1 { gt := 4, arrived := [(0, 393344)] }, by decide +kernel⟩

theorem wit_hbToBasin : ∃ (isl : Isl) (idx : TktIx) (bad : List Nat) (s : State),
    let x := s.tk isl idx;
    x.toRun 7 = true ∧ leAt x.rop 0 1 = 2 :=
  ⟨0, 0, [0], ({ stRow with frames := [(40, { ty := 1, owner := 2 })] }.setCx 1 { win := [(0, { backed := true, frame := 40, ty := 1 })] }).setTk 0 { state := 3, action := 7, uclass := 3, uindex := 4, ctx := 1, rop := [2, 0, 1, 0, 0, 0, 0, 0, 0, 0, 0, 0, 0, 0, 0, 0, 0, 16, 0, 0] }, by decide +kernel⟩

theorem wit_basinToHb : ∃ (isl : Isl) (idx : TktIx) (bad : List Nat) (s : State),
    let x := s.tk isl idx;
    x.toRun 7 = true ∧ leAt x.rop 0 1 = 3 :=
  ⟨0, 0, [], ({ stRow with frames := [(40, { ty := 1, owner := 2 })] }.setCx 1 { win := [(0, { backed := true, frame := 40, ty := 1 })] }).setTk 0 { state := 3, action := 7, uclass := 3, uindex := 4, ctx := 1, rop := [3, 0, 1, 0, 0, 0, 0, 0, 0, 0, 0, 0, 0, 0, 0, 0, 0, 16, 0, 0] }, by decide +kernel⟩

theorem wit_harbourReadDone : ∃ (blk ce : Nat) (ue : List (Fin 64)) (chk : Bool) (src : Fin 7) (s : State), blk < 37748736 ∧ s.warmHeld = false :=
  ⟨20000, 2, [5], true, 0, State.reset, by decide +kernel⟩

theorem wit_hbrCeStorm : ∃ (h : Stack) (s : State),
    let storm := decide (s.getF (Reg.HBR_CTL h) 16 16 < ((s.hbx h).ces.filter fun t => s.now < t + second).length);
    s.warmHeld = false :=
  ⟨2, { State.reset.setF (Reg.HBR_CTL 2) 16 16 1 with hbr := [(2, { ces := [0, 0] })] }, by decide +kernel⟩

theorem wit_patrolPass : ∃ (h : Stack) (s : State), s.getB (Reg.HBR_CTL h) 0 = true ∧ s.getB (Reg.HBR_STS h) 1 = false ∧ (s.hbx h).last + s.patrolTicks h ≤ s.now :=
  ⟨2, { State.reset.setReg (Reg.HBR_CTL 2) 0x101 with count := 125000000 }, by decide +kernel⟩

theorem wit_scrubPass : ∃ (bad : List Nat) (ms : Nat) (s : State), s.getF Reg.FRY_CTL 0 8 ≠ 0 ∧ s.scrubFrom + s.getF Reg.FRY_CTL 0 8 * second ≤ s.now ∧ s.warmHeld = false :=
  ⟨[], 5000, { State.reset.setF Reg.FRY_CTL 0 8 1 with count := 125000000 }, by decide +kernel⟩

theorem wit_swapLayerRewrite : ∃ (c : Ctx) (w : Swap) (s : State), s.swapOf c = some w ∧ w.running = false ∧ w.st ≠ 3 ∧ 0 < w.layer ∧ w.layer ≤ (s.plan w.new).layers ∧
    s.allPassed w.old w.layer = true ∧ (s.plan w.new).onceOf w.layer = [] ∧ s.failedOnce w.new = [] ∧
    (s.tickets.any fun e => e.2.action = 7 && e.2.job = 0 && e.2.plan = w.new) = false :=
  ⟨1, stSwap, { stPlan.setPlan 1 { (stPlan.plan 1) with hdr := [1, 1, 0, 0, 0, 0, 2, 0] } with swaps := [stSwap] }, by decide +kernel⟩

theorem wit_frySwapDone : ∃ (c : Ctx) (w : Swap) (s : State), s.swapOf c = some w ∧ w.running = false ∧ w.st = 2 ∧ ((s.plan w.new).layers = 0 ∨
    (s.plan w.new).layers < w.layer) ∧ (w.old = 0 ∨ s.inFlight w.old = []) ∧ s.warmHeld = false :=
  ⟨1, ({ stSwap with st := 2 }), { stPlan with swaps := [{ stSwap with st := 2 }] }, by decide +kernel⟩

theorem wit_linkUp : ∃ (speed : Fin 7) (width : Fin 17) (flit : Bool) (s : State), 3 ≤ speed.val ∧ (width.val = 4 ∨ width.val = 8 ∨ width.val = 16) ∧
    s.getB Reg.HIF_LINK_STS 11 = false ∧ s.boot.perst = false ∧ s.boot.sampled = true ∧ s.tide.refclk = true ∧ s.warmHeld = false :=
  ⟨5, 16, true, { State.reset with boot := { perst := false, sampled := true }, tide := { refclk := true } }, by decide +kernel⟩

theorem wit_hifLinkDown : ∃ (s : State), s.getB Reg.HIF_LINK_STS 11 = true ∧ s.warmHeld = false :=
  ⟨(stQ.setB Reg.HIF_LINK_STS 11 true).setJob 2 { st := 3, opc := 1, fn := 1 }, by decide +kernel⟩

theorem wit_sqTail : ∃ (f : Ctx) (q : Fin 16) (v : Fin 4096) (s : State),
    let x := s.qp f q;
    x.enabled = true ∧ s.shut f = false ∧ (s.ov f).refusing = false ∧ (s.ov f).free ≠ 0 :=
  ⟨1, 3, 4, stQ, by decide +kernel⟩

theorem wit_sqTailRefused : ∃ (f : Ctx) (q : Fin 16) (v : Fin 4096) (s : State), (s.qp f q).enabled = true ∧ s.shut f = false ∧ (s.ov f).refusing = false ∧ (s.ov f).free = 0 ∧
    s.warmHeld = false :=
  ⟨1, 3, 4, { stQ with ovf := [(1, { used := 32768 })] }, by decide +kernel⟩

theorem wit_cqHead : ∃ (f : Ctx) (q : Fin 16) (v : Fin 4096) (s : State),
    let x := s.qp f q;
    let n := (v + x.cqN - x.cqHead) % x.cqN;
    x.enabled = true ∧ s.shut f = false ∧ v < x.cqN ∧ n ≤ x.cqUsed ∧ x.spilled = [] :=
  ⟨1, 3, 2, stQ.setQp 1 3 { (stQ.qp 1 3) with cqUsed := 3 }, by decide +kernel⟩

theorem wit_cqHeadSpilled : ∃ (f : Ctx) (q : Fin 16) (v : Fin 4096) (e : List Byte) (s : State),
    let x := s.qp f q;
    x.enabled = true ∧ s.shut f = false ∧ v < x.cqN ∧ (v + x.cqN - x.cqHead) % x.cqN = 1 ∧ 1 ≤ x.cqUsed ∧ x.cqUsed - 1 + x.cqRsv < x.cqN ∧
      x.spilled = [e] :=
  ⟨1, 3, 1, [1, 2], { stQ.setQp 1 3 { (stQ.qp 1 3) with cqUsed := 3, spilled := [[1, 2]] } with ovf := [(1, { used := 1 })] }, by decide +kernel⟩

theorem wit_cqHeadBad : ∃ (f : Ctx) (q : Fin 16) (v : Fin 4096) (s : State),
    let x := s.qp f q;
    x.enabled = true ∧ s.shut f = false ∧ (x.cqN ≤ v ∨ x.cqUsed < (v + x.cqN - x.cqHead) % x.cqN) :=
  ⟨1, 3, 1, stQ, by decide +kernel⟩

theorem wit_entryFetch : ∃ (bytes : List Byte) (ok : Bool) (f q : Nat) (s : State),
    let x := s.qp f q;
    let head := if x.head + 1 = x.sqN then 0 else x.head + 1;
    s.nextQueue = some (f, q) ∧ x.cqFree = true ∧ ok = true ∧ entryOk (padTo 64 bytes) = true ∧ leAt (padTo 64 bytes) 0 1 ≠ 0 ∧
      leAt (padTo 64 bytes) 0 1 ≤ 6 :=
  ⟨(ent [6]), true, 1, 3, stQ, by decide +kernel⟩

theorem wit_entryFetchBad : ∃ (bytes : List Byte) (ok : Bool) (f q : Nat) (s : State), s.nextQueue = some (f, q) ∧ (s.qp f q).cqFree = true ∧ ok = true ∧
    entryOk (padTo 64 bytes) = false ∧ s.warmHeld = false :=
  ⟨[6], true, 1, 3, stQ, by decide +kernel⟩

theorem wit_qCreate : ∃ (rq : Requester) (via : Bool) (f : Nat) (s : State),
    let r := fun a => s.reg (bankReg f a);
    let q := fld (r Reg.HIF_Q_SEL) 0 4;
    s.qBank rq via = some f ∧ s.pageReset 10 0 = false ∧ s.pairErr f = none :=
  ⟨(.fn 1), false, 1, (stPlan.setReg (Reg.CTX_STS 1) 2).setReg (bankReg 1 Reg.HIF_Q_SIZE) 0x80008, by decide +kernel⟩

theorem wit_qCreateRefused : ∃ (rq : Requester) (via : Bool) (f e : Nat) (s : State),
    let q := fld (s.reg (bankReg f Reg.HIF_Q_SEL)) 0 4;
    s.qBank rq via = some f ∧ s.pageReset 10 0 = false ∧ s.pairErr f = some e :=
  ⟨(.fn 1), false, 1, 9, stPlan.setReg (bankReg 1 Reg.HIF_Q_SIZE) 0x80008, by decide +kernel⟩

theorem wit_qDelete : ∃ (rq : Requester) (via : Bool) (f : Nat) (s : State),
    let q := fld (s.reg (bankReg f Reg.HIF_Q_SEL)) 0 4;
    s.qBank rq via = some f ∧ s.pageReset 10 0 = false ∧ (s.qp f q).enabled = true :=
  ⟨(.fn 1), false, 1, stQ.setReg (bankReg 1 Reg.HIF_Q_SEL) 3, by decide +kernel⟩

theorem wit_inputBlockArrival : ∃ (j : Nat) (data : List Byte) (word : Word) (ok : Bool) (s : State),
    let jb := s.job j;
    let n := min 4096 (jb.inLen - jb.got);
    let r := s.placeRows j jb.got (padTo n data);
    jb.st = 1 ∧ jb.taken = true ∧ jb.opc = 1 ∧ jb.fast = false ∧ jb.inMode = 0 ∧ s.mayPlace j = true ∧ ok = true ∧ blockWord (padTo n data) = word :=
  ⟨2, [], blockWord (padTo 0 []), true, { stPlan.setJob 2 { st := 1, taken := true, opc := 1, plan := 1, fn := 1 } with tags := [(0, 2)] },
    by decide +kernel, by decide +kernel, by decide +kernel, by decide +kernel, by decide +kernel, by decide +kernel, rfl, rfl⟩

theorem wit_inputBlockArrivalWindow : ∃ (j : Nat) (data : List Byte) (word : Word) (ok : Bool) (s : State),
    let jb := s.job j;
    let n := min 4096 (jb.inLen - jb.got);
    jb.st = 1 ∧ jb.taken = true ∧ jb.opc = 1 ∧ jb.fast = false ∧ jb.inMode = 2 ∧ s.gateShut jb.fn = false ∧ ok = true ∧ blockWord (padTo n data) = word :=
  ⟨2, [], blockWord (padTo 0 []), true, { stPlan.setJob 2 { st := 1, taken := true, opc := 1, plan := 1, fn := 1, inMode := 2 } with tags := [(0, 2)] },
    by decide +kernel, by decide +kernel, by decide +kernel, by decide +kernel, by decide +kernel, by decide +kernel, rfl, rfl⟩

theorem wit_inputBlockArrivalCheck : ∃ (j : Nat) (data : List Byte) (word : Word) (ok : Bool) (s : State),
    let jb := s.job j;
    let n := min 4096 (jb.inLen - jb.got);
    jb.st = 1 ∧ jb.taken = true ∧ jb.opc = 1 ∧ jb.fast = false ∧ jb.inMode = 2 ∧ s.gateShut jb.fn = false ∧ ok = true ∧
      blockWord (padTo n data) ≠ word ∧ jb.status = 0 ∧ s.warmHeld = false :=
  ⟨2, [], blockWord (padTo 0 []) + 1, true, { stPlan.setJob 2 { st := 1, taken := true, opc := 1, plan := 1, fn := 1, inMode := 2 } with tags := [(0, 2)] },
    by decide +kernel, by decide +kernel, by decide +kernel, by decide +kernel, by decide +kernel, by decide +kernel, rfl, word_ne _, by decide +kernel,
    by decide +kernel⟩

theorem wit_pushPayloadWrite : ∃ (f : Ctx) (q : Fin 16) (off : Fin 4096) (bytes : List Byte) (isl : Nat) (l : Landing) (s : State), s.landOf f q = some (isl, l) ∧
    s.getB Reg.HIF_CTL 0 = true ∧ s.shut f = false ∧ l.job = 0 :=
  ⟨1, 3, 10, [5, 6], 2, ({ bound := true, fn := 1, queue := 3 }), { stQ.setB Reg.HIF_CTL 0 true with landing := [(2, { bound := true, fn := 1, queue := 3 })] }, by decide +kernel⟩

theorem wit_fastEntry : ∃ (f : Ctx) (q : Fin 16) (bytes : List Byte) (isl : Nat) (l : Landing) (s : State),
    let x := s.qp f q;
    let jb := { parseEntry f q x.head false (padTo 64 bytes) with fast := true, taken := true };
    s.getB Reg.HIF_CTL 0 = true ∧ x.enabled = true ∧ x.fast = true ∧ x.draining = false ∧ s.shut f = false ∧ x.cqFree = true ∧
      s.landOf f q = some (isl, l) ∧ l.job = 0 ∧ entryOk (padTo 64 bytes) = true ∧ jb.opc = 1 ∧ jb.plan = x.planH ∧ (s.plan jb.plan).live = true ∧
      (s.plan jb.plan).ctx = f.val ∧ jb.inMode = 0 ∧ jb.inLen ≤ 4096 ∧ s.badShape jb (s.plan jb.plan) = false ∧
      (blockWord (l.data jb.inLen)).toNat = jb.arg :=
  ⟨1, 3, ent (fastHead ++ leBytes zeroWord 4), 2, { bound := true, fn := 1, queue := 3 },
    { (stQ.setQp 1 3 { (stQ.qp 1 3) with fast := true, planH := 1 }).setB Reg.HIF_CTL 0 true with landing := [(2, { bound := true, fn := 1, queue := 3 })] },
    by decide +kernel, by decide +kernel, by decide +kernel, by decide +kernel, by decide +kernel, by decide +kernel, by decide +kernel, by decide +kernel,
    ent_ok _, by decide +kernel, by decide +kernel, by decide +kernel, by decide +kernel, by decide +kernel, by decide +kernel, by decide +kernel,
    fast_arg.symm⟩

theorem wit_fastEntryBusy : ∃ (f : Ctx) (q : Fin 16) (bytes : List Byte) (isl : Nat) (l : Landing) (s : State),
    let x := s.qp f q;
    s.getB Reg.HIF_CTL 0 = true ∧ x.enabled = true ∧ x.fast = true ∧ x.draining = false ∧ s.shut f = false ∧ x.cqFree = true ∧
      s.landOf f q = some (isl, l) ∧ l.job ≠ 0 ∧ entryOk (padTo 64 bytes) = true ∧ s.warmHeld = false :=
  ⟨1, 3, (ent [1, 4, 0, 0, 1]), 2, ({ bound := true, fn := 1, queue := 3, job := 9 }), { (stQ.setQp 1 3 { (stQ.qp 1 3) with fast := true, planH := 1 }).setB Reg.HIF_CTL 0 true with landing := [(2, { bound := true, fn := 1, queue := 3, job := 9 })] }, by decide +kernel⟩

theorem wit_fastCommit : ∃ (isl : Isl) (s : State),
    let l := Store.get (fun _ => ({} : Landing)) s.landing isl;
    let jb := s.job l.job;
    let r := (s.setLand isl { l with bytes := [], job := 0, waited := false }).placeRows l.job 0 (l.data jb.inLen);
    l.job ≠ 0 ∧ jb.st = 1 ∧ s.mayPlace l.job = true :=
  ⟨2, { stQ.setJob 9 { st := 1, plan := 1, fn := 1, opc := 1 } with landing := [(2, { bound := true, fn := 1, queue := 3, job := 9 })] }, by decide +kernel⟩

theorem wit_resultBlockWrite : ∃ (j : Nat) (wordOk linkOk : Bool) (s : State),
    let jb := s.job j;
    let p := s.plan jb.plan;
    let r := s.resultData jb p;
    jb.st = 4 ∧ jb.failed = false ∧ (s.outCmp p = false ∨ jb.compared = true) ∧ r.faults = [] ∧ wordOk = true ∧ linkOk = true ∧ jb.status = 0 :=
  ⟨9, true, true, stQ.setJob 9 { st := 4, plan := 1, fn := 1, queue := 3, opc := 1, outMode := 1 }, by decide +kernel⟩

theorem wit_completionWrite : ∃ (j : Nat) (s : State),
    let jb := s.job j;
    let x := s.qp jb.fn jb.queue;
    jb.st = 5 ∧ s.nextEnd j = true ∧ jb.silent = false ∧ x.enabled = true ∧ jb.slotOvf = false ∧ x.spilled = [] ∧ x.draining = false :=
  ⟨9, { (stQ.setQp 1 3 { (stQ.qp 1 3) with cqRsv := 1 }).setJob 9 { st := 5, fn := 1, queue := 3, opc := 6 } with ends := [9] }, by decide +kernel⟩

theorem wit_overflowWrite : ∃ (j : Nat) (s : State),
    let jb := s.job j;
    let x := s.qp jb.fn jb.queue;
    jb.st = 5 ∧ s.nextEnd j = true ∧ jb.silent = false ∧ x.enabled = true ∧ x.draining = false ∧ s.entryFree j = false :=
  ⟨9, { (stQ.setQp 1 3 { (stQ.qp 1 3) with cqUsed := 8 }).setJob 9 { st := 5, fn := 1, queue := 3, opc := 6, slotOvf := true } with ends := [9], ovf := [(1, { rsv := 1 })] }, by decide +kernel⟩

theorem wit_hifDmaErr : ∃ (j : Nat) (s : State),
    let jb := s.job j;
    ((jb.st = 1 ∧ (jb.inMode ≠ 1 ∨ jb.opc ≠ 1)) ∨ (jb.st = 4 ∧ jb.failed = false)) ∧ jb.status = 0 ∧ s.warmHeld = false :=
  ⟨9, stQ.setJob 9 { st := 1, fn := 1, queue := 3, opc := 1 }, by decide +kernel⟩

theorem wit_flr : ∃ (f : Ctx) (s : State), (s.rungs.any fun r => !r.held && (r.kind = 4 || (r.kind = 3 && s.ctxPart f = r.target))) = false :=
  ⟨1, (stQ.setReg (bankReg 1 Reg.HIF_Q_SEL) 3).setJob 2 { st := 3, fn := 1 }, by decide +kernel⟩

theorem wit_flrWaits : ∃ (f : Ctx) (s : State), (s.rungs.any fun r => !r.held && (r.kind = 4 || (r.kind = 3 && s.ctxPart f = r.target))) = true :=
  ⟨1, { stQ with rungs := [{ kind := 4, target := 0, cause := 0, start := 0 }] }, by decide +kernel⟩

theorem wit_bar2Write : ∃ (f : Ctx) (a : Nat) (bytes : List Byte) (v : Nat) (s : State),
    let e := Store.get winNone (s.cx f).win (a / 2097152);
    s.shut f = false ∧ e.backed = true ∧ e.ty = 1 ∧ a / 2097152 < (s.cx f).winFrames ∧ s.winBlock f (a / 4096) = some v ∧ a % 4096 + bytes.length ≤ 4096 :=
  ⟨1, 70, [7, 8], 20480, { stQ with frames := [(40, { ty := 1, owner := 2 })] }.setCx 1 { winFrames := 1, win := [(0, { backed := true, frame := 40, ty := 1 })] }, by decide +kernel⟩

theorem wit_bar2WriteDiscarded : ∃ (f : Ctx) (a : Nat) (bytes : List Byte) (s : State), s.shut f = true :=
  ⟨1, 70, [7, 8], stPlan, by decide +kernel⟩

theorem wit_nopJob : ∃ (j : Nat) (s : State), s.entry j 6 = true :=
  ⟨2, stPlan.setJob 2 { st := 1, opc := 6 }, by decide +kernel⟩

theorem wit_runJob : ∃ (j : Nat) (s : State),
    let jb := s.job j;
    let h := s.currentPlan jb.fn jb.plan;
    s.entry j 1 = true ∧ (s.plan h).live = true ∧ (s.plan h).ctx = jb.fn ∧ s.badShape jb (s.plan h) = false :=
  ⟨2, stPlan.setJob 2 { st := 1, opc := 1, plan := 1, fn := 1, inMode := 1, outMode := 1 }, by decide +kernel⟩

theorem wit_runJobRefused : ∃ (j : Nat) (s : State),
    let jb := s.job j;
    let h := s.currentPlan jb.fn jb.plan;
    s.entry j 1 = true ∧ ((s.plan h).live = false ∨ (s.plan h).ctx ≠ jb.fn ∨ s.badShape jb (s.plan h) = true) ∧ jb.status = 0 :=
  ⟨2, stPlan.setJob 2 { st := 1, opc := 1, plan := 5, fn := 1 }, by decide +kernel⟩

theorem wit_outputCompare : ∃ (j : Nat) (s : State),
    let jb := s.job j;
    let p := s.plan jb.plan;
    let out := fun k => s.repIsl p k (p.f 17 1);
    jb.st = 4 ∧ jb.failed = false ∧ jb.compared = false ∧ s.rcnt p ≠ 1 ∧ bit (s.rplCfg p) 3 = true ∧ verdict ((s.activeReps p).map fun k => (k,
      s.get64 (Reg.ISL_RPL_OUT_LO (out k)) (Reg.ISL_RPL_OUT_HI (out k)))) = none :=
  ⟨2, (stRpl 2).setJob 2 { st := 4, plan := 1 }, by decide +kernel⟩

theorem wit_outputCompareOdd : ∃ (j : Nat) (k : Nat) (s : State),
    let jb := s.job j;
    let p := s.plan jb.plan;
    let out := fun k => s.repIsl p k (p.f 17 1);
    jb.st = 4 ∧ jb.failed = false ∧ jb.compared = false ∧ s.rcnt p ≠ 1 ∧ bit (s.rplCfg p) 3 = true ∧ verdict ((s.activeReps p).map fun k => (k,
      s.get64 (Reg.ISL_RPL_OUT_LO (out k)) (Reg.ISL_RPL_OUT_HI (out k)))) = some (some k) ∧ s.warmHeld = false :=
  ⟨2, 1, ((stRpl 3).setReg (Reg.ISL_RPL_OUT_LO 8) 7).setJob 2 { st := 4, plan := 1 }, by decide +kernel⟩

theorem wit_outputCompareRerun : ∃ (j : Nat) (s : State),
    let jb := s.job j;
    let p := s.plan jb.plan;
    let out := fun k => s.repIsl p k (p.f 17 1);
    jb.st = 4 ∧ jb.failed = false ∧ jb.compared = false ∧ jb.rerun = false ∧ s.rcnt p ≠ 1 ∧ bit (s.rplCfg p) 3 = true ∧
      verdict ((s.activeReps p).map fun k => (k, s.get64 (Reg.ISL_RPL_OUT_LO (out k)) (Reg.ISL_RPL_OUT_HI (out k)))) = some none ∧ s.warmHeld = false :=
  ⟨2, ((stRpl 2).setReg (Reg.ISL_RPL_OUT_LO 8) 7).setJob 2 { st := 4, plan := 1 }, by decide +kernel⟩

theorem wit_replicaCompare : ∃ (h : Nat) (s : State),
    let p := s.plan h;
    let n := p.w * (p.h / s.rcnt p);
    let set := fun pi => (s.activeReps p).map fun k => s.repIsl p k pi;
    let same := fun pi => (set pi).all fun i => (s.reg (Reg.ISL_RPL_MASK i), s.reg (Reg.ISL_RPL_PTH i)) = (((set pi).map fun i => (s.reg (Reg.ISL_RPL_MASK i), s.reg (Reg.ISL_RPL_PTH i))).headD (0, 0));
    p.live = true ∧ p.captured = true ∧ (∀ pi : Nat, pi < n → verdict ((s.activeReps p).map fun k => (k,
      s.captureOf (s.repIsl p k pi) (same pi))) = none) :=
  ⟨1, (stRpl 2).setPlan 1 { ((stRpl 2).plan 1) with captured := true }, by decide +kernel⟩

theorem wit_rplExpel : ∃ (isl : Isl) (h k : Nat) (s : State), s.islFenced isl = true ∧ s.rplPlan isl = some (h, k) ∧ s.warmHeld = false ∧ (∀ i ∈ s.repIslands (s.plan h) k,
    i < 64) :=
  ⟨8, 1, 1, (stRpl 2).fenceDp 3 8 1, by decide +kernel⟩

theorem wit_loadPlan : ∃ (j : Nat) (manifest : List Byte) (sigOk dmaOk : Bool) (s : State),
    let c := (s.job j).fn;
    s.entry j 2 = true ∧ dmaOk = true ∧ sigOk = true ∧ manifestOk manifest = true ∧ s.keyOk c (leAt manifest 18 2) = true ∧
      s.getF (Reg.CTX_STS c) 0 2 = 2 ∧ (s.plans.filter fun e => e.2.live && e.2.ctx = c).length < 2 :=
  ⟨2, (mani 0 [[2]]), true, true, { (stPlan.setJob 2 { st := 1, opc := 2, fn := 1 }).setReg (Reg.CTX_STS 1) 2 with ownerKeys := [(0, { used := true })] }, by decide +kernel⟩

theorem wit_loadPlanRefused : ∃ (j : Nat) (manifest : List Byte) (sigOk dmaOk : Bool) (s : State), s.entry j 2 = true ∧ dmaOk = true ∧ (sigOk = false ∨
    manifestOk manifest = false) ∧ (s.job j).status = 0 ∧ s.warmHeld = false :=
  ⟨2, [], false, true, stPlan.setJob 2 { st := 1, opc := 2, fn := 1 }, by decide +kernel⟩

theorem wit_importSectionLines : ∃ (j : Nat) (data : List Byte) (ok dmaOk : Bool) (m : Import) (s : State),
    let e := sectOf m.manifest m.next;
    s.imports.find? (fun x => x.job = j) = some m ∧ ok = true ∧ dmaOk = true ∧ leAt e 0 1 = 1 ∧ m.next + 1 < sectCnt m.manifest :=
  ⟨2, [7, 8, 9], true, true, ({ job := 2, ctx := 1, iova := 0, manifest := mani 0 [[1, 0, 0, 0, 2, 0, 0, 0, 0, 0, 0, 0, 0, 0, 0, 0, 64], [2]] }), { stRow with imports := [{ job := 2, ctx := 1, iova := 0, manifest := mani 0 [[1, 0, 0, 0, 2, 0, 0, 0, 0, 0, 0, 0, 0, 0, 0, 0, 64], [2]] }] }, by decide +kernel⟩

theorem wit_importSectionCommands : ∃ (j : Nat) (data : List Byte) (ok dmaOk : Bool) (m : Import) (s : State),
    let e := sectOf m.manifest m.next;
    s.imports.find? (fun x => x.job = j) = some m ∧ ok = true ∧ dmaOk = true ∧ leAt e 0 1 = 2 ∧ m.next + 1 < sectCnt m.manifest :=
  ⟨2, [7, 8, 9], true, true, ({ job := 2, ctx := 1, iova := 0, manifest := mani 0 [[2, 0, 0, 0, 2, 0, 0, 0, 0, 0, 0, 0, 0, 0, 0, 0, 64], [2]] }), { stRow with imports := [{ job := 2, ctx := 1, iova := 0, manifest := mani 0 [[2, 0, 0, 0, 2, 0, 0, 0, 0, 0, 0, 0, 0, 0, 0, 0, 64], [2]] }] }, by decide +kernel⟩

theorem wit_importSectionData : ∃ (j : Nat) (data : List Byte) (ok dmaOk : Bool) (m : Import) (l : List Nat) (s : State),
    let e := sectOf m.manifest m.next;
    let r := s.backAll m.ctx 1 (positions (leAt e 4 4) (leAt e 16 4));
    s.imports.find? (fun x => x.job = j) = some m ∧ ok = true ∧ dmaOk = true ∧ leAt e 0 1 = 3 ∧ r.map (·.2) = some l ∧ m.next + 1 < sectCnt m.manifest :=
  ⟨2, [7, 8, 9], true, true, ({ job := 2, ctx := 1, iova := 0, manifest := mani 0 [[3, 0, 0, 0, 2, 0, 0, 0, 0, 0, 0, 0, 0, 0, 0, 0, 64], [2]] }), [0], { stRow.setCx 1 { winFrames := 2 } with imports := [{ job := 2, ctx := 1, iova := 0, manifest := mani 0 [[3, 0, 0, 0, 2, 0, 0, 0, 0, 0, 0, 0, 0, 0, 0, 0, 64], [2]] }] }, by decide +kernel⟩

theorem wit_unloadPlan : ∃ (j : Nat) (s : State),
    let h := (s.job j).plan;
    s.entry j 3 = true ∧ s.ownPlan j = true ∧ (s.jobs.any fun e => e.2.plan = h && e.2.st = 3) = false :=
  ⟨2, stPlan.setJob 2 { st := 1, opc := 3, fn := 1, plan := 1 }, by decide +kernel⟩

theorem wit_unloadPlanLater : ∃ (j : Nat) (s : State),
    let h := (s.job j).plan;
    s.entry j 3 = true ∧ s.ownPlan j = true ∧ (s.jobs.any fun e => e.1 ≠ j && e.2.plan = h && e.2.st = 3) = true :=
  ⟨2, (stPlan.setJob 2 { st := 1, opc := 3, fn := 1, plan := 1 }).setJob 3 { st := 3, plan := 1 }, by decide +kernel⟩

theorem wit_swapPlan : ∃ (j : Nat) (s : State),
    let jb := s.job j;
    s.entry j 4 = true ∧ (s.swaps.any fun w => w.ctx = jb.fn) = false ∧ s.getF Reg.BOOT_PROF_STS 0 2 ≠ 2 ∧ s.ownPlan j = true ∧
      (s.plan jb.plan).f 31 1 % 2 = 1 :=
  ⟨2, (stPlan.setPlan 1 { (stPlan.plan 1) with hdr := padTo 31 [1, 1] ++ [1] }).setJob 2 { st := 1, opc := 4, fn := 1, plan := 1 }, by decide +kernel⟩

theorem wit_cistReg : ∃ (j : Nat) (s : State),
    let jb := s.job j;
    s.entry j 5 = true ∧ (s.plans.any fun e => e.2.live && e.2.ctx = jb.fn && e.2.usesCist) = false ∧ jb.fn < 64 :=
  ⟨2, stPlan.setJob 2 { st := 1, opc := 5, fn := 1, inAddr := 4096, inLen := 8 }, by decide +kernel⟩

theorem wit_tileAssignWrite : ∃ (n : Pilot) (h : Nat) (isl : Isl) (wti : Fin 4096) (tile : Fin 16) (s : State), (n.val = 3 ∨ n.val = 4) ∧ (s.plan h).live = true ∧
    (s.planIslands (s.plan h)).contains isl.val = true ∧ s.now < s.nextBarrier h ∧ (s.plan h).rehome = [] :=
  ⟨3, 1, 0, 5, 9, stPlan.setJob 3 { st := 3, plan := 1, origin := 100000 }, by decide +kernel⟩

theorem wit_tileAssignWriteNow : ∃ (n : Pilot) (h : Nat) (isl : Isl) (wti : Fin 4096) (tile : Fin 16) (s : State),
    let p := s.plan h;
    (n.val = 3 ∨ n.val = 4) ∧ p.live = true ∧ (s.planIslands p).contains isl.val = true ∧ s.nextBarrier h ≤ s.now ∧ p.rehome = [] :=
  ⟨3, 1, 0, 5, 9, { stPlan with tags := [(0, 2)] }, by decide +kernel⟩

theorem wit_fountainExpand : ∃ (isl : Isl) (idx : TktIx) (s : State), ((s.tk isl idx).state = 1 ∨ (s.tk isl idx).state = 2) ∧ (s.tk isl idx).fountainFed = true ∧
    (s.tk isl idx).isRepeat = false ∧ (s.tk isl idx).launch ≤ s.now + 1 :=
  ⟨0, 0, stRow.setTk 0 { state := 1, action := 1, ctx := 1, inA := 128, extent := 4, fmt := 0 }, by decide +kernel⟩

theorem wit_standardPulse : ∃ (isl : Isl) (idx : TktIx) (errs : List (Nat × Int)) (s : State),
    let x := s.tk isl idx;
    let g := isl.val * 16 + x.uindex;
    x.toRun 1 = true :=
  ⟨0, 0, [(5,2)], stRow.setTk 0 { state := 3, action := 1, ctx := 1, inA := 128, extent := 4, fmt := 0, uindex := 3 }, by decide +kernel⟩

theorem wit_extendedPulse : ∃ (isl : Isl) (idx : TktIx) (errs : List (Nat × Int)) (s : State),
    let x := s.tk isl idx;
    let g := isl.val * 16 + x.uindex;
    x.toRun 2 = true :=
  ⟨0, 0, [(5,2)], stRow.setTk 0 { state := 3, action := 2, ctx := 1, inA := 128, extent := 4, fmt := 0, uindex := 3 }, by decide +kernel⟩

theorem wit_transposePhase : ∃ (isl : Isl) (idx : TktIx) (errs : List (Nat × Int)) (s : State),
    let x := s.tk isl idx;
    let g := isl.val * 16 + x.uindex;
    x.toRun 3 = true :=
  ⟨0, 0, [(5,2)], stRow.setTk 0 { state := 3, action := 3, ctx := 1, inA := 128, extent := 4, fmt := 0, uindex := 3, phase := 2 }, by decide +kernel⟩

theorem wit_spillRowRead : ∃ (gt : Tile) (devs : List (Fin 528 × Fin 64)) (a : AckRec) (i idx : Nat) (s : State),
    let e := at0 ⟨0, 0, 1, []⟩ a.spills i;
    let rr := s.rowReadAt gt e.row (devs.map fun p => (p.1.val, BitVec.ofNat 8 p.2.val));
    s.nextSpill gt = some (a, i) ∧ (s.tickets.any fun x => x.2.action = 4 && tkTile x.1 x.2 = gt) = false ∧ s.tileBusy gt = false ∧
      a.launch + a.slot + 5 * i ≤ s.now ∧ s.freeIdx (gt / 16) = some idx ∧ s.tileFenced gt = false ∧ (s.grant (gt / 16) (1, 1)).isSome = true ∧
      s.locked gt = true :=
  ⟨3, [], stAck, 0, 0, { stTile.setRow 3 0 rowT with acks := [stAck] }, by decide +kernel⟩

theorem wit_rowioRead : ∃ (isl : Isl) (idx : TktIx) (devs : List (Fin 528 × Fin 64)) (s : State),
    let x := s.tk isl idx;
    let g := isl.val * 16 + x.uindex;
    let rr := s.rowReadAt g x.rowNo (devs.map fun p => (p.1.val, BitVec.ofNat 8 p.2.val));
    x.toRun 5 = true :=
  ⟨0, 0, [], (stRow.setRow 3 0 rowT).setTk 0 { state := 3, action := 5, ctx := 1, uindex := 3 }, by decide +kernel⟩

theorem wit_rowioWrite : ∃ (isl : Isl) (idx : TktIx) (s : State),
    let x := s.tk isl idx;
    let g := isl.val * 16 + x.uindex;
    let r := s.readBytes isl x.ctx x.inA 512;
    x.toRun 6 = true :=
  ⟨0, 0, stRow.setTk 0 { state := 3, action := 6, ctx := 1, uindex := 3 }, by decide +kernel⟩

theorem wit_refreshSlotSkip : ∃ (gt : Tile) (s : State), s.refreshing gt = true ∧ s.now % s.period gt = s.getF (Reg.TIL_RFSH_CTL gt) 8 6 ∧ (s.tx gt).rf = 0 ∧
    (s.row gt (s.getF (Reg.TIL_RFSH_PTR gt) 0 10)).fresh = true ∧ (s.row gt (s.getF (Reg.TIL_RFSH_PTR gt) 0 10)).valid = true :=
  ⟨3, stTile.setRow 3 0 { rowT with fresh := true }, by decide +kernel⟩

theorem wit_refreshSlot : ∃ (gt : Tile) (s : State), s.refreshing gt = true ∧ s.now % s.period gt = s.getF (Reg.TIL_RFSH_CTL gt) 8 6 ∧ (s.tx gt).rf = 0 ∧
    (s.row gt (s.getF (Reg.TIL_RFSH_PTR gt) 0 10)).fresh = false ∧ (s.row gt (s.getF (Reg.TIL_RFSH_PTR gt) 0 10)).valid = true ∧ s.locked gt = true :=
  ⟨3, stTile.setRow 3 0 rowT, by decide +kernel⟩

theorem wit_rowRefreshDone : ∃ (gt : Tile) (codes : List (Fin 528 × Fin 128)) (s : State), (s.tx gt).rf = 2 ∧ (s.tx gt).rfStart + 6 ≤ s.now ∧ (s.tx gt).rfLost = false ∧
    (s.tx gt).relReq = false ∧ (s.row gt (s.getF (Reg.TIL_RFSH_PTR gt) 0 10)).valid = true ∧ (s.getB (Reg.TIL_RFSH_CTL gt) 2 = false ∨ codes = [] ∧
    rowTerm (s.getF (Reg.TIL_RFSH_PTR gt) 0 10) (s.row gt (s.getF (Reg.TIL_RFSH_PTR gt) 0 10)).levels = (s.row gt (s.getF (Reg.TIL_RFSH_PTR gt) 0 10)).term) :=
  ⟨3, [], (((stTile.setRow 3 0 rowT).setB (Reg.TIL_RFSH_CTL 3) 2 false).updTx 3 fun x => { x with rf := 2 }), by decide +kernel⟩

theorem wit_catchupRefresh : ∃ (gt : Tile) (s : State), s.refreshing gt = true ∧ s.owed gt ≠ 0 ∧ (s.tx gt).held = false ∧ (s.tx gt).rf = 0 ∧ s.tileBusy gt = false ∧
    s.quiet gt 6 = true ∧ (s.row gt (s.getF (Reg.TIL_RFSH_PTR gt) 0 10)).valid = true ∧ (s.row gt (s.getF (Reg.TIL_RFSH_PTR gt) 0 10)).fresh = false ∧
    (s.grant (gt / 16) (1, 1)).isSome = true :=
  ⟨3, { ((stTile.setRow 3 0 rowT).setOwed 3 5).setF (Reg.TIL_RFSH_CTL 3) 8 6 50 with count := 1220 }, by decide +kernel⟩

theorem wit_catchupRefreshSkip : ∃ (gt : Tile) (s : State), s.refreshing gt = true ∧ s.owed gt ≠ 0 ∧ (s.tx gt).held = false ∧ (s.tx gt).rf = 0 ∧ s.tileBusy gt = false ∧
    s.quiet gt 6 = true ∧ (s.row gt (s.getF (Reg.TIL_RFSH_PTR gt) 0 10)).valid = false :=
  ⟨3, { (stTile.setOwed 3 5).setF (Reg.TIL_RFSH_CTL 3) 8 6 50 with count := 1220 }, by decide +kernel⟩

theorem wit_tilRfshLate : ∃ (gt : Tile) (a r : Nat) (s : State), s.oldest gt = some (a, r) ∧ 2 * 1024 * s.period gt < a ∧ s.getB (Reg.TIL_RFSH_STS gt) 6 = false ∧
    s.getB (Reg.TIL_RFSH_STS gt) 3 = false ∧ s.warmHeld = false :=
  ⟨3, 0x50000, 0, { stTile.setRow 3 0 rowT with count := 0x50000 }, by decide +kernel⟩

theorem wit_release : ∃ (rq : Requester) (gt : Tile) (s : State), s.pageReset 4 gt = false ∧ Requester.inner rq = true ∧ s.inRowOp gt = false :=
  ⟨.causeway, 3, stTile.setRow 3 0 rowT, by decide +kernel⟩

theorem wit_releaseLater : ∃ (rq : Requester) (gt : Tile) (s : State), s.pageReset 4 gt = false ∧ Requester.inner rq = true ∧ s.inRowOp gt = true :=
  ⟨(.pilot 3), 3, (stTile.setRow 3 0 rowT).tileAct 3 6, by decide +kernel⟩

theorem wit_releaseApply : ∃ (gt : Tile) (s : State), (s.tx gt).relReq = true ∧ s.inRowOp gt = false :=
  ⟨3, (stTile.setRow 3 0 rowT).updTx 3 fun x => { x with relReq := true }, by decide +kernel⟩

theorem wit_tilDecayed : ∃ (gt : Tile) (s : State), s.getF (Reg.TIL_RFSH_STS gt) 1 2 = 1 ∧ (s.tx gt).relTick + 25000000 ≤ s.now ∧ s.warmHeld = false :=
  ⟨3, { stTile.setF (Reg.TIL_RFSH_STS 3) 1 2 1 with count := 25000001 }, by decide +kernel⟩

theorem wit_tilRfshRegime : ∃ (gt : Tile) (h w : Bool) (t0 : Nat) (s : State), (s.tx gt).regime = some (h, w, t0) ∧ t0 < s.now ∧ s.now % 122 = s.getF (Reg.TIL_RFSH_CTL gt) 8 6 ∧
    s.warmHeld = false ∧ (∀ e ∈ s.plans, ∀ i ∈ s.planIslands e.2, i < 64) :=
  ⟨3, true, false, 9, stTile.updTx 3 fun x => { x with regime := some (true, false, 9) }, by decide +kernel⟩

theorem wit_gridWrite : ∃ (rq : Requester) (gt : Tile) (v : Bool) (s : State), s.pageReset 4 gt = false ∧ Requester.inner rq = true :=
  ⟨(.pilot 3), 3, true, stTile, by decide +kernel⟩

theorem wit_phaseWrite : ∃ (rq : Requester) (gt : Tile) (v : Fin 64) (s : State), s.pageReset 4 gt = false ∧ Requester.inner rq = true :=
  ⟨(.pilot 3), 3, 60, stTile, by decide +kernel⟩

theorem wit_termStoreEcc : ∃ (gt : Tile) (r : Fin 1024) (s : State), (s.row gt r).valid = true ∧ s.warmHeld = false :=
  ⟨3, 0, stTile.setRow 3 0 rowT, by decide +kernel⟩

theorem wit_digWriteRecompute : ∃ (gt : Tile) (s : State), (s.tx gt).recomp.isSome = true :=
  ⟨3, (stTile.setRow 3 0 rowT).updTx 3 fun x => { x with recomp := some 0 }, by decide +kernel⟩

theorem wit_tunitLock : ∃ (gt : Tile) (s : State), s.getB Reg.TID_STS 0 = true :=
  ⟨3, stTide, by decide +kernel⟩

theorem wit_tilTunitUnlock : ∃ (gt : Tile) (begun : Bool) (s : State), s.locked gt = true ∧ s.warmHeld = false :=
  ⟨3, false, stTile, by decide +kernel⟩

theorem wit_colmapApply : ∃ (rq : Requester) (gt : Tile) (s : State), s.pageReset 4 gt = false ∧ Requester.trims rq = true :=
  ⟨.causeway, 3, (stTile.setB (Reg.TIL_COLMAP_CTL 3) 0 true).setF (Reg.TIL_COLMAP 3 0) 0 10 17, by decide +kernel⟩

theorem wit_copyPassRowOp : ∃ (gt : Tile) (devs : List (Fin 528 × Fin 64)) (r : Nat) (s : State), s.getB (Reg.TIL_COLMAP_CTL gt) 9 = true ∧ s.tileBusy gt = false ∧
    s.tileFenced gt = false ∧ s.quiet gt 5 = true ∧ s.copyNext gt (s.tx gt).copyRow = some r ∧ (s.tx gt).copyLv ≠ [] ∧ (s.grant (gt / 16) (1,
    0)).isSome = true ∧ s.locked gt = true :=
  ⟨3, [], 0, { (((stTile.setRow 3 0 rowT).setB (Reg.TIL_COLMAP_CTL 3) 9 true).setF (Reg.TIL_RFSH_CTL 3) 8 6 50).updTx 3 fun x => { x with copyLv := List.replicate 512 33#8 } with count := 1220 }, by decide +kernel⟩

theorem wit_copyPassRowOpRead : ∃ (gt : Tile) (devs : List (Fin 528 × Fin 64)) (r : Nat) (s : State), s.getB (Reg.TIL_COLMAP_CTL gt) 9 = true ∧ s.tileBusy gt = false ∧
    s.tileFenced gt = false ∧ s.quiet gt 5 = true ∧ s.copyNext gt (s.tx gt).copyRow = some r ∧ (s.tx gt).copyLv = [] ∧ (s.grant (gt / 16) (1,
    1)).isSome = true ∧ s.locked gt = true ∧ (s.rowReadAt gt r (devs.map fun p => (p.1.val, BitVec.ofNat 8 p.2.val))).failed = false :=
  ⟨3, [], 0, { ((stTile.setRow 3 0 rowT).setB (Reg.TIL_COLMAP_CTL 3) 9 true).setF (Reg.TIL_RFSH_CTL 3) 8 6 50 with count := 1220 }, by decide +kernel⟩

theorem wit_tilColmapDone : ∃ (gt : Tile) (s : State), s.getB (Reg.TIL_COLMAP_CTL gt) 9 = true ∧ s.copyNext gt (s.tx gt).copyRow = none ∧ (s.tx gt).copyEnd < s.now ∧
    s.warmHeld = false :=
  ⟨3, { (stTile.setB (Reg.TIL_COLMAP_CTL 3) 9 true).updTx 3 fun x => { x with mapNext := [some 7, none, none, none] } with count := 1220 }, by decide +kernel⟩

theorem wit_trimWinWrite : ∃ (rq : Requester) (gt : Tile) (ix : Fin 512) (v : Word) (s : State), s.pageReset 4 gt = false ∧ Requester.trims rq = true ∧
    s.getB (Reg.TIL_TRIM_WIN_CTL gt) 0 = true ∧ s.inRun gt = false ∧ s.getF (Reg.TIL_TRIM_WIN_CTL gt) 1 1 ≠ s.bankOf gt :=
  ⟨.causeway, 3, 5, 0x12345678, stTile.setReg (Reg.TIL_TRIM_WIN_CTL 3) 3, by decide +kernel⟩

theorem wit_actOp : ∃ (isl : Isl) (idx : TktIx) (s : State),
    let x := s.tk isl idx;
    let r := s.readRow isl x.ctx x.inA 3 x.rlen;
    let y := (r.vals x.rlen).map (actVal x.p2 x.p0 x.p1 (if x.p2 = 2 then (s.readLines isl x.ctx x.lut 9).bytes else []));
    x.toRill 0x04 = true :=
  ⟨0, 0, stRow.setTk 0 { state := 3, action := 0x10, ctx := 1, inA := 0, outA := 256, rop := [4, 0, 0, 0, 0, 0, 0, 0, 0, 0, 2, 0] }, by decide +kernel⟩

theorem wit_addOp : ∃ (isl : Isl) (idx : TktIx) (s : State),
    let x := s.tk isl idx;
    let r := s.readRow isl x.ctx x.inA 3 x.rlen;
    let a := s.readRow isl x.ctx x.auxA 3 x.rlen;
    let y := ((r.vals x.rlen).zip (a.vals x.rlen)).map fun p => fAdd p.1 p.2;
    let st := flagsOf y ||| r.tail.rstat ||| r.shape 3 x.rlen ||| a.tail.rstat ||| a.shape 3 x.rlen;
    x.toRill 0x05 = true :=
  ⟨0, 0, stRow.setTk 0 { state := 3, action := 0x10, ctx := 1, inA := 0, auxA := 0, outA := 256, rop := [5, 0, 0, 0, 0, 0, 0, 0, 0, 0, 2, 0] }, by decide +kernel⟩

theorem wit_mulOp : ∃ (isl : Isl) (idx : TktIx) (s : State),
    let x := s.tk isl idx;
    let r := s.readRow isl x.ctx x.inA 3 x.rlen;
    let a := s.readRow isl x.ctx x.auxA 3 x.rlen;
    let y := ((r.vals x.rlen).zip (a.vals x.rlen)).map fun p => fMul p.1 p.2;
    let st := flagsOf y ||| r.tail.rstat ||| r.shape 3 x.rlen ||| a.tail.rstat ||| a.shape 3 x.rlen;
    x.toRill 0x06 = true :=
  ⟨0, 0, stRow.setTk 0 { state := 3, action := 0x10, ctx := 1, inA := 0, auxA := 0, outA := 256, rop := [6, 0, 0, 0, 0, 0, 0, 0, 0, 0, 2, 0] }, by decide +kernel⟩

theorem wit_normOp : ∃ (isl : Isl) (idx : TktIx) (s : State),
    let x := s.tk isl idx;
    let r := s.readRow isl x.ctx x.inA 3 x.rlen;
    let y := normVals (x.rflag 3) (s.readLines isl x.ctx x.lut 9).bytes (r.vals x.rlen);
    let st := flagsOf y ||| r.tail.rstat ||| r.shape 3 x.rlen;
    x.toRill 0x07 = true :=
  ⟨0, 0, stRow.setTk 0 { state := 3, action := 0x10, ctx := 1, inA := 0, outA := 256, rop := [7, 8, 0, 0, 0, 0, 0, 0, 0, 0, 2, 0] }, by decide +kernel⟩

theorem wit_softmax : ∃ (isl : Isl) (idx : TktIx) (s : State),
    let x := s.tk isl idx;
    let r := s.readRow isl x.ctx x.inA 3 x.rlen;
    let y := softmaxVals (s.readLines isl x.ctx x.lut 9).bytes (r.vals x.rlen);
    let st := flagsOf y ||| r.tail.rstat ||| r.shape 3 x.rlen;
    x.toRill 0x08 = true :=
  ⟨0, 0, stRow.setTk 0 { state := 3, action := 0x10, ctx := 1, inA := 0, outA := 256, rop := [8, 0, 0, 0, 0, 0, 0, 0, 0, 0, 2, 0] }, by decide +kernel⟩

theorem wit_quant : ∃ (isl : Isl) (idx : TktIx) (s : State),
    let x := s.tk isl idx;
    let r := s.readRow isl x.ctx x.inA 3 x.rlen;
    let f := if x.rflag 2 then 1 else 0;
    let q := quantVals f ((r.entries.map (·.1)).filter (· < x.rlen)) (r.vals x.rlen);
    let good := r.listBad = 0 && r.tail.cnt != 0;
    x.toRill 0x02 = true :=
  ⟨0, 0, stRow.setTk 0 { state := 3, action := 0x10, ctx := 1, inA := 0, outA := 256, rop := [2, 0, 0, 0, 0, 0, 0, 0, 0, 0, 2, 0] }, by decide +kernel⟩

theorem wit_outsel : ∃ (isl : Isl) (idx : TktIx) (s : State),
    let x := s.tk isl idx;
    let r := s.readRow isl x.ctx x.inA 3 x.rlen;
    let v := r.vals x.rlen;
    let cand := (List.range x.rlen).filter fun i => i < r.tail.len && finiteWord (BitVec.ofNat 32 (leAt r.data (4 * i) 4)) && fLt (fBf x.p0) (fAbs (at0 fZero v i));
    let sel := cand.filter ((cand.foldl (fun l i => insertCand v i l) []).take (min 16 x.p2)).contains;
    let line := sideLine (sel.map fun i => (i, bfOf (at0 fZero v i).w));
    x.toRill 0x03 = true :=
  ⟨0, 0, stRow.setTk 0 { state := 3, action := 0x10, ctx := 1, inA := 0, outA := 256, rop := [3, 0, 0x80, 0x40, 0, 0, 1, 0, 0, 0, 2, 0] }, by decide +kernel⟩

theorem wit_copyOp : ∃ (isl : Isl) (idx : TktIx) (s : State),
    let x := s.tk isl idx;
    let r := s.readRow isl x.ctx x.inA 3 x.rlen;
    let st := r.tail.rstat ||| r.shape 3 x.rlen ||| flagsOf (r.vals x.rlen);
    x.toRill 0x0B = true ∧ s.copyFmt isl x.ctx x.inA x.rlen = 3 :=
  ⟨0, 0, stRow.setTk 0 { state := 3, action := 0x10, ctx := 1, inA := 0, outA := 256, rop := [11, 0, 0, 0, 0, 0, 0, 0, 0, 0, 2, 0] }, by decide +kernel⟩

theorem wit_copyOpCodes : ∃ (isl : Isl) (idx : TktIx) (s : State),
    let x := s.tk isl idx;
    let f := s.copyFmt isl x.ctx x.inA x.rlen;
    let r := s.readRow isl x.ctx x.inA f x.rlen;
    let d := tabulate (rowBytes f x.rlen) fun i => if f = 1 && x.rlen % 2 = 1 && i + 1 = rowBytes f x.rlen then at0 0 r.data i &&& 0xF#8 else at0 0 r.data i;
    x.toRill 0x0B = true ∧ s.copyFmt isl x.ctx x.inA x.rlen ≠ 3 :=
  ⟨0, 0, stRow.setTk 0 { state := 3, action := 0x10, ctx := 1, inA := 128, outA := 256, rop := [11, 0, 0, 0, 0, 0, 0, 0, 0, 0, 4, 0] }, by decide +kernel⟩

theorem wit_descale : ∃ (isl : Isl) (idx : TktIx) (a : AckRec) (s : State),
    let x := s.tk isl idx;
    let y := tabulate 512 fun i => sliceValue a x.p0 i;
    let c := compareCounts (a.mode = 1) a.counts a.samp.g a.samp.tol a.samp.win a.samp.refEn;
    x.toRill 0x01 = true ∧ s.ackFor x = some a ∧ a.mode ≠ 2 ∧ (a.status % 4 ≠ 0 ∨ c.miss = 0 ∧ c.refBad = 0) ∧ x.dyn = 0 ∧ x.kx = 0 ∧
      x.rflag 0 = false ∧ x.rflag 1 = false :=
  ⟨0, 0, ackD, { stRow.setTk 0 { state := 3, action := 0x10, ctx := 1, outA := 256, rop := [1, 0, 0, 0, 0, 0, 0, 0, 0, 0, 2, 0] } with acks := [ackD] }, by decide +kernel⟩

theorem wit_descaleRepeat : ∃ (isl : Isl) (idx : TktIx) (a : AckRec) (s : State),
    let x := s.tk isl idx;
    let c := compareCounts (a.mode = 1) a.counts a.samp.g a.samp.tol a.samp.win a.samp.refEn;
    x.toRill 0x01 = true ∧ s.ackFor x = some a ∧ a.mode ≠ 2 ∧ a.status % 4 = 0 ∧ (c.miss ≠ 0 ∨ c.refBad ≠ 0) ∧ x.dyn = 0 ∧ a.isRepeat = false :=
  ⟨0, 0, ackB, { stRow.setTk 0 { state := 3, action := 0x10, ctx := 1, outA := 256, rop := [1, 0, 0, 0, 0, 0, 0, 0, 0, 0, 2, 0] } with acks := [ackB] }, by decide +kernel⟩

theorem wit_repeatPulse : ∃ (isl : Isl) (a : AckRec) (d : Ticket) (i j : Nat) (s : State), (s.acks.find? fun a => a.repKey != 0 && a.tile / 16 = isl.val) = some a ∧
    ((List.range 256).filter fun i => (s.tk isl i).state = 0).take 2 = [i, j] ∧ a.dtk.head? = some d ∧ (s.job a.job).st = 3 ∧
    (s.job a.job).failed = false :=
  ⟨0, ackR, ({ state := 3 }), 0, 1, { stRow.setJob 0 { st := 3 } with acks := [ackR] }, by decide +kernel⟩

theorem wit_gquant : ∃ (isl : Isl) (idx : TktIx) (s : State),
    let x := s.tk isl idx;
    let r := s.readRow isl x.ctx x.inA 3 x.rlen;
    let a := s.readBytes isl x.ctx (tailAdr x.auxA 0 x.rlen) 64;
    let sc := (parseTail a.bytes).scale;
    let dead := bfDead sc || bfDead x.p0;
    let q := (r.vals x.rlen).map fun v => if dead then 0 else fTruncMulDiv v (fBf sc) (fBf x.p0);
    x.toRill 0x0D = true :=
  ⟨0, 0, stRow.setTk 0 { state := 3, action := 0x10, ctx := 1, inA := 0, auxA := 128, outA := 256, rop := [13, 0, 0x80, 0x3F, 0, 0, 0, 0, 0, 0, 2, 0] }, by decide +kernel⟩

theorem wit_outer : ∃ (isl : Isl) (idx : TktIx) (s : State),
    let x := s.tk isl idx;
    let r := s.outerReads isl x;
    let cs := r.1.map fun b => b.bytes.map fun y => if y = 0x80#8 then (0 : Int) else sbyte y;
    let vs := r.2.1.map fun b => b.bytes.map (outerVal (x.p0 % 4) (x.p0 / 256));
    x.toRill 0x09 = true :=
  ⟨0, 0, stRow.setTk 0 { state := 3, action := 0x10, ctx := 1, inA := 0, auxA := 128, outA := 256, rop := [9, 0, 0, 0, 0, 0, 0, 0, 0, 0, 2, 0] }, by decide +kernel⟩

theorem wit_optstep : ∃ (isl : Isl) (idx : TktIx) (s : State),
    let x := s.tk isl idx;
    let fr := s.readBytes isl x.ctx x.inA 28672;
    let ac := s.readBytes isl x.ctx x.auxA 32768;
    let slab := (List.range 128).map fun i => (s.readBytes isl x.ctx (x.outA + 512 * i) 64).bytes;
    let rows := optRows fr.bytes ac.bytes slab (fBf x.p0) (fInt x.p2 (-8));
    x.toRill 0x0A = true :=
  ⟨0, 0, stRow.setTk 0 { state := 3, action := 0x10, ctx := 1, inA := 0, auxA := 128, outA := 256, rop := [10, 0, 0, 0, 0, 0, 0, 0, 0, 0, 2, 0] }, by decide +kernel⟩

theorem wit_getMeasurements : ∃ (f : Ctx) (index : Byte) (signed : Bool) (s : State),
    let i := index.toNat;
    3 ≤ (s.spdmOf f).stage ∧ signed = false :=
  ⟨1, 6, false, { State.reset with spdm := [(1, { stage := 3 })], flash := [(0x1200000, 8), (0x1200001, 0)] }, by decide +kernel⟩

theorem wit_getMeasurementsSigned : ∃ (f : Ctx) (index : Byte) (signed : Bool) (s : State),
    let i := index.toNat;
    3 ≤ (s.spdmOf f).stage ∧ signed = true :=
  ⟨1, 6, true, { State.reset with spdm := [(1, { stage := 3 })], flash := [(0x1200000, 8), (0x1200001, 0)] }, by decide +kernel⟩

theorem wit_reprogramStart : ∃ (gt : Tile) (c : ShardSrc) (idx : Nat) (s : State),
    let at' := s.now + 16 * max 1 (s.getF Reg.FRY_CTL 8 8);
    s.reprogDue gt = true ∧ s.getB (Reg.ISL_ADP_TILES (gt.val / 16)) (gt.val % 16) = false ∧ (s.tx gt).src = some c ∧ s.freeIdx (gt.val / 16) = some idx :=
  ⟨3, ({ ctx := 1 }), 0, stTile.updTx 3 fun x => { x with needReprog := 1, src := some { ctx := 1 } }, by decide +kernel⟩

theorem wit_reprogramStartCopies : ∃ (gt : Tile) (idx : Nat) (s : State),
    let at' := s.now + 16 * max 1 (s.getF Reg.FRY_CTL 8 8);
    let ctx := (s.owner gt).getD 0;
    s.reprogDue gt = true ∧ s.getB (Reg.ISL_ADP_TILES (gt.val / 16)) (gt.val % 16) = true ∧ s.freeIdx (gt.val / 16) = some idx :=
  ⟨3, 0, (stTile.updTx 3 fun x => { x with needReprog := 1 }).setB (Reg.ISL_ADP_TILES 0) 3 true, by decide +kernel⟩

theorem wit_reprogramStartNoSource : ∃ (gt : Tile) (s : State), s.reprogDue gt = true ∧ s.getB (Reg.ISL_ADP_TILES (gt.val / 16)) (gt.val % 16) = false ∧ (s.tx gt).src = none :=
  ⟨3, stTile.updTx 3 fun x => { x with needReprog := 1 }, by decide +kernel⟩

theorem wit_reprogramVerify : ∃ (gt : Tile) (devs : List (Fin 528 × Fin 64)) (s : State),
    let x := s.tx gt;
    let dv := devs.map fun p => (p.1.val, BitVec.ofNat 8 p.2.val);
    let bad := !(s.row gt x.reRow).valid || rowTerm x.reRow (override (s.row gt x.reRow).levels dv) != (s.row gt x.reRow).term;
    x.reStep = 3 ∧ s.tileBusy gt = false ∧ s.tileFenced gt = false ∧ x.reTick + 5 ≤ s.now ∧ s.quiet gt 5 = true ∧ s.locked gt = true ∧
      (s.grant (gt.val / 16) (1, 1)).isSome = true ∧ x.reRow < 1023 :=
  ⟨3, [], ((stTile.setF (Reg.TIL_RFSH_CTL 3) 8 6 60).setAc 0 { lvlA := 4000, lvlC := 4000 }).updTx 3 fun x => { x with reStep := 3 }, by decide +kernel⟩

theorem wit_reprogramVerifyLast : ∃ (gt : Tile) (devs : List (Fin 528 × Fin 64)) (s : State),
    let x := s.tx gt;
    let dv := devs.map fun p => (p.1.val, BitVec.ofNat 8 p.2.val);
    let w := s.row gt x.reRow;
    x.reStep = 3 ∧ s.tileBusy gt = false ∧ s.tileFenced gt = false ∧ x.reTick + 5 ≤ s.now ∧ s.quiet gt 5 = true ∧ s.locked gt = true ∧
      (s.grant (gt.val / 16) (1, 1)).isSome = true ∧ x.reRow = 1023 ∧ x.reCause ≠ 9 ∧ x.reBad = false ∧ w.valid = true ∧
      rowTerm x.reRow (override w.levels dv) = w.term ∧ s.warmHeld = false :=
  ⟨3, [], { ((stTile.setF (Reg.TIL_RFSH_CTL 3) 8 6 60).setAc 0 { lvlA := 4000, lvlC := 4000 }).updTx 3 fun x => { x with reStep := 3, reRow := 1023 } with
      rows := [(4095, rowLast)] },
    by decide +kernel, by decide +kernel, by decide +kernel, by decide +kernel,
    by decide +kernel, by decide +kernel, by decide +kernel, by decide +kernel, by decide +kernel, by decide +kernel, by decide +kernel,
    last_term rfl _ _ _ rfl (by decide +kernel) rfl, by decide +kernel⟩

theorem wit_nearMissWindowEnd : ∃ (gt : Tile) (s : State),
    let x := s.tx gt;
    x.nearWin < s.now / 2 ^ 17 :=
  ⟨3, { stTile.updTx 3 fun x => { x with near := 4000 } with count := 2 ^ 18 }, by decide +kernel⟩

theorem wit_basinLineUe : ∃ (isl : Isl) (line : Fin 65536) (s : State), (s.lineAt isl line).valid = true ∧ s.warmHeld = false :=
  ⟨0, 0, stRow, by decide +kernel⟩

theorem wit_thermalSample : ∃ (temps : List (Isl × Int)) (s : State), (temps.map (·.1)).Nodup :=
  ⟨[(3, 40), (4, 60), (5, 900)], State.reset, by decide +kernel⟩

theorem wit_thmSensor : ∃ (isl : Isl) (reading : Option Int) (s : State),
    let bad := match reading with | some v => !tjGood v | none => decide (Store.get flagZero s.thm.last isl + 375000 ≤ s.now);
    bad = true ∧ s.sensBad isl = false ∧ s.warmHeld = false :=
  ⟨9, (some 900), State.reset, by decide +kernel⟩

theorem wit_thmTrip : ∃ (isl : Isl) (s : State), s.getB Reg.THM_STS 1 = false ∧ s.warmHeld = false :=
  ⟨9, State.reset, by decide +kernel⟩

theorem wit_refclkLoss : ∃ (torn : List Tile) (s : State), s.tide.refclk = true ∧ s.getB Reg.TID_STS 2 = true ∧ s.getB Reg.TID_CTL 0 = true ∧ s.warmHeld = false :=
  ⟨[], { (stTide.setB Reg.TID_CTL 0 true).setB (Reg.TIL_STS 5) 5 true with tide := { refclk := true } }, by decide +kernel⟩

theorem wit_leaseExpiryFlash : ∃ (res : Fin 7) (unit plan : Nat) (needed : Bool) (l : Lease) (w : FlashWrite) (ws : List FlashWrite) (s : State),
    s.leases.find? (fun l => l.res = res.val && l.unit = unit && l.plan = plan && decide (l.expiry ≤ s.now)) = some l ∧ l.res = 6 ∧
    s.flashq = w :: ws ∧ needed = false :=
  ⟨6, 0, 0, false, ({ res := 6, unit := 0, kind := 2, owner := 3, expiry := 50 }), ({ kind := 4, base0 := 0, base1 := 4096, size := 4096, body := [1, 2], slot := some (0, 5) }), [], { stTile with leases := [{ res := 6, unit := 0, kind := 2, owner := 3, expiry := 50 }], flashq := [{ kind := 4, base0 := 0, base1 := 4096, size := 4096, body := [1, 2], slot := some (0, 5) }] }, by decide +kernel⟩

theorem wit_leaseExpiryVault : ∃ (res : Fin 7) (unit plan : Nat) (needed : Bool) (l : Lease) (s : State),
    s.leases.find? (fun l => l.res = res.val && l.unit = unit && l.plan = plan && decide (l.expiry ≤ s.now)) = some l ∧ l.res = 5 ∧ l.owner < 64 ∧
    needed = false ∧ s.warmHeld = false :=
  ⟨5, 0, 0, false, ({ res := 5, unit := 0, kind := 1, owner := 1, expiry := 50 }), { stQ with leases := [{ res := 5, unit := 0, kind := 1, owner := 1, expiry := 50 }] }, by decide +kernel⟩

theorem wit_leaseExpiryPlan : ∃ (res : Fin 7) (unit plan : Nat) (needed : Bool) (l : Lease) (s : State),
    s.leases.find? (fun l => l.res = res.val && l.unit = unit && l.plan = plan && decide (l.expiry ≤ s.now)) = some l ∧ (l.res = 2 ∨ l.res = 3) ∧
    needed = false ∧ (s.plan l.plan).live = true ∧ (s.jobs.any fun e => e.2.plan = l.plan && e.2.st = 3) = false :=
  ⟨3, 0, 1, false, ({ res := 3, unit := 0, kind := 1, owner := 1, expiry := 50, plan := 1 }), { stPlan with leases := [{ res := 3, unit := 0, kind := 1, owner := 1, expiry := 50, plan := 1 }] }, by decide +kernel⟩

theorem wit_leaseLost : ∃ (res : Fin 7) (unit plan : Nat) (l : Lease) (s : State), s.lost.find? (fun l => l.res = res.val && l.unit = unit && l.plan = plan) = some l ∧
    s.torn = [] ∧ s.warmHeld = false :=
  ⟨3, 0, 1, ({ res := 3, unit := 0, kind := 1, owner := 1, expiry := 50, plan := 1 }), { stPlan with lost := [{ res := 3, unit := 0, kind := 1, owner := 1, expiry := 50, plan := 1 }] }, by decide +kernel⟩

theorem wit_weirWindowEnd : ∃ (isl : Isl) (s : State), s.getB (Reg.ISL_WEIR_CTL isl) 0 = true ∧ s.now % s.weirLen isl = 0 ∧ s.now ≠ 0 ∧ (s.wx isl).last ≠ s.now ∧
    (s.wx isl).resume = none :=
  ⟨5, { (State.reset.setB (Reg.ISL_WEIR_CTL 5) 0 true).setReg (Reg.ISL_CLIP_CNT 5 40) 900 |>.setReg (Reg.ISL_CONV_CNT 5 5) 70000 with count := 16777216 }, by decide +kernel⟩

theorem wit_weirCtlWrite : ∃ (rq : Requester) (isl : Isl) (v : Word) (s : State),
    let new := s.reg (Reg.ISL_WEIR_CTL isl) &&& ~~~ regMask (Reg.ISL_WEIR_CTL isl) ||| v &&& regMask (Reg.ISL_WEIR_CTL isl);
    s.pageReset 3 isl = false ∧ (rq = .fn 0 ∨ Requester.inner rq = true) :=
  ⟨(.fn 0), 5, 0xFFFFFFFF, State.reset.setReg (Reg.ISL_CLIP_CNT 5 40) 900, by decide +kernel⟩

theorem wit_send : ∃ (isl : Isl) (idx : TktIx) (badSrc badDst : List (Fin 32)) (s : State),
    let x := s.tk isl idx;
    let bs := badSrc.filter fun b => b.val < (x.extent + 63) / 64;
    let bd := badDst.filter fun b => b.val < (x.extent + 63) / 64 && !bs.contains b;
    x.toRun 0x20 = true ∧ x.rows = 0 ∧ ((routeFrom x.dest 16 isl).any s.islFenced) = false :=
  ⟨0, 0, [], [], { stRow.setTk 0 { state := 3, action := 0x20, uclass := 2, ctx := 1, extent := 4, dest := 1 } with tags := [(0, 2), (1024, 2)] }, by decide +kernel⟩

theorem wit_sendFenced : ∃ (isl : Isl) (idx : TktIx) (badSrc badDst : List (Fin 32)) (s : State),
    let x := s.tk isl idx;
    x.toRun 0x20 = true ∧ x.rows = 0 ∧ ((routeFrom x.dest 16 isl).any s.islFenced) = true :=
  ⟨0, 0, [], [], (stRow.setTk 0 { state := 3, action := 0x20, uclass := 2, ctx := 1, extent := 4, dest := 1 }).updHd 3 1 fun h => { h with fenceDp := true }, by decide +kernel⟩

theorem wit_ticketIssue : ∃ (isl : Isl) (j idx : Nat) (m : Em) (l : Nat) (s : State), s.dueEm isl = some (j, m, l) ∧
    (s.applyRehome (s.job j).plan).badItem ((s.applyRehome (s.job j).plan).plan (s.job j).plan) isl m = none ∧ s.freeIdx isl = some idx :=
  ⟨0, 1, 0, ({ t := 0, desc := 1024, ord := 0, iter := 0, action := 7, uclass := 3, inA := 0, outA := 0, auxA := 0, wti := 0, kx := 0, phase := 0, dln := 0 }), 12200, stPlan.setJob 1 { st := 3, plan := 1, origin := 12200 }, by decide +kernel⟩

theorem wit_stepOrigin : ∃ (j : Nat) (s : State), s.canStart j = true :=
  ⟨1, stPlan.setJob 1 { st := 2, plan := 1, inTick := 100, fn := 1 }, by decide +kernel⟩

theorem wit_actionAck : ∃ (isl : Isl) (idx : TktIx) (early : Fin 8) (s : State),
    let x := s.tk isl idx;
    x.state = 3 ∧ x.ran = true ∧ x.noAct = false ∧ x.launch < s.now ∧ x.action ≠ 7 :=
  ⟨0, 0, 0, { (stTile.setTk 0 { state := 3, action := 1, uindex := 3, ran := true, counts := [5], job := 1, launch := 9 }).setTk 1 { state := 1, deps := [0] } with count := 12205 }, by decide +kernel⟩

theorem wit_actionAckPulse : ∃ (isl : Isl) (idx : TktIx) (early : Fin 8) (s : State),
    let x := s.tk isl idx;
    x.state = 3 ∧ x.ran = true ∧ x.noAct = false ∧ x.launch < s.now ∧ (x.action = 1 ∨ x.action = 2 ∨ x.action = 3) ∧ x.uclass = 0 ∧ x.discard = false ∧
      x.status % 4 = 0 ∧ s.unitFenced (isl * 256 + idx) x = false ∧ (s.job x.job).st ≠ 3 :=
  ⟨0, 0, 0, { stTile.setTk 0 { state := 3, action := 1, uindex := 3, ran := true, counts := [5], job := 1, launch := 9 } with count := 12205 }, by decide +kernel⟩

theorem wit_tideMiss : ∃ (isl : Isl) (idx : TktIx) (s : State),
    let x := s.tk isl idx;
    x.missed s.now = true ∧ s.warmHeld = false ∧ (s.job x.job).st = 3 ∧ (s.job x.job).failed = false ∧ (s.tickets.any fun e => e.2.noAct) = false ∧
      (s.plan (s.job x.job).plan).isSlip = false :=
  ⟨0, 0, stPlan.setJob 1 { st := 3, plan := 1 } |>.setTk 0 { state := 3, deadline := 12200, job := 1 }, by decide +kernel⟩

theorem wit_tideMissSlip : ∃ (isl : Isl) (idx : TktIx) (s : State),
    let x := s.tk isl idx;
    let p := s.plan (s.job x.job).plan;
    x.missed s.now = true ∧ s.warmHeld = false ∧ (s.job x.job).st = 3 ∧ (s.job x.job).failed = false ∧ (s.tickets.any fun e => e.2.noAct) = false ∧
      p.isSlip = true :=
  ⟨0, 0, (stPlan.setPlan 1 { (stPlan.plan 1) with hdr := [1, 1, 1, 3, 200, 0] }).setJob 1 { st := 3, plan := 1 } |>.setTk 0 { state := 3, deadline := 12200, job := 1 }, by decide +kernel⟩

theorem wit_tideHang : ∃ (isl : Isl) (idx : TktIx) (s : State),
    let x := s.tk isl idx;
    x.hung s.now = true ∧ s.getB Reg.DBG_CTL 0 = false ∧ s.warmHeld = false :=
  ⟨0, 0, { stTile.setTk 0 { state := 3, deadline := 12200, uclass := 1 } with count := 90000 }, by decide +kernel⟩

theorem wit_extest : ∃ (pins shift : Fin 72057594037927936) (s : State), s.landsKept = false :=
  ⟨5, 6, stDbg, by decide +kernel⟩

theorem wit_extestRefused : ∃ (pins shift : Fin 72057594037927936) (s : State), s.landsKept = true :=
  ⟨5, 6, stLck.setB Reg.BOOT_STS 5 true, by decide +kernel⟩

theorem wit_bypass : ∃ (code : Byte) (s : State), 5 ≤ code.toNat ∧ (code = 0x10 → s.getF Reg.DBG_STS 0 2 = 0) ∧ (code = 0x11 → s.dbgOpen = false) :=
  ⟨0xFF, State.reset, by decide +kernel⟩

theorem wit_dtmRead : ∃ (a : Fin 268435456) (s : State),
    let v := (s.regRead .debug false (wordAdr a)).1;
    s.getF Reg.DBG_STS 0 2 ≠ 0 ∧ s.dtmDown a = false :=
  ⟨0x400044, stDbg.setF (Reg.PIL_STS 1) 0 2 1, by decide +kernel⟩

theorem wit_dtmReadDown : ∃ (a : Fin 268435456) (s : State), s.getF Reg.DBG_STS 0 2 ≠ 0 ∧ s.dtmDown a = true :=
  ⟨0x400044, stUnl, by decide +kernel⟩

theorem wit_dtmWrite : ∃ (a : Fin 268435456) (v : Word) (env : WriteEnv) (s : State), s.getF Reg.DBG_STS 0 2 ≠ 0 ∧ s.dtmDown a = false :=
  ⟨0x400060, 9, {}, stDbg, by decide +kernel⟩

theorem wit_dtmWriteDown : ∃ (a : Fin 268435456) (v : Word) (env : WriteEnv) (s : State), s.getF Reg.DBG_STS 0 2 ≠ 0 ∧ s.dtmDown a = true :=
  ⟨0x400060, 9, {}, stUnl, by decide +kernel⟩

theorem wit_dtmPeek : ∃ (a : Fin 268435456) (s : State),
    let v := s.valFor .debug false ((peekOf (wordAdr a)).getD (wordAdr a));
    s.getF Reg.DBG_STS 0 2 ≠ 0 ∧ s.dtmDown a = false :=
  ⟨0x400054, stDbg, by decide +kernel⟩

theorem wit_dmiAccess : ∃ (n : Pilot) (kind : Fin 3) (s : State), s.dbgOpen = true ∧ kind = 0 ∧ s.pilSt n = 1 :=
  ⟨3, 0, stDbg.setF (Reg.PIL_STS 3) 0 2 1, by decide +kernel⟩

theorem wit_dmiAccessResume : ∃ (n : Pilot) (kind : Fin 3) (s : State), s.dbgOpen = true ∧ kind = 1 ∧ s.pilSt n = 2 :=
  ⟨3, 1, stDbg.setF (Reg.PIL_STS 3) 0 2 2, by decide +kernel⟩

theorem wit_dmiAccessOther : ∃ (n : Pilot) (kind : Fin 3) (s : State), s.dbgOpen = true ∧ kind = 2 :=
  ⟨3, 2, stDbg, by decide +kernel⟩

theorem wit_testDue : ∃ (isl : Isl) (u : Fin 20) (s : State), s.isDue isl u = true ∧ (s.test isl u).held = false ∧ (s.test isl u).deferred = false ∧
    (s.testFree isl u && s.testTurn isl u) = false ∧ s.warmHeld = false :=
  ⟨0, 4, State.reset.setTest 0 4 { due := some 0 }, by decide +kernel⟩

theorem wit_testStart : ∃ (isl : Isl) (u : Fin 19) (s : State), s.isDue isl u = true ∧ s.testFree isl u = true ∧ s.testTurn isl u = true :=
  ⟨0, 3, (stTile.setTest 0 3 { due := some 0 }).setRow 3 9 rowT, by decide +kernel⟩

theorem wit_tstIsland : ∃ (isl : Isl) (s : State), s.isDue isl 19 = true ∧ s.testFree isl 19 = true ∧ s.warmHeld = false :=
  ⟨0, ((stTile.setB Reg.TST_STS 3 false).setTest 0 19 { want := true }).setRow 3 9 rowT, by decide +kernel⟩

theorem wit_testDeferBoundPause : ∃ (isl : Isl) (u : Fin 20) (s : State),
    let x := s.test isl u;
    x.deferred = true ∧ x.held = false ∧ s.dueTick isl u + s.deferTicks ≤ s.now ∧ s.routed isl u = false ∧ s.getB Reg.TST_STS 3 = false ∧ 16 ≤ u.val ∧
      s.canPause isl u = true :=
  ⟨0, 17, { ((stTile.setB Reg.TST_CTL 2 true).setB Reg.TST_STS 3 false).setTest 0 17 { deferred := true, due := some 0 } with count := 2000000000 }, by decide +kernel⟩

theorem wit_testDeferBoundOverdue : ∃ (isl : Isl) (u : Fin 20) (s : State),
    let x := s.test isl u;
    x.deferred = true ∧ x.held = false ∧ s.dueTick isl u + s.deferTicks ≤ s.now ∧ s.routed isl u = false ∧ s.getB Reg.TST_STS 3 = true ∧ u.val < 19 ∧
      s.getB (Reg.ISL_TST_OVERDUE isl) u = false ∧ s.warmHeld = false :=
  ⟨0, 17, { (stTile.setB Reg.TST_STS 3 true).setTest 0 17 { deferred := true, due := some 0 } with count := 2000000000 }, by decide +kernel⟩

theorem wit_testDeferBoundRehome : ∃ (isl : Isl) (u : Fin 20) (sp idx : Nat) (s : State),
    let x := s.test isl u;
    x.deferred = true ∧ x.held = false ∧ s.dueTick isl u + s.deferTicks ≤ s.now ∧ s.routed isl u = false ∧ s.getB Reg.TST_STS 3 = false ∧ u.val < 16 ∧
      s.spareOf isl = some sp ∧ s.hasSrc (isl.val * 16 + u.val) = true ∧ s.writtenEach isl u = false ∧ s.freeIdx isl = some idx :=
  ⟨0, 3, 0, 0, { (((({ stPlan.setPlan 1 { (stPlan.plan 1) with cmds := [] } with tags := [(0, 2)] }.writeBytes 0 1 0 (padTo 10 [0, 0, 0, 0, 0, 0, 0, 0, 1, 0] ++ [1, 0]) false).1.writeBytes 0 1 64 [3, 0x80] false).1.setTest 0 3 { deferred := true, due := some 0 }).setOwner 3 (some 1)).updTx 3 fun x => { x with src := some { ctx := 1 } } with count := 2000000000 }, by decide +kernel⟩

theorem wit_rehomeSwitch : ∃ (isl : Isl) (u : Fin 16) (s : State),
    let x := s.test isl u;
    x.route = 1 ∧ x.spare ≠ 0 ∧ x.noRestore = false ∧ x.held = false ∧ (x.phase = 1 ∨ ((s.tx (isl.val * 16 + (x.spare - 1))).reCause = 11 ∧
      (s.tx (isl.val * 16 + (x.spare - 1))).reStep = 0)) :=
  ⟨0, 3, stTile.setTest 0 3 { route := 1, spare := 5, phase := 1 }, by decide +kernel⟩

theorem wit_tstPreempt : ∃ (isl : Isl) (u : Fin 20) (h : Nat) (s : State), (s.test isl u).route = 2 ∧ (s.test isl u).held = false ∧
    (s.testPlans isl u).any (fun e => e.1 = h) = true ∧ s.atBarrier h = true ∧ (s.plan h).paused ≤ s.now ∧ s.warmHeld = false :=
  ⟨0, 17, 1, stPlan.setTest 0 17 { route := 2 }, by decide +kernel⟩

theorem wit_testCompletePass : ∃ (isl : Isl) (u : Fin 19) (pass : Bool) (data : List Byte) (ok : Bool) (s : State), (s.test isl u).held = true ∧ (s.test isl u).failed = false ∧
    pass = true :=
  ⟨0, 17, true, [], true, stTile.setTest 0 17 { held := true }, by decide +kernel⟩

theorem wit_testCompleteAgain : ∃ (isl : Isl) (u : Fin 19) (pass : Bool) (data : List Byte) (ok : Bool) (s : State), (s.test isl u).held = true ∧ (s.test isl u).failed = false ∧
    pass = false :=
  ⟨0, 17, false, [], true, stTile.setTest 0 17 { held := true }, by decide +kernel⟩

theorem wit_testCompleteFail : ∃ (isl : Isl) (u : Fin 19) (pass : Bool) (data : List Byte) (ok : Bool) (s : State), (s.test isl u).held = true ∧ (s.test isl u).failed = true ∧
    pass = false ∧ s.inLagoon isl (min 16 u.val) = false ∧ s.warmHeld = false :=
  ⟨0, 3, false, [], true, stTile.setTest 0 3 { held := true, failed := true }, by decide +kernel⟩

theorem wit_testTile : ∃ (rq : Requester) (target : Fin 1024) (s : State), s.stdWriter rq = true ∧ s.pageReset 14 0 = false :=
  ⟨(.fn 0), 5, stTile, by decide +kernel⟩

theorem wit_testIsland : ∃ (rq : Requester) (target : Fin 1024) (s : State),
    let busy := (List.range 20).any fun u => (s.test target u).held;
    s.stdWriter rq = true ∧ s.pageReset 14 0 = false :=
  ⟨(.fn 0), 5, stTile, by decide +kernel⟩

theorem wit_tstPatUpdate : ∃ (s : State),
    let k := 1 - s.getF Reg.TST_STS 0 1;
    s.getF Reg.TST_STS 4 2 = 3 ∧ (s.tests.any fun e => e.2.held) = false ∧ s.warmHeld = false :=
  ⟨stTile.setF Reg.TST_STS 4 2 3, by decide +kernel⟩

theorem wit_ctxCmd : ∃ (rq : Requester) (target : Fin 256) (s : State), isMgmt rq = true ∧ target.val < 64 ∧ s.ctxSt target ≠ 0 ∧ s.rungs = [] :=
  ⟨(.fn 0), 1, stQ, by decide +kernel⟩

theorem wit_ctxCmdRefused : ∃ (rq : Requester) (target : Fin 256) (s : State), isMgmt rq = true ∧ (64 ≤ target.val ∨ s.ctxSt target = 0) :=
  ⟨(.fn 0), 99, stQ, by decide +kernel⟩

theorem wit_engineCmd : ∃ (rq : Requester) (target : Fin 256) (s : State), isMgmt rq = true ∧ target.val < 64 ∧ s.rungs = [] ∧ s.rungWithin 2 target s.escWin = false :=
  ⟨(.fn 0), 1, stQ, by decide +kernel⟩

theorem wit_partitionCmd : ∃ (rq : Requester) (target : Fin 256) (s : State), isMgmt rq = true ∧ (s.partDef target).isSome = true ∧ s.rungs = [] ∧
    s.rungWithin 3 target s.escWin = false :=
  ⟨(.fn 0), 0, stQ, by decide +kernel⟩

theorem wit_warmCmd : ∃ (rq : Requester) (s : State), isMgmt rq = true ∧ s.rungs = [] ∧ s.rungWithin 4 0 s.warmWin = false :=
  ⟨(.fn 0), stQ, by decide +kernel⟩

theorem wit_pwrcycCmd : ∃ (rq : Requester) (s : State), isMgmt rq = true ∧ s.rungs = [] :=
  ⟨.causeway, stQ, by decide +kernel⟩

theorem wit_resumeCmd : ∃ (rq : Requester) (r : Rung) (s : State), isMgmt rq = true ∧ s.rungs = [r] ∧ r.held = true :=
  ⟨.causeway, ({ kind := 4, target := 0, cause := 8, start := 5, held := true }), { stQ with rungs := [{ kind := 4, target := 0, cause := 8, start := 5, held := true }] }, by decide +kernel⟩

theorem wit_pilWdog : ∃ (n : Pilot) (s : State),
    let k := Store.get flagZero s.wd n;
    s.pilSt n = 1 ∧ s.getB (Reg.PIL_CTL n) 0 = true ∧ k ≠ 0 ∧ k + s.wdPeriod n ≤ s.now + 1 ∧ s.getB Reg.DBG_CTL 0 = false ∧ s.warming = false ∧
      n.val ≠ 0 ∧ s.rungWithin 6 n s.escWin = false :=
  ⟨5, { ((stTile.setF (Reg.PIL_STS 5) 0 2 1).setB (Reg.PIL_CTL 5) 0 true).setF (Reg.PIL_CTL 5) 8 8 1 with wd := [(5, 7)], count := 2000000 }, by decide +kernel⟩

theorem wit_pilRestart : ∃ (n : Pilot) (ok : Bool) (s : State), s.pilSt n = 3 ∧ (n.val = 0 ∨ s.pilSt 0 = 1) :=
  ⟨5, true, (stTile.setF (Reg.PIL_STS 5) 0 2 3).setF (Reg.PIL_STS 0) 0 2 1, by decide +kernel⟩

theorem wit_powerCycle : ∃  (r : Rung) (s : State), s.liveRung 5 0 = some r ∧ r.phase = 0 :=
  ⟨({ kind := 5, target := 0, cause := 1, start := 0 }), stRung { kind := 5, target := 0, cause := 1, start := 0 }, by decide +kernel⟩

theorem wit_powerCycleRequest : ∃  (r : Rung) (s : State), s.liveRung 5 0 = some r ∧ r.phase = 1 ∧ r.since + min 1000 (s.getF Reg.RCV_PWRCYC_CTL 0 10) * 125000 ≤ s.now :=
  ⟨({ kind := 5, target := 0, cause := 1, start := 0, phase := 1 }), { stRung { kind := 5, target := 0, cause := 1, start := 0, phase := 1 } with count := 125000000 }, by decide +kernel⟩

theorem wit_pwrcycStuck : ∃  (r : Rung) (s : State), s.liveRung 5 0 = some r ∧ r.phase = 2 ∧ r.since + max 1 (s.getF Reg.RCV_PWRCYC_CTL 16 8) * 125000000 ≤ s.now :=
  ⟨({ kind := 5, target := 0, cause := 1, start := 0, phase := 2 }), { stRung { kind := 5, target := 0, cause := 1, start := 0, phase := 2 } with count := 125000000000 }, by decide +kernel⟩

theorem wit_logCommit : ∃  (i c : Nat) (s : State), s.log.writing = some (i, c) ∧ (s.tideRuns = false ∨ c < s.now) ∧ s.log.coal = [] :=
  ⟨2, 5, { stTile with log := { writing := some (2, 5), slots := [(2, { used := true, tick := 5 })] } }, by decide +kernel⟩

theorem wit_logCommitCoalesce : ∃  (i c k : Nat) (e : Coal) (s : State), s.log.writing = some (i, c) ∧ (s.tideRuns = false ∨ c < s.now) ∧ s.log.nextSource = some (k, e) :=
  ⟨2, 5, 7, ({ count := 1 }), { stTile with log := { writing := some (2, 5), slots := [(2, { used := true, tick := 5 })], coal := [(7, { count := 1 })] } }, by decide +kernel⟩

theorem wit_unpin : ∃ (rq : Requester) (slot : Fin 16384) (s : State), s.logWriter rq = true ∧ s.beingWritten slot = false :=
  ⟨(.fn 0), 2, { stTile with log := { slots := [(2, { used := true, tick := 5, pinned := true })] } }, by decide +kernel⟩

theorem wit_unpinAll : ∃ (rq : Requester) (s : State), s.logWriter rq = true :=
  ⟨(.fn 0), { stTile with log := { pinOvf := true, slots := [(2, { used := true, tick := 5, pinned := true })] } }, by decide +kernel⟩

theorem wit_irqHoldoffEnd : ∃ (f : Ctx) (s : State),
    let x := Store.get irqIdle s.irq f;
    x.active = true ∧ (s.tideRuns = false ∨ x.till ≤ s.now) :=
  ⟨1, { stTile with irq := [(1, { active := true, till := 5 })] }, by decide +kernel⟩

theorem wit_tideTick : ∃ (s : State), s.tideRuns = true :=
  ⟨stTide, by decide +kernel⟩

theorem wit_tidePllLock : ∃ (s : State), s.getB Reg.TID_STS 0 = false ∧ s.getF Reg.BOOT_STS 0 4 ≠ 0 :=
  ⟨State.reset.setF Reg.BOOT_STS 0 4 3, by decide +kernel⟩

theorem wit_refclkReturn : ∃ (s : State), s.tide.refclk = false ∧ s.getB Reg.TID_STS 2 = true :=
  ⟨State.reset.setB Reg.TID_STS 2 true, by decide +kernel⟩

theorem wit_slackWindowEnd : ∃ (s : State), s.now % s.slackLen = 0 ∧ s.tide.slackHold = false :=
  ⟨State.reset, by decide +kernel⟩

theorem wit_slackWindowEndChanged : ∃ (s : State), s.now % s.slackLen = 0 ∧ s.tide.slackHold = true :=
  ⟨{ State.reset with tide := { slackHold := true } }, by decide +kernel⟩

theorem wit_slkCtlWrite : ∃ (rq : Requester) (v : Word) (s : State), s.pageReset 8 0 = false ∧ s.tidWriter rq false = true :=
  ⟨(.fn 0), 5, State.reset, by decide +kernel⟩

theorem wit_tktSelWrite : ∃ (rq : Requester) (v : Word) (s : State), s.pageReset 8 0 = false ∧ s.tidWriter rq false = true :=
  ⟨(.fn 0), 0x102, State.reset, by decide +kernel⟩

theorem wit_ppsEdge : ∃ (falling : Bool) (ns : Fin 8) (trim : Int) (s : State), s.getF Reg.TID_PPS_CTL 0 2 ≠ 0 ∧ falling = s.getB Reg.TID_PPS_CTL 2 ∧
    (s.tide.ppsLast.elim true fun l => decide (112500000 ≤ s.now - l)) = true ∧ (s.getF Reg.TID_PPS_CTL 0 2 = 1 ∨
    (s.ppsError ((s.now * 8 + ns.val : Nat) : Int)).natAbs ≤ 1000000) :=
  ⟨false, 3, 0, State.reset.setF Reg.TID_PPS_CTL 0 2 1, by decide +kernel⟩

theorem wit_tidePpsLost : ∃ (s : State), s.getF Reg.TID_PPS_CTL 0 2 ≠ 0 ∧ s.getB Reg.TID_PPS_STS 3 = false ∧ max s.tide.ppsFrom (s.tide.ppsLast.getD 0) + 187500000 ≤ s.now ∧
    s.warmHeld = false :=
  ⟨{ State.reset.setF Reg.TID_PPS_CTL 0 2 2 with count := 200000000 }, by decide +kernel⟩

theorem wit_ppsCtlWrite : ∃ (rq : Requester) (v : Word) (s : State), s.pageReset 8 0 = false ∧ s.tidWriter rq true = true :=
  ⟨.causeway, 1, State.reset, by decide +kernel⟩

theorem wit_ppsBaseWrite : ∃ (rq : Requester) (v : DWord) (s : State), s.pageReset 8 0 = false ∧ s.tidWriter rq true = true ∧ s.getF Reg.TID_PPS_CTL 0 2 ≠ 2 :=
  ⟨.causeway, 77, State.reset, by decide +kernel⟩

theorem wit_ppsBaseWriteLater : ∃ (rq : Requester) (v : DWord) (s : State), s.pageReset 8 0 = false ∧ s.tidWriter rq true = true ∧ s.getF Reg.TID_PPS_CTL 0 2 = 2 :=
  ⟨.causeway, 77, State.reset.setF Reg.TID_PPS_CTL 0 2 2, by decide +kernel⟩

theorem wit_tideOutMarker : ∃ (s : State), s.markerNow = true :=
  ⟨{ State.reset.setF Reg.TID_OUT_CTL 0 2 2 with count := 125000000 }, by decide +kernel⟩

theorem wit_resyncWord : ∃ (bad silent : List Isl) (s : State), s.tideRuns = true ∧ s.now % 1024 = 0 :=
  ⟨[], [], stTide, by decide +kernel⟩

theorem wit_contextRecovery : ∃ (c : Ctx) (r : Rung) (s : State), s.liveRung 1 c = some r ∧ s.p4Runs = true ∧ s.overran r = false ∧ r.phase = 0 :=
  ⟨3, ({ kind := 1, target := 3, cause := 1, start := 0 }), { stRung { kind := 1, target := 3, cause := 1, start := 0 } with tickets := [(0, { state := 2, ctx := 3 }), (1, { state := 2, ctx := 4 })] }, by decide +kernel⟩

theorem wit_contextRecoveryFinish : ∃ (c : Ctx) (r : Rung) (s : State), s.liveRung 1 c = some r ∧ s.p4Runs = true ∧ s.overran r = false ∧ r.phase ≠ 0 ∧ ((∀ e ∈ s.tickets,
    e.2.ctx = c.val → e.2.isReprog = false → e.2.launched = false) ∨ r.start + 1250 ≤ s.now) :=
  ⟨3, ({ kind := 1, target := 3, cause := 1, start := 0, phase := 1 }), stRung { kind := 1, target := 3, cause := 1, start := 0, phase := 1 }, by decide +kernel⟩

theorem wit_contextRecoveryOverrun : ∃ (c : Ctx) (r : Rung) (s : State), s.liveRung 1 c = some r ∧ s.p4Runs = true ∧ r.start + 25000 < s.now :=
  ⟨3, ({ kind := 1, target := 3, cause := 1, start := 0 }), { stRung { kind := 1, target := 3, cause := 1, start := 0 } with count := 25001 }, by decide +kernel⟩

theorem wit_engineRecovery : ∃ (isl : Isl) (r : Rung) (s : State), s.liveRung 2 isl = some r ∧ s.p4Runs = true ∧ r.esc = false ∧ r.phase = 0 :=
  ⟨3, ({ kind := 2, target := 3, cause := 1, start := 7 }), stRung { kind := 2, target := 3, cause := 1, start := 7 }, by decide +kernel⟩

theorem wit_engineRecoveryClear : ∃ (isl : Isl) (r : Rung) (s : State), s.liveRung 2 isl = some r ∧ s.p4Runs = true ∧ r.esc = false ∧ r.phase = 1 ∧ ((∀ e ∈ s.tickets,
    e.2.launched = false) ∨ r.since + 250 ≤ s.now) :=
  ⟨3, ({ kind := 2, target := 3, cause := 1, start := 7, phase := 1 }), stRung { kind := 2, target := 3, cause := 1, start := 7, phase := 1 }, by decide +kernel⟩

theorem wit_engineRecoveryDone : ∃ (isl : Isl) (r : Rung) (s : State), s.liveRung 2 isl = some r ∧ s.p4Runs = true ∧ r.esc = false ∧ 2 ≤ r.phase ∧ 2 ≤ r.hb.length :=
  ⟨3, ({ kind := 2, target := 3, cause := 1, start := 7, phase := 2, hb := [3, 3] }), stRung { kind := 2, target := 3, cause := 1, start := 7, phase := 2, hb := [3, 3] }, by decide +kernel⟩

theorem wit_engineRecoverySilent : ∃ (isl : Isl) (r : Rung) (s : State), s.liveRung 2 isl = some r ∧ s.p4Runs = true ∧ r.esc = false ∧ 2 ≤ r.phase ∧ r.hb.length < 2 ∧
    r.since + 3072 ≤ s.now ∧ s.getB Reg.DBG_CTL 0 = false :=
  ⟨3, ({ kind := 2, target := 3, cause := 1, start := 7, phase := 2 }), { stRung { kind := 2, target := 3, cause := 1, start := 7, phase := 2 } with count := 4000 }, by decide +kernel⟩

theorem wit_partitionRecovery : ∃ (p : Part) (r : Rung) (s : State), s.liveRung 3 p = some r ∧ s.p4Runs = true ∧ s.overran r = false ∧ r.phase = 0 :=
  ⟨0, ({ kind := 3, target := 0, cause := 1, start := 0 }), stRung { kind := 3, target := 0, cause := 1, start := 0 }, by decide +kernel⟩

theorem wit_partitionRecoveryClear : ∃ (p : Part) (r : Rung) (s : State), s.liveRung 3 p = some r ∧ s.p4Runs = true ∧ s.overran r = false ∧ r.phase = 1 ∧ ((∀ e ∈ s.tickets,
    e.2.launched = false) ∨ r.start + 2500 ≤ s.now) :=
  ⟨0, ({ kind := 3, target := 0, cause := 1, start := 0, phase := 1 }), stRung { kind := 3, target := 0, cause := 1, start := 0, phase := 1 }, by decide +kernel⟩

theorem wit_partitionRecoveryDone : ∃ (p : Part) (r : Rung) (s : State), s.liveRung 3 p = some r ∧ s.p4Runs = true ∧ s.overran r = false ∧ 2 ≤ r.phase ∧ s.unanswered r (s.islandsOf p) = [] :=
  ⟨0, ({ kind := 3, target := 0, cause := 1, start := 0, phase := 2, hb := List.range 64 }), stRung { kind := 3, target := 0, cause := 1, start := 0, phase := 2, hb := List.range 64 }, by decide +kernel⟩

theorem wit_chipWarmReset : ∃ (plain : List (Nat × Nat × List Byte)) (r : Rung) (s : State), s.liveRung 4 0 = some r ∧ s.overran r = false ∧ r.phase = 0 :=
  ⟨[], ({ kind := 4, target := 0, cause := 1, start := 0 }), stRung { kind := 4, target := 0, cause := 1, start := 0 }, by decide +kernel⟩

theorem wit_chipWarmResetClear : ∃ (plain : List (Nat × Nat × List Byte)) (r : Rung) (s : State), s.liveRung 4 0 = some r ∧ s.overran r = false ∧ r.phase = 1 ∧ ((∀ e ∈ s.tickets,
    e.2.launched = false) ∨ r.start + 6375 ≤ s.now) :=
  ⟨[], ({ kind := 4, target := 0, cause := 1, start := 0, phase := 1 }), stRung { kind := 4, target := 0, cause := 1, start := 0, phase := 1 }, by decide +kernel⟩

theorem wit_chipWarmResetReload : ∃ (plain : List (Nat × Nat × List Byte)) (r : Rung) (s : State), s.liveRung 4 0 = some r ∧ s.overran r = false ∧ r.phase = 2 ∧ (∀ n : Nat, n < 8 →
    n ≠ 1 → s.pilSt n = 1) :=
  ⟨[], ({ kind := 4, target := 0, cause := 1, start := 0, phase := 2 }), [0, 2, 3, 4, 5, 6, 7].foldl (fun u n => u.setF (Reg.PIL_STS n) 0 2 1) (stRung { kind := 4, target := 0, cause := 1, start := 0, phase := 2 }), by decide +kernel⟩

theorem wit_chipWarmResetDone : ∃ (plain : List (Nat × Nat × List Byte)) (r : Rung) (s : State), s.liveRung 4 0 = some r ∧ s.overran r = false ∧ 3 ≤ r.phase ∧
    s.unanswered r (List.range 64) = [] :=
  ⟨[], ({ kind := 4, target := 0, cause := 1, start := 0, phase := 3, hb := List.range 64 }), stRung { kind := 4, target := 0, cause := 1, start := 0, phase := 3, hb := List.range 64 }, by decide +kernel⟩

theorem wit_reconciliation : ∃ (s : State), s.reconAt < s.now / 1250000 ∧ s.pilSt 1 = 1 ∧ s.coreUp = true :=
  ⟨{ stI3c with count := 1250000 }, by decide +kernel⟩

end Sys2Proof.Tests
end

section
/-!
PROOFS. Register accesses of every type (R8, R806, R808, R778, R834): the register that a write stores into, what a normal read answers, and what a bad
access latches; with them RegisterAccess (O32) is settled.
-/
namespace Sys2Proof.Machine

/-! ## Registers after a store -/

theorem State.reg_store (s : State) (a b c : Nat) (v : Word) :
    (s.store a b v).reg c = if c = b then (s.reg b &&& ~~~ regMask a) ||| (v &&& regMask a) else s.reg c := State.reg_setReg ..

theorem ne_of_not_contains {a b : Nat} {l : List Nat} (h : l.contains b = false) (ha : a ∈ l) : b ≠ a := by
  rintro rfl
  rw [List.contains_iff_mem.mpr ha] at h
  exact absurd h (by decide)

theorem RegsOnly.setReg (s : State) (a : Nat) (v : Word) : RegsOnly [a] s (s.setReg a v) :=
  fun _ hb => State.reg_setReg_ne _ _ _ _ (ne_of_not_contains hb List.mem_cons_self)

/-- A pair other than PPS_BASE stores its two words, each under its own mask (R808). -/
theorem State.commitPair_eq {a : Nat} (h : a ≠ Reg.TID_PPS_BASE_LO) (s : State) (low high : Word) :
    s.commitPair a a low high = (s.store a a low).store (a + 4) (a + 4) high := if_neg h

/-! ## Where a write goes -/

theorem implementedFor_of_lt {a : Nat} (rq : Requester) (h : a < 0x5400000) : implementedFor rq a = pageImplemented a := if_pos h

theorem State.target_of_not_bank {a : Nat} (s : State) (rq : Requester) (via : Bool) (h : isBank a = false) : s.target rq via a = some a := by
  simp only [State.target, h, Bool.false_eq_true, if_false]

theorem isBank_of_type_ne {a : Nat} (h : adrType a ≠ 10) : isBank a = false := by simp only [isBank, h, decide_false, Bool.false_and]

/-- A write to a page in reset is held behind those that wait (R834). -/
theorem State.regWrite_held {s : State} {a : Nat} (rq : Requester) (via : Bool) (v : Word) (env : WriteEnv) (hlt : a < 0x5400000)
    (himp : pageImplemented a = true) (hr : s.pageReset (adrType a) (adrInst a) = true) :
    s.regWrite rq via a v env = { s with heldWrites := s.heldWrites ++ [⟨rq, via, a, v, env⟩] } := by
  simp only [State.regWrite, implementedFor_of_lt rq hlt, himp, hr, Bool.not_true, Bool.false_eq_true, if_false, if_true, if_neg (Nat.not_le.mpr hlt)]

/-- A write beyond the header that its page's access rule lets through reaches the register. -/
theorem State.regWrite_body {s : State} {rq : Requester} {a : Nat} {v : Word} (via : Bool) (env : WriteEnv) (hlt : a < 0x5400000)
    (himp : pageImplemented a = true) (hoff : 0x40 ≤ adrOff a) (hr : s.pageReset (adrType a) (adrInst a) = false) (hw : s.mayWrite rq a v = true) :
    s.regWrite rq via a v env = s.bodyWrite rq via a v env := by
  simp only [State.regWrite, State.applyWrite, implementedFor_of_lt rq hlt, himp, hr, hw, Bool.not_true, Bool.false_eq_true, if_false, if_true,
    if_neg (Nat.not_le.mpr hlt), if_neg (Nat.not_lt.mpr hoff)]

/-! ## What a write does, by the access type of its register -/

theorem State.bodyWrite_rw1c {a : Nat} (s : State) (rq : Requester) (via : Bool) (v : Word) (env : WriteEnv) (hb : isBank a = false)
    (hacc : regAcc a = some .rw1c) : s.bodyWrite rq via a v env = s.clearBits a v := by
  simp only [State.bodyWrite, hacc, State.target_of_not_bank s rq via hb]

/-- R808: a low word is staged for the register `d` it reaches. -/
theorem State.bodyWrite_low {s : State} {rq : Requester} {via : Bool} {a d : Nat} (v : Word) (env : WriteEnv) (hl : isLow a = true)
    (hacc : regAcc a = some .rw) (ht : s.target rq via a = some d) :
    s.bodyWrite rq via a v env = { s with staged := Store.put halfNone s.staged (halfKey rq a) { valid := true, low := d, word := v } } := by
  simp only [State.bodyWrite, hacc, ht, hl, if_true]

/-- R808: the low word that a write of the high word at `a` commits: the one staged for its pair, the stored one where there is none. -/
def State.lowOf (s : State) (rq : Requester) (a : Nat) : Word :=
  let h := Store.get halfNone s.staged (halfKey rq a)
  if h.valid && h.low = a - 4 then h.word else s.reg (a - 4)

/-- R808: a high word commits its pair; of the state before it, only what was staged may have gone. -/
theorem State.bodyWrite_high {a : Nat} (s : State) (rq : Requester) (via : Bool) (v : Word) (env : WriteEnv) (hb : isBank a = false)
    (hl : isLow a = false) (hh : isHigh a = true) (hacc : regAcc a = some .rw) :
    ∃ u : State, u.regs = s.regs ∧ s.bodyWrite rq via a v env = u.commitPair (a - 4) (a - 4) (s.lowOf rq a) v := by
  simp only [State.bodyWrite, State.lowOf, hacc, State.target_of_not_bank s rq via hb, hl, hh, Bool.false_eq_true, if_false, if_true]
  split
  · exact ⟨{ s with staged := Store.put halfNone s.staged (halfKey rq a) {} }, rfl, rfl⟩
  · exact ⟨s, rfl, rfl⟩

/-- No register of the HBR, FRY and THM pages has a rule of its own. -/
theorem State.act_plain {a : Nat} (s : State) (rq : Requester) (via : Bool) (v : Word) (env : WriteEnv)
    (h : [5, 6, 20].contains (adrType a) = true) : s.act rq via a v env = s.plainWrite a v := by
  simp only [List.contains_cons, List.contains_nil, Bool.or_false, Bool.or_eq_true, beq_iff_eq] at h
  obtain h | h | h := h <;> simp [State.act, h]

theorem State.bodyWrite_plain {a : Nat} (s : State) (rq : Requester) (via : Bool) (v : Word) (env : WriteEnv)
    (hty : [5, 6, 20].contains (adrType a) = true) (hl : isLow a = false) (hh : isHigh a = false) (hacc : regAcc a = some .rw) :
    s.bodyWrite rq via a v env = s.plainWrite a v := by
  have hb : isBank a = false := isBank_of_type_ne fun e => by rw [e] at hty; exact absurd hty (by decide)
  simp only [State.bodyWrite, hacc, State.target_of_not_bank s rq via hb, hl, hh, hb, Bool.false_eq_true, if_false, State.act_plain s rq via v env hty]

/-! ## Reads -/

theorem State.readOut_of_regRead {s t : State} {rq : Requester} {via : Bool} {a : Nat} {v : Word} (h : s.regRead rq via a = (v, t)) :
    s.readOut rq via a = t.emit (.data (leBytes v.toNat 4)) := by simp only [State.readOut, h]

theorem peekOf_of_lt {a : Nat} (h : a < 0x5400000) : peekOf a = none := by
  rw [peekOf, if_neg (by omega), if_neg (by simp only [Bool.and_eq_true, decide_eq_true_eq]; omega)]

theorem State.valFor_of_not_bank {a : Nat} (s : State) (rq : Requester) (via : Bool) (h : isBank a = false) : s.valFor rq via a = s.val a := by
  simp only [State.valFor, h, Bool.false_eq_true, if_false]

/-- R806, R807: a read of a low word latches the high word for its requester and page. -/
theorem State.regRead_low {rq : Requester} {a : Nat} (s : State) (via : Bool) (hlt : a < 0x5400000) (himp : pageImplemented a = true)
    (hl : isLow a = true) (hm : mayRead rq a = true) :
    s.regRead rq via a = (s.valFor rq via a,
      { s with shadow := Store.put halfNone s.shadow (halfKey rq a) { valid := true, low := a, word := s.valFor rq via (a + 4) } }) := by
  simp only [State.regRead, implementedFor_of_lt rq hlt, himp, peekOf_of_lt hlt, hm, hl, Bool.not_true, Bool.false_eq_true, if_false, if_true]

/-- A read of a register of 32 bits answers its value, and clears it where its access type says so. -/
theorem State.regRead_single {rq : Requester} {a : Nat} (s : State) (via : Bool) (hlt : a < 0x5400000) (himp : pageImplemented a = true)
    (hb : isBank a = false) (hl : isLow a = false) (hh : isHigh a = false) (hm : mayRead rq a = true) :
    s.regRead rq via a = (s.val a, s.readClear a) := by
  simp only [State.regRead, implementedFor_of_lt rq hlt, himp, peekOf_of_lt hlt, hm, hl, hh, State.valFor_of_not_bank s rq via hb, Bool.not_true,
    Bool.false_eq_true, if_false]

theorem State.readClear_rc_regs {a : Nat} (s : State) (hoff : 0x40 ≤ adrOff a) (hacc : regAcc a = some .rc) :
    (s.readClear a).regs = (s.setReg a 0).regs := by
  rw [State.readClear, if_neg (by omega), if_pos hacc]
  dsimp only
  split <;> rfl

theorem State.readClear_out (s : State) (a : Nat) : (s.readClear a).out = s.out := by
  unfold State.readClear
  dsimp only
  repeat' split
  all_goals rfl

theorem State.readClear_not_rc {a : Nat} (s : State) (hoff : adrOff a ≠ 0x28) (hacc : regAcc a ≠ some .rc) : s.readClear a = s := by
  rw [State.readClear, if_neg hoff, if_neg hacc]

/-! ## Bad accesses -/

/-- The registers in which a bad access is recorded. -/
def badRegs : List Nat := [Reg.TOP_BAD_ACC_CNT, Reg.TOP_BAD_ACC_ADDR, Reg.TOP_BAD_ACC_INFO]

/-- BAD_ACC_INFO of an access. -/
def badInfo (rq : Requester) (write : Bool) (kind : Nat) : Word := BitVec.ofNat 32 (Requester.info rq + b2n write * 256 + kind * 512)

/-- A bad access counted and latched, its event not yet raised. -/
def State.badLatch (s : State) (rq : Requester) (a : Nat) (write : Bool) (kind : Nat) : State :=
  ((s.incSat Reg.TOP_BAD_ACC_CNT 1).setReg Reg.TOP_BAD_ACC_ADDR (BitVec.ofNat 32 (a % 2 ^ 28))).setReg Reg.TOP_BAD_ACC_INFO (badInfo rq write kind)

section
variable (s : State) (rq : Requester) (a : Nat) (write : Bool) (kind : Nat)

theorem State.badLatch_cnt :
    (s.badLatch rq a write kind).reg Reg.TOP_BAD_ACC_CNT = BitVec.ofNat 32 (satAdd 0xFFFFFFFF (s.reg Reg.TOP_BAD_ACC_CNT).toNat 1) := by
  rw [State.badLatch, State.reg_setReg_ne _ _ _ _ (by decide), State.reg_setReg_ne _ _ _ _ (by decide), State.incSat, State.reg_setReg_self]

theorem State.badLatch_addr : (s.badLatch rq a write kind).reg Reg.TOP_BAD_ACC_ADDR = BitVec.ofNat 32 (a % 2 ^ 28) := by
  rw [State.badLatch, State.reg_setReg_ne _ _ _ _ (by decide), State.reg_setReg_self]

theorem State.badLatch_info : (s.badLatch rq a write kind).reg Reg.TOP_BAD_ACC_INFO = badInfo rq write kind := State.reg_setReg_self ..

theorem State.badLatch_only : RegsOnly badRegs s (s.badLatch rq a write kind) := fun b hb => by
  rw [State.badLatch, State.reg_setReg_ne _ _ _ _ (ne_of_not_contains hb (by decide)), State.reg_setReg_ne _ _ _ _ (ne_of_not_contains hb (by decide)),
    State.incSat, State.reg_setReg_ne _ _ _ _ (ne_of_not_contains hb (by decide))]

theorem State.badLatch_warmHeld : (s.badLatch rq a write kind).warmHeld = s.warmHeld := by
  have h : (s.badLatch rq a write kind).reg (Reg.PIL_STS 0) = s.reg (Reg.PIL_STS 0) := s.badLatch_only rq a write kind _ (by decide)
  simp only [State.warmHeld, State.getF, h]
  rfl

/-- A bad access is its latch and, when TOP_BAD_ACCESS may be raised again, that raise (R818). -/
theorem State.badAccess_eq : s.badAccess rq a write kind =
    if s.badAccTick.elim true fun t => decide (t + 125000 ≤ s.now) then
      ({ s.badLatch rq a write kind with badAccTick := some s.now } : State).raise 1 0 Ev.TOP_BAD_ACCESS none 255 255
    else s.badLatch rq a write kind := rfl

theorem State.badAccess_mild : Mild (s.badLatch rq a write kind) (s.badAccess rq a write kind) := by
  rw [State.badAccess_eq]
  refine Mild.ite (Mild.trans ?_ (State.raise_mild ..)) (Mild.refl _)
  exact Mild.of_fields rfl rfl

theorem State.badAccess_but : RegsBut badRegs s (s.badAccess rq a write kind) := fun b hb hr =>
  ((s.badAccess_mild rq a write kind).reg b hr).trans (s.badLatch_only rq a write kind b hb)

/-- The first bad access raises TOP_BAD_ACCESS, unless the core domain is held (R818, R1011). -/
theorem State.badAccess_raw (hw : s.warmHeld = false) (ht : s.badAccTick = none) :
    (s.badAccess rq a write kind).rawBit 1 0 Ev.TOP_BAD_ACCESS = true := by
  have hm : (s.badLatch rq a write kind).mute 1 0 = false := by rw [State.mute, State.badLatch_warmHeld, hw]; rfl
  rw [State.badAccess_eq, ht, Option.elim_none, if_pos rfl, State.rawBit]
  exact State.raise_raw _ _ _ _ _ _ _ hm (by decide) (by decide)

end

/-- The answer to a bad access of `n` bytes: a read returns zeros (R778, R779). -/
def State.badAnswer (s : State) (n : Nat) (write : Bool) : State := if write then s else s.emit (.data (List.replicate n 0))

theorem State.badAnswer_fields (s : State) (n : Nat) (write : Bool) :
    (s.badAnswer n write).regs = s.regs ∧ (s.badAnswer n write).hdr = s.hdr := by
  cases write <;> exact ⟨rfl, rfl⟩

theorem State.badAnswer_reg (s : State) (n : Nat) (write : Bool) (b : Nat) : (s.badAnswer n write).reg b = s.reg b :=
  State.reg_of_regs (s.badAnswer_fields n write).1 b

theorem State.badAnswer_rawBit (s : State) (n : Nat) (write : Bool) (ty i b : Nat) : (s.badAnswer n write).rawBit ty i b = s.rawBit ty i b := by
  rw [State.rawBit, State.hd_of_hdr (s.badAnswer_fields n write).2, State.rawBit]

theorem State.badAnswer_out {write : Bool} (s : State) (n : Nat) (h : write = false) :
    (s.badAnswer n write).out.head? = some (.data (List.replicate n 0)) := by subst h; rfl

/-- R778: an access of 32 bits, aligned, to an unimplemented offset. -/
theorem execTopBadAccess_unimplemented {rq : Requester} {a : Fin 268435456} {bytes : Fin 65} (write : Bool) (s : State) (h4 : bytes.val = 4)
    (hal : a.val % 4 = 0) (himp : implementedFor rq a = false) :
    execTopBadAccess rq a bytes write s = .next ((s.badAccess rq a write 0).badAnswer 4 write) := by
  simp [execTopBadAccess, State.badAnswer, h4, hal, himp]

/-- R779: an access of another size or alignment. -/
theorem execTopBadAccess_misaligned {a : Fin 268435456} {bytes : Fin 65} (rq : Requester) (write : Bool) (s : State)
    (h : (bytes.val = 4 ∨ bytes.val = 8) → a.val % bytes.val ≠ 0) :
    execTopBadAccess rq a bytes write s = .next ((s.badAccess rq a write 1).badAnswer bytes write) := by
  have hc : ((bytes.val = 4 || bytes.val = 8) && a.val % bytes.val = 0) = false := by
    simpa only [Bool.and_eq_false_imp, Bool.or_eq_true, decide_eq_true_eq, decide_eq_false_iff_not] using h
  simp only [execTopBadAccess, hc, Bool.not_false, if_true, State.badAnswer]

/-! ## The obligation -/

/-- A command whose answer `r` is known to keep all outside `m`, and which some equation gives as `t`. -/
theorem Runs.of_eq {c : Instr} {s r t : State} {m : Nat} {P : State → Prop} (he : exec c s = .next r) (hk : Keeps m s r) (ht : r = t) (hp : P t) :
    Runs c s m P := by
  subst ht
  exact ⟨r, he, hk.agree, hp⟩

/-- Settles O32: each access reaches one of the equations above, and the register laws say what the state it answers holds. -/
theorem registerAccess : Obligations.RegisterAccess := by
  unfold Obligations.RegisterAccess
  refine ⟨?rw1c, ?rc, ?rp, ?lowRead, ?lowWrite, ?highWrite, ?plain, ?held, ?unimplemented, ?misaligned⟩
  case rw1c =>
    intro rq a v s hlt himp hoff hb hacc hr hw
    have he := (State.regWrite_body false {} hlt himp hoff hr hw).trans (State.bodyWrite_rw1c s rq false v {} hb hacc)
    exact Runs.of_eq rfl ((State.regWrite_keeps ..).mono rfl) he ⟨State.reg_setReg_self .., RegsOnly.setReg _ _ _⟩
  case rc =>
    intro rq a s hlt himp hoff hb hl hh hacc hm
    have he := State.readOut_of_regRead (s.regRead_single false hlt himp hb hl hh hm)
    have hreg (b : Nat) : (s.readClear a).reg b = (s.setReg a 0).reg b := State.reg_of_regs (s.readClear_rc_regs hoff hacc) b
    exact Runs.of_eq rfl ((State.readOut_keeps ..).mono rfl) he
      ⟨(hreg a).trans (State.reg_setReg_self ..), congrArg _ (s.readClear_out a), fun b hb => (hreg b).trans (RegsOnly.setReg s a 0 b hb)⟩
  case rp =>
    intro rq a s hlt himp hb hl hh hoff hacc hm
    have he := State.readOut_of_regRead (s.regRead_single false hlt himp hb hl hh hm)
    rw [s.readClear_not_rc hoff hacc] at he
    exact Runs.of_eq rfl ((State.readOut_keeps ..).mono rfl) he ⟨rfl, rfl, rfl⟩
  case lowRead =>
    intro rq via a s hlt himp hl hm
    have he := State.readOut_of_regRead (s.regRead_low via hlt himp hl hm)
    exact Runs.of_eq rfl ((State.readOut_keeps ..).mono rfl) he ⟨rfl, by rw [State.emit_shadow, Store.get_put_same], rfl⟩
  case lowWrite =>
    intro rq via a v d s hlt himp hoff hl hacc ht hr hw
    have he := (State.regWrite_body via {} hlt himp hoff hr hw).trans (State.bodyWrite_low v {} hl hacc ht)
    exact Runs.of_eq rfl ((State.regWrite_keeps ..).mono rfl) he ⟨by rw [Store.get_put_same], rfl⟩
  case highWrite =>
    intro rq via a v s k low hlt himp hoff hb hl hh hacc hpps hr hw
    obtain ⟨u, hu, he⟩ := s.bodyWrite_high rq via v {} hb hl hh hacc
    have h4 : 4 ≤ a.val := by
      simp only [adrOff] at hoff
      omega
    rw [State.commitPair_eq (by omega), Nat.sub_add_cancel h4] at he
    refine Runs.of_eq rfl ((State.regWrite_keeps ..).mono rfl) ((State.regWrite_body via {} hlt himp hoff hr hw).trans he) ⟨?_, ?_, fun b hb => ?_⟩
    · rw [State.reg_store, if_neg (by omega), State.reg_store, if_pos rfl, State.reg_of_regs hu]; rfl
    · rw [State.reg_store, if_pos rfl, State.reg_store, if_neg (by omega), State.reg_of_regs hu]
    · rw [State.reg_store, if_neg (ne_of_not_contains hb (by simp)), State.reg_store, if_neg (ne_of_not_contains hb (by simp)), State.reg_of_regs hu]
  case plain =>
    intro rq via a v env s hlt himp hoff hty hl hh hacc hr hw
    have he := (State.regWrite_body via env hlt himp hoff hr hw).trans (State.bodyWrite_plain s rq via v env hty hl hh hacc)
    exact Runs.of_eq rfl ((State.regWrite_keeps ..).mono rfl) he ⟨State.reg_setReg_self .., RegsOnly.setReg _ _ _⟩
  case held =>
    intro rq via a v env s hlt himp hr
    exact Runs.of_eq rfl ((State.regWrite_keeps ..).mono rfl) (State.regWrite_held rq via v env hlt himp hr) ⟨rfl, rfl, rfl⟩
  case unimplemented =>
    intro rq a bytes write s h4 hal himp
    have he := execTopBadAccess_unimplemented write s h4 hal himp
    have hreg := (s.badAccess rq a write 0).badAnswer_reg 4 write
    have hlatch := (s.badAccess_mild rq a write 0).reg
    refine Runs.of_eq he ((execTopBadAccess_keeps _ _ _ _ _ _ he).mono rfl) rfl
      ⟨?_, ?_, ?_, fun hw ht => ?_, State.badAnswer_out _ 4, fun b hb hr => (hreg b).trans (s.badAccess_but rq a write 0 b hb hr)⟩
    · rw [hreg, hlatch _ (by decide), State.badLatch_cnt]
    · rw [hreg, hlatch _ (by decide), State.badLatch_addr, Nat.mod_eq_of_lt (show a.val < 2 ^ 28 from a.isLt)]
    · rw [hreg, hlatch _ (by decide), State.badLatch_info, badInfo, Nat.zero_mul, Nat.add_zero]
    · rw [State.badAnswer_rawBit, s.badAccess_raw rq a write 0 hw ht]
  case misaligned =>
    intro rq a bytes write s h
    have he := execTopBadAccess_misaligned rq write s h
    have hreg := (s.badAccess rq a write 1).badAnswer_reg bytes write
    refine Runs.of_eq he ((execTopBadAccess_keeps _ _ _ _ _ _ he).mono rfl) rfl
      ⟨?_, State.badAnswer_out _ bytes, fun b hb hr => (hreg b).trans (s.badAccess_but rq a write 1 b hb hr)⟩
    rw [hreg, (s.badAccess_mild rq a write 1).reg _ (by decide), State.badLatch_info, badInfo, Nat.one_mul]

end Sys2Proof.Machine
end

section
/-!
PROOFS. PulsesAndRowReads (O42) is refuted by its clause on transpose phases. The clause takes the tile number g = 16 · island + uindex from a ticket
whose uindex nothing bounds. At g = 15360 + c the model's address of the tile's TRN_CFG (R105) is that of context c's BASIN_FAULT (R697), so the
foreign access that the fountain's read is charged with (R671) replaces the transpose range factor (R80) before the phase converts.
-/
namespace Sys2Proof.Machine

/-- Beyond the 1024 tiles, the TIL page that the address formula gives is a CTX page, and TRN_CFG stands where BASIN_FAULT does. -/
theorem Reg.TIL_TRN_CFG_eq_CTX_BASIN_FAULT (c : Nat) : Reg.TIL_TRN_CFG (15360 + c) = Reg.CTX_BASIN_FAULT c := by
  simp only [Reg.TIL_TRN_CFG, Reg.CTX_BASIN_FAULT]
  omega

/-- A foreign access latches the word of its first line (R671). -/
theorem State.noteForeign_basinFault (s : State) (isl : Nat) {ctx : Nat} (f : LineFault) (fs : List LineFault)
    (h : raiseReg (Reg.CTX_BASIN_FAULT ctx) = false) :
    (s.noteForeign isl ctx (f :: fs)).reg (Reg.CTX_BASIN_FAULT ctx) = BitVec.ofNat 32 (faultWord isl f) :=
  ((State.raiseC_mild ..).reg _ h).trans (State.reg_setReg_self ..)

/-- A launched transpose phase 0 of context 0 on island 1, on the tile number 1 · 16 + 15344 = 15360; its latched expansion drives column 0 with 31
and holds one line of a foreign read. -/
def aliasTicket : Ticket :=
  { state := 3, action := 3, uindex := 15344, ex := { ok := true, drives := [31#8], faults := [[(1, 0, 0)]] } }

/-- The ticket at index 0 of island 1; the delay line of its tile locked and not stale; row 0 of the tile valid, with the level 63 in column 0. -/
def aliasState : State :=
  { regs := [(Reg.TIL_STS 15360, 0x20#32)]
    rows := [(15360 * 1024, { levels := [63#8], valid := true })]
    tickets := [(256, aliasTicket)] }

/-- The first count of the phase over these rows, by the range factor that TRN_CFG holds (R80). -/
theorem aliasState_phaseCounts_head {s : State} (hrows : s.rows = aliasState.rows) (htiles : s.tiles = aliasState.tiles) :
    (s.phaseCounts 15360 0 aliasTicket.ex.drives []).head? = some (32 + 31 * 31 / (512 * 2 ^ s.getF (Reg.TIL_TRN_CFG 15360) 0 2)) := by
  have hlt : s.getF (Reg.TIL_TRN_CFG 15360) 0 2 < 4 := Nat.mod_lt _ (by decide)
  simp only [State.phaseCounts, State.row, State.tx, hrows, htiles]
  generalize s.getF (Reg.TIL_TRN_CFG 15360) 0 2 = n at hlt ⊢
  match n, hlt with
  | 0, _ | 1, _ | 2, _ | 3, _ => decide +kernel

/-- Before the command the factor is ×1. -/
theorem aliasState_trnGain : aliasState.getF (Reg.TIL_TRN_CFG 15360) 0 2 = 0 := by decide

/-- Once the foreign access is charged, the factor is ×2: the island number of the fault word. -/
theorem aliasState_noteForeign_trnGain : (aliasState.noteForeign 1 0 [(1, 0, 0)]).getF (Reg.TIL_TRN_CFG 15360) 0 2 = 1 := by
  rw [Reg.TIL_TRN_CFG_eq_CTX_BASIN_FAULT 0, State.getF, State.noteForeign_basinFault _ _ _ _ (by decide)]
  decide

/-- The command delivers the counts of the state in which the foreign access is charged. -/
theorem aliasState_transposePhase : ∃ t, exec (.transposePhase 1 0 []) aliasState = .next t ∧
    (t.tk 1 0).counts = (aliasState.noteForeign 1 0 [(1, 0, 0)]).phaseCounts 15360 0 aliasTicket.ex.drives [] :=
  ⟨_, rfl, by decide +kernel⟩

/-- Refutes O42: a transpose phase on tile number 15360 converts with the range factor that its own foreign access has overwritten, and its first count
is 32 where the clause says 33. -/
theorem not_pulsesAndRowReads : ¬ Obligations.PulsesAndRowReads := by
  unfold Obligations.PulsesAndRowReads
  rintro ⟨-, -, -, transposeClause, -⟩
  obtain ⟨t, hexec, -, -, -, -, hclause⟩ := transposeClause 1 0 [] aliasState (by decide)
  obtain ⟨u, hexec', hdelivered⟩ := aliasState_transposePhase
  obtain rfl : t = u := Host.Outcome.next.inj (hexec.symm.trans hexec')
  have hclaimed : (t.tk 1 0).counts = aliasState.phaseCounts 15360 0 aliasTicket.ex.drives [] :=
    hclause (by decide) (by decide)
  have hkeeps := (aliasState.noteForeign_keeps 1 0 [(1, 0, 0)]).agree
  have hheads := congrArg List.head? (hclaimed.symm.trans hdelivered)
  rw [aliasState_phaseCounts_head rfl rfl, aliasState_phaseCounts_head (hkeeps.rows rfl) (hkeeps.tiles rfl), aliasState_trnGain,
    aliasState_noteForeign_trnGain] at hheads
  exact absurd hheads (by decide)

end Sys2Proof.Machine
end

section
/-!
PROOFS. The tide count (R466, R468): what a tick edge and a lock of the tide PLL make of it, and that no other command moves it but a loss
of power and a failed boot attempt (R1015, R1033); with them TideCountRule (O15) is settled.
-/
namespace Sys2Proof.Machine

/-! ## Every command answers, and which commands leave the count -/

/-- No command stops the machine. -/
theorem exec_next (c : Instr) (s : State) : ∃ t, exec c s = .next t := by
  cases c <;> exact ⟨_, rfl⟩

/-- A command that `mayWriteCount` does not list leaves the count: each by the law of its own meaning, whose set of fields does not hold the count. -/
theorem exec_count {s t : State} : ∀ c : Instr, mayWriteCount c = false → exec c s = .next t → t.count = s.count
  | .refclkLoss .., _, h => (execRefclkLoss_keeps _ _ _ h).agree.count rfl
  | .refclkReturn, _, h => (execRefclkReturn_keeps _ _ h).agree.count rfl
  | .resyncWord .., _, h => (execResyncWord_keeps _ _ _ _ h).agree.count rfl
  | .ticketIssue .., _, h => (execTicketIssue_keeps _ _ _ h).agree.count rfl
  | .fountainExpand .., _, h => (execFountainExpand_keeps _ _ _ _ h).agree.count rfl
  | .standardPulse .., _, h => (execStandardPulse_keeps _ _ _ _ _ h).agree.count rfl
  | .extendedPulse .., _, h => (execExtendedPulse_keeps _ _ _ _ _ h).agree.count rfl
  | .transposePhase .., _, h => (execTransposePhase_keeps _ _ _ _ _ h).agree.count rfl
  | .spillRowRead .., _, h => (execSpillRowRead_keeps _ _ _ _ h).agree.count rfl
  | .rowioRead .., _, h => (execRowioRead_keeps _ _ _ _ _ h).agree.count rfl
  | .rowioWrite .., _, h => (execRowioWrite_keeps _ _ _ _ h).agree.count rfl
  | .actionAck .., _, h => (execActionAck_keeps _ _ _ _ _ h).agree.count rfl
  | .tideMiss .., _, h => (execTideMiss_keeps _ _ _ _ h).agree.count rfl
  | .tideHang .., _, h => (execTideHang_keeps _ _ _ _ h).agree.count rfl
  | .slackWindowEnd, _, h => (execSlackWindowEnd_keeps _ _ h).agree.count rfl
  | .stepOrigin .., _, h => (execStepOrigin_keeps _ _ _ h).agree.count rfl
  | .ppsEdge .., _, h => (execPpsEdge_keeps _ _ _ _ _ h).agree.count rfl
  | .tidePpsLost, _, h => (execTidePpsLost_keeps _ _ h).agree.count rfl
  | .ppsCtlWrite .., _, h => (execPpsCtlWrite_keeps _ _ _ _ h).agree.count rfl
  | .ppsBaseWrite .., _, h => (execPpsBaseWrite_keeps _ _ _ _ h).agree.count rfl
  | .tideOutMarker, _, h => (execTideOutMarker_keeps _ _ h).agree.count rfl
  | .tktSelWrite .., _, h => (execTktSelWrite_keeps _ _ _ _ h).agree.count rfl
  | .slkCtlWrite .., _, h => (execSlkCtlWrite_keeps _ _ _ _ h).agree.count rfl
  | .tunitLock .., _, h => (execTunitLock_keeps _ _ _ h).agree.count rfl
  | .tilTunitUnlock .., _, h => (execTilTunitUnlock_keeps _ _ _ _ h).agree.count rfl
  | .descale .., _, h => (execDescale_keeps _ _ _ _ h).agree.count rfl
  | .quant .., _, h => (execQuant_keeps _ _ _ _ h).agree.count rfl
  | .outsel .., _, h => (execOutsel_keeps _ _ _ _ h).agree.count rfl
  | .actOp .., _, h => (execActOp_keeps _ _ _ _ h).agree.count rfl
  | .addOp .., _, h => (execAddOp_keeps _ _ _ _ h).agree.count rfl
  | .mulOp .., _, h => (execMulOp_keeps _ _ _ _ h).agree.count rfl
  | .normOp .., _, h => (execNormOp_keeps _ _ _ _ h).agree.count rfl
  | .softmax .., _, h => (execSoftmax_keeps _ _ _ _ h).agree.count rfl
  | .copyOp .., _, h => (execCopyOp_keeps _ _ _ _ h).agree.count rfl
  | .gquant .., _, h => (execGquant_keeps _ _ _ _ h).agree.count rfl
  | .outer .., _, h => (execOuter_keeps _ _ _ _ h).agree.count rfl
  | .optstep .., _, h => (execOptstep_keeps _ _ _ _ h).agree.count rfl
  | .send .., _, h => (execSend_keeps _ _ _ _ _ _ h).agree.count rfl
  | .repeatPulse .., _, h => (execRepeatPulse_keeps _ _ _ h).agree.count rfl
  | .colmapApply .., _, h => (execColmapApply_keeps _ _ _ _ h).agree.count rfl
  | .copyPassRowOp .., _, h => (execCopyPassRowOp_keeps _ _ _ _ h).agree.count rfl
  | .tilColmapDone .., _, h => (execTilColmapDone_keeps _ _ _ h).agree.count rfl
  | .trimWinWrite .., _, h => (execTrimWinWrite_keeps _ _ _ _ _ _ h).agree.count rfl
  | .refreshSlot .., _, h => (execRefreshSlot_keeps _ _ _ h).agree.count rfl
  | .rowRefreshDone .., _, h => (execRowRefreshDone_keeps _ _ _ _ h).agree.count rfl
  | .catchupRefresh .., _, h => (execCatchupRefresh_keeps _ _ _ h).agree.count rfl
  | .tilRfshLate .., _, h => (execTilRfshLate_keeps _ _ _ h).agree.count rfl
  | .release .., _, h => (execRelease_keeps _ _ _ _ h).agree.count rfl
  | .releaseApply .., _, h => (execReleaseApply_keeps _ _ _ h).agree.count rfl
  | .tilDecayed .., _, h => (execTilDecayed_keeps _ _ _ h).agree.count rfl
  | .tilRfshRegime .., _, h => (execTilRfshRegime_keeps _ _ _ h).agree.count rfl
  | .gridWrite .., _, h => (execGridWrite_keeps _ _ _ _ _ h).agree.count rfl
  | .phaseWrite .., _, h => (execPhaseWrite_keeps _ _ _ _ _ h).agree.count rfl
  | .termStoreEcc .., _, h => (execTermStoreEcc_keeps _ _ _ _ h).agree.count rfl
  | .digWriteRecompute .., _, h => (execDigWriteRecompute_keeps _ _ _ h).agree.count rfl
  | .runCal .., _, h => (execRunCal_keeps _ _ _ _ _ h).agree.count rfl
  | .calCommit .., _, h => (execCalCommit_keeps _ _ _ _ _ h).agree.count rfl
  | .calRevert .., _, h => (execCalRevert_keeps _ _ _ _ _ h).agree.count rfl
  | .calAbort .., _, h => (execCalAbort_keeps _ _ _ _ _ h).agree.count rfl
  | .calSnapshot .., _, h => (execCalSnapshot_keeps _ _ _ _ _ h).agree.count rfl
  | .snapshotWriteDone .., _, h => (execSnapshotWriteDone_keeps _ _ _ h).agree.count rfl
  | .calTileStart .., _, h => (execCalTileStart_keeps _ _ _ h).agree.count rfl
  | .calAction .., _, h => (execCalAction_keeps _ _ _ _ _ _ h).agree.count rfl
  | .calTileEnd .., _, h => (execCalTileEnd_keeps _ _ _ _ _ _ _ _ _ _ _ _ _ h).agree.count rfl
  | .calCommitted, _, h => (execCalCommitted_keeps _ _ h).agree.count rfl
  | .vrefSample .., _, h => (execVrefSample_keeps _ _ _ _ h).agree.count rfl
  | .calUnlockTimeout .., _, h => (execCalUnlockTimeout_keeps _ _ _ h).agree.count rfl
  | .weirWindowEnd .., _, h => (execWeirWindowEnd_keeps _ _ _ h).agree.count rfl
  | .weirCtlWrite .., _, h => (execWeirCtlWrite_keeps _ _ _ _ _ h).agree.count rfl
  | .loadPlan .., _, h => (execLoadPlan_keeps _ _ _ _ _ _ h).agree.count rfl
  | .importSection .., _, h => (execImportSection_keeps _ _ _ _ _ _ h).agree.count rfl
  | .unloadPlan .., _, h => (execUnloadPlan_keeps _ _ _ h).agree.count rfl
  | .runJob .., _, h => (execRunJob_keeps _ _ _ h).agree.count rfl
  | .swapPlan .., _, h => (execSwapPlan_keeps _ _ _ h).agree.count rfl
  | .cistReg .., _, h => (execCistReg_keeps _ _ _ h).agree.count rfl
  | .nopJob .., _, h => (execNopJob_keeps _ _ _ h).agree.count rfl
  | .tileAssignWrite .., _, h => (execTileAssignWrite_keeps _ _ _ _ _ _ _ h).agree.count rfl
  | .dynDecision .., _, h => (execDynDecision_keeps _ _ _ _ h).agree.count rfl
  | .dynDefault .., _, h => (execDynDefault_keeps _ _ _ _ h).agree.count rfl
  | .dynWait .., _, h => (execDynWait_keeps _ _ _ _ h).agree.count rfl
  | .dynPrepare .., _, h => (execDynPrepare_keeps _ _ _ _ _ h).agree.count rfl
  | .dynSubRowWrite .., _, h => (execDynSubRowWrite_keeps _ _ _ _ _ h).agree.count rfl
  | .dynSubPulse .., _, h => (execDynSubPulse_keeps _ _ _ _ _ _ h).agree.count rfl
  | .dynRevoked .., _, h => (execDynRevoked_keeps _ _ _ h).agree.count rfl
  | .sluiceTick, _, h => (execSluiceTick_keeps _ _ h).agree.count rfl
  | .capWindowEnd, _, h => (execCapWindowEnd_keeps _ _ h).agree.count rfl
  | .avsWindowEnd, _, h => (execAvsWindowEnd_keeps _ _ h).agree.count rfl
  | .avsReadback .., _, h => (execAvsReadback_keeps _ _ _ h).agree.count rfl
  | .sluiceAvsFault, _, h => (execSluiceAvsFault_keeps _ _ h).agree.count rfl
  | .capWrite .., _, h => (execCapWrite_keeps _ _ _ _ _ h).agree.count rfl
  | .capWinWrite .., _, h => (execCapWinWrite_keeps _ _ _ _ h).agree.count rfl
  | .avsCtlWrite .., _, h => (execAvsCtlWrite_keeps _ _ _ _ h).agree.count rfl
  | .harbourReadDone .., _, h => (execHarbourReadDone_keeps _ _ _ _ _ _ _ h).agree.count rfl
  | .hbrCeStorm .., _, h => (execHbrCeStorm_keeps _ _ _ h).agree.count rfl
  | .patrolPass .., _, h => (execPatrolPass_keeps _ _ _ h).agree.count rfl
  | .scrubPass .., _, h => (execScrubPass_keeps _ _ _ _ h).agree.count rfl
  | .fryCistErr .., _, h => (execFryCistErr_keeps _ _ _ h).agree.count rfl
  | .hbToBasin .., _, h => (execHbToBasin_keeps _ _ _ _ _ h).agree.count rfl
  | .basinToHb .., _, h => (execBasinToHb_keeps _ _ _ _ _ h).agree.count rfl
  | .ferryFetch .., _, h => (execFerryFetch_keeps _ _ _ _ _ _ _ h).agree.count rfl
  | .ferryDelivery .., _, h => (execFerryDelivery_keeps _ _ _ _ _ h).agree.count rfl
  | .writeTiles .., _, h => (execWriteTiles_keeps _ _ _ _ h).agree.count rfl
  | .ferryRowWrite .., _, h => (execFerryRowWrite_keeps _ _ _ _ _ h).agree.count rfl
  | .ferryVerify .., _, h => (execFerryVerify_keeps _ _ _ _ _ _ h).agree.count rfl
  | .swapLayerRewrite .., _, h => (execSwapLayerRewrite_keeps _ _ _ h).agree.count rfl
  | .frySwapDone .., _, h => (execFrySwapDone_keeps _ _ _ h).agree.count rfl
  | .overflowWrite .., _, h => (execOverflowWrite_keeps _ _ _ h).agree.count rfl
  | .ctxCreate .., _, h => (execCtxCreate_keeps _ _ _ _ h).agree.count rfl
  | .ctxDestroy .., _, h => (execCtxDestroy_keeps _ _ _ _ h).agree.count rfl
  | .teardownDone .., _, h => (execTeardownDone_keeps _ _ _ _ h).agree.count rfl
  | .installKey .., _, h => (execInstallKey_keeps _ _ _ _ h).agree.count rfl
  | .vaultLeaseGrant, _, h => (execVaultLeaseGrant_keeps _ _ h).agree.count rfl
  | .ctxKeyOk .., _, h => (execCtxKeyOk_keeps _ _ _ _ _ _ _ h).agree.count rfl
  | .ctxBack .., _, h => (execCtxBack_keeps _ _ _ _ _ h).agree.count rfl
  | .vfOff .., _, h => (execVfOff_keeps _ _ _ h).agree.count rfl
  | .regKey .., _, h => (execRegKey_keeps _ _ _ _ _ h).agree.count rfl
  | .revokeKey .., _, h => (execRevokeKey_keeps _ _ _ _ h).agree.count rfl
  | .zeroise .., _, h => (execZeroise_keeps _ _ _ _ h).agree.count rfl
  | .getVersion .., _, h => (execGetVersion_keeps _ _ _ h).agree.count rfl
  | .getCapabilities .., _, h => (execGetCapabilities_keeps _ _ _ h).agree.count rfl
  | .negotiateAlgorithms .., _, h => (execNegotiateAlgorithms_keeps _ _ _ _ h).agree.count rfl
  | .getDigests .., _, h => (execGetDigests_keeps _ _ _ h).agree.count rfl
  | .getCertificate .., _, h => (execGetCertificate_keeps _ _ _ _ _ _ h).agree.count rfl
  | .challenge .., _, h => (execChallenge_keeps _ _ _ _ h).agree.count rfl
  | .getMeasurements .., _, h => (execGetMeasurements_keeps _ _ _ _ _ h).agree.count rfl
  | .keyExchange .., _, h => (execKeyExchange_keeps _ _ _ h).agree.count rfl
  | .finish .., _, h => (execFinish_keeps _ _ _ _ h).agree.count rfl
  | .endSession .., _, h => (execEndSession_keeps _ _ _ h).agree.count rfl
  | .spdmUnsupported x, _, h => (execSpdmUnsupported_keeps x _ _ h).agree.count rfl
  | .ideKm .., _, h => (execIdeKm_keeps _ _ _ h).agree.count rfl
  | .linkUp .., _, h => (execLinkUp_keeps _ _ _ _ _ h).agree.count rfl
  | .hifLinkDown, _, h => (execHifLinkDown_keeps _ _ h).agree.count rfl
  | .sqTail .., _, h => (execSqTail_keeps _ _ _ _ _ h).agree.count rfl
  | .cqHead .., _, h => (execCqHead_keeps _ _ _ _ _ h).agree.count rfl
  | .entryFetch .., _, h => (execEntryFetch_keeps _ _ _ _ h).agree.count rfl
  | .qCreate .., _, h => (execQCreate_keeps _ _ _ _ h).agree.count rfl
  | .qDelete .., _, h => (execQDelete_keeps _ _ _ _ h).agree.count rfl
  | .pushPayloadWrite .., _, h => (execPushPayloadWrite_keeps _ _ _ _ _ _ h).agree.count rfl
  | .fastEntry .., _, h => (execFastEntry_keeps _ _ _ _ _ h).agree.count rfl
  | .fastCommit .., _, h => (execFastCommit_keeps _ _ _ h).agree.count rfl
  | .inputBlockArrival .., _, h => (execInputBlockArrival_keeps _ _ _ _ _ _ h).agree.count rfl
  | .resultBlockWrite .., _, h => (execResultBlockWrite_keeps _ _ _ _ _ h).agree.count rfl
  | .completionWrite .., _, h => (execCompletionWrite_keeps _ _ _ h).agree.count rfl
  | .hifDmaErr .., _, h => (execHifDmaErr_keeps _ _ _ h).agree.count rfl
  | .flr .., _, h => (execFlr_keeps _ _ _ h).agree.count rfl
  | .outputCompare .., _, h => (execOutputCompare_keeps _ _ _ h).agree.count rfl
  | .evtPendWrite .., _, h => (execEvtPendWrite_keeps _ _ _ _ _ _ h).agree.count rfl
  | .evtEnWrite .., _, h => (execEvtEnWrite_keeps _ _ _ _ _ _ h).agree.count rfl
  | .evtForce .., _, h => (execEvtForce_keeps _ _ _ _ _ _ h).agree.count rfl
  | .fenceWrite .., _, h => (execFenceWrite_keeps _ _ _ _ _ _ h).agree.count rfl
  | .rw1cWrite .., _, h => (execRw1cWrite_keeps _ _ _ _ _ h).agree.count rfl
  | .rcRead .., _, h => (execRcRead_keeps _ _ _ _ h).agree.count rfl
  | .rpRead .., _, h => (execRpRead_keeps _ _ _ _ h).agree.count rfl
  | .lowWordRead .., _, h => (execLowWordRead_keeps _ _ _ _ _ h).agree.count rfl
  | .lowWordWrite .., _, h => (execLowWordWrite_keeps _ _ _ _ _ _ h).agree.count rfl
  | .highWordWrite .., _, h => (execHighWordWrite_keeps _ _ _ _ _ _ h).agree.count rfl
  | .regWrite .., _, h => (execRegWrite_keeps _ _ _ _ _ _ _ h).agree.count rfl
  | .topBadAccess .., _, h => (execTopBadAccess_keeps _ _ _ _ _ _ h).agree.count rfl
  | .pendSelWrite .., _, h => (execPendSelWrite_keeps _ _ _ _ h).agree.count rfl
  | .irqHoldoffEnd .., _, h => (execIrqHoldoffEnd_keeps _ _ _ h).agree.count rfl
  | .leaseRenew .., _, h => (execLeaseRenew_keeps _ _ _ _ _ h).agree.count rfl
  | .leaseExpiry .., _, h => (execLeaseExpiry_keeps _ _ _ _ _ _ h).agree.count rfl
  | .leaseLost .., _, h => (execLeaseLost_keeps _ _ _ _ _ h).agree.count rfl
  | .thermalSample .., _, h => (execThermalSample_keeps _ _ _ h).agree.count rfl
  | .thmTrip .., _, h => (execThmTrip_keeps _ _ _ h).agree.count rfl
  | .thmSensor .., _, h => (execThmSensor_keeps _ _ _ _ h).agree.count rfl
  | .reprogramStart .., _, h => (execReprogramStart_keeps _ _ _ h).agree.count rfl
  | .reprogramVerify .., _, h => (execReprogramVerify_keeps _ _ _ _ h).agree.count rfl
  | .nearMissWindowEnd .., _, h => (execNearMissWindowEnd_keeps _ _ _ h).agree.count rfl
  | .basinLineUe .., _, h => (execBasinLineUe_keeps _ _ _ _ h).agree.count rfl
  | .replicaCompare .., _, h => (execReplicaCompare_keeps _ _ _ h).agree.count rfl
  | .rplExpel .., _, h => (execRplExpel_keeps _ _ _ h).agree.count rfl
  | .testDue .., _, h => (execTestDue_keeps _ _ _ _ h).agree.count rfl
  | .testStart .., _, h => (execTestStart_keeps _ _ _ _ h).agree.count rfl
  | .testDeferBound .., _, h => (execTestDeferBound_keeps _ _ _ _ h).agree.count rfl
  | .rehomeSwitch .., _, h => (execRehomeSwitch_keeps _ _ _ _ h).agree.count rfl
  | .tstPreempt .., _, h => (execTstPreempt_keeps _ _ _ _ _ h).agree.count rfl
  | .testComplete .., _, h => (execTestComplete_keeps _ _ _ _ _ _ _ h).agree.count rfl
  | .testTile .., _, h => (execTestTile_keeps _ _ _ _ h).agree.count rfl
  | .testIsland .., _, h => (execTestIsland_keeps _ _ _ _ h).agree.count rfl
  | .tstIsland .., _, h => (execTstIsland_keeps _ _ _ h).agree.count rfl
  | .tstPatUpdate, _, h => (execTstPatUpdate_keeps _ _ h).agree.count rfl
  | .pilWdog .., _, h => (execPilWdog_keeps _ _ _ h).agree.count rfl
  | .wdKick .., _, h => (execWdKick_keeps _ _ _ _ h).agree.count rfl
  | .pilRestart .., _, h => (execPilRestart_keeps _ _ _ _ h).agree.count rfl
  | .contextRecovery .., _, h => (execContextRecovery_keeps _ _ _ h).agree.count rfl
  | .engineRecovery .., _, h => (execEngineRecovery_keeps _ _ _ h).agree.count rfl
  | .partitionRecovery .., _, h => (execPartitionRecovery_keeps _ _ _ h).agree.count rfl
  | .chipWarmReset .., _, h => (execChipWarmReset_keeps _ _ _ h).agree.count rfl
  | .powerCycle, _, h => (execPowerCycle_keeps _ _ h).agree.count rfl
  | .pwrcycStuck, _, h => (execPwrcycStuck_keeps _ _ h).agree.count rfl
  | .ctxCmd .., _, h => (execCtxCmd_keeps _ _ _ _ h).agree.count rfl
  | .engineCmd .., _, h => (execEngineCmd_keeps _ _ _ _ h).agree.count rfl
  | .partitionCmd .., _, h => (execPartitionCmd_keeps _ _ _ _ h).agree.count rfl
  | .warmCmd .., _, h => (execWarmCmd_keeps _ _ _ h).agree.count rfl
  | .pwrcycCmd .., _, h => (execPwrcycCmd_keeps _ _ _ h).agree.count rfl
  | .resumeCmd .., _, h => (execResumeCmd_keeps _ _ _ h).agree.count rfl
  | .reconciliation, _, h => (execReconciliation_keeps _ _ h).agree.count rfl
  | .hello .., _, h => (execHello_keeps _ _ _ _ _ _ h).agree.count rfl
  | .closeSession .., _, h => (execCloseSession_keeps _ _ _ _ h).agree.count rfl
  | .sessionTimeout .., _, h => (execSessionTimeout_keeps _ _ _ h).agree.count rfl
  | .cswAuthFail .., _, h => (execCswAuthFail_keeps _ _ _ h).agree.count rfl
  | .mgmtKeySet .., _, h => (execMgmtKeySet_keeps _ _ _ _ _ _ _ _ h).agree.count rfl
  | .cswRead .., _, h => (execCswRead_keeps _ _ _ _ _ _ _ h).agree.count rfl
  | .cswWrite .., _, h => (execCswWrite_keeps _ _ _ _ _ _ _ h).agree.count rfl
  | .logRead .., _, h => (execLogRead_keeps _ _ _ _ _ _ h).agree.count rfl
  | .subscribe .., _, h => (execSubscribe_keeps _ _ _ _ _ _ h).agree.count rfl
  | .eventReport .., _, h => (execEventReport_keeps _ _ _ h).agree.count rfl
  | .telemetry .., _, h => (execTelemetry_keeps _ _ _ _ h).agree.count rfl
  | .timeProbe .., _, h => (execTimeProbe_keeps _ _ _ _ _ _ _ h).agree.count rfl
  | .patData .., _, h => (execPatData_keeps _ _ _ _ _ _ h).agree.count rfl
  | .patCommit .., _, h => (execPatCommit_keeps _ _ _ _ _ _ _ h).agree.count rfl
  | .fwData .., _, h => (execFwData_keeps _ _ _ _ _ _ _ h).agree.count rfl
  | .fwCommit .., _, h => (execFwCommit_keeps _ _ _ _ _ _ _ _ _ h).agree.count rfl
  | .arpRequest .., _, h => (execArpRequest_keeps _ _ _ _ h).agree.count rfl
  | .icmpEcho .., _, h => (execIcmpEcho_keeps _ _ _ _ h).agree.count rfl
  | .dynamicAddressAssign .., _, h => (execDynamicAddressAssign_keeps _ _ _ h).agree.count rfl
  | .setEndpointId .., _, h => (execSetEndpointId_keeps _ _ _ h).agree.count rfl
  | .getEndpointId, _, h => (execGetEndpointId_keeps _ _ h).agree.count rfl
  | .getMctpVersionSupport x, _, h => (execGetMctpVersionSupport_keeps x _ _ h).agree.count rfl
  | .getMessageTypeSupport, _, h => (execGetMessageTypeSupport_keeps _ _ h).agree.count rfl
  | .gettid, _, h => (execGettid_keeps _ _ h).agree.count rfl
  | .getpldmversion .., _, h => (execGetpldmversion_keeps _ _ _ h).agree.count rfl
  | .getpldmtypes, _, h => (execGetpldmtypes_keeps _ _ h).agree.count rfl
  | .getpldmcommands .., _, h => (execGetpldmcommands_keeps _ _ _ h).agree.count rfl
  | .getpdr x, _, h => (execGetpdr_keeps x _ _ h).agree.count rfl
  | .getsensorreading .., _, h => (execGetsensorreading_keeps _ _ _ h).agree.count rfl
  | .getstatesensorreadings .., _, h => (execGetstatesensorreadings_keeps _ _ _ h).agree.count rfl
  | .pldmUnsupported .., _, h => (execPldmUnsupported_keeps _ _ _ _ h).agree.count rfl
  | .ptpCapture .., _, h => (execPtpCapture_keeps _ _ _ _ _ _ h).agree.count rfl
  | .logCommit, _, h => (execLogCommit_keeps _ _ h).agree.count rfl
  | .unpin .., _, h => (execUnpin_keeps _ _ _ _ h).agree.count rfl
  | .unpinAll .., _, h => (execUnpinAll_keeps _ _ _ h).agree.count rfl
  | .vddAonGood .., _, h => (execVddAonGood_keeps _ _ _ _ _ h).agree.count rfl
  | .pwrgdInAssert .., _, h => (execPwrgdInAssert_keeps _ _ _ _ _ h).agree.count rfl
  | .perstNDeassert, _, h => (execPerstNDeassert_keeps _ _ h).agree.count rfl
  | .perstNAssert, _, h => (execPerstNAssert_keeps _ _ h).agree.count rfl
  | .profselSampleEnd .., _, h => (execProfselSampleEnd_keeps _ _ _ _ h).agree.count rfl
  | .harbourTrained .., _, h => (execHarbourTrained_keeps _ _ _ h).agree.count rfl
  | .bootReady, _, h => (execBootReady_keeps _ _ h).agree.count rfl
  | .profSelect .., _, h => (execProfSelect_keeps _ _ _ _ h).agree.count rfl
  | .profileApply, _, h => (execProfileApply_keeps _ _ h).agree.count rfl
  | .writeProfile .., _, h => (execWriteProfile_keeps _ _ _ _ h).agree.count rfl
  | .writeIndex .., _, h => (execWriteIndex_keeps _ _ _ _ h).agree.count rfl
  | .fwWrite .., _, h => (execFwWrite_keeps _ _ _ _ _ _ _ h).agree.count rfl
  | .flashWriteDone .., _, h => (execFlashWriteDone_keeps _ _ _ _ h).agree.count rfl
  | .extest .., _, h => (execExtest_keeps _ _ _ _ h).agree.count rfl
  | .idcode, _, h => (execIdcode_keeps _ _ h).agree.count rfl
  | .samplePreload .., _, h => (execSamplePreload_keeps _ _ _ _ h).agree.count rfl
  | .tapClamp, _, h => (execTapClamp_keeps _ _ h).agree.count rfl
  | .highz, _, h => (execHighz_keeps _ _ h).agree.count rfl
  | .bypass .., _, h => (execBypass_keeps _ _ _ h).agree.count rfl
  | .tapReset, _, h => (execTapReset_keeps _ _ h).agree.count rfl
  | .dtmRead .., _, h => (execDtmRead_keeps _ _ _ h).agree.count rfl
  | .dtmWrite .., _, h => (execDtmWrite_keeps _ _ _ _ _ h).agree.count rfl
  | .dtmPeek .., _, h => (execDtmPeek_keeps _ _ _ h).agree.count rfl
  | .dmiAccess .., _, h => (execDmiAccess_keeps _ _ _ _ h).agree.count rfl
  | .dbgUnlock .., _, h => (execDbgUnlock_keeps _ _ _ _ h).agree.count rfl
  | .dbgLock .., _, h => (execDbgLock_keeps _ _ _ h).agree.count rfl
  | .dbgHalt .., _, h => (execDbgHalt_keeps _ _ _ _ h).agree.count rfl
  | .dbgResume .., _, h => (execDbgResume_keeps _ _ _ _ h).agree.count rfl
  | .leaseFreezeWrite .., _, h => (execLeaseFreezeWrite_keeps _ _ _ _ h).agree.count rfl
  | .hbrStackFail .., _, h => (execHbrStackFail_keeps _ _ _ h).agree.count rfl
  | .bar2Write .., _, h => (execBar2Write_keeps _ _ _ _ _ h).agree.count rfl
  | .cswLink .., _, h => (execCswLink_keeps _ _ _ h).agree.count rfl
  | .stackTj .., _, h => (execStackTj_keeps _ _ _ _ h).agree.count rfl

/-! ## A tick edge and a lock of the tide PLL -/

@[simp] theorem State.freezeTick_count (s : State) : s.freezeTick.count = s.count := s.freezeTick_keeps.agree.count rfl
@[simp] theorem State.countService_count (s : State) : s.countService.count = s.count := s.countService_keeps.agree.count rfl
@[simp] theorem State.freeRetired_count (s : State) : s.freeRetired.count = s.count := s.freeRetired_keeps.agree.count rfl
@[simp] theorem State.fenceEdge_count (s : State) : s.fenceEdge.count = s.count := s.fenceEdge_keeps.agree.count rfl
@[simp] theorem State.powerEdge_count (s : State) : s.powerEdge.count = s.count := s.powerEdge_keeps.agree.count rfl

theorem execTideTick_count {s t : State} (h : execTideTick s = .next t) : t.count = if s.tideRuns then s.count + 1 else s.count := by
  obtain rfl := Host.Outcome.next.inj h
  split <;> simp

/-- The state once the tide PLL has locked (R466). -/
def State.tideLocked (s : State) : State :=
  ((({ s with tide := { s.tide with refclk := true }, count := if s.getB Reg.TID_STS 2 then s.count else 0 } : State).setB Reg.TID_STS 0 true).setB
    Reg.TID_STS 2 true).setB Reg.TID_STS 1 false

theorem execTidePllLock_eq (s : State) :
    execTidePllLock s = .next (if s.getB Reg.TID_STS 0 || s.getF Reg.BOOT_STS 0 4 = 0 then s else s.tideLocked) := by
  have hstart : (if s.getB Reg.TID_STS 2 then { s with tide := { s.tide with refclk := true } }
      else { s with tide := { s.tide with refclk := true }, count := 0 } : State)
      = { s with tide := { s.tide with refclk := true }, count := if s.getB Reg.TID_STS 2 then s.count else 0 } := by
    split <;> rfl
  rw [State.tideLocked, ← hstart]
  rfl

theorem execTidePllLock_count {s t : State} (h : execTidePllLock s = .next t) :
    t.count = s.count ∨ (s.getB Reg.TID_STS 2 = false ∧ t.count = 0) := by
  obtain rfl := Host.Outcome.next.inj ((execTidePllLock_eq s).symm.trans h)
  split
  · exact Or.inl rfl
  · cases hstarted : s.getB Reg.TID_STS 2
    · exact Or.inr ⟨rfl, if_neg (by simp [hstarted])⟩
    · exact Or.inl (if_pos hstarted)

/-! ## The obligation -/

/-- Settles O15: the two laws above for a tick edge and a lock of the tide PLL, and `exec_count` for every command outside `mayWriteCount`. -/
theorem tideCountRule : Obligations.TideCountRule := by
  unfold Obligations.TideCountRule
  intro c s
  obtain ⟨t, he⟩ := exec_next c s
  refine ⟨t, he, ?tick, ?lock, fun hc => exec_count c hc he⟩
  case tick =>
    rintro rfl
    exact execTideTick_count he
  case lock =>
    rintro rfl
    exact execTidePllLock_count he

end Sys2Proof.Machine
end

section
/-!
PROOFS. The commands of the tide (chapter 10): lock and holdover, slack windows, the ticket window, TIDE_PPS, TIDE_OUT and the resync word; with them
TideAndPps (O58) is settled. Each command has an equation for its answer, and the state answered has the laws of its registers.
-/
namespace Sys2Proof.Machine

/-! ## Which registers a run of stores reaches -/

theorem RegsOnly.of_regs {l : List Nat} {s t : State} (h : t.regs = s.regs) : RegsOnly l s t := fun a _ => State.reg_of_regs h a

theorem RegsOnly.trans {l : List Nat} {s t u : State} (h : RegsOnly l s t) (k : RegsOnly l t u) : RegsOnly l s u :=
  fun a ha => (k a ha).trans (h a ha)

theorem RegsOnly.put {l : List Nat} {s t : State} {a : Nat} (h : RegsOnly l s t) (ha : a ∈ l) (v : Word) : RegsOnly l s (t.setReg a v) :=
  fun b hb => (State.reg_setReg_ne _ _ _ _ (ne_of_not_contains hb ha)).trans (h b hb)

theorem State.getB_setB_ne (s : State) (a n m : Nat) (b : Bool) (h : n ≠ m) : (s.setB a m b).getB a n = s.getB a n :=
  State.getB_setF_ne _ _ _ _ _ _ (by omega)

theorem State.get64_set64 {lo hi v : Nat} (s : State) (hne : lo ≠ hi) (hv : v < 2 ^ 64) : (s.set64 lo hi v).get64 lo hi = v := by
  simp only [State.get64, State.set64, State.reg_setReg_self, State.reg_setReg_ne _ _ _ _ hne, BitVec.toNat_ofNat]
  omega

theorem State.get64_congr {s t : State} {lo hi : Nat} (hlo : t.reg lo = s.reg lo) (hhi : t.reg hi = s.reg hi) : t.get64 lo hi = s.get64 lo hi := by
  simp only [State.get64, hlo, hhi]

section
variable {ι : Type} {l : List ι} {step : State → ι → State} {a : Nat}

theorem State.reg_foldl_of_kept (h : ∀ s, ∀ i ∈ l, (step s i).reg a = s.reg a) (s : State) : (l.foldl step s).reg a = s.reg a := by
  induction l generalizing s with
  | nil => rfl
  | cons i l ih => exact (ih (fun s j hj => h s j (List.mem_cons_of_mem _ hj)) _).trans (h s i List.mem_cons_self)

/-- A run of steps of which those with `W` write `v` to a register, the others leave it, and all leave what `v` is made of. -/
theorem State.reg_foldl_of_written {W : ι → Prop} {v : State → Word} (hset : ∀ s i, W i → (step s i).reg a = v s)
    (hkeep : ∀ s, ∀ i ∈ l, ¬ W i → (step s i).reg a = s.reg a) (hv : ∀ s, ∀ i, v (step s i) = v s) (hex : ∃ i ∈ l, W i) (s : State) :
    (l.foldl step s).reg a = v s := by
  induction l generalizing s with
  | nil => simp at hex
  | cons i l ih =>
    have hkeep' := fun s j (hj : j ∈ l) => hkeep s j (List.mem_cons_of_mem _ hj)
    by_cases htail : ∃ j ∈ l, W j
    · exact (ih hkeep' htail _).trans (hv s i)
    · obtain ⟨j, hj, hw⟩ := hex
      obtain rfl | hj := List.mem_cons.mp hj
      · exact (State.reg_foldl_of_kept (fun s k hk => hkeep' s k hk fun hwk => htail ⟨k, hk, hwk⟩) _).trans (hset s _ hw)
      · exact absurd ⟨j, hj, hw⟩ htail

theorem RegsOnly.foldl {m : List Nat} (h : ∀ s, ∀ i ∈ l, RegsOnly m s (step s i)) (s : State) : RegsOnly m s (l.foldl step s) :=
  fun _ ha => State.reg_foldl_of_kept (fun s i hi => h s i hi _ ha) s

end

/-! ## Lock and holdover (R466, R472) -/

theorem State.tideLocked_bits (s : State) :
    s.tideLocked.getB Reg.TID_STS 0 = true ∧ s.tideLocked.getB Reg.TID_STS 1 = false ∧ s.tideLocked.getB Reg.TID_STS 2 = true := by
  refine ⟨?_, State.getB_setB _ _ _ _ (by decide), ?_⟩
  · rw [State.tideLocked, State.getB_setB_ne _ _ _ _ _ (by decide), State.getB_setB_ne _ _ _ _ _ (by decide), State.getB_setB _ _ _ _ (by decide)]
  · rw [State.tideLocked, State.getB_setB_ne _ _ _ _ _ (by decide), State.getB_setB _ _ _ _ (by decide)]

theorem State.tideLocked_only (s : State) : RegsOnly [Reg.TID_STS] s s.tideLocked :=
  (((RegsOnly.of_regs rfl).put List.mem_cons_self _).put List.mem_cons_self _).put List.mem_cons_self _

/-- The state once REFCLK is back (R472). -/
def State.tideResumed (s : State) : State :=
  (({ s with tide := { s.tide with refclk := true } } : State).setB Reg.TID_STS 0 true).setB Reg.TID_STS 1 false

theorem execRefclkReturn_eq {s : State} (hlost : s.tide.refclk = false) (hstarted : s.getB Reg.TID_STS 2 = true) :
    execRefclkReturn s = .next s.tideResumed := by
  simp only [execRefclkReturn, hlost, hstarted, Bool.not_true, Bool.or_false, Bool.false_eq_true, if_false, State.tideResumed]

theorem State.tideResumed_bits (s : State) : s.tideResumed.getB Reg.TID_STS 0 = true ∧ s.tideResumed.getB Reg.TID_STS 1 = false := by
  refine ⟨?_, State.getB_setB _ _ _ _ (by decide)⟩
  rw [State.tideResumed, State.getB_setB_ne _ _ _ _ _ (by decide), State.getB_setB _ _ _ _ (by decide)]

theorem State.tideResumed_only (s : State) : RegsOnly [Reg.TID_STS] s s.tideResumed :=
  ((RegsOnly.of_regs rfl).put List.mem_cons_self _).put List.mem_cons_self _

/-! ## Slack windows (R487, R513) -/

/-- The registers of the four slack minima. -/
def slackRegs : List Nat := [Reg.TID_SLK_MIN 0, Reg.TID_SLK_MIN 1, Reg.TID_SLK_MIN 2, Reg.TID_SLK_MIN 3]

theorem mem_slackRegs {c : Nat} (h : c < 4) : Reg.TID_SLK_MIN c ∈ slackRegs := by
  match c, h with
  | 0, _ | 1, _ | 2, _ | 3, _ => decide

theorem Reg.TID_SLK_MIN_ne {c d : Nat} (h : d ≠ c) : Reg.TID_SLK_MIN c ≠ Reg.TID_SLK_MIN d := by
  simp only [Reg.TID_SLK_MIN]
  omega

/-- SLK_MIN of a class for the island selected (R487). -/
def State.slackMin (s : State) (isl c : Nat) : Word :=
  BitVec.ofNat 32 (twos 16 (clampI (-32768) 32767 (Store.get (fun _ => (32767 : Int)) s.tide.slack (isl * 4 + c))))

/-- The minima of the window latched for an island. -/
def State.latchSlack (s : State) (isl : Nat) : State :=
  (List.range 4).foldl (fun s c => s.setReg (Reg.TID_SLK_MIN c) (s.slackMin isl c)) s

/-- Every minimum at its reset value (R513). -/
def State.resetSlack (s : State) : State := (List.range 4).foldl (fun s c => s.setReg (Reg.TID_SLK_MIN c) 0x7FFF) s

/-- Four stores to the minima, each of a value that a store to a register does not change. -/
theorem State.reg_foldl_slack {v : State → Nat → Word} (hv : ∀ s a w c, v (s.setReg a w) c = v s c) (s : State) {c : Nat} (hc : c < 4) :
    ((List.range 4).foldl (fun s c => s.setReg (Reg.TID_SLK_MIN c) (v s c)) s).reg (Reg.TID_SLK_MIN c) = v s c := by
  refine State.reg_foldl_of_written (W := fun d => d = c) (v := fun s => v s c) ?_ ?_ (fun _ _ => hv ..) ⟨c, List.mem_range.mpr hc, rfl⟩ s
  · rintro s d rfl
    exact State.reg_setReg_self ..
  · exact fun s d _ hne => State.reg_setReg_ne _ _ _ _ (Reg.TID_SLK_MIN_ne hne)

theorem State.latchSlack_reg (s : State) (isl : Nat) {c : Nat} (hc : c < 4) : (s.latchSlack isl).reg (Reg.TID_SLK_MIN c) = s.slackMin isl c :=
  State.reg_foldl_slack (v := fun s c => s.slackMin isl c) (fun _ _ _ _ => rfl) s hc

theorem State.resetSlack_reg (s : State) {c : Nat} (hc : c < 4) : s.resetSlack.reg (Reg.TID_SLK_MIN c) = 0x7FFF :=
  State.reg_foldl_slack (v := fun _ _ => 0x7FFF) (fun _ _ _ _ => rfl) s hc

theorem State.latchSlack_only (s : State) (isl : Nat) : RegsOnly slackRegs s (s.latchSlack isl) :=
  RegsOnly.foldl (fun _ _ hc => (RegsOnly.of_regs rfl).put (mem_slackRegs (List.mem_range.mp hc)) _) s

theorem State.resetSlack_only (s : State) : RegsOnly slackRegs s s.resetSlack :=
  RegsOnly.foldl (fun _ _ hc => (RegsOnly.of_regs rfl).put (mem_slackRegs (List.mem_range.mp hc)) _) s

/-- A slack window begins with no minimum (R487). -/
def State.newWindow (s : State) : State := { s with tide := { s.tide with slack := [], slackHold := false } }

theorem State.newWindow_reg (s : State) (a : Nat) : s.newWindow.reg a = s.reg a := rfl

theorem State.newWindow_slack (s : State) : s.newWindow.tide.slack = [] := rfl

theorem execSlackWindowEnd_latch {s : State} (hend : s.now % s.slackLen = 0) (hhold : s.tide.slackHold = false) :
    execSlackWindowEnd s = .next (s.latchSlack (s.getF Reg.TID_SLK_CTL 0 6)).newWindow := by
  simp only [execSlackWindowEnd, hend, hhold, bne_self_eq_false, Bool.false_eq_true, if_false]
  rfl

theorem execSlackWindowEnd_held {s : State} (hend : s.now % s.slackLen = 0) (hhold : s.tide.slackHold = true) :
    execSlackWindowEnd s = .next s.newWindow := by
  simp only [execSlackWindowEnd, hend, hhold, bne_self_eq_false, Bool.false_eq_true, if_false, if_true, State.newWindow]

/-! ## Writes to the TID page (R510, R834) -/

theorem State.orHeld_tid {s : State} {a : Nat} (hty : adrType a = 8) (hinst : adrInst a = 0) (hr : s.pageReset 8 0 = false) (rq : Requester)
    (via : Bool) (v : Word) (env : WriteEnv) (f : State → State) : s.orHeld rq via a v env f = f s := by
  rw [State.orHeld, hty, hinst, hr, if_neg (by decide)]

theorem State.plainWrite_reg (s : State) (a : Nat) (v : Word) : (s.plainWrite a v).reg a = (s.reg a &&& ~~~ regMask a ||| v &&& regMask a) :=
  State.reg_setReg_self ..

section
variable {s : State} {rq : Requester} (hr : s.pageReset 8 0 = false)
include hr

theorem execSlkCtlWrite_eq (hw : s.tidWriter rq false = true) (v : Word) : execSlkCtlWrite rq v s = .next (s.writeSlkCtl v) := by
  rw [execSlkCtlWrite, State.orHeld_tid (by decide) (by decide) hr, if_pos hw]

theorem execTktSelWrite_eq (hw : s.tidWriter rq false = true) (v : Word) : execTktSelWrite rq v s = .next (s.writeTktSel v) := by
  rw [execTktSelWrite, State.orHeld_tid (by decide) (by decide) hr, if_pos hw]

theorem execPpsCtlWrite_eq (hw : s.tidWriter rq true = true) (v : Word) : execPpsCtlWrite rq v s = .next (s.writePpsCtl v) := by
  rw [execPpsCtlWrite, State.orHeld_tid (by decide) (by decide) hr, if_pos hw]

theorem execPpsBaseWrite_eq (hw : s.tidWriter rq true = true) (v : DWord) : execPpsBaseWrite rq v s = .next (s.writePpsBase v) := by
  rw [execPpsBaseWrite, hr, if_neg (by decide), if_pos hw]

end

/-- The state once SLK_CTL has changed: an empty window, the minima at their reset values (R513). -/
def State.restartSlack (s : State) : State := { s.resetSlack with tide := { s.resetSlack.tide with slack := [], slackHold := true } }

theorem State.restartSlack_reg (s : State) (a : Nat) : s.restartSlack.reg a = s.resetSlack.reg a := rfl

theorem State.writeSlkCtl_eq (s : State) (v : Word) : s.writeSlkCtl v =
    if (s.plainWrite Reg.TID_SLK_CTL v).reg Reg.TID_SLK_CTL = s.reg Reg.TID_SLK_CTL then s.plainWrite Reg.TID_SLK_CTL v
    else (s.plainWrite Reg.TID_SLK_CTL v).restartSlack := rfl

theorem State.writeSlkCtl_reg (s : State) (v : Word) :
    (s.writeSlkCtl v).reg Reg.TID_SLK_CTL = (s.reg Reg.TID_SLK_CTL &&& ~~~ regMask Reg.TID_SLK_CTL ||| v &&& regMask Reg.TID_SLK_CTL) := by
  rw [State.writeSlkCtl_eq, ← State.plainWrite_reg]
  split
  · rfl
  · rw [State.restartSlack_reg]
    exact State.resetSlack_only _ _ (by decide)

theorem State.writeSlkCtl_changed {s : State} {v : Word} (h : (s.writeSlkCtl v).reg Reg.TID_SLK_CTL ≠ s.reg Reg.TID_SLK_CTL) :
    (s.writeSlkCtl v).tide.slack = [] ∧ (s.writeSlkCtl v).tide.slackHold = true ∧
      ∀ c : Nat, c < 4 → (s.writeSlkCtl v).reg (Reg.TID_SLK_MIN c) = 0x7FFF := by
  rw [State.writeSlkCtl_reg, ← State.plainWrite_reg] at h
  rw [State.writeSlkCtl_eq, if_neg h]
  exact ⟨rfl, rfl, fun c hc => (State.restartSlack_reg _ _).trans (State.resetSlack_reg _ hc)⟩

theorem State.writeSlkCtl_only (s : State) (v : Word) : RegsOnly (Reg.TID_SLK_CTL :: slackRegs) s (s.writeSlkCtl v) := by
  have hctl : RegsOnly (Reg.TID_SLK_CTL :: slackRegs) s (s.plainWrite Reg.TID_SLK_CTL v) := (RegsOnly.of_regs rfl).put List.mem_cons_self _
  rw [State.writeSlkCtl_eq]
  split
  · exact hctl
  · refine hctl.trans fun a ha => (State.restartSlack_reg _ a).trans (State.resetSlack_only _ a ?_)
    simp only [List.contains_cons, Bool.or_eq_false_iff] at ha
    exact ha.2

/-! ## The ticket window (R512) -/

/-- One entry copied into its four words of TKT_WIN. -/
def State.copyTkt (s : State) (isl q i : Nat) : State :=
  (List.range 4).foldl (fun u w => u.setReg (Reg.TID_TKT_WIN (4 * i + w)) (BitVec.ofNat 32 (leAt (s.tk isl (64 * q + i)).bytes (4 * w) 4))) s

theorem State.writeTktSel_eq (s : State) (v : Word) : s.writeTktSel v =
    let u := s.plainWrite Reg.TID_TKT_SEL v
    (List.range 64).foldl (fun t i => t.copyTkt (u.getF Reg.TID_TKT_SEL 0 6) (u.getF Reg.TID_TKT_SEL 8 2) i) u := rfl

theorem State.copyTkt_tickets (s : State) (isl q i : Nat) : (s.copyTkt isl q i).tickets = s.tickets :=
  (Keeps.foldl (m := Fld.regs) (fun _ _ h => Keeps.step (State.setReg_keeps ..) rfl h) (Keeps.refl _ s)).agree.tickets rfl

theorem State.copyTkt_tk (s : State) (isl q i isl' idx : Nat) : (s.copyTkt isl q i).tk isl' idx = s.tk isl' idx := by
  simp only [State.tk, State.tkAt, State.copyTkt_tickets]

theorem State.copyTkt_reg (s : State) (isl q i : Nat) {w : Nat} (hw : w < 4) :
    (s.copyTkt isl q i).reg (Reg.TID_TKT_WIN (4 * i + w)) = BitVec.ofNat 32 (leAt (s.tk isl (64 * q + i)).bytes (4 * w) 4) := by
  refine State.reg_foldl_of_written (W := fun x => x = w) (v := fun _ => BitVec.ofNat 32 (leAt (s.tk isl (64 * q + i)).bytes (4 * w) 4)) ?_ ?_
    (fun _ _ => rfl) ⟨w, List.mem_range.mpr hw, rfl⟩ s
  · rintro u x rfl
    exact State.reg_setReg_self ..
  · refine fun u x _ hne => State.reg_setReg_ne _ _ _ _ ?_
    simp only [Reg.TID_TKT_WIN]
    omega

theorem State.copyTkt_reg_ne (s : State) (isl q : Nat) {i a : Nat} (h : ∀ w < 4, a ≠ Reg.TID_TKT_WIN (4 * i + w)) :
    (s.copyTkt isl q i).reg a = s.reg a :=
  State.reg_foldl_of_kept (fun _ w hw => State.reg_setReg_ne _ _ _ _ (h w (List.mem_range.mp hw))) s

theorem State.writeTktSel_sel (s : State) (v : Word) :
    (s.writeTktSel v).reg Reg.TID_TKT_SEL = (s.plainWrite Reg.TID_TKT_SEL v).reg Reg.TID_TKT_SEL := by
  rw [State.writeTktSel_eq]
  refine State.reg_foldl_of_kept (fun t i _ => t.copyTkt_reg_ne _ _ fun w _ => ?_) _
  simp only [Reg.TID_TKT_SEL, Reg.TID_TKT_WIN]
  omega

theorem State.writeTktSel_win (s : State) (v : Word) {i w : Nat} (hi : i < 64) (hw : w < 4) :
    let t := s.writeTktSel v
    t.reg (Reg.TID_TKT_WIN (4 * i + w))
      = BitVec.ofNat 32 (leAt (s.tk (t.getF Reg.TID_TKT_SEL 0 6) (64 * t.getF Reg.TID_TKT_SEL 8 2 + i)).bytes (4 * w) 4) := by
  dsimp only
  simp only [State.getF, s.writeTktSel_sel v]
  rw [State.writeTktSel_eq]
  generalize hu : s.plainWrite Reg.TID_TKT_SEL v = u
  have htk : ∀ isl idx, s.tk isl idx = u.tk isl idx := by rw [← hu]; exact fun _ _ => rfl
  rw [htk]
  refine State.reg_foldl_of_written (W := fun j => j = i)
    (v := fun t => BitVec.ofNat 32 (leAt (t.tk (u.getF Reg.TID_TKT_SEL 0 6) (64 * u.getF Reg.TID_TKT_SEL 8 2 + i)).bytes (4 * w) 4)) ?_ ?_
    (fun _ _ => by simp only [State.copyTkt_tk]) ⟨i, List.mem_range.mpr hi, rfl⟩ u
  · rintro t j rfl
    exact t.copyTkt_reg _ _ _ hw
  · refine fun t j _ hne => t.copyTkt_reg_ne _ _ fun x hx => ?_
    simp only [Reg.TID_TKT_WIN]
    omega

/-! ## TIDE_PPS (R500 to R506, R522, R523) -/

theorem twos_lt (w : Nat) (x : Int) : twos w x < 2 ^ w := by
  have hpos : (0 : Int) < ((2 ^ w : Nat) : Int) := by exact_mod_cast Nat.two_pow_pos w
  exact (Int.toNat_lt (Int.emod_nonneg x (Int.ne_of_gt hpos))).mpr (Int.emod_lt_of_pos x hpos)

/-- PPS_BASE at an accepted edge: taken from the edge in ACQUIRE, the value that waits in the other modes (R502, R522). -/
def State.edgeBase (s : State) : State :=
  if s.getF Reg.TID_PPS_CTL 0 2 = 1 then (s.set64 Reg.TID_PPS_BASE_LO Reg.TID_PPS_BASE_HI s.now).setF Reg.TID_PPS_CTL 0 2 2
  else match s.tide.ppsBaseNext with
    | some b => ({ s with tide := { s.tide with ppsBaseNext := none } }).set64 Reg.TID_PPS_BASE_LO Reg.TID_PPS_BASE_HI b.toNat
    | none => s

/-- The tick and the error of an accepted edge, and its count (R500). -/
def State.edgeCapture (s : State) (err : Int) : State :=
  let captured := s.set64 Reg.TID_PPS_CAPT_LO Reg.TID_PPS_CAPT_HI s.now
  let errored := captured.setF Reg.TID_PPS_ERR 0 16 (twos 16 (clampI (-32768) 32767 err))
  ((errored.incWrapF Reg.TID_PPS_STS 16 16 1).setB Reg.TID_PPS_STS 0 true).setB Reg.TID_PPS_STS 3 false

/-- The trim after an accepted edge in DISCIPLINE (R503). -/
def State.edgeTrim (s : State) (mode : Nat) (trim : Int) : State :=
  if mode = 2 && !s.getB Reg.TID_STS 1 then
    (s.setF Reg.TID_FREQ_ADJ 0 16 (twos 16 (s.newTrim trim))).setB Reg.TID_PPS_STS 2 ((s.newTrim trim).natAbs = 4000)
  else s

/-- The edge becomes the last one accepted. -/
def State.edgeNote (s : State) (t : Int) : State :=
  { s with tide := { s.tide with ppsLast := some s.now, ppsK := (s.ppsIndex t).toNat, slewFrom := none } }

theorem execPpsEdge_eq (falling : Bool) (ns : Fin 8) (trim : Int) (s : State) : execPpsEdge falling ns trim s =
    let mode := s.getF Reg.TID_PPS_CTL 0 2
    let t : Int := s.now * 8 + ns.val
    let err := s.edgeBase.ppsError t
    .next (if mode = 0 || falling != s.getB Reg.TID_PPS_CTL 2 || (s.tide.ppsLast.elim false fun l => s.now - l < 112500000) ||
        (!(mode = 1) && 1000000 < (s.ppsError t).natAbs) then s
      else (((s.edgeBase.edgeCapture err).edgeTrim mode trim).edgeNote t).ppsLock err) := rfl

theorem execPpsEdge_accepted {falling : Bool} {ns : Fin 8} {s : State} (trim : Int) (hmode : s.getF Reg.TID_PPS_CTL 0 2 ≠ 0)
    (hedge : falling = s.getB Reg.TID_PPS_CTL 2)
    (hlate : (s.tide.ppsLast.elim true fun l => decide (112500000 ≤ s.now - l)) = true)
    (hnear : s.getF Reg.TID_PPS_CTL 0 2 = 1 ∨ (s.ppsError ((s.now * 8 + ns.val : Nat) : Int)).natAbs ≤ 1000000) :
    ∃ (mode : Nat) (t err : Int),
      execPpsEdge falling ns trim s = .next ((((s.edgeBase.edgeCapture err).edgeTrim mode trim).edgeNote t).ppsLock err) := by
  have hearly : (s.tide.ppsLast.elim false fun l => decide (s.now - l < 112500000)) = false := by
    cases hl : s.tide.ppsLast with
    | none => rfl
    | some l => simpa [hl] using hlate
  have hfar : (!decide (s.getF Reg.TID_PPS_CTL 0 2 = 1) && decide (1000000 < (s.ppsError (s.now * 8 + ns.val)).natAbs)) = false := by
    push_cast at hnear
    simpa [Classical.or_iff_not_imp_left] using hnear
  refine ⟨_, _, _, (execPpsEdge_eq ..).trans (congrArg Host.Outcome.next (if_neg ?_))⟩
  simp only [hearly, hfar, hedge, decide_eq_false hmode, bne_self_eq_false, Bool.or_false, Bool.false_eq_true, not_false_eq_true]

theorem State.edgeBase_now (s : State) : s.edgeBase.now = s.now := by
  unfold State.edgeBase
  split
  · rfl
  · split <;> rfl

theorem State.edgeTrim_now (s : State) (mode : Nat) (trim : Int) : (s.edgeTrim mode trim).now = s.now := by
  unfold State.edgeTrim
  split <;> rfl

theorem State.edgeTrim_reg (s : State) (mode : Nat) (trim : Int) {a : Nat} (hadj : a ≠ Reg.TID_FREQ_ADJ) (hsts : a ≠ Reg.TID_PPS_STS) :
    (s.edgeTrim mode trim).reg a = s.reg a := by
  unfold State.edgeTrim
  split
  · rw [State.reg_setB_ne _ _ _ _ _ hsts, State.reg_setF_ne _ _ _ _ _ _ hadj]
  · rfl

theorem State.edgeCapture_capt (s : State) (err : Int) : (s.edgeCapture err).get64 Reg.TID_PPS_CAPT_LO Reg.TID_PPS_CAPT_HI = s.now := by
  have hreg {a : Nat} (herr : a ≠ Reg.TID_PPS_ERR) (hsts : a ≠ Reg.TID_PPS_STS) :
      (s.edgeCapture err).reg a = (s.set64 Reg.TID_PPS_CAPT_LO Reg.TID_PPS_CAPT_HI s.now).reg a := by
    rw [State.edgeCapture, State.reg_setB_ne _ _ _ _ _ hsts, State.reg_setB_ne _ _ _ _ _ hsts, State.incWrapF, State.reg_setF_ne _ _ _ _ _ _ hsts,
      State.reg_setF_ne _ _ _ _ _ _ herr]
  rw [State.get64_congr (hreg (by decide) (by decide)) (hreg (by decide) (by decide))]
  exact s.get64_set64 (by decide) s.count.isLt

/-- Judging an edge moves PPS_STS, the run of good edges and what raising an event moves. -/
theorem State.ppsLock_reg (s : State) (err : Int) {a : Nat} (ha : a ≠ Reg.TID_PPS_STS) (hra : raiseReg a = false) :
    (s.ppsLock err).reg a = s.reg a := by
  unfold State.ppsLock
  dsimp only
  split
  · split
    · exact ((State.raise_mild ..).reg a hra).trans (State.reg_setB_ne _ _ _ _ _ ha)
    · rfl
  · exact State.reg_setB_ne _ _ _ _ _ ha

theorem State.raise_tide (s : State) (ty i n : Nat) (pl : Option (List Byte)) (c p : Nat) : (s.raise ty i n pl c p).tide = s.tide :=
  (s.raise_keeps ty i n pl c p).agree.tide rfl

theorem State.ppsLock_ppsLast (s : State) (err : Int) : (s.ppsLock err).tide.ppsLast = s.tide.ppsLast := by
  unfold State.ppsLock
  dsimp only
  split
  · split
    · rw [State.raise_tide]; rfl
    · rfl
  · rfl

/-- The state once no edge has been accepted for 1.5 s, TIDE_PPS_LOST not yet raised (R505). -/
def State.ppsGone (s : State) : State :=
  ((({ s with tide := { s.tide with ppsRun := 0 } } : State).setB Reg.TID_PPS_STS 3 true).setB Reg.TID_PPS_STS 1 false).setB Reg.TID_PPS_STS 0 false

theorem execTidePpsLost_eq {s : State} (hmode : s.getF Reg.TID_PPS_CTL 0 2 ≠ 0) (hlost : s.getB Reg.TID_PPS_STS 3 = false)
    (hdue : max s.tide.ppsFrom (s.tide.ppsLast.getD 0) + 187500000 ≤ s.now) :
    execTidePpsLost s = .next (s.ppsGone.raise 8 0 Ev.TIDE_PPS_LOST none 255 255) := by
  simp only [execTidePpsLost, hlost, decide_eq_false hmode, decide_eq_false (Nat.not_lt.mpr hdue), Bool.or_false, Bool.false_eq_true, if_false]
  rfl

theorem State.ppsGone_only (s : State) : RegsOnly [Reg.TID_PPS_STS] s s.ppsGone :=
  (((RegsOnly.of_regs rfl).put List.mem_cons_self _).put List.mem_cons_self _).put List.mem_cons_self _

theorem State.ppsGone_bits (s : State) :
    s.ppsGone.getB Reg.TID_PPS_STS 3 = true ∧ s.ppsGone.getB Reg.TID_PPS_STS 1 = false ∧ s.ppsGone.getB Reg.TID_PPS_STS 0 = false := by
  refine ⟨?_, ?_, State.getB_setB _ _ _ _ (by decide)⟩
  · rw [State.ppsGone, State.getB_setB_ne _ _ _ _ _ (by decide), State.getB_setB_ne _ _ _ _ _ (by decide), State.getB_setB _ _ _ _ (by decide)]
  · rw [State.ppsGone, State.getB_setB_ne _ _ _ _ _ (by decide), State.getB_setB _ _ _ _ (by decide)]

/-- What mutes a page is made of the rungs and P0's state. -/
theorem State.warmHeld_congr {s t : State} (hrungs : t.rungs = s.rungs) (hpil : t.reg (Reg.PIL_STS 0) = s.reg (Reg.PIL_STS 0)) :
    t.warmHeld = s.warmHeld := by
  simp only [State.warmHeld, State.getF, hrungs, hpil]

theorem State.ppsGone_raised {s : State} (hheld : s.warmHeld = false) :
    (s.ppsGone.raise 8 0 Ev.TIDE_PPS_LOST none 255 255).rawBit 8 0 Ev.TIDE_PPS_LOST = true := by
  have hwarm : s.ppsGone.warmHeld = s.warmHeld := State.warmHeld_congr rfl (s.ppsGone_only _ (by decide))
  have hmute : s.ppsGone.mute 8 0 = false := by rw [State.mute, hwarm, hheld]; rfl
  exact State.raise_raw _ _ _ _ _ _ _ hmute (by decide) (by decide)

/-- A write of PPS_CTL stores it and keeps the trim in force; MODE 0 slews that to 0 (R502, R523). -/
theorem State.writePpsCtl_regs (s : State) (v : Word) :
    (s.writePpsCtl v).regs = ((s.plainWrite Reg.TID_PPS_CTL v).setF Reg.TID_FREQ_ADJ 0 16 (twos 16 s.freqAdj)).regs := by
  unfold State.writePpsCtl
  dsimp only
  split <;> rfl

theorem State.writePpsCtl_reg (s : State) (v : Word) : (s.writePpsCtl v).reg Reg.TID_PPS_CTL = (s.plainWrite Reg.TID_PPS_CTL v).reg Reg.TID_PPS_CTL :=
  (State.reg_of_regs (s.writePpsCtl_regs v) _).trans (State.reg_setF_ne _ _ _ _ _ _ (by decide))

theorem State.writePpsCtl_trim (s : State) (v : Word) : (s.writePpsCtl v).getF Reg.TID_FREQ_ADJ 0 16 = twos 16 s.freqAdj := by
  rw [State.getF, State.reg_of_regs (s.writePpsCtl_regs v), ← State.getF, State.getF_setF _ _ _ _ _ (by decide), Nat.mod_eq_of_lt (twos_lt _ _)]

theorem State.writePpsCtl_slew (s : State) (v : Word) :
    (s.writePpsCtl v).tide.slewFrom = if (s.writePpsCtl v).getF Reg.TID_PPS_CTL 0 2 = 0 then some s.now else none := by
  rw [State.getF, s.writePpsCtl_reg v, ← State.getF]
  unfold State.writePpsCtl
  dsimp only
  split <;> rfl

theorem State.writePpsCtl_only (s : State) (v : Word) : RegsOnly [Reg.TID_PPS_CTL, Reg.TID_FREQ_ADJ] s (s.writePpsCtl v) :=
  (((RegsOnly.of_regs rfl).put List.mem_cons_self _).put (by decide) _).trans (RegsOnly.of_regs (s.writePpsCtl_regs v))

theorem State.writePpsBase_now {s : State} (h : s.getF Reg.TID_PPS_CTL 0 2 ≠ 2) (v : DWord) :
    s.writePpsBase v = s.set64 Reg.TID_PPS_BASE_LO Reg.TID_PPS_BASE_HI v.toNat := if_neg h

theorem State.writePpsBase_later {s : State} (h : s.getF Reg.TID_PPS_CTL 0 2 = 2) (v : DWord) : s.writePpsBase v =
    ({ s with tide := { s.tide with ppsBaseNext := some v, ppsRun := 0 } } : State).setB Reg.TID_PPS_STS 1 false := if_pos h

/-! ## TIDE_OUT (R507, R508) -/

theorem State.marker_outTill (s : State) : s.marker.tide.outTill = max s.tide.outTill (s.now + max 1 (s.getF Reg.TID_OUT_CTL 16 8)) := by
  unfold State.marker
  dsimp only
  split
  · exact (Nat.max_eq_right (Nat.le_of_lt ‹_›)).symm
  · exact (Nat.max_eq_left (Nat.not_lt.mp ‹_›)).symm

theorem State.marker_out (s : State) : s.marker.out =
    if s.tide.outTill < s.now + max 1 (s.getF Reg.TID_OUT_CTL 16 8) then .tideOut (s.now + max 1 (s.getF Reg.TID_OUT_CTL 16 8)) :: s.out
    else s.out := by
  unfold State.marker
  dsimp only
  split <;> rfl

/-! ## The obligation -/

/-- Settles O58: each command reaches one of the equations above, and the laws of the state it answers say what that holds. -/
theorem tideAndPps : Obligations.TideAndPps := by
  unfold Obligations.TideAndPps
  refine ⟨?tick, ?lock, ?back, ?latch, ?latchHeld, ?slkCtl, ?tktSel, ?edge, ?lost, ?ppsCtl, ?baseNow, ?baseLater, ?marker, ?resync⟩
  case tick =>
    intro s hruns
    exact Runs.intro rfl rfl ((execTideTick_keeps s).mono rfl) ((execTideTick_count rfl).trans (if_pos hruns))
  case lock =>
    intro s hunlocked hboot
    have hcond : ¬ (s.getB Reg.TID_STS 0 || s.getF Reg.BOOT_STS 0 4 = 0) = true := by simp [hunlocked, hboot]
    obtain ⟨hlocked, hholdover, hstarted⟩ := s.tideLocked_bits
    exact Runs.intro rfl ((execTidePllLock_eq s).trans (congrArg _ (if_neg hcond))) ((execTidePllLock_keeps s).mono rfl)
      ⟨hlocked, hholdover, hstarted, rfl, rfl, s.tideLocked_only⟩
  case back =>
    intro s hlost hstarted
    obtain ⟨hlocked, hholdover⟩ := s.tideResumed_bits
    exact Runs.intro rfl (execRefclkReturn_eq hlost hstarted) ((execRefclkReturn_keeps s).mono rfl) ⟨hlocked, hholdover, rfl, s.tideResumed_only⟩
  case latch =>
    intro s hend hhold
    have hreg := (s.latchSlack (s.getF Reg.TID_SLK_CTL 0 6)).newWindow_reg
    exact Runs.intro rfl (execSlackWindowEnd_latch hend hhold) ((execSlackWindowEnd_keeps s).mono rfl)
      ⟨fun c hc => (hreg _).trans (s.latchSlack_reg _ hc), State.newWindow_slack _, fun a ha => (hreg a).trans (s.latchSlack_only _ a ha)⟩
  case latchHeld =>
    intro s hend hhold
    exact Runs.intro rfl (execSlackWindowEnd_held hend hhold) ((execSlackWindowEnd_keeps s).mono rfl) ⟨rfl, RegsOnly.of_regs rfl⟩
  case slkCtl =>
    intro rq v s hr hw
    exact Runs.intro rfl (execSlkCtlWrite_eq hr hw v) ((execSlkCtlWrite_keeps rq v s).mono rfl)
      ⟨s.writeSlkCtl_reg v, State.writeSlkCtl_changed, s.writeSlkCtl_only v⟩
  case tktSel =>
    intro rq v s hr hw
    exact Runs.intro rfl (execTktSelWrite_eq hr hw v) ((execTktSelWrite_keeps rq v s).mono rfl)
      ⟨(s.writeTktSel_sel v).trans (State.plainWrite_reg ..), fun i hi w hx => s.writeTktSel_win v hi hx⟩
  case edge =>
    intro falling ns trim s hmode hedge hlate hnear
    obtain ⟨mode, t, err, he⟩ := execPpsEdge_accepted trim hmode hedge hlate hnear
    refine Runs.intro rfl he ((execPpsEdge_keeps falling ns trim s).mono rfl) ⟨?_, ?_⟩
    · have hreg {a : Nat} (hadj : a ≠ Reg.TID_FREQ_ADJ) (hsts : a ≠ Reg.TID_PPS_STS) (hra : raiseReg a = false) :=
        ((((s.edgeBase.edgeCapture err).edgeTrim mode trim).edgeNote t).ppsLock_reg err hsts hra).trans
          ((s.edgeBase.edgeCapture err).edgeTrim_reg mode trim hadj hsts)
      rw [State.get64_congr (hreg (by decide) (by decide) (by decide)) (hreg (by decide) (by decide) (by decide)), State.edgeCapture_capt,
        State.edgeBase_now]
    · rw [State.ppsLock_ppsLast]
      exact congrArg some ((State.edgeTrim_now ..).trans s.edgeBase_now)
  case lost =>
    intro s hmode hnotLost hdue hheld
    obtain ⟨h3, h1, h0⟩ := s.ppsGone_bits
    have hraise := s.ppsGone.raise_mild 8 0 Ev.TIDE_PPS_LOST none 255 255
    have hsts (n : Nat) : (s.ppsGone.raise 8 0 Ev.TIDE_PPS_LOST none 255 255).getB Reg.TID_PPS_STS n = s.ppsGone.getB Reg.TID_PPS_STS n :=
      congrArg (bit · n) (hraise.reg _ (by decide))
    exact Runs.intro rfl (execTidePpsLost_eq hmode hnotLost hdue) ((execTidePpsLost_keeps s).mono rfl)
      ⟨State.ppsGone_raised hheld, (hsts 3).trans h3, (hsts 1).trans h1, (hsts 0).trans h0, s.ppsGone.raise_tide ..,
        fun a ha hra => (hraise.reg a hra).trans (s.ppsGone_only a ha)⟩
  case ppsCtl =>
    intro rq v s hr hw
    exact Runs.intro rfl (execPpsCtlWrite_eq hr hw v) ((execPpsCtlWrite_keeps rq v s).mono rfl)
      ⟨(s.writePpsCtl_reg v).trans (State.plainWrite_reg ..), s.writePpsCtl_trim v, s.writePpsCtl_slew v, s.writePpsCtl_only v⟩
  case baseNow =>
    intro rq v s hr hw hmode
    exact Runs.intro rfl ((execPpsBaseWrite_eq hr hw v).trans (congrArg _ (State.writePpsBase_now hmode v)))
      ((execPpsBaseWrite_keeps rq v s).mono rfl)
      ⟨s.get64_set64 (by decide) v.isLt, ((RegsOnly.of_regs rfl).put List.mem_cons_self _).put (by decide) _, rfl⟩
  case baseLater =>
    intro rq v s hr hw hmode
    exact Runs.intro rfl ((execPpsBaseWrite_eq hr hw v).trans (congrArg _ (State.writePpsBase_later hmode v)))
      ((execPpsBaseWrite_keeps rq v s).mono rfl) ⟨rfl, State.getB_setB _ _ _ _ (by decide), (RegsOnly.of_regs rfl).put List.mem_cons_self _⟩
  case marker =>
    intro s hnow
    exact Runs.intro rfl (congrArg Host.Outcome.next (if_pos hnow)) ((execTideOutMarker_keeps s).mono rfl) ⟨s.marker_outTill, s.marker_out⟩
  case resync =>
    intro bad silent s hruns hword
    refine Runs.intro rfl (congrArg Host.Outcome.next (if_neg ?_)) ((execResyncWord_keeps bad silent s).mono rfl) rfl
    simp [hruns, hword]

end Sys2Proof.Machine
end

section
/-!
PROOFS. The commands of the sluice (chapter 11): cap writes, cap windows, the tick's refill and grant, and the voltage loop; with them
SluiceAccountsAndVoltage (O33) is settled. What recomputing the rates can do (R540, R541) is said once, for one account and for all of them; the
commands that end in it (a cap write, a voltage write, a voltage that settles) inherit that.
-/
namespace Sys2Proof.Machine

/-! ## Registers through stores and raises -/

theorem RegsBut.of_regs {l : List Nat} {s t : State} (h : t.regs = s.regs) : RegsBut l s t := fun a _ _ => State.reg_of_regs h a

theorem RegsBut.put {l : List Nat} {s t : State} {a : Nat} (h : RegsBut l s t) (ha : a ∈ l) (v : Word) : RegsBut l s (t.setReg a v) :=
  fun b hb hr => (State.reg_setReg_ne _ _ _ _ (ne_of_not_contains hb ha)).trans (h b hb hr)

theorem RegsBut.mild {l : List Nat} {s t u : State} (h : RegsBut l s t) (k : Mild t u) : RegsBut l s u :=
  fun a ha hr => (k.reg a hr).trans (h a ha hr)

theorem RegsBut.trans {l m : List Nat} {s t u : State} (h : RegsBut l s t) (k : RegsBut m t u) (hm : m ⊆ l) : RegsBut l s u := by
  intro a ha hr
  have hnot : m.contains a = false := by
    simp only [List.contains_eq_mem, decide_eq_false_iff_not] at ha ⊢
    exact fun hmem => ha (hm hmem)
  exact (k a hnot hr).trans (h a ha hr)

/-! ## An event of class 0, 1 or 2 starts no rung (R932) -/

theorem State.classAction_low {ty n : Nat} (hlow : ∀ code ∈ eventCode ty n, codeClass code < 3) (s : State) (i : Nat) : s.classAction ty i n = s := by
  unfold State.classAction
  cases hcode : eventCode ty n with
  | none => rfl
  | some code =>
    have hclass := hlow code hcode
    have h3 : codeClass code ≠ 3 := by omega
    have h4 : codeClass code ≠ 4 := by omega
    simp only [h3, h4, if_false]

theorem State.raise_warmHeld {ty n : Nat} (hlow : ∀ code ∈ eventCode ty n, codeClass code < 3) (s : State) (i : Nat) (pl : Option (List Byte))
    (c p : Nat) : (s.raise ty i n pl c p).warmHeld = s.warmHeld := by
  refine State.warmHeld_congr ?_ ((s.raise_mild ty i n pl c p).reg _ (by decide))
  unfold State.raise
  split
  · rfl
  · rw [State.classAction_low hlow]
    exact (s.raiseOnly_keeps ty i n pl c p false).agree.rungs rfl

/-- A raise on the sluice's page sets its bit unless the core domain is held (R785, R1011). -/
theorem State.raise_sluice {s : State} {n : Nat} (hheld : s.warmHeld = false) (hn : n < 32) (hcode : (eventCode 7 n).isSome = true)
    (pl : Option (List Byte)) (c p : Nat) : (s.raise 7 0 n pl c p).rawBit 7 0 n = true :=
  State.raise_raw _ _ _ _ _ _ _ (by rw [State.mute, hheld]; rfl) hn hcode

/-! ## One account after another -/

theorem State.ac_setAc_self (s : State) (p : Nat) (a : Acct) : (s.setAc p a).ac p = a := Store.get_put_same ..

theorem State.ac_setAc_ne (s : State) {p k : Nat} (a : Acct) (h : k ≠ p) : (s.setAc p a).ac k = s.ac k := Store.get_put_other _ _ _ _ h

theorem State.ac_of_acct {s t : State} (h : t.acct = s.acct) (k : Nat) : t.ac k = s.ac k := by rw [State.ac, State.ac, h]

/-- A pass over the accounts 0 to n − 1, of which each step touches its own account only: what the step makes of an account (`P`) the pass makes
of all of them, where each step keeps what that is made of (`I`). -/
theorem State.ac_foldl {n : Nat} {step : State → Nat → State} {I : State → Prop} {P : Nat → Acct → Acct → Prop}
    (hI : ∀ s p, I s → I (step s p)) (hself : ∀ s p, I s → p < n → P p (s.ac p) ((step s p).ac p))
    (hother : ∀ s p k, k ≠ p → (step s p).ac k = s.ac k) {s : State} (hs : I s) {k : Nat} (hk : k < n) :
    P k (s.ac k) (((List.range n).foldl step s).ac k) := by
  have hpass : ∀ m ≤ n, I ((List.range m).foldl step s) ∧ (∀ k < m, P k (s.ac k) (((List.range m).foldl step s).ac k)) ∧
      ∀ k, m ≤ k → ((List.range m).foldl step s).ac k = s.ac k := by
    intro m
    induction m with
    | zero => exact fun _ => ⟨hs, fun k hk => absurd hk (Nat.not_lt_zero k), fun _ _ => rfl⟩
    | succ m ih =>
      intro hm
      obtain ⟨hinv, hdone, hrest⟩ := ih (by omega)
      rw [List.range_succ, List.foldl_append, List.foldl_cons, List.foldl_nil]
      refine ⟨hI _ m hinv, fun k hk => ?_, fun k hk => (hother _ m k (by omega)).trans (hrest k (by omega))⟩
      by_cases hkm : k = m
      · subst hkm
        exact hrest k (Nat.le_refl k) ▸ hself _ k hinv (by omega)
      · rw [hother _ m k hkm]
        exact hdone k (by omega)
  obtain ⟨-, hdone, -⟩ := hpass n (Nat.le_refl n)
  exact hdone k hk

/-- A pass that stores a function of each account, made of nothing that storing an account changes. -/
theorem State.ac_foldl_setAc (f : State → Acct → Acct) (hf : ∀ s p a, f (s.setAc p a) = f s) (s : State) {n k : Nat} (hk : k < n) :
    ((List.range n).foldl (fun s p => s.setAc p (f s (s.ac p))) s).ac k = f s (s.ac k) :=
  State.ac_foldl (I := fun t => f t = f s) (P := fun _ a b => b = f s a) (fun t p h => (hf t p _).trans h)
    (fun t p h _ => by rw [State.ac_setAc_self, h]) (fun t _ _ h => t.ac_setAc_ne _ h) rfl hk

/-! ## Recomputing the rates (R540, R541, R569) -/

theorem State.chipCap_congr {s t : State} (hprofile : t.profile = s.profile) (hcap : t.reg Reg.SLU_CHIP_CAP = s.reg Reg.SLU_CHIP_CAP) (rail : Nat) :
    t.chipCap rail = s.chipCap rail := by
  simp only [State.chipCap, State.getF, hprofile, hcap]

theorem State.chipPool_congr {s t : State} (hprofile : t.profile = s.profile) (hcap : t.reg Reg.SLU_CHIP_CAP = s.reg Reg.SLU_CHIP_CAP)
    (rail mv : Nat) : t.chipPool rail mv = s.chipPool rail mv := by
  simp only [State.chipPool, State.chipCap_congr hprofile hcap]

theorem State.effRate_congr {s t : State} {p : Nat} (hprofile : t.profile = s.profile) (hcap : t.reg Reg.SLU_CHIP_CAP = s.reg Reg.SLU_CHIP_CAP)
    (hpcap : t.reg (Reg.SLU_PCAP p) = s.reg (Reg.SLU_PCAP p)) (rail mv : Nat) : t.effRate p rail mv = s.effRate p rail mv := by
  unfold State.effRate State.partDef State.getF
  rw [State.chipPool_congr hprofile hcap, hprofile, hpcap]

/-- An account stored, and what SLU_STS shows of it: the array cap, the core cap, the overcommitment. -/
def State.storeRated (s : State) (p : Nat) (a : Acct) (arr core ovr : Bool) : State :=
  (((s.setAc p a).setB Reg.SLU_STS p arr).setB Reg.SLU_STS (8 + p) core).setB Reg.SLU_STS (16 + p) ovr

theorem State.storeRated_only (s : State) (p : Nat) (a : Acct) (arr core ovr : Bool) : RegsOnly [Reg.SLU_STS] s (s.storeRated p a arr core ovr) :=
  (((RegsOnly.of_regs rfl).put List.mem_cons_self _).put List.mem_cons_self _).put List.mem_cons_self _

/-- What recomputing one account can do: it is stored at its effective rates, and SLUICE_OVERCOMMIT may be raised. -/
theorem State.recalcPart_cases (s : State) (mv p : Nat) : ∃ (a : Acct) (arr core ovr newly : Bool),
    (s.recalcPart mv p =
      if newly then (s.storeRated p a arr core ovr).raise 7 0 Ev.SLUICE_OVERCOMMIT none 255 p else s.storeRated p a arr core ovr) ∧
    a.rateA = s.effRate p 0 mv ∧ a.rateC = s.effRate p 1 mv := ⟨_, _, _, _, _, rfl, rfl, rfl⟩

theorem State.recalcPart_ac (s : State) (mv p : Nat) : ∃ a : Acct, a.rateA = s.effRate p 0 mv ∧ a.rateC = s.effRate p 1 mv ∧
    ∀ k, (s.recalcPart mv p).ac k = (s.setAc p a).ac k := by
  obtain ⟨a, arr, core, ovr, newly, he, hA, hC⟩ := s.recalcPart_cases mv p
  refine ⟨a, hA, hC, State.ac_of_acct ?_⟩
  rw [he]
  split
  · exact (State.raise_keeps ..).agree.acct rfl
  · rfl

theorem State.recalcPart_ac_self (s : State) (mv p : Nat) :
    ((s.recalcPart mv p).ac p).rateA = s.effRate p 0 mv ∧ ((s.recalcPart mv p).ac p).rateC = s.effRate p 1 mv := by
  obtain ⟨a, hA, hC, hac⟩ := s.recalcPart_ac mv p
  rw [hac, s.ac_setAc_self]
  exact ⟨hA, hC⟩

theorem State.recalcPart_ac_ne (s : State) (mv p k : Nat) (h : k ≠ p) : (s.recalcPart mv p).ac k = s.ac k := by
  obtain ⟨a, -, -, hac⟩ := s.recalcPart_ac mv p
  rw [hac, s.ac_setAc_ne a h]

theorem State.recalcPart_but (s : State) (mv p : Nat) : RegsBut [Reg.SLU_STS] s (s.recalcPart mv p) := by
  obtain ⟨a, arr, core, ovr, newly, he, -, -⟩ := s.recalcPart_cases mv p
  have hstored : RegsBut [Reg.SLU_STS] s (s.storeRated p a arr core ovr) := fun b hb _ => s.storeRated_only p a arr core ovr b hb
  rw [he]
  split
  · exact hstored.mild (State.raise_mild ..)
  · exact hstored

theorem State.recalcPart_warmHeld (s : State) (mv p : Nat) : (s.recalcPart mv p).warmHeld = s.warmHeld := by
  obtain ⟨a, arr, core, ovr, newly, he, -, -⟩ := s.recalcPart_cases mv p
  have hstored : (s.storeRated p a arr core ovr).warmHeld = s.warmHeld := State.warmHeld_congr rfl (s.storeRated_only p a arr core ovr _ (by decide))
  rw [he]
  split
  · exact (State.raise_warmHeld (by decide) ..).trans hstored
  · exact hstored

/-- The registers that recomputing the rates writes. -/
def rateRegs : List Nat := [Reg.SLU_CHIP_RATE, Reg.SLU_STS]

/-- CHIP_RATE at a voltage: the chip pools of both rails (R541). -/
def State.rateWord (s : State) (mv : Nat) : Word := BitVec.ofNat 32 (s.chipPool 0 mv + s.chipPool 1 mv * 65536)

theorem State.rateWord_congr {s t : State} (hprofile : t.profile = s.profile) (hcap : t.reg Reg.SLU_CHIP_CAP = s.reg Reg.SLU_CHIP_CAP) (mv : Nat) :
    t.rateWord mv = s.rateWord mv := by
  simp only [State.rateWord, State.chipPool_congr hprofile hcap]

theorem State.recalc_eq (s : State) : s.recalc = (List.range s.profile.parts.length).foldl (fun t p => t.recalcPart s.slu.vForce p)
    (s.setReg Reg.SLU_CHIP_RATE (s.rateWord s.slu.vForce)) := rfl

theorem State.recalc_chipRate (s : State) : s.recalc.reg Reg.SLU_CHIP_RATE = s.rateWord s.slu.vForce := by
  have hkeep (t : State) (p : Nat) : (t.recalcPart s.slu.vForce p).reg Reg.SLU_CHIP_RATE = t.reg Reg.SLU_CHIP_RATE :=
    t.recalcPart_but _ p _ (by decide) (by decide)
  rw [State.recalc_eq, State.reg_foldl_of_kept fun t p _ => hkeep t p]
  exact State.reg_setReg_self ..

theorem State.recalc_but (s : State) : RegsBut rateRegs s s.recalc := by
  rw [State.recalc_eq]
  refine List.foldlRecOn (motive := RegsBut rateRegs s) _ _ ((RegsBut.of_regs rfl).put List.mem_cons_self _) fun t ht p _ => ?_
  exact ht.trans (t.recalcPart_but _ p) (by decide)

theorem State.recalc_warmHeld (s : State) : s.recalc.warmHeld = s.warmHeld := by
  have hrate (v : Word) : (s.setReg Reg.SLU_CHIP_RATE v).warmHeld = s.warmHeld :=
    State.warmHeld_congr rfl (State.reg_setReg_ne _ _ _ _ (by decide))
  rw [State.recalc_eq]
  exact List.foldlRecOn (motive := fun t : State => t.warmHeld = s.warmHeld) _ _ (hrate _) fun t ht p _ => (t.recalcPart_warmHeld _ p).trans ht

theorem Reg.SLU_PCAP_kept {p : Nat} (h : p < 8) : rateRegs.contains (Reg.SLU_PCAP p) = false ∧ raiseReg (Reg.SLU_PCAP p) = false := by
  match p, h with
  | 0, _ | 1, _ | 2, _ | 3, _ | 4, _ | 5, _ | 6, _ | 7, _ => decide

/-- Every account of the profile ends at the effective rates of the voltage in force. -/
theorem State.recalc_rates {s : State} (hparts : s.profile.parts.length ≤ 8) {k : Nat} (hk : k < s.profile.parts.length) :
    (s.recalc.ac k).rateA = s.effRate k 0 s.slu.vForce ∧ (s.recalc.ac k).rateC = s.effRate k 1 s.slu.vForce := by
  have heff {t : State} (hprofile : t.profile = s.profile) (hbut : RegsBut rateRegs s t) {p : Nat} (hp : p < s.profile.parts.length)
      (rail mv : Nat) : t.effRate p rail mv = s.effRate p rail mv := by
    obtain ⟨hnot, hra⟩ := Reg.SLU_PCAP_kept (p := p) (by omega)
    exact State.effRate_congr hprofile (hbut _ (by decide) (by decide)) (hbut _ hnot hra) rail mv
  rw [State.recalc_eq]
  refine State.ac_foldl (s := s.setReg Reg.SLU_CHIP_RATE _) (I := fun t => t.profile = s.profile ∧ RegsBut rateRegs s t)
    (P := fun p _ b => b.rateA = s.effRate p 0 s.slu.vForce ∧ b.rateC = s.effRate p 1 s.slu.vForce) ?_ ?_
    (fun t p k h => t.recalcPart_ac_ne _ p k h) ⟨rfl, (RegsBut.of_regs rfl).put List.mem_cons_self _⟩ hk
  · exact fun t p ⟨hprofile, hbut⟩ => ⟨((t.recalcPart_keeps _ p).agree.profile rfl).trans hprofile, hbut.trans (t.recalcPart_but _ p) (by decide)⟩
  · rintro t p ⟨hprofile, hbut⟩ hp
    rw [← heff hprofile hbut hp, ← heff hprofile hbut hp]
    exact t.recalcPart_ac_self _ p

/-! ## Writes to the sluice's page (R566, R569, R571, R834) -/

/-- A write to a page that is not in reset has its effect at once. -/
theorem State.orHeld_of_not_reset {s : State} {a : Nat} (hr : s.pageReset (adrType a) (adrInst a) = false) (rq : Requester) (via : Bool) (v : Word)
    (env : WriteEnv) (f : State → State) : s.orHeld rq via a v env f = f s := if_neg (Bool.eq_false_iff.mp hr)

/-- The register that CAP_WRITE stores into: CHIP_CAP or PCAP of a partition. -/
def capReg (which : Fin 9) : Nat := if which.val = 0 then Reg.SLU_CHIP_CAP else Reg.SLU_PCAP (which.val - 1)

theorem capReg_page : ∀ which : Fin 9, adrType (capReg which) = 7 ∧ adrInst (capReg which) = 0 := by decide

theorem capReg_kept : ∀ which : Fin 9, rateRegs.contains (capReg which) = false ∧ raiseReg (capReg which) = false ∧ Reg.PIL_STS 0 ≠ capReg which := by
  decide

section
variable {s : State} {rq : Requester} (hr : s.pageReset 7 0 = false) (hw : s.dpWriter rq = true)
include hr hw

theorem execCapWrite_eq (which : Fin 9) (v : Word) : execCapWrite rq which v s = .next (s.writeCap (capReg which) v) := by
  obtain ⟨hty, hinst⟩ := capReg_page which
  have hrCap : s.pageReset (adrType (capReg which)) (adrInst (capReg which)) = false := by rw [hty, hinst, hr]
  exact congrArg _ ((State.orHeld_of_not_reset hrCap ..).trans (if_pos hw))

theorem execCapWinWrite_eq (v : Word) : execCapWinWrite rq v s = .next (s.writeSluCtl v) :=
  congrArg _ ((State.orHeld_of_not_reset (a := Reg.SLU_CTL) hr ..).trans (if_pos hw))

theorem execAvsCtlWrite_eq (v : Word) : execAvsCtlWrite rq v s = .next (s.writeAvsCtl v) :=
  congrArg _ ((State.orHeld_of_not_reset (a := Reg.SLU_AVS_CTL) hr ..).trans (if_pos hw))

end

/-- A cap write leaves registers as the recomputation of the rates does. -/
theorem State.writeCap_but (s : State) (a : Nat) (v : Word) : RegsBut rateRegs (s.plainWrite a v) (s.writeCap a v) :=
  (State.recalc_but _).mild (State.raise_mild ..)

theorem State.writeCap_profile (s : State) (a : Nat) (v : Word) : (s.writeCap a v).profile = (s.plainWrite a v).profile :=
  (s.writeCap_keeps a v).agree.profile rfl

theorem State.writeCap_chipRate (s : State) (a : Nat) (v : Word) :
    (s.writeCap a v).reg Reg.SLU_CHIP_RATE = (s.writeCap a v).rateWord s.slu.vForce := by
  rw [State.rateWord_congr (s.writeCap_profile a v) (s.writeCap_but a v _ (by decide) (by decide))]
  exact ((State.raise_mild ..).reg _ (by decide)).trans (s.plainWrite a v).recalc_chipRate

theorem State.writeCap_rates {s : State} (hparts : s.profile.parts.length ≤ 8) (a : Nat) (v : Word) {k : Nat} (hk : k < s.profile.parts.length) :
    ((s.writeCap a v).ac k).rateA = (s.writeCap a v).effRate k 0 s.slu.vForce ∧
      ((s.writeCap a v).ac k).rateC = (s.writeCap a v).effRate k 1 s.slu.vForce := by
  obtain ⟨hnot, hra⟩ := Reg.SLU_PCAP_kept (p := k) (by omega)
  have heff (rail : Nat) : (s.writeCap a v).effRate k rail s.slu.vForce = (s.plainWrite a v).effRate k rail s.slu.vForce :=
    State.effRate_congr (s.writeCap_profile a v) (s.writeCap_but a v _ (by decide) (by decide)) (s.writeCap_but a v _ hnot hra) rail s.slu.vForce
  have hac : (s.writeCap a v).ac k = (s.plainWrite a v).recalc.ac k := State.ac_of_acct ((State.raise_keeps ..).agree.acct rfl) k
  rw [heff, heff, hac]
  exact State.recalc_rates (s := s.plainWrite a v) hparts hk

theorem State.writeCap_raised {s : State} (hheld : s.warmHeld = false) {a : Nat} (ha : Reg.PIL_STS 0 ≠ a) (v : Word) :
    (s.writeCap a v).rawBit 7 0 Ev.SLUICE_CAP_CHANGE = true := by
  have hwrite : (s.plainWrite a v).warmHeld = s.warmHeld := State.warmHeld_congr rfl (State.reg_setReg_ne _ _ _ _ ha)
  exact State.raise_sluice (((State.recalc_warmHeld _).trans hwrite).trans hheld) (by decide) (by decide) ..

/-! ## Cap windows (R542, R567, R571) -/

/-- No window count is kept until the next boundary: what a change of CAP_WIN does to the accounts and the loop (R571). -/
def State.winRestart (s : State) : State :=
  (List.range s.profile.parts.length).foldl (fun s p => s.setAc p { s.ac p with wA := 0, wC := 0, allowA := 2 ^ 64, allowC := 2 ^ 64 })
    { s with slu := { s.slu with winPend := true } }

theorem State.writeSluCtl_eq (s : State) (v : Word) : s.writeSluCtl v =
    if (s.plainWrite Reg.SLU_CTL v).capWin = s.capWin then s.plainWrite Reg.SLU_CTL v else (s.plainWrite Reg.SLU_CTL v).winRestart := rfl

theorem State.winRestart_keeps (s : State) : Keeps Fld.acct { s with slu := { s.slu with winPend := true } } s.winRestart :=
  Keeps.foldl (fun t p h => h.trans (t.setAc_keeps p _)) (Keeps.refl _ _)

theorem State.winRestart_counts (s : State) {k : Nat} (hk : k < s.profile.parts.length) : (s.winRestart.ac k).wA = 0 ∧ (s.winRestart.ac k).wC = 0 := by
  have hac : s.winRestart.ac k = { s.ac k with wA := 0, wC := 0, allowA := 2 ^ 64, allowC := 2 ^ 64 } :=
    State.ac_foldl_setAc (fun _ a => { a with wA := 0, wC := 0, allowA := 2 ^ 64, allowC := 2 ^ 64 }) (fun _ _ _ => rfl) _ hk
  rw [hac]
  exact ⟨rfl, rfl⟩

theorem State.writeSluCtl_regs (s : State) (v : Word) : (s.writeSluCtl v).regs = (s.plainWrite Reg.SLU_CTL v).regs := by
  rw [State.writeSluCtl_eq]
  split
  · rfl
  · exact (State.winRestart_keeps _).agree.regs rfl

theorem State.capWin_congr {s t : State} (h : t.regs = s.regs) : t.capWin = s.capWin := by
  unfold State.capWin State.getF
  rw [State.reg_of_regs h]

theorem State.writeSluCtl_changed {s : State} {v : Word} (h : (s.writeSluCtl v).capWin ≠ s.capWin) :
    s.writeSluCtl v = (s.plainWrite Reg.SLU_CTL v).winRestart := by
  rw [State.capWin_congr (s.writeSluCtl_regs v)] at h
  rw [State.writeSluCtl_eq, if_neg h]

theorem State.writeSluCtl_same {s : State} {v : Word} (h : (s.writeSluCtl v).capWin = s.capWin) : s.writeSluCtl v = s.plainWrite Reg.SLU_CTL v := by
  rw [State.capWin_congr (s.writeSluCtl_regs v)] at h
  rw [State.writeSluCtl_eq, if_pos h]

/-- An account as its cap window of `win` ticks begins: no count, the allowances of its rates (R542). -/
def Acct.newWindow (a : Acct) (win : Nat) : Acct :=
  { a with wA := 0, wC := 0, allowA := a.rateA * win, allowC := a.rateC * win, stretchLogged := false, dryLogged := false }

/-- A cap window begins: every account's counts and allowances, and the tick in the loop's record. -/
def State.winBegin (s : State) : State :=
  (List.range s.profile.parts.length).foldl (fun s p => s.setAc p ((s.ac p).newWindow s.capWin))
    { s with slu := { s.slu with winTick := s.now, winPend := false } }

theorem State.windowStart_eq (s : State) : s.windowStart = if s.now % s.capWin != 0 || s.slu.winTick = s.now then s else s.winBegin := rfl

theorem State.winBegin_keeps (s : State) : Keeps Fld.acct { s with slu := { s.slu with winTick := s.now, winPend := false } } s.winBegin :=
  Keeps.foldl (fun t p h => h.trans (t.setAc_keeps p _)) (Keeps.refl _ _)

theorem State.winBegin_ac (s : State) {k : Nat} (hk : k < s.profile.parts.length) : s.winBegin.ac k = (s.ac k).newWindow s.capWin :=
  State.ac_foldl_setAc (fun t a => a.newWindow t.capWin) (fun _ _ _ => rfl) _ hk

theorem State.windowStart_boundary {s : State} (hend : s.now % s.capWin = 0) (hfirst : s.slu.winTick ≠ s.now) : s.windowStart = s.winBegin := by
  rw [State.windowStart_eq, hend, decide_eq_false hfirst]
  rfl

theorem State.windowStart_inside {s : State} (hin : s.now % s.capWin ≠ 0) : s.windowStart = s := by
  rw [State.windowStart_eq, bne_iff_ne.mpr hin]
  rfl

/-- A cap window that begins leaves the levels of the accounts and the tick of the last refill. -/
theorem State.windowStart_levels (s : State) {k : Nat} (hk : k < s.profile.parts.length) :
    (s.windowStart.ac k).lvlA = (s.ac k).lvlA ∧ (s.windowStart.ac k).lvlC = (s.ac k).lvlC := by
  rw [State.windowStart_eq]
  split
  · exact ⟨rfl, rfl⟩
  · rw [s.winBegin_ac hk]
    exact ⟨rfl, rfl⟩

theorem State.windowStart_refill (s : State) : s.windowStart.slu.refill = s.slu.refill := by
  rw [State.windowStart_eq]
  split
  · rfl
  · rw [s.winBegin_keeps.agree.slu rfl]

/-! ## The tick (R545) -/

/-- Every account is refilled, and the tick noted. -/
def State.refillAll (s : State) : State :=
  { (List.range s.profile.parts.length).foldl (fun s p => s.setAc p (s.ac p).refill) s with slu := { s.slu with refill := some s.now } }

theorem State.refillAll_keeps (s : State) : Keeps (Fld.acct ||| Fld.slu) s s.refillAll :=
  Keeps.set_slu _ (Keeps.foldl (fun t p h => (t.setAc_keeps p _).step rfl h) (Keeps.refl _ s)) rfl

theorem State.refillAll_ac (s : State) {k : Nat} (hk : k < s.profile.parts.length) : s.refillAll.ac k = (s.ac k).refill :=
  State.ac_foldl_setAc (fun _ => Acct.refill) (fun _ _ _ => rfl) s hk

theorem State.grantPass_of_no_tickets {s : State} (h : s.tickets = []) (p : Nat) : s.grantPass p = s := by
  simp only [State.grantPass, State.candidates, h, List.filter_nil, List.foldl_nil, List.map_nil]

theorem State.countStretch_of_no_tickets {s : State} (h : s.tickets = []) : s.countStretch = s := by
  simp only [State.countStretch, h, List.filter_nil, List.foldl_nil]

/-- With no ticket the first tick command of an edge refills, and begins a window where one is due. -/
theorem execSluiceTick_refill {s : State} (hfirst : s.slu.refill ≠ some s.now) (hnone : s.tickets = []) :
    execSluiceTick s = .next s.refillAll.windowStart := by
  have htickets : s.refillAll.windowStart.tickets = [] :=
    ((State.windowStart_keeps _).agree.tickets rfl).trans ((s.refillAll_keeps.agree.tickets rfl).trans hnone)
  have hgrants (l : List Nat) : l.foldl (fun t p => t.grantPass p) s.refillAll.windowStart = s.refillAll.windowStart :=
    List.foldlRecOn (motive := fun t => t = s.refillAll.windowStart) _ _ rfl fun t ht p _ => by
      rw [ht]; exact State.grantPass_of_no_tickets htickets p
  have hne : (s.slu.refill != some s.now) = true := bne_iff_ne.mpr hfirst
  unfold execSluiceTick
  simp only [hne, if_true]
  exact congrArg _ ((congrArg State.countStretch (hgrants _)).trans (State.countStretch_of_no_tickets htickets))

/-- A launch leaves the ticket in STATE 3, launched at this edge, with its deadline (R477, R478). -/
theorem State.launchTk_tkAt (s : State) (k : Nat) (x : Ticket) (noAct : Bool) :
    ((s.launchTk k x noAct).tkAt k).state = 3 ∧ ((s.launchTk k x noAct).tkAt k).launch = s.now ∧
      ((s.launchTk k x noAct).tkAt k).deadline = s.now + x.dln := by
  have hdln (c : Bool) (lane : Nat) : (if c then { x with uindex := lane } else x).dln = x.dln := by cases c <;> rfl
  generalize hu : s.launchTk k x noAct = u
  unfold State.launchTk at hu
  extract_lets late lane y x' v w at hu
  have hx : u.tkAt k = x' := by
    rw [← hu]
    split
    · exact State.tkAt_setTk_self ..
    · rw [State.tkAt, (State.raiseC_keeps ..).agree.tickets rfl]
      exact State.tkAt_setTk_self s k x'
  rw [hx]
  exact ⟨rfl, rfl, congrArg _ (hdln _ _)⟩

/-- A ready ticket of a unit that is not fenced launches once its drops are granted, where no ticket before it waits for drops. -/
theorem State.visit_granted {s t : State} {k : Nat} (hready : s.ready k (s.tkAt k) = true) (hfence : s.unitFenced k (s.tkAt k) = false)
    (hgrant : s.grant (k / 256) (s.cost k (s.tkAt k)) = some t) : State.visit (s, none) k = (t.launchTk k (s.tkAt k) false, none) := by
  simp only [State.visit, hready, hfence, hgrant, Bool.not_true, Bool.false_eq_true, if_false]

/-- Once an edge is refilled, a pass of the only partition over its only candidate launches it. -/
theorem execSluiceTick_launch {s t : State} {k : Nat} (hdone : s.slu.refill = some s.now) (hin : s.now % s.capWin ≠ 0)
    (hparts : s.profile.parts.length = 1) (hcand : s.candidates 0 = [k]) (hready : s.ready k (s.tkAt k) = true)
    (hfence : s.unitFenced k (s.tkAt k) = false) (hgrant : s.grant (k / 256) (s.cost k (s.tkAt k)) = some t) :
    execSluiceTick s = .next (t.launchTk k (s.tkAt k) false) := by
  have hpass : s.grantPass 0 = t.launchTk k (s.tkAt k) false := by
    rw [State.grantPass, hcand, List.foldl_cons, List.foldl_nil, State.visit_granted hready hfence hgrant]
  unfold execSluiceTick
  simp only [hdone, bne_self_eq_false, Bool.false_eq_true, if_false, State.windowStart_inside hin, hparts]
  exact congrArg _ hpass

/-! ## The voltage loop (R552 to R559) -/

/-- The registers that a voltage write sets: those of the rates and AVS_STS. -/
def voltRegs : List Nat := Reg.SLU_AVS_STS :: rateRegs

/-- AVS_STS and the loop's record as a voltage write leaves them, before the rates are recomputed. -/
def State.voltSent (s : State) (mv : Nat) : State :=
  { ((s.setF Reg.SLU_AVS_STS 16 12 mv).setB Reg.SLU_AVS_STS 31 true).setB Reg.SLU_AVS_STS 29 false with
    slu := { s.slu with busy := some s.now, retried := false, vForce := max s.slu.vForce mv } }

theorem State.sendVoltage_slu (s : State) (mv : Nat) :
    (s.sendVoltage mv).slu = { s.slu with busy := some s.now, retried := false, vForce := max s.slu.vForce mv } :=
  (s.voltSent mv).recalc_keeps.agree.slu rfl

theorem State.sendVoltage_reg (s : State) (mv : Nat) {a : Nat} (ha : rateRegs.contains a = false) (hra : raiseReg a = false) :
    (s.sendVoltage mv).reg a = (s.voltSent mv).reg a := (s.voltSent mv).recalc_but a ha hra

theorem State.voltSent_but (s : State) (mv : Nat) : RegsBut voltRegs s (s.voltSent mv) :=
  (((RegsBut.of_regs rfl).put List.mem_cons_self _).put List.mem_cons_self _).put List.mem_cons_self _

theorem State.sendVoltage_but (s : State) (mv : Nat) : RegsBut voltRegs s (s.sendVoltage mv) :=
  (s.voltSent_but mv).trans (s.voltSent mv).recalc_but (List.subset_cons_self _ _)

theorem State.sendVoltage_target (s : State) {mv : Nat} (h : mv < 4096) : (s.sendVoltage mv).vTarget = mv := by
  rw [State.vTarget, State.getF, s.sendVoltage_reg mv (by decide) (by decide)]
  refine (State.getF_setF_ne _ _ _ _ _ _ _ (by decide) (by decide)).trans ((State.getF_setF_ne _ _ _ _ _ _ _ (by decide) (by decide)).trans ?_)
  exact (State.getF_setF _ _ _ _ _ (by decide)).trans (Nat.mod_eq_of_lt h)

theorem State.sendVoltage_pending (s : State) (mv : Nat) : (s.sendVoltage mv).getB Reg.SLU_AVS_STS 31 = true := by
  rw [State.getB, s.sendVoltage_reg mv (by decide) (by decide)]
  exact (State.getB_setB_ne _ _ _ _ _ (by decide)).trans (State.getB_setB _ _ _ _ (by decide))

/-- The registers that a decision of the loop may set. -/
def loopRegs : List Nat := Reg.SLU_AVS_CNT :: voltRegs

/-- What a decision leaves: all registers but those of the loop and the rates, and the least slack of the window. -/
structure LoopKeeps (s t : State) : Prop where
  but : RegsBut loopRegs s t
  avsMin : t.slu.avsMin = s.slu.avsMin

theorem LoopKeeps.sendVoltage {s t : State} (h : LoopKeeps s t) (mv : Nat) : LoopKeeps s (t.sendVoltage mv) :=
  ⟨h.but.trans (t.sendVoltage_but mv) (List.subset_cons_self _ _), (congrArg SluX.avsMin (t.sendVoltage_slu mv)).trans h.avsMin⟩

theorem LoopKeeps.incSatF {s t : State} (h : LoopKeeps s t) (lo w n : Nat) : LoopKeeps s (t.incSatF Reg.SLU_AVS_CNT lo w n) :=
  ⟨h.but.put List.mem_cons_self _, h.avsMin⟩

theorem LoopKeeps.raiseVoltage {s t : State} (h : LoopKeeps s t) (mv : Nat) : LoopKeeps s (t.raiseVoltage mv) := by
  unfold State.raiseVoltage
  dsimp only
  split
  · refine ⟨RegsBut.mild ((h.but.put (by decide) _).put List.mem_cons_self _) (State.raise_mild ..), ?_⟩
    exact (congrArg SluX.avsMin ((State.raise_keeps ..).agree.slu rfl)).trans h.avsMin
  · exact (h.incSatF 0 8 1).sendVoltage mv

theorem LoopKeeps.ite {s t u : State} {c : Prop} [Decidable c] (ht : LoopKeeps s t) (hu : LoopKeeps s u) : LoopKeeps s (if c then t else u) := by
  split <;> assumption

/-- The run of ample windows set to a number. -/
def State.withAmple (s : State) (n : Nat) : State := { s with slu := { s.slu with ample := n } }

theorem State.avsDecide_loop (s : State) (sl : Int) : LoopKeeps s (s.avsDecide sl) := by
  have hample (n : Nat) : LoopKeeps s (s.withAmple n) := ⟨RegsBut.of_regs rfl, rfl⟩
  unfold State.avsDecide
  dsimp only
  refine (hample _).ite (LoopKeeps.ite (((hample _).raiseVoltage _).ite (hample _)) (LoopKeeps.ite (hample _) (LoopKeeps.ite ?raise
    (LoopKeeps.ite ?lower (hample _)))))
  case raise => exact ((hample _).raiseVoltage _).ite (hample _)
  case lower => exact (((hample 0).incSatF 8 8 1).sendVoltage _).ite (hample _)

/-- The target that a window of too little slack asks for (R554). -/
def State.vRaised (s : State) : Nat := min s.profile.vmax (max s.vFloor (s.vTarget + s.avsStep))

/-- Too little slack raises the target, where the loop runs and the core rail has no cap (R554, R555). -/
theorem State.avsDecide_raise {s : State} {sl : Int} (hfault : s.getB Reg.SLU_AVS_STS 30 = false) (hon : s.getB Reg.SLU_AVS_CTL 0 = true)
    (hfloor : s.vFloor ≤ s.vTarget) (hmeasured : sl ≠ 32767) (hlow : sl < (s.getF Reg.SLU_AVS_CTL 16 8 : Nat)) (hroom : s.vTarget < s.vRaised)
    (hcap : s.chipCap 1 = 0) : ∃ n, s.avsDecide sl = ((s.withAmple n).incSatF Reg.SLU_AVS_CNT 0 8 1).sendVoltage s.vRaised := by
  have hraise (n : Nat) : (s.withAmple n).raiseVoltage s.vRaised = ((s.withAmple n).incSatF Reg.SLU_AVS_CNT 0 8 1).sendVoltage s.vRaised := by
    have hcap' : (s.withAmple n).chipCap 1 = 0 := hcap
    simp only [State.raiseVoltage, hcap', bne_self_eq_false, Bool.false_and, Bool.false_eq_true, if_false]
  have hrun : ¬ (!(s.getB Reg.SLU_AVS_CTL 0 && !s.getB Reg.SLU_AVS_STS 30) || decide (sl = 32767)) = true := by simp [hon, hfault, hmeasured]
  exact ⟨_, (if_neg (Bool.eq_false_iff.mp hfault)).trans ((if_neg (Nat.not_lt.mpr hfloor)).trans ((if_neg hrun).trans
    ((if_pos hlow).trans ((if_pos hroom).trans (hraise _)))))⟩

/-- The window's least slack is latched, and the next window begins with none (R554). -/
def State.avsLatch (s : State) : State :=
  { s.setF Reg.SLU_SLK_AVS 0 16 (twos 16 (clampI (-32768) 32767 s.slu.avsMin)) with slu := { s.slu with avsMin := 32767 } }

theorem State.avsLatch_reg (s : State) {a : Nat} (h : a ≠ Reg.SLU_SLK_AVS) : s.avsLatch.reg a = s.reg a := State.reg_setReg_ne _ _ _ _ h

theorem execAvsWindowEnd_eq {s : State} (hend : s.now % 2 ^ (10 + s.getF Reg.SLU_AVS_CTL 4 4) = 0) : execAvsWindowEnd s =
    .next (if s.slu.busy.isSome || decide (s.getF Reg.BOOT_STS 0 4 < 6) then s.avsLatch else s.avsLatch.avsDecide s.slu.avsMin) := by
  have hboot : s.avsLatch.getF Reg.BOOT_STS 0 4 = s.getF Reg.BOOT_STS 0 4 := congrArg (fld · 0 4) (s.avsLatch_reg (by decide))
  rw [← hboot]
  simp only [execAvsWindowEnd, hend, bne_self_eq_false, Bool.false_eq_true, if_false]
  rfl

theorem State.avsLatch_slack (s : State) : s.avsLatch.getF Reg.SLU_SLK_AVS 0 16 = twos 16 (clampI (-32768) 32767 s.slu.avsMin) :=
  (State.getF_setF _ _ _ _ _ (by decide)).trans (Nat.mod_eq_of_lt (twos_lt _ _))

/-- Whatever the loop decides, the slack stays latched. -/
theorem State.avsDecide_latched (s : State) (sl : Int) :
    (s.avsLatch.avsDecide sl).getF Reg.SLU_SLK_AVS 0 16 = twos 16 (clampI (-32768) 32767 s.slu.avsMin) ∧ (s.avsLatch.avsDecide sl).slu.avsMin = 32767 :=
  have h := s.avsLatch.avsDecide_loop sl
  ⟨(congrArg (fld · 0 16) (h.but _ (by decide) (by decide))).trans s.avsLatch_slack, h.avsMin⟩

theorem State.avsLatch_vRaised (s : State) : s.avsLatch.vRaised = s.vRaised := by
  have hsts : s.avsLatch.vTarget = s.vTarget := congrArg (fld · 16 12) (s.avsLatch_reg (by decide))
  have hstep : s.avsLatch.getF Reg.SLU_AVS_CTL 8 8 = s.getF Reg.SLU_AVS_CTL 8 8 := congrArg (fld · 8 8) (s.avsLatch_reg (by decide))
  simp only [State.vRaised, State.avsStep, hsts, hstep]
  rfl

/-- Latching the slack leaves all that the decision to raise the target is made of. -/
theorem State.avsDecide_latched_raise {s : State} (hfault : s.getB Reg.SLU_AVS_STS 30 = false) (hon : s.getB Reg.SLU_AVS_CTL 0 = true)
    (hfloor : s.vFloor ≤ s.vTarget) (hmeasured : s.slu.avsMin ≠ 32767) (hlow : s.slu.avsMin < (s.getF Reg.SLU_AVS_CTL 16 8 : Nat))
    (hroom : s.vTarget < s.vRaised) (hcap : s.chipCap 1 = 0) : ∃ n, s.avsLatch.avsDecide s.slu.avsMin =
      ((s.avsLatch.withAmple n).incSatF Reg.SLU_AVS_CNT 0 8 1).sendVoltage s.vRaised := by
  have hsts : s.avsLatch.reg Reg.SLU_AVS_STS = s.reg Reg.SLU_AVS_STS := s.avsLatch_reg (by decide)
  have hctl : s.avsLatch.reg Reg.SLU_AVS_CTL = s.reg Reg.SLU_AVS_CTL := s.avsLatch_reg (by decide)
  have htarget : s.avsLatch.vTarget = s.vTarget := congrArg (fld · 16 12) hsts
  have hlim : s.avsLatch.getF Reg.SLU_AVS_CTL 16 8 = s.getF Reg.SLU_AVS_CTL 16 8 := congrArg (fld · 16 8) hctl
  rw [← s.avsLatch_vRaised] at hroom ⊢
  exact State.avsDecide_raise ((congrArg (bit · 30) hsts).trans hfault) ((congrArg (bit · 0) hctl).trans hon) (htarget ▸ hfloor) hmeasured
    (hlim ▸ hlow) (htarget ▸ hroom) ((State.chipCap_congr (s := s) (t := s.avsLatch) rfl (s.avsLatch_reg (by decide)) 1).trans hcap)

theorem State.settle_slu (s : State) : s.settle.slu = { s.slu with busy := none, retried := false, vForce := max s.vOut s.vTarget } :=
  (State.recalc_keeps _).agree.slu rfl

/-- A voltage that settles ends the write in AVS_STS. -/
theorem State.settle_avsSts (s : State) : s.settle.reg Reg.SLU_AVS_STS = (s.setB Reg.SLU_AVS_STS 31 false).reg Reg.SLU_AVS_STS :=
  State.recalc_but _ _ (by decide) (by decide)

theorem State.settle_warmHeld (s : State) : s.settle.warmHeld = s.warmHeld :=
  (State.recalc_warmHeld _).trans (State.warmHeld_congr rfl (State.reg_setReg_ne _ _ _ _ (by decide)))

/-- The voltage that the regulator reports (R557). -/
def State.reported (s : State) (mv : Nat) : State := s.setF Reg.SLU_AVS_STS 0 12 mv

theorem State.reported_out (s : State) (mv : Fin 4096) : (s.reported mv).vOut = mv :=
  (State.getF_setF _ _ _ _ _ (by decide)).trans (Nat.mod_eq_of_lt mv.isLt)

theorem State.reported_target (s : State) (mv : Nat) : (s.reported mv).vTarget = s.vTarget := State.getF_setF_ne _ _ _ _ _ _ _ (by decide) (by decide)

theorem execAvsReadback_near {s : State} {mv : Fin 4096} (hbusy : s.slu.busy.isSome = true)
    (hnear : mv.val ≤ s.vTarget + 5 ∧ s.vTarget ≤ mv.val + 5) : execAvsReadback mv s = .next (s.reported mv).settle := by
  have hcond : (decide (mv.val ≤ (s.reported mv).vTarget + 5) && decide ((s.reported mv).vTarget ≤ mv.val + 5)) = true := by
    simpa [State.reported_target] using hnear
  rw [execAvsReadback, if_neg (by simpa [Option.isNone_iff_eq_none, Option.isSome_iff_ne_none] using hbusy)]
  exact congrArg _ (if_pos hcond)

theorem execAvsReadback_far {s : State} {mv : Fin 4096} (hbusy : s.slu.busy.isSome = true)
    (hfar : ¬ (mv.val ≤ s.vTarget + 5 ∧ s.vTarget ≤ mv.val + 5)) : execAvsReadback mv s = .next
      (if s.slu.vForce < mv.val then State.recalc { s.reported mv with slu := { s.slu with vForce := mv.val } } else s.reported mv) := by
  have hcond : ¬ (decide (mv.val ≤ (s.reported mv).vTarget + 5) && decide ((s.reported mv).vTarget ≤ mv.val + 5)) = true := by
    simpa [State.reported_target] using hfar
  rw [execAvsReadback, if_neg (by simpa [Option.isNone_iff_eq_none, Option.isSome_iff_ne_none] using hbusy)]
  exact congrArg _ (if_neg hcond)

/-- The loop gives up (R558): the target is the last output, the voltage settles there, AVS_STS and AVS_CNT show it; SLUICE_AVS_FAULT not yet
raised. -/
def State.avsStopped (s : State) : State :=
  ((((s.setF Reg.SLU_AVS_STS 16 12 s.vOut).withAmple 0).settle).setB Reg.SLU_AVS_STS 30 true).incSatF Reg.SLU_AVS_CNT 24 8 1

section
variable {s : State} {c : Nat} (hbusy : s.slu.busy = some c) (hdue : c + 12500 ≤ s.now)
include hbusy hdue

theorem execSluiceAvsFault_repeat (h : s.slu.retried = false) : execSluiceAvsFault s =
    .next (({ s with slu := { s.slu with busy := some s.now, retried := true } } : State).emit (.avsWrite s.vTarget)) := by
  simp only [execSluiceAvsFault, hbusy, h, if_neg (Nat.not_lt.mpr hdue), Bool.not_false, if_true]

theorem execSluiceAvsFault_stop (h : s.slu.retried = true) : execSluiceAvsFault s =
    .next (s.avsStopped.raise 7 0 Ev.SLUICE_AVS_FAULT none 255 255) := by
  simp only [execSluiceAvsFault, hbusy, h, if_neg (Nat.not_lt.mpr hdue), Bool.not_true, Bool.false_eq_true, if_false]
  rfl

end

theorem State.avsStopped_avsSts (s : State) : s.avsStopped.reg Reg.SLU_AVS_STS =
    ((((s.setF Reg.SLU_AVS_STS 16 12 s.vOut).withAmple 0).settle).setB Reg.SLU_AVS_STS 30 true).reg Reg.SLU_AVS_STS :=
  State.reg_setF_ne _ _ _ _ _ _ (by decide)

theorem State.avsStopped_fault (s : State) : s.avsStopped.getB Reg.SLU_AVS_STS 30 = true :=
  (congrArg (bit · 30) s.avsStopped_avsSts).trans (State.getB_setB _ _ _ _ (by decide))

theorem State.avsStopped_target (s : State) : s.avsStopped.vTarget = s.vOut := by
  have hout : s.vOut < 2 ^ 12 := Nat.mod_lt _ (by decide)
  calc s.avsStopped.vTarget
      = ((s.setF Reg.SLU_AVS_STS 16 12 s.vOut).withAmple 0).settle.vTarget :=
        (congrArg (fld · 16 12) s.avsStopped_avsSts).trans (State.getF_setF_ne _ _ _ _ _ _ _ (by decide) (by decide))
    _ = (s.setF Reg.SLU_AVS_STS 16 12 s.vOut).vTarget :=
        (congrArg (fld · 16 12) (State.settle_avsSts _)).trans (State.getF_setF_ne _ _ _ _ _ _ _ (by decide) (by decide))
    _ = s.vOut := (State.getF_setF _ _ _ _ _ (by decide)).trans (Nat.mod_eq_of_lt hout)

theorem State.avsStopped_warmHeld (s : State) : s.avsStopped.warmHeld = s.warmHeld := by
  have hstores : s.avsStopped.warmHeld = ((s.setF Reg.SLU_AVS_STS 16 12 s.vOut).withAmple 0).settle.warmHeld :=
    State.warmHeld_congr rfl ((State.reg_setReg_ne _ _ _ _ (by decide)).trans (State.reg_setReg_ne _ _ _ _ (by decide)))
  exact (hstores.trans (State.settle_warmHeld _)).trans (State.warmHeld_congr rfl (State.reg_setReg_ne _ _ _ _ (by decide)))

/-- AVS_CTL as written, the loop started anew (R558, R559). -/
def State.avsRestart (s : State) (v : Word) : State := ((s.plainWrite Reg.SLU_AVS_CTL v).withAmple 0).setB Reg.SLU_AVS_STS 30 false

theorem State.writeAvsCtl_eq (s : State) (v : Word) : s.writeAvsCtl v =
    if !s.getB Reg.SLU_AVS_CTL 0 && (s.plainWrite Reg.SLU_AVS_CTL v).getB Reg.SLU_AVS_CTL 0 then s.avsRestart v
    else s.plainWrite Reg.SLU_AVS_CTL v := rfl

theorem State.writeAvsCtl_reg (s : State) (v : Word) : (s.writeAvsCtl v).reg Reg.SLU_AVS_CTL = (s.plainWrite Reg.SLU_AVS_CTL v).reg Reg.SLU_AVS_CTL := by
  rw [State.writeAvsCtl_eq]
  split
  · exact State.reg_setB_ne _ _ _ _ _ (by decide)
  · rfl

theorem State.writeAvsCtl_only (s : State) (v : Word) : RegsOnly [Reg.SLU_AVS_CTL, Reg.SLU_AVS_STS] s (s.writeAvsCtl v) := by
  have hplain : RegsOnly [Reg.SLU_AVS_CTL, Reg.SLU_AVS_STS] s (s.plainWrite Reg.SLU_AVS_CTL v) := (RegsOnly.of_regs rfl).put List.mem_cons_self _
  rw [State.writeAvsCtl_eq]
  split
  · exact RegsOnly.put (t := (s.plainWrite Reg.SLU_AVS_CTL v).withAmple 0) hplain (by decide) _
  · exact hplain

/-- A write that sets the enable of a loop that was off starts it anew. -/
theorem State.writeAvsCtl_restarts {s : State} {v : Word} (hoff : s.getB Reg.SLU_AVS_CTL 0 = false)
    (hon : (s.writeAvsCtl v).getB Reg.SLU_AVS_CTL 0 = true) : s.writeAvsCtl v = s.avsRestart v := by
  rw [State.getB, s.writeAvsCtl_reg v, ← State.getB] at hon
  rw [State.writeAvsCtl_eq, hoff, hon]
  rfl

/-! ## The obligation -/

/-- Settles O33: each command reaches one of the equations above, and the laws of the state it answers say what that holds. -/
theorem sluiceAccountsAndVoltage : Obligations.SluiceAccountsAndVoltage := by
  unfold Obligations.SluiceAccountsAndVoltage
  refine ⟨?capWrite, ?capWin, ?windowEnd, ?refill, ?launch, ?avsWindow, ?avsRaise, ?readback, ?repeated, ?stopped, ?avsCtl⟩
  case capWrite =>
    intro rq which v s a hw hr hheld hparts
    obtain ⟨hnot, hra, hpil⟩ := capReg_kept which
    exact Runs.intro rfl (execCapWrite_eq hr hw which v) ((execCapWrite_keeps rq which v s).mono rfl)
      ⟨s.writeCap_but (capReg which) v _ hnot hra, s.writeCap_chipRate _ v, fun k hk => State.writeCap_rates hparts _ v hk,
        State.writeCap_raised hheld hpil v⟩
  case capWin =>
    intro rq v s hw hr
    refine Runs.intro rfl (execCapWinWrite_eq hr hw v) ((execCapWinWrite_keeps rq v s).mono rfl)
      ⟨State.reg_of_regs (s.writeSluCtl_regs v) _, fun hchanged => ?_, fun hsame => ?_,
        (RegsOnly.setReg s Reg.SLU_CTL _).trans (RegsOnly.of_regs (s.writeSluCtl_regs v))⟩
    · rw [State.writeSluCtl_changed hchanged]
      exact ⟨congrArg SluX.winPend ((State.winRestart_keeps _).agree.slu rfl), fun k hk => State.winRestart_counts _ hk⟩
    · rw [State.writeSluCtl_same hsame]
      exact ⟨rfl, rfl⟩
  case windowEnd =>
    intro s hend hfirst
    have hac {k : Nat} (hk : k < s.profile.parts.length) := s.winBegin_ac hk
    exact Runs.intro rfl (congrArg Host.Outcome.next (State.windowStart_boundary hend hfirst)) ((execCapWindowEnd_keeps s).mono rfl)
      ⟨s.winBegin_keeps.agree.slu rfl, fun k hk => by rw [hac hk]; exact ⟨rfl, rfl, rfl, rfl⟩, fun k hk => by rw [hac hk]; exact ⟨rfl, rfl⟩⟩
  case refill =>
    intro s hfirst hnone
    refine Runs.intro rfl (execSluiceTick_refill hfirst hnone) ((execSluiceTick_keeps s).mono rfl)
      ⟨s.refillAll.windowStart_refill, fun k hk => ?_⟩
    have hk' : k < s.refillAll.profile.parts.length := by rwa [s.refillAll_keeps.agree.profile rfl]
    obtain ⟨hA, hC⟩ := s.refillAll.windowStart_levels hk'
    rw [hA, hC, s.refillAll_ac hk]
    exact ⟨rfl, rfl⟩
  case launch =>
    intro k s x hdone hin hparts hcand hready hfence hgrant _ _
    obtain ⟨t, ht⟩ := Option.isSome_iff_exists.mp hgrant
    have hnow : t.now = s.now := congrArg BitVec.toNat ((State.grant_keeps ht).agree.count rfl)
    exact Runs.intro rfl (execSluiceTick_launch hdone hin hparts hcand hready hfence ht) ((execSluiceTick_keeps s).mono rfl)
      (hnow ▸ t.launchTk_tkAt k x false)
  case avsWindow =>
    intro s hend
    refine Runs.intro rfl (execAvsWindowEnd_eq hend) ((execAvsWindowEnd_keeps s).mono rfl) ?_
    split
    · exact ⟨s.avsLatch_slack, rfl, fun _ => ⟨rfl, rfl⟩⟩
    · next hidle =>
      obtain ⟨hslack, hmin⟩ := s.avsDecide_latched s.slu.avsMin
      exact ⟨hslack, hmin, fun hheld => absurd (by simpa using hheld) hidle⟩
  case avsRaise =>
    intro s v n hend hbusy hboot hfault hon hfloor hmeasured hlow hroom hn hcap
    have hidle : ¬ (s.slu.busy.isSome || decide (s.getF Reg.BOOT_STS 0 4 < 6)) = true := by simp [hbusy, hboot]
    obtain ⟨m, hm⟩ := State.avsDecide_latched_raise hfault hon hfloor hmeasured hlow hroom hcap
    refine Runs.intro rfl ((execAvsWindowEnd_eq hend).trans (congrArg _ ((if_neg hidle).trans hm))) ((execAvsWindowEnd_keeps s).mono rfl) ?_
    rw [State.sendVoltage_slu]
    exact ⟨State.sendVoltage_target _ hn, rfl, rfl, State.sendVoltage_pending _ n, rfl, rfl⟩
  case readback =>
    intro mv s hbusy
    by_cases hnear : mv.val ≤ s.vTarget + 5 ∧ s.vTarget ≤ mv.val + 5
    · refine Runs.intro rfl (execAvsReadback_near hbusy hnear) ((execAvsReadback_keeps mv s).mono rfl)
        ⟨?_, fun _ => ?_, fun hfar => absurd hnear hfar⟩
      · refine (congrArg (fld · 0 12) (State.settle_avsSts _)).trans ?_
        exact (State.getF_setF_ne _ _ _ _ _ _ _ (by decide) (by decide)).trans (s.reported_out mv)
      · rw [State.settle_slu, State.reported_out, State.reported_target]
        exact ⟨rfl, rfl, (congrArg (bit · 31) (State.settle_avsSts _)).trans (State.getB_setB _ _ _ _ (by decide))⟩
    · refine Runs.intro rfl (execAvsReadback_far hbusy hnear) ((execAvsReadback_keeps mv s).mono rfl) ?_
      split
      · next habove =>
        refine ⟨?_, fun h => absurd h hnear, fun _ => ?_⟩
        · exact (congrArg (fld · 0 12) (State.recalc_but _ _ (by decide) (by decide))).trans (s.reported_out mv)
        · rw [(State.recalc_keeps _).agree.slu rfl]
          exact ⟨rfl, (Nat.max_eq_right (Nat.le_of_lt habove)).symm⟩
      · next hbelow => exact ⟨s.reported_out mv, fun h => absurd h hnear, fun _ => ⟨rfl, (Nat.max_eq_left (Nat.not_lt.mp hbelow)).symm⟩⟩
  case repeated =>
    intro c s hbusy hdue hretried
    exact Runs.intro rfl (execSluiceAvsFault_repeat hbusy hdue hretried) ((execSluiceAvsFault_keeps s).mono rfl) ⟨rfl, rfl, rfl⟩
  case stopped =>
    intro c s hbusy hdue hretried hheld
    have hsts := (s.avsStopped.raise_mild 7 0 Ev.SLUICE_AVS_FAULT none 255 255).reg Reg.SLU_AVS_STS (by decide)
    refine Runs.intro rfl (execSluiceAvsFault_stop hbusy hdue hretried) ((execSluiceAvsFault_keeps s).mono rfl)
      ⟨?_, (congrArg (bit · 30) hsts).trans s.avsStopped_fault, (congrArg (fld · 16 12) hsts).trans s.avsStopped_target,
        State.raise_sluice (s.avsStopped_warmHeld.trans hheld) (by decide) (by decide) ..⟩
    rw [(State.raise_keeps ..).agree.slu rfl]
    exact congrArg SluX.busy (State.settle_slu _)
  case avsCtl =>
    intro rq v s hw hr
    refine Runs.intro rfl (execAvsCtlWrite_eq hr hw v) ((execAvsCtlWrite_keeps rq v s).mono rfl)
      ⟨s.writeAvsCtl_reg v, fun hoff hon => ?_, s.writeAvsCtl_only v⟩
    rw [State.writeAvsCtl_restarts hoff hon]
    exact ⟨rfl, State.getB_setB _ _ _ _ (by decide)⟩

end Sys2Proof.Machine
end

section
/-!
PROOFS. The ferry's runs: fetch, delivery, launch, row writes and verification (R592, R594, R611, R614 to R622, R643); with them FerryRuns (O35) is
settled. What stopping a run on an island leaves is said once; the failures of a port and of the controller rest on it.
-/
namespace Sys2Proof.Machine

/-! ## Runs, raised bits and what mutes a page -/

theorem State.run_of_runs {s t : State} (h : t.runs = s.runs) (r : Nat) : t.run r = s.run r := by rw [State.run, State.run, h]

@[simp] theorem State.run_setRun_self (s : State) (r : Nat) (x : FerryRun) : (s.setRun r x).run r = x := Store.get_put_same ..

theorem State.rawBit_of_hdr {s t : State} (h : t.hdr = s.hdr) (ty i n : Nat) : t.rawBit ty i n = s.rawBit ty i n := by
  rw [State.rawBit, State.rawBit, State.hd_of_hdr h]

theorem State.setRun_nextRun (s : State) (r : Nat) (x : FerryRun) : (s.setRun r x).nextRun = s.nextRun := rfl

/-- An event raised on any page sets its bit unless the core domain is held (R785, R1011). -/
theorem State.raise_rawBit {s : State} {ty n : Nat} (hheld : s.warmHeld = false) (hn : n < 32) (hcode : (eventCode ty n).isSome = true) (i : Nat)
    (pl : Option (List Byte)) (c p : Nat) : (s.raise ty i n pl c p).rawBit ty i n = true :=
  State.raise_raw _ _ _ _ _ _ _ (by rw [State.mute, hheld]; rfl) hn hcode

theorem State.incSat_warmHeld {a : Nat} (h : Reg.PIL_STS 0 ≠ a) (s : State) (n : Nat) : (s.incSat a n).warmHeld = s.warmHeld := by
  unfold State.incSat
  exact State.warmHeld_congr rfl (State.reg_setReg_ne _ _ _ _ h)

theorem State.failStep_mild (s : State) (j status cause isl idx : Nat) : Mild s (s.failStep j status cause isl idx) := by
  unfold State.failStep
  extract_lets jb failed retired discarded
  have hfields : Mild s discarded := Mild.of_fields rfl rfl
  exact Mild.ite (Mild.refl s) (hfields.trans (State.raiseC_mild ..))

/-! ## Registers by their offset in the page -/

/-- Only registers at the listed offsets of their pages may have changed, on whichever page: what is written for a tile, an island or a context whose
number nothing bounds. -/
def RegsAt (l : List Nat) (s t : State) : Prop := ∀ a, l.contains (adrOff a) = false → t.reg a = s.reg a

section
variable {l : List Nat} {s t u : State}

theorem RegsAt.of_regs (h : t.regs = s.regs) : RegsAt l s t := fun a _ => State.reg_of_regs h a

theorem RegsAt.trans (h : RegsAt l s t) (k : RegsAt l t u) : RegsAt l s u := fun a ha => (k a ha).trans (h a ha)

theorem RegsAt.ite {c : Prop} [Decidable c] (ht : RegsAt l s t) (hu : RegsAt l s u) : RegsAt l s (if c then t else u) := by split <;> assumption

theorem RegsAt.put {a : Nat} (h : RegsAt l s t) (ha : adrOff a ∈ l) (v : Word) : RegsAt l s (t.setReg a v) := fun b hb =>
  (State.reg_setReg_ne _ _ _ _ fun hba => ne_of_not_contains hb ha (congrArg adrOff hba)).trans (h b hb)

/-- A register of page `i` of its type, by its address on page 0. -/
theorem RegsAt.page {a i : Nat} (h : RegsAt l s t) (ha : adrOff a ∈ l) (v : Word) : RegsAt l s (t.setReg (a + 0x1000 * i) v) :=
  h.put (by rwa [adrOff, Nat.add_mul_mod_self_left]) v

theorem RegsAt.foldl {α : Type} {m : List α} {step : State → α → State} (h : ∀ s x, RegsAt l s (step s x)) (s : State) : RegsAt l s (m.foldl step s) :=
  fun _ ha => State.reg_foldl_of_kept (fun s x _ => h s x _ ha) s

theorem RegsAt.warmHeld (h : RegsAt l s t) (hl : l.contains 0x44 = false) (hrungs : t.rungs = s.rungs) : t.warmHeld = s.warmHeld :=
  State.warmHeld_congr hrungs (h _ hl)

end

/-- The offsets of the registers written where a tile is released (ADP_TILES, RFSH_CTL, RFSH_STS, RFSH_PTR, RFSH_OWED, DIG_WRITE). -/
def releaseOffs : List Nat := [0x180, 0xA0, 0xA4, 0xA8, 0xAC, 0xB8, 0xBC]

theorem State.releaseNow_regsAt (s : State) (gt : Nat) : RegsAt releaseOffs s (s.releaseNow gt) := by
  unfold State.releaseNow
  extract_lets cleared noDigest noneOwed noCatchup biased idle phased
  have hdigest : RegsAt releaseOffs s noDigest := .page (.page (.of_regs rfl) (by decide) _) (by decide) _
  have hcatchup : RegsAt releaseOffs s noCatchup := .page (.page hdigest (by decide) _) (by decide) _
  have hbiased : RegsAt releaseOffs s biased := by
    unfold biased
    refine RegsAt.ite hcatchup (RegsAt.trans (t := noCatchup.setF (Reg.TIL_RFSH_STS gt) 1 2 1) ?_ (.of_regs rfl))
    exact .page hcatchup (by decide) _
  have hidle : RegsAt releaseOffs s idle := hbiased.trans (.of_regs rfl)
  have hphased : RegsAt releaseOffs s phased := by
    unfold phased
    split
    · next p _ =>
      refine RegsAt.trans (t := idle.setF (Reg.TIL_RFSH_CTL gt) 8 6 p) ?_ (.of_regs rfl)
      exact .page hidle (by decide) _
    · exact hidle
  exact .page (.page (.page hphased (by decide) _) (by decide) _) (by decide) _

theorem State.releaseTile_regsAt (s : State) (gt : Nat) : RegsAt releaseOffs s (s.releaseTile gt) := by
  have hadp : RegsAt releaseOffs s (s.setF (Reg.ISL_ADP_TILES (gt / 16)) (gt % 16) 1 0) := .page (.of_regs rfl) (by decide) _
  unfold State.releaseTile State.release
  exact RegsAt.ite (hadp.trans (.of_regs rfl)) (hadp.trans (State.releaseNow_regsAt _ gt))

/-! ## A run stops on an island (R621, R643) -/

/-- The member tiles of a run on an island are released, but for fenced ones. -/
def State.releaseRun (s : State) (x : FerryRun) (isl : Nat) : State :=
  (s.runTiles x isl).foldl (fun s gt => if s.tileFenced gt then s else s.releaseTile gt) s

theorem State.releaseRun_keeps (s : State) (x : FerryRun) (isl : Nat) : Keeps (Fld.regs ||| Fld.rows ||| Fld.tiles) s (s.releaseRun x isl) :=
  Keeps.foldl (fun _ _ h => Keeps.ite h (Keeps.step (State.releaseTile_keeps ..) rfl h)) (Keeps.refl _ s)

theorem State.releaseRun_regsAt (s : State) (x : FerryRun) (isl : Nat) : RegsAt releaseOffs s (s.releaseRun x isl) :=
  RegsAt.foldl (fun s gt => RegsAt.ite (.of_regs rfl) (s.releaseTile_regsAt gt)) s

/-- The state in which a run is marked failed on an island. -/
def State.markFailed (s : State) (r isl cause : Nat) : State :=
  s.setRun r { s.run r with failed := Store.put flagZero (s.run r).failed isl cause }

/-- Stopping a run marks it, releases its tiles unless the island is fenced, and may let its ticket acknowledge. -/
theorem State.stopRun_cases (s : State) (r isl cause : Nat) : ∃ m, s.stopRun r isl cause =
    { (if cause = 3 then s.markFailed r isl cause else (s.markFailed r isl cause).releaseRun (s.run r) isl) with tickets := m } := by
  unfold State.stopRun
  extract_lets x marked released
  split
  · split
    · exact ⟨_, rfl⟩
    · exact ⟨_, rfl⟩
  · exact ⟨_, rfl⟩

theorem State.stopRun_regsAt (s : State) (r isl cause : Nat) : RegsAt releaseOffs s (s.stopRun r isl cause) := by
  obtain ⟨m, he⟩ := s.stopRun_cases r isl cause
  have hreleased := RegsAt.ite (c := cause = 3) (.of_regs rfl) ((s.markFailed r isl cause).releaseRun_regsAt (s.run r) isl)
  rw [he]
  exact (RegsAt.of_regs rfl).trans (hreleased.trans (.of_regs rfl))

theorem State.stopRun_run (s : State) (r isl cause : Nat) :
    (s.stopRun r isl cause).run r = { s.run r with failed := Store.put flagZero (s.run r).failed isl cause } := by
  obtain ⟨m, he⟩ := s.stopRun_cases r isl cause
  have hruns : (if cause = 3 then s.markFailed r isl cause else (s.markFailed r isl cause).releaseRun (s.run r) isl).runs =
      (s.markFailed r isl cause).runs := by
    split
    · rfl
    · exact (State.releaseRun_keeps ..).agree.runs rfl
  rw [he]
  exact (State.run_of_runs hruns r).trans (State.run_setRun_self ..)

theorem State.stopRun_bad (s : State) (r isl cause i : Nat) :
    ((s.stopRun r isl cause).run r).bad i = if i = isl then cause != 0 else (s.run r).bad i := by
  rw [s.stopRun_run, FerryRun.bad, cnt, Store.get_put]
  split <;> rfl

/-! ## A run fails at an island's port (R621, R622, R643) -/

/-- The run is stopped at a port, its slot marked for a second fetch where that is due, and the failure latched. -/
def State.portStopped (s : State) (r isl cause : Nat) : State :=
  let x := s.run r
  let again := !x.cist && !x.copies && (cause = 1 || cause = 2 || cause = 4) && x.failed.isEmpty
  let u := if again then { s with refetch := s.refetch ++ [(x.plan, x.cmd, x.gt, s.runSlot x)] } else s
  (u.stopRun r isl cause).latchFail x isl cause false

/-- A shard's fault is counted and raised, and the step of the run's job fails. -/
def State.failShard (s : State) (x : FerryRun) (isl count n : Nat) : State :=
  ((s.incSat count 1).raiseC 6 0 n none x.ctx).failStep x.job 13 4 isl 0xFF

section
variable {s : State} {r isl : Nat} (hgood : (s.run r).bad isl = false)
include hgood

theorem State.failPort_auth :
    s.failPort r isl 1 = (s.portStopped r isl 1).failShard (s.run r) isl Reg.FRY_AUTH_FAIL_CNT Ev.FRY_SHARD_AUTH := by
  simp only [State.failPort, hgood, Bool.false_eq_true, if_false]
  rfl

theorem State.failPort_digest :
    s.failPort r isl 2 = (s.portStopped r isl 2).failShard (s.run r) isl Reg.FRY_DIGEST_FAIL_CNT Ev.FRY_SHARD_DIGEST := by
  simp only [State.failPort, hgood, Bool.false_eq_true, if_false]
  rfl

end

theorem State.latchFail_only (s : State) (x : FerryRun) (isl cause : Nat) (ctrl : Bool) :
    RegsOnly [Reg.FRY_LAST_FAIL, Reg.FRY_LAST_FAIL_SRC] s (s.latchFail x isl cause ctrl) :=
  ((RegsOnly.of_regs rfl).put List.mem_cons_self _).put (List.mem_cons_of_mem _ List.mem_cons_self) _

theorem State.portStopped_warmHeld (s : State) (r isl cause : Nat) : (s.portStopped r isl cause).warmHeld = s.warmHeld := by
  unfold State.portStopped
  extract_lets x again u
  have hu : u.warmHeld = s.warmHeld := by
    unfold u
    split <;> rfl
  have hstop := (u.stopRun_regsAt r isl cause).warmHeld (by decide) ((u.stopRun_keeps r isl cause).agree.rungs rfl)
  exact (State.warmHeld_congr ((State.latchFail_keeps ..).agree.rungs rfl) (State.latchFail_only _ _ _ _ _ _ (by decide))).trans (hstop.trans hu)

theorem State.portStopped_run (s : State) (r isl cause : Nat) :
    (s.portStopped r isl cause).run r = { s.run r with failed := Store.put flagZero (s.run r).failed isl cause } := by
  unfold State.portStopped
  extract_lets x again u
  have hu : u.run r = s.run r := by
    unfold u
    split <;> rfl
  rw [State.run_of_runs ((State.latchFail_keeps ..).agree.runs rfl), State.stopRun_run, hu]

theorem State.portStopped_bad (s : State) (r isl : Nat) {cause : Nat} (hcause : cause ≠ 0) : ((s.portStopped r isl cause).run r).bad isl = true := by
  rw [State.portStopped_run, FerryRun.bad, cnt, Store.get_put_same]
  exact bne_iff_ne.mpr hcause

theorem State.failShard_run (s : State) (x : FerryRun) (isl count n r : Nat) : (s.failShard x isl count n).run r = s.run r :=
  State.run_of_runs (((State.failStep_keeps ..).agree.runs rfl).trans ((State.raiseC_keeps ..).agree.runs rfl)) r

theorem State.failShard_rawBit {s : State} {count n : Nat} (hheld : s.warmHeld = false) (hcount : Reg.PIL_STS 0 ≠ count) (hn : n < 32)
    (hcode : (eventCode 6 n).isSome = true) (x : FerryRun) (isl : Nat) : (s.failShard x isl count n).rawBit 6 0 n = true :=
  (State.failStep_mild ..).raw _ _ _ (State.raise_rawBit ((State.incSat_warmHeld hcount s 1).trans hheld) hn hcode ..)

section
variable {s : State} {r isl : Nat} (hgood : (s.run r).bad isl = false) (hheld : s.warmHeld = false)
include hgood hheld

/-- A header or a tag that does not fit fails the run at the port with FRY_SHARD_AUTH. -/
theorem State.failPort_auth_failed : ((s.failPort r isl 1).run r).bad isl = true ∧ (s.failPort r isl 1).rawBit 6 0 Ev.FRY_SHARD_AUTH = true := by
  rw [State.failPort_auth hgood, State.failShard_run]
  exact ⟨s.portStopped_bad r isl (by decide),
    State.failShard_rawBit ((s.portStopped_warmHeld ..).trans hheld) (by decide) (by decide) (by decide) ..⟩

/-- A digest that does not fit fails it with FRY_SHARD_DIGEST. -/
theorem State.failPort_digest_failed : ((s.failPort r isl 2).run r).bad isl = true ∧ (s.failPort r isl 2).rawBit 6 0 Ev.FRY_SHARD_DIGEST = true := by
  rw [State.failPort_digest hgood, State.failShard_run]
  exact ⟨s.portStopped_bad r isl (by decide),
    State.failShard_rawBit ((s.portStopped_warmHeld ..).trans hheld) (by decide) (by decide) (by decide) ..⟩

end

/-- A failure at a port leaves the run as stopping it does, whatever the cause. -/
theorem State.failPort_runs {s : State} {r isl : Nat} (hgood : (s.run r).bad isl = false) (cause : Nat) :
    (s.failPort r isl cause).runs = (s.portStopped r isl cause).runs := by
  unfold State.failPort State.portStopped
  dsimp only
  rw [hgood, if_neg Bool.false_ne_true, (State.failRunStep_keeps ..).agree.runs rfl]
  split
  · rw [(State.raiseC_keeps ..).agree.runs rfl, (State.incSat_keeps ..).agree.runs rfl]
  · split
    · rw [(State.raiseC_keeps ..).agree.runs rfl, (State.incSat_keeps ..).agree.runs rfl]
    · rfl

theorem State.failPort_verified (s : State) (r isl cause : Nat) : ((s.failPort r isl cause).run r).verified = (s.run r).verified := by
  cases hbad : (s.run r).bad isl with
  | true => simp only [State.failPort, hbad, if_true]
  | false => rw [State.run_of_runs (State.failPort_runs hbad cause), State.portStopped_run]

/-! ## A run fails at the controller (R592, R608) -/

/-- The run stops on an island where it has not failed yet. -/
def State.stopUnfailed (r cause : Nat) (s : State) (isl : Nat) : State := if (s.run r).bad isl then s else s.stopRun r isl cause

theorem State.stopUnfailed_bad (s : State) (r isl i : Nat) {cause : Nat} (hcause : cause ≠ 0) :
    ((s.stopUnfailed r cause isl).run r).bad i = (decide (i = isl) || (s.run r).bad i) := by
  unfold State.stopUnfailed
  split
  · next hbad =>
    by_cases hi : i = isl
    · simp [hi, hbad]
    · simp [hi]
  · rw [s.stopRun_bad]
    by_cases hi : i = isl
    · simp [hi, hcause]
    · simp [hi]

theorem State.foldl_stopUnfailed_bad {cause : Nat} (hcause : cause ≠ 0) (r i : Nat) (l : List Nat) (s : State) :
    ((l.foldl (State.stopUnfailed r cause) s).run r).bad i = (decide (i ∈ l) || (s.run r).bad i) := by
  induction l generalizing s with
  | nil => simp
  | cons isl l ih => rw [List.foldl_cons, ih, s.stopUnfailed_bad r isl i hcause]; simp [Bool.or_left_comm, Bool.or_assoc]

theorem State.foldl_stopUnfailed_hdr (r cause : Nat) (l : List Nat) (s : State) : (l.foldl (State.stopUnfailed r cause) s).hdr = s.hdr :=
  (Keeps.foldl (m := Fld.regs ||| Fld.tickets ||| Fld.rows ||| Fld.tiles ||| Fld.runs)
    (fun _ _ h => Keeps.ite h (Keeps.step (State.stopRun_keeps ..) rfl h)) (Keeps.refl _ s)).agree.hdr rfl

/-- A cistern error fails the run on every member island. -/
theorem State.failCtrl_cist_bad (s : State) (r : Nat) : ∀ i ∈ s.runIslands (s.run r), ((s.failCtrl r 5).run r).bad i = true := by
  intro i hi
  have hruns : (s.failCtrl r 5).runs = ((s.runIslands (s.run r)).foldl (State.stopUnfailed r 5) s).runs :=
    ((State.failRunStep_keeps ..).agree.runs rfl).trans ((State.latchFail_keeps ..).agree.runs rfl)
  rw [State.run_of_runs hruns, State.foldl_stopUnfailed_bad (by decide)]
  simp [hi]

theorem State.failCtrl_cist_raw {s : State} {ty i n : Nat} (h : s.rawBit ty i n = true) (r : Nat) : (s.failCtrl r 5).rawBit ty i n = true := by
  refine (State.failStep_mild ..).raw _ _ _ ?_
  exact (State.rawBit_of_hdr (((State.latchFail_keeps ..).agree.hdr rfl).trans (State.foldl_stopUnfailed_hdr r 5 _ s)) ty i n).trans h

theorem execFryCistErr_eq {s : State} {r : Nat} (hcist : (s.run r).cist = true) (hnone : (s.run r).failed = []) : execFryCistErr r s =
    .next (((s.incSat Reg.FRY_CIST_ERR_CNT 1).raiseC 6 0 Ev.FRY_CIST_ERR none (s.run r).ctx).failCtrl r 5) := by
  simp [execFryCistErr, hcist, hnone]

/-! ## Fetch (R608, R615, R622) -/

/-- A slot is read: 96 whole blocks and the first 128 bytes of the last count at their stacks. -/
def State.readSlot (s : State) (b : Nat) : State := (List.range 97).foldl (fun s i => s.hbCountRead (b + i) (if i = 96 then 128 else 4096)) s

theorem State.readSlot_keeps (s : State) (b : Nat) : Keeps Fld.regs s (s.readSlot b) :=
  Keeps.foldl (fun _ _ h => Keeps.step (State.hbCountRead_keeps ..) rfl h) (Keeps.refl _ s)

theorem execFerryFetch_again {s : State} {j h cmd : Nat} {f : Nat × Nat × Nat × Nat} (data : List Byte) (ok : Bool)
    (hdue : (s.refetch.find? fun f => f.1 = h && (if h = 0 then f.2.2.1 = (if j = 0 && h = 0 then cmd else 0) else f.2.1 = cmd)) = some f) :
    ∃ u, Keeps Fld.regs { s with refetch := s.refetch.erase f } u ∧ execFerryFetch j h cmd data ok s =
      .next (if ok || u.badSlots.contains f.2.2.2 || 1024 ≤ u.badSlots.length then u else { u with badSlots := u.badSlots ++ [f.2.2.2] }) := by
  refine ⟨(State.readSlot { s with refetch := s.refetch.erase f } f.2.2.2).add64 Reg.FRY_HB_BYTES_LO Reg.FRY_HB_BYTES_HI shardLen,
    (State.readSlot_keeps ..).trans (State.add64_keeps ..), ?_⟩
  unfold execFerryFetch
  dsimp only
  rw [hdue]
  rfl

section
variable {s : State} {j h cmd l : Nat} {x : FerryRun} (data : List Byte) (ok : Bool) (hnone : s.refetch = []) (hspec : s.runSpec j h cmd = some (x, l))
  (hlead : l ≤ s.now + 16 * max 1 (s.getF Reg.FRY_CTL 8 8))
  (hfresh : (s.runs.any fun e => e.2.job = j && e.2.plan = h && (if h = 0 then e.2.gt = cmd else e.2.cmd = cmd)) = false)
include hnone hspec hlead hfresh

theorem execFerryFetch_start : execFerryFetch j h cmd data ok s = .next (
    let u : State := { s with nextRun := s.nextRun + 1 }
    if x.cist then (u.add64 Reg.FRY_CIST_BYTES_LO Reg.FRY_CIST_BYTES_HI shardLen).setRun s.nextRun { x with buf := padTo shardLen data }
    else if s.badSlots.contains (s.runSlot x) then (u.setRun s.nextRun x).failCtrl s.nextRun 6
    else (u.countSlot x).setRun s.nextRun { x with buf := (s.slotBytes x).1, poison := (s.slotBytes x).2 }) := by
  have hready : ¬ ((decide (s.now + 16 * max 1 (s.getF Reg.FRY_CTL 8 8) < l)
      || s.runs.any fun e => e.2.job = j && e.2.plan = h && (if h = 0 then e.2.gt = cmd else e.2.cmd = cmd)) = true) := by
    rw [hfresh, Bool.or_false, decide_eq_true_iff]
    exact Nat.not_lt.mpr hlead
  simp only [execFerryFetch, hnone, List.find?_nil, hspec]
  rw [if_neg hready]
  rfl

end

/-! ## Delivery (R614 to R618) -/

section
variable {s : State} {r n : Nat} {isl : Isl} (hmember : (s.runIslands (s.run r)).contains isl.val = true) (hshard : (s.run r).copies = false)
  (hfence : s.islFenced isl = false) (hgood : (s.run r).bad isl = false) (hmore : cnt (s.run r).arrived isl < min n (s.reach (s.run r) isl))
include hmember hshard hfence hgood hmore

/-- The state in which the bytes that reached an island are recorded. -/
def State.delivered (s : State) (r isl n : Nat) : State := s.setRun r { s.run r with arrived := Store.put flagZero (s.run r).arrived isl n }

theorem execFerryDelivery_eq : execFerryDelivery r isl n s = .next (
    let x := s.run r
    let m := min n (s.reach x isl)
    if cnt x.arrived isl < 64 && 64 ≤ m && !x.hdrOk then (s.delivered r isl m).failPort r isl 1
    else if x.poison.any fun l => 64 * l < m then (s.delivered r isl m).failPort r isl 4 else s.delivered r isl m) := by
  unfold execFerryDelivery
  dsimp only
  rw [if_neg (by rw [hmember, hshard]; decide), if_neg (by rw [hfence]; decide), if_neg (Nat.not_le.mpr hmore), hgood]
  rfl

end

theorem State.delivered_run (s : State) (r isl n : Nat) :
    (s.delivered r isl n).run r = { s.run r with arrived := Store.put flagZero (s.run r).arrived isl n } := State.run_setRun_self ..

/-! ## The launch of a run's ticket (R611) -/

theorem FerryRun.isOf_lane (y : FerryRun) {x : Ticket} {lane : Nat} (hx : x.uindex ≠ 4) (hlane : lane ≠ 4) :
    y.isOf { x with uindex := lane } = y.isOf x := by
  have hne : (lane != 4) = (x.uindex != 4) := (bne_iff_ne.mpr hlane).trans (bne_iff_ne.mpr hx).symm
  simp only [FerryRun.isOf, hne]

/-- A lane taken is one of four. -/
theorem find?_range_four_getD (p : Nat → Bool) : ((List.range 4).find? p).getD 0 < 4 := by
  cases hfound : (List.range 4).find? p with
  | none => decide
  | some lane => exact List.mem_range.mp (List.mem_of_find?_eq_some hfound)

/-- A run's ticket that launches takes part or not as told, and stays the ticket of the same run. -/
theorem State.launchTk_run (s : State) (k : Nat) {x : Ticket} (noAct : Bool) (hx : x.uindex ≠ 4) :
    ((s.launchTk k x noAct).tkAt k).noAct = noAct ∧ ∀ y : FerryRun, y.isOf ((s.launchTk k x noAct).tkAt k) = y.isOf x := by
  generalize hu : s.launchTk k x noAct = u
  unfold State.launchTk at hu
  extract_lets late lane y x' v w at hu
  have hx' : u.tkAt k = x' := by
    rw [← hu]
    split
    · exact State.tkAt_setTk_self ..
    · rw [State.tkAt, (State.raiseC_keeps ..).agree.tickets rfl]
      exact State.tkAt_setTk_self s k x'
  have hlane : lane ≠ 4 := Nat.ne_of_lt (find?_range_four_getD _)
  have hy (r : FerryRun) : r.isOf y = r.isOf x := by
    unfold y
    split
    · exact r.isOf_lane hx hlane
    · rfl
  rw [hx']
  exact ⟨rfl, hy⟩

/-- A ferry ticket costs no drops at its launch: rows are granted one by one (R528). -/
theorem State.grant_cost_ferry (s : State) (isl k : Nat) {x : Ticket} (h : x.action = 7) : s.grant isl (s.cost k x) = some s := by
  have hcost : s.cost k x = (0, 0) := by simp [State.cost, h]
  rw [hcost, State.grant, if_pos rfl]

theorem execWriteTiles_eq {s : State} {isl : Isl} {idx : TktIx} (haction : (s.tk isl idx).action = 7) (hunit : (s.tk isl idx).uindex < 4)
    (hstate : (s.tk isl idx).state = 1 ∨ (s.tk isl idx).state = 2) (hdue : (s.tk isl idx).launch ≤ s.now)
    (hcand : s.candidates (s.acctOf isl) = [isl.val * 256 + idx.val]) (hready : s.ready (isl.val * 256 + idx.val) (s.tk isl idx) = true)
    (hfence : s.unitFenced (isl.val * 256 + idx.val) (s.tk isl idx) = false) (hrun : s.runOf (s.tk isl idx) = none) :
    execWriteTiles isl idx s = .next (s.launchTk (isl.val * 256 + idx.val) (s.tk isl idx) false) := by
  have hk : (isl.val * 256 + idx.val) / 256 = isl.val := by omega
  have hunit4 : (s.tk isl idx).uindex ≠ 4 := Nat.ne_of_lt hunit
  have hlaunch : s.tryLaunch (isl.val * 256 + idx.val) = s.launchTk (isl.val * 256 + idx.val) (s.tk isl idx) false := by
    have hwaits : ¬ (!(decide ((s.tk isl idx).state = 1) || decide ((s.tk isl idx).state = 2)) || decide (s.now < (s.tk isl idx).launch)) = true := by
      simpa using ⟨hstate.resolve_left, hdue⟩
    refine (if_neg hwaits).trans ?_
    rw [hk, State.grantPass, hcand, List.foldl_cons, List.foldl_nil, State.visit_granted hready hfence (s.grant_cost_ferry _ _ haction)]
    rfl
  obtain ⟨-, hsame⟩ := s.launchTk_run (isl.val * 256 + idx.val) false hunit4
  have hruns : (s.launchTk (isl.val * 256 + idx.val) (s.tk isl idx) false).runs = s.runs := (State.launchTk_keeps ..).agree.runs rfl
  have hnone : (s.launchTk (isl.val * 256 + idx.val) (s.tk isl idx) false).runOf
      ((s.launchTk (isl.val * 256 + idx.val) (s.tk isl idx) false).tkAt (isl.val * 256 + idx.val)) = none := by
    simpa only [State.runOf, hruns, hsame] using hrun
  have hpred : ¬ (!(decide ((s.tk isl idx).action = 7) && (s.tk isl idx).uindex != 4)) = true := by simp [haction, hunit4]
  unfold execWriteTiles State.launchAndRun
  dsimp only
  refine congrArg _ ((if_neg hpred).trans ?_)
  rw [hlaunch, hnone]
  exact ite_self _

/-! ## Rows (R619, R620) -/

theorem TileX.complete_take (x : TileX) {d : List Byte} (hd : d.length = 512) : (x.complete d).take 512 = d := by
  unfold TileX.complete
  simp only [List.append_assoc]
  exact List.take_left' hd

theorem rowLevels_length (b : List Byte) : (rowLevels b).length = 512 := by simp [rowLevels, tabulate]

/-- What a row write stores in its row: the levels given with their checksum and spare columns, their term, the stamp of the tick. -/
def State.writtenRow (s : State) (gt r : Nat) (d : List Byte) : RowRec :=
  { levels := (s.tx gt).complete d, term := rowTerm r ((s.tx gt).complete d), valid := true, fresh := true, stamp := s.now }

theorem State.rowWrite_rows (s : State) (gt r : Nat) (d : List Byte) : (s.rowWrite gt r d).rows = (s.setRow gt r (s.writtenRow gt r d)).rows := by
  have hnow {u : State} (h : u.count = s.count) : u.now = s.now := congrArg BitVec.toNat h
  rw [State.rowWrite, (State.clearLate_keeps ..).agree.rows rfl, (State.countValid_keeps ..).agree.rows rfl, (State.add64_keeps ..).agree.rows rfl,
    State.updTx_rows, State.setF, State.setReg_rows, State.setRow_rows, (State.digXor_keeps ..).agree.rows rfl,
    hnow ((State.digXor_keeps ..).agree.count rfl), ← State.setRow_rows, ← State.writtenRow]

/-- Row `i` of a tile holds levels written at a tick. -/
def State.RowHolds (s : State) (i : Nat) (d : List Byte) (now gt : Nat) : Prop :=
  (s.row gt i).valid = true ∧ (s.row gt i).levels.take 512 = d ∧ (s.row gt i).stamp = now

/-- A shard's row is written to a tile, whose levels are then no adapted ones (R456). -/
def State.writeShardRow (isl i : Nat) (d : List Byte) (s : State) (gt : Nat) : State := (s.setF (Reg.ISL_ADP_TILES isl) (gt % 16) 1 0).rowWrite gt i d

theorem State.writeShardRow_keeps (isl i : Nat) (d : List Byte) (s : State) (gt : Nat) :
    Keeps (Fld.regs ||| Fld.rows ||| Fld.tiles) s (s.writeShardRow isl i d gt) :=
  Keeps.step (State.rowWrite_keeps ..) rfl ((State.setF_keeps ..).mono rfl)

theorem State.foldl_writeShardRow_keeps (isl i : Nat) (d : List Byte) (l : List Nat) (s : State) :
    Keeps (Fld.regs ||| Fld.rows ||| Fld.tiles) s (l.foldl (State.writeShardRow isl i d) s) :=
  Keeps.foldl (fun _ _ h => h.trans (State.writeShardRow_keeps ..)) (Keeps.refl _ s)

theorem State.writeShardRow_holds {isl i : Nat} {d : List Byte} (hd : d.length = 512) (s : State) (gt : Nat) {t : Nat}
    (h : t = gt ∨ s.RowHolds i d s.now t) : (s.writeShardRow isl i d gt).RowHolds i d s.now t := by
  have hrow : (s.writeShardRow isl i d gt).row t i = if t * 1024 + i = gt * 1024 + i then s.writtenRow gt i d else s.row t i := by
    rw [← State.row_setRow, State.row, State.writeShardRow, State.rowWrite_rows]
    rfl
  rw [State.RowHolds, hrow]
  split
  · exact ⟨rfl, TileX.complete_take _ hd, rfl⟩
  · next hne => exact h.resolve_left fun ht => hne (by rw [ht])

theorem State.foldl_writeShardRow_holds {isl i : Nat} {d : List Byte} (hd : d.length = 512) (l : List Nat) (s : State) {t : Nat}
    (h : t ∈ l ∨ s.RowHolds i d s.now t) : (l.foldl (State.writeShardRow isl i d) s).RowHolds i d s.now t := by
  induction l generalizing s with
  | nil => exact h.resolve_left List.not_mem_nil
  | cons gt l ih =>
    have hnow : (s.writeShardRow isl i d gt).now = s.now := congrArg BitVec.toNat ((State.writeShardRow_keeps ..).agree.count rfl)
    rw [List.foldl_cons, ← hnow]
    refine ih _ ?_
    rw [hnow]
    rcases h with hmem | hheld
    · exact (List.mem_cons.mp hmem).symm.imp id fun ht => State.writeShardRow_holds hd s gt (.inl ht)
    · exact .inr (State.writeShardRow_holds hd s gt (.inr hheld))

/-- A shard that has not verified on the island cannot end there. -/
theorem State.finishRun_unverified {s : State} {r isl : Nat} (hshard : (s.run r).copies = false) (hopen : (s.run r).verified.contains isl = false) :
    s.finishRun r isl = s := by
  simp only [State.finishRun, hshard, hopen, Bool.or_false, Bool.not_false, Bool.or_true, Bool.true_or, if_true]

section
variable {s u : State} {isl : Isl} {idx : TktIx} {r : Nat} {x : FerryRun} (plain : List Byte) (hrun : s.runOf (s.tkAt (isl.val * 256 + idx.val)) = some (r, x))
  (hlive : (s.tkAt (isl.val * 256 + idx.val)).state = 3 ∨ (s.tkAt (isl.val * 256 + idx.val)).state = 4)
  (hact : (s.tkAt (isl.val * 256 + idx.val)).noAct = false) (hran : (s.tkAt (isl.val * 256 + idx.val)).ran = false)
  (hshard : x.copies = false) (hgood : x.bad isl = false) (hmore : cnt x.rows isl < 1024)
  (hdue : cnt x.rows isl = 0 ∧ (s.tkAt (isl.val * 256 + idx.val)).launch ≤ s.now ∨ cnt x.rows isl ≠ 0 ∧ cnt x.lastRow isl + 5 ≤ s.now)
  (hbytes : 64 + 384 * (cnt x.rows isl + 1) ≤ cnt x.arrived isl)
  (hfree : ((s.runTiles x isl).all fun t => s.tileFree t (cnt x.rows isl) && s.locked t && !s.tileFenced t && !x.skipped.contains t) = true)
  (hgrant : s.grant isl ((s.runTiles x isl).length, 4) = some u)
include hrun hlive hact hran hshard hgood hmore hdue hbytes hfree hgrant

/-- A row is due: its bytes have arrived, its tiles are free, locked and not fenced, and its drops are granted. -/
theorem execFerryRowWrite_eq : execFerryRowWrite isl idx plain s = .next (
    let t := (s.runTiles x isl).foldl (State.writeShardRow isl (cnt x.rows isl) (rowLevels plain)) u
    (t.setRun r { x with rows := Store.put flagZero x.rows isl (cnt x.rows isl + 1), lastRow := Store.put flagZero x.lastRow isl t.now }).finishRun r
      isl) := by
  have htile : ∀ t ∈ s.runTiles x isl, s.tileFree t (cnt x.rows isl) = true ∧ s.locked t = true ∧ s.tileFenced t = false ∧ x.skipped.contains t = false :=
    fun t ht => by simpa [and_assoc] using List.all_eq_true.mp hfree t ht
  have hfreeAll : (s.runTiles x isl).all (s.tileFree · (cnt x.rows isl)) = true := List.all_eq_true.mpr fun t ht => (htile t ht).1
  have hlocked : (s.runTiles x isl).find? (fun gt => !s.locked gt) = none := List.find?_eq_none.mpr fun t ht => by simp [(htile t ht).2.1]
  have hstate : (decide ((s.tkAt (isl.val * 256 + idx.val)).state = 3) || decide ((s.tkAt (isl.val * 256 + idx.val)).state = 4)) = true := by
    simpa using hlive
  have hlaunched : (decide (cnt x.rows isl = 0) && decide (s.now < (s.tkAt (isl.val * 256 + idx.val)).launch)) = false := by
    simp only [Bool.and_eq_false_iff, decide_eq_false_iff_not]
    omega
  have hspaced : (cnt x.rows isl != 0 && decide (s.now < cnt x.lastRow isl + 5)) = false := by
    simp only [Bool.and_eq_false_iff, decide_eq_false_iff_not, bne_eq_false_iff_eq]
    omega
  unfold execFerryRowWrite
  extract_lets k t0
  rw [hrun]
  dsimp -zeta only
  extract_lets i tiles new x' live
  have hnew : new = [] := List.filter_eq_nil_iff.mpr fun t ht => by simp [(htile t ht).2.2.1]
  have hx' : x' = x := by
    unfold x'
    rw [hnew, List.append_nil]
  have hliveTiles : live = tiles := List.filter_eq_self.mpr fun t ht => by rw [hx', (htile t ht).2.2.2]; rfl
  rw [hliveTiles, hx', hstate, hact, hran, hgood, hlaunched, hspaced, hshard, decide_eq_false (Nat.not_le.mpr hmore),
    decide_eq_false (Nat.not_lt.mpr hbytes), hfreeAll, hlocked, hgrant]
  rfl

end

/-! ## Verification (R595, R620) -/

/-- A scale table, where the shard has one, is loaded into the run's tiles on the island. -/
def State.loadRunScales (s : State) (x : FerryRun) (isl : Nat) (blk : Option Nat) : State :=
  match blk with
  | some b => ((s.runTiles x isl).filter fun gt => !x.skipped.contains gt).foldl (fun u gt => u.loadScales gt (s.hbBytes b 0 1152)) s
  | none => s

theorem State.loadRunScales_keeps (s : State) (x : FerryRun) (isl : Nat) (blk : Option Nat) : Keeps Fld.regs s (s.loadRunScales x isl blk) := by
  cases blk with
  | none => exact Keeps.refl _ s
  | some b => exact Keeps.foldl (fun _ _ h => h.trans (State.loadScales_keeps ..)) (Keeps.refl _ s)

theorem State.finishRun_verified (s : State) (r isl : Nat) : ((s.finishRun r isl).run r).verified = (s.run r).verified := by
  unfold State.finishRun
  extract_lets x blk loaded
  have hloaded : loaded.runs = s.runs := (s.loadRunScales_keeps x isl blk).agree.runs rfl
  split
  · rfl
  · split
    · exact s.failPort_verified r isl 4
    · split
      · rw [State.run_of_runs (((State.setTk_keeps ..).agree.runs rfl).trans hloaded)]
      · rw [State.run_of_runs hloaded]

theorem execFerryVerify_eq {s : State} {isl : Isl} {idx : TktIx} {r : Nat} {x : FerryRun} (tagOk digestOk : Bool)
    (hrun : s.runOf (s.tk isl idx) = some (r, x)) (hlive : (s.tk isl idx).state = 3 ∨ (s.tk isl idx).state = 4)
    (hact : (s.tk isl idx).noAct = false) (hshard : x.copies = false) (hgood : x.bad isl = false) (hbytes : shardLen ≤ cnt x.arrived isl)
    (hopen : x.verified.contains isl.val = false) : execFerryVerify isl idx tagOk digestOk s = .next (
      if !tagOk then s.failPort r isl 1 else if !digestOk then s.failPort r isl 2
      else (s.setRun r { x with verified := isl.val :: x.verified }).finishRun r isl) := by
  have hready : ¬ (!(decide ((s.tk isl idx).state = 3) || decide ((s.tk isl idx).state = 4)) || (s.tk isl idx).noAct || x.copies || x.bad isl
      || decide (cnt x.arrived isl < shardLen) || x.verified.contains isl.val) = true := by
    rw [hact, hshard, hgood, hopen, decide_eq_false (Nat.not_lt.mpr hbytes)]
    simpa using hlive.resolve_left
  unfold execFerryVerify
  dsimp only
  rw [hrun]
  dsimp only
  rw [if_neg hready]

theorem State.runIslands_congr {s t : State} (hplans : t.plans = s.plans) (hprofile : t.profile = s.profile) (x : FerryRun) :
    t.runIslands x = s.runIslands x := by
  simp only [State.runIslands, State.runCmd, State.cmdIslands, State.gridIsl, State.partDef, State.plan, hplans, hprofile]

/-! ## The obligation -/

/-- Settles O35: each command reaches one of the equations above; what they leave in the run, in the rows and in the raised bits is said by the laws of
the operations they are made of. -/
theorem ferryRuns : Obligations.FerryRuns := by
  unfold Obligations.FerryRuns
  refine ⟨?fetch, ?again, ?cistern, ?delivery, ?header, ?launch, ?row, ?verify⟩
  case fetch =>
    intro j h cmd data ok x l s hnone hspec hlead hfresh hslot
    refine Runs.intro rfl (execFerryFetch_start data ok hnone hspec hlead hfresh) ((execFerryFetch_keeps j h cmd data ok s).mono rfl) ?_
    dsimp only
    split
    · exact ⟨(State.setRun_nextRun ..).trans ((State.add64_keeps ..).agree.nextRun rfl), State.run_setRun_self ..⟩
    · next hcist =>
      rw [hslot.resolve_left hcist, if_neg Bool.false_ne_true]
      exact ⟨(State.setRun_nextRun ..).trans ((State.countSlot_keeps ..).agree.nextRun rfl), State.run_setRun_self ..⟩
  case again =>
    intro j h cmd data ok f s hdue
    obtain ⟨u, hkeeps, he⟩ := execFerryFetch_again data ok hdue
    refine Runs.intro rfl he ((execFerryFetch_keeps j h cmd data ok s).mono rfl) ?_
    have hbad : u.badSlots = s.badSlots := hkeeps.agree.badSlots rfl
    rw [hbad]
    split
    · exact ⟨hkeeps.agree.refetch rfl, hbad, hkeeps.agree.runs rfl⟩
    · exact ⟨hkeeps.agree.refetch rfl, rfl, hkeeps.agree.runs rfl⟩
  case cistern =>
    intro r s hcist hnone hheld
    refine Runs.intro rfl (execFryCistErr_eq hcist hnone) ((execFryCistErr_keeps r s).mono rfl) ⟨State.failCtrl_cist_raw ?_ r, ?_⟩
    · exact State.raise_rawBit ((State.incSat_warmHeld (by decide) s 1).trans hheld) (by decide) (by decide) ..
    · have hkeeps := (((s.incSat_keeps Reg.FRY_CIST_ERR_CNT 1).mono rfl).trans (State.raiseC_keeps _ 6 0 Ev.FRY_CIST_ERR none (s.run r).ctx)).agree
      have hbad := State.failCtrl_cist_bad ((s.incSat Reg.FRY_CIST_ERR_CNT 1).raiseC 6 0 Ev.FRY_CIST_ERR none (s.run r).ctx) r
      rwa [State.run_of_runs (hkeeps.runs rfl), State.runIslands_congr (hkeeps.plans rfl) (hkeeps.profile rfl)] at hbad
  case delivery =>
    intro r isl n s x m hmember hshard hfence hgood hmore hheader hpoison
    refine Runs.intro rfl (execFerryDelivery_eq hmember hshard hfence hgood hmore) ((execFerryDelivery_keeps r isl n s).mono rfl) ?_
    have hfits : (decide (cnt x.arrived isl < 64) && decide (64 ≤ m) && !x.hdrOk) = false := by
      rcases hheader with h | h | h
      · rw [decide_eq_false (Nat.not_lt.mpr h), Bool.false_and, Bool.false_and]
      · rw [decide_eq_false (Nat.not_le.mpr h), Bool.and_false, Bool.false_and]
      · rw [h, Bool.not_true, Bool.and_false]
    rw [if_neg (by rw [hfits]; exact Bool.false_ne_true), if_neg (by rw [hpoison]; exact Bool.false_ne_true)]
    exact s.delivered_run r isl _
  case header =>
    intro r isl n s x m hmember hshard hfence hgood hold hnew hbadHeader hheld
    have he := execFerryDelivery_eq hmember hshard hfence hgood (Nat.lt_of_lt_of_le hold hnew)
    have hunfit : (decide (cnt (s.run r).arrived isl < 64) && decide (64 ≤ min n (s.reach (s.run r) isl)) && !(s.run r).hdrOk) = true := by
      rw [decide_eq_true hold, decide_eq_true hnew, hbadHeader]
      rfl
    refine Runs.intro rfl (he.trans (congrArg _ (if_pos hunfit))) ((execFerryDelivery_keeps r isl n s).mono rfl) ?_
    exact State.failPort_auth_failed (by rw [State.delivered_run]; exact hgood) hheld
  case launch =>
    intro isl idx s x haction hclass hunit hstate hdue hcand hready hfence hrun
    have hlaunched := s.launchTk_tkAt (isl.val * 256 + idx.val) x false
    refine Runs.intro rfl (execWriteTiles_eq haction hunit hstate hdue hcand hready hfence hrun) ((execWriteTiles_keeps isl idx s).mono rfl)
      ⟨hlaunched.1, hlaunched.2.1, hlaunched.2.2, (s.launchTk_run _ false (Nat.ne_of_lt hunit)).1⟩
  case row =>
    intro isl idx plain r s x k i g hrun hlive hact hran hshard hgood hmore hdue hbytes hfree hgrant hopen
    obtain ⟨u, hu⟩ := Option.isSome_iff_exists.mp hgrant
    have he := execFerryRowWrite_eq plain hrun hlive hact hran hshard hgood hmore hdue hbytes hfree hu
    dsimp only at he
    rw [State.finishRun_unverified (by rwa [State.run_setRun_self]) (by rwa [State.run_setRun_self])] at he
    have hnow : u.now = s.now := congrArg BitVec.toNat ((State.grant_keeps hu).agree.count rfl)
    refine Runs.intro rfl he ((execFerryRowWrite_keeps isl idx plain s).mono rfl) ⟨fun t ht => ?_, ?_⟩
    · exact hnow ▸ State.foldl_writeShardRow_holds (rowLevels_length plain) (s.runTiles x isl) u (.inl ht)
    · rw [State.run_setRun_self]
      exact Store.get_put_same (d := flagZero) x.rows isl.val (cnt x.rows isl + 1)
  case verify =>
    intro isl idx tagOk digestOk r s x hrun hlive hact hshard hgood hbytes hopen hheld
    refine Runs.intro rfl (execFerryVerify_eq tagOk digestOk hrun hlive hact hshard hgood hbytes hopen)
      ((execFerryVerify_keeps isl idx tagOk digestOk s).mono rfl) ?_
    have hauth := State.failPort_auth_failed hgood hheld
    have hdigest := State.failPort_digest_failed hgood hheld
    cases tagOk with
    | false => exact ⟨fun h => absurd h Bool.false_ne_true, fun _ => hauth, fun h => absurd h Bool.false_ne_true⟩
    | true =>
      cases digestOk with
      | false => exact ⟨fun _ h => absurd h Bool.false_ne_true, fun h => absurd h.symm Bool.false_ne_true, fun _ _ => hdigest⟩
      | true =>
        refine ⟨fun _ _ => ?_, fun h => absurd h.symm Bool.false_ne_true, fun _ h => absurd h.symm Bool.false_ne_true⟩
        refine (congrArg (List.contains · isl.val) (State.finishRun_verified ..)).trans ?_
        rw [State.run_setRun_self, List.contains_cons, beq_self_eq_true, Bool.true_or]

end Sys2Proof.Machine
end

section
/-!
PROOFS. The harbour (R583 to R589), MOVEs (R613), the scrub (R606 to R609) and replacement under load (R628); with them HarbourAndScrub (O36) is settled.
What the reports of a read's errors leave is one relation; what an unloading plan writes is said by the offsets of registers.
-/
namespace Sys2Proof.Machine

/-! ## MOVEs (R612, R613) -/

/-- A launched ticket whose unit takes part and whose action has not run runs it. -/
theorem State.launchAndRun_toRun {s : State} {isl idx a : Nat} (h : (s.tk isl idx).toRun a = true) {pred : Ticket → Bool}
    (hpred : pred (s.tk isl idx) = true) (run : State → Nat → Ticket → State) :
    s.launchAndRun isl idx pred run = run s (isl * 256 + idx) (s.tk isl idx) := by
  simp only [Ticket.toRun, Bool.and_eq_true, decide_eq_true_eq, Bool.not_eq_true'] at h
  obtain ⟨⟨⟨hstate, hran⟩, hact⟩, -⟩ := h
  have hlaunched : s.tryLaunch (isl * 256 + idx) = s := by
    refine if_pos ?_
    change (!(decide ((s.tk isl idx).state = 1) || decide ((s.tk isl idx).state = 2)) || _) = true
    rw [hstate]
    rfl
  have hruns : ¬ ((s.tk isl idx).state != 3 || (s.tk isl idx).ran || (s.tk isl idx).noAct) = true := by
    rw [hstate, hran, hact]
    decide
  unfold State.launchAndRun
  dsimp only
  rw [hlaunched]
  refine (if_neg ?_).trans (if_neg hruns)
  change ¬ (!pred (s.tk isl idx)) = true
  rw [hpred]
  decide

theorem Ticket.action_of_toRun {x : Ticket} {a : Nat} (h : x.toRun a = true) : x.action = a := by
  simp only [Ticket.toRun, Bool.and_eq_true, decide_eq_true_eq] at h
  exact h.2

/-- What ends a MOVE: faults of its basin reads or writes are charged, and its ticket has run. -/
def State.endMove (s : State) (isl k : Nat) (x : Ticket) (faults : List LineFault) : State :=
  let u := s.noteUse isl x.ctx x.job [faults] false
  u.setTk k { u.tkAt k with ran := true }

theorem State.endMove_ran (s : State) (isl k : Nat) (x : Ticket) (faults : List LineFault) : ((s.endMove isl k x faults).tkAt k).ran = true := by
  rw [State.endMove, State.tkAt_setTk_self]

theorem State.endMove_agree (s : State) (isl k : Nat) (x : Ticket) (faults : List LineFault) :
    Agree (Fld.raised ||| Fld.leases ||| Fld.tickets ||| Fld.jobs ||| Fld.ctxs ||| Fld.imports ||| Fld.ends) s (s.endMove isl k x faults) :=
  (Keeps.step (State.setTk_keeps ..) rfl ((s.noteUse_keeps isl x.ctx x.job [faults] false).mono rfl)).agree

section
variable {s : State} {isl : Isl} {idx : TktIx} (bad : List Nat) (hrun : (s.tk isl idx).toRun 7 = true)
include hrun

theorem execHbToBasin_eq (hop : leAt (s.tk isl idx).rop 0 1 = 2) : execHbToBasin isl idx bad s = .next (
    let x := s.tk isl idx
    let moved := s.blocksIn isl x (cmdMember x.rop 0).2 (leAt x.rop 16 4 / 4096) bad
    (moved.1.add64 Reg.FRY_HB_BYTES_LO Reg.FRY_HB_BYTES_HI (4096 * (leAt x.rop 16 4 / 4096))).endMove isl (isl.val * 256 + idx.val) x moved.2) :=
  congrArg _ (State.launchAndRun_toRun hrun (by simp [Ticket.action_of_toRun hrun, hop]) _)

theorem execBasinToHb_eq (hop : leAt (s.tk isl idx).rop 0 1 = 3) : execBasinToHb isl idx bad s = .next (
    let x := s.tk isl idx
    let moved := s.blocksOut isl x (cmdMember x.rop 0).2 (leAt x.rop 16 4 / 4096) bad
    moved.1.endMove isl (isl.val * 256 + idx.val) x moved.2) :=
  congrArg _ (State.launchAndRun_toRun hrun (by simp [Ticket.action_of_toRun hrun, hop]) _)

end

/-! ## Harbour reads (R583 to R587) -/

/-- What the report of one error of a read leaves: what mutes a page, every raised bit and every poisoned line. -/
structure HbrStep (s t : State) : Prop where
  held : t.warmHeld = s.warmHeld
  raw : ∀ ty i n, s.rawBit ty i n = true → t.rawBit ty i n = true
  pois : ∀ blk line, s.hbPois blk line = true → t.hbPois blk line = true

theorem HbrStep.refl (s : State) : HbrStep s s := ⟨rfl, fun _ _ _ => id, fun _ _ => id⟩

theorem HbrStep.trans {s t u : State} (h : HbrStep s t) (k : HbrStep t u) : HbrStep s u :=
  ⟨k.held.trans h.held, fun ty i n e => k.raw ty i n (h.raw ty i n e), fun blk line e => k.pois blk line (h.pois blk line e)⟩

theorem HbrStep.ite {c : Prop} [Decidable c] {s t u : State} (ht : HbrStep s t) (hu : HbrStep s u) : HbrStep s (if c then t else u) := by
  split <;> assumption

theorem State.hbPois_of_hbPoison {s t : State} (h : t.hbPoison = s.hbPoison) (blk line : Nat) : t.hbPois blk line = s.hbPois blk line := by
  rw [State.hbPois, State.hbPois, h]

theorem ne_page {a b : Nat} (h : a < b) (i : Nat) : a ≠ b + 0x1000 * i := by omega

theorem HbrStep.setReg {a : Nat} (h : Reg.PIL_STS 0 ≠ a) (s : State) (v : Word) : HbrStep s (s.setReg a v) :=
  ⟨State.warmHeld_congr rfl (State.reg_setReg_ne _ _ _ _ h), fun _ _ _ e => e, fun _ _ e => e⟩

theorem HbrStep.raise {ty n : Nat} (hlow : ∀ code ∈ eventCode ty n, codeClass code < 3) (s : State) (i : Nat) (pl : Option (List Byte))
    (c p : Nat) : HbrStep s (s.raise ty i n pl c p) :=
  ⟨State.raise_warmHeld hlow .., (State.raise_mild ..).raw, fun blk line e => by
    rwa [State.hbPois_of_hbPoison ((State.raise_keeps ..).agree.hbPoison rfl)]⟩

theorem HbrStep.setHbPois (s : State) (blk line : Nat) : HbrStep s (s.setHbPois blk line true) := by
  have hcounted : HbrStep s (if true && !s.hbPois blk line then s.incSat (Reg.HBR_POISON_CNT (blk % 6)) 1 else s) :=
    HbrStep.ite (HbrStep.setReg (ne_page (by decide) _) s _) (HbrStep.refl s)
  refine hcounted.trans ⟨rfl, fun _ _ _ => id, fun blk' line' h => ?_⟩
  rw [State.hbPois, State.setHbPois, Store.get_put]
  split
  · rfl
  · exact h

theorem State.setHbPois_self (s : State) (blk line : Nat) : (s.setHbPois blk line true).hbPois blk line = true := by
  rw [State.hbPois, State.setHbPois, Store.get_put_same]
  rfl

/-- The last act of a found uncorrectable error is a raise; before it the line is poisoned and the registers of the error are written. -/
theorem State.lineUe_eq (s : State) (blk line src : Nat) : ∃ u c, HbrStep (s.setHbPois blk line true) u ∧
    s.lineUe blk line src = u.raiseC 5 (blk % 6) Ev.HBR_UE none c := by
  refine ⟨_, _, ?_, rfl⟩
  refine HbrStep.trans ?_ (HbrStep.setReg (ne_page (by decide) _) _ _)
  refine HbrStep.trans ?_ (HbrStep.setReg (ne_page (by decide) _) _ _)
  refine HbrStep.trans ?_ (HbrStep.setReg (ne_page (by decide) _) _ _)
  exact HbrStep.setReg (ne_page (by decide) _) _ _

theorem State.lineUe_step (s : State) (blk line src : Nat) : HbrStep s (s.lineUe blk line src) := by
  obtain ⟨u, c, hu, he⟩ := s.lineUe_eq blk line src
  rw [he]
  exact ((HbrStep.setHbPois ..).trans hu).trans (HbrStep.raise (by decide) ..)

theorem State.lineUe_pois (s : State) (blk line src : Nat) : (s.lineUe blk line src).hbPois blk line = true := by
  obtain ⟨u, c, hu, he⟩ := s.lineUe_eq blk line src
  rw [he]
  exact (HbrStep.raise (by decide) ..).pois _ _ (hu.pois _ _ (s.setHbPois_self blk line))

theorem State.lineUe_raised {s : State} (hheld : s.warmHeld = false) (blk line src : Nat) :
    (s.lineUe blk line src).rawBit 5 (blk % 6) Ev.HBR_UE = true := by
  obtain ⟨u, c, hu, he⟩ := s.lineUe_eq blk line src
  rw [he]
  exact State.raise_rawBit (hu.held.trans ((HbrStep.setHbPois ..).held.trans hheld)) (by decide) (by decide) ..

/-- The uncorrectable errors of a read are found one after another. -/
def State.foundUes (s : State) (blk src : Nat) (ue : List (Fin 64)) : State := ue.foldl (fun (s : State) (l : Fin 64) => s.lineUe blk l src) s

theorem State.foundUes_step (blk src : Nat) (ue : List (Fin 64)) (s : State) : HbrStep s (s.foundUes blk src ue) := by
  induction ue generalizing s with
  | nil => exact HbrStep.refl s
  | cons l ue ih => exact (s.lineUe_step blk l src).trans (ih _)

theorem State.foundUes_pois (blk src : Nat) (ue : List (Fin 64)) (s : State) : ∀ l ∈ ue, (s.foundUes blk src ue).hbPois blk l = true := by
  induction ue generalizing s with
  | nil => exact fun l hl => absurd hl List.not_mem_nil
  | cons l ue ih =>
    intro l' hl'
    obtain rfl | hl' := List.mem_cons.mp hl'
    · exact (State.foundUes_step blk src ue _).pois _ _ (s.lineUe_pois blk l' src)
    · exact ih _ l' hl'

theorem State.foundUes_raised {s : State} (hheld : s.warmHeld = false) (blk src : Nat) {ue : List (Fin 64)} (hue : ue ≠ []) :
    (s.foundUes blk src ue).rawBit 5 (blk % 6) Ev.HBR_UE = true := by
  obtain ⟨l, ue, rfl⟩ := List.exists_cons_of_ne_nil hue
  exact (State.foundUes_step blk src ue _).raw _ _ _ (State.lineUe_raised hheld blk l src)

/-- The lines that a read corrected are counted and raised. -/
def State.foundCes (s : State) (blk ce : Nat) : State :=
  if ce = 0 then s else
    let h := blk % 6
    let x := s.hbx h
    let u : State := { s with hbr := Store.put hbrNone s.hbr h { x with ces := List.replicate ce s.now ++ x.ces.filter fun t => s.now < t + second } }
    (u.incSat (Reg.HBR_CE_CNT h) ce).raiseC 5 h Ev.HBR_CE none ((u.blkOwner blk).getD 255)

theorem State.foundCes_step (s : State) (blk ce : Nat) : HbrStep s (s.foundCes blk ce) := by
  unfold State.foundCes
  refine HbrStep.ite (HbrStep.refl s) ?_
  extract_lets h x u
  have hu : HbrStep s u := ⟨rfl, fun _ _ _ => id, fun _ _ => id⟩
  have hcounted : HbrStep s (u.incSat (Reg.HBR_CE_CNT h) ce) := hu.trans (HbrStep.setReg (ne_page (by decide) _) u _)
  exact hcounted.trans (HbrStep.raise (by decide) ..)

theorem State.foundCes_raised {s : State} (hheld : s.warmHeld = false) (blk : Nat) {ce : Nat} (hce : ce ≠ 0) :
    (s.foundCes blk ce).rawBit 5 (blk % 6) Ev.HBR_CE = true := by
  unfold State.foundCes
  rw [if_neg hce]
  extract_lets h x u
  have hcounted : (u.incSat (Reg.HBR_CE_CNT h) ce).warmHeld = u.warmHeld := State.incSat_warmHeld (ne_page (by decide) _) u ce
  exact State.raise_rawBit (hcounted.trans hheld) (by decide) (by decide) ..

theorem State.noteChk_step (s : State) (blk c : Nat) : HbrStep s (s.noteChk blk c) :=
  (HbrStep.setReg (ne_page (by decide) _) s _).trans (HbrStep.raise (by decide) ..)

theorem State.noteChk_raised {s : State} (hheld : s.warmHeld = false) (blk c : Nat) : (s.noteChk blk c).rawBit 5 (blk % 6) Ev.HBR_CHK = true :=
  State.raise_rawBit ((State.incSat_warmHeld (ne_page (by decide) _) s 1).trans hheld) (by decide) (by decide) ..

theorem State.poisonRuns_step (s : State) (blk : Nat) (lines : List Nat) : HbrStep s (s.poisonRuns blk lines) :=
  ⟨rfl, fun _ _ _ => id, fun _ _ => id⟩

theorem execHarbourReadDone_eq {blk : Nat} (hblk : blk < 37748736) (ce : Nat) (ue : List (Fin 64)) (chk : Bool) (src : Fin 7) (s : State) :
    execHarbourReadDone blk ce ue chk src s = .next (
      let u := (s.foundCes blk ce).foundUes blk src ue
      let v := if chk then u.noteChk blk ((u.blkOwner blk).getD 255) else u
      if src.val = 0 then v.poisonRuns blk (if chk then List.range 64 else ue.map (·.val)) else v) := by
  unfold execHarbourReadDone
  rw [if_neg (Nat.not_le.mpr hblk)]
  rfl

/-! ## Correction storms and patrol (R583, R589) -/

theorem HBR_STS_kept : ∀ h : Stack, raiseReg (Reg.HBR_STS h) = false := by decide

theorem State.getF_incWrapF (s : State) (a lo w n : Nat) (h : lo + w ≤ 32) : (s.incWrapF a lo w n).getF a lo w = (s.getF a lo w + n) % 2 ^ w :=
  State.getF_setF _ _ _ _ _ h

theorem execPatrolPass_eq {s : State} {h : Stack} (hon : s.getB (Reg.HBR_CTL h) 0 = true) (hup : s.getB (Reg.HBR_STS h) 1 = false)
    (hdue : (s.hbx h).last + s.patrolTicks h ≤ s.now) : execPatrolPass h s =
    .next ({ s with hbr := Store.put hbrNone s.hbr h { s.hbx h with last := s.now } }.incWrapF (Reg.HBR_PATROL_STS h) 16 16 1) := by
  unfold execPatrolPass
  dsimp only
  rw [if_neg (by rw [hon, hup, decide_eq_false (Nat.not_lt.mpr hdue)]; decide)]

/-! ## The scrub (R606 to R609) -/

/-- A slot that failed the scrub is counted, raised and listed. -/
def State.noteBadSlot (s : State) (b : Nat) : State :=
  let u := (s.incSat Reg.FRY_SCRUB_FAIL_CNT 1).raiseC 6 0 Ev.FRY_SCRUB_FAIL none ((s.blkOwner b).getD 255)
  if u.badSlots.contains b || 1024 ≤ u.badSlots.length then u else { u with badSlots := u.badSlots ++ [b] }

theorem State.noteBadSlot_keeps (s : State) (b : Nat) : Keeps (Fld.raised ||| Fld.badSlots) s (s.noteBadSlot b) := by
  have hraised := (State.raiseC_keeps (s.incSat Reg.FRY_SCRUB_FAIL_CNT 1) 6 0 Ev.FRY_SCRUB_FAIL none ((s.blkOwner b).getD 255)).mono
    (n := Fld.raised ||| Fld.badSlots) rfl
  exact ((s.incSat_keeps Reg.FRY_SCRUB_FAIL_CNT 1).mono rfl).trans (Keeps.ite hraised (Keeps.set_badSlots _ hraised rfl))

theorem State.noteBadSlot_warmHeld (s : State) (b : Nat) : (s.noteBadSlot b).warmHeld = s.warmHeld := by
  unfold State.noteBadSlot
  extract_lets u
  have hu : u.warmHeld = s.warmHeld := (State.raise_warmHeld (by decide) ..).trans (s.incSat_warmHeld (by decide) 1)
  split <;> exact hu

theorem State.hbCountRead_warmHeld (s : State) (blk n : Nat) : (s.hbCountRead blk n).warmHeld = s.warmHeld :=
  (HbrStep.setReg (ne_page (by decide) _) _ _).held.trans (HbrStep.setReg (ne_page (by decide) _) s _).held

theorem State.warmHeld_foldl {α : Type} {step : State → α → State} (h : ∀ s x, (step s x).warmHeld = s.warmHeld) (l : List α) (s : State) :
    (l.foldl step s).warmHeld = s.warmHeld := by
  induction l generalizing s with
  | nil => rfl
  | cons x l ih => exact (ih _).trans (h s x)

/-- Every slot is read, and those that failed are noted. -/
def State.scrubbed (s : State) (bad : List Nat) : State :=
  (bad.filterMap fun i => s.allSlots[i]?).foldl State.noteBadSlot (s.allSlots.foldl State.readSlot s)

theorem State.scrubbed_count (s : State) (bad : List Nat) : (s.scrubbed bad).count = s.count :=
  (Keeps.foldl (m := Fld.raised ||| Fld.badSlots) (fun _ _ h => h.trans (State.noteBadSlot_keeps ..))
    (Keeps.foldl (fun _ _ h => h.trans ((State.readSlot_keeps ..).mono rfl)) (Keeps.refl _ s))).agree.count rfl

theorem State.scrubbed_warmHeld (s : State) (bad : List Nat) : (s.scrubbed bad).warmHeld = s.warmHeld :=
  (State.warmHeld_foldl State.noteBadSlot_warmHeld _ _).trans
    (State.warmHeld_foldl (fun s _ => State.warmHeld_foldl (fun s _ => s.hbCountRead_warmHeld ..) _ s) _ s)

/-- The registers and the start of the next pass as the end of one leaves them. -/
def State.scrubNoted (s : State) (slots ms : Nat) (late : Bool) : State :=
  (({ s with scrubFrom := s.now }.setF Reg.FRY_SCRUB_STS 0 24 slots).setReg Reg.FRY_SCRUB_LAST (BitVec.ofNat 32 ms)).setB Reg.FRY_SCRUB_STS 24 late

theorem State.scrubNoted_warmHeld (s : State) (slots ms : Nat) (late : Bool) : (s.scrubNoted slots ms late).warmHeld = s.warmHeld :=
  State.warmHeld_congr rfl ((State.reg_setB_ne _ _ _ _ _ (by decide)).trans ((State.reg_setReg_ne _ _ _ _ (by decide)).trans
    (State.reg_setF_ne _ _ _ _ _ _ (by decide))))

theorem State.scrubNoted_last (s : State) (slots ms : Nat) (late : Bool) : (s.scrubNoted slots ms late).reg Reg.FRY_SCRUB_LAST = BitVec.ofNat 32 ms :=
  (State.reg_setB_ne _ _ _ _ _ (by decide)).trans (State.reg_setReg_self ..)

theorem State.scrubNoted_slots (s : State) (slots ms : Nat) (late : Bool) :
    (s.scrubNoted slots ms late).getF Reg.FRY_SCRUB_STS 0 24 = slots % 2 ^ 24 := by
  rw [State.scrubNoted, State.setB, State.getF_setF_ne _ _ _ _ _ _ _ (by decide) (by decide), State.getF_ne _ _ _ _ _ _ (by decide),
    State.getF_setF _ _ _ _ _ (by decide)]

theorem State.scrubNoted_late (s : State) (slots ms : Nat) (late : Bool) : (s.scrubNoted slots ms late).getB Reg.FRY_SCRUB_STS 24 = late :=
  State.getB_setB _ _ _ _ (by decide)

theorem execScrubPass_eq {s : State} (hon : s.getF Reg.FRY_CTL 0 8 ≠ 0) (hdue : s.scrubFrom + s.getF Reg.FRY_CTL 0 8 * second ≤ s.now)
    (bad : List Nat) (ms : Nat) : execScrubPass bad ms s = .next (
      let late := decide (s.getF Reg.FRY_CTL 0 8 * 1000 < ms)
      let u := (s.scrubbed bad).scrubNoted s.allSlots.length ms late
      if late then u.raise 6 0 Ev.FRY_SCRUB_LATE none 255 255 else u) := by
  unfold execScrubPass
  dsimp only
  rw [if_neg (by rw [decide_eq_false hon, decide_eq_false (Nat.not_lt.mpr hdue)]; decide)]
  simp only [decide_eq_true_eq]
  rfl

/-! ## The replacement of a context (R628) -/

theorem State.swapOf_of_swaps {s t : State} (h : t.swaps = s.swaps) (c : Nat) : t.swapOf c = s.swapOf c := by rw [State.swapOf, State.swapOf, h]

theorem State.swapOf_ctx {s : State} {c : Nat} {w : Swap} (h : s.swapOf c = some w) : w.ctx = c :=
  of_decide_eq_true (List.find?_some (p := fun x : Swap => decide (x.ctx = c)) h)

/-- A replacement stored is the one found. -/
theorem State.setSwap_swapOf {s : State} {c : Nat} {w w' : Swap} (h : s.swapOf c = some w) (hctx : w'.ctx = c) : (s.setSwap w').swapOf c = some w' := by
  have hsame : ((fun x : Swap => decide (x.ctx = c)) ∘ fun x : Swap => if x.ctx = w'.ctx then w' else x) = fun x : Swap => decide (x.ctx = c) := by
    funext x
    simp only [Function.comp_apply]
    split
    · next hx => rw [hx]
    · rfl
  have hmap : (s.setSwap w').swaps = s.swaps.map fun x : Swap => if x.ctx = w'.ctx then w' else x := rfl
  have hw : s.swaps.find? (fun x => decide (x.ctx = c)) = some w := h
  rw [State.swapOf, hmap, List.find?_map, hsame, hw]
  exact congrArg some (if_pos ((State.swapOf_ctx h).trans hctx.symm))

/-- Nothing is entered where no run of the layer waits. -/
theorem State.enterOnce_nil {s : State} {c : Nat} {w : Swap} (h : s.swapOf c = some w) (htodo : w.todo = []) : s.enterOnce c = s.setSwap w := by
  have hw : ({ w with todo := [] } : Swap) = w := by rw [← htodo]
  rw [State.enterOnce, h]
  dsimp only
  rw [htodo]
  exact congrArg s.setSwap hw

/-- The last act of opening a replacement's gate is to store it; before that only FRY_SWAP_HOLD is written. -/
theorem State.swapOpen_eq (s : State) (w : Swap) : ∃ (v : Word) (u : State), u.regs = (s.setReg Reg.FRY_SWAP_HOLD v).regs ∧ u.swaps = s.swaps ∧
    s.swapOpen w = u.setSwap { w with st := 2 } := by
  unfold State.swapOpen
  extract_lets noted moved n o graded
  have hmoved := (noted.movePlan_keeps w.old w.new).agree
  have hgraded : graded.regs = moved.regs ∧ graded.swaps = moved.swaps := by
    unfold graded
    split
    · split <;> exact ⟨rfl, rfl⟩
    · exact ⟨rfl, rfl⟩
  have hopened := (graded.openGate_keeps w.ctx).agree
  exact ⟨_, graded.openGate w.ctx, (hopened.regs rfl).trans (hgraded.1.trans (hmoved.regs rfl)),
    (hopened.swaps rfl).trans (hgraded.2.trans (hmoved.swaps rfl)), rfl⟩

theorem State.swapOpen_swapOf {s : State} {c : Nat} {w w' : Swap} (h : s.swapOf c = some w) (hctx : w'.ctx = c) :
    (s.swapOpen w').swapOf c = some { w' with st := 2 } := by
  obtain ⟨v, u, -, hswaps, he⟩ := s.swapOpen_eq w'
  rw [he]
  exact State.setSwap_swapOf ((State.swapOf_of_swaps hswaps c).trans h) hctx

theorem State.swapOpen_warmHeld (s : State) (w : Swap) : (s.swapOpen w).warmHeld = s.warmHeld := by
  obtain ⟨v, u, hregs, -, he⟩ := s.swapOpen_eq w
  refine State.warmHeld_congr ((s.swapOpen_keeps w).agree.rungs rfl) ?_
  rw [he]
  exact (State.reg_setReg_ne _ _ _ _ (by decide)).trans ((State.reg_of_regs hregs _).trans (State.reg_setReg_ne _ _ _ _ (by decide)))

/-- The replacement once a layer's runs have ended well: the next layer is in hand. -/
def Swap.nextLayer (w : Swap) (held : List Nat) : Swap :=
  { w with running := false, held := held, st := if w.closed then w.st else 2, layer := w.layer + 1 }

theorem State.layerEnd_swapOf {s : State} {c : Nat} {w : Swap} (h : s.swapOf c = some w) (hst : w.st ≠ 3) (hgood : s.failedOnce w.new = []) :
    ∃ held, (s.layerEnd w).swapOf c = some (w.nextLayer held) := by
  have hplan : w.plan = w.new := if_neg hst
  have hctx := State.swapOf_ctx h
  have hdropped : (s.dropOnce w.new).swapOf c = some w := (State.swapOf_of_swaps rfl c).trans h
  unfold State.layerEnd
  dsimp only
  rw [hplan, hgood, if_neg (by decide), if_neg hst]
  refine ⟨w.held.filter fun t => !((s.dropOnce w.new).onceTiles ((s.dropOnce w.new).plan w.new) (· = w.layer)).contains t, ?_⟩
  split
  · exact State.setSwap_swapOf (State.swapOpen_swapOf hdropped hctx) hctx
  · exact State.setSwap_swapOf hdropped hctx

theorem State.failedOnce_of_runs {s t : State} (h : t.runs = s.runs) (p : Nat) : t.failedOnce p = s.failedOnce p := by
  rw [State.failedOnce, State.failedOnce, h]

/-- The replacement while its layer runs, with nothing left to enter. -/
def State.layerBegun (s : State) (w : Swap) : Swap := { w with running := true, retried := false, todo := [], act := s.now }

/-- A layer without runs ends at once. -/
theorem execSwapLayerRewrite_eq {s : State} {c : Ctx} {w : Swap} (h : s.swapOf c = some w) (hidle : w.running = false) (hst : w.st ≠ 3)
    (hfirst : 0 < w.layer) (hlast : w.layer ≤ (s.plan w.new).layers) (hpassed : s.allPassed w.old w.layer = true)
    (hnone : (s.plan w.new).onceOf w.layer = []) (hfree : (s.tickets.any fun e => e.2.action = 7 && e.2.job = 0 && e.2.plan = w.new) = false) :
    ∃ u : State, u.swapOf c = some (s.layerBegun w) ∧ u.runs = s.runs ∧ execSwapLayerRewrite c s = .next (u.layerEnd (s.layerBegun w)) := by
  have hctx : (s.layerBegun w).ctx = c := State.swapOf_ctx (w := w) h
  have hplan : w.plan = w.new := if_neg hst
  have hplan' : (s.layerBegun w).plan = w.new := hplan
  have hbegun := State.setSwap_swapOf h hctx
  have hentered := State.setSwap_swapOf hbegun hctx
  have hagain := State.setSwap_swapOf hentered hctx
  have hbegin : s.beginLayer w = (s.setSwap (s.layerBegun w)).setSwap (s.layerBegun w) := by
    have hself : s.swapOf w.ctx = some w := by rwa [State.swapOf_ctx h]
    unfold State.beginLayer
    dsimp only
    rw [hplan, hnone]
    exact State.enterOnce_nil (State.setSwap_swapOf hself rfl) rfl
  refine ⟨((s.setSwap (s.layerBegun w)).setSwap (s.layerBegun w)).setSwap (s.layerBegun w), hagain, rfl, ?_⟩
  unfold execSwapLayerRewrite
  rw [h]
  dsimp only
  rw [hidle, if_neg Bool.false_ne_true, if_neg hst, if_neg (by omega), hpassed, decide_eq_true hlast, Bool.and_self, if_pos rfl, hbegin]
  unfold State.swapAck
  rw [State.enterOnce_nil hentered rfl]
  dsimp only
  rw [hagain]
  refine congrArg _ (if_pos ?_)
  rw [hplan']
  change (true && true && !(s.tickets.any fun e => e.2.action = 7 && e.2.job = 0 && e.2.plan = w.new)) = true
  rw [hfree]
  rfl

/-! ## The old plan leaves (R628 step 6, R677) -/

/-- The offsets of the registers written where a plan is unloaded: those of released tiles, REPROG_STS, TKT_LIVE, TKT_HWM, RPL_STS, and the context's
WIN_BACKED and CTX_STS. -/
def unloadOffs : List Nat := releaseOffs ++ [0x228, 0x104, 0x108, 0x288, 0x60, 0x4C]

theorem RegsAt.mono {l m : List Nat} {s t : State} (h : RegsAt l s t) (hlm : l ⊆ m) : RegsAt m s t := fun a ha => h a <| by
  simp only [List.contains_eq_mem, decide_eq_false_iff_not] at ha ⊢
  exact fun hmem => ha (hlm hmem)

theorem State.releaseTile_unload (s : State) (gt : Nat) : RegsAt unloadOffs s (s.releaseTile gt) :=
  (s.releaseTile_regsAt gt).mono (List.subset_append_left _ _)

theorem State.setOwner_regsAt (s : State) (gt : Nat) (o : Option Nat) : RegsAt unloadOffs s (s.setOwner gt o) := by
  unfold State.setOwner
  extract_lets t u
  have ht : RegsAt unloadOffs s t := .of_regs rfl
  have hu : RegsAt unloadOffs s u := RegsAt.ite (.of_regs rfl) (.page ht (by decide) _)
  exact hu.trans (.of_regs rfl)

theorem State.freeTk_regsAt (s : State) (k : Nat) : RegsAt unloadOffs s (s.freeTk k) := by
  unfold State.freeTk
  extract_lets freed woken
  have hwoken : RegsAt unloadOffs s woken := .of_regs rfl
  exact .page (.page hwoken (by decide) _) (by decide) _

theorem State.freeTks_regsAt (s : State) (l : List (Nat × Ticket)) : RegsAt unloadOffs s (l.foldl (fun s e => s.freeTk e.1) s) := by
  apply RegsAt.foldl
  intro t e
  exact State.freeTk_regsAt t e.1

theorem State.unbackPos_regsAt (s : State) (c pos : Nat) : RegsAt unloadOffs s (s.unbackPos c pos) := by
  unfold State.unbackPos
  extract_lets x e freed
  have hfreed : RegsAt unloadOffs s freed := .of_regs rfl
  exact RegsAt.ite (.of_regs rfl) (.page hfreed (by decide) _)

theorem State.clearRplSts_regsAt (s : State) (isl : Nat) : RegsAt unloadOffs s (s.setB (Reg.ISL_RPL_STS isl) 2 false) :=
  .page (.of_regs rfl) (by decide) _

theorem State.countPlans_regsAt (s : State) (h : Nat) (p : Plan) (c : Nat) : RegsAt unloadOffs s ((s.setPlan h p).countPlans c) :=
  RegsAt.trans (t := s.setPlan h p) (.of_regs rfl) (.page (.of_regs rfl) (by decide) _)

theorem State.endJob_regsAt (s : State) (j status : Nat) : RegsAt unloadOffs s (s.endJob j status) :=
  .of_regs ((s.endJob_keeps j status).agree.regs rfl)

theorem State.unloadNow_regsAt (s : State) (h : Nat) : RegsAt unloadOffs s (s.unloadNow h) := by
  unfold State.unloadNow
  extract_lets p keep released freed dropped unreserved unbacked unbound unmarked counted
  have hreleased : RegsAt unloadOffs s released := RegsAt.foldl (fun s t => (s.setOwner_regsAt t none).trans (State.releaseTile_unload _ t)) s
  clear_value released
  have hfreed : RegsAt unloadOffs s freed := hreleased.trans (State.freeTks_regsAt released _)
  clear_value freed
  have hdropped : RegsAt unloadOffs s dropped := hfreed.trans (.of_regs rfl)
  clear_value dropped
  have hunreserved : RegsAt unloadOffs s unreserved := hdropped.trans (.of_regs ((dropped.freeRsv_keeps p).agree.regs rfl))
  clear_value unreserved
  have hunbacked : RegsAt unloadOffs s unbacked := hunreserved.trans (RegsAt.foldl (fun s pos => s.unbackPos_regsAt p.ctx pos) unreserved)
  clear_value unbacked
  have hunbound : RegsAt unloadOffs s unbound := hunbacked.trans (.of_regs ((unbacked.unbind_keeps _).agree.regs rfl))
  clear_value unbound
  have hunmarked : RegsAt unloadOffs s unmarked := hunbound.trans (RegsAt.foldl (fun s isl => s.clearRplSts_regsAt isl) unbound)
  clear_value unmarked
  have hcounted : RegsAt unloadOffs s counted := hunmarked.trans (unmarked.countPlans_regsAt h {} p.ctx)
  clear_value counted
  refine RegsAt.ite (.of_regs rfl) (hcounted.trans (RegsAt.foldl (fun s e => ?_) counted))
  exact RegsAt.ite (s.endJob_regsAt e.1 0) (RegsAt.ite (s.endJob_regsAt e.1 8) (.of_regs rfl))

/-! ## A replacement ends (R628 step 6) -/

theorem State.endSwap_swapOf (s : State) (w : Swap) (failed : Bool) : (s.endSwap w failed).swapOf w.ctx = none := by
  have hswaps : (s.endSwap w failed).swaps = s.swaps.filter fun x => x.ctx != w.ctx := rfl
  rw [State.swapOf, hswaps, List.find?_eq_none]
  intro x hx
  simpa using (List.mem_filter.mp hx).2

theorem State.endSwap_warmHeld (s : State) (w : Swap) (failed : Bool) : (s.endSwap w failed).warmHeld = s.warmHeld :=
  State.warmHeld_congr rfl ((State.reg_setB_ne _ _ _ _ _ (by decide)).trans (State.reg_setF_ne _ _ _ _ _ _ (by decide)))

/-- A field and the bit above it, both cleared, read as one field that is clear. -/
theorem fld_setFld_clear (v : Word) {w : Nat} (hw : w < 32) : fld (setFld (setFld v 0 w 0) w 1 0) 0 (w + 1) = 0 := by
  apply Nat.eq_of_testBit_eq
  intro i
  rw [fld_testBit, Nat.zero_testBit]
  by_cases hi : i < w + 1
  · rw [setFld_bit _ _ _ _ _ (by omega), setFld_bit _ _ _ _ _ (by omega)]
    split
    · simp
    · rw [if_pos (by omega)]; simp
  · rw [decide_eq_false hi, Bool.false_and]

theorem State.endSwap_state (s : State) (w : Swap) : (s.endSwap w false).getF Reg.FRY_SWAP_STS 0 4 = 0 := by
  simp only [State.endSwap, State.setB, State.setF, State.getF, State.reg_setReg_self, b2n, Bool.false_eq_true, if_false]
  exact fld_setFld_clear _ (by decide)

/-- The plan that a replacement leaves behind is unloaded, where there is one. -/
def State.oldGone (s : State) (w : Swap) : State := if w.old = 0 then s else s.unloadNow w.old

theorem State.oldGone_regsAt (s : State) (w : Swap) : RegsAt unloadOffs s (s.oldGone w) := RegsAt.ite (.of_regs rfl) (s.unloadNow_regsAt w.old)

theorem State.oldGone_rungs (s : State) (w : Swap) : (s.oldGone w).rungs = s.rungs := by
  unfold State.oldGone
  split
  · rfl
  · exact (s.unloadNow_keeps w.old).agree.rungs rfl

theorem State.oldGone_swaps (s : State) (w : Swap) : (s.oldGone w).swaps = s.swaps := by
  unfold State.oldGone
  split
  · rfl
  · exact (s.unloadNow_keeps w.old).agree.swaps rfl

/-- A replacement has ended well: it is removed, the old plan is unloaded, its job ends. -/
def State.swapEnded (s : State) (w : Swap) : State := (((if w.closed then s.swapOpen w else s).endSwap w false).oldGone w).swapJob w 0

theorem State.swapEnded_warmHeld (s : State) (w : Swap) : (s.swapEnded w).warmHeld = s.warmHeld := by
  have hopened : (if w.closed then s.swapOpen w else s).warmHeld = s.warmHeld := by
    split
    · exact s.swapOpen_warmHeld w
    · rfl
  unfold State.swapEnded
  have hjob {u : State} : (u.swapJob w 0).warmHeld = u.warmHeld :=
    State.warmHeld_congr ((u.swapJob_keeps w 0).agree.rungs rfl) (State.reg_of_regs ((u.swapJob_keeps w 0).agree.regs rfl) _)
  rw [hjob, (State.oldGone_regsAt _ w).warmHeld (by decide) (State.oldGone_rungs _ w), State.endSwap_warmHeld, hopened]

theorem State.swapEnded_swapOf (s : State) (w : Swap) : (s.swapEnded w).swapOf w.ctx = none :=
  (State.swapOf_of_swaps (((State.swapJob_keeps _ w 0).agree.swaps rfl).trans (State.oldGone_swaps _ w)) _).trans (State.endSwap_swapOf ..)

theorem State.swapEnded_state (s : State) (w : Swap) : (s.swapEnded w).getF Reg.FRY_SWAP_STS 0 4 = 0 := by
  rw [State.swapEnded, State.getF, State.reg_of_regs ((State.swapJob_keeps _ w 0).agree.regs rfl), State.oldGone_regsAt _ w _ (by decide)]
  exact State.endSwap_state ..

theorem execFrySwapDone_eq {s : State} {c : Ctx} {w : Swap} (h : s.swapOf c = some w) (hidle : w.running = false) (hst : w.st = 2)
    (hlayers : (s.plan w.new).layers = 0 ∨ (s.plan w.new).layers < w.layer) (hold : w.old = 0 ∨ s.inFlight w.old = []) :
    execFrySwapDone c s = .next ((s.swapEnded w).raiseC 6 0 Ev.FRY_SWAP_DONE none w.ctx) := by
  have hrewritten : ((s.plan w.new).layers != 0 && decide (w.layer ≤ (s.plan w.new).layers)) = false := by
    simp only [Bool.and_eq_false_iff, bne_eq_false_iff_eq, decide_eq_false_iff_not]
    omega
  have hdrained : (decide (w.old = 0) || (s.inFlight w.old).isEmpty) = true := by
    simpa using hold
  unfold execFrySwapDone
  rw [h]
  dsimp only
  rw [hidle, hst, hrewritten, hdrained]
  rfl

/-! ## The obligation -/

theorem State.getF_of_reg {s t : State} {a : Nat} (h : t.reg a = s.reg a) (lo w : Nat) : t.getF a lo w = s.getF a lo w := by
  rw [State.getF, State.getF, h]

theorem State.getB_of_reg {s t : State} {a : Nat} (h : t.reg a = s.reg a) (n : Nat) : t.getB a n = s.getB a n := by
  rw [State.getB, State.getB, h]

/-- Settles O36: each command reaches one of the equations above; what they leave in the basin, the harbour, the registers and the raised bits is said by
the laws of the operations they are made of. -/
theorem harbourAndScrub : Obligations.HarbourAndScrub := by
  unfold Obligations.HarbourAndScrub
  refine ⟨?toBasin, ?toHarbour, ?read, ?storm, ?patrol, ?scrub, ?rewrite, ?done⟩
  case toBasin =>
    intro isl idx bad s x hrun hop
    refine Runs.intro rfl (execHbToBasin_eq bad hrun hop) ((execHbToBasin_keeps isl idx bad s).mono rfl) ⟨State.endMove_ran .., ?_, ?_⟩
    · exact ((State.endMove_agree ..).basin rfl).trans ((State.add64_keeps ..).agree.basin rfl)
    · exact ((State.endMove_agree ..).lines rfl).trans ((State.add64_keeps ..).agree.lines rfl)
  case toHarbour =>
    intro isl idx bad s x hrun hop
    exact Runs.intro rfl (execBasinToHb_eq bad hrun hop) ((execBasinToHb_keeps isl idx bad s).mono rfl)
      ⟨State.endMove_ran .., (State.endMove_agree ..).harbour rfl, (State.endMove_agree ..).hbPoison rfl⟩
  case read =>
    intro blk ce ue chk src s hblk hheld
    refine Runs.intro rfl (execHarbourReadDone_eq hblk ce ue chk src s) ((execHarbourReadDone_keeps blk ce ue chk src s).mono rfl) ?_
    extract_lets u v
    have hces : HbrStep s (s.foundCes blk ce) := s.foundCes_step blk ce
    have hues : HbrStep (s.foundCes blk ce) u := State.foundUes_step ..
    have hchk : HbrStep u v := HbrStep.ite (u.noteChk_step ..) (HbrStep.refl u)
    have hend : HbrStep v (if src.val = 0 then v.poisonRuns blk (if chk then List.range 64 else ue.map (·.val)) else v) :=
      HbrStep.ite (State.poisonRuns_step ..) (HbrStep.refl v)
    have hheldCes := hces.held.trans hheld
    refine ⟨fun hce => ?_, fun hue => ?_, fun h => ?_, fun l hl => ?_⟩
    · exact ((hues.trans hchk).trans hend).raw _ _ _ (State.foundCes_raised hheld blk hce)
    · exact (hchk.trans hend).raw _ _ _ (State.foundUes_raised hheldCes blk src hue)
    · refine hend.raw _ _ _ ?_
      unfold v
      rw [if_pos h]
      exact State.noteChk_raised (hues.held.trans hheldCes) ..
    · exact (hchk.trans hend).pois _ _ (State.foundUes_pois blk src ue _ l hl)
  case storm =>
    intro h s storm hheld
    have hmild : Mild (s.setB (Reg.HBR_STS h) 2 storm)
        (if storm && !s.getB (Reg.HBR_STS h) 2 then (s.setB (Reg.HBR_STS h) 2 storm).raise 5 h Ev.HBR_CE_STORM none 255 255
         else s.setB (Reg.HBR_STS h) 2 storm) := Mild.ite (State.raise_mild ..) (Mild.refl _)
    refine Runs.intro rfl rfl ((execHbrCeStorm_keeps h s).mono rfl) ⟨?_, fun hstorm hwas => ?_, ?_⟩
    · exact (State.getB_of_reg (hmild.reg _ (HBR_STS_kept h)) 2).trans (State.getB_setB _ _ _ _ (by decide))
    · have hset : (s.setB (Reg.HBR_STS h) 2 storm).warmHeld = s.warmHeld :=
        State.warmHeld_congr rfl (State.reg_setB_ne _ _ _ _ _ (ne_page (by decide) _))
      refine (congrArg (State.rawBit · 5 h Ev.HBR_CE_STORM) (if_pos ?_)).trans
        (State.raise_rawBit (hset.trans hheld) (by decide) (by decide) h none 255 255)
      exact (Bool.and_eq_true _ _).mpr ⟨hstorm, by rw [hwas]; rfl⟩
    · exact ((RegsBut.of_regs rfl).put List.mem_cons_self _).mild hmild
  case patrol =>
    intro h s hon hup hdue
    refine Runs.intro rfl (execPatrolPass_eq hon hup hdue) ((execPatrolPass_keeps h s).mono rfl) ⟨?_, ?_, ?_⟩
    · exact congrArg HbrX.last (Store.get_put_same ..)
    · exact State.getF_incWrapF _ _ _ _ _ (by decide)
    · exact (RegsOnly.of_regs rfl).put List.mem_cons_self _
  case scrub =>
    intro bad ms s hon hdue hheld
    refine Runs.intro rfl (execScrubPass_eq hon hdue bad ms) ((execScrubPass_keeps bad ms s).mono rfl) ?_
    extract_lets late u
    have hmild : Mild u (if late then u.raise 6 0 Ev.FRY_SCRUB_LATE none 255 255 else u) := Mild.ite (State.raise_mild ..) (Mild.refl u)
    have hfrom : (if late then u.raise 6 0 Ev.FRY_SCRUB_LATE none 255 255 else u).scrubFrom = u.scrubFrom := by
      split
      · exact (State.raise_keeps ..).agree.scrubFrom rfl
      · rfl
    refine ⟨?_, ?_, ?_, ?_, fun hlong => ?_⟩
    · exact hfrom.trans (congrArg BitVec.toNat (s.scrubbed_count bad))
    · exact (hmild.reg _ (by decide)).trans (State.scrubNoted_last ..)
    · exact (State.getF_of_reg (hmild.reg _ (by decide)) 0 24).trans (State.scrubNoted_slots ..)
    · exact (State.getB_of_reg (hmild.reg _ (by decide)) 24).trans (State.scrubNoted_late ..)
    · rw [if_pos (decide_eq_true hlong)]
      exact State.raise_rawBit ((State.scrubNoted_warmHeld ..).trans ((s.scrubbed_warmHeld bad).trans hheld)) (by decide) (by decide) ..
  case rewrite =>
    intro c w s h hidle hst hfirst hlast hpassed hnone hgood hfree
    obtain ⟨u, hu, hruns, he⟩ := execSwapLayerRewrite_eq h hidle hst hfirst hlast hpassed hnone hfree
    obtain ⟨held, hend⟩ := State.layerEnd_swapOf hu hst ((State.failedOnce_of_runs hruns _).trans hgood)
    refine Runs.intro rfl he ((execSwapLayerRewrite_keeps c s).mono rfl) ?_
    rw [hend]
    exact ⟨rfl, rfl, fun hopen => congrArg some (if_neg (ne_true_of_eq_false hopen))⟩
  case done =>
    intro c w s h hidle hst hlayers hold hheld
    have hctx := State.swapOf_ctx h
    refine Runs.intro rfl (execFrySwapDone_eq h hidle hst hlayers hold) ((execFrySwapDone_keeps c s).mono rfl) ⟨?_, ?_, ?_⟩
    · exact State.raise_rawBit ((s.swapEnded_warmHeld w).trans hheld) (by decide) (by decide) ..
    · rw [State.swapOf_of_swaps ((State.raiseC_keeps ..).agree.swaps rfl), ← hctx]
      exact s.swapEnded_swapOf w
    · exact (State.getF_of_reg ((State.raiseC_mild ..).reg _ (by decide)) 0 4).trans (s.swapEnded_state w)

end Sys2Proof.Machine
end
